-- ==== Sys2Proof/Word.lean ====
section
/-! DEFINITION. The word types of the HX8 and their plainest arithmetic (R2: bit 0 is the least significant bit). -/
namespace Sys2Proof

/-- A scalar register, a control register or one word of a record. -/
abbrev Word := BitVec 64

/-- The smallest addressable unit of every memory. -/
abbrev Byte := BitVec 8

/-- One vector register, 1,024 bits (R119). -/
abbrev VWord := BitVec 1024

/-- One lane mask, 128 bits (R119). -/
abbrev VMask := BitVec 128

end Sys2Proof
end

