-- ==== Sys2Proof/Terms.lean ====
section
/-! DEFINITION. The parts an instruction is made of: guards, register operands, the engine record and its descriptors,
and the arguments of the events that come from outside the package. -/
namespace Sys2Proof

/-- A guard (R32): the predicate's number, and whether the guard holds when the predicate is false. -/
structure Guard where
  p   : BitVec 5
  neg : Bool
deriving DecidableEq, Repr

/-- A scalar source field: the register and its empty-policy bit (R34). -/
structure Src where
  r    : BitVec 6
  trap : Bool
deriving DecidableEq, Repr

/-- One operand descriptor of a record, 128 bits (Table 8.4). -/
structure Desc where
  base  : BitVec 32
  space : BitVec 4
  tag   : BitVec 8
  rsv   : BitVec 4
  s3    : BitVec 20
  s2    : BitVec 20
  s1    : BitVec 20
  s0    : BitVec 20
deriving DecidableEq, Repr

/-- An engine record without its class and operation, which the constructor of the instruction names (Tables 8.3, 8.4). -/
structure Rec where
  mods   : BitVec 16
  awSem  : BitVec 5
  awEn   : Bool
  raSem  : BitVec 5
  raEn   : Bool
  thr    : BitVec 16
  kat    : Bool
  phase  : Bool
  event  : Bool
  low    : BitVec 5
  n3     : BitVec 16
  n2     : BitVec 16
  n1     : BitVec 16
  n0     : BitVec 16
  d      : Desc
  a      : Desc
  b      : Desc
deriving DecidableEq, Repr

/-- A packet of UET traffic (R248 to R255): its source, its delivery mode (0 reliable unordered, 1 reliable ordered), its operation
(1 send, 2 tagged send, 3 conversational send, 4 role claim, 5 delegation, 6 RMA write, 7 RMA read, 8 flush, 9 PARTY_LOST), its sequence
number, the message it belongs to, its place in the message, and its bytes. -/
structure Packet where
  peerHi : Word
  peerLo : Word
  job    : BitVec 24
  mode   : Nat
  op     : Nat
  psn    : Nat
  msg    : Nat
  off    : Nat
  len    : Nat
  tag    : Word
  key    : BitVec 32
  roff   : Word
  ecn    : Bool
  /-- A security header stands in the packet (R249). -/
  sec    : Bool
  data   : List Byte
deriving DecidableEq, Repr

/-- An entry of a host ring (R259). -/
abbrev RingEntry := BitVec 512

/-- A firmware image that a die's boot ROM loads (R423, R424): the public key it comes with (x and y), the signature (r and s), the release
number, the code for the local store, and the routine table. -/
structure Image where
  keyX     : BitVec 256
  keyY     : BitVec 256
  sigR     : BitVec 256
  sigS     : BitVec 256
  release  : Word
  code     : List Byte
  routines : List (BitVec 8 × BitVec 16)
deriving DecidableEq, Repr

/-- The fields of a scalar instruction word (Table 4.1). -/
structure Fields where
  op  : BitVec 10
  gp  : BitVec 5
  gn  : Bool
  d   : BitVec 6
  a   : BitVec 6
  b   : BitVec 6
  p1  : Bool
  p2  : Bool
  imm : BitVec 28
deriving DecidableEq, Repr

/-- Why a word with an assigned opcode is no instruction: its guard is p0 negated (R32), or a field breaks R31, R42 or R83. -/
inductive DecodeError where
  | badGuard
  | badField (op : BitVec 10)
deriving DecidableEq, Repr

end Sys2Proof
end

