-- ==== Sys2Proof/Syntax.lean ====
section
/-! DEFINITION. The one inductive of the instructions and events of the HX8: one constructor for each row of the operation table.
A scalar instruction carries its guard and its operand fields; an engine record carries the record; an event carries what the
outside world or the order of arrival decides; an event without arguments acts on the subject of its turn (State.cur).
The constructors with arguments stand first. -/
namespace Sys2Proof

inductive Instr where
  /-- NOP (R54). Does nothing; a guarded NOP also does nothing. -/
  | nop (g : Guard)
  /-- ADD (R55). Writes the sum a + b modulo 2^64 to the destination. -/
  | add (g : Guard) (d : BitVec 6) (a b : Src)
  /-- SUB (R55). Writes a − b modulo 2^64 to the destination. -/
  | sub (g : Guard) (d : BitVec 6) (a b : Src)
  /-- AND (R55). Writes the bitwise AND of the two sources. -/
  | and (g : Guard) (d : BitVec 6) (a b : Src)
  /-- OR (R55). Writes the bitwise OR of the two sources. -/
  | or (g : Guard) (d : BitVec 6) (a b : Src)
  /-- XOR (R55). Writes the bitwise XOR of the two sources. -/
  | xor (g : Guard) (d : BitVec 6) (a b : Src)
  /-- ANDN (R55). Writes a AND NOT b. -/
  | andn (g : Guard) (d : BitVec 6) (a b : Src)
  /-- SHL (R55). Shifts a left by b[5:0] and brings in zeros. -/
  | shl (g : Guard) (d : BitVec 6) (a b : Src)
  /-- SHR (R55). Shifts a right by b[5:0] and brings in zeros. -/
  | shr (g : Guard) (d : BitVec 6) (a b : Src)
  /-- SAR (R55). Shifts a right by b[5:0] and brings in copies of the sign bit. -/
  | sar (g : Guard) (d : BitVec 6) (a b : Src)
  /-- MIN (R55). Writes the signed minimum of the two sources. -/
  | min (g : Guard) (d : BitVec 6) (a b : Src)
  /-- MAX (R55). Writes the signed maximum of the two sources. -/
  | max (g : Guard) (d : BitVec 6) (a b : Src)
  /-- MINU (R55). Writes the unsigned minimum of the two sources. -/
  | minu (g : Guard) (d : BitVec 6) (a b : Src)
  /-- MAXU (R55). Writes the unsigned maximum of the two sources. -/
  | maxu (g : Guard) (d : BitVec 6) (a b : Src)
  /-- SEL (R56). Writes a if predicate k is true, and b otherwise; both sources are read. -/
  | sel (g : Guard) (d : BitVec 6) (a b : Src) (p : BitVec 5)
  /-- MUL (R55). Writes the low 64 bits of the product. -/
  | mul (g : Guard) (d : BitVec 6) (a b : Src)
  /-- MULH (R55). Writes the high 64 bits of the signed 128-bit product. -/
  | mulh (g : Guard) (d : BitVec 6) (a b : Src)
  /-- MULHU (R55). Writes the high 64 bits of the unsigned 128-bit product. -/
  | mulhu (g : Guard) (d : BitVec 6) (a b : Src)
  /-- DIV (R58). Writes the signed quotient truncated toward zero, or traps DIV_ZERO on a zero divisor. -/
  | div (g : Guard) (d : BitVec 6) (a b : Src)
  /-- DIVU (R58). Writes the unsigned quotient, or traps DIV_ZERO on a zero divisor. -/
  | divu (g : Guard) (d : BitVec 6) (a b : Src)
  /-- REM (R58). Writes the signed remainder, or traps DIV_ZERO on a zero divisor. -/
  | rem (g : Guard) (d : BitVec 6) (a b : Src)
  /-- REMU (R58). Writes the unsigned remainder, or traps DIV_ZERO on a zero divisor. -/
  | remu (g : Guard) (d : BitVec 6) (a b : Src)
  /-- ADDS (R55). Writes the signed sum, clamped to the 64-bit signed range. -/
  | adds (g : Guard) (d : BitVec 6) (a b : Src)
  /-- SUBS (R55). Writes the signed difference, clamped to the 64-bit signed range. -/
  | subs (g : Guard) (d : BitVec 6) (a b : Src)
  /-- ADDUS (R55). Writes the unsigned sum, clamped to the 64-bit unsigned range. -/
  | addus (g : Guard) (d : BitVec 6) (a b : Src)
  /-- SUBUS (R55). Writes the unsigned difference, clamped to the 64-bit unsigned range. -/
  | subus (g : Guard) (d : BitVec 6) (a b : Src)
  /-- CLZ (R57). Writes the number of leading zero bits of a. -/
  | clz (g : Guard) (d : BitVec 6) (a : Src)
  /-- CTZ (R57). Writes the number of trailing zero bits of a. -/
  | ctz (g : Guard) (d : BitVec 6) (a : Src)
  /-- POPC (R57). Writes the number of one bits of a. -/
  | popc (g : Guard) (d : BitVec 6) (a : Src)
  /-- BREV (R57). Writes a with its bit order reversed. -/
  | brev (g : Guard) (d : BitVec 6) (a : Src)
  /-- BSWAP (R57). Writes a with its byte order reversed. -/
  | bswap (g : Guard) (d : BitVec 6) (a : Src)
  /-- ADD_IMM (R59). Writes a plus the sign-extended 28-bit immediate. -/
  | addImm (g : Guard) (d : BitVec 6) (a : Src) (imm : BitVec 28)
  /-- AND_IMM (R59). Writes a AND the sign-extended immediate. -/
  | andImm (g : Guard) (d : BitVec 6) (a : Src) (imm : BitVec 28)
  /-- OR_IMM (R59). Writes a OR the sign-extended immediate. -/
  | orImm (g : Guard) (d : BitVec 6) (a : Src) (imm : BitVec 28)
  /-- XOR_IMM (R59). Writes a XOR the sign-extended immediate. -/
  | xorImm (g : Guard) (d : BitVec 6) (a : Src) (imm : BitVec 28)
  /-- SHL_IMM (R59). Shifts a left by the immediate count, which runs from 0 to 63. -/
  | shlImm (g : Guard) (d : BitVec 6) (a : Src) (k : BitVec 6)
  /-- SHR_IMM (R59). Shifts a right by the immediate count and brings in zeros. -/
  | shrImm (g : Guard) (d : BitVec 6) (a : Src) (k : BitVec 6)
  /-- SAR_IMM (R59). Shifts a right by the immediate count and brings in the sign. -/
  | sarImm (g : Guard) (d : BitVec 6) (a : Src) (k : BitVec 6)
  /-- LI (R59). Writes the sign-extended 28-bit immediate. -/
  | li (g : Guard) (d : BitVec 6) (imm : BitVec 28)
  /-- LSI (R59). Shifts a left by 28 and appends the 28-bit unsigned field. -/
  | lsi (g : Guard) (d : BitVec 6) (a : Src) (imm : BitVec 28)
  /-- ADR (R59). Writes pc plus the byte offset. -/
  | adr (g : Guard) (d : BitVec 6) (imm : BitVec 28)
  /-- EXTU (R60). Extracts a bit field of a and zero-extends it. -/
  | extu (g : Guard) (d : BitVec 6) (a : Src) (pos len1 : BitVec 6)
  /-- EXTS (R60). Extracts a bit field of a and sign-extends it. -/
  | exts (g : Guard) (d : BitVec 6) (a : Src) (pos len1 : BitVec 6)
  /-- INS (R60). Inserts the low bits of a into a field of the destination. -/
  | ins (g : Guard) (d : BitVec 6) (a : Src) (pos len1 : BitVec 6)
  /-- SXT (R61). Sign-extends the low 8, 16 or 32 bits of a. -/
  | sxt (g : Guard) (d : BitVec 6) (a : Src) (w : BitVec 2)
  /-- ZXT (R61). Zero-extends the low 8, 16 or 32 bits of a. -/
  | zxt (g : Guard) (d : BitVec 6) (a : Src) (w : BitVec 2)
  /-- CMP_EQ (R62). Sets the predicate to a = b, register form. -/
  | cmpEq (g : Guard) (pd : BitVec 5) (a b : Src)
  /-- CMP_NE (R62). Sets the predicate to a ≠ b, register form. -/
  | cmpNe (g : Guard) (pd : BitVec 5) (a b : Src)
  /-- CMP_LT (R62). Sets the predicate to signed a < b, register form. -/
  | cmpLt (g : Guard) (pd : BitVec 5) (a b : Src)
  /-- CMP_LE (R62). Sets the predicate to signed a ≤ b, register form. -/
  | cmpLe (g : Guard) (pd : BitVec 5) (a b : Src)
  /-- CMP_LTU (R62). Sets the predicate to unsigned a < b, register form. -/
  | cmpLtu (g : Guard) (pd : BitVec 5) (a b : Src)
  /-- CMP_LEU (R62). Sets the predicate to unsigned a ≤ b, register form. -/
  | cmpLeu (g : Guard) (pd : BitVec 5) (a b : Src)
  /-- CMP_EQ_IMM (R62). Sets the predicate to a = sign-extended immediate. -/
  | cmpEqImm (g : Guard) (pd : BitVec 5) (a : Src) (imm : BitVec 28)
  /-- CMP_NE_IMM (R62). Sets the predicate to a ≠ immediate. -/
  | cmpNeImm (g : Guard) (pd : BitVec 5) (a : Src) (imm : BitVec 28)
  /-- CMP_LT_IMM (R62). Sets the predicate to signed a < immediate. -/
  | cmpLtImm (g : Guard) (pd : BitVec 5) (a : Src) (imm : BitVec 28)
  /-- CMP_LE_IMM (R62). Sets the predicate to signed a ≤ immediate. -/
  | cmpLeImm (g : Guard) (pd : BitVec 5) (a : Src) (imm : BitVec 28)
  /-- CMP_LTU_IMM (R62). Sets the predicate to unsigned a < sign-extended immediate. -/
  | cmpLtuImm (g : Guard) (pd : BitVec 5) (a : Src) (imm : BitVec 28)
  /-- CMP_LEU_IMM (R62). Sets the predicate to unsigned a ≤ sign-extended immediate. -/
  | cmpLeuImm (g : Guard) (pd : BitVec 5) (a : Src) (imm : BitVec 28)
  /-- PAND (R63). Sets a predicate to the AND of two predicates. -/
  | pand (g : Guard) (pd pa pb : BitVec 5)
  /-- POR (R63). Sets a predicate to the OR of two predicates. -/
  | por (g : Guard) (pd pa pb : BitVec 5)
  /-- PXOR (R63). Sets a predicate to the XOR of two predicates. -/
  | pxor (g : Guard) (pd pa pb : BitVec 5)
  /-- PANDN (R63). Sets a predicate to p[pa] AND NOT p[pb]. -/
  | pandn (g : Guard) (pd pa pb : BitVec 5)
  /-- MFP (R64). Copies all 32 predicates into a scalar register. -/
  | mfp (g : Guard) (d : BitVec 6)
  /-- MTP (R64). Sets predicates 1 to 31 from bits of a scalar register. -/
  | mtp (g : Guard) (a : Src)
  /-- BR (R65). Branches to pc + 8 × imm, a taken transfer under R67. -/
  | br (g : Guard) (imm : BitVec 28)
  /-- CALL (R65). Writes pc + 8 to s63 and branches to pc + 8 × imm. -/
  | call (g : Guard) (imm : BitVec 28)
  /-- JR (R66). Jumps to the address in a register, or traps MISALIGNED. -/
  | jr (g : Guard) (a : Src)
  /-- CALLR (R66). Writes pc + 8 to s63 and jumps to the address in a register. -/
  | callr (g : Guard) (a : Src)
  /-- LOOP (R71). Sets up loop set n with a count taken from a register, or jumps past the body when the count is 0. -/
  | loop (g : Guard) (n : BitVec 1) (a : Src) (imm : BitVec 28)
  /-- LOOPI (R71). Sets up loop set n with a 12-bit immediate count. -/
  | loopi (g : Guard) (n : BitVec 1) (cnt : BitVec 12) (imm : BitVec 28)
  /-- LPCLR (R73). Sets loop set n inactive and leaves its registers unchanged. -/
  | lpclr (g : Guard) (n : BitVec 1)
  /-- LD_S_B (R75). Loads a byte from scratchpad, sign-extended. -/
  | ldSB (g : Guard) (d : BitVec 6) (a : Src) (imm : BitVec 28)
  /-- LD_S_BU (R75). Loads a byte from scratchpad, zero-extended. -/
  | ldSBu (g : Guard) (d : BitVec 6) (a : Src) (imm : BitVec 28)
  /-- LD_S_H (R75). Loads a halfword from scratchpad, sign-extended. -/
  | ldSH (g : Guard) (d : BitVec 6) (a : Src) (imm : BitVec 28)
  /-- LD_S_HU (R75). Loads a halfword from scratchpad, zero-extended. -/
  | ldSHu (g : Guard) (d : BitVec 6) (a : Src) (imm : BitVec 28)
  /-- LD_S_W (R75). Loads a word from scratchpad, sign-extended. -/
  | ldSW (g : Guard) (d : BitVec 6) (a : Src) (imm : BitVec 28)
  /-- LD_S_WU (R75). Loads a word from scratchpad, zero-extended. -/
  | ldSWu (g : Guard) (d : BitVec 6) (a : Src) (imm : BitVec 28)
  /-- LD_S (R75). Loads 8 bytes from scratchpad. -/
  | ldS (g : Guard) (d : BitVec 6) (a : Src) (imm : BitVec 28)
  /-- ST_S_B (R75). Stores a byte to scratchpad. -/
  | stSB (g : Guard) (a b : Src) (imm : BitVec 28)
  /-- ST_S_H (R75). Stores a halfword to scratchpad. -/
  | stSH (g : Guard) (a b : Src) (imm : BitVec 28)
  /-- ST_S_W (R75). Stores a word to scratchpad. -/
  | stSW (g : Guard) (a b : Src) (imm : BitVec 28)
  /-- ST_S (R75). Stores 8 bytes to scratchpad. -/
  | stS (g : Guard) (a b : Src) (imm : BitVec 28)
  /-- LD_G_B (R79). Global byte load, sign-extended; marks its destination empty. -/
  | ldGB (g : Guard) (d : BitVec 6) (a : Src) (imm : BitVec 28)
  /-- LD_G_BU (R79). Global byte load, zero-extended; marks its destination empty. -/
  | ldGBu (g : Guard) (d : BitVec 6) (a : Src) (imm : BitVec 28)
  /-- LD_G_H (R79). Global halfword load, sign-extended. -/
  | ldGH (g : Guard) (d : BitVec 6) (a : Src) (imm : BitVec 28)
  /-- LD_G_HU (R79). Global halfword load, zero-extended. -/
  | ldGHu (g : Guard) (d : BitVec 6) (a : Src) (imm : BitVec 28)
  /-- LD_G_W (R79). Global word load, sign-extended. -/
  | ldGW (g : Guard) (d : BitVec 6) (a : Src) (imm : BitVec 28)
  /-- LD_G_WU (R79). Global word load, zero-extended. -/
  | ldGWu (g : Guard) (d : BitVec 6) (a : Src) (imm : BitVec 28)
  /-- LD_G (R79). Global 8-byte load through the data cache; marks its destination empty. -/
  | ldG (g : Guard) (d : BitVec 6) (a : Src) (imm : BitVec 28)
  /-- ST_G_B (R82). Global byte store into the data cache. -/
  | stGB (g : Guard) (a b : Src) (imm : BitVec 28)
  /-- ST_G_H (R82). Global halfword store into the data cache. -/
  | stGH (g : Guard) (a b : Src) (imm : BitVec 28)
  /-- ST_G_W (R82). Global word store into the data cache. -/
  | stGW (g : Guard) (a b : Src) (imm : BitVec 28)
  /-- ST_G (R82). Global 8-byte store into the data cache. -/
  | stG (g : Guard) (a b : Src) (imm : BitVec 28)
  /-- GLOBAL_LOAD_FILL (R79). The value of a global load arrives, and the destination register becomes full. -/
  | globalLoadFill (k : Nat)
  /-- WRITEBACK_PERFORM (R80). A write-back reaches its owner die, where it is translated and performed, or raises UNMAPPED_ACCESS or PERMISSION. -/
  | writebackPerform (k : Nat)
  /-- PUSH (R89). Validates a record held in eight registers and enqueues it, or reports that the queue is full in a predicate. -/
  | push (g : Guard) (pd : BitVec 5) (a : Src) (q : BitVec 2)
  /-- PUSHM (R89). Validates a 64-byte record held in scratchpad and enqueues it, or reports that the queue is full. -/
  | pushm (g : Guard) (pd : BitVec 5) (a : Src) (q : BitVec 2) (off : BitVec 22)
  /-- RTAIL (R90). Accepts n records already written in the ring and raises PEND for each one. -/
  | rtail (g : Guard) (a : Src) (q : BitVec 2)
  /-- QFENCE (R92). Writes JOIN fences with one join number into the named queues. -/
  | qfence (g : Guard) (mask : BitVec 3)
  /-- SEMADD (R93). Adds to DONE of a semaphore and can clear its ERR. -/
  | semadd (g : Guard) (a : Src) (k : BitVec 5)
  /-- SEMWAIT (R93). Waits until DONE reaches a value, or until ERR is set. -/
  | semwait (g : Guard) (a : Src) (k : BitVec 5)
  /-- WAITB (R93). Waits until PEND − DONE is below the threshold, or until ERR is set. -/
  | waitb (g : Guard) (k : BitVec 5) (t : BitVec 22)
  /-- SEMRD_DONE (R93). Reads DONE and ERR of a semaphore. -/
  | semrdDone (g : Guard) (d : BitVec 6) (k : BitVec 5)
  /-- SEMRD_PEND (R93). Reads PEND and ERR of a semaphore. -/
  | semrdPend (g : Guard) (d : BitVec 6) (k : BitVec 5)
  /-- PAUSE (R95). Stops fetch for n clk and gives the scratchpad port to the engines. -/
  | pause (g : Guard) (n : BitVec 22)
  /-- WAITA (R96). On a wayside thread, watches a 64-byte line at its home. -/
  | waita (g : Guard) (pd : BitVec 5) (a : Src) (off : BitVec 22)
  /-- WAITA_RETURN (R96). WAITA returns on a write to the line, or spuriously on the loss of its monitor. -/
  | waitaReturn (lost : Bool)
  /-- ACQ_X (R98). Requests an exclusive hold of a sync object. -/
  | acqX (g : Guard) (a : Src)
  /-- ACQ_S (R98). Requests a shared hold of a sync object. -/
  | acqS (g : Guard) (a : Src)
  /-- REL (R98). Writes back dirty lines, waits for its stores to be performed, and gives up the hold. -/
  | rel (g : Guard) (a : Src)
  /-- REL_SET (R98). Writes back and waits as REL does, then stores a value into the object's VALUE word with release. -/
  | relSet (g : Guard) (a b : Src)
  /-- LD_ACQ (R99). Loads 8 bytes at the home with acquire, and invalidates lines of the cache. -/
  | ldAcq (g : Guard) (d : BitVec 6) (a : Src) (off : BitVec 22)
  /-- ACQUIRE_LOAD_FILL (R99). The value of an LD.ACQ returns, the invalidation is made, and the destination becomes full. -/
  | acquireLoadFill (k : Nat)
  /-- TBAR (R101). The task arrives at the team barrier once its drain has finished. -/
  | tbar (g : Guard)
  /-- SSTEP (R101). The task arrives at the end of the team superstep once its peer copies have been acknowledged. -/
  | sstep (g : Guard)
  /-- CBAR (R101). The task arrives at the caravan barrier. -/
  | cbar (g : Guard)
  /-- CSTEP (R101). The task arrives at the end of the caravan superstep. -/
  | cstep (g : Guard)
  /-- SPAWN (R299). Submits a work item to the child pool or to the spill queue, or reports refusal. -/
  | spawn (g : Guard) (d : BitVec 6) (a : Src) (off : BitVec 22)
  /-- MSEND (R104). Hands a message to the Crossroads die and returns a status. -/
  | msend (g : Guard) (d : BitVec 6) (a : Src) (off : BitVec 22)
  /-- CSEND (R105). Sends a conversational message and waits for the home's verdict. -/
  | csend (g : Guard) (a : Src) (off : BitVec 22)
  /-- CSEND_A (R28). Sends a conversational message and marks its destination empty until the verdict arrives. -/
  | csendA (g : Guard) (d : BitVec 6) (a : Src) (off : BitVec 22)
  /-- CROLE (R356). Binds a role of a conversation to the task, sets up its inbox, and places the held messages. -/
  | crole (g : Guard) (d : BitVec 6) (a b : Src) (off : BitVec 22)
  /-- CDELEG (R358). Delegates a held role to the endpoint of another queue, with an optional hand-over payload. -/
  | cdeleg (g : Guard) (a b : Src) (off : BitVec 22)
  /-- MFCR (R109). Reads a control register. -/
  | mfcr (g : Guard) (d : BitVec 6) (c : BitVec 12)
  /-- MTCR (R109). Writes a control register that has no row of its own, under R83 and R84. -/
  | mtcr (g : Guard) (a : Src) (c : BitVec 12)
  /-- RING_REGISTER_WRITE (R134). An MTCR to q_BASE or q_COUNT checks the ring's bounds and resets HEAD and TAIL. -/
  | ringRegisterWrite (g : Guard) (a : Src) (q : BitVec 2) (count : Bool)
  /-- MLEASE_WRITE (R174). Context 0 sets LEASE_RUN for the quad from the next grant on. -/
  | mleaseWrite (g : Guard) (a : Src)
  /-- TRAP (R110). Takes the precise trap TRAP with TVAL set to the code. -/
  | trapOp (g : Guard) (code : BitVec 16)
  /-- BREAK (R110). Takes the precise trap BREAK. -/
  | brk (g : Guard)
  /-- ERET (R21). Returns to TPC and restores STATUS from TSTATUS, apart from PH. -/
  | eret (g : Guard)
  /-- DONE (R111). Ends the task or handler after its records, fills, write-backs and stores have finished. -/
  | doneOp (g : Guard)
  /-- PROBE (R106). Checks that a global range is mapped and raises page requests for units that are not. -/
  | probe (g : Guard) (a b : Src)
  /-- PHINT (R107). A pre-emption point; if a request is pending, the task stops here for saving. -/
  | phint (g : Guard) (a : Src) (imm : BitVec 28)
  /-- PHASE (R108). Commits the buffer phase, toggles STATUS.PH and takes a checkpoint. -/
  | phase (g : Guard)
  /-- SHOOT (R112). Removes a context's translations for a range from the die's TLBs. -/
  | shoot (g : Guard) (a b : Src)
  /-- VLD (R188). Loads scratchpad spans into vector register lanes. -/
  | vld (r : Rec)
  /-- VLD_BC (R188). Loads one element and broadcasts it to every active lane. -/
  | vldBc (r : Rec)
  /-- VST (R188). Stores the active lanes of a register to scratchpad. -/
  | vst (r : Rec)
  /-- VMOV (R189). Copies a register's bits under a new tag. -/
  | vmov (r : Rec)
  /-- ACCRD (R190). Reads accumulator entries into a register or into scratchpad. -/
  | accrd (r : Rec)
  /-- ACCWR (R191). Writes register lanes into accumulator entries. -/
  | accwr (r : Rec)
  /-- PARK (R192). Parks vector registers in spill-map groups. -/
  | park (r : Rec)
  /-- UNPARK (R193). Returns parked groups to vector registers. -/
  | unpark (r : Rec)
  /-- FADD (R194). Floating-point add, lane by lane. -/
  | fadd (r : Rec)
  /-- FSUB (R194). Floating-point subtract, lane by lane. -/
  | fsub (r : Rec)
  /-- FMUL (R194). Floating-point multiply, lane by lane. -/
  | fmul (r : Rec)
  /-- FMA (R194). Fused multiply-add with a single rounding. -/
  | fma (r : Rec)
  /-- FMIN (R194). Floating-point minimum, lane by lane. -/
  | fmin (r : Rec)
  /-- FMAX (R194). Floating-point maximum, lane by lane. -/
  | fmax (r : Rec)
  /-- FABS (R194). Floating-point absolute value. -/
  | fabs (r : Rec)
  /-- FNEG (R194). Floating-point negation. -/
  | fneg (r : Rec)
  /-- FDIV (R194). Correctly rounded floating-point divide. -/
  | fdiv (r : Rec)
  /-- FSQRT (R194). Correctly rounded square root. -/
  | fsqrt (r : Rec)
  /-- FRSQRT (R194). Correctly rounded reciprocal square root. -/
  | frsqrt (r : Rec)
  /-- FRCP (R194). Correctly rounded reciprocal. -/
  | frcp (r : Rec)
  /-- IADD (R195). Integer add, wrapping or saturating. -/
  | iadd (r : Rec)
  /-- ISUB (R195). Integer subtract, wrapping or saturating. -/
  | isub (r : Rec)
  /-- IAND (R195). Bitwise AND of two registers. -/
  | iand (r : Rec)
  /-- IOR (R195). Bitwise OR of two registers. -/
  | ior (r : Rec)
  /-- IXOR (R195). Bitwise XOR of two registers. -/
  | ixor (r : Rec)
  /-- ISHL (R196). Integer shift left, lane by lane. -/
  | ishl (r : Rec)
  /-- ISHR (R196). Integer logical shift right, lane by lane. -/
  | ishr (r : Rec)
  /-- ISAR (R196). Integer arithmetic shift right, lane by lane. -/
  | isar (r : Rec)
  /-- IMIN (R195). Integer minimum, lane by lane. -/
  | imin (r : Rec)
  /-- IMAX (R195). Integer maximum, lane by lane. -/
  | imax (r : Rec)
  /-- IMUL (R195). Integer multiply, wrapping or saturating. -/
  | imul (r : Rec)
  /-- IDOT4 (R197). Adds a four-element INT8 dot product into each INT32 lane. -/
  | idot4 (r : Rec)
  /-- FCMP (R198). Floating-point compare into a mask. -/
  | fcmp (r : Rec)
  /-- ICMP (R198). Integer compare into a mask. -/
  | icmp (r : Rec)
  /-- VSEL (R199). Selects each lane from A or B by the mask. -/
  | vsel (r : Rec)
  /-- MASKOP (R200). Combines whole masks with AND, OR, XOR or AND NOT. -/
  | maskop (r : Rec)
  /-- CVT (R201). Converts lanes between the format pairs of Table 9.5. -/
  | cvt (r : Rec)
  /-- QUANT (R202). Quantises 32 FP32 values to INT8 with one E5M3 scale. -/
  | quant (r : Rec)
  /-- DEQUANT (R203). Dequantises INT8 values with an E5M3 scale. -/
  | dequant (r : Rec)
  /-- TRPACK (R204). Packs INT8 lanes into T5 bytes. -/
  | trpack (r : Rec)
  /-- TRUNPACK (R205). Decodes T5 bytes into INT8 lanes. -/
  | trunpack (r : Rec)
  /-- RSUM (R206). Tree sum of lanes, in groups. -/
  | rsum (r : Rec)
  /-- RMAX (R206). Tree maximum of lanes, in groups. -/
  | rmax (r : Rec)
  /-- RMIN (R206). Tree minimum of lanes, in groups. -/
  | rmin (r : Rec)
  /-- VPERM (R208). Permutes lanes by the indices in B. -/
  | vperm (r : Rec)
  /-- VSHUF (R209). Interleaves or de-interleaves two registers. -/
  | vshuf (r : Rec)
  /-- VBCAST (R210). Broadcasts one lane to every active lane. -/
  | vbcast (r : Rec)
  /-- MCFG (R178). Loads the matrix configuration block under a grant. -/
  | mcfg (r : Rec)
  /-- MZERO (R180). Zeroes accumulator blocks and sets their tags. -/
  | mzero (r : Rec)
  /-- MDOT_T (R167). Ternary-weight product accumulated into the accumulator, step by step. -/
  | mdotT (r : Rec)
  /-- MDOT_S4 (R167). Signed 4-bit-weight product on digit planes. -/
  | mdotS4 (r : Rec)
  /-- MDOT_I8 (R167). INT8-weight product on digit planes. -/
  | mdotI8 (r : Rec)
  /-- COPY (R219). Copies runs between scratchpad and global memory. -/
  | copy (r : Rec)
  /-- FILL (R220). Fills runs with a byte value. -/
  | fill (r : Rec)
  /-- PUT (R221). Writes runs into a team member's scratchpad. -/
  | put (r : Rec)
  /-- GET (R221). Reads runs from a team member's scratchpad. -/
  | get (r : Rec)
  /-- PUTRED (R222). Combines runs into a peer's scratchpad or global memory at a reduction unit. -/
  | putred (r : Rec)
  /-- MCAST (R223). Writes runs to every core named in a peer mask. -/
  | mcast (r : Rec)
  /-- APUT (R224). Contributes elements to a combine tree through the aperture. -/
  | aput (r : Rec)
  /-- NODE_TIMEOUT (R304). A node's round timer expires; the node forwards what it holds with a MISSING mask and may close the tree. -/
  | nodeTimeout (j : Nat)
  /-- SEMPOST (R225). Adds 1 to DONE, and optionally sets ERR, of a semaphore on a team core. -/
  | sempost (r : Rec)
  /-- NSEND (R227). Sends one message per issue on a connection. -/
  | nsend (r : Rec)
  /-- NWRITE (R228). RMA-writes runs to a remote window. -/
  | nwrite (r : Rec)
  /-- NREAD (R228). RMA-reads runs from a remote window. -/
  | nread (r : Rec)
  /-- NFLUSH (R229). Sends a flush that completes when earlier NWRITEs have been placed. -/
  | nflush (r : Rec)
  /-- JOIN (R140). A fence record that waits until every fence of its join group reaches the head of its queue. -/
  | join (r : Rec)
  /-- RECORD_COMPLETE (R135). A record completes; HEAD advances, the raise takes effect, and EVT is set if asked. -/
  | recordComplete (q : BitVec 2)
  /-- PACKET_ARRIVAL (R251). A packet arrives at a port and is accepted, dropped as a duplicate, or refused, then acknowledged. -/
  | packetArrival (p : Option Packet)
  /-- RMA_WRITE_ARRIVAL (R268). An RMA write is checked against a key entry and placed, or refused. -/
  | rmaWriteArrival (p : Packet)
  /-- RMA_READ_ARRIVAL (R254). An RMA read is served through a key entry from the home, and may set REMOTE. -/
  | rmaReadArrival (p : Packet)
  /-- FLUSH_ARRIVAL (R255). A flush is acknowledged once every covered write has been placed. -/
  | flushArrival (p : Packet)
  /-- ACK_RECEIVED (R253). An acknowledgement updates inflight, SRTT and the congestion window. -/
  | ackReceived (conn mode psn : Nat) (marked : Bool)
  /-- RETRANSMIT_TIMEOUT (R252). An unacknowledged packet is sent again and its window halves; after 16 tries the connection fails. -/
  | retransmitTimeout (conn mode psn : Nat)
  /-- MILESTONE_INCREMENT (R270). An increment is applied to a milestone's COUNT, and fires it when it crosses THRESH. -/
  | milestoneIncrement (k : Nat)
  /-- HOST_RING_DOORBELL (R258). The host writes RTAIL of a ring. -/
  | hostRingDoorbell (v : Word)
  /-- HOST_RING_ENABLE (R258). A write to RCFG sets or clears EN after checking the ring. -/
  | hostRingEnable (v : Word)
  /-- HOST_RING_FETCH (R259). The fetcher reads a ring entry and delivers it as an arrival, or stops the ring in error. -/
  | hostRingFetch (entry : Option RingEntry) (data : Option Nat)
  /-- ATS_INVALIDATION (R260). A host invalidation request drops matching cache entries, and is then completed. -/
  | atsInvalidation (pasid lo hi : Nat)
  /-- PASID_TEARDOWN (R261). A PASIDCTL write stops the PASID's rings and kills their owning contexts. -/
  | pasidTeardown (v : Word)
  /-- BAR0_REGISTER_WRITE (R257). A host write to a management register that has no row of its own. -/
  | bar0RegisterWrite (off : Nat) (v : Word)
  /-- WORK_ITEM_COMPLETE (R282). The status word is stored, the completion milestone advances, and the callback is queued. -/
  | workItemComplete (k : Nat)
  /-- TEAM_MOVE (R298). A team that has waited over 20 µs is moved to another die. -/
  | teamMove (d : Nat)
  /-- SLOT_TIMEOUT (R335). A line's turn waits TMO on one slot; the slot is skipped and SKIPS counts it. -/
  | slotTimeout (line : Nat)
  /-- SCAN_COMPLETE (R379). Segment 7 ends; the core becomes HELD with RESULT passed or failed. -/
  | scanComplete (fail : BitVec 48) (diff : Word)
  /-- CORECAP_WRITE (R382). Clears mask bits in any state and sets bits only in HELD or SPARE. -/
  | corecapWrite (g : Guard) (a : Src)
  /-- LCMENT_WRITE (R383). Gives a logical map entry to a spare core. -/
  | lcmentWrite (g : Guard) (a : Src)
  /-- LEADCAS_WRITE (R422). A compare-and-set claims or renews the lead lease. -/
  | leadcasWrite (g : Guard) (a : Src)
  /-- HBEAT_WRITE (R422). A firmware core records its heartbeat. -/
  | hbeatWrite (g : Guard) (a : Src)
  /-- ATTESTATION_REQUEST (R425). An ATTCTL write produces a signed attestation report. -/
  | attestationRequest (v : Word)
  /-- RESET_RELEASE (R418). The release of RESET_N samples the straps and starts the Crossroads die. -/
  | resetRelease (boot : BitVec 2) (modId : BitVec 4) (img : Image)
  /-- DIE_START (R418). A tile die starts and its stack trains at 6.4 Gb/s. -/
  | dieStart (img : Image)
  /-- QUAD_GROUP_START (R418). A group of 8 quads starts. -/
  | quadGroupStart (k : Nat)
  /-- POWER_SAMPLE (R426). Input power is sampled every 10 µs, and PALARM rises or falls. -/
  | powerSample (w : Nat)
  /-- PWR_ALERT (R426). PWR_ALERT_N is asserted or released. -/
  | pwrAlert (on : Bool)
  /-- THERMAL_SENSOR (R427). A die sensor crosses 95 °C or 105 °C; TALARM is set or THERM_TRIP_N is asserted. -/
  | thermalSensor (sensor deg : Nat)
  /-- UNASSIGNED_OPCODE (R40). The scalar core reaches an instruction word whose opcode is unassigned, and traps ILLEGAL_OP with DETAIL 0. -/
  | unassignedOpcode (w : Word)
  /-- RECORD_INVALID (R131). An engine reaches an invalid record accepted by RTAIL whose class or operation is unassigned, and raises the context fault RECORD_INVALID. -/
  | recordInvalid (w : BitVec 512)
  /-- NEGATIVE_ACKNOWLEDGEMENT (R217). A negative acknowledgement reaches the sender, and the sender's operation completes REFUSED. -/
  | negativeAcknowledgement (conn mode psn : Nat)
  /-- SEMWAIT_COMPLETE (R94). A waiting SEMWAIT completes when its condition holds, and orders the later scratchpad accesses. -/
  | semwaitComplete
  /-- WAITB_COMPLETE (R94). A waiting WAITB completes when its condition holds. -/
  | waitbComplete
  /-- PAUSE_EXPIRE (R95). The pause count expires and fetch resumes. -/
  | pauseExpire
  /-- ACQ_GRANT (R316). The home grants the waiting request, and the core writes back and invalidates the lines of the bound regions. -/
  | acqGrant
  /-- BARRIER_COMPLETE (R101). All members have arrived; the barrier object's lines are invalidated, or SSNUM increments. -/
  | barrierComplete
  /-- CSEND_VERDICT (R369). The verdict returns: CSEND retires or traps, or the destination of CSEND.A is filled. -/
  | csendVerdict
  /-- CONV_PLACEMENT (R357). An accepted message is placed in the bound holder's inbox, and the inbox semaphore is raised. -/
  | convPlacement
  /-- TASK_END (R111). The drain of DONE finishes; the task is counted complete and its holds are released. -/
  | taskEnd
  /-- PAGE_REQUEST_ANSWER (R245). The page-request handler's DONE answers the request: the PROBE retries or traps PROBE_FAULT. -/
  | pageRequestAnswer
  /-- LEASE_GRANT (R113). The free array grants a pending request round-robin over the quad slots, or chains the grant to the next record. -/
  | leaseGrant
  /-- LAUNCH (R281). A triggered LAUNCH hands a work item to the dispatcher, or is skipped. -/
  | launch
  /-- TRIGGERED_COPY (R272). A triggered COPY accepts a copy record into a running task's ring. -/
  | triggeredCopy
  /-- SEND (R237). A triggered SEND reads a payload and sends it as one message. -/
  | send
  /-- RAISE (R272). A triggered RAISE adds 1 to DONE of a semaphore on a resident core, and may set ERR. -/
  | raise
  /-- MSADD (R272). A triggered MSADD applies an increment of V to a milestone. -/
  | msadd
  /-- HANDLER (R272). A triggered HANDLER queues a KIND 2 event. -/
  | handler
  /-- HANDLER_START (R244). A free wayside thread starts the handler for a queued event. -/
  | handlerStart
  /-- HANDLER_WATCHDOG (R246). A handler passes its watchdog limit, and its context faults WATCHDOG. -/
  | handlerWatchdog
  /-- DRAINREQ_WRITE (R276). A store to DRAINREQ starts a drain request. -/
  | drainreqWrite
  /-- DRAIN_REQUEST_DONE (R276). Every earlier matched message has been placed or has failed, and DRAINDONE takes the value. -/
  | drainRequestDone
  /-- PASID_TEARDOWN_DONE (R261). The outstanding requests have completed or timed out, and FREE is set. -/
  | pasidTeardownDone
  /-- DISPATCH (R289). The dispatcher chooses the runnable queue with the lowest PASS and dispatches its head work item. -/
  | dispatch
  /-- PREEMPT_LIMIT_EXPIRE (R393). A task that has not reached a PHINT within PREEMPT_LIMIT is stopped for a full save. -/
  | preemptLimitExpire
  /-- TEAM_SAVE (R395). The save engine saves every stopped task of the team and releases its slot and cores. -/
  | teamSave
  /-- TEAM_RESTORE (R397). A saved team is restored on claimed cores and resumes. -/
  | teamRestore
  /-- TREE_LOAD (R331). A store of VALID = 1 loads a combine tree, or sets BAD. -/
  | treeLoad
  /-- TIMESLOT_LOAD (R334). A store of VALID = 1 loads a time-slot table, or sets BAD. -/
  | timeslotLoad
  /-- COLLECTIVE_ARM (R337). A store of VALID = 1 arms a collective entry. -/
  | collectiveArm
  /-- ITINERARY_LOAD (R361). A store of VALID = 1 loads an itinerary, or sets BAD. -/
  | itineraryLoad
  /-- CONVERSATION_OPEN (R364). A store of OPEN = 1 opens a conversation, or sets BAD. -/
  | conversationOpen
  /-- CONVERSATION_KILL (R371). A KILL write aborts the conversation with LOST 0xFF. -/
  | conversationKill
  /-- PARTY_LOST (R371). A PARTY_LOST arrival, or a failed connection, aborts a conversation at its home. -/
  | partyLost
  /-- CONVERSATION_FREE (R374). A FREE write zeroes a closed or aborted object. -/
  | conversationFree
  /-- MIGRATION_REQUEST (R352). Writing GO starts a migration of a span within the die. -/
  | migrationRequest
  /-- MIGRATION_COMPLETE (R322). The admitted requests have drained, the pages are copied, the translation is swapped and shot down, and held requests are released. -/
  | migrationComplete
  /-- CONTEXT_CREATE (R385). A CREATE store creates a context and reserves its resident cores, or sets BAD. -/
  | contextCreate
  /-- CONTEXT_FAULT (R386). A unit raises a context fault that reaches the halt controller. -/
  | contextFault
  /-- HALT_REPORT (R391). The stop records and then the header are written, and FMS advances. -/
  | haltReport
  /-- TASK_WATCHDOG (R402). The task watchdog passes TWD and raises WATCHDOG. -/
  | taskWatchdog
  /-- SAVE_WATCHDOG (R403). A watchdog expires during a save; the context halts WATCHDOG_IN_SAVE and is killed. -/
  | saveWatchdog
  /-- CONTEXT_KILL (R404). A KILL store halts the context if it is live, aborts its conversations and closes its admit gates. -/
  | contextKill
  /-- CONTEXT_ZEROING (R404). After every die confirms its drain, the context's cores, threads and memory are zeroed and STATE becomes FREE. -/
  | contextZeroing
  /-- DRAIN (R378). CORECMD command 1 takes a SERVICE core to DRAINING. -/
  | drain
  /-- DRAIN_TO_HELD (R378). Once no team holds a DRAINING core, it is zeroed and becomes HELD. -/
  | drainToHeld
  /-- SCAN (R379). CORECMD command 2 starts the scan pattern set on a HELD core. -/
  | scan
  /-- RELEASE (R378). CORECMD command 3 zeroes a HELD core and returns it to SERVICE or SPARE. -/
  | release
  /-- RETIRE (R378). CORECMD command 4 retires an unmapped core whose mask is empty. -/
  | retire
  /-- HEARTBEAT_TIMEOUT (R422). The lead resets a firmware core whose heartbeat is more than 10 ms old. -/
  | heartbeatTimeout
  /-- ROUTINE_REQUEST (R423). A GO write starts a firmware routine, or sets FAIL. -/
  | routineRequest
  /-- HBM_SCRUB (R416). The scrubber reads a block of HBM lines and writes back corrections unless a write intervened. -/
  | hbmScrub
  /-- SCRATCHPAD_SCRUB (R417). The idle-bank scrubber reads scratchpad words and corrects single-bit errors. -/
  | scratchpadScrub
  /-- HBM_RETRAIN (R420). A stack retrains at 10.0 Gb/s, holding and then releasing its requests. -/
  | hbmRetrain
  /-- CORE_ZEROING_DONE (R383). The zeroing of a core started by an LCMENT write or a RELEASE finishes, and the core becomes SERVICE or SPARE and claimable. -/
  | coreZeroingDone
  /-- RESET_N_ASSERTED (R428). RESET_N is driven low and the module is held in reset, losing every context. -/
  | resetNAsserted
deriving DecidableEq, Repr

end Sys2Proof
end

