-- ==== Sys2Proof/WellFormed.lean ====
section
/-! DEFINITION. Which instructions are well formed: the limits of R31, R32 and Table 4.7 that the operand types do not
already hold. An ill-formed term is no instruction: no word encodes it. -/
namespace Sys2Proof

/-- Guard p0 with the negate bit set is not an instruction (R32). -/
def Guard.wf (g : Guard) : Bool := !(g.p == 0#5 && g.neg)

/-- A policy bit stands only on a source other than s0 (R31). -/
def Src.wf (a : Src) : Bool := !(a.trap && a.r == 0#6)

/-- The control register numbers that Table 6.1, Table 22.1, Table 24.3, R412, R417 and R422 assign. -/
def cregAssigned (c : Nat) : Bool :=
  decide (c ≤ 0x005) || (decide (0x008 ≤ c) && decide (c ≤ 0x00B)) || (decide (0x010 ≤ c) && decide (c ≤ 0x015)) ||
  (decide (0x020 ≤ c) && decide (c ≤ 0x026)) || (decide (0x030 ≤ c) && decide (c ≤ 0x033)) || (decide (0x040 ≤ c) && decide (c ≤ 0x04B)) ||
  (decide (0x050 ≤ c) && decide (c ≤ 0x064)) || c == 0x100 || (decide (0x800 ≤ c) && decide (c ≤ 0x809)) ||
  (decide (0x810 ≤ c) && decide (c ≤ 0x815)) || (decide (0x820 ≤ c) && decide (c ≤ 0x82B))

/-- The numbers whose MTCR is a row of its own: q_BASE and q_COUNT, MLEASE, CORECAP, LCMENT, LEADCAS, HBEAT. -/
def cregOwnRow (c : Nat) : Bool :=
  (decide (0x040 ≤ c) && decide (c ≤ 0x04B) && decide (c % 4 < 2)) || c == 0x062 || c == 0x801 || c == 0x809 || c == 0x820 || c == 0x822

/-- The numbers that MTCR itself writes. -/
def cregPlain (c : Nat) : Bool := cregAssigned c && !cregOwnRow c

/-- The scalar opcodes of Table 4.6. -/
def opAssigned (o : Nat) : Bool :=
  o == 0x001 ||
  (decide (0x010 ≤ o) && decide (o ≤ 0x01D)) ||
  (decide (0x020 ≤ o) && decide (o ≤ 0x029)) ||
  (decide (0x030 ≤ o) && decide (o ≤ 0x032)) ||
  (decide (0x034 ≤ o) && decide (o ≤ 0x03B)) ||
  (decide (0x040 ≤ o) && decide (o ≤ 0x049)) ||
  (decide (0x080 ≤ o) && decide (o ≤ 0x085)) ||
  (decide (0x088 ≤ o) && decide (o ≤ 0x08D)) ||
  (decide (0x090 ≤ o) && decide (o ≤ 0x093)) ||
  (decide (0x098 ≤ o) && decide (o ≤ 0x099)) ||
  (decide (0x0C0 ≤ o) && decide (o ≤ 0x0C3)) ||
  (decide (0x0C8 ≤ o) && decide (o ≤ 0x0CA)) ||
  (decide (0x100 ≤ o) && decide (o ≤ 0x106)) ||
  (decide (0x108 ≤ o) && decide (o ≤ 0x10B)) ||
  (decide (0x110 ≤ o) && decide (o ≤ 0x116)) ||
  (decide (0x118 ≤ o) && decide (o ≤ 0x11B)) ||
  (decide (0x180 ≤ o) && decide (o ≤ 0x189)) ||
  (decide (0x190 ≤ o) && decide (o ≤ 0x194)) ||
  (decide (0x198 ≤ o) && decide (o ≤ 0x19B)) ||
  (decide (0x1C0 ≤ o) && decide (o ≤ 0x1C5)) ||
  (decide (0x200 ≤ o) && decide (o ≤ 0x205)) ||
  (decide (0x208 ≤ o) && decide (o ≤ 0x20A)) ||
  o == 0x210

/-- The engine operations of Tables 8.10 to 8.13, by class field and operation code. -/
def recAssigned (cls code : Nat) : Bool :=
  match cls with
  | 0 => (decide (0x01 ≤ code) && decide (code ≤ 0x04)) || (decide (0x08 ≤ code) && decide (code ≤ 0x0B)) || (decide (0x10 ≤ code) && decide (code ≤ 0x1B)) || (decide (0x20 ≤ code) && decide (code ≤ 0x29)) || (decide (0x2C ≤ code) && decide (code ≤ 0x2D)) || (decide (0x30 ≤ code) && decide (code ≤ 0x33)) || code == 0x38 || (decide (0x3C ≤ code) && decide (code ≤ 0x3D)) || (decide (0x40 ≤ code) && decide (code ≤ 0x41)) || (decide (0x48 ≤ code) && decide (code ≤ 0x4A)) || (decide (0x50 ≤ code) && decide (code ≤ 0x52))
  | 1 => (decide (0x01 ≤ code) && decide (code ≤ 0x02)) || (decide (0x10 ≤ code) && decide (code ≤ 0x12))
  | 2 => (decide (0x01 ≤ code) && decide (code ≤ 0x02)) || (decide (0x10 ≤ code) && decide (code ≤ 0x14)) || code == 0x18 || (decide (0x20 ≤ code) && decide (code ≤ 0x23))
  | 3 => code == 0x01
  | _ => false

/-- The limits of an instruction's operands. Every record is well formed: its fields fill the 512 bits, and the rules of Table 8.7 are
checked when it is pushed or reached. An event carries no encoding. -/
def Instr.wellFormed : Instr → Bool
  | .nop g => g.wf
  | .add g _ a b => g.wf && a.wf && b.wf
  | .sub g _ a b => g.wf && a.wf && b.wf
  | .and g _ a b => g.wf && a.wf && b.wf
  | .or g _ a b => g.wf && a.wf && b.wf
  | .xor g _ a b => g.wf && a.wf && b.wf
  | .andn g _ a b => g.wf && a.wf && b.wf
  | .shl g _ a b => g.wf && a.wf && b.wf
  | .shr g _ a b => g.wf && a.wf && b.wf
  | .sar g _ a b => g.wf && a.wf && b.wf
  | .min g _ a b => g.wf && a.wf && b.wf
  | .max g _ a b => g.wf && a.wf && b.wf
  | .minu g _ a b => g.wf && a.wf && b.wf
  | .maxu g _ a b => g.wf && a.wf && b.wf
  | .sel g _ a b _ => g.wf && a.wf && b.wf
  | .mul g _ a b => g.wf && a.wf && b.wf
  | .mulh g _ a b => g.wf && a.wf && b.wf
  | .mulhu g _ a b => g.wf && a.wf && b.wf
  | .div g _ a b => g.wf && a.wf && b.wf
  | .divu g _ a b => g.wf && a.wf && b.wf
  | .rem g _ a b => g.wf && a.wf && b.wf
  | .remu g _ a b => g.wf && a.wf && b.wf
  | .adds g _ a b => g.wf && a.wf && b.wf
  | .subs g _ a b => g.wf && a.wf && b.wf
  | .addus g _ a b => g.wf && a.wf && b.wf
  | .subus g _ a b => g.wf && a.wf && b.wf
  | .clz g _ a => g.wf && a.wf
  | .ctz g _ a => g.wf && a.wf
  | .popc g _ a => g.wf && a.wf
  | .brev g _ a => g.wf && a.wf
  | .bswap g _ a => g.wf && a.wf
  | .addImm g _ a _ => g.wf && a.wf
  | .andImm g _ a _ => g.wf && a.wf
  | .orImm g _ a _ => g.wf && a.wf
  | .xorImm g _ a _ => g.wf && a.wf
  | .shlImm g _ a _ => g.wf && a.wf
  | .shrImm g _ a _ => g.wf && a.wf
  | .sarImm g _ a _ => g.wf && a.wf
  | .li g _ _ => g.wf
  | .lsi g _ a _ => g.wf && a.wf
  | .adr g _ _ => g.wf
  | .extu g _ a pos len1 => g.wf && a.wf && decide (pos.toNat + len1.toNat + 1 ≤ 64)
  | .exts g _ a pos len1 => g.wf && a.wf && decide (pos.toNat + len1.toNat + 1 ≤ 64)
  | .ins g _ a pos len1 => g.wf && a.wf && decide (pos.toNat + len1.toNat + 1 ≤ 64)
  | .sxt g _ a w => g.wf && a.wf && decide (w ≠ 3#2)
  | .zxt g _ a w => g.wf && a.wf && decide (w ≠ 3#2)
  | .cmpEq g _ a b => g.wf && a.wf && b.wf
  | .cmpNe g _ a b => g.wf && a.wf && b.wf
  | .cmpLt g _ a b => g.wf && a.wf && b.wf
  | .cmpLe g _ a b => g.wf && a.wf && b.wf
  | .cmpLtu g _ a b => g.wf && a.wf && b.wf
  | .cmpLeu g _ a b => g.wf && a.wf && b.wf
  | .cmpEqImm g _ a _ => g.wf && a.wf
  | .cmpNeImm g _ a _ => g.wf && a.wf
  | .cmpLtImm g _ a _ => g.wf && a.wf
  | .cmpLeImm g _ a _ => g.wf && a.wf
  | .cmpLtuImm g _ a _ => g.wf && a.wf
  | .cmpLeuImm g _ a _ => g.wf && a.wf
  | .pand g _ _ _ => g.wf
  | .por g _ _ _ => g.wf
  | .pxor g _ _ _ => g.wf
  | .pandn g _ _ _ => g.wf
  | .mfp g _ => g.wf
  | .mtp g a => g.wf && a.wf
  | .br g _ => g.wf
  | .call g _ => g.wf
  | .jr g a => g.wf && a.wf
  | .callr g a => g.wf && a.wf
  | .loop g _ a imm => g.wf && a.wf && decide (2 ≤ imm.toInt)
  | .loopi g _ _ imm => g.wf && decide (2 ≤ imm.toInt)
  | .lpclr g _ => g.wf
  | .ldSB g _ a _ => g.wf && a.wf
  | .ldSBu g _ a _ => g.wf && a.wf
  | .ldSH g _ a _ => g.wf && a.wf
  | .ldSHu g _ a _ => g.wf && a.wf
  | .ldSW g _ a _ => g.wf && a.wf
  | .ldSWu g _ a _ => g.wf && a.wf
  | .ldS g _ a _ => g.wf && a.wf
  | .stSB g a b _ => g.wf && a.wf && b.wf
  | .stSH g a b _ => g.wf && a.wf && b.wf
  | .stSW g a b _ => g.wf && a.wf && b.wf
  | .stS g a b _ => g.wf && a.wf && b.wf
  | .ldGB g _ a _ => g.wf && a.wf
  | .ldGBu g _ a _ => g.wf && a.wf
  | .ldGH g _ a _ => g.wf && a.wf
  | .ldGHu g _ a _ => g.wf && a.wf
  | .ldGW g _ a _ => g.wf && a.wf
  | .ldGWu g _ a _ => g.wf && a.wf
  | .ldG g _ a _ => g.wf && a.wf
  | .stGB g a b _ => g.wf && a.wf && b.wf
  | .stGH g a b _ => g.wf && a.wf && b.wf
  | .stGW g a b _ => g.wf && a.wf && b.wf
  | .stG g a b _ => g.wf && a.wf && b.wf
  | .globalLoadFill _ => true
  | .writebackPerform _ => true
  | .push g _ a q => g.wf && a.wf && decide (a.r.toNat ≤ 56) && decide (q ≠ 3#2)
  | .pushm g _ a q _ => g.wf && a.wf && decide (q ≠ 3#2)
  | .rtail g a q => g.wf && a.wf && decide (q ≠ 3#2)
  | .qfence g mask => g.wf && decide (mask ≠ 0#3)
  | .semadd g a _ => g.wf && a.wf
  | .semwait g a _ => g.wf && a.wf
  | .semwaitComplete => true
  | .waitb g _ t => g.wf && decide (t ≠ 0#22)
  | .waitbComplete => true
  | .semrdDone g _ _ => g.wf
  | .semrdPend g _ _ => g.wf
  | .pause g _ => g.wf
  | .pauseExpire => true
  | .waita g _ a _ => g.wf && a.wf
  | .waitaReturn _ => true
  | .acqX g a => g.wf && a.wf
  | .acqS g a => g.wf && a.wf
  | .acqGrant => true
  | .rel g a => g.wf && a.wf
  | .relSet g a b => g.wf && a.wf && b.wf
  | .ldAcq g _ a _ => g.wf && a.wf
  | .acquireLoadFill _ => true
  | .tbar g => g.wf
  | .sstep g => g.wf
  | .cbar g => g.wf
  | .cstep g => g.wf
  | .barrierComplete => true
  | .spawn g _ a _ => g.wf && a.wf
  | .msend g _ a _ => g.wf && a.wf
  | .csend g a _ => g.wf && a.wf
  | .csendVerdict => true
  | .csendA g _ a _ => g.wf && a.wf
  | .crole g _ a b _ => g.wf && a.wf && b.wf
  | .cdeleg g a b _ => g.wf && a.wf && b.wf
  | .convPlacement => true
  | .mfcr g _ c => g.wf && cregAssigned c.toNat
  | .mtcr g a c => g.wf && a.wf && cregPlain c.toNat
  | .ringRegisterWrite g a q _ => g.wf && a.wf && decide (q ≠ 3#2)
  | .mleaseWrite g a => g.wf && a.wf
  | .trapOp g _ => g.wf
  | .brk g => g.wf
  | .eret g => g.wf
  | .doneOp g => g.wf
  | .taskEnd => true
  | .probe g a b => g.wf && a.wf && b.wf
  | .pageRequestAnswer => true
  | .phint g a _ => g.wf && a.wf
  | .phase g => g.wf
  | .shoot g a b => g.wf && a.wf && b.wf
  | .vld _ => true
  | .vldBc _ => true
  | .vst _ => true
  | .vmov _ => true
  | .accrd _ => true
  | .accwr _ => true
  | .park _ => true
  | .unpark _ => true
  | .fadd _ => true
  | .fsub _ => true
  | .fmul _ => true
  | .fma _ => true
  | .fmin _ => true
  | .fmax _ => true
  | .fabs _ => true
  | .fneg _ => true
  | .fdiv _ => true
  | .fsqrt _ => true
  | .frsqrt _ => true
  | .frcp _ => true
  | .iadd _ => true
  | .isub _ => true
  | .iand _ => true
  | .ior _ => true
  | .ixor _ => true
  | .ishl _ => true
  | .ishr _ => true
  | .isar _ => true
  | .imin _ => true
  | .imax _ => true
  | .imul _ => true
  | .idot4 _ => true
  | .fcmp _ => true
  | .icmp _ => true
  | .vsel _ => true
  | .maskop _ => true
  | .cvt _ => true
  | .quant _ => true
  | .dequant _ => true
  | .trpack _ => true
  | .trunpack _ => true
  | .rsum _ => true
  | .rmax _ => true
  | .rmin _ => true
  | .vperm _ => true
  | .vshuf _ => true
  | .vbcast _ => true
  | .mcfg _ => true
  | .mzero _ => true
  | .mdotT _ => true
  | .mdotS4 _ => true
  | .mdotI8 _ => true
  | .leaseGrant => true
  | .copy _ => true
  | .fill _ => true
  | .put _ => true
  | .get _ => true
  | .putred _ => true
  | .mcast _ => true
  | .aput _ => true
  | .nodeTimeout _ => true
  | .sempost _ => true
  | .nsend _ => true
  | .nwrite _ => true
  | .nread _ => true
  | .nflush _ => true
  | .join _ => true
  | .recordComplete _ => true
  | .packetArrival _ => true
  | .rmaWriteArrival _ => true
  | .rmaReadArrival _ => true
  | .flushArrival _ => true
  | .ackReceived _ _ _ _ => true
  | .retransmitTimeout _ _ _ => true
  | .milestoneIncrement _ => true
  | .launch => true
  | .triggeredCopy => true
  | .send => true
  | .raise => true
  | .msadd => true
  | .handler => true
  | .handlerStart => true
  | .handlerWatchdog => true
  | .drainreqWrite => true
  | .drainRequestDone => true
  | .hostRingDoorbell _ => true
  | .hostRingEnable _ => true
  | .hostRingFetch _ _ => true
  | .atsInvalidation _ _ _ => true
  | .pasidTeardown _ => true
  | .pasidTeardownDone => true
  | .bar0RegisterWrite _ _ => true
  | .dispatch => true
  | .workItemComplete _ => true
  | .preemptLimitExpire => true
  | .teamSave => true
  | .teamRestore => true
  | .teamMove _ => true
  | .treeLoad => true
  | .timeslotLoad => true
  | .slotTimeout _ => true
  | .collectiveArm => true
  | .itineraryLoad => true
  | .conversationOpen => true
  | .conversationKill => true
  | .partyLost => true
  | .conversationFree => true
  | .migrationRequest => true
  | .migrationComplete => true
  | .contextCreate => true
  | .contextFault => true
  | .haltReport => true
  | .taskWatchdog => true
  | .saveWatchdog => true
  | .contextKill => true
  | .contextZeroing => true
  | .drain => true
  | .drainToHeld => true
  | .scan => true
  | .scanComplete _ _ => true
  | .release => true
  | .retire => true
  | .corecapWrite g a => g.wf && a.wf
  | .lcmentWrite g a => g.wf && a.wf
  | .leadcasWrite g a => g.wf && a.wf
  | .hbeatWrite g a => g.wf && a.wf
  | .heartbeatTimeout => true
  | .routineRequest => true
  | .attestationRequest _ => true
  | .hbmScrub => true
  | .scratchpadScrub => true
  | .resetRelease _ _ _ => true
  | .dieStart _ => true
  | .quadGroupStart _ => true
  | .hbmRetrain => true
  | .powerSample _ => true
  | .pwrAlert _ => true
  | .thermalSensor _ _ => true
  | .unassignedOpcode w => !opAssigned (w.extractLsb' 54 10).toNat
  | .recordInvalid w => !recAssigned (w.extractLsb' 60 4).toNat (w.extractLsb' 52 8).toNat
  | .negativeAcknowledgement _ _ _ => true
  | .coreZeroingDone => true
  | .resetNAsserted => true

end Sys2Proof
end

