-- ==== Sys2Proof/Decode.lean ====
section
/-! DEFINITION. The decoder and the encoder, both written from Tables 4.1, 4.2, 4.6, 4.7 and 8.3 to 8.13. Decoding is total: a word whose
opcode is unassigned is the event UNASSIGNED_OPCODE, a word that breaks R31, R32 or Table 4.7 is refused by name, and a record whose class
or operation is unassigned is the event RECORD_INVALID. -/
namespace Sys2Proof

/-- The fields of Table 4.1. -/
def splitWord (w : Word) : Fields :=
  { op := w.extractLsb' 54 10, gp := w.extractLsb' 49 5, gn := w.getLsbD 48, d := w.extractLsb' 42 6, a := w.extractLsb' 36 6,
    b := w.extractLsb' 30 6, p1 := w.getLsbD 29, p2 := w.getLsbD 28, imm := w.extractLsb' 0 28 }

/-- The word with the given fields (Table 4.1). -/
def joinWord (f : Fields) : Word :=
  (f.op.setWidth 64 <<< 54) ||| (f.gp.setWidth 64 <<< 49) ||| ((BitVec.ofBool f.gn).setWidth 64 <<< 48) ||| (f.d.setWidth 64 <<< 42) |||
  (f.a.setWidth 64 <<< 36) ||| (f.b.setWidth 64 <<< 30) ||| ((BitVec.ofBool f.p1).setWidth 64 <<< 29) |||
  ((BitVec.ofBool f.p2).setWidth 64 <<< 28) ||| f.imm.setWidth 64

/-- The guard of a word (R32). -/
def Fields.guard (f : Fields) : Guard := ⟨f.gp, f.gn⟩
/-- The first source with its policy bit 29. -/
def Fields.src1 (f : Fields) : Src := ⟨f.a, f.p1⟩
/-- The second source with its policy bit 28. -/
def Fields.src2 (f : Fields) : Src := ⟨f.b, f.p2⟩
/-- Bits [27:22], the unit of X format. -/
def Fields.unit (f : Fields) : BitVec 6 := f.imm.extractLsb' 22 6
/-- Bits [21:0], the immediate of X format. -/
def Fields.off (f : Fields) : BitVec 22 := f.imm.setWidth 22
/-- A semaphore or predicate number in the unit field. -/
def Fields.sem (f : Fields) : BitVec 5 := f.unit.setWidth 5
/-- A queue code in the unit field. -/
def Fields.queue (f : Fields) : BitVec 2 := f.unit.setWidth 2
/-- The queue code is 0, 1 or 2 (R42). -/
def Fields.unitQ (f : Fields) : Bool := f.unit.extractLsb' 2 4 == 0#4 && decide (f.queue ≠ 3#2)
/-- The unit is at most 31 (R42). -/
def Fields.unit5 (f : Fields) : Bool := !f.unit.getLsbD 5
/-- A predicate destination. -/
def Fields.pd (f : Fields) : BitVec 5 := f.d.setWidth 5
/-- The top bit of the destination field is zero. -/
def Fields.d5 (f : Fields) : Bool := !f.d.getLsbD 5
/-- The top bit of the first source field is zero. -/
def Fields.a5 (f : Fields) : Bool := !f.a.getLsbD 5
/-- The top bit of the second source field is zero. -/
def Fields.b5 (f : Fields) : Bool := !f.b.getLsbD 5
/-- The loop set is 0 or 1. -/
def Fields.d1 (f : Fields) : Bool := f.d.extractLsb' 1 5 == 0#5
/-- The control register number. -/
def Fields.creg (f : Fields) : BitVec 12 := f.imm.setWidth 12
/-- The register number is in range and assigned (R83). -/
def Fields.cregOk (f : Fields) : Bool := f.imm.extractLsb' 12 16 == 0#16 && cregAssigned f.creg.toNat

/-- The immediate field of X format. -/
def unitImm (u : BitVec 6) (o : BitVec 22) : BitVec 28 := (u.setWidth 28 <<< 22) ||| o.setWidth 28
/-- The immediate field of EXTU, EXTS and INS. -/
def lenPos (len1 pos : BitVec 6) : BitVec 28 := (len1.setWidth 28 <<< 6) ||| pos.setWidth 28
/-- The register number of q_BASE or q_COUNT (R133). -/
def ringImm (q : BitVec 2) (count : Bool) : BitVec 28 := 0x40#28 ||| (q.setWidth 28 <<< 2) ||| (BitVec.ofBool count).setWidth 28

/-- The instruction, if its fields pass the check of its format. -/
def okIf (f : Fields) (c : Bool) (i : Instr) : Except DecodeError Instr := if c then .ok i else .error (.badField f.op)

/-- SEMRD reads DONE or PEND by bit 0 (Table 4.7). -/
def decSemrd (f : Fields) : Except DecodeError Instr :=
  if f.off == 0#22 then okIf f (f.a == 0#6 && f.b == 0#6 && !f.p1 && !f.p2 && f.unit5) (.semrdDone f.guard f.d f.sem)
  else okIf f (f.a == 0#6 && f.b == 0#6 && !f.p1 && !f.p2 && f.unit5 && f.off == 1#22) (.semrdPend f.guard f.d f.sem)

/-- MTCR, with the registers whose write is a row of its own. -/
def decMtcr (f : Fields) : Except DecodeError Instr :=
  if !(f.src1.wf && f.d == 0#6 && f.b == 0#6 && !f.p2 && f.cregOk) then .error (.badField f.op)
  else if f.creg == 0x062#12 then .ok (.mleaseWrite f.guard f.src1)
  else if f.creg == 0x801#12 then .ok (.corecapWrite f.guard f.src1)
  else if f.creg == 0x809#12 then .ok (.lcmentWrite f.guard f.src1)
  else if f.creg == 0x820#12 then .ok (.leadcasWrite f.guard f.src1)
  else if f.creg == 0x822#12 then .ok (.hbeatWrite f.guard f.src1)
  else if cregOwnRow f.creg.toNat then .ok (.ringRegisterWrite f.guard f.src1 (f.creg.extractLsb' 2 2) (f.creg.getLsbD 0))
  else .ok (.mtcr f.guard f.src1 f.creg)

/-- Opcodes 0x000 to 0x01F of Table 4.6. -/
def decGroup0 (f : Fields) : Except DecodeError Instr :=
  if f.op == 0x001#10 then okIf f (f.d == 0#6 && f.a == 0#6 && f.b == 0#6 && !f.p1 && !f.p2 && f.imm == 0#28) (.nop f.guard)
  else if f.op == 0x010#10 then okIf f (f.src1.wf && f.src2.wf && f.imm == 0#28) (.add f.guard f.d f.src1 f.src2)
  else if f.op == 0x011#10 then okIf f (f.src1.wf && f.src2.wf && f.imm == 0#28) (.sub f.guard f.d f.src1 f.src2)
  else if f.op == 0x012#10 then okIf f (f.src1.wf && f.src2.wf && f.imm == 0#28) (.and f.guard f.d f.src1 f.src2)
  else if f.op == 0x013#10 then okIf f (f.src1.wf && f.src2.wf && f.imm == 0#28) (.or f.guard f.d f.src1 f.src2)
  else if f.op == 0x014#10 then okIf f (f.src1.wf && f.src2.wf && f.imm == 0#28) (.xor f.guard f.d f.src1 f.src2)
  else if f.op == 0x015#10 then okIf f (f.src1.wf && f.src2.wf && f.imm == 0#28) (.andn f.guard f.d f.src1 f.src2)
  else if f.op == 0x016#10 then okIf f (f.src1.wf && f.src2.wf && f.imm == 0#28) (.shl f.guard f.d f.src1 f.src2)
  else if f.op == 0x017#10 then okIf f (f.src1.wf && f.src2.wf && f.imm == 0#28) (.shr f.guard f.d f.src1 f.src2)
  else if f.op == 0x018#10 then okIf f (f.src1.wf && f.src2.wf && f.imm == 0#28) (.sar f.guard f.d f.src1 f.src2)
  else if f.op == 0x019#10 then okIf f (f.src1.wf && f.src2.wf && f.imm == 0#28) (.min f.guard f.d f.src1 f.src2)
  else if f.op == 0x01A#10 then okIf f (f.src1.wf && f.src2.wf && f.imm == 0#28) (.max f.guard f.d f.src1 f.src2)
  else if f.op == 0x01B#10 then okIf f (f.src1.wf && f.src2.wf && f.imm == 0#28) (.minu f.guard f.d f.src1 f.src2)
  else if f.op == 0x01C#10 then okIf f (f.src1.wf && f.src2.wf && f.imm == 0#28) (.maxu f.guard f.d f.src1 f.src2)
  else if f.op == 0x01D#10 then okIf f (f.src1.wf && f.src2.wf && f.off == 0#22 && f.unit5) (.sel f.guard f.d f.src1 f.src2 f.sem)
  else .error (.badField f.op)

/-- Opcodes 0x020 to 0x03F of Table 4.6. -/
def decGroup1 (f : Fields) : Except DecodeError Instr :=
  if f.op == 0x020#10 then okIf f (f.src1.wf && f.b == 0#6 && !f.p2) (.addImm f.guard f.d f.src1 f.imm)
  else if f.op == 0x021#10 then okIf f (f.src1.wf && f.b == 0#6 && !f.p2) (.andImm f.guard f.d f.src1 f.imm)
  else if f.op == 0x022#10 then okIf f (f.src1.wf && f.b == 0#6 && !f.p2) (.orImm f.guard f.d f.src1 f.imm)
  else if f.op == 0x023#10 then okIf f (f.src1.wf && f.b == 0#6 && !f.p2) (.xorImm f.guard f.d f.src1 f.imm)
  else if f.op == 0x024#10 then okIf f (f.src1.wf && f.b == 0#6 && !f.p2 && f.imm.extractLsb' 6 22 == 0#22) (.shlImm f.guard f.d f.src1 (f.imm.setWidth 6))
  else if f.op == 0x025#10 then okIf f (f.src1.wf && f.b == 0#6 && !f.p2 && f.imm.extractLsb' 6 22 == 0#22) (.shrImm f.guard f.d f.src1 (f.imm.setWidth 6))
  else if f.op == 0x026#10 then okIf f (f.src1.wf && f.b == 0#6 && !f.p2 && f.imm.extractLsb' 6 22 == 0#22) (.sarImm f.guard f.d f.src1 (f.imm.setWidth 6))
  else if f.op == 0x027#10 then okIf f (f.a == 0#6 && f.b == 0#6 && !f.p1 && !f.p2) (.li f.guard f.d f.imm)
  else if f.op == 0x028#10 then okIf f (f.src1.wf && f.b == 0#6 && !f.p2) (.lsi f.guard f.d f.src1 f.imm)
  else if f.op == 0x029#10 then okIf f (f.a == 0#6 && f.b == 0#6 && !f.p1 && !f.p2) (.adr f.guard f.d f.imm)
  else if f.op == 0x030#10 then okIf f (f.src1.wf && f.src2.wf && f.imm == 0#28) (.mul f.guard f.d f.src1 f.src2)
  else if f.op == 0x031#10 then okIf f (f.src1.wf && f.src2.wf && f.imm == 0#28) (.mulh f.guard f.d f.src1 f.src2)
  else if f.op == 0x032#10 then okIf f (f.src1.wf && f.src2.wf && f.imm == 0#28) (.mulhu f.guard f.d f.src1 f.src2)
  else if f.op == 0x034#10 then okIf f (f.src1.wf && f.src2.wf && f.imm == 0#28) (.div f.guard f.d f.src1 f.src2)
  else if f.op == 0x035#10 then okIf f (f.src1.wf && f.src2.wf && f.imm == 0#28) (.divu f.guard f.d f.src1 f.src2)
  else if f.op == 0x036#10 then okIf f (f.src1.wf && f.src2.wf && f.imm == 0#28) (.rem f.guard f.d f.src1 f.src2)
  else if f.op == 0x037#10 then okIf f (f.src1.wf && f.src2.wf && f.imm == 0#28) (.remu f.guard f.d f.src1 f.src2)
  else if f.op == 0x038#10 then okIf f (f.src1.wf && f.src2.wf && f.imm == 0#28) (.adds f.guard f.d f.src1 f.src2)
  else if f.op == 0x039#10 then okIf f (f.src1.wf && f.src2.wf && f.imm == 0#28) (.subs f.guard f.d f.src1 f.src2)
  else if f.op == 0x03A#10 then okIf f (f.src1.wf && f.src2.wf && f.imm == 0#28) (.addus f.guard f.d f.src1 f.src2)
  else if f.op == 0x03B#10 then okIf f (f.src1.wf && f.src2.wf && f.imm == 0#28) (.subus f.guard f.d f.src1 f.src2)
  else .error (.badField f.op)

/-- Opcodes 0x040 to 0x08F of Table 4.6. -/
def decGroup2 (f : Fields) : Except DecodeError Instr :=
  if f.op == 0x040#10 then okIf f (f.src1.wf && f.b == 0#6 && !f.p2 && f.imm == 0#28) (.clz f.guard f.d f.src1)
  else if f.op == 0x041#10 then okIf f (f.src1.wf && f.b == 0#6 && !f.p2 && f.imm == 0#28) (.ctz f.guard f.d f.src1)
  else if f.op == 0x042#10 then okIf f (f.src1.wf && f.b == 0#6 && !f.p2 && f.imm == 0#28) (.popc f.guard f.d f.src1)
  else if f.op == 0x043#10 then okIf f (f.src1.wf && f.b == 0#6 && !f.p2 && f.imm == 0#28) (.brev f.guard f.d f.src1)
  else if f.op == 0x044#10 then okIf f (f.src1.wf && f.b == 0#6 && !f.p2 && f.imm == 0#28) (.bswap f.guard f.d f.src1)
  else if f.op == 0x045#10 then okIf f (f.src1.wf && f.b == 0#6 && !f.p2 && f.imm.extractLsb' 12 16 == 0#16 && decide ((f.imm.extractLsb' 0 6).toNat + (f.imm.extractLsb' 6 6).toNat + 1 ≤ 64)) (.extu f.guard f.d f.src1 (f.imm.extractLsb' 0 6) (f.imm.extractLsb' 6 6))
  else if f.op == 0x046#10 then okIf f (f.src1.wf && f.b == 0#6 && !f.p2 && f.imm.extractLsb' 12 16 == 0#16 && decide ((f.imm.extractLsb' 0 6).toNat + (f.imm.extractLsb' 6 6).toNat + 1 ≤ 64)) (.exts f.guard f.d f.src1 (f.imm.extractLsb' 0 6) (f.imm.extractLsb' 6 6))
  else if f.op == 0x047#10 then okIf f (f.src1.wf && f.b == 0#6 && !f.p2 && f.imm.extractLsb' 12 16 == 0#16 && decide ((f.imm.extractLsb' 0 6).toNat + (f.imm.extractLsb' 6 6).toNat + 1 ≤ 64)) (.ins f.guard f.d f.src1 (f.imm.extractLsb' 0 6) (f.imm.extractLsb' 6 6))
  else if f.op == 0x048#10 then okIf f (f.src1.wf && f.b == 0#6 && !f.p2 && f.imm.extractLsb' 2 26 == 0#26 && decide (f.imm.setWidth 2 ≠ 3#2)) (.sxt f.guard f.d f.src1 (f.imm.setWidth 2))
  else if f.op == 0x049#10 then okIf f (f.src1.wf && f.b == 0#6 && !f.p2 && f.imm.extractLsb' 2 26 == 0#26 && decide (f.imm.setWidth 2 ≠ 3#2)) (.zxt f.guard f.d f.src1 (f.imm.setWidth 2))
  else if f.op == 0x080#10 then okIf f (f.src1.wf && f.src2.wf && f.d5 && f.imm == 0#28) (.cmpEq f.guard f.pd f.src1 f.src2)
  else if f.op == 0x081#10 then okIf f (f.src1.wf && f.src2.wf && f.d5 && f.imm == 0#28) (.cmpNe f.guard f.pd f.src1 f.src2)
  else if f.op == 0x082#10 then okIf f (f.src1.wf && f.src2.wf && f.d5 && f.imm == 0#28) (.cmpLt f.guard f.pd f.src1 f.src2)
  else if f.op == 0x083#10 then okIf f (f.src1.wf && f.src2.wf && f.d5 && f.imm == 0#28) (.cmpLe f.guard f.pd f.src1 f.src2)
  else if f.op == 0x084#10 then okIf f (f.src1.wf && f.src2.wf && f.d5 && f.imm == 0#28) (.cmpLtu f.guard f.pd f.src1 f.src2)
  else if f.op == 0x085#10 then okIf f (f.src1.wf && f.src2.wf && f.d5 && f.imm == 0#28) (.cmpLeu f.guard f.pd f.src1 f.src2)
  else if f.op == 0x088#10 then okIf f (f.src1.wf && f.d5 && f.b == 0#6 && !f.p2) (.cmpEqImm f.guard f.pd f.src1 f.imm)
  else if f.op == 0x089#10 then okIf f (f.src1.wf && f.d5 && f.b == 0#6 && !f.p2) (.cmpNeImm f.guard f.pd f.src1 f.imm)
  else if f.op == 0x08A#10 then okIf f (f.src1.wf && f.d5 && f.b == 0#6 && !f.p2) (.cmpLtImm f.guard f.pd f.src1 f.imm)
  else if f.op == 0x08B#10 then okIf f (f.src1.wf && f.d5 && f.b == 0#6 && !f.p2) (.cmpLeImm f.guard f.pd f.src1 f.imm)
  else if f.op == 0x08C#10 then okIf f (f.src1.wf && f.d5 && f.b == 0#6 && !f.p2) (.cmpLtuImm f.guard f.pd f.src1 f.imm)
  else if f.op == 0x08D#10 then okIf f (f.src1.wf && f.d5 && f.b == 0#6 && !f.p2) (.cmpLeuImm f.guard f.pd f.src1 f.imm)
  else .error (.badField f.op)

/-- Opcodes 0x090 to 0x0FF of Table 4.6. -/
def decGroup3 (f : Fields) : Except DecodeError Instr :=
  if f.op == 0x090#10 then okIf f (f.d5 && f.a5 && f.b5 && !f.p1 && !f.p2 && f.imm == 0#28) (.pand f.guard f.pd (f.a.setWidth 5) (f.b.setWidth 5))
  else if f.op == 0x091#10 then okIf f (f.d5 && f.a5 && f.b5 && !f.p1 && !f.p2 && f.imm == 0#28) (.por f.guard f.pd (f.a.setWidth 5) (f.b.setWidth 5))
  else if f.op == 0x092#10 then okIf f (f.d5 && f.a5 && f.b5 && !f.p1 && !f.p2 && f.imm == 0#28) (.pxor f.guard f.pd (f.a.setWidth 5) (f.b.setWidth 5))
  else if f.op == 0x093#10 then okIf f (f.d5 && f.a5 && f.b5 && !f.p1 && !f.p2 && f.imm == 0#28) (.pandn f.guard f.pd (f.a.setWidth 5) (f.b.setWidth 5))
  else if f.op == 0x098#10 then okIf f (f.a == 0#6 && f.b == 0#6 && !f.p1 && !f.p2 && f.imm == 0#28) (.mfp f.guard f.d)
  else if f.op == 0x099#10 then okIf f (f.src1.wf && f.d == 0#6 && f.b == 0#6 && !f.p2 && f.imm == 0#28) (.mtp f.guard f.src1)
  else if f.op == 0x0C0#10 then okIf f (f.d == 0#6 && f.a == 0#6 && f.b == 0#6 && !f.p1 && !f.p2) (.br f.guard f.imm)
  else if f.op == 0x0C1#10 then okIf f (f.d == 0#6 && f.a == 0#6 && f.b == 0#6 && !f.p1 && !f.p2) (.call f.guard f.imm)
  else if f.op == 0x0C2#10 then okIf f (f.src1.wf && f.d == 0#6 && f.b == 0#6 && !f.p2 && f.imm == 0#28) (.jr f.guard f.src1)
  else if f.op == 0x0C3#10 then okIf f (f.src1.wf && f.d == 0#6 && f.b == 0#6 && !f.p2 && f.imm == 0#28) (.callr f.guard f.src1)
  else if f.op == 0x0C8#10 then okIf f (f.src1.wf && f.d1 && f.b == 0#6 && !f.p2 && decide (2 ≤ f.imm.toInt)) (.loop f.guard (f.d.setWidth 1) f.src1 f.imm)
  else if f.op == 0x0C9#10 then okIf f (f.d1 && !f.p1 && !f.p2 && decide (2 ≤ f.imm.toInt)) (.loopi f.guard (f.d.setWidth 1) (f.a ++ f.b) f.imm)
  else if f.op == 0x0CA#10 then okIf f (f.d1 && f.a == 0#6 && f.b == 0#6 && !f.p1 && !f.p2 && f.imm == 0#28) (.lpclr f.guard (f.d.setWidth 1))
  else .error (.badField f.op)

/-- Opcodes 0x100 to 0x10F of Table 4.6. -/
def decGroup4 (f : Fields) : Except DecodeError Instr :=
  if f.op == 0x100#10 then okIf f (f.src1.wf && f.b == 0#6 && !f.p2) (.ldSB f.guard f.d f.src1 f.imm)
  else if f.op == 0x101#10 then okIf f (f.src1.wf && f.b == 0#6 && !f.p2) (.ldSBu f.guard f.d f.src1 f.imm)
  else if f.op == 0x102#10 then okIf f (f.src1.wf && f.b == 0#6 && !f.p2) (.ldSH f.guard f.d f.src1 f.imm)
  else if f.op == 0x103#10 then okIf f (f.src1.wf && f.b == 0#6 && !f.p2) (.ldSHu f.guard f.d f.src1 f.imm)
  else if f.op == 0x104#10 then okIf f (f.src1.wf && f.b == 0#6 && !f.p2) (.ldSW f.guard f.d f.src1 f.imm)
  else if f.op == 0x105#10 then okIf f (f.src1.wf && f.b == 0#6 && !f.p2) (.ldSWu f.guard f.d f.src1 f.imm)
  else if f.op == 0x106#10 then okIf f (f.src1.wf && f.b == 0#6 && !f.p2) (.ldS f.guard f.d f.src1 f.imm)
  else if f.op == 0x108#10 then okIf f (f.src1.wf && f.src2.wf && f.d == 0#6) (.stSB f.guard f.src1 f.src2 f.imm)
  else if f.op == 0x109#10 then okIf f (f.src1.wf && f.src2.wf && f.d == 0#6) (.stSH f.guard f.src1 f.src2 f.imm)
  else if f.op == 0x10A#10 then okIf f (f.src1.wf && f.src2.wf && f.d == 0#6) (.stSW f.guard f.src1 f.src2 f.imm)
  else if f.op == 0x10B#10 then okIf f (f.src1.wf && f.src2.wf && f.d == 0#6) (.stS f.guard f.src1 f.src2 f.imm)
  else .error (.badField f.op)

/-- Opcodes 0x110 to 0x17F of Table 4.6. -/
def decGroup5 (f : Fields) : Except DecodeError Instr :=
  if f.op == 0x110#10 then okIf f (f.src1.wf && f.b == 0#6 && !f.p2) (.ldGB f.guard f.d f.src1 f.imm)
  else if f.op == 0x111#10 then okIf f (f.src1.wf && f.b == 0#6 && !f.p2) (.ldGBu f.guard f.d f.src1 f.imm)
  else if f.op == 0x112#10 then okIf f (f.src1.wf && f.b == 0#6 && !f.p2) (.ldGH f.guard f.d f.src1 f.imm)
  else if f.op == 0x113#10 then okIf f (f.src1.wf && f.b == 0#6 && !f.p2) (.ldGHu f.guard f.d f.src1 f.imm)
  else if f.op == 0x114#10 then okIf f (f.src1.wf && f.b == 0#6 && !f.p2) (.ldGW f.guard f.d f.src1 f.imm)
  else if f.op == 0x115#10 then okIf f (f.src1.wf && f.b == 0#6 && !f.p2) (.ldGWu f.guard f.d f.src1 f.imm)
  else if f.op == 0x116#10 then okIf f (f.src1.wf && f.b == 0#6 && !f.p2) (.ldG f.guard f.d f.src1 f.imm)
  else if f.op == 0x118#10 then okIf f (f.src1.wf && f.src2.wf && f.d == 0#6) (.stGB f.guard f.src1 f.src2 f.imm)
  else if f.op == 0x119#10 then okIf f (f.src1.wf && f.src2.wf && f.d == 0#6) (.stGH f.guard f.src1 f.src2 f.imm)
  else if f.op == 0x11A#10 then okIf f (f.src1.wf && f.src2.wf && f.d == 0#6) (.stGW f.guard f.src1 f.src2 f.imm)
  else if f.op == 0x11B#10 then okIf f (f.src1.wf && f.src2.wf && f.d == 0#6) (.stG f.guard f.src1 f.src2 f.imm)
  else .error (.badField f.op)

/-- Opcodes 0x180 to 0x18F of Table 4.6. -/
def decGroup6 (f : Fields) : Except DecodeError Instr :=
  if f.op == 0x180#10 then okIf f (f.src1.wf && decide (f.a.toNat ≤ 56) && f.d5 && f.b == 0#6 && !f.p2 && f.off == 0#22 && f.unitQ) (.push f.guard f.pd f.src1 f.queue)
  else if f.op == 0x181#10 then okIf f (f.src1.wf && f.d5 && f.b == 0#6 && !f.p2 && f.unitQ) (.pushm f.guard f.pd f.src1 f.queue f.off)
  else if f.op == 0x182#10 then okIf f (f.src1.wf && f.d == 0#6 && f.b == 0#6 && !f.p2 && f.off == 0#22 && f.unitQ) (.rtail f.guard f.src1 f.queue)
  else if f.op == 0x183#10 then okIf f (f.d == 0#6 && f.a == 0#6 && f.b == 0#6 && !f.p1 && !f.p2 && f.imm.extractLsb' 3 25 == 0#25 && decide (f.imm.setWidth 3 ≠ 0#3)) (.qfence f.guard (f.imm.setWidth 3))
  else if f.op == 0x184#10 then okIf f (f.src1.wf && f.d == 0#6 && f.b == 0#6 && !f.p2 && f.off == 0#22 && f.unit5) (.semadd f.guard f.src1 f.sem)
  else if f.op == 0x185#10 then okIf f (f.src1.wf && f.d == 0#6 && f.b == 0#6 && !f.p2 && f.off == 0#22 && f.unit5) (.semwait f.guard f.src1 f.sem)
  else if f.op == 0x186#10 then okIf f (f.d == 0#6 && f.a == 0#6 && f.b == 0#6 && !f.p1 && !f.p2 && f.unit5 && decide (f.off ≠ 0#22)) (.waitb f.guard f.sem f.off)
  else if f.op == 0x187#10 then decSemrd f
  else if f.op == 0x188#10 then okIf f (f.d == 0#6 && f.a == 0#6 && f.b == 0#6 && !f.p1 && !f.p2 && f.unit == 0#6) (.pause f.guard f.off)
  else if f.op == 0x189#10 then okIf f (f.src1.wf && f.d5 && f.b == 0#6 && !f.p2 && f.unit == 0#6) (.waita f.guard f.pd f.src1 f.off)
  else .error (.badField f.op)

/-- Opcodes 0x190 to 0x1BF of Table 4.6. -/
def decGroup7 (f : Fields) : Except DecodeError Instr :=
  if f.op == 0x190#10 then okIf f (f.src1.wf && f.d == 0#6 && f.b == 0#6 && !f.p2 && f.imm == 0#28) (.acqX f.guard f.src1)
  else if f.op == 0x191#10 then okIf f (f.src1.wf && f.d == 0#6 && f.b == 0#6 && !f.p2 && f.imm == 0#28) (.acqS f.guard f.src1)
  else if f.op == 0x192#10 then okIf f (f.src1.wf && f.d == 0#6 && f.b == 0#6 && !f.p2 && f.imm == 0#28) (.rel f.guard f.src1)
  else if f.op == 0x193#10 then okIf f (f.src1.wf && f.src2.wf && f.d == 0#6 && f.imm == 0#28) (.relSet f.guard f.src1 f.src2)
  else if f.op == 0x194#10 then okIf f (f.src1.wf && f.b == 0#6 && !f.p2 && f.unit == 0#6) (.ldAcq f.guard f.d f.src1 f.off)
  else if f.op == 0x198#10 then okIf f (f.d == 0#6 && f.a == 0#6 && f.b == 0#6 && !f.p1 && !f.p2 && f.imm == 0#28) (.tbar f.guard)
  else if f.op == 0x199#10 then okIf f (f.d == 0#6 && f.a == 0#6 && f.b == 0#6 && !f.p1 && !f.p2 && f.imm == 0#28) (.sstep f.guard)
  else if f.op == 0x19A#10 then okIf f (f.d == 0#6 && f.a == 0#6 && f.b == 0#6 && !f.p1 && !f.p2 && f.imm == 0#28) (.cbar f.guard)
  else if f.op == 0x19B#10 then okIf f (f.d == 0#6 && f.a == 0#6 && f.b == 0#6 && !f.p1 && !f.p2 && f.imm == 0#28) (.cstep f.guard)
  else .error (.badField f.op)

/-- Opcodes 0x1C0 to 0x1FF of Table 4.6. -/
def decGroup8 (f : Fields) : Except DecodeError Instr :=
  if f.op == 0x1C0#10 then okIf f (f.src1.wf && f.b == 0#6 && !f.p2 && f.unit == 0#6) (.spawn f.guard f.d f.src1 f.off)
  else if f.op == 0x1C1#10 then okIf f (f.src1.wf && f.b == 0#6 && !f.p2 && f.unit == 0#6) (.msend f.guard f.d f.src1 f.off)
  else if f.op == 0x1C2#10 then okIf f (f.src1.wf && f.d == 0#6 && f.b == 0#6 && !f.p2 && f.unit == 0#6) (.csend f.guard f.src1 f.off)
  else if f.op == 0x1C3#10 then okIf f (f.src1.wf && f.b == 0#6 && !f.p2 && f.unit == 0#6) (.csendA f.guard f.d f.src1 f.off)
  else if f.op == 0x1C4#10 then okIf f (f.src1.wf && f.src2.wf && f.unit == 0#6) (.crole f.guard f.d f.src1 f.src2 f.off)
  else if f.op == 0x1C5#10 then okIf f (f.src1.wf && f.src2.wf && f.d == 0#6 && f.unit == 0#6) (.cdeleg f.guard f.src1 f.src2 f.off)
  else .error (.badField f.op)

/-- Opcodes 0x200 to 0x3FF of Table 4.6. DESIGN CHOICE (log entry 110): the length source of PROBE and SHOOT has bit 28 as its policy bit. -/
def decGroup9 (f : Fields) : Except DecodeError Instr :=
  if f.op == 0x200#10 then okIf f (f.a == 0#6 && f.b == 0#6 && !f.p1 && !f.p2 && f.cregOk) (.mfcr f.guard f.d f.creg)
  else if f.op == 0x201#10 then decMtcr f
  else if f.op == 0x202#10 then okIf f (f.d == 0#6 && f.a == 0#6 && f.b == 0#6 && !f.p1 && !f.p2 && f.imm.extractLsb' 16 12 == 0#12) (.trapOp f.guard (f.imm.setWidth 16))
  else if f.op == 0x203#10 then okIf f (f.d == 0#6 && f.a == 0#6 && f.b == 0#6 && !f.p1 && !f.p2 && f.imm == 0#28) (.brk f.guard)
  else if f.op == 0x204#10 then okIf f (f.d == 0#6 && f.a == 0#6 && f.b == 0#6 && !f.p1 && !f.p2 && f.imm == 0#28) (.eret f.guard)
  else if f.op == 0x205#10 then okIf f (f.d == 0#6 && f.a == 0#6 && f.b == 0#6 && !f.p1 && !f.p2 && f.imm == 0#28) (.doneOp f.guard)
  else if f.op == 0x208#10 then okIf f (f.src1.wf && f.src2.wf && f.d == 0#6 && f.imm == 0#28) (.probe f.guard f.src1 f.src2)
  else if f.op == 0x209#10 then okIf f (f.src1.wf && f.d == 0#6 && f.b == 0#6 && !f.p2) (.phint f.guard f.src1 f.imm)
  else if f.op == 0x20A#10 then okIf f (f.d == 0#6 && f.a == 0#6 && f.b == 0#6 && !f.p1 && !f.p2 && f.imm == 0#28) (.phase f.guard)
  else if f.op == 0x210#10 then okIf f (f.src1.wf && f.src2.wf && f.d == 0#6 && f.imm == 0#28) (.shoot f.guard f.src1 f.src2)
  else .error (.badField f.op)

/-- The instruction with an assigned opcode, by the opcode's group. -/
def decodeFields (f : Fields) : Except DecodeError Instr :=
  if !f.guard.wf then .error .badGuard
  else if f.op.toNat ≤ 0x01F then decGroup0 f
  else if f.op.toNat ≤ 0x03F then decGroup1 f
  else if f.op.toNat ≤ 0x08F then decGroup2 f
  else if f.op.toNat ≤ 0x0FF then decGroup3 f
  else if f.op.toNat ≤ 0x10F then decGroup4 f
  else if f.op.toNat ≤ 0x17F then decGroup5 f
  else if f.op.toNat ≤ 0x18F then decGroup6 f
  else if f.op.toNat ≤ 0x1BF then decGroup7 f
  else if f.op.toNat ≤ 0x1FF then decGroup8 f
  else decGroup9 f

/-- Steps 1 and 2 of Table 4.4, without the checks that need the core: every 64-bit word is an instruction, an unassigned opcode or a
malformed word. -/
def decodeWord (w : Word) : Except DecodeError Instr :=
  if opAssigned (w.extractLsb' 54 10).toNat then decodeFields (splitWord w) else .ok (.unassignedOpcode w)

/-- The fields of an instruction with opcode o and guard g, every other field zero. -/
def baseFields (o : BitVec 10) (g : Guard) : Fields := ⟨o, g.p, g.neg, 0#6, 0#6, 0#6, false, false, 0#28⟩

/-- The fields of a scalar instruction (Tables 4.6 and 4.7); none for a record or an event. -/
def encodeFields : Instr → Option Fields
  | .nop g => some (baseFields 0x001#10 g)
  | .add g d a b => some { baseFields 0x010#10 g with d := d, a := a.r, b := b.r, p1 := a.trap, p2 := b.trap }
  | .sub g d a b => some { baseFields 0x011#10 g with d := d, a := a.r, b := b.r, p1 := a.trap, p2 := b.trap }
  | .and g d a b => some { baseFields 0x012#10 g with d := d, a := a.r, b := b.r, p1 := a.trap, p2 := b.trap }
  | .or g d a b => some { baseFields 0x013#10 g with d := d, a := a.r, b := b.r, p1 := a.trap, p2 := b.trap }
  | .xor g d a b => some { baseFields 0x014#10 g with d := d, a := a.r, b := b.r, p1 := a.trap, p2 := b.trap }
  | .andn g d a b => some { baseFields 0x015#10 g with d := d, a := a.r, b := b.r, p1 := a.trap, p2 := b.trap }
  | .shl g d a b => some { baseFields 0x016#10 g with d := d, a := a.r, b := b.r, p1 := a.trap, p2 := b.trap }
  | .shr g d a b => some { baseFields 0x017#10 g with d := d, a := a.r, b := b.r, p1 := a.trap, p2 := b.trap }
  | .sar g d a b => some { baseFields 0x018#10 g with d := d, a := a.r, b := b.r, p1 := a.trap, p2 := b.trap }
  | .min g d a b => some { baseFields 0x019#10 g with d := d, a := a.r, b := b.r, p1 := a.trap, p2 := b.trap }
  | .max g d a b => some { baseFields 0x01A#10 g with d := d, a := a.r, b := b.r, p1 := a.trap, p2 := b.trap }
  | .minu g d a b => some { baseFields 0x01B#10 g with d := d, a := a.r, b := b.r, p1 := a.trap, p2 := b.trap }
  | .maxu g d a b => some { baseFields 0x01C#10 g with d := d, a := a.r, b := b.r, p1 := a.trap, p2 := b.trap }
  | .sel g d a b p => some { baseFields 0x01D#10 g with d := d, a := a.r, b := b.r, p1 := a.trap, p2 := b.trap, imm := unitImm (p.setWidth 6) 0#22 }
  | .mul g d a b => some { baseFields 0x030#10 g with d := d, a := a.r, b := b.r, p1 := a.trap, p2 := b.trap }
  | .mulh g d a b => some { baseFields 0x031#10 g with d := d, a := a.r, b := b.r, p1 := a.trap, p2 := b.trap }
  | .mulhu g d a b => some { baseFields 0x032#10 g with d := d, a := a.r, b := b.r, p1 := a.trap, p2 := b.trap }
  | .div g d a b => some { baseFields 0x034#10 g with d := d, a := a.r, b := b.r, p1 := a.trap, p2 := b.trap }
  | .divu g d a b => some { baseFields 0x035#10 g with d := d, a := a.r, b := b.r, p1 := a.trap, p2 := b.trap }
  | .rem g d a b => some { baseFields 0x036#10 g with d := d, a := a.r, b := b.r, p1 := a.trap, p2 := b.trap }
  | .remu g d a b => some { baseFields 0x037#10 g with d := d, a := a.r, b := b.r, p1 := a.trap, p2 := b.trap }
  | .adds g d a b => some { baseFields 0x038#10 g with d := d, a := a.r, b := b.r, p1 := a.trap, p2 := b.trap }
  | .subs g d a b => some { baseFields 0x039#10 g with d := d, a := a.r, b := b.r, p1 := a.trap, p2 := b.trap }
  | .addus g d a b => some { baseFields 0x03A#10 g with d := d, a := a.r, b := b.r, p1 := a.trap, p2 := b.trap }
  | .subus g d a b => some { baseFields 0x03B#10 g with d := d, a := a.r, b := b.r, p1 := a.trap, p2 := b.trap }
  | .clz g d a => some { baseFields 0x040#10 g with d := d, a := a.r, p1 := a.trap }
  | .ctz g d a => some { baseFields 0x041#10 g with d := d, a := a.r, p1 := a.trap }
  | .popc g d a => some { baseFields 0x042#10 g with d := d, a := a.r, p1 := a.trap }
  | .brev g d a => some { baseFields 0x043#10 g with d := d, a := a.r, p1 := a.trap }
  | .bswap g d a => some { baseFields 0x044#10 g with d := d, a := a.r, p1 := a.trap }
  | .addImm g d a imm => some { baseFields 0x020#10 g with d := d, a := a.r, p1 := a.trap, imm := imm }
  | .andImm g d a imm => some { baseFields 0x021#10 g with d := d, a := a.r, p1 := a.trap, imm := imm }
  | .orImm g d a imm => some { baseFields 0x022#10 g with d := d, a := a.r, p1 := a.trap, imm := imm }
  | .xorImm g d a imm => some { baseFields 0x023#10 g with d := d, a := a.r, p1 := a.trap, imm := imm }
  | .shlImm g d a k => some { baseFields 0x024#10 g with d := d, a := a.r, p1 := a.trap, imm := k.setWidth 28 }
  | .shrImm g d a k => some { baseFields 0x025#10 g with d := d, a := a.r, p1 := a.trap, imm := k.setWidth 28 }
  | .sarImm g d a k => some { baseFields 0x026#10 g with d := d, a := a.r, p1 := a.trap, imm := k.setWidth 28 }
  | .li g d imm => some { baseFields 0x027#10 g with d := d, imm := imm }
  | .lsi g d a imm => some { baseFields 0x028#10 g with d := d, a := a.r, p1 := a.trap, imm := imm }
  | .adr g d imm => some { baseFields 0x029#10 g with d := d, imm := imm }
  | .extu g d a pos len1 => some { baseFields 0x045#10 g with d := d, a := a.r, p1 := a.trap, imm := lenPos len1 pos }
  | .exts g d a pos len1 => some { baseFields 0x046#10 g with d := d, a := a.r, p1 := a.trap, imm := lenPos len1 pos }
  | .ins g d a pos len1 => some { baseFields 0x047#10 g with d := d, a := a.r, p1 := a.trap, imm := lenPos len1 pos }
  | .sxt g d a w => some { baseFields 0x048#10 g with d := d, a := a.r, p1 := a.trap, imm := w.setWidth 28 }
  | .zxt g d a w => some { baseFields 0x049#10 g with d := d, a := a.r, p1 := a.trap, imm := w.setWidth 28 }
  | .cmpEq g pd a b => some { baseFields 0x080#10 g with d := pd.setWidth 6, a := a.r, b := b.r, p1 := a.trap, p2 := b.trap }
  | .cmpNe g pd a b => some { baseFields 0x081#10 g with d := pd.setWidth 6, a := a.r, b := b.r, p1 := a.trap, p2 := b.trap }
  | .cmpLt g pd a b => some { baseFields 0x082#10 g with d := pd.setWidth 6, a := a.r, b := b.r, p1 := a.trap, p2 := b.trap }
  | .cmpLe g pd a b => some { baseFields 0x083#10 g with d := pd.setWidth 6, a := a.r, b := b.r, p1 := a.trap, p2 := b.trap }
  | .cmpLtu g pd a b => some { baseFields 0x084#10 g with d := pd.setWidth 6, a := a.r, b := b.r, p1 := a.trap, p2 := b.trap }
  | .cmpLeu g pd a b => some { baseFields 0x085#10 g with d := pd.setWidth 6, a := a.r, b := b.r, p1 := a.trap, p2 := b.trap }
  | .cmpEqImm g pd a imm => some { baseFields 0x088#10 g with d := pd.setWidth 6, a := a.r, p1 := a.trap, imm := imm }
  | .cmpNeImm g pd a imm => some { baseFields 0x089#10 g with d := pd.setWidth 6, a := a.r, p1 := a.trap, imm := imm }
  | .cmpLtImm g pd a imm => some { baseFields 0x08A#10 g with d := pd.setWidth 6, a := a.r, p1 := a.trap, imm := imm }
  | .cmpLeImm g pd a imm => some { baseFields 0x08B#10 g with d := pd.setWidth 6, a := a.r, p1 := a.trap, imm := imm }
  | .cmpLtuImm g pd a imm => some { baseFields 0x08C#10 g with d := pd.setWidth 6, a := a.r, p1 := a.trap, imm := imm }
  | .cmpLeuImm g pd a imm => some { baseFields 0x08D#10 g with d := pd.setWidth 6, a := a.r, p1 := a.trap, imm := imm }
  | .pand g pd pa pb => some { baseFields 0x090#10 g with d := pd.setWidth 6, a := pa.setWidth 6, b := pb.setWidth 6 }
  | .por g pd pa pb => some { baseFields 0x091#10 g with d := pd.setWidth 6, a := pa.setWidth 6, b := pb.setWidth 6 }
  | .pxor g pd pa pb => some { baseFields 0x092#10 g with d := pd.setWidth 6, a := pa.setWidth 6, b := pb.setWidth 6 }
  | .pandn g pd pa pb => some { baseFields 0x093#10 g with d := pd.setWidth 6, a := pa.setWidth 6, b := pb.setWidth 6 }
  | .mfp g d => some { baseFields 0x098#10 g with d := d }
  | .mtp g a => some { baseFields 0x099#10 g with a := a.r, p1 := a.trap }
  | .br g imm => some { baseFields 0x0C0#10 g with imm := imm }
  | .call g imm => some { baseFields 0x0C1#10 g with imm := imm }
  | .jr g a => some { baseFields 0x0C2#10 g with a := a.r, p1 := a.trap }
  | .callr g a => some { baseFields 0x0C3#10 g with a := a.r, p1 := a.trap }
  | .loop g n a imm => some { baseFields 0x0C8#10 g with d := n.setWidth 6, a := a.r, p1 := a.trap, imm := imm }
  | .loopi g n cnt imm => some { baseFields 0x0C9#10 g with d := n.setWidth 6, a := cnt.extractLsb' 6 6, b := cnt.extractLsb' 0 6, imm := imm }
  | .lpclr g n => some { baseFields 0x0CA#10 g with d := n.setWidth 6 }
  | .ldSB g d a imm => some { baseFields 0x100#10 g with d := d, a := a.r, p1 := a.trap, imm := imm }
  | .ldSBu g d a imm => some { baseFields 0x101#10 g with d := d, a := a.r, p1 := a.trap, imm := imm }
  | .ldSH g d a imm => some { baseFields 0x102#10 g with d := d, a := a.r, p1 := a.trap, imm := imm }
  | .ldSHu g d a imm => some { baseFields 0x103#10 g with d := d, a := a.r, p1 := a.trap, imm := imm }
  | .ldSW g d a imm => some { baseFields 0x104#10 g with d := d, a := a.r, p1 := a.trap, imm := imm }
  | .ldSWu g d a imm => some { baseFields 0x105#10 g with d := d, a := a.r, p1 := a.trap, imm := imm }
  | .ldS g d a imm => some { baseFields 0x106#10 g with d := d, a := a.r, p1 := a.trap, imm := imm }
  | .stSB g a b imm => some { baseFields 0x108#10 g with a := a.r, b := b.r, p1 := a.trap, p2 := b.trap, imm := imm }
  | .stSH g a b imm => some { baseFields 0x109#10 g with a := a.r, b := b.r, p1 := a.trap, p2 := b.trap, imm := imm }
  | .stSW g a b imm => some { baseFields 0x10A#10 g with a := a.r, b := b.r, p1 := a.trap, p2 := b.trap, imm := imm }
  | .stS g a b imm => some { baseFields 0x10B#10 g with a := a.r, b := b.r, p1 := a.trap, p2 := b.trap, imm := imm }
  | .ldGB g d a imm => some { baseFields 0x110#10 g with d := d, a := a.r, p1 := a.trap, imm := imm }
  | .ldGBu g d a imm => some { baseFields 0x111#10 g with d := d, a := a.r, p1 := a.trap, imm := imm }
  | .ldGH g d a imm => some { baseFields 0x112#10 g with d := d, a := a.r, p1 := a.trap, imm := imm }
  | .ldGHu g d a imm => some { baseFields 0x113#10 g with d := d, a := a.r, p1 := a.trap, imm := imm }
  | .ldGW g d a imm => some { baseFields 0x114#10 g with d := d, a := a.r, p1 := a.trap, imm := imm }
  | .ldGWu g d a imm => some { baseFields 0x115#10 g with d := d, a := a.r, p1 := a.trap, imm := imm }
  | .ldG g d a imm => some { baseFields 0x116#10 g with d := d, a := a.r, p1 := a.trap, imm := imm }
  | .stGB g a b imm => some { baseFields 0x118#10 g with a := a.r, b := b.r, p1 := a.trap, p2 := b.trap, imm := imm }
  | .stGH g a b imm => some { baseFields 0x119#10 g with a := a.r, b := b.r, p1 := a.trap, p2 := b.trap, imm := imm }
  | .stGW g a b imm => some { baseFields 0x11A#10 g with a := a.r, b := b.r, p1 := a.trap, p2 := b.trap, imm := imm }
  | .stG g a b imm => some { baseFields 0x11B#10 g with a := a.r, b := b.r, p1 := a.trap, p2 := b.trap, imm := imm }
  | .push g pd a q => some { baseFields 0x180#10 g with d := pd.setWidth 6, a := a.r, p1 := a.trap, imm := unitImm (q.setWidth 6) 0#22 }
  | .pushm g pd a q off => some { baseFields 0x181#10 g with d := pd.setWidth 6, a := a.r, p1 := a.trap, imm := unitImm (q.setWidth 6) off }
  | .rtail g a q => some { baseFields 0x182#10 g with a := a.r, p1 := a.trap, imm := unitImm (q.setWidth 6) 0#22 }
  | .qfence g mask => some { baseFields 0x183#10 g with imm := mask.setWidth 28 }
  | .semadd g a k => some { baseFields 0x184#10 g with a := a.r, p1 := a.trap, imm := unitImm (k.setWidth 6) 0#22 }
  | .semwait g a k => some { baseFields 0x185#10 g with a := a.r, p1 := a.trap, imm := unitImm (k.setWidth 6) 0#22 }
  | .waitb g k t => some { baseFields 0x186#10 g with imm := unitImm (k.setWidth 6) t }
  | .semrdDone g d k => some { baseFields 0x187#10 g with d := d, imm := unitImm (k.setWidth 6) 0#22 }
  | .semrdPend g d k => some { baseFields 0x187#10 g with d := d, imm := unitImm (k.setWidth 6) 1#22 }
  | .pause g n => some { baseFields 0x188#10 g with imm := unitImm 0#6 n }
  | .waita g pd a off => some { baseFields 0x189#10 g with d := pd.setWidth 6, a := a.r, p1 := a.trap, imm := unitImm 0#6 off }
  | .acqX g a => some { baseFields 0x190#10 g with a := a.r, p1 := a.trap }
  | .acqS g a => some { baseFields 0x191#10 g with a := a.r, p1 := a.trap }
  | .rel g a => some { baseFields 0x192#10 g with a := a.r, p1 := a.trap }
  | .relSet g a b => some { baseFields 0x193#10 g with a := a.r, b := b.r, p1 := a.trap, p2 := b.trap }
  | .ldAcq g d a off => some { baseFields 0x194#10 g with d := d, a := a.r, p1 := a.trap, imm := unitImm 0#6 off }
  | .tbar g => some (baseFields 0x198#10 g)
  | .sstep g => some (baseFields 0x199#10 g)
  | .cbar g => some (baseFields 0x19A#10 g)
  | .cstep g => some (baseFields 0x19B#10 g)
  | .spawn g d a off => some { baseFields 0x1C0#10 g with d := d, a := a.r, p1 := a.trap, imm := unitImm 0#6 off }
  | .msend g d a off => some { baseFields 0x1C1#10 g with d := d, a := a.r, p1 := a.trap, imm := unitImm 0#6 off }
  | .csend g a off => some { baseFields 0x1C2#10 g with a := a.r, p1 := a.trap, imm := unitImm 0#6 off }
  | .csendA g d a off => some { baseFields 0x1C3#10 g with d := d, a := a.r, p1 := a.trap, imm := unitImm 0#6 off }
  | .crole g d a b off => some { baseFields 0x1C4#10 g with d := d, a := a.r, b := b.r, p1 := a.trap, p2 := b.trap, imm := unitImm 0#6 off }
  | .cdeleg g a b off => some { baseFields 0x1C5#10 g with a := a.r, b := b.r, p1 := a.trap, p2 := b.trap, imm := unitImm 0#6 off }
  | .mfcr g d c => some { baseFields 0x200#10 g with d := d, imm := c.setWidth 28 }
  | .mtcr g a c => some { baseFields 0x201#10 g with a := a.r, p1 := a.trap, imm := c.setWidth 28 }
  | .ringRegisterWrite g a q count => some { baseFields 0x201#10 g with a := a.r, p1 := a.trap, imm := ringImm q count }
  | .mleaseWrite g a => some { baseFields 0x201#10 g with a := a.r, p1 := a.trap, imm := 0x062#28 }
  | .trapOp g code => some { baseFields 0x202#10 g with imm := code.setWidth 28 }
  | .brk g => some (baseFields 0x203#10 g)
  | .eret g => some (baseFields 0x204#10 g)
  | .doneOp g => some (baseFields 0x205#10 g)
  | .probe g a b => some { baseFields 0x208#10 g with a := a.r, b := b.r, p1 := a.trap, p2 := b.trap }
  | .phint g a imm => some { baseFields 0x209#10 g with a := a.r, p1 := a.trap, imm := imm }
  | .phase g => some (baseFields 0x20A#10 g)
  | .shoot g a b => some { baseFields 0x210#10 g with a := a.r, b := b.r, p1 := a.trap, p2 := b.trap }
  | .corecapWrite g a => some { baseFields 0x201#10 g with a := a.r, p1 := a.trap, imm := 0x801#28 }
  | .lcmentWrite g a => some { baseFields 0x201#10 g with a := a.r, p1 := a.trap, imm := 0x809#28 }
  | .leadcasWrite g a => some { baseFields 0x201#10 g with a := a.r, p1 := a.trap, imm := 0x820#28 }
  | .hbeatWrite g a => some { baseFields 0x201#10 g with a := a.r, p1 := a.trap, imm := 0x822#28 }
  | _ => none

/-- The word of a scalar instruction. -/
def encodeScalar (i : Instr) : Option Word :=
  match i with
  | .unassignedOpcode w => some w
  | _ => (encodeFields i).map joinWord

/-- A descriptor from its 128 bits (Table 8.4). -/
def splitDesc (w : BitVec 128) : Desc :=
  { base := w.extractLsb' 96 32, space := w.extractLsb' 92 4, tag := w.extractLsb' 84 8, rsv := w.extractLsb' 80 4, s3 := w.extractLsb' 60 20,
    s2 := w.extractLsb' 40 20, s1 := w.extractLsb' 20 20, s0 := w.extractLsb' 0 20 }

/-- The 128 bits of a descriptor (Table 8.4). -/
def joinDesc (d : Desc) : BitVec 128 :=
  (d.base.setWidth 128 <<< 96) ||| (d.space.setWidth 128 <<< 92) ||| (d.tag.setWidth 128 <<< 84) ||| (d.rsv.setWidth 128 <<< 80) |||
  (d.s3.setWidth 128 <<< 60) ||| (d.s2.setWidth 128 <<< 40) ||| (d.s1.setWidth 128 <<< 20) ||| d.s0.setWidth 128

/-- A record from its 512 bits, the first word lowest (Tables 8.3 and 8.4, R126). -/
def splitRec (w : BitVec 512) : Rec :=
  { mods := w.extractLsb' 36 16, awSem := w.extractLsb' 31 5, awEn := w.getLsbD 30, raSem := w.extractLsb' 25 5, raEn := w.getLsbD 24,
    thr := w.extractLsb' 8 16, kat := w.getLsbD 7, phase := w.getLsbD 6, event := w.getLsbD 5, low := w.extractLsb' 0 5,
    n3 := w.extractLsb' 112 16, n2 := w.extractLsb' 96 16, n1 := w.extractLsb' 80 16, n0 := w.extractLsb' 64 16,
    d := splitDesc (w.extractLsb' 128 128), a := splitDesc (w.extractLsb' 256 128), b := splitDesc (w.extractLsb' 384 128) }

/-- The 512 bits of a record of class c and operation o (Table 8.3). -/
def joinRec (c : BitVec 4) (o : BitVec 8) (r : Rec) : BitVec 512 :=
  (c.setWidth 512 <<< 60) ||| (o.setWidth 512 <<< 52) ||| (r.mods.setWidth 512 <<< 36) ||| (r.awSem.setWidth 512 <<< 31) |||
  ((BitVec.ofBool r.awEn).setWidth 512 <<< 30) ||| (r.raSem.setWidth 512 <<< 25) ||| ((BitVec.ofBool r.raEn).setWidth 512 <<< 24) |||
  (r.thr.setWidth 512 <<< 8) ||| ((BitVec.ofBool r.kat).setWidth 512 <<< 7) ||| ((BitVec.ofBool r.phase).setWidth 512 <<< 6) |||
  ((BitVec.ofBool r.event).setWidth 512 <<< 5) ||| r.low.setWidth 512 ||| (r.n3.setWidth 512 <<< 112) ||| (r.n2.setWidth 512 <<< 96) |||
  (r.n1.setWidth 512 <<< 80) ||| (r.n0.setWidth 512 <<< 64) ||| ((joinDesc r.d).setWidth 512 <<< 128) |||
  ((joinDesc r.a).setWidth 512 <<< 256) ||| ((joinDesc r.b).setWidth 512 <<< 384)

/-- The operation with a class field and code of Tables 8.10 to 8.13. -/
def recInstr (c : BitVec 4) (o : BitVec 8) (r : Rec) : Option Instr :=
  if c == 0#4 then
    if o == 0x01#8 then some (.vld r)
    else if o == 0x02#8 then some (.vldBc r)
    else if o == 0x03#8 then some (.vst r)
    else if o == 0x04#8 then some (.vmov r)
    else if o == 0x08#8 then some (.accrd r)
    else if o == 0x09#8 then some (.accwr r)
    else if o == 0x0A#8 then some (.park r)
    else if o == 0x0B#8 then some (.unpark r)
    else if o == 0x10#8 then some (.fadd r)
    else if o == 0x11#8 then some (.fsub r)
    else if o == 0x12#8 then some (.fmul r)
    else if o == 0x13#8 then some (.fma r)
    else if o == 0x14#8 then some (.fmin r)
    else if o == 0x15#8 then some (.fmax r)
    else if o == 0x16#8 then some (.fabs r)
    else if o == 0x17#8 then some (.fneg r)
    else if o == 0x18#8 then some (.fdiv r)
    else if o == 0x19#8 then some (.fsqrt r)
    else if o == 0x1A#8 then some (.frsqrt r)
    else if o == 0x1B#8 then some (.frcp r)
    else if o == 0x20#8 then some (.iadd r)
    else if o == 0x21#8 then some (.isub r)
    else if o == 0x22#8 then some (.iand r)
    else if o == 0x23#8 then some (.ior r)
    else if o == 0x24#8 then some (.ixor r)
    else if o == 0x25#8 then some (.ishl r)
    else if o == 0x26#8 then some (.ishr r)
    else if o == 0x27#8 then some (.isar r)
    else if o == 0x28#8 then some (.imin r)
    else if o == 0x29#8 then some (.imax r)
    else if o == 0x2C#8 then some (.imul r)
    else if o == 0x2D#8 then some (.idot4 r)
    else if o == 0x30#8 then some (.fcmp r)
    else if o == 0x31#8 then some (.icmp r)
    else if o == 0x32#8 then some (.vsel r)
    else if o == 0x33#8 then some (.maskop r)
    else if o == 0x38#8 then some (.cvt r)
    else if o == 0x3C#8 then some (.quant r)
    else if o == 0x3D#8 then some (.dequant r)
    else if o == 0x40#8 then some (.trpack r)
    else if o == 0x41#8 then some (.trunpack r)
    else if o == 0x48#8 then some (.rsum r)
    else if o == 0x49#8 then some (.rmax r)
    else if o == 0x4A#8 then some (.rmin r)
    else if o == 0x50#8 then some (.vperm r)
    else if o == 0x51#8 then some (.vshuf r)
    else if o == 0x52#8 then some (.vbcast r)
    else none
  else if c == 1#4 then
    if o == 0x01#8 then some (.mcfg r)
    else if o == 0x02#8 then some (.mzero r)
    else if o == 0x10#8 then some (.mdotT r)
    else if o == 0x11#8 then some (.mdotS4 r)
    else if o == 0x12#8 then some (.mdotI8 r)
    else none
  else if c == 2#4 then
    if o == 0x01#8 then some (.copy r)
    else if o == 0x02#8 then some (.fill r)
    else if o == 0x10#8 then some (.put r)
    else if o == 0x11#8 then some (.get r)
    else if o == 0x12#8 then some (.putred r)
    else if o == 0x13#8 then some (.mcast r)
    else if o == 0x14#8 then some (.aput r)
    else if o == 0x18#8 then some (.sempost r)
    else if o == 0x20#8 then some (.nsend r)
    else if o == 0x21#8 then some (.nwrite r)
    else if o == 0x22#8 then some (.nread r)
    else if o == 0x23#8 then some (.nflush r)
    else none
  else if c == 3#4 then
    if o == 0x01#8 then some (.join r)
    else none
  else none

/-- The record in 512 bits: an engine operation, or RECORD_INVALID where its class or operation is unassigned (rules 1 and 2 of R131). -/
def decodeRecord (w : BitVec 512) : Instr :=
  (recInstr (w.extractLsb' 60 4) (w.extractLsb' 52 8) (splitRec w)).getD (.recordInvalid w)

/-- The class field, the operation code and the record of an engine operation. -/
def recParts : Instr → Option (BitVec 4 × BitVec 8 × Rec)
  | .vld r => some (0#4, 0x01#8, r)
  | .vldBc r => some (0#4, 0x02#8, r)
  | .vst r => some (0#4, 0x03#8, r)
  | .vmov r => some (0#4, 0x04#8, r)
  | .accrd r => some (0#4, 0x08#8, r)
  | .accwr r => some (0#4, 0x09#8, r)
  | .park r => some (0#4, 0x0A#8, r)
  | .unpark r => some (0#4, 0x0B#8, r)
  | .fadd r => some (0#4, 0x10#8, r)
  | .fsub r => some (0#4, 0x11#8, r)
  | .fmul r => some (0#4, 0x12#8, r)
  | .fma r => some (0#4, 0x13#8, r)
  | .fmin r => some (0#4, 0x14#8, r)
  | .fmax r => some (0#4, 0x15#8, r)
  | .fabs r => some (0#4, 0x16#8, r)
  | .fneg r => some (0#4, 0x17#8, r)
  | .fdiv r => some (0#4, 0x18#8, r)
  | .fsqrt r => some (0#4, 0x19#8, r)
  | .frsqrt r => some (0#4, 0x1A#8, r)
  | .frcp r => some (0#4, 0x1B#8, r)
  | .iadd r => some (0#4, 0x20#8, r)
  | .isub r => some (0#4, 0x21#8, r)
  | .iand r => some (0#4, 0x22#8, r)
  | .ior r => some (0#4, 0x23#8, r)
  | .ixor r => some (0#4, 0x24#8, r)
  | .ishl r => some (0#4, 0x25#8, r)
  | .ishr r => some (0#4, 0x26#8, r)
  | .isar r => some (0#4, 0x27#8, r)
  | .imin r => some (0#4, 0x28#8, r)
  | .imax r => some (0#4, 0x29#8, r)
  | .imul r => some (0#4, 0x2C#8, r)
  | .idot4 r => some (0#4, 0x2D#8, r)
  | .fcmp r => some (0#4, 0x30#8, r)
  | .icmp r => some (0#4, 0x31#8, r)
  | .vsel r => some (0#4, 0x32#8, r)
  | .maskop r => some (0#4, 0x33#8, r)
  | .cvt r => some (0#4, 0x38#8, r)
  | .quant r => some (0#4, 0x3C#8, r)
  | .dequant r => some (0#4, 0x3D#8, r)
  | .trpack r => some (0#4, 0x40#8, r)
  | .trunpack r => some (0#4, 0x41#8, r)
  | .rsum r => some (0#4, 0x48#8, r)
  | .rmax r => some (0#4, 0x49#8, r)
  | .rmin r => some (0#4, 0x4A#8, r)
  | .vperm r => some (0#4, 0x50#8, r)
  | .vshuf r => some (0#4, 0x51#8, r)
  | .vbcast r => some (0#4, 0x52#8, r)
  | .mcfg r => some (1#4, 0x01#8, r)
  | .mzero r => some (1#4, 0x02#8, r)
  | .mdotT r => some (1#4, 0x10#8, r)
  | .mdotS4 r => some (1#4, 0x11#8, r)
  | .mdotI8 r => some (1#4, 0x12#8, r)
  | .copy r => some (2#4, 0x01#8, r)
  | .fill r => some (2#4, 0x02#8, r)
  | .put r => some (2#4, 0x10#8, r)
  | .get r => some (2#4, 0x11#8, r)
  | .putred r => some (2#4, 0x12#8, r)
  | .mcast r => some (2#4, 0x13#8, r)
  | .aput r => some (2#4, 0x14#8, r)
  | .sempost r => some (2#4, 0x18#8, r)
  | .nsend r => some (2#4, 0x20#8, r)
  | .nwrite r => some (2#4, 0x21#8, r)
  | .nread r => some (2#4, 0x22#8, r)
  | .nflush r => some (2#4, 0x23#8, r)
  | .join r => some (3#4, 0x01#8, r)
  | _ => none

/-- The 512 bits of an engine operation. -/
def encodeRecord (i : Instr) : Option (BitVec 512) :=
  match i with
  | .recordInvalid w => some w
  | _ => (recParts i).map fun p => joinRec p.1 p.2.1 p.2.2

/-- The bits of a well-formed instruction, its first word lowest: 64 for a scalar instruction, 512 for a record. An event has none. -/
def encode (i : Instr) : Option (Nat × Nat) :=
  match encodeScalar i with
  | some w => some (64, w.toNat)
  | none => (encodeRecord i).map fun w => (512, w.toNat)

/-- The instruction that the decoder reads from an instruction whose bits are w: a scalar word, or a record of 512 bits. -/
def decodeTableWord (nbits w : Nat) : Option Instr :=
  if nbits ≤ 64 then (decodeWord (BitVec.ofNat 64 w)).toOption else some (decodeRecord (BitVec.ofNat 512 w))

/-- The capability class of a scalar opcode (Table 4.6). -/
def scalarClass (o : Nat) : Nat :=
  if 0x030 ≤ o && o ≤ 0x032 then 1 else if 0x034 ≤ o && o ≤ 0x037 then 2 else if 0x040 ≤ o && o ≤ 0x047 then 3
  else if 0x038 ≤ o && o ≤ 0x03B then 4 else if 0x180 ≤ o && o ≤ 0x19B then 5 else if 0x1C0 ≤ o && o ≤ 0x1C5 then 6 else 0

/-- The capability class of an engine operation (Tables 8.10 to 8.13). -/
def recClass : Instr → Nat
  | .vld _ => 8
  | .vldBc _ => 8
  | .vst _ => 8
  | .vmov _ => 19
  | .accrd _ => 9
  | .accwr _ => 9
  | .park _ => 9
  | .unpark _ => 9
  | .fadd _ => 10
  | .fsub _ => 10
  | .fmul _ => 10
  | .fma _ => 10
  | .fmin _ => 10
  | .fmax _ => 10
  | .fabs _ => 10
  | .fneg _ => 10
  | .fdiv _ => 11
  | .fsqrt _ => 11
  | .frsqrt _ => 11
  | .frcp _ => 11
  | .iadd _ => 12
  | .isub _ => 12
  | .iand _ => 12
  | .ior _ => 12
  | .ixor _ => 12
  | .ishl _ => 12
  | .ishr _ => 12
  | .isar _ => 12
  | .imin _ => 12
  | .imax _ => 12
  | .imul _ => 13
  | .idot4 _ => 13
  | .fcmp _ => 14
  | .icmp _ => 14
  | .vsel _ => 14
  | .maskop _ => 14
  | .cvt _ => 15
  | .quant _ => 16
  | .dequant _ => 16
  | .trpack _ => 17
  | .trunpack _ => 17
  | .rsum _ => 18
  | .rmax _ => 18
  | .rmin _ => 18
  | .vperm _ => 19
  | .vshuf _ => 19
  | .vbcast _ => 19
  | .mcfg _ => 24
  | .mzero _ => 24
  | .mdotT _ => 25
  | .mdotS4 _ => 26
  | .mdotI8 _ => 27
  | .copy _ => 32
  | .fill _ => 32
  | .put _ => 33
  | .get _ => 33
  | .putred _ => 34
  | .mcast _ => 35
  | .aput _ => 35
  | .sempost _ => 36
  | .nsend _ => 37
  | .nwrite _ => 37
  | .nread _ => 37
  | .nflush _ => 37
  | .join _ => 38
  | _ => 0

end Sys2Proof
end

