-- ==== Sys2Proof/Config.lean ====
section
/-! DEFINITION. What the spec leaves to the implementation, and the values it leaves open: constants without a body, so that no proof can
see what they are. -/
namespace Sys2Proof.Config

/-- A value the spec leaves undefined: the n-th one drawn in a run, in 64 bits. -/
opaque freeWord : Nat → Word

/-- The rank, one of 256, of a line of a stack: R413 gives no map from addresses to ranks. -/
opaque lineRank : Nat → BitVec 8

/-- How many packets beyond the one after the next expected one a connection accepts in a delivery mode (R251 gives no size). -/
opaque rxWindow : Nat

/-- Whether the send queue of MSEND has room, the n-th time it is asked (Table 6.9 gives no size). -/
opaque sendRoom : Nat → Bool

/-- The lowest release number that a die's boot ROM accepts: a fused value (R424). -/
opaque minRelease : Word

/-- The digest of the public key that a die's images are signed under: a fused value (R424). -/
opaque fusedKey : BitVec 256

/-- The private device key (R425). -/
opaque deviceKey : Nat

/-- The secret number of the n-th signature under the device key, which ECDSA lets the signer draw (R425). -/
opaque signNonce : Nat → Nat

end Sys2Proof.Config
end

