-- ==== Sys2Proof/Machine/State.lean ====
section
/-! DEFINITION. The state of the HX8 package, as plain data: every core, thread and firmware core, every engine, every memory, and the
tables and queues of the Crossroads die. A table of many like things is a sparse list, sorted by key, that leaves out what still has its
default. -/
namespace Sys2Proof.Machine

/-- A sparse table: keys strictly rising, and no entry equal to the table's default. -/
abbrev Tbl (α : Type) := List (Nat × α)

/-- All bytes of the package, one key space for all memories (see Mem.lean), in canonical form; an unlisted byte reads zero. -/
abbrev Memory := List Host.Cell

/-- The barriers of Table 6.7. -/
inductive Barrier where
  | tbar | sstep | cbar | cstep
deriving DecidableEq, Repr

/-- What a scalar stream that has issued a blocking instruction waits for. -/
inductive Wait where
  /-- SEMWAIT (R93). -/
  | sem (k : BitVec 5) (a : BitVec 32)
  /-- WAITB (R93). -/
  | waitb (k : BitVec 5) (t : BitVec 22)
  /-- PAUSE until a time in ticks (R95). -/
  | pause (till : Nat)
  /-- WAITA on the line at a home key, with its predicate (R96); the flag is set once the line has been written. -/
  | waita (pd : BitVec 5) (line : Nat) (hit : Bool)
  /-- ACQ.X or ACQ.S of an object (R98). -/
  | acq (obj : Word) (excl : Bool)
  /-- A barrier arrival (R101). -/
  | barrier (b : Barrier)
  /-- CSEND or CDELEG, until the verdict returns (R105). -/
  | verdict
  /-- PROBE, for the answer to a page request of a unit, with the last unit of its range (R106, R350). -/
  | page (unit last : Nat)
  /-- A PHINT that has retired with a yield request pending: stopped for the save, with the address of its liveness descriptor (R107). -/
  | yield (ea : Word)
  /-- DONE, until its drain has finished (R111). -/
  | drain
deriving DecidableEq, Repr

/-- Whether an agent's scalar stream runs. -/
inductive Run where
  /-- No task, handler or routine. -/
  | idle
  | running
  | waiting (w : Wait)
  /-- Stopped by its context's halt line or by its own fault (R388). -/
  | halted
  /-- The task has executed DONE and its drain has finished. -/
  | done
  /-- Suspended for a save (R295, R393). -/
  | suspended
deriving DecidableEq, Repr

/-- A load that has issued and whose value has not arrived (R79, R99). -/
structure Fill where
  reg  : BitVec 6
  ea   : Word
  /-- Width in bytes. -/
  w    : Nat
  sext : Bool
  /-- LD.ACQ (R99). -/
  acq  : Bool
  /-- The value, once it is known: a hit, or a CSEND.A verdict. -/
  val  : Option Word
  /-- CSEND.A: filled by its verdict. -/
  verdict : Bool
deriving DecidableEq, Repr

/-- A line of a global data cache (R80): its context, its address, its bytes and its valid and dirty masks. -/
structure Line where
  ctx   : BitVec 6
  /-- Address bits 63:6. -/
  tag   : BitVec 58
  data  : BitVec 512
  valid : BitVec 64
  dirty : BitVec 64
deriving DecidableEq, Repr

/-- A line of a core's instruction cache (Table 1.1): its context, address bits 63:6, and its bytes as they were fetched. -/
structure CodeLine where
  ctx  : BitVec 6
  tag  : BitVec 58
  data : BitVec 512
deriving DecidableEq, Repr

/-- A write-back on its way to its home (R80): the bytes of the mask. -/
structure WriteBack where
  ctx  : BitVec 6
  tag  : BitVec 58
  data : BitVec 512
  mask : BitVec 64
deriving DecidableEq, Repr

/-- A conversational request that has gone to a home on another package (R367): its message number on the connection to the home, whether
it is a send (3), a claim (4) or a delegation (5), the conversation, the role, and for CSEND.A and CROLE the destination. -/
structure Verdict where
  conn  : Nat
  tok   : Nat
  kind  : Nat
  conv  : Nat
  role  : Nat
  /-- CSEND.A: the task goes on. -/
  later : Bool
  reg   : BitVec 6
  /-- The role register of a claim or a delegation. -/
  slot  : Nat
  /-- The inbox of a claim: base, length, semaphore. -/
  base  : Nat
  len   : Nat
  sem   : Nat
  /-- The queue that a delegation names, and its hand-over payload of len bytes. -/
  queue : Nat
  data  : Nat
  ms    : Option Nat
deriving DecidableEq, Repr

/-- A scalar stream: a compute core's, a wayside thread's or a die firmware core's. -/
structure Scalar where
  run     : Run
  /-- The context of the task or handler. -/
  ctx     : BitVec 6
  pc      : Word
  /-- s1 to s63; s0 is not stored. -/
  regs    : Tbl Word
  /-- Bit i: register si is empty (R34). -/
  empty   : BitVec 64
  /-- p1 to p31; bit 0 is not read. -/
  preds   : BitVec 32
  /-- STATUS (Table 6.2). -/
  status  : Word
  tvec    : Word
  tpc     : Word
  tcause  : Word
  tval    : Word
  tstatus : Word
  tscr    : Tbl Word
  lstart0 : Word
  lend0   : Word
  lcount0 : Word
  lstart1 : Word
  lend1   : Word
  lcount1 : Word
  /-- PHNUM. -/
  phnum   : Word
  /-- ROLE0 to ROLE3. -/
  roles   : Tbl Word
  /-- WIN0 to WIN15. -/
  win     : Tbl Word
  /-- SHCTX. -/
  shctx   : BitVec 6
  fills   : List Fill
  /-- The global data cache by set, each set's lines most recently used first. -/
  dc      : Tbl (List Line)
  /-- Write-backs on their way, oldest first. -/
  wb      : List WriteBack
  /-- The watch line of a thread, and whether it has been written since (R96, R100). -/
  watch   : Option (Nat × Bool)
  /-- Requests of this task to homes on other packages. -/
  verdicts : List Verdict
  /-- Page requests raised for the unit a PROBE waits on (R350), and the answer once given. -/
  probes  : Nat
  answer  : Option Bool
  /-- A task or handler that has not begun its first instruction. -/
  fresh   : Bool
  /-- The tick of the first instruction, for CYCLE. -/
  start   : Nat
  /-- Clks counted before the last resume (R397). -/
  cycle0  : Nat
  /-- The tick at which the watchdog started to count (R402, R246). -/
  wd      : Nat
  /-- The tick at which the stream stopped for a save: from it on the watchdog does not count. -/
  stopAt  : Nat
  /-- The handler event's word 0 and words, for a wayside thread (R244). -/
  event   : List Word
deriving DecidableEq, Repr

/-- A translation that a TLB holds (R347, R348): one 64 KiB unit of the die for a context, its physical base and the rights granted
when it was walked (4 RD, 2 WR, 1 EX). -/
structure TlbEnt where
  ctx    : Nat
  unit   : Nat
  base   : Nat
  rights : Nat
deriving DecidableEq, Repr

/-- A range entry that a memory-side TLB holds (R347): its context, its first and last unit, its rights, whether the range is paged, and its
MAP. -/
structure RangeEnt where
  ctx    : Nat
  lo     : Nat
  hi     : Nat
  rights : Nat
  paged  : Bool
  map    : Nat
deriving DecidableEq, Repr

/-- A semaphore (R93). -/
structure Sem where
  pend : BitVec 32
  done : BitVec 32
  err  : Bool
deriving DecidableEq, Repr

/-- What an engine holds of a record between its issues, beside their number: of an MDOT the K-blocks of its step in progress that have been made
(R167) and the scales of A that it has read, by row × n0 + K-block (R115, R166); the values of a reduction's group or of a known-answer tile so
far and the signature so far (R206, R410); of an MDOT that was saved its inputs at the save, and whether they differed when it resumed
(R172). -/
structure Part where
  blocks : Nat
  scales : Tbl Nat
  vals   : List Nat
  sig    : Word
  inputs : Option (List Nat)
  wild   : Bool
  /-- The issues of a copy record that go before the others, by their numbers in nest order: its issues are unordered (R130). -/
  order  : List Nat
deriving DecidableEq, Repr

/-- A record that has started and not completed (R135): its header word, its counter, the parts of it still outstanding, of which its body
is one, and whether it completes with an error status. -/
structure Flight where
  hdr  : Word
  slot : BitVec 32
  /-- The record as its engine took it from the slot (R137). -/
  words : BitVec 512
  /-- The first issue or step not begun, and whether the body is over (R172, R185). -/
  idx  : Nat
  made : Bool
  pend : Nat
  err  : Bool
  /-- CQSTAT's status code, for a copy record that fails (R217, R218). -/
  stat : BitVec 8
  /-- Accumulator blocks whose tags its completion sets (R120). -/
  tags : List (Nat × BitVec 8)
  /-- What it read when it started: the window registers (R129), TIE (R147), the B block of an MCAST or network record, the rows of a
  shape record (R164). -/
  win  : Tbl Word
  tie  : Bool
  blk  : Option Nat
  rows : Option (List (Nat × Nat))
  part : Part
deriving DecidableEq, Repr

/-- One engine queue (Tables 8.8 and 8.9), with its started records oldest first. -/
structure Queue where
  base   : BitVec 22
  count  : BitVec 13
  head   : BitVec 32
  tail   : BitVec 32
  evt    : Bool
  flight : List Flight
  /-- Counters of accepted slots for which STATUS.PH was captured as 1 (R125). -/
  ph     : List (BitVec 32)
  /-- Counters of accepted slots that a QFENCE wrote (R92, R140). -/
  fences : List (BitVec 32)
  /-- The engine has stopped: at its own fault, at the halt line or for a save (R386, R388, R395). -/
  stopped : Bool
  /-- The record that it did not start because its class is fenced, and the class (R139). -/
  fenced : Option (BitVec 32 × Nat)
  /-- Words of the next record's slot that it has read ahead of its start: word number and value (R137). -/
  words  : List (Nat × Nat)
  /-- Scratchpad words, and accumulator entries, that the next issue has read ahead of the others, by key (R114, R186, R326). -/
  early  : List (Nat × Nat)
  /-- Words and entries that the next issue has written ahead of the others, with their values before (R114, R186, R326). -/
  landed : List (Nat × Nat)
deriving DecidableEq, Repr

/-- How far the die's service code has brought a core up (R419): not started, to be scanned, in its scan, passed, failed. -/
inductive Boot where
  | off | toScan | inScan | passed | failed
deriving DecidableEq, Repr

/-- The service states of Table 22.3. -/
inductive Svc where
  | spare | service | draining | held | scanning | retired
deriving DecidableEq, Repr

/-- A checkpoint of a phase (R398): the scalar state with what its empty registers wait for, every semaphore, each queue's TAIL, and of the
copy queue HEAD and REFETCH. -/
structure Checkpoint where
  pc     : Word
  regs   : Tbl Word
  empty  : BitVec 64
  fills  : List Fill
  preds  : BitVec 32
  status : Word
  loops  : List Word
  win    : Tbl Word
  sems   : Tbl Sem
  tails  : List (BitVec 32)
  cqHead : BitVec 32
  refetch : BitVec 32
deriving DecidableEq, Repr

/-- An increment of DONE since the checkpoint by the task itself (R399): by SEMADD (queue 3), or by a record of a queue. -/
structure Undo where
  q    : Nat
  slot : BitVec 32
  sem  : Nat
  amt  : BitVec 32
  err  : Bool
deriving DecidableEq, Repr

/-- The task on a core: its team and its logical number in it. -/
structure TaskRef where
  team  : Nat
  lcore : Nat
deriving DecidableEq, Repr

/-- A physical core beyond its scalar stream: queues, semaphores, vector registers, masks, accumulator, spill map, matrix configuration,
status registers, and what the die's firmware and the dispatcher hold about it. -/
structure Core where
  vq      : Queue
  mq      : Queue
  cq      : Queue
  sems    : Tbl Sem
  vregs   : Tbl VWord
  vtags   : Tbl (BitVec 8)
  /-- Bit n: vector register vn is empty (R119). -/
  vempty  : BitVec 384
  /-- m1 to m7, and which of them are empty (R119). -/
  masks   : Tbl VMask
  mempty  : BitVec 8
  acc     : Tbl (BitVec 32)
  btags   : Tbl (BitVec 8)
  written : BitVec 64
  /-- Spill map: group to 0x100 + tag where parked (R123). -/
  spill   : Tbl (BitVec 9)
  /-- The matrix configuration block (Table 7.4). -/
  mcfg    : BitVec 512
  vstatus : Word
  cqstat  : Word
  redstat : Word
  /-- MSTATUS.NSEEN (R174). -/
  nseen   : Bool
  joinNo  : BitVec 32
  /-- The task, if a team holds the core. -/
  task    : Option TaskRef
  /-- The context of the last task since the core was zeroed (R121). -/
  owner   : Option (BitVec 6)
  capmask : Word
  svc     : Svc
  rej     : Bool
  /-- A zeroing that LCMENT or RELEASE started is under way (R383). -/
  zeroing : Bool
  /-- A PRE dispatch has claimed the core out of HELD or SCANNING (R381). -/
  preClaim : Bool
  boot    : Boot
  /-- Bring-up has given it classes 24 to 27 (R419). -/
  gained  : Bool
  scanSeg : BitVec 4
  scanRes : BitVec 4
  scanFail : Word
  scanSig : Word
  katstat : Word
  spcorr  : BitVec 32
  /-- The context whose resident core this is (R236, R385). -/
  resident : Option (BitVec 6)
  ckpt    : Option Checkpoint
  /-- Rollbacks of the current phase in a row (R401). -/
  rolls   : Nat
  /-- Records accepted by triggered COPY since the checkpoint (R399). -/
  trigs   : List (BitVec 512)
  /-- Semaphore increments since the checkpoint that a rollback may take back. -/
  undone  : List Undo
  /-- A rollback is under way (R399), and the copy records it has still to run again, each with whether it had started before. -/
  rolling : Bool
  rerun   : List (BitVec 32 × Bool)
  /-- First-level TLB (R347). -/
  tlb     : List TlbEnt
  /-- The instruction cache (Table 1.1), most recent line first. -/
  icache  : List CodeLine
deriving DecidableEq, Repr

/-- A quad's matrix array (R113, R174, R175). -/
structure Quad where
  /-- The slot that holds the grant. -/
  grant  : Option Nat
  run    : Nat
  last   : Nat
  lease  : Word
  /-- LEASE_RUN as it stood at the grant (R174). -/
  lim    : Nat
deriving DecidableEq, Repr

/-- Where an outgoing message came from: what its completion or failure reaches. -/
inductive Origin where
  /-- A copy record: core, slot counter. -/
  | record (p : Nat) (slot : BitVec 32)
  /-- A triggered SEND: milestone, index in its list. -/
  | trigger (m i : Nat)
  /-- MSEND, or a message without a record. -/
  | other
deriving DecidableEq, Repr

/-- An outgoing packet that its peer has not acknowledged (R252, R253). -/
structure Tx where
  ctx    : Nat
  conn   : Nat
  pkt    : Packet
  origin : Origin
  /-- The milestone that advances when the message completes. -/
  ms     : Option Nat
  /-- Sent at least once; until then the packet waits for the window. -/
  sent   : Bool
  tries  : Nat
  sentAt : Nat
  /-- The current retransmission timeout in ns. -/
  rto    : Nat
deriving DecidableEq, Repr

/-- An RMA read that waits for its reply (R228, R254): its message on its connection, where its bytes land, and how many have. -/
structure ReadReq where
  ctx    : Nat
  conn   : Nat
  mode   : Nat
  msg    : Nat
  core   : Nat
  off    : Nat
  len    : Nat
  got    : Nat
  origin : Origin
  ms     : Option Nat
deriving DecidableEq, Repr

/-- One delivery mode of a connection: the next packet sequence number to send, the next one expected, those accepted beyond it, and the
packets held for their turn (R251, R263). -/
structure ModeRun where
  next   : Nat
  rxNext : Nat
  seen   : List Nat
  held   : List Packet
deriving DecidableEq, Repr

/-- What the device keeps of a connection beyond its table entry (R251 to R255): payload bytes in flight, clean bytes, the highest packet
sequence number sent and the one that W was last halved for (R253), messages sent, both delivery modes, and the flushes that wait for the writes
they cover. -/
structure ConnRun where
  inflight : Nat
  clean    : Nat
  top      : Option Nat
  hpsn     : Option Nat
  msgs     : Nat
  m0       : ModeRun
  m1       : ModeRun
  flushes  : List Packet
deriving DecidableEq, Repr

/-- An acknowledgement, or with a nonzero kind a negative one, that the package has sent to a peer (R249, R251, R369). -/
structure Reply where
  peerHi : Word
  peerLo : Word
  job    : BitVec 24
  mode   : Nat
  psn    : Nat
  kind   : Nat
  code   : Nat
  ecn    : Bool
deriving DecidableEq, Repr

/-- A handler event (Table 13.2): its kind, its words, the time at which it entered the queue, the first bytes of its payload, and for a
page request the agent whose PROBE asks. -/
structure Ev where
  kind  : Nat
  arg   : Word
  tag   : Word
  len   : Nat
  ptime : Nat
  fctx  : Nat
  data  : Nat
  asker : Option Nat
deriving DecidableEq, Repr

/-- A conversation packet that awaits its judgement or its effect (R367, R368): the agent it comes from, whether that agent goes on
(CSEND.A), the register it fills, its role register and its milestone, or the context and connection it arrived on. -/
structure ConvIn where
  agent : Option Nat
  later : Bool
  reg   : BitVec 6
  slot  : Nat
  ms    : Option Nat
  ctx   : Nat
  conn  : Nat
  pkt   : Packet
deriving DecidableEq, Repr

/-- A message accepted for a role and not yet placed (R357): its conversation, role and delivery word, its bytes. -/
structure Placement where
  conv  : Nat
  role  : Nat
  word  : Word
  len   : Nat
  data  : Nat
  /-- No message but the end of an abort: ERR of the inbox semaphore, once what stands before it has been placed (R372). -/
  err   : Bool := false
deriving DecidableEq, Repr

/-- A fired milestone's operation list: its context and number, the index of the next operation, and the operations that remain (R272). -/
structure Fired where
  ctx : Nat
  ms  : Nat
  idx : Nat
  ops : List Word
deriving DecidableEq, Repr

/-- What a performed store has asked of the unit that owns the word: each waits for its row of the operation table. -/
inductive Act where
  | drainreq (c : Nat) (v : Word)
  | tree (c t : Nat)
  | timeslot (c i : Nat)
  | collective (c i : Nat)
  | itinerary (i : Nat)
  | convOpen (c : Nat)
  | convKill (c : Nat)
  | convFree (c : Nat)
  | migrate (d : Nat)
  | routine (d num args : Nat)
  | ctxCreate (c : Nat)
  | ctxKill (c : Nat)
deriving DecidableEq, Repr

/-- A reduce contribution to one line that a home slice holds for its turn (R335): the source, the first element's global address, its
bytes, the format and the operation, and the copy record or the message it came from. A message may bring its contribution to a line in two
packets: the bytes that the whole contribution has there, and whether these are its last ones. -/
structure Held where
  src : Nat
  ea  : Nat
  n   : Nat
  v   : Nat
  fmt : Nat
  op  : Nat
  ref : Option (Nat × BitVec 32)
  msg : Option Nat
  total : Nat
  fin : Bool
  /-- A rollback has run while it was held: no record waits for it any more (R399). -/
  orphan : Bool := false
deriving DecidableEq, Repr

/-- A message that has been matched and is not yet wholly placed, or that has failed and may still receive packets (R251, R263 to R266):
its number here, its context, connection, mode, operation and the sender's number of it, the match entry's number (2^20 for an unmatched
message) and line, its length, the bytes that have arrived, the reduce contributions that a time-slot table holds, whether it failed, and
its match bits and first 4,096 bytes where it becomes an event, and whether a reduce landing of it has overflowed (R329). -/
structure RxMsg where
  id     : Nat
  ctx    : Nat
  conn   : Nat
  mode   : Nat
  /-- The lane of an ordered message (R251, R431). -/
  lane   : Option Nat
  op     : Nat
  msg    : Nat
  ent    : Nat
  line   : BitVec 512
  len    : Nat
  got    : Nat
  left   : Nat
  failed : Bool
  tag    : Word
  buf    : Nat
  ovf    : Bool
deriving DecidableEq, Repr

/-- A line of a time-slot table's range (R335): whose turn it is, since when a contribution has waited for it, the slots skipped in this
round, which lasts until a contribution to the next one comes (log entry 39), and the contributions held. -/
structure SlotLine where
  turn    : Nat
  since   : Nat
  skipped : List Nat
  held    : List Held
deriving DecidableEq, Repr

/-- An increment on its way to a milestone of a context (R270). Those of one lane, an ordered connection or a core's ordered messages to its own
package, are applied in their order (R251, R431). -/
structure Inc where
  ctx  : Nat
  ms   : Nat
  amt  : Word
  lane : Option Nat
  /-- The connection whose message it counts (R338). -/
  conn : Option Nat
deriving DecidableEq, Repr

/-- A message to the package itself that is on its way: its context, its core's lane and its mode (R431). -/
structure OwnMsg where
  ctx    : Nat
  lane   : Nat
  mode   : Nat
  op     : Nat
  len    : Nat
  data   : Nat
  tag    : Word
  origin : Origin
  ms     : Option Nat
deriving DecidableEq, Repr

/-- A request for host memory that the fetcher of a ring has outstanding (R259 to R261): a translation request or a read, its PASID, the pages that it
asks for or was translated with, and the time in ns at which it went; the entry whose payload it is for, none where it is for the entry itself; and
whether the ring has not stopped since. -/
structure HostRead where
  ring  : Nat
  pasid : Nat
  pages : List Nat
  since : Nat
  trans : Bool
  entry : Option RingEntry
  live  : Bool
deriving DecidableEq, Repr

/-- A loaded time-slot table (R334). -/
structure SlotTab where
  base  : Nat
  len   : Nat
  tmo   : Nat
  srcs  : List Nat
  lines : Tbl SlotLine
deriving DecidableEq, Repr

/-- A node of a combine tree in its round (R303, R304), by element: its own contribution, the one of the next round, the values that its
children forwarded (child × 4096 + element) and the elements it has forwarded; the timer's start, and when the first input for the next
round came; and what it forwards beside. -/
structure NodeRun where
  own     : Tbl (Option Nat)
  next    : Tbl (Option Nat)
  kids    : Tbl (Option Nat)
  sent    : Tbl (Option Nat)
  since   : Option Nat
  nextAt  : Option Nat
  missing : BitVec 256
  ovf     : Bool
deriving DecidableEq, Repr

/-- A combine tree of a context (R331, R332): loaded, the words of its entry as the load read them, the team it is bound to, its nodes by
logical core. -/
structure TreeRun where
  loaded : Bool
  entry  : List Nat
  team   : Option Nat
  nodes  : Tbl NodeRun
deriving DecidableEq, Repr

/-- What a context has been allotted of a package-wide table (R231, R359). -/
inductive AllotKind where
  | trigger | milestone | conversation | itinerary
deriving DecidableEq, Repr

/-- An allotment: the numbers from lo up to, not including, hi. -/
structure Allot where
  ctx  : Nat
  kind : AllotKind
  lo   : Nat
  hi   : Nat
deriving DecidableEq, Repr

/-- What stands in an agent's place in the schedule: the choices of order and of arrival that the spec leaves to the outside world. -/
inductive Turn where
  /-- An agent executes its next instruction. -/
  | scalar (a : Nat)
  /-- A core's engine takes the next record of a queue, or goes on with the one that it has started. -/
  | engine (p : Nat) (q : BitVec 2)
  /-- It begins at most n issues or steps of it. -/
  | some (p : Nat) (q : BitVec 2) (n : Nat)
  /-- It reads a word of the next record's slot, or of what the next issue reads, ahead of the others (R114, R137, R186, R326). -/
  | early (p : Nat) (q : BitVec 2) (key : Nat)
  /-- A word that the next issue writes lands ahead of the others; so a word of an arriving packet (R326). -/
  | ahead (p : Nat) (q : BitVec 2) (key : Nat)
  | aheadOf (subject : Nat) (i : Instr) (key : Nat)
  /-- The copy engine of a core is to make the issues of its record in another order, those of a list next. -/
  | order (p : Nat) (js : List Nat)
  /-- The i-th message to the package itself that is on its way is the next to arrive (R431). -/
  | own (i : Nat)
  /-- An event of the operation table happens to a subject. -/
  | event (subject : Nat) (i : Instr)
  /-- Package time passes, in ticks of 1/21 ns. -/
  | pass (n : Nat)
  /-- An agent's cache evicts the line with a tag (R309). -/
  | evict (a : Nat) (tag : BitVec 58)
  /-- A core's instruction cache takes the line of its pc, or drops its oldest line (Table 1.1). -/
  | codeFill (a : Nat)
  | codeDrop (a : Nat)
  /-- A core's first-level TLB, or with no core the die's memory-side TLB, loads the translation of a unit (R347). -/
  | tlbFill (d : Nat) (p : Option Nat) (c unit : Nat)
  /-- It drops its oldest translation, of the memory side's a page or a range entry. -/
  | tlbDrop (d : Nat) (p : Option Nat) (range : Bool)
  /-- Context 0 allots part of a package-wide table to a context; it is zeroed first (R231, R359). -/
  | allot (a : Allot)
  /-- Context 0 writes a word of a context's own copy of a window (R242, R250, R314, R359). -/
  | table (c off : Nat) (v : Word)
  /-- A soft error strikes a stored word or line: the positions in error. -/
  | upset (key : Nat) (pos : List Nat)
  /-- The service code of a core's die takes its next bring-up step with the core (R419). -/
  | bringUp (p : Nat)
  /-- A ring's fetcher issues the read of its entry at HEAD (R259). -/
  | hostRead (r : Nat)
  /-- The attestation report that the host has asked for is complete (R425). -/
  | report
deriving DecidableEq, Repr

/-- What an object's home keeps of it (R315, R316): the holds, exclusive or shared, by task, and the waiting requests in order of
arrival, by agent; the releases by agent that wait, each for the flushes (connection, mode, sequence number) that it sent, and whether a
network read has arrived since one of them began (R320). -/
structure ObjRun where
  holders : List (Nat × Bool)
  queue   : List (Nat × Bool)
  waits   : List (Nat × List (Nat × Nat × Nat))
  late    : Bool
deriving DecidableEq, Repr

/-- A completion flag that a collective is to write (R321, R338): its context, entry and status, the flushes (connection, mode, sequence
number) whose acknowledgement it waits for, and the messages that had been matched before it. -/
structure FlagWrite where
  ctx    : Nat
  entry  : Nat
  status : Nat
  sends  : List (Nat × Nat × Nat)
  msgs   : List Nat
deriving DecidableEq, Repr

/-- A loaded itinerary (R361): its number of roles, and by state the valid transition words. -/
structure Itin where
  roles : Nat
  rows  : List (List Nat)
deriving DecidableEq, Repr


/-- What the device keeps of a saved task beside its image, whose layout has no place for it (log entry 32): the task watchdog, the checkpoint and what
has happened since, and of each queue the counters of the slots accepted with STATUS.PH 1 and of the fences of a QFENCE, and the records that had
started, with what they read when they did (R129, R139, R147). -/
structure Kept where
  lcore  : Nat
  /-- Ticks that the task watchdog has counted (R402). -/
  wd     : Nat
  ckpt   : Option Checkpoint
  rolls  : Nat
  trigs  : List (BitVec 512)
  undone : List Undo
  rolling : Bool
  rerun  : List (BitVec 32 × Bool)
  ph     : List (List (BitVec 32))
  fences : List (List (BitVec 32))
  /-- The started records of each queue. -/
  flights : List (List Flight)
deriving DecidableEq, Repr

/-- A team (R285 to R298): where it came from, where it runs, how far its tasks have got. -/
structure Team where
  ctx    : BitVec 6
  die    : Nat
  /-- The dispatcher queue and the work item it came from. -/
  queue  : Nat
  item   : BitVec 512
  /-- The kernel descriptor (Table 15.4). -/
  kdesc  : BitVec 1024
  size   : Nat
  /-- Physical cores by logical number. -/
  cores  : List Nat
  /-- The placement mask: USE with every class that a fence has added (R292, R295). -/
  mask   : Word
  resen  : Bool
  /-- The caravan's number, if the team belongs to one, this team's index in it and its team count. -/
  caravan : Option Nat
  cidx   : Nat
  cteams : Nat
  /-- Logical cores that have executed DONE. -/
  done   : BitVec 256
  /-- Barrier arrivals of the round in progress, by logical core. -/
  arrived : Tbl (Option Barrier)
  ssnum  : Word
  /-- The time of a yield request that is pending (R393). -/
  yield  : Option Nat
  /-- The queue with PRE set whose head it was asked to yield to (R297). -/
  yieldTo : Option Nat
  /-- A class has been fenced: the team is to be placed again on any die (R295, R296). -/
  refit  : Bool
  /-- Suspended, waiting for a place, since a time (R295, R298). -/
  suspended : Option Nat
  /-- A save of the team is under way since a time (R403). -/
  saving : Option Nat
  /-- Save slots by logical core (R392), of tasks whose image is VALID once the team is off its cores. -/
  slots  : List (Nat × Nat)
  /-- What the device keeps beside the images of a saved team. -/
  kept   : List Kept
  ended  : Bool
deriving DecidableEq, Repr

/-- A fault that a unit has raised and that has not yet reached its context's halt controller (R386, Table 23.5). -/
structure FaultRec where
  ctx    : BitVec 6
  typ    : Nat
  phys   : Nat
  lcore  : Nat
  cause  : Nat
  detail : Nat
  pos    : Word
  stat   : Word
  val    : Word
  aux    : Word
  idx    : Word
  tstop  : Nat
  out    : Nat
deriving DecidableEq, Repr

/-- What the Crossroads die holds about a context beyond its table entry (R387 to R404). -/
structure CtxRun where
  /-- The time at which the halt line rose. -/
  traise : Nat
  first  : Option FaultRec
  /-- Stop records collected since the line rose, the units' own faults among them. -/
  records : List FaultRec
  reported : Bool
  /-- Cores whose tasks were being saved when the line rose. -/
  saving : List Nat
  /-- The kill is to follow or is under way, and its conversations have been ended (R404 step 1). -/
  killing : Bool
  told    : Bool
  /-- The admit gates are closed (R256, R323). -/
  closed : Bool
  /-- Resident cores by number (R236, R385). -/
  residents : List Nat
  /-- The event queue, oldest first (R243). -/
  events : List Ev
  /-- Drain requests in the order of their stores: the value, and the number of messages matched before it (R276). -/
  drains : List (Nat × Nat)
deriving DecidableEq, Repr

/-- What the dispatcher found when a work item became the head of its queue (R285): 0, or the status 2 or 4 of Table 15.3, and its copy of
the kernel descriptor. -/
structure HeadRead where
  status : Nat
  kdesc  : BitVec 1024
deriving DecidableEq, Repr

/-- A work item of the child pool (R300), in a reserved entry or not. -/
structure PoolItem where
  item     : BitVec 512
  reserved : Bool
  head     : Option HeadRead
deriving DecidableEq, Repr

/-- A role that a task has bound with CROLE (R356): the task (R316), its role register and its inbox. -/
structure Bind where
  role  : Nat
  task  : Nat
  reg   : Nat
  base  : Nat
  len   : Nat
  sem   : Nat
deriving DecidableEq, Repr

/-- A conversation beyond its object (R361, R363): the itinerary copy, by state the valid transition words, and the bound roles. -/
structure ConvRun where
  rows  : List (List Nat)
  binds : List Bind
deriving DecidableEq, Repr

/-- A die's firmware registers and service state (Tables 22.1, 24.3, 25.1). -/
structure Die where
  /-- The die has started (R418) and its firmware image was accepted (R424). -/
  started : Bool
  /-- The time in ns at which the die started, or would have with an accepted image (R418). -/
  startAt : Option Nat
  /-- Quad groups started (R418). -/
  groups  : BitVec 9
  /-- The stack has been retrained at 10.0 Gb/s (R418). -/
  hbmFull : Bool
  coresel : BitVec 9
  lcmidx  : BitVec 8
  /-- The logical core map: entry to 0x200 + die index where valid (Table 22.6). -/
  lcm     : Tbl (BitVec 10)
  ersel   : BitVec 8
  erent   : Tbl (BitVec 16)
  hbmlog  : Word
  scrubcfg : Word
  scrubstat : Word
  /-- The next line the scrubber reads; the lines that it has read and corrected and not yet written back, each with whether it has been
  written since (R416). -/
  scrubPos : Nat
  scrubbed : List (Nat × Bool)
  /-- Lines whose write-back was abandoned, to be read again. -/
  scrubAgain : List Nat
  /-- The firmware core runs a routine. -/
  busy    : Bool
  /-- The routine table of the verified image: number to entry address (R423). -/
  routines : Tbl (BitVec 16)
  release : Word
  hbtime  : Nat
  /-- The memory-side TLB (R347): page entries and range entries. -/
  tlb     : List TlbEnt
  ranges  : List RangeEnt
deriving DecidableEq, Repr

/-- Why a step stops with a fault. -/
inductive Fault where
  /-- Raised by step: the schedule names an agent that the package does not have. Safe: no unit of the package would act. -/
  | noAgent
  /-- Raised by step: the schedule gives as an event an instruction that only a fetch or a ring can bring. Safe. -/
  | notEvent
deriving DecidableEq, Repr

/-- Why the model refuses an instruction. -/
inductive Refusal where
  /-- Raised by exec for an instruction that has no meaning yet. Safe: nothing is claimed of it. -/
  | notModelled (mnemonic : String)
deriving DecidableEq, Repr

/-- The whole package. -/
structure State where
  /-- Time since the release of RESET_N in ticks of 1/21 ns: one clk is 10 ticks (R1). -/
  time   : Nat
  /-- The unit or thing that the turn in progress acts on. -/
  cur    : Nat
  /-- The queue whose engine the turn in progress runs. -/
  curq   : BitVec 2
  /-- The issues or steps that the engine of the turn in progress may begin, if it is limited. -/
  lim    : Option Nat
  /-- An arrival of which some words have landed ahead: its subject, the event, and the words with their values before (R326). -/
  arrival : Option (Nat × Instr × List (Nat × Nat))
  /-- The turns to come. -/
  sched  : List Turn
  scal   : Tbl Scalar
  core   : Tbl Core
  quad   : Tbl Quad
  die    : Tbl Die
  mem    : Memory
  /-- Storage errors: for a scratchpad word the bit positions in error (R77), for an HBM line the symbol positions (R413), by the key
  of the word or line. -/
  ecc    : Tbl (List Nat)
  /-- Holders and waiting requests of sync objects, by the home key of the object (R315). -/
  objs   : Tbl ObjRun
  team   : Tbl Team
  ctxs   : Tbl CtxRun
  faults : List FaultRec
  /-- Outgoing packets, oldest first. -/
  tx     : List Tx
  /-- RMA reads that wait for replies. -/
  reads  : List ReadReq
  /-- Connections, by context × 4,096 + connection. -/
  conns  : Tbl ConnRun
  /-- Acknowledgements sent, oldest first. -/
  out    : List Reply
  /-- Port statistics: packets refused, and packets that more than one entry claims (R249, R262). -/
  netBad : Nat
  netAmb : Nat
  /-- Fired operation lists, in the order of their firing. -/
  fired  : List Fired
  /-- Conversation packets that await judgement, in order of arrival at the home. -/
  convIn : List ConvIn
  /-- Messages accepted and not yet placed, in acceptance order. -/
  places : List Placement
  /-- Completion flags that collectives are to write, in the order of their firing (R321, R338). -/
  flags  : List FlagWrite
  /-- Requests that performed stores have made, oldest first. -/
  acts   : List Act
  /-- Combine trees, by context × 1,024 + tree. -/
  trees  : Tbl TreeRun
  /-- Time-slot tables, by context × 64 + table. -/
  slots  : Tbl SlotTab
  /-- Messages in arrival, in the order of their matching. -/
  rx     : List RxMsg
  /-- Messages matched so far. -/
  rxId   : Nat
  /-- Increments on their way to milestones, in the order in which they set out. -/
  incs   : List Inc
  /-- Messages to the package itself that wait for their turn, oldest first. -/
  own    : List OwnMsg
  allots : List Allot
  /-- Next place in the round-robin over contexts for a free thread (R240). -/
  turnCtx : Nat
  /-- The child pool: work items taken and not dispatched, in the order in which they entered their queues (R300). -/
  pool   : List PoolItem
  /-- Contexts of the work items in spill queues, in the order of spilling (R301). -/
  spills : List Nat
  /-- VT, and the queues that were runnable at the last dispatch (R289). -/
  vt     : Nat
  ran    : List Nat
  /-- Work items that are to complete, with their status (R282). -/
  ended  : List (BitVec 512 × Nat)
  /-- Teams formed so far: the next team's number. -/
  teamNo : Nat
  /-- A tile die has come up while the Crossroads die ran: work is taken from then on (R420). -/
  opened : Bool
  /-- Loaded itineraries (R361); an entry that is not loaded is left out. -/
  itins  : Tbl Itin
  convs  : Tbl ConvRun
  /-- The address translation cache of the host port: PASID and page (R260). -/
  atc    : List (Nat × Nat)
  /-- Requests for host memory outstanding, invalidations that wait for some of them, and the invalidations completed: PASID, first and last page
  (R260). -/
  hostReads : List HostRead
  inval  : List (Nat × Nat × Nat)
  invalDone : List (Nat × Nat × Nat)
  /-- Contexts whose kill a PASID teardown waits for (R261). -/
  pasidCtx : List Nat
  /-- MSI-X interrupts signalled, by ring (R259). -/
  msix   : List Nat
  /-- RESET_N is low, or the module holds itself in reset after a thermal trip (R427, R428). -/
  inReset : Bool
  tripped : Bool
  bootSrc : BitVec 2
  modId  : BitVec 4
  /-- Every tile die has been up and every stack retrained (R421). -/
  ready  : Bool
  /-- The samples of the input power, newest first: the time in ns and the watts (R426). -/
  samples : List (Nat × Nat)
  pwrAlert : Bool
  /-- Sensors that read 95 degrees or more (R427). -/
  hot    : List Nat
  palarm : Bool
  /-- Since when, in ns, every condition for the fall of PALARM has held. -/
  calm   : Option Nat
  /-- The digest of the public key and the lowest release number that have been fused since the part was made; none: those it was made with, which
  are Config's (R424). -/
  fuseKey : Option (BitVec 256)
  fuseMin : Option Word
  /-- Free values drawn so far. -/
  free   : Nat
  /-- The lead lease (R422). -/
  leadHeld   : Bool
  leadHolder : BitVec 4
  leadExp    : Word
deriving DecidableEq, Repr

/-! ### The state after reset -/

/-- No task: every register zero (R37's values stand from a task's first instruction on). -/
def Scalar.reset : Scalar :=
  { run := .idle, ctx := 0, pc := 0, regs := [], empty := 0, preds := 0, status := 0, tvec := 0, tpc := 0, tcause := 0, tval := 0,
    tstatus := 0, tscr := [], lstart0 := 0, lend0 := 0, lcount0 := 0, lstart1 := 0, lend1 := 0, lcount1 := 0, phnum := 0, roles := [],
    win := [], shctx := 0, fills := [], dc := [], wb := [], watch := none, verdicts := [], probes := 0, answer := none, fresh := false, start := 0,
    cycle0 := 0, wd := 0, stopAt := 0, event := [] }

/-- A semaphore at zero. -/
def Sem.reset : Sem := ⟨0, 0, false⟩

/-- A record before its first issue. -/
def Part.reset : Part := { blocks := 0, scales := [], vals := [], sig := 0, inputs := none, wild := false, order := [] }

/-- A queue without a ring. -/
def Queue.reset : Queue :=
  { base := 0, count := 0, head := 0, tail := 0, evt := false, flight := [], ph := [], fences := [], stopped := false,
    fenced := none, words := [], early := [], landed := [] }

/-- A core before its die starts: SPARE with an empty mask (Tables 22.2, 22.3). -/
def Core.reset : Core :=
  { vq := .reset, mq := .reset, cq := .reset, sems := [], vregs := [], vtags := [], vempty := 0, masks := [], mempty := 0, acc := [], btags := [],
    written := 0, spill := [], mcfg := 0, vstatus := 0, cqstat := 0, redstat := 0, nseen := false, joinNo := 0, task := none, owner := none,
    capmask := 0, svc := .spare, rej := false, zeroing := false, preClaim := false, boot := .off, gained := false, scanSeg := 0, scanRes := 0,
    scanFail := 0, scanSig := 0, katstat := 0, spcorr := 0, resident := none, ckpt := none, rolls := 0, trigs := [], undone := [], rolling := false,
    rerun := [], tlb := [], icache := [] }

/-- A node without inputs. -/
def NodeRun.reset : NodeRun := { own := [], next := [], kids := [], sent := [], since := none, nextAt := none, missing := 0, ovf := false }

/-- A tree that is not loaded. -/
def TreeRun.reset : TreeRun := { loaded := false, entry := [], team := none, nodes := [] }

/-- A line before its first contribution. -/
def SlotLine.reset : SlotLine := { turn := 0, since := 0, skipped := [], held := [] }

/-- An object that nobody holds or wants. -/
def ObjRun.reset : ObjRun := { holders := [], queue := [], waits := [], late := false }

/-- No table. -/
def SlotTab.reset : SlotTab := { base := 0, len := 0, tmo := 0, srcs := [], lines := [] }

/-- A free array; LEASE_RUN as Table 10.7 gives it. -/
def Quad.reset : Quad := { grant := none, run := 0, last := 3, lease := 16, lim := 16 }

/-- A die in reset; SCRUBCFG as Table 24.3 gives it. -/
def Die.reset : Die :=
  { started := false, startAt := none, groups := 0, hbmFull := false, coresel := 0, lcmidx := 0, lcm := [], ersel := 0, erent := [], hbmlog := 0,
    scrubcfg := 0x8000_0000_0000_01E0#64, scrubstat := 0, scrubPos := 0, scrubbed := [], scrubAgain := [], busy := false, routines := [],
    release := 0, hbtime := 0, tlb := [], ranges := [] }

/-- A delivery mode before its first packet. -/
def ModeRun.reset : ModeRun := { next := 0, rxNext := 0, seen := [], held := [] }

/-- A connection before its first packet. -/
def ConnRun.reset : ConnRun := { inflight := 0, clean := 0, top := none, hpsn := none, msgs := 0, m0 := .reset, m1 := .reset, flushes := [] }

/-- A conversation without an itinerary copy. -/
def ConvRun.reset : ConvRun := { rows := [], binds := [] }

/-- A context that never halted. -/
def CtxRun.reset : CtxRun :=
  { traise := 0, first := none, records := [], reported := false, saving := [], killing := false, told := false, closed := false, residents := [],
    events := [], drains := [] }

/-- The package in reset. -/
def State.reset : State :=
  { time := 0, cur := 8200, curq := 0, lim := none, arrival := none, sched := [], scal := [], core := [], quad := [], die := [], mem := [],
    ecc := [], objs := [], team := [], ctxs := [], faults := [], tx := [], reads := [], conns := [], out := [], netBad := 0, netAmb := 0,
    fired := [], convIn := [], places := [], flags := [], acts := [], trees := [], slots := [], rx := [], rxId := 0, incs := [], own := [],
    allots := [], turnCtx := 0, pool := [], spills := [], vt := 0, ran := [], ended := [], teamNo := 0, opened := false, itins := [], convs := [],
    atc := [], hostReads := [], inval := [], invalDone := [], pasidCtx := [], msix := [], inReset := true, tripped := false, bootSrc := 0,
    modId := 0, ready := false, samples := [], pwrAlert := false, hot := [], palarm := false, calm := none, fuseKey := none, fuseMin := none,
    free := 0, leadHeld := false, leadHolder := 15, leadExp := 0 }

end Sys2Proof.Machine
end

