-- ==== Sys2Proof/Machine/Mem.lean ====
section
/-! DEFINITION. Sparse tables, bytes, and the one key space in which every memory of the package has its place. -/
namespace Sys2Proof.Machine

/-- The entry of a key, or the table's default. -/
def tget {α : Type} : Tbl α → Nat → α → α
  | [], _, d => d
  | (k', v) :: t, k, d => if k' = k then v else tget t k d

/-- Remove a key. -/
def tdel {α : Type} : Tbl α → Nat → Tbl α
  | [], _ => []
  | (k', v) :: t, k => if k' = k then tdel t k else (k', v) :: tdel t k

/-- Insert or replace an entry, keys rising. -/
def tins {α : Type} : Tbl α → Nat → α → Tbl α
  | [], k, v => [(k, v)]
  | (k', v') :: t, k, v => if k < k' then (k, v) :: (k', v') :: t else if k = k' then (k, v) :: t else (k', v') :: tins t k v

/-- Give a key a value; the default's entry is left out. -/
def tput {α : Type} [DecidableEq α] (t : Tbl α) (k : Nat) (v d : α) : Tbl α := if v = d then tdel t k else tins t k v

/-- The byte at a key; an unlisted byte reads zero (log entry 4). -/
def memGet (m : Memory) (k : Nat) : Byte := tget m k 0#8

/-- Write one byte, keeping the canonical form. -/
def memPut (m : Memory) (k : Nat) (v : Byte) : Memory := tput m k v 0#8

/-- The canonical form from a lower bound on the keys: strictly rising, no zero listed. -/
def memWfFrom : Nat → Memory → Bool
  | _, [] => true
  | lo, (k, v) :: m => decide (lo ≤ k) && decide (v ≠ 0#8) && memWfFrom (k + 1) m

/-- Memory in canonical form: addresses strictly rising, no entry equal to what an unlisted address reads as. -/
def Memory.wf (m : Memory) : Bool := memWfFrom 0 m

/-- n bytes at a key, little-endian (R2). -/
def rdN (m : Memory) : Nat → Nat → Nat
  | _, 0 => 0
  | k, n + 1 => (memGet m k).toNat + 256 * rdN m (k + 1) n

/-- Write the n low bytes of a number at a key, little-endian (R2). -/
def wrN (m : Memory) : Nat → Nat → Nat → Memory
  | _, 0, _ => m
  | k, n + 1, v => wrN (memPut m k (BitVec.ofNat 8 (v % 256))) (k + 1) n (v / 256)

/-- Write those of the n low bytes whose mask bit is set, from bit i of the mask. -/
def wrMasked (m : Memory) : Nat → Nat → Nat → Nat → Memory
  | _, 0, _, _ => m
  | k, n + 1, v, mask =>
    wrMasked (if mask % 2 = 1 then memPut m k (BitVec.ofNat 8 (v % 256)) else m) (k + 1) n (v / 256) (mask / 2)

/-- Copy n bytes from a key to a key, lowest first, reading the memory as it was before. -/
def cpN (src m : Memory) : Nat → Nat → Nat → Memory
  | _, _, 0 => m
  | d, a, n + 1 => cpN src (memPut m d (memGet src a)) (d + 1) (a + 1) n

/-- Remove every listed byte from lo up to, not including, hi: those bytes read zero. -/
def zeroRange (m : Memory) (lo hi : Nat) : Memory := m.filter fun e => !(decide (lo ≤ e.1) && decide (e.1 < hi))

/-! ### Where each memory lies in the key space -/

/-- A byte of a Crossroads window that the package holds once, by its offset on owner 8. -/
def winKey (off : Nat) : Nat := 2 ^ 40 + off

/-- Physical byte a of the Crossroads die's 384 MiB of SRAM (R13, R341): the trigger table, the milestone counters, the conversation objects and
the itinerary store, each the memory of its window; the packet and reorder buffers; the threads' local stores, and the rest of the handler memory.
DESIGN CHOICE (log entry 101): the parts of Table 1.4 lie in the table's order. -/
def sramKey (a : Nat) : Nat :=
  if a < 0x400_0000 then winKey a
  else if a < 0x480_0000 then winKey (0x1000_0000 + (a - 0x400_0000))
  else if a < 0x580_0000 then winKey (0x2000_0000 + (a - 0x480_0000))
  else if a < 0x600_0000 then winKey (0x2100_0000 + (a - 0x580_0000))
  else if 0x1600_0000 ≤ a ∧ a < 0x1700_0000 then 2 ^ 43 + (a - 0x1600_0000)
  else 2 ^ 39 + a

/-- Physical byte a of a tile die's HBM stack, or of the Crossroads die's SRAM (die 8) (R341). -/
def physKey (d a : Nat) : Nat := if d < 8 then d * 2 ^ 36 + a else sramKey a

/-- The size of a die's physical space (R341). -/
def physSize (d : Nat) : Nat := if d < 8 then 2 ^ 36 else 0x1800_0000

/-- A byte of a Crossroads window that each context has its own of. -/
def cwinKey (c off : Nat) : Nat := 2 ^ 41 + c * 2 ^ 32 + off

/-- A byte of a core's scratchpad (R117). -/
def spKey (p a : Nat) : Nat := 2 ^ 42 + p * 2 ^ 22 + a

/-- A byte of a wayside thread's local store (R239). -/
def tlsKey (t a : Nat) : Nat := 2 ^ 43 + t * 2 ^ 14 + a

/-- A byte of a firmware core's local store (R375). -/
def fwKey (d a : Nat) : Nat := 2 ^ 44 + d * 2 ^ 16 + a

/-- A byte of the register part of a die's control space, from offset 0xFF_0000_0000_0000 on (R342). -/
def ctlKey (d off : Nat) : Nat := 2 ^ 45 + d * 2 ^ 32 + off

/-! ### Agents -/

/-- Compute core p is agent p. -/
def isCore (a : Nat) : Bool := decide (a < 2304)
/-- Wayside thread t is agent 4096 + t. -/
def isThread (a : Nat) : Bool := decide (4096 ≤ a) && decide (a < 5120)
/-- The firmware core of die d is agent 8192 + d. -/
def isFw (a : Nat) : Bool := decide (8192 ≤ a) && decide (a < 8201)

/-- The die an agent is on. -/
def agentDie (a : Nat) : Nat := if isCore a then a / 288 else if isFw a then a - 8192 else 8

/-- The size of an agent's scratchpad or local store (R117, R239, R375). -/
def lsSize (a : Nat) : Nat := if isCore a then 0x40_0000 else if isThread a then 0x4000 else 0x1_0000

/-- A byte of an agent's own scratchpad or local store. -/
def lsKey (a off : Nat) : Nat := if isCore a then spKey a off else if isThread a then tlsKey (a - 4096) off else fwKey (a - 8192) off

/-! ### Reading and writing parts of the state -/

/-- The scalar stream of an agent. -/
def State.sc (s : State) (a : Nat) : Scalar := tget s.scal a Scalar.reset
/-- Give an agent's scalar stream. -/
def State.putSc (s : State) (a : Nat) (x : Scalar) : State := { s with scal := tput s.scal a x Scalar.reset }
/-- A physical core. -/
def State.co (s : State) (p : Nat) : Core := tget s.core p Core.reset
/-- Give a physical core. -/
def State.putCo (s : State) (p : Nat) (x : Core) : State := { s with core := tput s.core p x Core.reset }
/-- A quad, by die × 72 + quad. -/
def State.qd (s : State) (q : Nat) : Quad := tget s.quad q Quad.reset
/-- Give a quad. -/
def State.putQd (s : State) (q : Nat) (x : Quad) : State := { s with quad := tput s.quad q x Quad.reset }
/-- A die. -/
def State.di (s : State) (d : Nat) : Die := tget s.die d Die.reset
/-- Give a die. -/
def State.putDi (s : State) (d : Nat) (x : Die) : State := { s with die := tput s.die d x Die.reset }
/-- A context's run-time state. -/
def State.cx (s : State) (c : Nat) : CtxRun := tget s.ctxs c CtxRun.reset
/-- Give a context's run-time state. -/
def State.putCx (s : State) (c : Nat) (x : CtxRun) : State := { s with ctxs := tput s.ctxs c x CtxRun.reset }
/-- A team, if there is one of that number. -/
def State.tm (s : State) (t : Nat) : Option Team := (s.team.find? fun e => e.1 == t).map (·.2)
/-- Give a team. -/
def State.putTm (s : State) (t : Nat) (x : Team) : State := { s with team := tins s.team t x }
/-- Replace the memory. -/
def State.putMem (s : State) (m : Memory) : State := { s with mem := m }

/-- Change the current agent's scalar stream. -/
def State.upSc (s : State) (f : Scalar → Scalar) : State := s.putSc s.cur (f (s.sc s.cur))
/-- Change a physical core. -/
def State.upCo (s : State) (p : Nat) (f : Core → Core) : State := s.putCo p (f (s.co p))
/-- Change a team, if it exists. -/
def State.upTm (s : State) (t : Nat) (f : Team → Team) : State :=
  match s.tm t with
  | some x => s.putTm t (f x)
  | none => s

/-- Package time in ns. DESIGN CHOICE (log entry 100): it counts on past 2^64 − 1; what reads it as a word takes it modulo 2^64. -/
def State.ns (s : State) : Nat := s.time / 21

/-- Draw a free value. -/
def State.draw (s : State) : Word × State := (Config.freeWord s.free, { s with free := s.free + 1 })

end Sys2Proof.Machine
end

