-- ==== Sys2Proof/Machine/Ops.lean ====
section
/-! DEFINITION. The shared operations of every scalar stream: registers and predicates, retirement with the end-of-body test, the taken
transfer, faults, trap entry and return, and the checks of Table 4.4. -/
namespace Sys2Proof.Machine

/-- What a meaning answers. -/
abbrev Out := Host.Outcome State Fault Refusal

/-! ### Registers (R33 to R35) -/

/-- s0 reads zero. -/
def Scalar.reg (x : Scalar) (r : BitVec 6) : Word := if r = 0#6 then 0#64 else tget x.regs r.toNat 0#64

/-- s0 discards writes. -/
def Scalar.setReg (x : Scalar) (r : BitVec 6) (v : Word) : Scalar := if r = 0#6 then x else { x with regs := tput x.regs r.toNat v 0#64 }

/-- p0 reads true. -/
def Scalar.pred (x : Scalar) (p : BitVec 5) : Bool := if p = 0#5 then true else x.preds.getLsbD p.toNat

/-- A word with one bit given. -/
def setBit {n : Nat} (w : BitVec n) (i : Nat) (b : Bool) : BitVec n :=
  if b then w ||| (1#n <<< i) else w &&& ~~~(1#n <<< i)

/-- p0 discards writes. -/
def Scalar.setPred (x : Scalar) (p : BitVec 5) (v : Bool) : Scalar := if p = 0#5 then x else { x with preds := setBit x.preds p.toNat v }

/-- Whether a register is empty; s0 never is. -/
def Scalar.isEmpty (x : Scalar) (r : BitVec 6) : Bool := if r = 0#6 then false else x.empty.getLsbD r.toNat

/-- Mark a register empty; s0 stays full. -/
def Scalar.markEmpty (x : Scalar) (r : BitVec 6) : Scalar := if r = 0#6 then x else { x with empty := setBit x.empty r.toNat true }

/-- A pending value arrives: the register is written and full. -/
def Scalar.fillReg (x : Scalar) (r : BitVec 6) (v : Word) : Scalar :=
  if r = 0#6 then x else { (x.setReg r v) with empty := setBit x.empty r.toNat false }

/-- The value of a source of the current agent. -/
def State.rd (s : State) (a : Src) : Word := (s.sc s.cur).reg a.r

/-- Write a register of the current agent. -/
def State.wr (s : State) (r : BitVec 6) (v : Word) : State := s.upSc fun x => x.setReg r v

/-- Write a predicate of the current agent. -/
def State.wrp (s : State) (p : BitVec 5) (v : Bool) : State := s.upSc fun x => x.setPred p v

/-- The pc of the current agent. -/
def State.pc (s : State) : Word := (s.sc s.cur).pc

/-! ### Dirty lines -/

/-- The address of a line. -/
def tagAddr (tag : BitVec 58) : Nat := tag.toNat * 64

/-- The write-back of a line's dirty bytes. -/
def wbOf (l : Line) : List WriteBack := if l.dirty = 0 then [] else [{ ctx := l.ctx, tag := l.tag, data := l.data, mask := l.dirty }]

/-- Whether a line address lies in a list of regions. -/
def inRegions (r : List (Nat × Nat)) (tag : BitVec 58) : Bool :=
  r.any fun e => decide (e.1 ≤ tagAddr tag) && decide (tagAddr tag < e.1 + e.2)

/-- Write back every dirty line that a test takes: the dirty bytes leave, the line stays valid. -/
def Scalar.flush (x : Scalar) (p : Line → Bool) : Scalar :=
  { x with
    dc := x.dc.map fun e => (e.1, e.2.map fun l => if p l then { l with dirty := 0 } else l),
    wb := x.wb ++ (x.dc.flatMap fun e => (e.2.filter p).flatMap wbOf) }

/-- Write back every dirty line, those in the regions first (R313). -/
def Scalar.flushAll (x : Scalar) (r : List (Nat × Nat)) : Scalar :=
  (x.flush fun l => inRegions r l.tag).flush fun _ => true

/-! ### STATUS (Table 6.2) -/

/-- TH, 1 while a trap handler runs. -/
def Scalar.th (x : Scalar) : Bool := x.status.getLsbD 7
/-- PH, the buffer half in use. -/
def Scalar.ph (x : Scalar) : Bool := x.status.getLsbD 6
/-- LORD, 1 when lp1 was activated more recently. -/
def Scalar.lord (x : Scalar) : Bool := x.status.getLsbD 2
/-- LA1. -/
def Scalar.la1 (x : Scalar) : Bool := x.status.getLsbD 1
/-- LA0. -/
def Scalar.la0 (x : Scalar) : Bool := x.status.getLsbD 0

/-! ### Hardware loops (R67, R72) -/

/-- One loop set in the end-of-body test: whether it returns, and the scalar stream after it. -/
def loopEnd0 (x : Scalar) : Option Word × Scalar :=
  if x.la0 && x.pc == x.lend0 then
    if 1 < x.lcount0.toNat then (some x.lstart0, { x with lcount0 := x.lcount0 - 1 })
    else (none, { x with lcount0 := 0, status := setBit x.status 0 false })
  else (none, x)

/-- The same for loop set 1. -/
def loopEnd1 (x : Scalar) : Option Word × Scalar :=
  if x.la1 && x.pc == x.lend1 then
    if 1 < x.lcount1.toNat then (some x.lstart1, { x with lcount1 := x.lcount1 - 1 })
    else (none, { x with lcount1 := 0, status := setBit x.status 1 false })
  else (none, x)

/-- The end-of-body test (R72): the most recently activated set first; the other only if the first falls through. -/
def endOfBody (x : Scalar) : Option Word × Scalar :=
  if x.lord then
    match loopEnd1 x with
    | (some n, y) => (some n, y)
    | (none, y) => loopEnd0 y
  else
    match loopEnd0 x with
    | (some n, y) => (some n, y)
    | (none, y) => loopEnd1 y

/-- An instruction that is no taken transfer retires, and the pc goes to a given next address unless a loop returns. -/
def Scalar.retireTo (x : Scalar) (next : Word) : Scalar :=
  let r := endOfBody x
  { r.2 with pc := r.1.getD next, run := .running }

/-- The instruction at the pc retires. -/
def Scalar.retire (x : Scalar) : Scalar := x.retireTo (x.pc + 8)

/-- Bits [2:0] read zero and ignore writes (R84). -/
def align8 (v : Word) : Word := v &&& 0xFFFF_FFFF_FFFF_FFF8

/-- Retire on the current agent. -/
def State.retire (s : State) : State := s.upSc Scalar.retire

/-- Whether an address lies in a loop's body. -/
def inBody (lo hi a : Word) : Bool := decide (lo.toNat ≤ a.toNat) && decide (a.toNat ≤ hi.toNat)

/-- A taken transfer from the pc (R67): each active loop whose body it leaves becomes inactive. -/
def Scalar.jump (x : Scalar) (target : Word) : Scalar :=
  let d0 := x.la0 && inBody x.lstart0 x.lend0 x.pc && !inBody x.lstart0 x.lend0 target
  let d1 := x.la1 && inBody x.lstart1 x.lend1 x.pc && !inBody x.lstart1 x.lend1 target
  let st := if d0 then setBit x.status 0 false else x.status
  { x with status := if d1 then setBit st 1 false else st, pc := target, run := .running }

/-! ### Faults and suspension -/

/-- The team of a core, if it runs a task. -/
def State.teamOf (s : State) (p : Nat) : Option Team := ((s.co p).task).bind fun r => s.tm r.team

/-- The logical number of a core in its team. -/
def State.lcoreOf (s : State) (p : Nat) : Nat := match (s.co p).task with | some r => r.lcore | none => 0

/-- A context fault that the current agent's scalar stream raises (R386): the stream stops, and the fault is on its way to the halt
controller. -/
def State.scalarFault (s : State) (cause detail : Nat) (val : Word) : State :=
  let x := s.sc s.cur
  let f : FaultRec :=
    { ctx := x.ctx, typ := if isCore s.cur then 0 else 4, phys := if isCore s.cur then s.cur else s.cur - 4096,
      lcore := if isCore s.cur then s.lcoreOf s.cur else 0, cause := cause, detail := detail, pos := x.pc, stat := x.status, val := val,
      aux := x.tcause, idx := x.tpc, tstop := s.ns, out := 0 }
  { (s.upSc fun y => { y with run := .halted }) with faults := s.faults ++ [f] }

/-- Bits [hi:lo] of a number. -/
def bitsOf (w hi lo : Nat) : Nat := (w / 2 ^ lo) % 2 ^ (hi + 1 - lo)

/-! ### The error code of a line (R413, R414) -/

/-- The HBM die of a key, if it is a byte of a stack. -/
def hbmDie (k : Nat) : Option Nat := if k < 2 ^ 39 then some (k / 2 ^ 36) else none

/-- Marked erasures of a line's rank (Table 24.3). -/
def erasures (e : BitVec 16) : List Nat :=
  (if e.getLsbD 15 then [(e.extractLsb' 8 7).toNat] else []) ++ (if e.getLsbD 7 then [(e.extractLsb' 0 7).toNat] else [])

/-- The rank of a physical line address: the spec does not give the map. -/
def rankOf (line : Nat) : Nat := (Config.lineRank line).toNat

/-- Whether a line's errors are beyond the code: 2t + e > 8 (R413). -/
def lineUncorrectable (s : State) (k : Nat) : Bool :=
  match hbmDie k with
  | none => false
  | some d =>
    let pos := tget s.ecc (k - k % 64) []
    let es := erasures (tget (s.di d).erent (rankOf ((k % 2 ^ 36) / 64)) 0)
    decide (pos ≠ []) && decide (8 < 2 * (pos.filter fun p => !es.contains p).length + es.length)

/-- A saturating count in a field. -/
def satInc (v bits : Nat) : Nat := if v + 1 < 2 ^ bits then v + 1 else 2 ^ bits - 1

/-- An event for HBMLOG and SCRUBSTAT (R414, Table 24.3): the first event stays, but an uncorrectable one replaces a correctable one. -/
def logHbm (s : State) (d line : Nat) (ue : Bool) : State :=
  let x := s.di d
  let sym := (tget s.ecc (physKey d (64 * line)) []).foldl Nat.min 127
  let ev : Word := BitVec.ofNat 64 (2 ^ 63 + (if ue then 2 ^ 62 else 0) + rankOf line * 2 ^ 52 + (if ue then 0 else sym % 128 * 2 ^ 45) + line)
  let keep := x.hbmlog.getLsbD 63 && (!ue || x.hbmlog.getLsbD 62)
  let st := x.scrubstat.toNat
  let corr := bitsOf st 63 32
  let unc := bitsOf st 31 16
  let st' := if ue then corr * 2 ^ 32 + satInc unc 16 * 2 ^ 16 + st % 2 ^ 16 else satInc corr 32 * 2 ^ 32 + st % 2 ^ 32
  s.putDi d { x with hbmlog := if keep then x.hbmlog else ev, scrubstat := BitVec.ofNat 64 st' }

/-- A read of a line at its home: its errors are logged (R414). -/
def noteRead (s : State) (k : Nat) : State :=
  match hbmDie k with
  | none => s
  | some d =>
    if tget s.ecc (k - k % 64) [] = [] then s else logHbm s d ((k % 2 ^ 36) / 64) (lineUncorrectable s k)

/-- Raise a fault at a die's memory side (R390): TYPE 5, the address in VAL, the issuing core or 0xFFF in POS. -/
def State.memFault (s : State) (c die core cause detail : Nat) (val : Word) : State :=
  let f : FaultRec :=
    { ctx := BitVec.ofNat 6 c, typ := 5, phys := die, lcore := 0, cause := cause, detail := detail, pos := BitVec.ofNat 64 core,
      stat := 0, val := val, aux := 0, idx := 0, tstop := s.ns, out := 0 }
  { s with faults := s.faults ++ [f] }

/-! ### Watched lines and sync objects -/

/-- Every thread that watches the line of a key sees a write (R96). -/
def Scalar.watched (x : Scalar) (line : Nat) : Scalar :=
  let x := match x.watch with
    | some (l, _) => if l = line then { x with watch := some (l, true) } else x
    | none => x
  match x.run with
  | .waiting (.waita pd l _) => if l = line then { x with run := .waiting (.waita pd l true) } else x
  | _ => x

/-- A scrub write-back of a line that is written meanwhile is to be abandoned (R416). -/
def Die.written (x : Die) (line : Nat) : Die :=
  { x with scrubbed := x.scrubbed.map fun e => if e.1 = line then (e.1, true) else e }

/-- Mark the watchers of a line, and its scrub write-back. -/
def noteWrite (s : State) (key : Nat) : State :=
  { s with
    scal := s.scal.map fun e => (e.1, e.2.watched (key - key % 64)),
    die := s.die.map fun e => (e.1, e.2.written (key - key % 64)) }

/-- A stream watches, or waits on, a line that lies in part in a range of keys: it sees a write. -/
def Scalar.watchedIn (x : Scalar) (lo hi : Nat) : Scalar :=
  let inside (l : Nat) : Bool := decide (lo < l + 64) && decide (l < hi)
  let x := { x with watch := x.watch.map fun (w : Nat × Bool) => (w.1, w.2 || inside w.1) }
  match x.run with
  | .waiting (.waita pd l hit) => { x with run := .waiting (.waita pd l (hit || inside l)) }
  | _ => x

/-- Mark the watchers of the lines from key lo up to hi, and their scrub write-backs. -/
def noteRange (s : State) (lo hi : Nat) : State :=
  { s with
    die := s.die.map fun e => (e.1, { e.2 with scrubbed := e.2.scrubbed.map fun l => if lo < l.1 + 64 ∧ l.1 < hi then (l.1, true) else l }),
    scal := s.scal.map fun e => (e.1, e.2.watchedIn lo hi) }

/-- A home zeroes the bytes from key lo up to hi. -/
def State.zeroKeys (s : State) (lo hi : Nat) : State := { noteRange s lo hi with mem := zeroRange s.mem lo hi }

/-- An object's run-time state at its home key. -/
def objAt (s : State) (key : Nat) : ObjRun := tget s.objs key ObjRun.reset

/-- Word 0 of an object, which summarises its holders and requests (Table 17.3). -/
def objWord (o : ObjRun) (remote : Bool) : Nat :=
  (if o.holders.any (·.2) then 2 ^ 63 else 0) + (if remote then 2 ^ 62 else 0) + min o.queue.length 65535 * 2 ^ 32 +
  (o.holders.filter fun h => !h.2).length

/-- Write a 64-bit word at its home: its watchers see it. -/
def State.put64 (s : State) (key v : Nat) : State := { noteWrite s key with mem := wrN s.mem key 8 v }

/-- A home changes a word of a sync object for a context, at an address: it reads the line, corrects it and writes it back; of an uncorrectable
line it discards the write, which counts as a consumption (R414). -/
def homeWord (s : State) (c : Nat) (ea : Word) (key v : Nat) : State :=
  let s := noteRead s key
  if lineUncorrectable s key then s.memFault c ((hbmDie key).getD 8) 0xFFF 0x22 1 ea
  else { s.put64 key v with ecc := tput s.ecc (key - key % 64) [] [] }

/-- Give an object's run-time state for a context that reaches it at an address; word 0 follows it. -/
def putObj (s : State) (c : Nat) (ea : Word) (key : Nat) (o : ObjRun) (remote : Bool) : State :=
  homeWord { s with objs := tput s.objs key o ObjRun.reset } c ea key (objWord o remote)

/-- Do something as an agent. -/
def asAgent (s : State) (a : Nat) (f : State → State) : State := { f { s with cur := a } with cur := s.cur }

/-- An agent's release waits at no object any more. -/
def dropWaits (s : State) (a : Nat) : State :=
  { s with objs := s.objs.map fun e =>
      let ws := e.2.waits.filter fun w => w.1 != a
      (e.1, { e.2 with waits := ws, late := e.2.late && !ws.isEmpty }) }

/-- An agent's request for an object leaves its queue (R316). -/
def leaveQueues (s : State) (a : Nat) (obj : Word) : State :=
  s.objs.foldl (fun s e =>
    if e.2.queue.any fun r => r.1 == a then
      putObj s (s.sc a).ctx.toNat obj e.1 { e.2 with queue := e.2.queue.filter fun r => r.1 != a } ((rdN s.mem e.1 8 / 2 ^ 62) % 2 == 1)
    else s) s

/-- A core's arrival at a barrier is withdrawn. -/
def leaveBarrier (s : State) (p : Nat) : State :=
  match (s.co p).task with
  | some r => s.upTm r.team fun t => { t with arrived := tdel t.arrived r.lcore }
  | none => s

/-- An agent's page request has no asker any more (R88): neither its queued event nor the handler that serves it answers a PROBE. -/
def leavePages (s : State) (a : Nat) : State :=
  let s := s.putCx 0 { s.cx 0 with events := (s.cx 0).events.map fun e => if e.asker = some a then { e with asker := none } else e }
  { s with scal := s.scal.map fun e => (e.1, if isThread e.1 ∧ e.2.event[8]? = some (BitVec.ofNat 64 a) then { e.2 with event := e.2.event.take 8 } else e.2) }

/-- What a blocking instruction has set up elsewhere is withdrawn (R88, R316). -/
def withdraw (s : State) (a : Nat) : State :=
  let s := dropWaits s a
  match (s.sc a).run with
  | .waiting (.acq obj _) => leaveQueues s a obj
  | .waiting (.barrier _) => leaveBarrier s a
  | .waiting (.page _ _) => leavePages s a
  | .waiting .verdict =>
    let s := { s with convIn := s.convIn.filter fun k => !(k.agent == some a && !k.later) }
    s.putSc a { s.sc a with verdicts := (s.sc a).verdicts.filter (·.later) }
  | _ => s

/-- Word 0 of the routine request block of a die (Table 25.5), and where it lies. -/
def routineKey (d : Nat) : Nat := ctlKey d 0x2000

/-- A firmware routine ends at once with a cause (R375): BUSY and DONE clear, FAIL set, RESULT the cause; what it waits for is withdrawn and
its dirty lines are on their way. -/
def State.routineFail (s : State) (cause : Nat) : State :=
  let d := s.cur - 8192
  let s := withdraw s s.cur
  let num := rdN s.mem (routineKey d) 1
  let s := s.put64 (routineKey d) (2 ^ 60 + (cause % 2 ^ 16) * 2 ^ 16 + num)
  let s := s.putDi d { s.di d with busy := false }
  s.upSc fun x => { x.flushAll [] with run := .idle, fills := [] }

/-- A fault of the current agent: a context fault in a task or handler, the end of the routine on a firmware core (R375). -/
def State.ctxFault (s : State) (cause detail : Nat) (val : Word) : State :=
  if isFw s.cur then s.routineFail cause else s.scalarFault cause detail val

/-- A scalar stream stops at an instruction boundary: a blocking instruction is withdrawn (R88), and a PAUSE counts as retired (R95). -/
def Scalar.stop (x : Scalar) (r : Run) : Scalar :=
  match x.run with
  | .waiting (.pause _) => { x.retire with run := r }
  | .running => { x with run := r }
  | .waiting _ => { x with run := r }
  | _ => x

/-- A core's quad. -/
def quadOf (p : Nat) : Nat := p / 4

/-- A core holds the grant of its quad's array. -/
def holdsGrant (s : State) (p : Nat) : Bool := (s.qd (quadOf p)).grant == some (p % 4)

/-- The grant of a core ends. -/
def endGrant (s : State) (p : Nat) : State :=
  if holdsGrant s p then s.putQd (quadOf p) { s.qd (quadOf p) with grant := none, run := 0 } else s

/-- An issue or step of the queue's record has begun and has not ended: some of its words have landed, or some of its K-blocks are made. -/
def Queue.inStep (v : Queue) : Bool := v.landed != [] || v.flight.any fun f => f.part.blocks != 0

/-- The grant of a core ends because its engine stops: at the boundary of its step (R172, R176). -/
def stopGrant (s : State) (p : Nat) : State := if (s.co p).mq.inStep then s else endGrant s p

/-- The engines of a core stop, or run again. -/
def Core.stopEngines (x : Core) (on : Bool) : Core :=
  { x with vq := { x.vq with stopped := on }, mq := { x.mq with stopped := on }, cq := { x.cq with stopped := on } }

/-- A core stops: its scalar stream, its engines, its grant (R176, R388, R395). -/
def State.stopCore (s : State) (r : Run) (p : Nat) : State :=
  let s := withdraw s p
  stopGrant ((s.putSc p { (s.sc p).stop r with stopAt := s.time }).upCo p fun x => x.stopEngines true) p

/-- Stop a list of cores. -/
def State.stopCores (s : State) (r : Run) (ps : List Nat) : State := ps.foldl (fun s p => s.stopCore r p) s

/-- The teams that are suspended, moved and resumed with a team: its caravan's, or it alone (R293). -/
def teamGroup (s : State) (t : Nat) : List Nat :=
  match s.tm t with
  | none => []
  | some x =>
    match x.caravan with
    | none => [t]
    | some c => (s.team.filter fun e => e.2.caravan == some c && !e.2.ended).map (·.1)

/-- One team is suspended because a class is fenced: every task stops, the class joins the placement mask, and the save that follows is
under way. -/
def State.suspendOne (s : State) (t cls : Nat) : State :=
  match s.tm t with
  | none => s
  | some x =>
    (s.stopCores .suspended x.cores).upTm t fun y => { y with mask := setBit y.mask cls true, refit := true, saving := some s.ns }

/-- The dispatcher suspends a team, and its whole caravan, because a class is fenced (R293, R295, R296). -/
def State.suspendTeam (s : State) (t cls : Nat) : State := (teamGroup s t).foldl (fun s t => s.suspendOne t cls) s

/-! ### Traps (R20, R21, R85, R86) -/

/-- Trap entry (R20, R85): TPC, TCAUSE, TVAL, TSTATUS, the live loop bits clear, TH set, the pc at TVEC. -/
def Scalar.trapEntry (x : Scalar) (code detail : Nat) (tval : Word) : Scalar :=
  { x with
    tpc := x.pc, tcause := BitVec.ofNat 64 (detail * 256 + code), tval := tval, tstatus := x.status,
    status := setBit (setBit (setBit x.status 0 false) 1 false) 7 true, pc := x.tvec, run := .running }

/-- STATUS after ERET: TH, LORD, LA1 and LA0 from TSTATUS; PH stays (R86). -/
def Scalar.eretStatus (x : Scalar) : Word := (x.status &&& 0x40#64) ||| (x.tstatus &&& 0x87#64)

/-- A precise trap of the current agent: with TH set it is DOUBLE_TRAP, with TVEC zero UNHANDLED_TRAP, else trap entry. FENCED_CAP is the
one that R295 excepts: the whole team is suspended, and with TVEC zero the task is to continue as though ERET had executed. -/
def State.trap (s : State) (code detail : Nat) (tval : Word) : State :=
  let x := s.sc s.cur
  if x.th then s.ctxFault 0x2A (detail * 256 + code) 0
  else if code = 2 && isCore s.cur then
    let y := x.trapEntry code detail tval
    let y := if x.tvec = 0#64 then { y with pc := y.tpc, status := y.eretStatus } else y
    let s := s.putSc s.cur y
    match (s.co s.cur).task with
    | some r => s.suspendTeam r.team tval.toNat
    | none => s
  else if x.tvec = 0#64 then s.ctxFault 0x2B (detail * 256 + code) 0
  else s.putSc s.cur (x.trapEntry code detail tval)

/-- The return from a trap (R21): STATUS from TSTATUS, the pc at TPC. ERET retires, so the end-of-body test is made at its own address. -/
def Scalar.eret (x : Scalar) : Scalar := ({ x with status := x.eretStatus }).retireTo x.tpc

/-! ### The checks of Table 4.4 -/

/-- The instruction word of an instruction, for TVAL. -/
def wordOf (i : Instr) : Word := (encodeScalar i).getD 0#64

/-- ILLEGAL_OP with its DETAIL, TVAL the instruction word. -/
def State.illegal (s : State) (i : Instr) (detail : Nat) : State := s.trap 1 detail (wordOf i)

/-- Whether the guard holds (R32). -/
def State.guardOk (s : State) (g : Guard) : Bool := (s.sc s.cur).pred g.p != g.neg

/-- Whether the current agent may run a class: a core by its mask; threads and firmware cores have no mask (log entry 10). -/
def State.hasClass (s : State) (c : Nat) : Bool := if isCore s.cur then (s.co s.cur).capmask.getLsbD c else true

/-- What step 5 finds of one register. -/
inductive Ready where
  | full
  | stall
  | empty (r : BitVec 6)
deriving DecidableEq, Repr

/-- Step 5 for the sources (R34). DESIGN CHOICE (log entry 103): of several empty ones the first in field order decides. -/
def srcsReady (x : Scalar) : List Src → Ready
  | [] => .full
  | a :: as => if x.isEmpty a.r then (if a.trap then .empty a.r else .stall) else srcsReady x as

/-- Steps 3 to 6 of Table 4.4: the class, the guard, the sources, the destination, then the effect. A stall changes nothing. -/
def issue (cls : Nat) (g : Guard) (srcs : List Src) (dst : Option (BitVec 6)) (s : State) (body : State → State) : Out :=
  .next <|
    if !s.hasClass cls then s.trap 2 0 (BitVec.ofNat 64 cls)
    else if !s.guardOk g then s.retire
    else
      match srcsReady (s.sc s.cur) srcs with
      | .empty r => s.trap 6 0 (r.setWidth 64)
      | .stall => s
      | .full => if dst.any (s.sc s.cur).isEmpty then s else body s

/-- An instruction that only compute cores run (R41): elsewhere ILLEGAL_OP with DETAIL 2. -/
def issueCore (i : Instr) (cls : Nat) (g : Guard) (srcs : List Src) (dst : Option (BitVec 6)) (s : State) (body : State → State) : Out :=
  if isCore s.cur then issue cls g srcs dst s body else .next (s.illegal i 2)

/-- An instruction that only wayside threads and firmware cores run (R41, R375). -/
def issueThread (i : Instr) (cls : Nat) (g : Guard) (srcs : List Src) (dst : Option (BitVec 6)) (s : State) (body : State → State) : Out :=
  if isCore s.cur then .next (s.illegal i 2) else issue cls g srcs dst s body

/-- A privileged instruction (R41): legal only in context 0, else ILLEGAL_OP with DETAIL 3, before the guard. -/
def issuePriv (i : Instr) (cls : Nat) (g : Guard) (srcs : List Src) (dst : Option (BitVec 6)) (s : State) (body : State → State) : Out :=
  if (s.sc s.cur).ctx = 0#6 then issue cls g srcs dst s body else .next (s.illegal i 3)

/-- Write a result and retire. -/
def State.result (s : State) (d : BitVec 6) (v : Word) : State := (s.wr d v).retire

/-- Write a predicate result and retire. -/
def State.resultP (s : State) (p : BitVec 5) (v : Bool) : State := (s.wrp p v).retire

end Sys2Proof.Machine
end

