-- ==== Sys2Proof/Machine/Operands.lean ====
section
/-! DEFINITION. The operand forms of the scalar instructions: immediates, effective addresses, widths, and the values of the integer
operations. -/
namespace Sys2Proof.Machine

/-- sext(word[27:0], 28) (R53). -/
def imm28 (i : BitVec 28) : Word := i.signExtend 64
/-- sext(word[21:0], 22), the byte offset of X format. -/
def imm22 (i : BitVec 22) : Word := i.signExtend 64

/-- The byte distance of a B-format offset (R65). -/
def immWords (i : BitVec 28) : Word := imm28 i <<< 3

/-- A number clamped to a range. -/
def clampInt (lo hi x : Int) : Int := if x < lo then lo else if hi < x then hi else x

/-- A signed sum or difference clamped to 64 bits (R55). -/
def satS (x : Int) : Word := BitVec.ofInt 64 (clampInt (-(2 ^ 63)) (2 ^ 63 - 1) x)
/-- An unsigned sum or difference clamped to 64 bits (R55). -/
def satU (x : Int) : Word := BitVec.ofInt 64 (clampInt 0 (2 ^ 64 - 1) x)

/-- Leading zeros (R57). -/
def clz64 (a : Word) : Word := if a = 0#64 then 64#64 else BitVec.ofNat 64 (63 - a.toNat.log2)
/-- Trailing zeros among the bits from i on, fuel n. -/
def ctzFrom (a : Word) : Nat → Nat → Nat
  | _, 0 => 64
  | i, n + 1 => if a.getLsbD i then i else ctzFrom a (i + 1) n
/-- Trailing zeros (R57). -/
def ctz64 (a : Word) : Word := BitVec.ofNat 64 (ctzFrom a 0 64)
/-- One bits below i. -/
def popBelow (a : Word) : Nat → Nat
  | 0 => 0
  | i + 1 => (if a.getLsbD i then 1 else 0) + popBelow a i
/-- The number of one bits (R57). -/
def popc64 (a : Word) : Word := BitVec.ofNat 64 (popBelow a 64)
/-- Bit i of the result is a[63 - i] (R57). -/
def brev64 (a : Word) : Word := a.reverse
/-- Byte i of the result is byte 7 - i of a (R57). -/
def bswapFrom (a : Word) : Nat → Word
  | 0 => 0#64
  | n + 1 => (bswapFrom a n) ||| (((a >>> (8 * n)) &&& 0xFF#64) <<< (56 - 8 * n))
/-- BSWAP (R57). -/
def bswap64 (a : Word) : Word := bswapFrom a 8

/-- A quotient truncated toward zero; the one overflow wraps to -2^63 (R58). -/
def divS (a b : Word) : Word := BitVec.ofInt 64 (a.toInt.tdiv b.toInt)
/-- The remainder with the sign of the dividend (R58). -/
def remS (a b : Word) : Word := BitVec.ofInt 64 (a.toInt.tmod b.toInt)

/-- 2^n - 1 in 64 bits. -/
def maskN (n : Nat) : Word := BitVec.ofNat 64 (2 ^ n - 1)
/-- The field of len bits at pos (R60). -/
def fieldOf (a : Word) (pos len : Nat) : Word := (a >>> pos) &&& maskN len
/-- The low n bits sign-extended. -/
def sextN (a : Word) (n : Nat) : Word :=
  if a.getLsbD (n - 1) then (a &&& maskN n) ||| ~~~(maskN n) else a &&& maskN n
/-- INS (R60). -/
def insField (d a : Word) (pos len : Nat) : Word := (d &&& ~~~(maskN len <<< pos)) ||| ((a <<< pos) &&& (maskN len <<< pos))
/-- The width of SXT and ZXT by its code (R61). -/
def extWidth (w : BitVec 2) : Nat := if w = 0#2 then 8 else if w = 1#2 then 16 else 32

/-- A loaded value of n bytes, extended as Table 5.7 states. -/
def extendLoad (v n : Nat) (sx : Bool) : Word := if sx then sextN (BitVec.ofNat 64 v) (8 * n) else BitVec.ofNat 64 v

/-- The effective address (R74). -/
def ea28 (a : Word) (i : BitVec 28) : Word := a + imm28 i
/-- The effective address of X format. -/
def ea22 (a : Word) (i : BitVec 22) : Word := a + imm22 i

/-- Whether n bytes at an address lie in the agent's scratchpad or local store (R75, R239, R375). -/
def inLocal (s : State) (ea : Word) (n : Nat) : Bool := decide (ea.toNat + n ≤ lsSize s.cur)

end Sys2Proof.Machine
end

