-- ==== Sys2Proof/Machine/Translate.lean ====
section
/-! DEFINITION. The global address, the walk of the range table, the TLBs and the rights of an access (R340 to R351). -/
namespace Sys2Proof.Machine

/-- UNMAPPED_ACCESS (Table 23.2). -/
def causeUnmapped : Nat := 0x20
/-- PERMISSION (Table 23.2). -/
def causePermission : Nat := 0x21

/-- Word i of the node or table at a physical address. -/
def physWord (s : State) (d a i : Nat) : Nat := rdN s.mem (physKey d (a + 8 * i)) 8

/-- Words from i on, fuel n, are zero. -/
def wordsZero (s : State) (d a : Nat) : Nat → Nat → Bool
  | _, 0 => true
  | i, n + 1 => physWord s d a i == 0 && wordsZero s d a (i + 1) n

/-- KEY k of an internal node. -/
def nodeKey (s : State) (d a k : Nat) : Nat := physWord s d a (4 + 2 * k)
/-- CHILD k of an internal node. -/
def nodeChild (s : State) (d a k : Nat) : Nat := physWord s d a (5 + 2 * k)

/-- The children of an internal node from k on obey Table 19.4, keys strictly ascending. -/
def childrenOk (s : State) (d a : Nat) : Nat → Nat → Bool
  | _, 0 => true
  | k, n + 1 =>
    decide (nodeKey s d a k < 2 ^ 56) && nodeKey s d a k % 65536 == 0 && decide (nodeChild s d a k < 2 ^ 56) && nodeChild s d a k % 512 == 0 &&
    (k == 0 || decide (nodeKey s d a (k - 1) < nodeKey s d a k)) && childrenOk s d a (k + 1) n

/-- Word j of range entry k of a leaf. -/
def entWord (s : State) (d a k j : Nat) : Nat := physWord s d a (4 + 4 * k + j)

/-- A valid range entry obeys Table 19.5. -/
def entOk (s : State) (d a k : Nat) : Bool :=
  let w0 := entWord s d a k 0
  let w1 := entWord s d a k 1
  let w2 := entWord s d a k 2
  decide (bitsOf w0 59 58 < 2) && bitsOf w0 57 56 == 0 && bitsOf w0 15 0 == 0 && bitsOf w1 63 56 == 0 && bitsOf w1 15 0 == 0 &&
  decide (bitsOf w0 55 16 ≤ bitsOf w1 55 16) && bitsOf w2 63 56 == 0 &&
  (if bitsOf w0 59 58 == 0 then w2 % 65536 == 0 else w2 % 8192 == 0) && entWord s d a k 3 == 0

/-- A valid entry that covers some offset: its BASE is not above its LAST. -/
def entCovers (s : State) (d a k : Nat) : Bool :=
  bitsOf (entWord s d a k 0) 63 63 == 1 && decide (bitsOf (entWord s d a k 0) 55 16 ≤ bitsOf (entWord s d a k 1) 55 16)

/-- Two valid entries overlap. -/
def entOverlap (s : State) (d a j k : Nat) : Bool :=
  entCovers s d a j && entCovers s d a k &&
  decide (bitsOf (entWord s d a j 0) 55 16 ≤ bitsOf (entWord s d a k 1) 55 16) &&
  decide (bitsOf (entWord s d a k 0) 55 16 ≤ bitsOf (entWord s d a j 1) 55 16)

/-- Some pair of a leaf's entries below n overlaps. -/
def anyOverlap (s : State) (d a n : Nat) : Bool :=
  (List.range n).any fun j => (List.range j).any fun k => entOverlap s d a j k

/-- A node obeys Table 19.4. -/
def nodeOk (s : State) (d a : Nat) : Bool :=
  let w0 := physWord s d a 0
  let n := bitsOf w0 7 0
  let leaf := bitsOf w0 63 63 == 1
  decide (a + 512 ≤ physSize d) && a % 512 == 0 && bitsOf w0 62 8 == 0 && decide (1 ≤ n) && decide (n ≤ 15) && wordsZero s d a 1 3 &&
  (if leaf then !anyOverlap s d a n && wordsZero s d a (4 + 4 * n) (60 - 4 * n)
   else childrenOk s d a 0 n && wordsZero s d a (4 + 2 * n) (60 - 2 * n))

/-- The largest child below n whose key is at most v. -/
def pickChild (s : State) (d a v : Nat) : Nat → Option Nat
  | 0 => none
  | k + 1 => if nodeKey s d a k ≤ v then some k else pickChild s d a v k

/-- The leaf that v reaches, in at most fuel nodes (R345). -/
def findLeaf (s : State) (d v : Nat) : Nat → Nat → Option Nat
  | 0, _ => none
  | fuel + 1, a =>
    if !nodeOk s d a then none
    else if bitsOf (physWord s d a 0) 63 63 = 1 then some a
    else
      match pickChild s d a v (bitsOf (physWord s d a 0) 7 0) with
      | none => none
      | some k => findLeaf s d v fuel (nodeChild s d a k)

/-- The valid entry below n that covers v. -/
def pickEntry (s : State) (d a v : Nat) : Nat → Option Nat
  | 0 => none
  | k + 1 =>
    if bitsOf (entWord s d a k 0) 63 63 = 1 ∧ bitsOf (entWord s d a k 0) 55 16 * 65536 ≤ v ∧
        v ≤ bitsOf (entWord s d a k 1) 55 16 * 65536 + 0xFFFF then some k
    else pickEntry s d a v k

/-- The radix levels of a paged range, from level lvl down (R345). -/
def radix (s : State) (d n : Nat) : Nat → Nat → Option Nat
  | 0, t => some t
  | lvl + 1, t =>
    let w := physWord s d t ((n / 2 ^ (10 * lvl)) % 1024)
    if decide (t + 8192 ≤ physSize d) && bitsOf w 63 63 == 1 && (if lvl = 0 then bitsOf w 55 0 % 65536 == 0 else bitsOf w 55 0 % 8192 == 0)
    then radix s d n lvl (bitsOf w 55 0) else none

/-- Rights as a number: 4 RD, 2 WR, 1 EX. -/
def rightsOf (w0 : Nat) : Nat := bitsOf w0 62 62 * 4 + bitsOf w0 61 61 * 2 + bitsOf w0 60 60

/-- The leaf and the entry that cover an offset for a context on a die. -/
def rangeEntry (s : State) (c d v : Nat) : Option (Nat × Nat) :=
  let root := rdN s.mem (ctlKey d (16 * c)) 8
  if bitsOf root 63 63 = 0 then none
  else
    match findLeaf s d v 8 (bitsOf root 55 0) with
    | none => none
    | some a =>
      match pickEntry s d a v (bitsOf (physWord s d a 0) 7 0) with
      | none => none
      | some k => if entOk s d a k then some (a, k) else none

/-- The walk (R345): the physical address and the rights of an offset of a context on a die, or unmapped. -/
def walk (s : State) (c d v : Nat) : Option (Nat × Nat) :=
  match rangeEntry s c d v with
  | none => none
  | some (a, k) =>
    let w0 := entWord s d a k 0
    let base := bitsOf w0 55 16 * 65536
    let map := entWord s d a k 2
    let ph := if bitsOf w0 59 58 = 0 then some (map + (v - base))
      else (radix s d ((v - base) / 65536) 4 map).map fun t => t + v % 65536
    match ph with
    | none => none
    | some p => if p < physSize d then some (p, rightsOf w0) else none

/-! ### The lines that a translation reads (R345, R414) -/

/-- The keys of the lines of the nodes that the way to a leaf reads, in at most fuel nodes. -/
def leafTrail (s : State) (d v : Nat) : Nat → Nat → List Nat
  | 0, _ => []
  | fuel + 1, a =>
    if physSize d < a + 512 then []
    else
      let lines := (List.range 8).map fun i => physKey d (a + 64 * i)
      if !nodeOk s d a || bitsOf (physWord s d a 0) 63 63 == 1 then lines
      else
        match pickChild s d a v (bitsOf (physWord s d a 0) 7 0) with
        | none => lines
        | some k => lines ++ leafTrail s d v fuel (nodeChild s d a k)

/-- The keys of the lines of the radix words that are read from level lvl down. -/
def radixTrail (s : State) (d n : Nat) : Nat → Nat → List Nat
  | 0, _ => []
  | lvl + 1, t =>
    if physSize d < t + 8192 then []
    else
      let i := (n / 2 ^ (10 * lvl)) % 1024
      (physKey d (t + 8 * i) - physKey d (t + 8 * i) % 64) :: radixTrail s d n lvl (bitsOf (physWord s d t i) 55 0)

/-- The keys of the lines that the walk of an offset reads. -/
def walkTrail (s : State) (c d v : Nat) : List Nat :=
  let root := rdN s.mem (ctlKey d (16 * c)) 8
  if bitsOf root 63 63 = 0 then []
  else
    leafTrail s d v 8 (bitsOf root 55 0) ++
    (match rangeEntry s c d v with
      | none => []
      | some (a, k) =>
        let w0 := entWord s d a k 0
        if bitsOf w0 59 58 = 0 then [] else radixTrail s d ((v - bitsOf w0 55 16 * 65536) / 65536) 4 (entWord s d a k 2))

/-- The rights needed are granted. -/
def granted (rights need : Nat) : Bool :=
  (need / 4 % 2 == 0 || rights / 4 % 2 == 1) && (need / 2 % 2 == 0 || rights / 2 % 2 == 1) && (need % 2 == 0 || rights % 2 == 1)

/-- A TLB's entry for a unit that grants the rights needed. -/
def tlbFind (t : List TlbEnt) (c unit need : Nat) : Option Nat :=
  (t.find? fun e => e.ctx == c && e.unit == unit && granted e.rights need).map (·.base)

/-- The physical address that a range entry of a memory-side TLB gives an offset of its context, if it covers it with the rights needed; a
paged range goes through its radix tables (R345, R347). -/
def rangeAt (s : State) (d c v need : Nat) (e : RangeEnt) : Option Nat :=
  if e.ctx ≠ c ∨ v < e.lo * 65536 ∨ e.hi * 65536 + 0xFFFF < v ∨ !granted e.rights need then none
  else
    let p := if e.paged then (radix s d ((v - e.lo * 65536) / 65536) 4 e.map).map fun t => t + v % 65536 else some (e.map + (v - e.lo * 65536))
    p.filter fun p => decide (p < physSize d)

/-- What the TLBs of a request give for an offset on a die: a core's first level for its own die, else the memory side's page entries, then
its range entries (R347). -/
def tlbLookup (s : State) (req c d v need : Nat) : Option Nat :=
  if isCore req && req / 288 == d then (tlbFind (s.co req).tlb c (v / 65536) need).map (· + v % 65536)
  else
    match tlbFind (s.di d).tlb c (v / 65536) need with
    | some b => some (b + v % 65536)
    | none => (s.di d).ranges.findSome? (rangeAt s d c v need)

/-- The keys of the lines that the translation of an offset reads where the TLBs of a request do not hold it; a paged range entry of the memory
side's still needs its radix tables. -/
def xlatTrail (s : State) (req c d v need : Nat) : List Nat :=
  if isCore req && req / 288 == d then (if (tlbFind (s.co req).tlb c (v / 65536) need).isSome then [] else walkTrail s c d v)
  else if (tlbFind (s.di d).tlb c (v / 65536) need).isSome then []
  else
    match (s.di d).ranges.find? fun e => (rangeAt s d c v need e).isSome with
    | some e => if e.paged then radixTrail s d ((v - e.lo * 65536) / 65536) 4 e.map else []
    | none => walkTrail s c d v

/-- One of them is uncorrectable: the translation cannot be told. -/
def xlatBad (s : State) (req c d v need : Nat) : Bool := s.ecc != [] && (xlatTrail s req c d v need).any (lineUncorrectable s)

/-- DETAIL of a fault with a cause that an access meets: 1 for a poisoned line (R414). -/
def detailOf (cause : Nat) : Nat := if cause = 0x22 then 1 else 0

/-- One 8-byte register or window word's key, or the cause of the context fault. -/
abbrev Xlat := Except Nat Nat

/-- Whether an offset lies in control space (R342). -/
def isControl (off : Nat) : Bool := decide (0xFE_0000_0000_0000 ≤ off)

/-- Control space (R342): only context 0. -/
def controlKey (c d off : Nat) : Xlat :=
  if c ≠ 0 then .error causeUnmapped
  else if off < 0xFF_0000_0000_0000 then
    if off - 0xFE_0000_0000_0000 < physSize d then .ok (physKey d (off - 0xFE_0000_0000_0000)) else .error causeUnmapped
  else if off - 0xFF_0000_0000_0000 < 0x1_0000 then .ok (ctlKey d (off - 0xFF_0000_0000_0000))
  else .ok (ctlKey d (0x1_0000 + off % 64))

end Sys2Proof.Machine
end

