-- ==== Sys2Proof/Machine/Home.lean ====
section
/-! DEFINITION. The homes of global addresses: the windows of the Crossroads die, the resolution of an access to its home, the reads and
writes that homes perform, of a line and of a run of bytes, their error codes and their side effects (R231, R307 to R315, R342, R413, R414). -/
namespace Sys2Proof.Machine

/-! ### Windows of the Crossroads die -/

/-- Whether a number of a package-wide table is allotted to a context. -/
def allotted (s : State) (c : Nat) (k : AllotKind) (i : Nat) : Bool :=
  s.allots.any fun a => a.ctx == c && a.kind == k && decide (a.lo ≤ i) && decide (i < a.hi)

/-- Rights of the owner context. -/
def windowRight (ok : Bool) (rights need key : Nat) : Xlat :=
  if !ok then .error causeUnmapped else if granted rights need then .ok key else .error causePermission

/-- The owner context of a dispatcher queue (Table 15.5). -/
def queueCtx (s : State) (q : Nat) : Nat := bitsOf (rdN s.mem (winKey (0x1E00_0000 + 32 * q)) 8) 59 54

/-- The home key of an offset of owner 8 that lies in a window, with the rights the window is mapped with; none outside every window. -/
def windowKey (s : State) (c off need : Nat) : Option Xlat :=
  if off < 0x0400_0000 then some (windowRight (allotted s c .trigger (off / 64)) 6 need (winKey off))
  else if 0x1000_0000 ≤ off ∧ off < 0x1080_0000 then some (windowRight (allotted s c .milestone ((off - 0x1000_0000) / 16)) 6 need (winKey off))
  else if 0x1800_0000 ≤ off ∧ off < 0x1800_0040 then some (windowRight true 4 need (cwinKey c off))
  else if 0x1A00_0000 ≤ off ∧ off < 0x1A00_0040 then some (windowRight true 6 need (cwinKey c off))
  else if 0x1B00_0000 ≤ off ∧ off < 0x1B20_0008 then some (windowRight true 6 need (cwinKey c off))
  else if 0x1B28_0000 ≤ off ∧ off < 0x1B2C_0000 then some (windowRight true 6 need (cwinKey c off))
  else if 0x1B30_0000 ≤ off ∧ off < 0x1B30_4000 then some (windowRight true 6 need (cwinKey c off))
  else if 0x1C00_0000 ≤ off ∧ off < 0x1C04_0000 then some (windowRight true 4 need (cwinKey c off))
  else if 0x1D00_0000 ≤ off ∧ off < 0x1D00_0800 then
    some (windowRight (c == 0 || (off - 0x1D00_0000) / 32 == c) (if c = 0 then 6 else 4) need (winKey off))
  else if 0x1E00_0000 ≤ off ∧ off < 0x1E00_8000 then
    some (windowRight (c == 0 || queueCtx s ((off - 0x1E00_0000) / 32) == c) (if c = 0 then 6 else 4) need (winKey off))
  else if 0x1F00_0000 ≤ off ∧ off < 0x1F01_0000 then some (windowRight true 4 need (cwinKey c off))
  else if 0x2000_0000 ≤ off ∧ off < 0x2100_0000 then some (windowRight (allotted s c .conversation ((off - 0x2000_0000) / 256)) 6 need (winKey off))
  else if 0x2100_0000 ≤ off ∧ off < 0x2180_0000 then some (windowRight (allotted s c .itinerary ((off - 0x2100_0000) / 32768)) 6 need (winKey off))
  else if 0x2200_0000 ≤ off ∧ off < 0x2200_2000 then
    some (windowRight (c == 0 || (off - 0x2200_0000) / 128 == c) (if c = 0 then 6 else 4) need (winKey off))
  else none

/-- A malformed global address (R78). -/
def badForm (ea : Nat) : Bool := decide (2 ^ 60 ≤ ea) || decide (8 < ea / 2 ^ 56)

/-- The home key of a global byte for a requester (an agent, or any number that is no core) in a context with the rights it needs, or
the cause of the context fault (R78, R342, R345, R346). -/
def resolve (s : State) (req c ea need : Nat) : Xlat :=
  let d := ea / 2 ^ 56
  let off := ea % 2 ^ 56
  if badForm ea then .error causeUnmapped
  else if isControl off then controlKey c d off
  else
    match (if d = 8 then windowKey s c off need else none) with
    | some r => r
    | none =>
      if xlatBad s req c d off need then .error 0x22
      else
      match tlbLookup s req c d off need with
      | some p => .ok (physKey d p)
      | none =>
        match walk s c d off with
        | none => .error causeUnmapped
        | some (p, r) => if granted r need then .ok (physKey d p) else .error causePermission

/-- The translation of an access logs the errors of the lines that it reads (R414). -/
def noteXlat (s : State) (req c ea need : Nat) : State :=
  let d := ea / 2 ^ 56
  let off := ea % 2 ^ 56
  if s.ecc = [] ∨ badForm ea ∨ isControl off ∨ (d = 8 ∧ (windowKey s c off need).isSome) then s
  else (xlatTrail s req c d off need).foldl noteRead s

/-- An access to an address is translated and reads the line of its key. -/
def noteAccess (s : State) (req c ea need key : Nat) : State := noteRead (noteXlat s req c ea need) key

/-- The lines from key lo up to hi are read: their errors are logged (R414). -/
def noteReads (s : State) (lo hi : Nat) : State :=
  (s.ecc.filter fun e => decide (lo < e.1 + 64) && decide (e.1 < hi)).foldl (fun s e => noteRead s e.1) s

/-! ### Sync objects' lines -/

/-- The numbers of the directory entries of a context whose VALID bit is set (Table 17.2). -/
def dirEntries (s : State) (c : Nat) : List Nat :=
  s.mem.filterMap fun e =>
    if cwinKey c 0x1F00_0000 ≤ e.1 ∧ e.1 < cwinKey c 0x1F01_0000 ∧ (e.1 - cwinKey c 0x1F00_0000) % 16 = 7 ∧ 128 ≤ e.2.toNat
    then some ((e.1 - cwinKey c 0x1F00_0000) / 16) else none

/-- Word 0 and word 1 of a directory entry. -/
def dirWord (s : State) (c i j : Nat) : Nat := rdN s.mem (cwinKey c (0x1F00_0000 + 16 * i + 8 * j)) 8

/-- The regions of a list at REGL: base and length, those in use (R314). -/
def regionsAt (s : State) (c regl : Nat) : List (Nat × Nat) :=
  if regl = 0 then []
  else
    (List.range 8).filterMap fun k =>
      match resolve s 0xFFFF c (regl + 16 * k) 4 with
      | .error _ => none
      | .ok key =>
        let b := rdN s.mem key 8
        let l := rdN s.mem (key + 8) 8
        if l = 0 then none else some (b, l)

/-- A region list obeys R314. -/
def regionsOk (r : List (Nat × Nat)) : Bool :=
  r.all fun e => e.1 % 64 == 0 && e.2 % 64 == 0 && !badForm e.1 && (e.1 + e.2 - 1) / 2 ^ 56 == e.1 / 2 ^ 56

/-- A directory entry counts as valid (R314). -/
def dirOk (s : State) (c i : Nat) : Bool :=
  let w0 := dirWord s c i 0
  let regl := dirWord s c i 1
  bitsOf w0 62 60 == 0 && w0 % 64 == 0 && !badForm (w0 % 2 ^ 60) && (regl == 0 || (regl % 128 == 0 && !badForm regl)) &&
  regionsOk (regionsAt s c regl)

/-- The directory entry of an object's address in a context. -/
def objEntry (s : State) (c obj : Nat) : Option Nat :=
  (dirEntries s c).find? fun i => dirWord s c i 0 % 2 ^ 60 == obj && dirOk s c i

/-- The bound regions of an object. -/
def objRegions (s : State) (c obj : Nat) : List (Nat × Nat) :=
  match objEntry s c obj with
  | some i => regionsAt s c (dirWord s c i 1)
  | none => []

/-- The reads of an object's region list are logged where its lines have errors (R414). -/
def noteRegions (s : State) (c obj : Nat) : State :=
  if s.ecc = [] then s
  else
    match objEntry s c obj with
    | none => s
    | some i =>
      let regl := dirWord s c i 1
      if regl = 0 then s
      else [regl, regl + 64].foldl (fun s ea => match resolve s 0xFFFF c ea 4 with | .ok key => noteAccess s 0xFFFF c ea 4 key | .error _ => s) s

/-- The directory entries of all contexts whose VALID bit is set: context and number. -/
def allEntries (s : State) : List (Nat × Nat) :=
  s.mem.filterMap fun e =>
    let off := (e.1 - cwinKey 0 0) % 2 ^ 32
    if cwinKey 0 0 ≤ e.1 ∧ e.1 < cwinKey 64 0 ∧ 0x1F00_0000 ≤ off ∧ off < 0x1F01_0000 ∧ off % 16 = 7 ∧ 128 ≤ e.2.toNat
    then some ((e.1 - cwinKey 0 0) / 2 ^ 32, (off - 0x1F00_0000) / 16) else none

/-- The home keys of the lines of all sync objects (R315). -/
def objHomes (s : State) : List Nat :=
  (allEntries s).filterMap fun e =>
    if dirOk s e.1 e.2 then (resolve s 0xFFFF e.1 (dirWord s e.1 e.2 0 % 2 ^ 60) 0).toOption else none

/-- A context and an address by which a sync object's line is named. -/
def objName (s : State) (key : Nat) : Nat × Nat :=
  ((allEntries s).findSome? fun e =>
    let ea := dirWord s e.1 e.2 0 % 2 ^ 60
    if dirOk s e.1 e.2 && (resolve s 0xFFFF e.1 ea 0).toOption == some (key - key % 64) then some (e.1, ea) else none).getD (0, 0)

/-- The line of a key is a sync object, of whichever context and by whichever mapping it is reached. -/
def isObjHome (s : State) (key : Nat) : Bool := (objHomes s).contains (key - key % 64)

/-! ### Writes at the home -/

/-- What a word becomes when a word is stored over it, and what the store asks for. RO fields keep their value and reserved fields read zero
(R4); the check that a table's load makes of its reserved fields is made of the word as it is stored (log entry 31). -/
abbrev Stored := Nat × List Act

/-- A word with the bits from hi to lo taken from another. -/
def takeBits (old new hi lo : Nat) : Nat := old - bitsOf old hi lo * 2 ^ lo + bitsOf new hi lo * 2 ^ lo

/-- Table status (Table 14.6), word w. -/
def storeStatus (c w old new : Nat) : Stored :=
  if w = 0 ∨ w = 2 ∨ w = 3 then (bitsOf new 63 44 * 2 ^ 44 + bitsOf new 31 0, [])
  else if w = 1 then (bitsOf new 63 41 * 2 ^ 41 + bitsOf new 35 0, [])
  else if w = 4 then (new, [])
  else if w = 7 then (new, [.drainreq c (BitVec.ofNat 64 new)])
  else (old, [])

/-- Tree entry t (Table 18.3), word w, by a store that carries its byte 7 or not: only one that does can write VALID; the bytes beyond the node words are zero (R330). -/
def storeTree (c t w old new : Nat) (top : Bool) : Stored :=
  if w = 0 then
    (bitsOf new 63 63 * 2 ^ 63 + bitsOf old 62 61 * 2 ^ 61 + bitsOf new 57 35 * 2 ^ 35 + bitsOf new 21 0,
     if top && bitsOf new 63 63 == 1 then [.tree c t] else [])
  else if w = 1 then (bitsOf new 63 32 * 2 ^ 32 + bitsOf new 12 0, [])
  else if w = 2 then (bitsOf old 63 32 * 2 ^ 32, [])
  else if w < 8 ∨ 136 ≤ w then (0, [])
  else (new, [])

/-- Time-slot table i (Table 18.4), word w. -/
def storeSlots (c i w old new : Nat) (top : Bool) : Stored :=
  if w = 0 then (takeBits new old 62 62, if top && bitsOf new 63 63 == 1 then [.timeslot c i] else [])
  else if w = 2 then (bitsOf new 53 44 * 2 ^ 44 + bitsOf old 31 0, [])
  else if w = 3 then (old, [])
  else if 4 ≤ w ∧ w < 8 then (0, [])
  else (new, [])

/-- Collective entry i (Table 18.6), word w. -/
def storeCollective (c i w old new : Nat) (top : Bool) : Stored :=
  if w = 0 then
    (bitsOf new 63 63 * 2 ^ 63 + bitsOf old 62 61 * 2 ^ 61 + bitsOf new 15 0, if top && bitsOf new 63 63 == 1 then [.collective c i] else [])
  else if w = 1 then (new, [])
  else if w = 2 then (bitsOf new 19 0, [])
  else if w = 3 then (bitsOf new 31 0, [])
  else (bitsOf new 63 63 * 2 ^ 63 + bitsOf new 19 0, [])

/-- A window that each context has its own of. -/
def storeOwn (c off old new : Nat) (top : Bool) : Stored :=
  if off < 0x1A00_0000 then (new, [])
  else if off < 0x1A00_0040 then storeStatus c ((off - 0x1A00_0000) / 8) old new
  else if off < 0x1B20_0000 then storeTree c ((off - 0x1B00_0000) / 2048) ((off - 0x1B00_0000) % 2048 / 8) old new top
  else if off < 0x1B20_0008 then (bitsOf new 63 32 * 2 ^ 32 + bitsOf new 19 0, [])
  else if off < 0x1B30_0000 then storeSlots c ((off - 0x1B28_0000) / 4096) ((off - 0x1B28_0000) % 4096 / 8) old new top
  else if off < 0x1B30_4000 then storeCollective c ((off - 0x1B30_0000) / 64) ((off - 0x1B30_0000) % 64 / 8) old new top
  else (new, [])

/-- The context table (Table 23.1): its fields are written while the context is free. A CREATE is accepted only then, a KILL only while STATE is
LIVE or HALTED (R385, R404). -/
def storeCtx (s : State) (c w old new : Nat) : Stored :=
  let st := bitsOf (rdN s.mem (winKey (0x2200_0000 + 128 * c)) 8) 63 61
  let free := st = 0
  let acts : List Act :=
    if w = 0 ∧ c ≠ 0 then
      (if free ∧ bitsOf new 60 60 = 1 then [.ctxCreate c] else []) ++ (if (st = 1 ∨ st = 2) ∧ bitsOf new 59 59 = 1 then [.ctxKill c] else [])
    else []
  let v :=
    if !free || c == 0 then old
    else if w = 0 then takeBits old new 27 16
    else if w = 2 then bitsOf new 63 43 * 2 ^ 43 + bitsOf new 31 0
    else if w = 6 then bitsOf new 63 42 * 2 ^ 42
    else if w = 8 then bitsOf new 8 0
    else if 9 ≤ w then 0
    else new
  (v, acts)

/-- Conversation object n (Tables 21.3, 21.4), word w: word 3 commands; the others change only while LIFE is 0 (R364). -/
def storeConv (s : State) (n w old new : Nat) : Stored :=
  let life := bitsOf (rdN s.mem (winKey (0x2000_0000 + 256 * n)) 8) 61 60
  if w = 3 then (0, (if bitsOf new 63 63 = 1 then [Act.convKill n] else []) ++ (if bitsOf new 62 62 = 1 then [Act.convFree n] else []))
  else if life ≠ 0 then (old, [])
  else if w = 0 then (takeBits old new 47 40, if bitsOf new 63 63 = 1 then [.convOpen n] else [])
  else if w = 1 then (bitsOf new 63 63 * 2 ^ 63 + bitsOf new 19 0, [])
  else if w = 2 then (bitsOf new 15 0, [])
  else if 4 ≤ w ∧ w ≤ 19 then (bitsOf new 63 62 * 2 ^ 62 + bitsOf old 61 61 * 2 ^ 61 + bitsOf new 51 32 * 2 ^ 32 + bitsOf new 25 16 * 2 ^ 16, [])
  else (old, [])

/-- Itinerary i (Tables 21.1, 21.2), word w. -/
def storeItin (i w old new : Nat) (top : Bool) : Stored :=
  if w = 0 then
    (bitsOf new 63 63 * 2 ^ 63 + bitsOf old 62 62 * 2 ^ 62 + bitsOf new 23 0, if top && bitsOf new 63 63 == 1 then [.itinerary i] else [])
  else if w = 1 then (bitsOf old 31 0, [])
  else if w < 8 then (0, [])
  else (new, [])

/-- The queue table (Table 15.5), word w of queue q: CTX and VALID keep while DEPTH is nonzero (R287). -/
def storeQueue (s : State) (q w old new : Nat) : Stored :=
  let depth := rdN s.mem (winKey (0x1E00_0000 + 32 * q + 16)) 8 % 2 ^ 32
  if w = 0 then
    let v := takeBits new 0 43 36
    (if depth ≠ 0 ∧ (bitsOf new 59 54 ≠ bitsOf old 59 54 ∨ bitsOf new 63 63 = 0) then takeBits (takeBits v old 63 63) old 59 54 else v, [])
  else (old, [])

/-- A window that the package holds once. -/
def storeShared (s : State) (off old new : Nat) (top : Bool) : Stored :=
  if off < 0x1D00_0000 then (new, [])
  else if off < 0x1D00_0800 then
    let w := off % 32 / 8
    (if w = 0 then new else if w = 1 then bitsOf new 4 0 else old, [])
  else if 0x1E00_0000 ≤ off ∧ off < 0x1E00_8000 then storeQueue s ((off - 0x1E00_0000) / 32) (off % 32 / 8) old new
  else if 0x2000_0000 ≤ off ∧ off < 0x2100_0000 then storeConv s ((off - 0x2000_0000) / 256) (off % 256 / 8) old new
  else if 0x2100_0000 ≤ off ∧ off < 0x2180_0000 then storeItin ((off - 0x2100_0000) / 32768) (off % 32768 / 8) old new top
  else if 0x2200_0000 ≤ off ∧ off < 0x2200_2000 then storeCtx s ((off - 0x2200_0000) / 128) (off % 128 / 8) old new
  else (new, [])

/-- Word 0 of a routine request block (Table 25.5). GO is judged as it is stored (R423): while a routine runs it is ignored; a NUM of the
routine table sets BUSY and clears DONE and FAIL, the arguments as they stand; any other NUM is to set FAIL. -/
def storeRoutine (s : State) (d old new : Nat) : Stored :=
  let v := takeBits old new 7 0
  if bitsOf new 63 63 = 0 ∨ !(s.di d).started then (v, [])
  else if bitsOf old 62 62 = 1 then (old, [])
  else
    let known := (s.di d).routines.any fun e => e.1 == new % 256
    (if known then 2 ^ 62 + v % 2 ^ 60 else v, [.routine d (new % 256) (rdN s.mem (ctlKey d 0x2008) 56)])

/-- Word 0 of a migration request block (Table 19.7): GO sets BUSY and clears FAIL and DONE; the request is then judged (R352). -/
def storeMigration (d old new : Nat) : Stored :=
  if bitsOf new 63 63 = 1 then (2 ^ 62 + bitsOf new 55 0, [.migrate d]) else (bitsOf old 61 60 * 2 ^ 60 + bitsOf new 55 0, [])

/-- Control space of die d: roots, the migration block, the routine request block (Tables 19.3, 19.7, 25.5). -/
def storeControl (s : State) (d off old new : Nat) : Stored :=
  if off < 0x400 then (if off % 16 = 0 then bitsOf new 63 63 * 2 ^ 63 + bitsOf new 55 0 else 0, [])
  else if 0x1000 ≤ off ∧ off < 0x1018 then
    let busy := bitsOf (rdN s.mem (ctlKey d 0x1000) 8) 62 62 = 1
    if busy then (old, [])
    else if off = 0x1000 then storeMigration d old new
    else (bitsOf new 55 0, [])
  else if 0x2000 ≤ off ∧ off < 0x2040 then
    if off = 0x2000 then storeRoutine s d old new else (new, [])
  else (0, [])

/-- What a window or register word becomes when a word is stored over it, and what the store asks for; top: the store carries byte 7. -/
def storeWord (s : State) (key old new : Nat) (top : Bool) : Stored :=
  if ctlKey 0 0 ≤ key then storeControl s ((key - ctlKey 0 0) / 2 ^ 32) ((key - ctlKey 0 0) % 2 ^ 32) old new
  else if cwinKey 0 0 ≤ key then storeOwn ((key - cwinKey 0 0) / 2 ^ 32) ((key - cwinKey 0 0) % 2 ^ 32) old new top
  else storeShared s (key - winKey 0) old new top

/-- Whether a key belongs to a window or to control space: its words have fields of their own. -/
def isDevice (key : Nat) : Bool := (decide (winKey 0 ≤ key) && decide (key < spKey 0 0)) || decide (ctlKey 0 0 ≤ key)

/-- A command to a conversation object: its operation, 14 to kill, 15 to open, 16 to free, and the object. -/
def Act.command (a : Act) : Option (Nat × Nat) :=
  match a with
  | .convKill n => some (14, n)
  | .convOpen n => some (15, n)
  | .convFree n => some (16, n)
  | _ => none

/-- It takes its place among the packets that arrive for the conversation (R368), as an item of its own. -/
def commandItem (s : State) (e : Nat × Nat) : ConvIn :=
  { agent := none, later := false, reg := 0, slot := 0, ms := none, ctx := bitsOf (rdN s.mem (winKey (0x2000_0000 + 256 * e.2)) 8) 59 54, conn := 0,
    pkt := { peerHi := 0, peerLo := 0, job := 0, mode := 1, op := e.1, psn := 0, msg := 0, off := 0, len := 0, tag := 0,
             key := BitVec.ofNat 32 e.2, roff := 0, ecn := false, sec := false, data := [] } }

/-- What a store asks for is on its way. -/
def State.ask (s : State) (acts : List Act) : State :=
  { s with acts := s.acts ++ acts.filter (fun a => a.command.isNone), convIn := s.convIn ++ (acts.filterMap Act.command).map (commandItem s) }

/-- Store the masked bytes of the words from a device key on: n words, low word first. -/
def devWrite (s : State) (key : Nat) : Nat → Nat → Nat → State
  | 0, _, _ => s
  | n + 1, v, mask =>
    let old := rdN s.mem key 8
    let merged := rdN (wrMasked (wrN [] 0 8 old) 0 8 v mask) 0 8
    let s :=
      if mask % 256 = 0 then s
      else
        let r := storeWord s key old merged (mask / 128 % 2 == 1)
        (s.put64 key r.1).ask r.2
    devWrite s (key + 8) n (v / 2 ^ 64) (mask / 256)

/-- The bits of a word error that lie outside the bytes of a store are kept; a full write clears (R77, R414). -/
def clearEcc (s : State) (key : Nat) : State := { s with ecc := tput s.ecc key [] [] }

/-- A home performs a write of the masked bytes of n bytes at a key (n a power of two up to 64, the key aligned to n): a device word by
its fields, an ordinary byte as it is. -/
def keyWrite (s : State) (key n v mask : Nat) : State :=
  let s := noteWrite s key
  if isDevice key then devWrite s (key - key % 8) ((n + 7) / 8) (v * 2 ^ (8 * (key % 8))) (mask * 2 ^ (key % 8))
  else { s with mem := wrMasked s.mem key n v mask }

/-- Why an access fails at its home: the cause and the DETAIL of the fault, the faulting address, and the state in which its error has been
logged. -/
structure HomeFail where
  cause  : Nat
  detail : Nat
  addr   : Nat
  st     : State

/-- The first of n words from an address on, of those that a byte mask names, that a requester may not access: its cause and its address. -/
def firstFault (s : State) (req c need : Nat) : Nat → Nat → Nat → Option (Nat × Nat)
  | 0, _, _ => none
  | n + 1, ea, mask =>
    if mask % 256 = 0 then firstFault s req c need n (ea + 8) (mask / 256)
    else
      match resolve s req c ea need with
      | .error e => some (e, ea)
      | .ok _ => firstFault s req c need n (ea + 8) (mask / 256)

/-- The first word of the n bytes at an address that a requester may not access: of ordinary memory, the first byte or the first byte in the next
unit (R266). -/
def spanFault (s : State) (req c ea n need : Nat) : Option (Nat × Nat) :=
  match resolve s req c ea need with
  | .error e => some (e, ea)
  | .ok key =>
    if isDevice key then firstFault s req c need ((ea % 8 + n + 7) / 8) (ea - ea % 8) (2 ^ (ea % 8 + n) - 1)
    else if ea % 65536 + n ≤ 65536 then none
    else
      let next := ea - ea % 65536 + 65536
      match resolve s req c next need with
      | .error e => some (e, next)
      | .ok _ => none

/-- The masked words of a line of a window: n words from an address on. -/
def devLine (s : State) (req c ea v mask need : Nat) : Nat → State
  | 0 => s
  | n + 1 =>
    let s := match (if mask % 256 = 0 then .error 0 else resolve s req c ea need) with
      | .error _ => s
      | .ok key => devWrite s key 1 (v % 2 ^ 64) (mask % 256)
    devLine s req c (ea + 8) (v / 2 ^ 64) (mask / 256) need n

/-- The first byte that a mask of n bytes names. -/
def firstByte (mask : Nat) : Nat → Nat → Nat
  | i, 0 => i
  | i, n + 1 => if mask % 2 = 1 then i else firstByte (mask / 2) (i + 1) n

/-- A context's admit gates stand open: no kill has closed them (R256, R323, R404). -/
def gateOpen (s : State) (c : Nat) : Bool :=
  !(s.cx c).closed && bitsOf (rdN s.mem (winKey (0x2200_0000 + 128 * c)) 8) 63 61 != 3 &&
  bitsOf (rdN s.mem (winKey (0x2200_0000 + 128 * c)) 8) 63 61 != 4

/-- A write of at most one line reaches its home and is performed there, or fails with the cause of a fault: that of a killed context is
dropped (R323), sync object lines discard it (R315), a masked write of an uncorrectable line is discarded and counts as a consumption (R414,
DETAIL 1). Where one of its words faults, none of them is written (DESIGN CHOICE, log entry 93). -/
def homeWrite (s : State) (req c ea n v mask need : Nat) : Except HomeFail State :=
  let first := firstByte mask 0 64
  if !gateOpen s c then .ok s
  else
    match resolve s req c (ea + first) need with
    | .error e => .error ⟨e, detailOf e, ea + first, noteXlat s req c (ea + first) need⟩
    | .ok key0 =>
      let key := key0 - first
      let s := noteXlat s req c (ea + first) need
      if isDevice key0 && n == 64 then
        match firstFault s req c need 8 ea mask with
        | some (e, at') => .error ⟨e, detailOf e, at', s⟩
        | none => .ok (devLine (noteWrite s key) req c ea v mask need 8)
      else if isObjHome s key then .ok s
      else
        match hbmDie key with
        | none => .ok (keyWrite s key n v mask)
        | some _ =>
          if mask = 2 ^ 64 - 1 ∧ n = 64 then .ok (clearEcc (keyWrite s key n v mask) key)
          else if lineUncorrectable s key then .error ⟨0x22, 1, ea + first, noteRead s key⟩
          else .ok (clearEcc (keyWrite (noteRead s key) key n v mask) (key - key % 64))

/-- A read of n bytes within a line at the home, with whether the line is poisoned; or the cause of the fault and its address. -/
def homeRead (s : State) (req c ea n need : Nat) : Except (Nat × Nat) (Nat × Bool × State) :=
  match spanFault s req c ea n need, resolve s req c ea need with
  | some e, _ => .error e
  | none, .error e => .error (e, ea)
  | none, .ok key => .ok (rdN s.mem key n, lineUncorrectable s key, noteAccess s req c ea need key)

/-! ### Runs of global bytes -/

/-- Write n bytes at a global address, line by line, fuel k: the first failure ends it, with the earlier lines written. -/
def globalWrite (req c : Nat) : Nat → Nat → Nat → Nat → State → Except HomeFail State
  | 0, _, _, _, s => .ok s
  | k + 1, ea, n, v, s =>
    if n = 0 then .ok s
    else
      let o := ea % 64
      let m := min n (64 - o)
      match homeWrite s req c (ea - o) 64 (v % 2 ^ (8 * m) * 2 ^ (8 * o)) ((2 ^ m - 1) * 2 ^ o) 2 with
      | .error e => .error e
      | .ok s => globalWrite req c k (ea + m) (n - m) (v / 2 ^ (8 * m)) s

/-- Read n bytes at a global address, line by line, fuel k, with whether some line is poisoned. -/
def globalRead (req c : Nat) : Nat → Nat → Nat → State → Except (Nat × Nat) (Nat × Bool × State)
  | 0, _, _, s => .ok (0, false, s)
  | k + 1, ea, n, s =>
    if n = 0 then .ok (0, false, s)
    else
      let m := min n (64 - ea % 64)
      match homeRead s req c ea m 4 with
      | .error e => .error e
      | .ok (v, bad, s) =>
        match globalRead req c k (ea + m) (n - m) s with
        | .error e => .error e
        | .ok r => .ok (v + 2 ^ (8 * m) * r.1, bad || r.2.1, r.2.2)

/-- Fuel for a run of n bytes. -/
def lineFuel (n : Nat) : Nat := n / 64 + 2

end Sys2Proof.Machine
end

