-- ==== Sys2Proof/Machine/Global.lean ====
section
/-! DEFINITION. The global data cache and the global loads and stores of a scalar stream (R78 to R82, R99, R100, R309, R310). -/
namespace Sys2Proof.Machine

/-! ### Lines -/

/-- The bits of the bytes that a byte mask names: n bytes. -/
def byteMask : Nat → Nat → Nat
  | 0, _ => 0
  | n + 1, m => (if m % 2 = 1 then 255 else 0) + 256 * byteMask n (m / 2)

/-- Bytes of one number over another under a byte mask. -/
def mergeBytes (old new : BitVec 512) (mask : BitVec 64) : BitVec 512 :=
  let m := BitVec.ofNat 512 (byteMask 64 mask.toNat)
  (old &&& ~~~m) ||| (new &&& m)

/-- The set of a line: 64 sets of 8 ways (log entry 8). -/
def lineSet (tag : BitVec 58) : Nat := tag.toNat % 64

/-- The line address bits of an address. -/
def tagOf (ea : Word) : BitVec 58 := ea.extractLsb' 6 58

/-- A line of the stream's context in its cache. -/
def Scalar.line (x : Scalar) (tag : BitVec 58) : Option Line :=
  (tget x.dc (lineSet tag) []).find? fun l => l.tag == tag && l.ctx == x.ctx

/-- The other lines of a line's set. -/
def Scalar.others (x : Scalar) (tag : BitVec 58) : List Line :=
  (tget x.dc (lineSet tag) []).filter fun l => !(l.tag == tag && l.ctx == x.ctx)

/-- Put a line in front of its set, the least recently used line evicted where nine would stand there (R80). -/
def Scalar.install (x : Scalar) (l : Line) : Scalar :=
  let ls := l :: x.others l.tag
  { x with dc := tput x.dc (lineSet l.tag) (ls.take 8) [], wb := x.wb ++ (ls.drop 8).flatMap wbOf }

/-- Remove every line that a test takes. -/
def Scalar.invalidate (x : Scalar) (p : Line → Bool) : Scalar :=
  { x with dc := (x.dc.map fun e => (e.1, e.2.filter fun l => !p l)).filter fun e => decide (e.2 ≠ []) }

/-- Every store of the stream has been performed at its home. -/
def Scalar.drained (x : Scalar) : Bool := x.wb.isEmpty && x.dc.all fun e => e.2.all fun l => l.dirty == 0

/-- A write-back of the line is on its way. -/
def Scalar.wbPending (x : Scalar) (tag : BitVec 58) : Bool := x.wb.any fun w => w.tag == tag && w.ctx == x.ctx

/-- The core is fetching the line (R82). -/
def Scalar.fetching (x : Scalar) (tag : BitVec 58) : Bool :=
  x.fills.any fun f => !f.acq && !f.verdict && f.val.isNone && tagOf f.ea == tag

/-- An LD.ACQ has not returned: no later global access is performed before it (R99). -/
def Scalar.acquiring (x : Scalar) : Bool := x.fills.any fun f => f.acq

/-- The byte mask of w bytes at an address in its line. -/
def lineMask (ea : Word) (w : Nat) : BitVec 64 := BitVec.ofNat 64 ((2 ^ w - 1) * 2 ^ (ea.toNat % 64))

/-- The w bytes at an address out of its line's data. -/
def lineBytes (data : BitVec 512) (ea : Word) (w : Nat) : Nat := (data.toNat / 2 ^ (8 * (ea.toNat % 64))) % 2 ^ (8 * w)

/-! ### Loads -/

/-- Outstanding misses of a stream. -/
def Scalar.misses (x : Scalar) : Nat := (x.fills.filter fun f => f.val.isNone && !f.verdict).length

/-- Requests of a queue's started records that are outstanding. -/
def Queue.outstanding (x : Queue) : Nat := (x.flight.map fun f => f.pend - (if f.made then 0 else 1)).sum

/-- A core's request slots, which its scalar loads and its copy engine share, have no room for n requests more: there are 1,536 (R79, Table
1.1). -/
def slotsShort (s : State) (a n : Nat) : Bool :=
  decide (1536 < (s.sc a).misses + (if isCore a then (s.co a).cq.outstanding else 0) + n)

/-- They are all taken. -/
def slotsFull (s : State) (a : Nat) : Bool := slotsShort s a 1

/-- A global load once its operands are read (R78, R79): alignment, address form, then a hit or a miss. -/
def loadGlobal (w : Nat) (sx : Bool) (d : BitVec 6) (ea : Word) (s : State) : State :=
  let x := s.sc s.cur
  let tag := tagOf ea
  if ea.toNat % w ≠ 0 then s.trap 3 0 ea
  else if badForm ea.toNat then s.ctxFault causeUnmapped 0 ea
  else if isControl (ea.toNat % 2 ^ 56) && x.ctx != 0#6 then s.ctxFault causeUnmapped 0 ea
  else if x.acquiring || x.fetching tag then s
  else
    let hit := match x.line tag with
      | some l => if lineMask ea w &&& ~~~l.valid = 0 then some l else none
      | none => none
    match hit with
    | some l =>
      let f : Fill := { reg := d, ea := ea, w := w, sext := sx, acq := false, val := some (extendLoad (lineBytes l.data ea w) w sx), verdict := false }
      (s.putSc s.cur { ((x.install l).markEmpty d) with fills := x.fills ++ [f] }).retire
    | none =>
      if slotsFull s s.cur then s
      else
        let f : Fill := { reg := d, ea := ea, w := w, sext := sx, acq := false, val := none, verdict := false }
        (s.putSc s.cur { (x.markEmpty d) with fills := x.fills ++ [f] }).retire

/-- The fills of a stream without the k-th. -/
def dropFill (x : Scalar) (k : Nat) : Scalar := { x with fills := x.fills.eraseIdx k }

/-- The bytes of a line that a fetch by a requester makes valid: all of an ordinary line, of a window those it may read. -/
def fetchMask (s : State) (req c line : Nat) (key : Nat) : BitVec 64 :=
  if isDevice key then
    (List.range 8).foldl (fun m i =>
      match resolve s req c (line + 8 * i) 4 with
      | .ok _ => m ||| BitVec.ofNat 64 (255 * 2 ^ (8 * i))
      | .error _ => m) 0#64
  else BitVec.allOnes 64

/-- A miss reaches its home (R79, R80, R309): the whole line is read in one step and merged under the dirty bytes; the register becomes
full. -/
def fillFromHome (k : Nat) (f : Fill) (s : State) : State :=
  let x := s.sc s.cur
  let tag := tagOf f.ea
  let c := x.ctx.toNat
  if x.wbPending tag || !gateOpen s c then s
  else if isControl (f.ea.toNat % 2 ^ 56) then
    match homeRead s s.cur c f.ea.toNat f.w 4 with
    | .error e => s.ctxFault e.1 (detailOf e.1) f.ea
    | .ok (_, true, s) => s.ctxFault 0x22 1 f.ea
    | .ok (v, false, s) => s.putSc s.cur ((dropFill x k).fillReg f.reg (extendLoad v f.w f.sext))
  else
    match resolve s s.cur c f.ea.toNat 4 with
    | .error e => (noteXlat s s.cur c f.ea.toNat 4).ctxFault e (detailOf e) f.ea
    | .ok key =>
      let v := rdN s.mem (key - key % 64) 64
      let bad := lineUncorrectable s key
      let s := noteAccess s s.cur c f.ea.toNat 4 key
      if bad then s.ctxFault 0x22 1 f.ea
      else
        let vm := fetchMask s s.cur c (tagAddr tag) (key - key % 64)
        let l : Line := match x.line tag with
          | some o => { o with data := mergeBytes (BitVec.ofNat 512 v) o.data o.dirty, valid := vm ||| o.dirty }
          | none => { ctx := x.ctx, tag := tag, data := BitVec.ofNat 512 v, valid := vm, dirty := 0 }
        let y := (dropFill x k).install l
        s.putSc s.cur (y.fillReg f.reg (extendLoad (lineBytes l.data f.ea f.w) f.w f.sext))

/-- GLOBAL_LOAD_FILL: the value of the k-th pending load of the subject arrives (R79). -/
def execGlobalLoadFill (k : Nat) (s : State) : Out :=
  .next <|
    match (s.sc s.cur).fills[k]? with
    | none => s
    | some f =>
      if f.acq || f.verdict then s
      else
        match f.val with
        | some v => s.putSc s.cur ((dropFill (s.sc s.cur) k).fillReg f.reg v)
        | none => fillFromHome k f s

/-! ### Stores -/

/-- A store merges its bytes into its line, allocated without a fetch (R80). -/
def Scalar.storeLine (x : Scalar) (ea : Word) (w : Nat) (v : Word) : Scalar :=
  let tag := tagOf ea
  let m := lineMask ea w
  let data := BitVec.ofNat 512 (v.toNat % 2 ^ (8 * w) * 2 ^ (8 * (ea.toNat % 64)))
  match x.line tag with
  | some l => x.install { l with data := mergeBytes l.data data m, valid := l.valid ||| m, dirty := l.dirty ||| m }
  | none => x.install { ctx := x.ctx, tag := tag, data := data, valid := m, dirty := m }

/-- A global store once its operands are read (R78, R80, R82); control space is written at once (R342). -/
def storeGlobal (w : Nat) (ea v : Word) (s : State) : State :=
  let x := s.sc s.cur
  if ea.toNat % w ≠ 0 then s.trap 3 0 ea
  else if badForm ea.toNat then s.ctxFault causeUnmapped 0 ea
  else if isControl (ea.toNat % 2 ^ 56) then
    if x.acquiring || x.fetching (tagOf ea) then s
    else
      match homeWrite s s.cur x.ctx.toNat ea.toNat w (v.toNat % 2 ^ (8 * w)) (2 ^ w - 1) 2 with
      | .error e => e.st.ctxFault e.cause e.detail ea
      | .ok s => s.retire
  else if x.acquiring || x.fetching (tagOf ea) then s
  else (s.putSc s.cur (x.storeLine ea w v)).retire

/-- A write-back performed at its home (R80): the masked bytes, or a fault raised by the owner die's memory side with the faulting address (of
an ordinary line its lowest dirty byte: DESIGN CHOICE, log entry 93) and the issuing core. -/
def performWb (s : State) (w : WriteBack) : State :=
  match homeWrite s s.cur w.ctx.toNat (tagAddr w.tag) 64 w.data.toNat w.mask.toNat 2 with
  | .ok s => s
  | .error e =>
    if isFw s.cur then e.st.routineFail e.cause
    else
      e.st.memFault w.ctx.toNat (e.addr / 2 ^ 56) (if isCore s.cur then s.cur else 0xFFF) e.cause e.detail (BitVec.ofNat 64 e.addr)

/-- WRITEBACK_PERFORM: the k-th write-back of the subject reaches its home, unless an earlier one of the same line is still on its way. -/
def execWritebackPerform (k : Nat) (s : State) : Out :=
  .next <|
    let x := s.sc s.cur
    match x.wb[k]? with
    | none => s
    | some w =>
      if (x.wb.take k).any fun o => o.tag == w.tag && o.ctx == w.ctx then s
      else performWb (s.putSc s.cur { x with wb := x.wb.eraseIdx k }) w

/-- An eviction that the spec leaves to the device (R309): the dirty bytes leave and the line goes. -/
def evictLine (a : Nat) (tag : BitVec 58) (s : State) : State :=
  let x := s.sc a
  let p : Line → Bool := fun l => l.tag == tag
  s.putSc a ((x.flush p).invalidate p)

/-! ### The acquire load -/

/-- LD.ACQ at issue (R99, R100): the destination is marked empty, and the dirty bytes of the word start on their way home. -/
def issueAcq (d : BitVec 6) (ea : Word) (s : State) : State :=
  let x := s.sc s.cur
  let tag := tagOf ea
  if ea.toNat % 8 ≠ 0 then s.trap 3 0 ea
  else if badForm ea.toNat then s.ctxFault causeUnmapped 0 ea
  else if x.acquiring || x.fetching tag || slotsFull s s.cur then s
  else
    let m := lineMask ea 8
    let y := match x.line tag with
      | some l =>
        if l.dirty &&& m = 0 then x
        else
          let w : WriteBack := { ctx := l.ctx, tag := tag, data := l.data, mask := l.dirty &&& m }
          { (x.install { l with dirty := l.dirty &&& ~~~m }) with wb := x.wb ++ [w] }
      | none => x
    let f : Fill := { reg := d, ea := ea, w := 8, sext := false, acq := true, val := none, verdict := false }
    (s.putSc s.cur { (y.markEmpty d) with fills := y.fills ++ [f] }).retire

/-- LD_ACQ (R99). -/
def execLdAcq (g : Guard) (d : BitVec 6) (a : Src) (off : BitVec 22) (s : State) : Out :=
  issue 5 g [a] (some d) s fun s => issueAcq d (ea22 (s.rd a) off) s

/-- The regions whose lines an LD.ACQ writes back and invalidates: those of the object whose value word it names; none for another
word (R99). -/
def acqRegions (s : State) (c : Nat) (ea : Word) : Option (List (Nat × Nat)) :=
  if (objEntry s c (ea.toNat - 8)).isSome && decide (8 ≤ ea.toNat) then some (objRegions s c (ea.toNat - 8)) else none

/-- The end of an LD.ACQ: the lines of the object's regions go, or every line without a dirty byte; the register becomes full. -/
def finishAcq (k : Nat) (f : Fill) (v : Word) (s : State) : State :=
  let x := s.sc s.cur
  match acqRegions s x.ctx.toNat f.ea with
  | some r =>
    if x.wb.any fun w => inRegions r w.tag then s
    else s.putSc s.cur (((dropFill x k).invalidate fun l => inRegions r l.tag).fillReg f.reg v)
  | none => s.putSc s.cur (((dropFill x k).invalidate fun l => l.dirty == 0).fillReg f.reg v)

/-- The value of an LD.ACQ is read at the home; a thread's watch line is armed, and the dirty lines of the object's regions start on
their way. -/
def readAcq (k : Nat) (f : Fill) (s : State) : State :=
  let x := s.sc s.cur
  let c := x.ctx.toNat
  if x.wbPending (tagOf f.ea) || !gateOpen s c then s
  else
    match resolve s s.cur c f.ea.toNat 4, homeRead s s.cur c f.ea.toNat 8 4 with
    | .error e, _ => (noteXlat s s.cur c f.ea.toNat 4).ctxFault e (detailOf e) f.ea
    | _, .error e => s.ctxFault e.1 (detailOf e.1) f.ea
    | .ok key, .ok (v, bad, s) =>
      if bad then s.ctxFault 0x22 1 f.ea
      else
        let w := BitVec.ofNat 64 v
        let y := { x with fills := x.fills.set k { f with val := some w } }
        let y := if isCore s.cur then y else { y with watch := some (key - key % 64, false) }
        let y := match acqRegions s c f.ea with
          | some r => y.flush fun l => inRegions r l.tag
          | none => y
        finishAcq k { f with val := some w } w ((noteRegions s c (f.ea.toNat - 8)).putSc s.cur y)

/-- ACQUIRE_LOAD_FILL: the value of the subject's k-th pending load, an LD.ACQ, returns and the invalidation is made (R99). -/
def execAcquireLoadFill (k : Nat) (s : State) : Out :=
  .next <|
    match (s.sc s.cur).fills[k]? with
    | none => s
    | some f =>
      if !f.acq then s
      else
        match f.val with
        | some v => finishAcq k f v s
        | none => readAcq k f s

/-! ### The instructions -/

/-- LD.G.B (R74, R79). -/
def execLdGB (g : Guard) (d : BitVec 6) (a : Src) (imm : BitVec 28) (s : State) : Out :=
  issue 0 g [a] (some d) s fun s => loadGlobal 1 true d (ea28 (s.rd a) imm) s

/-- LD.G.BU (R74, R79). -/
def execLdGBu (g : Guard) (d : BitVec 6) (a : Src) (imm : BitVec 28) (s : State) : Out :=
  issue 0 g [a] (some d) s fun s => loadGlobal 1 false d (ea28 (s.rd a) imm) s

/-- LD.G.H (R74, R79). -/
def execLdGH (g : Guard) (d : BitVec 6) (a : Src) (imm : BitVec 28) (s : State) : Out :=
  issue 0 g [a] (some d) s fun s => loadGlobal 2 true d (ea28 (s.rd a) imm) s

/-- LD.G.HU (R74, R79). -/
def execLdGHu (g : Guard) (d : BitVec 6) (a : Src) (imm : BitVec 28) (s : State) : Out :=
  issue 0 g [a] (some d) s fun s => loadGlobal 2 false d (ea28 (s.rd a) imm) s

/-- LD.G.W (R74, R79). -/
def execLdGW (g : Guard) (d : BitVec 6) (a : Src) (imm : BitVec 28) (s : State) : Out :=
  issue 0 g [a] (some d) s fun s => loadGlobal 4 true d (ea28 (s.rd a) imm) s

/-- LD.G.WU (R74, R79). -/
def execLdGWu (g : Guard) (d : BitVec 6) (a : Src) (imm : BitVec 28) (s : State) : Out :=
  issue 0 g [a] (some d) s fun s => loadGlobal 4 false d (ea28 (s.rd a) imm) s

/-- LD.G (R74, R79). -/
def execLdG (g : Guard) (d : BitVec 6) (a : Src) (imm : BitVec 28) (s : State) : Out :=
  issue 0 g [a] (some d) s fun s => loadGlobal 8 false d (ea28 (s.rd a) imm) s

/-- ST.G.B (R74, R80). -/
def execStGB (g : Guard) (a b : Src) (imm : BitVec 28) (s : State) : Out :=
  issue 0 g [a, b] none s fun s => storeGlobal 1 (ea28 (s.rd a) imm) (s.rd b) s

/-- ST.G.H (R74, R80). -/
def execStGH (g : Guard) (a b : Src) (imm : BitVec 28) (s : State) : Out :=
  issue 0 g [a, b] none s fun s => storeGlobal 2 (ea28 (s.rd a) imm) (s.rd b) s

/-- ST.G.W (R74, R80). -/
def execStGW (g : Guard) (a b : Src) (imm : BitVec 28) (s : State) : Out :=
  issue 0 g [a, b] none s fun s => storeGlobal 4 (ea28 (s.rd a) imm) (s.rd b) s

/-- ST.G (R74, R80). -/
def execStG (g : Guard) (a b : Src) (imm : BitVec 28) (s : State) : Out :=
  issue 0 g [a, b] none s fun s => storeGlobal 8 (ea28 (s.rd a) imm) (s.rd b) s

end Sys2Proof.Machine
end

