-- ==== Sys2Proof/Machine/Ring.lean ====
section
/-! DEFINITION. Queues, ring slots and semaphores (R91, R93, R133 to R136). -/
namespace Sys2Proof.Machine

/-- A queue by its code: 0 vq, 1 mq, 2 cq. -/
def Core.queue (x : Core) (q : BitVec 2) : Queue := if q = 0#2 then x.vq else if q = 1#2 then x.mq else x.cq

/-- Give a queue. -/
def Core.setQueue (x : Core) (q : BitVec 2) (v : Queue) : Core :=
  if q = 0#2 then { x with vq := v } else if q = 1#2 then { x with mq := v } else { x with cq := v }

/-- Records accepted and not completed: TAIL - HEAD modulo 2^32. -/
def Queue.fillLevel (x : Queue) : Nat := (x.tail - x.head).toNat

/-- The queue is full (R89). -/
def Queue.full (x : Queue) : Bool := x.fillLevel == x.count.toNat

/-- The scratchpad address of the slot of a counter (R133). -/
def Queue.slot (x : Queue) (c : BitVec 32) : Nat := x.base.toNat + 64 * (c.toNat % x.count.toNat)

/-- The record in a core's slot. -/
def slotRecord (s : State) (p : Nat) (q : Queue) (c : BitVec 32) : BitVec 512 := BitVec.ofNat 512 (rdN s.mem (spKey p (q.slot c)) 64)

/-- A semaphore of a core. -/
def Core.sem (x : Core) (k : Nat) : Sem := tget x.sems k Sem.reset

/-- Give a semaphore. -/
def Core.setSem (x : Core) (k : Nat) (v : Sem) : Core := { x with sems := tput x.sems k v Sem.reset }

/-- PEND + 1 (R89). -/
def Core.pend (x : Core) (k : Nat) : Core := x.setSem k { x.sem k with pend := (x.sem k).pend + 1 }

/-- DONE + 1, with ERR where the raise carries an error (R136). -/
def Core.raise (x : Core) (k : Nat) (err : Bool) : Core :=
  x.setSem k { x.sem k with done := (x.sem k).done + 1, err := (x.sem k).err || err }

/-- A record of core p's queue qu raises semaphore k of core q; a task with a checkpoint notes what a rollback may take back (R399). -/
def raiseBy (s : State) (q p qu : Nat) (slot : BitVec 32) (k : Nat) (err : Bool) : State :=
  s.upCo q fun x =>
    let y := x.raise k err
    if q = p ∧ y.ckpt.isSome then { y with undone := y.undone ++ [{ q := qu, slot := slot, sem := k, amt := 1, err := err }] } else y

/-- SEMWAIT's condition (Table 6.5). -/
def Sem.waitOk (x : Sem) (a : BitVec 32) : Bool := decide (0 ≤ (x.done - a).toInt) || x.err

/-- WAITB's condition (Table 6.5). -/
def Sem.waitbOk (x : Sem) (t : BitVec 22) : Bool := decide ((x.pend - x.done).toInt < t.toNat) || x.err

/-- SEMRD's result: a count with ERR in bit 32. -/
def semWord (v : BitVec 32) (err : Bool) : Word := v.setWidth 64 ||| (if err then 0x1_0000_0000#64 else 0#64)

/-- An await's condition on the low halves (R135), satisfied by ERR (R136). -/
def Sem.awaitOk (x : Sem) (thr : BitVec 16) : Bool := decide (0 ≤ (x.done.setWidth 16 - thr).toInt) || x.err

end Sys2Proof.Machine
end

