-- ==== Sys2Proof/Machine/Fetch.lean ====
section
/-! DEFINITION. Instruction fetch (R29, R68, R375) and what the next record of a queue is (R133, R135). -/
namespace Sys2Proof.Machine

/-- An agent's pc. -/
def State.pcOf (s : State) (a : Nat) : Word := (s.sc a).pc

/-- Where the agent's next instruction word lies, or the cause of the context fault: a firmware core fetches from its local store, every
other agent from the home of its pc, which must be executable (R68, R375). DESIGN CHOICE (log entry 94): a firmware core's pc counts modulo the
size of the store, and context 0 may fetch from control space, which has no EX right. -/
def fetchKey (s : State) (a : Nat) : Xlat :=
  let x := s.sc a
  if isFw a then .ok (fwKey (a - 8192) (x.pc.toNat % 0x1_0000)) else resolve s a x.ctx.toNat x.pc.toNat 1

/-- The line of a core's instruction cache that holds its pc. -/
def codeLine (s : State) (a : Nat) : Option CodeLine :=
  if isCore a then (s.co a).icache.find? fun l => l.ctx == (s.sc a).ctx && l.tag == tagOf (s.pcOf a) else none

/-- The agent's next instruction word, from its instruction cache or from where it lies, or the cause and DETAIL of the context fault: a poisoned
line is consumed (R414). -/
def fetch (s : State) (a : Nat) : Except (Nat × Nat) Word :=
  match codeLine s a with
  | some l => .ok (BitVec.ofNat 64 (lineBytes l.data (s.pcOf a) 8))
  | none =>
    match fetchKey s a with
    | .error e => .error (e, detailOf e)
    | .ok k => if lineUncorrectable s k then .error (0x22, 1) else .ok (BitVec.ofNat 64 (rdN s.mem k 8))

/-- A task or handler begins its first instruction: its clocks count from here (R246, R402, Table 6.1). -/
def firstInstr (s : State) (a : Nat) : State :=
  if (s.sc a).fresh then s.putSc a { s.sc a with fresh := false, start := s.time, wd := s.time } else s

/-- The fetch of an agent's next instruction word logs what its home corrects or finds uncorrectable (R414); with the first one of a task or
handler its clocks start. -/
def noteFetch (s : State) (a : Nat) : State :=
  match codeLine s a with
  | some _ => firstInstr s a
  | none =>
    let s' := if isFw a then s else noteXlat s a (s.sc a).ctx.toNat (s.sc a).pc.toNat 1
    match fetchKey s a with
    | .ok k => firstInstr (noteRead s' k) a
    | .error _ => firstInstr s' a

/-- A core's instruction cache takes the line of its pc: 512 lines of 64 bytes (Table 1.1), the least recently fetched dropped. -/
def codeFill (a : Nat) (s : State) : State :=
  match codeLine s a, fetchKey s a with
  | none, .ok k =>
    if !isCore a || isDevice k || lineUncorrectable s k then s
    else
      let l : CodeLine := { ctx := (s.sc a).ctx, tag := tagOf (s.pcOf a), data := BitVec.ofNat 512 (rdN s.mem (k - k % 64) 64) }
      (noteAccess s a (s.sc a).ctx.toNat (s.sc a).pc.toNat 1 k).upCo a fun x => { x with icache := (l :: x.icache).take 512 }
  | _, _ => s

/-- The slot counter of the first record of a queue that has not started. -/
def Queue.next (x : Queue) : BitVec 32 := x.head + BitVec.ofNat 32 x.flight.length

/-- A queue has a record that has not started. -/
def Queue.waiting (x : Queue) : Bool := decide (x.flight.length < x.fillLevel)

/-- The record of a queue that has started and whose body is not over. -/
def Queue.current (x : Queue) : Option Flight := x.flight.find? fun f => !f.made

/-- The slot counter of the first record that a core's engine has not started: during a rollback only the copy engine runs, and it takes the
records to be run again (R399). -/
def Core.nextSlot (x : Core) (q : BitVec 2) : Option (BitVec 32) :=
  if x.rolling then (if q = 2#2 then x.rerun.head?.map (·.1) else none)
  else if (x.queue q).waiting then some (x.queue q).next else none

/-- Give a record another word i. -/
def setWord (w : BitVec 512) (i v : Nat) : BitVec 512 :=
  w ^^^ ((w.extractLsb' (64 * i) 64 ^^^ BitVec.ofNat 64 v).setWidth 512 <<< (64 * i))

/-- The record in the slot of a counter as an engine takes it: words that it has read ahead are as they were then (R137). -/
def Queue.record (s : State) (p : Nat) (v : Queue) (c : BitVec 32) : BitVec 512 :=
  v.words.foldl (fun w e => setWord w e.1 e.2) (slotRecord s p v c)

/-- The record that an engine goes on with, or takes next. -/
def nextWords (s : State) (p : Nat) (q : BitVec 2) : Option (BitVec 512) :=
  let x := s.co p
  match (x.queue q).current with
  | some f => some f.words
  | none => (x.nextSlot q).map (Queue.record s p (x.queue q))

/-- The instruction that the record is that a core's engine goes on with or takes next. -/
def nextRecord (s : State) (p : Nat) (q : BitVec 2) : Option Instr := (nextWords s p q).map decodeRecord

end Sys2Proof.Machine
end

