-- ==== Sys2Proof/Machine/Placed.lean ====
section
/-! DEFINITION. The instruction placed where the machine fetches next: what a program's arrival stands for (log entry 1). -/
namespace Sys2Proof.Machine

/-- A core in service with every class, as bring-up leaves it once its quad has been scanned (R405, R419). -/
def Core.ready (x : Core) : Core := { x with svc := .service, capmask := 0x0000_007F_0F0F_FF7F#64 }

/-- Core 0 runs a task of context 0 at address 0, whose 64 KiB unit its first-level TLB maps to physical 0 with every right. -/
def State.runCore0 (s : State) : State :=
  let s := s.putCo 0 { (s.co 0).ready with tlb := [{ ctx := 0, unit := 0, base := 0, rights := 7 }] }
  { s.putSc 0 { s.sc 0 with run := .running } with cur := 0, sched := [] }

/-- The next turn is the current agent's, it runs, and its pc can be fetched from. -/
def State.fetches (s : State) : Option Nat :=
  if s.sched = [] ∧ (s.sc s.cur).run = .running then (fetchKey s s.cur).toOption else none

/-- A scalar instruction word stands where the next step fetches; a machine that runs nothing runs core 0. -/
def placeScalar (s : State) (w : Nat) : State :=
  match s.fetches with
  | some k => { s with mem := wrN s.mem k 8 w }
  | none =>
    let s := s.runCore0
    match s.fetches with
    | some k => { s with mem := wrN s.mem k 8 w }
    | none => s

/-- A record stands in the one slot of a ring of core 0's queue, and the engine has the next turn. -/
def placeRecord (s : State) (w : Nat) : State :=
  let q : BitVec 2 := if w / 2 ^ 60 % 16 = 1 then 1#2 else if w / 2 ^ 60 % 16 = 2 then 2#2 else 0#2
  let ring : Queue := { Queue.reset with base := 0x100, count := 16, tail := 1 }
  let s := s.putCo 0 ((s.co 0).ready.setQueue q ring)
  { s with mem := wrN s.mem (spKey 0 0x100) 64 w, sched := [.engine 0 q] }

end Sys2Proof.Machine
end

