-- ==== Sys2Proof/Machine/Crypto.lean ====
section
/-! DEFINITION. The functions that a die's boot ROM and attestation use: SHA-256 and ECDSA over P-256 (R424, R425), which the spec names and
their standards define. -/
namespace Sys2Proof.Machine

/-! ### SHA-256 -/

/-- A 32-bit word of SHA-256. -/
abbrev W32 := BitVec 32

/-- The e-th root of v, rounded down, whose bits from n on are those of q: bit by bit. -/
def rootFrom (e v : Nat) : Nat → Nat → Nat
  | 0, q => q
  | n + 1, q => rootFrom e v n (if (q + 2 ^ n) ^ e ≤ v then q + 2 ^ n else q)

/-- The first 32 bits of the fraction of the e-th root of p. -/
def rootBits (e p : Nat) : W32 := BitVec.ofNat 32 (rootFrom e (p * 2 ^ (32 * e)) 37 0)

/-- The first 64 primes: those below 312. -/
def shaPrimes : List Nat := (List.range 312).filter fun p => decide (2 ≤ p) && (List.range p).all fun d => d < 2 || p % d != 0

/-- The round constants: the fractions of the primes' cube roots. -/
def shaK : List W32 := shaPrimes.map (rootBits 3)

/-- The eight working words. -/
structure ShaState where
  a : W32
  b : W32
  c : W32
  d : W32
  e : W32
  f : W32
  g : W32
  h : W32
deriving DecidableEq, Repr

/-- The initial hash value: the fractions of the first eight primes' square roots. -/
def shaInit : ShaState :=
  let r (i : Nat) : W32 := rootBits 2 (shaPrimes.getD i 0)
  ⟨r 0, r 1, r 2, r 3, r 4, r 5, r 6, r 7⟩

/-- The exclusive or of three rotations, or of two and a shift. -/
def rot3 (x : W32) (i j k : Nat) : W32 := x.rotateRight i ^^^ x.rotateRight j ^^^ x.rotateRight k

/-- The message word that a window of sixteen yields. -/
def shaNext (w : List W32) : W32 :=
  let s0 (x : W32) := x.rotateRight 7 ^^^ x.rotateRight 18 ^^^ x >>> 3
  let s1 (x : W32) := x.rotateRight 17 ^^^ x.rotateRight 19 ^^^ x >>> 10
  s1 (w.getD 14 0) + w.getD 9 0 + s0 (w.getD 1 0) + w.getD 0 0

/-- One round with a constant and a message word. -/
def shaRound (x : ShaState) (k w : W32) : ShaState :=
  let t1 := x.h + rot3 x.e 6 11 25 + ((x.e &&& x.f) ^^^ (~~~x.e &&& x.g)) + k + w
  let t2 := rot3 x.a 2 13 22 + ((x.a &&& x.b) ^^^ (x.a &&& x.c) ^^^ (x.b &&& x.c))
  ⟨t1 + t2, x.a, x.b, x.c, x.d + t1, x.e, x.f, x.g⟩

/-- The rounds, the message words from a window on. -/
def shaRounds : List W32 → List W32 → ShaState → ShaState
  | [], _, x => x
  | k :: ks, w, x => shaRounds ks (w.drop 1 ++ [shaNext w]) (shaRound x k (w.getD 0 0))

/-- The hash after a block of sixteen words. -/
def shaBlock (x : ShaState) (w : List W32) : ShaState :=
  let y := shaRounds shaK w x
  ⟨x.a + y.a, x.b + y.b, x.c + y.c, x.d + y.d, x.e + y.e, x.f + y.f, x.g + y.g, x.h + y.h⟩

/-- n words, four bytes each, the first byte the most significant. -/
def shaWords : Nat → List Byte → List W32
  | 0, _ => []
  | n + 1, bs => (bs.getD 0 0 ++ bs.getD 1 0 ++ bs.getD 2 0 ++ bs.getD 3 0) :: shaWords n (bs.drop 4)

/-- n blocks of 64 bytes. -/
def shaBlocks : Nat → List Byte → ShaState → ShaState
  | 0, _, x => x
  | n + 1, bs, x => shaBlocks n (bs.drop 64) (shaBlock x (shaWords 16 bs))

/-- The bytes of a number, n of them, the most significant first. -/
def bytesBE (v : Nat) : Nat → List Byte
  | 0 => []
  | n + 1 => bytesBE (v / 256) n ++ [BitVec.ofNat 8 v]

/-- The bytes of a number, n of them, the least significant first (R2). -/
def bytesLE (v : Nat) : Nat → List Byte
  | 0 => []
  | n + 1 => BitVec.ofNat 8 v :: bytesLE (v / 256) n

/-- A message with its padding: a one bit, zeros, its length in bits. -/
def shaPad (bs : List Byte) : List Byte :=
  bs ++ (0x80#8 :: List.replicate ((119 - bs.length % 64) % 64) 0#8) ++ bytesBE (8 * bs.length) 8

/-- The SHA-256 digest of a list of bytes, its first byte the most significant. -/
def sha256 (bs : List Byte) : BitVec 256 :=
  let m := shaPad bs
  let x := shaBlocks (m.length / 64) m shaInit
  x.a ++ x.b ++ x.c ++ x.d ++ x.e ++ x.f ++ x.g ++ x.h

/-! ### P-256 -/

/-- The field's prime. -/
def p256P : Nat := 0xFFFFFFFF_00000001_00000000_00000000_00000000_FFFFFFFF_FFFFFFFF_FFFFFFFF
/-- The order of the base point. -/
def p256N : Nat := 0xFFFFFFFF_00000000_FFFFFFFF_FFFFFFFF_BCE6FAAD_A7179E84_F3B9CAC2_FC632551
/-- The curve's constant b; its a is −3. -/
def p256B : Nat := 0x5AC635D8_AA3A93E7_B3EBBD55_769886BC_651D06B0_CC53B0F6_3BCE3C3E_27D2604B

/-- A power modulo m, fuel k for the bits of the exponent. -/
def powMod (m : Nat) : Nat → Nat → Nat → Nat
  | 0, _, _ => 1
  | k + 1, b, e => if e % 2 = 1 then b * powMod m k (b * b % m) (e / 2) % m else powMod m k (b * b % m) (e / 2)

/-- The inverse modulo a prime of 256 bits. -/
def invMod (m v : Nat) : Nat := powMod m 256 (v % m) (m - 2)

/-- A difference modulo the field's prime. -/
def subP (a b : Nat) : Nat := (a + p256P - b % p256P) % p256P

/-- A point of the curve in Jacobian coordinates; z is 0 at infinity. -/
structure Point where
  x : Nat
  y : Nat
  z : Nat
deriving DecidableEq, Repr

/-- The base point. -/
def Point.base : Point :=
  ⟨0x6B17D1F2_E12C4247_F8BCE6E5_63A440F2_77037D81_2DEB33A0_F4A13945_D898C296,
   0x4FE342E2_FE1A7F9B_8EE7EB4A_7C0F9E16_2BCE3357_6B315ECE_CBB64068_37BF51F5, 1⟩

/-- Twice a point. -/
def Point.dbl (a : Point) : Point :=
  let d := a.z * a.z % p256P
  let g := a.y * a.y % p256P
  let b := a.x * g % p256P
  let m := 3 * (subP a.x d * (a.x + d) % p256P) % p256P
  let x := subP (m * m % p256P) (8 * b)
  ⟨x, subP (m * subP (4 * b % p256P) x % p256P) (8 * (g * g % p256P)), 2 * a.y * a.z % p256P⟩

/-- The sum of two points. -/
def Point.add (a b : Point) : Point :=
  if a.z = 0 then b
  else if b.z = 0 then a
  else
    let za := a.z * a.z % p256P
    let zb := b.z * b.z % p256P
    let ua := a.x * zb % p256P
    let sa := a.y * (zb * b.z % p256P) % p256P
    let h := subP (b.x * za % p256P) ua
    let r := subP (b.y * (za * a.z % p256P) % p256P) sa
    if h = 0 then (if r = 0 then a.dbl else ⟨1, 1, 0⟩)
    else
      let hh := h * h % p256P
      let h3 := h * hh % p256P
      let v := ua * hh % p256P
      let x := subP (subP (r * r % p256P) h3) (2 * v)
      ⟨x, subP (r * subP v x % p256P) (sa * h3 % p256P), h * (a.z * b.z % p256P) % p256P⟩

/-- A multiple of a point, fuel n for the bits of the factor. -/
def Point.mul : Nat → Nat → Point → Point
  | 0, _, _ => ⟨1, 1, 0⟩
  | n + 1, k, a => if k % 2 = 1 then a.add (Point.mul n (k / 2) a.dbl) else Point.mul n (k / 2) a.dbl

/-- The x coordinate of a point that is not at infinity. -/
def Point.affineX (a : Point) : Nat := a.x * invMod p256P (a.z * a.z % p256P) % p256P

/-- A public key lies on the curve. -/
def onCurve (x y : Nat) : Bool :=
  decide (x < p256P) && decide (y < p256P) && decide (y * y % p256P = subP (x * x * x + p256B) (3 * x))

/-- An ECDSA signature (r, s) over a digest verifies under a public key. -/
def ecdsaOk (key : BitVec 256 × BitVec 256) (digest r s : BitVec 256) : Bool :=
  let w := invMod p256N s.toNat
  let q := (Point.mul 256 (digest.toNat * w % p256N) .base).add (Point.mul 256 (r.toNat * w % p256N) ⟨key.1.toNat, key.2.toNat, 1⟩)
  onCurve key.1.toNat key.2.toNat && decide (0 < r.toNat) && decide (r.toNat < p256N) && decide (0 < s.toNat) && decide (s.toNat < p256N) &&
  decide (q.z ≠ 0) && decide (q.affineX % p256N = r.toNat)

/-- r of a signature with a secret number k. -/
def ecdsaR (k : Nat) : Nat := (Point.mul 256 k .base).affineX % p256N

/-- s of a signature over a digest under a private key d with a secret number k. -/
def ecdsaS (d k : Nat) (digest : BitVec 256) : Nat := invMod p256N k * (digest.toNat + ecdsaR k * d) % p256N

end Sys2Proof.Machine
end

