-- ==== Sys2Proof/Machine/Events.lean ====
section
/-! DEFINITION. The context table, the table status and the event queue of a context (R241 to R243, R275, R384). -/
namespace Sys2Proof.Machine

/-! ### The context table (Table 23.1) -/

/-- The key of word w of a context's entry. -/
def ctxKey (c w : Nat) : Nat := winKey (0x2200_0000 + 128 * c + 8 * w)

/-- Word w of a context's entry. -/
def ctxWord (s : State) (c w : Nat) : Nat := rdN s.mem (ctxKey c w) 8

/-- STATE: 0 FREE, 1 LIVE, 2 HALTED, 3 DRAINING, 4 ZEROING. -/
def ctxState (s : State) (c : Nat) : Nat := bitsOf (ctxWord s c 0) 63 61

/-- Set STATE. -/
def setCtxState (s : State) (c v : Nat) : State :=
  s.put64 (ctxKey c 0) (v * 2 ^ 61 + ctxWord s c 0 % 2 ^ 61)

/-- A context's admit gates stand open: it lives or is halted, and no kill has closed them (R256, R389, R404). -/
def admits (s : State) (c : Nat) : Bool := (ctxState s c == 1 || ctxState s c == 2) && !(s.cx c).closed

/-- Some table of the context may start work: it is LIVE (R389). -/
def ctxLive (s : State) (c : Nat) : Bool := ctxState s c == 1

/-! ### Table status (Table 14.6) -/

/-- The key of word w of a context's table status. -/
def tsKey (c w : Nat) : Nat := cwinKey c (0x1A00_0000 + 8 * w)

/-- Count in word w and record an entry's number in bits 63:44: malformed entries, truncations, landing failures. -/
def tsRecord (s : State) (c w ent : Nat) : State :=
  s.put64 (tsKey c w) (ent % 2 ^ 20 * 2 ^ 44 + satInc (rdN s.mem (tsKey c w) 8 % 2 ^ 32) 32)

/-- Record a skipped operation (R272, R273): milestone, index, reason. -/
def tsSkip (s : State) (c ms idx why : Nat) : State :=
  s.put64 (tsKey c 1) (ms % 2 ^ 20 * 2 ^ 44 + idx % 8 * 2 ^ 41 + why % 16 * 2 ^ 32 + satInc (rdN s.mem (tsKey c 1) 8 % 2 ^ 32) 32)

/-- Count an unmatched message dropped for a full queue (R243). -/
def tsDrop (s : State) (c : Nat) : State :=
  let w := rdN s.mem (tsKey c 4) 8
  s.put64 (tsKey c 4) (w / 2 ^ 32 * 2 ^ 32 + satInc (w % 2 ^ 32) 32)

/-- Count an event discarded for a zero handler table entry (R242). -/
def tsEvSkip (s : State) (c : Nat) : State :=
  let w := rdN s.mem (tsKey c 4) 8
  s.put64 (tsKey c 4) (satInc (w / 2 ^ 32) 32 * 2 ^ 32 + w % 2 ^ 32)

/-! ### The event queue -/

/-- Handler table entry k of a context (R242). -/
def handlerEntry (s : State) (c k : Nat) : Word := BitVec.ofNat 64 (rdN s.mem (cwinKey c (0x1800_0000 + 8 * k)) 8)

/-- Unmatched messages of a context that are still arriving: each has its place in the queue. -/
def pendingUnmatched (s : State) (c : Nat) : Nat := (s.rx.filter fun m => m.ctx == c && m.ent == 2 ^ 20 && !m.failed).length

/-- The queue has room for an event of a kind (R243): 1,024 events, of KIND 1 at most 768. -/
def eventRoom (s : State) (c kind : Nat) : Bool :=
  let es := (s.cx c).events
  decide (es.length + pendingUnmatched s c < 1024) && (kind != 1 || decide ((es.filter fun e => e.kind == 1).length + pendingUnmatched s c < 768))

/-- An event enters the queue. -/
def pushEvent (s : State) (c : Nat) (e : Ev) : State :=
  s.putCx c { s.cx c with events := (s.cx c).events ++ [{ e with ptime := s.ns }] }

end Sys2Proof.Machine
end

