-- ==== Sys2Proof/Machine/Validate.lean ====
section
/-! DEFINITION. The validity of a record: rules 1 to 12 of Table 8.7, with each operation's entry (R131, R132, R140, R160 to R168, R178,
R180 to R184, R201 to R226). -/
namespace Sys2Proof

/-! ### Fields of a record -/

/-- The trip counts, n0 first. -/
def Rec.n (r : Rec) : List Nat := [r.n0.toNat, r.n1.toNat, r.n2.toNat, r.n3.toNat]

/-- Some trip count is zero. -/
def Rec.zeroTrip (r : Rec) : Bool := r.n.any (· == 0)

/-- The strides, stride0 first. -/
def Desc.st (d : Desc) : List Int := [d.s0.toInt, d.s1.toInt, d.s2.toInt, d.s3.toInt]

/-- The modifier field of bits hi to lo. -/
def Rec.mf (r : Rec) (hi lo : Nat) : Nat := (r.mods.toNat / 2 ^ lo) % 2 ^ (hi + 1 - lo)

/-- Where an operand's addresses start: its base, of a tile operand the offset. -/
def Desc.origin (d : Desc) : Nat := if d.space = 4#4 then d.base.toNat % 2 ^ 22 else d.base.toNat

/-- The logical core of a tile operand. -/
def Desc.tile (d : Desc) : Nat := d.base.toNat / 2 ^ 22 % 256

/-- The run of a copy record in bytes (R211). -/
def Rec.run (r : Rec) : Nat := 2 ^ r.mf 3 0

/-- An absent descriptor. -/
def Desc.zero (d : Desc) : Bool := d == ⟨0, 0, 0, 0, 0, 0, 0, 0⟩

end Sys2Proof

namespace Sys2Proof.Machine

/-- An operation's entry: the modifier bits that it defines, and the spaces and tags that each operand may use; no space where the
operation does not use the operand. -/
structure Entry where
  mods : Nat
  dS   : List Nat
  aS   : List Nat
  bS   : List Nat
  dT   : List Nat
  aT   : List Nat
  bT   : List Nat
deriving DecidableEq, Repr

/-- Tags 0x00 to 0x07. -/
def tags07 : List Nat := [0, 1, 2, 3, 4, 5, 6, 7]
/-- Tags 0x01 to 0x07. -/
def tags17 : List Nat := [1, 2, 3, 4, 5, 6, 7]
/-- Every assigned tag (Table 8.2). -/
def tags09 : List Nat := [0, 1, 2, 3, 4, 5, 6, 7, 8, 9]
/-- Integer lane formats. -/
def tagsInt : List Nat := [3, 4, 5, 6]

/-- Three vector registers of the same tags. -/
def entryV3 (mods : Nat) (t : List Nat) : Entry := ⟨mods, [2], [2], [2], t, t, t⟩
/-- Two vector registers of the same tags. -/
def entryV2 (mods : Nat) (t : List Nat) : Entry := ⟨mods, [2], [2], [], t, t, []⟩

/-- Vector entries (Table 11.1). DESIGN CHOICE (log entry 114): VMOV's A may carry every tag. -/
def vecEntry (op : Nat) : Entry :=
  if op = 0x01 then ⟨0x70, [2], [1], [], tags07, tags07, []⟩
  else if op = 0x02 then ⟨0x70, [2], [1], [], tags17, tags17, []⟩
  else if op = 0x03 then ⟨0x70, [1], [2], [], tags07, tags07, []⟩
  else if op = 0x04 then ⟨0x70, [2], [2], [], tags07, tags09, []⟩
  else if op = 0x08 then ⟨0x70, [2, 1], [3], [], [0, 1, 3], [0, 1, 3], []⟩
  else if op = 0x09 then ⟨0x70, [3], [2], [], [1, 3], [1, 3], []⟩
  else if op = 0x0A then ⟨0, [3], [2], [], [0], [0], []⟩
  else if op = 0x0B then ⟨0, [2], [3], [], [0], [0], []⟩
  else if op ≤ 0x15 || op = 0x18 then entryV3 0x77 [1, 2]
  else if op ≤ 0x1B then entryV2 0x77 [1, 2]
  else if op = 0x20 || op = 0x21 || op = 0x2C then entryV3 0x78 tagsInt
  else if op ≤ 0x24 then entryV3 0x70 tags07
  else if op = 0x27 then entryV3 0x70 [3, 4, 5]
  else if op ≤ 0x29 then entryV3 0x70 tagsInt
  else if op = 0x2D then ⟨0x78, [2], [2], [2], [3], [5, 6], [5]⟩
  else if op = 0x30 then ⟨0x774, [7], [2], [2], [0], [1, 2], [1, 2]⟩
  else if op = 0x31 then ⟨0x770, [7], [2], [2], [0], tagsInt, tagsInt⟩
  else if op = 0x32 then entryV3 0x70 tags07
  else if op = 0x33 then ⟨0x300, [7], [7], [7], [0], [0], [0]⟩
  else if op = 0x38 then entryV2 0x37F tags09
  else if op = 0x3C then ⟨0x300, [2, 1], [2], [1], [5], [1], [7]⟩
  else if op = 0x3D then ⟨0x370, [2], [2, 1], [1], [1], [5], [7]⟩
  else if op = 0x40 then ⟨0x7F00, [1], [2], [], [8], [5], []⟩
  else if op = 0x41 then ⟨0x7F00, [2], [1], [], [5], [8], []⟩
  else if op = 0x48 then ⟨0x7F, [2, 1], [2], [], [1, 2, 3, 4, 5, 6], [1, 2, 3, 4, 5, 6], []⟩
  else if op ≤ 0x4A then ⟨0x74, [2, 1], [2], [], [1, 2, 3, 4, 5, 6], [1, 2, 3, 4, 5, 6], []⟩
  else if op = 0x50 then ⟨0x70, [2], [2], [2], tags07, tags07, tagsInt⟩
  else if op = 0x51 then entryV3 0x370 tags07
  else entryV2 0x7F70 tags07

/-- Matrix entries (Table 10.1): MDOT's D tag follows `.isum`, its A tag follows A's space. -/
def matEntry (op : Nat) (r : Rec) : Entry :=
  if op = 0x01 then ⟨0x8000, [], [1], [], [], [0], []⟩
  else if op = 0x02 then ⟨0x8000, [3], [], [], [1, 3], [], []⟩
  else
    ⟨0x800F, [3], [1, 3], [1], [if r.mods.getLsbD 3 then 3 else 1], [if r.a.space = 1#4 then 5 else 1],
      [if op = 0x10 then 8 else if op = 0x11 then 9 else 5]⟩

/-- Copy entries (Table 11.6, R213). DESIGN CHOICE (log entry 119): SEMPOST's D may carry every tag. -/
def copyEntry (op : Nat) : Entry :=
  if op = 0x01 then ⟨0xF, [1, 5], [1, 5], [], tags09, tags09, []⟩
  else if op = 0x02 then ⟨0xFF0F, [1, 5, 4], [], [], tags09, [], []⟩
  else if op = 0x10 then ⟨0x3F0F, [4], [1], [], tags09, tags09, []⟩
  else if op = 0x11 then ⟨0xF, [1], [4], [], tags09, tags09, []⟩
  else if op = 0x12 then ⟨0x3FFF, [4, 5], [1], [], tags09, tags09, []⟩
  else if op = 0x13 then ⟨0x3F0F, [4], [1], [1], tags09, tags09, [0]⟩
  else if op = 0x14 then ⟨0xFF, [6], [1], [], tags09, tags09, []⟩
  else if op = 0x18 then ⟨0x100, [4], [], [], tags09, [], []⟩
  else if op = 0x20 || op = 0x21 then ⟨0xF, [], [1], [1], [], tags09, [0]⟩
  else if op = 0x22 then ⟨0xF, [1], [], [1], tags09, [], [0]⟩
  else ⟨0, [], [], [1], [], [], [0]⟩

/-- The entry of an operation of a class field. -/
def entryOf (cls op : Nat) (r : Rec) : Entry :=
  if cls = 0 then vecEntry op else if cls = 1 then matEntry op r else if cls = 2 then copyEntry op else ⟨7, [], [], [], [], [], []⟩

/-- The last address of a space that validation checks (Table 8.5); none where it checks nothing. -/
def spaceTop (sp : Nat) : Option Int :=
  if sp = 1 || sp = 4 || sp = 6 then some 0x3F_FFFF else if sp = 2 then some 383 else if sp = 3 then some 131071
  else if sp = 7 then some 7 else none

/-- The largest base field of a space (Table 8.5). -/
def baseMax (sp : Nat) : Nat :=
  if sp = 1 || sp = 6 then 0x3F_FFFF else if sp = 2 then 383 else if sp = 3 then 131071 else if sp = 4 then 0x3FFF_FFFF
  else if sp = 5 then 0xFFFF_FFFF else if sp = 7 then 7 else 0

/-- The lowest and highest offset from the base that the strides reach (R132). -/
def reach : List Nat → List Int → Int × Int
  | n :: ns, st :: sts =>
    let t := ((n : Int) - 1) * st
    let r := reach ns sts
    (r.1 + min 0 t, r.2 + max 0 t)
  | _, _ => (0, 0)

/-- The extent of an operand over a nest, with a span. -/
def extent (d : Desc) (n : List Nat) (st : List Int) (span : Nat) : Int × Int :=
  let r := reach n st
  ((d.origin : Int) + r.1, (d.origin : Int) + r.2 + span - 1)

/-- The element size of a tag in bytes (R182). -/
def elemSize (t : Nat) : Nat := if t = 1 || t = 3 then 4 else if t = 2 || t = 4 then 2 else 1

/-- The lane count of a tag (R119). -/
def laneCount (t : Nat) : Nat := if t = 1 || t = 3 then 32 else if t = 2 || t = 4 then 64 else 128

/-- Bytes of an MDOT column's block (Table 10.3). -/
def colBytes (op dens : Nat) : Nat :=
  let kept := if dens = 0 then 32 else if dens = 1 then 16 else 8
  if op = 0x10 then (kept + 4) / 5 else if op = 0x11 then kept / 2 else kept

/-- The span of a vector operand (R182, R188, R202 to R207); k 0 is D, 1 is A, 2 is B. -/
def vecSpan (op k : Nat) (r : Rec) (d : Desc) : Nat :=
  if d.space = 3#4 then 32
  else if d.space ≠ 1#4 then 1
  else if op = 0x02 then elemSize d.tag.toNat
  else if op = 0x3C || op = 0x3D then (if k = 2 then 1 else 32)
  else if op = 0x40 || op = 0x41 then (r.mf 14 8 + 4) / 5
  else if 0x48 ≤ op && op ≤ 0x4A then elemSize d.tag.toNat
  else 128

/-- The span of a copy operand. -/
def copySpan (op k : Nat) (r : Rec) : Nat :=
  if k = 2 then (if op = 0x13 then 32 else 64) else if op = 0x18 then 1 else r.run

/-- The used descriptors that validation judges, numbered: D only without KAT. -/
def usedDescs (e : Entry) (r : Rec) : List (Nat × Desc) :=
  (if e.dS ≠ [] && !r.kat then [(0, r.d)] else []) ++ (if e.aS ≠ [] then [(1, r.a)] else []) ++ (if e.bS ≠ [] then [(2, r.b)] else [])

/-- The extents of a matrix operand over its record's shape (Table 10.2, R178, R180). -/
def matExtent (op k : Nat) (r : Rec) (d : Desc) : Int × Int :=
  let n0 := r.n0.toNat
  let m := 32 * r.n1.toNat
  if op = 0x01 then extent d r.n d.st 64
  else if op = 0x02 then extent d r.n d.st (31 * 512 + 64)
  else if k = 0 then extent d [m] [512] (64 * r.n2.toNat)
  else if k = 1 then extent d [n0, m] [d.s0.toInt, d.s1.toInt] 32
  else extent d [n0, 64, r.n2.toNat] [d.s0.toInt, d.s1.toInt, d.s2.toInt] (colBytes op (r.mf 1 0))

/-- The extent of an operand of a record. -/
def opExtent (cls op k : Nat) (r : Rec) (d : Desc) : Int × Int :=
  if cls = 0 then extent d r.n d.st (vecSpan op k r d)
  else if cls = 1 then matExtent op k r d
  else extent d r.n d.st (copySpan op k r)

/-- A base and all strides are multiples of a number. -/
def aligned (d : Desc) (a : Nat) : Bool := d.origin % a == 0 && d.st.all fun x => x % (a : Int) == 0

/-! ### Rule 3 -/

/-- The defined modifier fields hold values in their ranges. -/
def modRange (cls op : Nat) (r : Rec) : Bool :=
  if cls = 0 then
    if op = 0x30 then decide (r.mf 10 8 ≤ 4)
    else if op = 0x31 then decide (r.mf 10 8 ≤ 5)
    else if op = 0x40 || op = 0x41 then decide (1 ≤ r.mf 14 8) && decide (r.mf 14 8 ≤ 120)
    else true
  else if cls = 1 then op == 0x01 || op == 0x02 || r.mf 1 0 != 3
  else if cls = 2 then
    decide (r.mf 3 0 ≤ 12) && (if op = 0x12 || op = 0x14 then decide (r.mf 7 4 ≤ 3) else true)
  else true

/-! ### Rule 12 -/

/-- The pairs of Table 9.5, by tags: the source, then the result. -/
def cvtPair (a d : Nat) : Bool :=
  let fl : List Nat := [1, 2]
  (a != d) && ((fl.contains a && fl.contains d) || (fl.contains a && tagsInt.contains d) || (tagsInt.contains a && fl.contains d) ||
    (tagsInt.contains a && tagsInt.contains d) || (a == 7 && d == 1) || (a == 1 && d == 7))

/-- The tags of a vector record go together (Table 11.1). DESIGN CHOICE (log entry 115): a CVT to E5M3 with rounding bits set breaks rule 12. -/
def vecTags (op : Nat) (r : Rec) : Bool :=
  let d := r.d.tag.toNat
  let a := r.a.tag.toNat
  let b := r.b.tag.toNat
  if op = 0x04 || op = 0x2D || op = 0x33 || op = 0x3C || op = 0x3D || op = 0x40 || op = 0x41 then true
  else if op = 0x30 || op = 0x31 then a == b
  else if op = 0x38 then
    cvtPair a d && decide (r.mf 9 8 < max (laneCount a) (laneCount d) / min (laneCount a) (laneCount d)) &&
    !(a == 1 && d == 7 && r.mf 1 0 != 0)
  else if op = 0x50 then d == a && laneCount b == laneCount d
  else if (vecEntry op).bS = [] then d == a
  else d == a && a == b

/-- Rule 12 of a vector record (R182, R201 to R210). -/
def vecRule12 (op : Nat) (r : Rec) : Bool :=
  vecTags op r &&
  ((usedDescs (vecEntry op) r).all fun e =>
    if e.2.space = 1#4 then aligned e.2 (elemSize e.2.tag.toNat) else if e.2.space = 3#4 then aligned e.2 32 else true) &&
  (r.kat || r.d.space != 7#4 || (decide ((r.d.base.toNat : Int) + (if r.zeroTrip then 0 else (reach r.n r.d.st).1) ≠ 0))) &&
  (op != 0x3C || r.kat || r.d.space != 1#4 || r.mf 9 8 == 0) &&
  (!(decide (0x48 ≤ op) && decide (op ≤ 0x4A)) || r.kat || r.d.s0 == 0) &&
  (op != 0x52 || decide (r.mf 14 8 < laneCount r.d.tag.toNat))

/-- D's rectangle and A's blocks in the accumulator share no entry. -/
def extentsApart (r : Rec) : Bool :=
  let d := r.d.base.toNat
  let n0 := if r.a.s0 = 0 then min 1 r.n0.toNat else r.n0.toNat
  (List.range (32 * r.n1.toNat)).all fun (q : Nat) => (List.range n0).all fun (kb : Nat) =>
    let e : Int := (r.a.base.toNat : Int) + q * r.a.s1.toInt + kb * r.a.s0.toInt
    let row := e / 512
    let col := e % 512
    !(decide ((d / 512 : Nat) ≤ row) && decide (row < (d / 512 : Nat) + 32 * (r.n1.toNat : Int)) &&
      decide ((d % 512 : Nat) ≤ col) && decide (col < (d % 512 : Nat) + 64 * (r.n2.toNat : Int)))

/-- Rule 12 of an MDOT record: Table 10.2, `.isum` and KAT (R161, R168, R181). -/
def mdotRule12 (r : Rec) : Bool :=
  let d := r.d.base.toNat
  decide (r.n1.toNat ≤ 8) && decide (r.n2.toNat ≤ 8) && decide (r.n3.toNat ≤ 1) &&
  (r.kat || (r.d.st.all (· == 0) && (d / 512) % 32 == 0 && d % 64 == 0 && decide (d / 512 + 32 * r.n1.toNat ≤ 256) &&
    decide (d % 512 + 64 * r.n2.toNat ≤ 512) && (r.a.space != 3#4 || extentsApart r))) &&
  r.a.s2 == 0 && r.a.s3 == 0 && r.b.s3 == 0 &&
  (r.a.space != 3#4 || (r.a.base.toNat % 32 == 0 && r.a.s0.toInt % 32 == 0 && r.a.s1.toInt % 512 == 0)) &&
  !(r.mods.getLsbD 3 && r.a.space == 3#4) && !(r.kat && r.mods.getLsbD 2)

/-- Rule 12 of a matrix record. -/
def matRule12 (op : Nat) (r : Rec) : Bool :=
  if op = 0x01 then r.a.base.toNat % 64 == 0 && r.a.st.all (· == 0)
  else if op = 0x02 then aligned r.d 64
  else mdotRule12 r

/-- Rule 12 of a copy record (R211, R213, R222 to R229, R302). -/
def copyRule12 (op : Nat) (r : Rec) : Bool :=
  let al := min r.run 64
  let dOk := op == 0x18 || !(r.d.space == 1#4 || r.d.space == 4#4 || r.d.space == 6#4) || aligned r.d al
  let aOk := !(r.a.space == 1#4 || r.a.space == 4#4) || aligned r.a al
  let bOk := if op = 0x13 then r.b.base.toNat % 32 == 0 else if 0x20 ≤ op then r.b.base.toNat % 64 == 0 else true
  let t := r.d.tag.toNat
  let red := !(op == 0x12 || op == 0x14) ||
    (r.a.tag == r.d.tag && (t == 1 || t == 2 || t == 3) && decide (elemSize t ≤ r.run) && (r.mf 7 4 != 1 || t == 3))
  let ds := !(op == 0x12 && r.d.space == 5#4) || !r.mods.getLsbD 13
  let mc := op != 0x13 || r.d.tile == 0
  let ap := op != 0x14 || r.zeroTrip ||
    (let e := extent r.d r.n r.d.st r.run
     e.1 / 4096 == e.2 / 4096)
  let fl := op != 0x23 || r.n.all (· == 1)
  dOk && aOk && bOk && red && ds && mc && ap && fl

/-- Rule 12 of a JOIN (R140): a pushed one names only its own queue. -/
def joinRule12 (q : Nat) (fence : Bool) (r : Rec) : Bool :=
  (fence || r.mf 2 0 == 2 ^ q) && r.n2 == 0 && r.n3 == 0 && !r.phase

/-- Rule 12. -/
def rule12 (cls op q : Nat) (fence : Bool) (r : Rec) : Bool :=
  if cls = 0 then vecRule12 op r else if cls = 1 then matRule12 op r else if cls = 2 then copyRule12 op r else joinRule12 q fence r

/-! ### The rules in order -/

/-- The capability class of an operation. -/
def opClass (cls op : Nat) : Nat := ((recInstr (BitVec.ofNat 4 cls) (BitVec.ofNat 8 op) zeroRec).map recClass).getD 0
where
  /-- A record of zeros. -/
  zeroRec : Rec :=
    let d : Desc := ⟨0, 0, 0, 0, 0, 0, 0, 0⟩
    ⟨0, 0, false, 0, false, 0, false, false, false, 0, 0, 0, 0, 0, d, d, d⟩

/-- KAT may stand on a class (rule 5). -/
def katClass (c : Nat) : Bool := (decide (10 ≤ c) && decide (c ≤ 19)) || (decide (25 ≤ c) && decide (c ≤ 27))

/-- Where a record is judged: its queue, the team's size, whether the task declares phases, whether QFENCE wrote it. -/
structure Judge where
  q      : Nat
  team   : Nat
  phases : Bool
  fence  : Bool
deriving DecidableEq, Repr

/-- The first rule that a record of an assigned operation breaks; 0 where it is valid (R131). -/
def ruleBroken (j : Judge) (cls op : Nat) (r : Rec) : Nat :=
  let e := entryOf cls op r
  let used := usedDescs e r
  let all : List Desc := (if r.kat then [] else [r.d]) ++ [r.a, r.b]
  if cls ≠ 3 ∧ cls ≠ j.q then 1
  else if r.mods.toNat &&& (65535 - e.mods) ≠ 0 ∨ !modRange cls op r then 3
  else if r.low ≠ 0 ∨ (!r.awEn ∧ (r.awSem ≠ 0 ∨ r.thr ≠ 0)) ∨ (!r.raEn ∧ r.raSem ≠ 0) then 4
  else if r.kat ∧ (!katClass (opClass cls op) ∨ r.d.base ≠ 0 ∨ r.d.space ≠ 0 ∨ r.d.rsv ≠ 0 ∨ 16 ≤ r.d.s3.toNat) then 5
  else if r.phase ∧ !j.phases then 6
  else if all.any fun d => d.rsv != 0 || decide (8 ≤ d.space.toNat) then 7
  else if (!r.kat ∧ !(if e.dS = [] then r.d.zero else e.dS.contains r.d.space.toNat)) ∨
      !(if e.aS = [] then r.a.zero else e.aS.contains r.a.space.toNat) ∨ !(if e.bS = [] then r.b.zero else e.bS.contains r.b.space.toNat) then 8
  else if (used.any fun d => decide (baseMax d.2.space.toNat < d.2.base.toNat)) ∨ (cls = 2 ∧ op = 0x18 ∧ 32 ≤ r.d.origin) then 9
  else if (e.dS ≠ [] ∧ !e.dT.contains r.d.tag.toNat) ∨ (e.aS ≠ [] ∧ !e.aT.contains r.a.tag.toNat) ∨
      (e.bS ≠ [] ∧ !e.bT.contains r.b.tag.toNat) then 10
  else if cls ≠ 3 ∧ !r.zeroTrip ∧ ((used.any fun d =>
      match spaceTop d.2.space.toNat with
      | none => false
      | some top =>
        let x := opExtent cls op d.1 r d.2
        decide (x.1 < 0) || decide (top < x.2)) ∨ (used.any fun d => d.2.space == 4#4 && decide (j.team ≤ d.2.tile))) then 11
  else if rule12 cls op j.q j.fence r then 0 else 12

/-- The first rule that eight record words break (R131). -/
def wordsBroken (j : Judge) (w : BitVec 512) : Nat :=
  let cls := (w.extractLsb' 60 4).toNat
  if 4 ≤ cls ∨ (cls ≠ 3 ∧ cls ≠ j.q) then 1
  else
    match recInstr (w.extractLsb' 60 4) (w.extractLsb' 52 8) (splitRec w) with
    | none => 2
    | some _ => ruleBroken j cls (w.extractLsb' 52 8).toNat (splitRec w)

end Sys2Proof.Machine
end

