-- ==== Sys2Proof/Machine/Engine.lean ====
section
/-! DEFINITION. What every engine shares: where a record is judged, the nest of its issues, scratchpad accesses with their error codes and
buffer halves, and the faults an engine raises (R77, R117, R125, R130, R131, R386). -/
namespace Sys2Proof.Machine

/-! ### The task of a core -/

/-- A declared buffer pair of a kernel descriptor: input base, output base, bytes of a half (Table 15.4). -/
structure Pair where
  inp : Nat
  out : Nat
  n   : Nat
deriving DecidableEq, Repr

/-- The declared pairs of a kernel descriptor. -/
def kdescPairs (k : BitVec 1024) : List Pair :=
  (List.range 4).filterMap fun i =>
    let w := (k.extractLsb' (64 * (6 + i)) 64).toNat
    if bitsOf w 63 44 = 0 then none else some { inp := bitsOf w 21 0, out := bitsOf w 43 22, n := 64 * bitsOf w 63 44 }

/-- The pairs that the task on a core declares. -/
def pairsOf (s : State) (p : Nat) : List Pair := match s.teamOf p with | some t => kdescPairs t.kdesc | none => []

/-- The task on a core declares buffer phases. -/
def hasPhases (s : State) (p : Nat) : Bool := decide (pairsOf s p ≠ [])

/-- The size of the team of a core; a core without a task counts as a team of one. -/
def teamSize (s : State) (p : Nat) : Nat := match s.teamOf p with | some t => t.size | none => 1

/-- The physical core of a logical core of the team of a core. -/
def teamCore (s : State) (p l : Nat) : Nat := match s.teamOf p with | some t => t.cores[l]?.getD p | none => p

/-- Where a record of a core's queue is judged. -/
def judgeOf (s : State) (p : Nat) (q : BitVec 2) (fence : Bool) : Judge :=
  { q := q.toNat, team := teamSize s p, phases := hasPhases s p, fence := fence }

/-! ### Buffer halves (R125) -/

/-- An address in the first half of a declared pair moves to the second half. -/
def movedBy : List Pair → Nat → Nat
  | [], a => a
  | x :: xs, a =>
    if (decide (x.inp ≤ a) && decide (a < x.inp + x.n)) || (decide (x.out ≤ a) && decide (a < x.out + x.n)) then a + x.n else movedBy xs a

/-- A scratchpad address of a record: moved where the record is phase-marked and was accepted in the second half. -/
def recAddr (s : State) (p : Nat) (ph : Bool) (a : Int) : Nat := if ph then movedBy (pairsOf s p) a.toNat else a.toNat

/-! ### Scratchpad words and their error codes (R77, R417) -/

/-- Error positions of the scratchpad word at a key. -/
def wordErrs (s : State) (k : Nat) : List Nat := tget s.ecc (k - k % 8) []

/-- The keys of the words that n bytes at a key touch. -/
def wordKeys (k n : Nat) : List Nat := (List.range ((k % 8 + n + 7) / 8)).map fun i => k - k % 8 + 8 * i

/-- Some word among n bytes of a core's scratchpad is uncorrectable: two or more positions in error. -/
def spBad (s : State) (p a n : Nat) : Bool := decide (s.ecc ≠ []) && (wordKeys (spKey p a) n).any fun k => decide (2 ≤ (wordErrs s k).length)

/-- SPCORR + 1, saturating (R417). -/
def Core.countCorr (x : Core) : Core := { x with spcorr := if x.spcorr = 0xFFFF_FFFF#32 then x.spcorr else x.spcorr + 1 }

/-- A read of a word corrects a single error and writes the correction back. -/
def fixWord (p : Nat) (s : State) (k : Nat) : State :=
  if (wordErrs s k).length = 1 then ({ s with ecc := tput s.ecc k [] [] }).upCo p Core.countCorr else s

/-- A read of n bytes of a core's scratchpad corrects single errors. -/
def spFix (s : State) (p a n : Nat) : State := if s.ecc = [] then s else (wordKeys (spKey p a) n).foldl (fixWord p) s

/-- n bytes of a core's scratchpad. -/
def spRead (s : State) (p a n : Nat) : Nat := rdN s.mem (spKey p a) n

/-- Words written whole have fresh check bits. -/
def spFresh (s : State) (p a n : Nat) : State :=
  if s.ecc = [] then s
  else { s with ecc := s.ecc.filter fun e => !(decide (spKey p a ≤ e.1) && decide (e.1 + 8 ≤ spKey p a + n)) }

/-! ### Words read ahead (R114, R186, R326) -/

/-- The number by which an accumulator entry goes among the keys of words. -/
def accKey (e : Nat) : Nat := 2 ^ 60 + e

/-- What the engine of the turn in progress has read ahead for its next issue. -/
def aheadOf (s : State) (p : Nat) : List (Nat × Nat) := ((s.co p).queue s.curq).early

/-- n bytes of the scratchpad of core q as an issue of core p's engine reads them: each word that it has read ahead is as it was then. -/
def opRead (s : State) (p q a n : Nat) : Nat := rdN ((aheadOf s p).foldl (fun m e => wrN m e.1 8 e.2) s.mem) (spKey q a) n

/-- Entry e of a core's accumulator as an issue of its engine reads it. -/
def entryRead (s : State) (p e : Nat) : Nat := ((aheadOf s p).lookup (accKey e)).getD (tget (s.co p).acc e 0).toNat

/-- Write n bytes of a core's scratchpad. -/
def spWrite (s : State) (p a n v : Nat) : State := spFresh { s with mem := wrN s.mem (spKey p a) n v } p a n

/-! ### Effects -/

/-- What a record leaves to its completion: the block tags to set, and how many issues or steps it had. -/
structure Left where
  tags  : List (Nat × BitVec 8)
  steps : Nat
deriving DecidableEq, Repr

/-- How starting a record can go wrong. -/
inductive EngErr where
  /-- A context fault: cause, detail, address, and the issue or step at which it arose (R386). -/
  | fault (cause detail : Nat) (val : Word) (idx : Nat)
  /-- An uncorrectable word was read: its DETAIL, the address and the issue (R77, R398). -/
  | consumed (detail : Nat) (val : Word) (idx : Nat)
  /-- A known-answer record's signature differs (R411). -/
  | kat
  /-- The record cannot go on yet: the first issue not begun. -/
  | wait (idx : Nat)
deriving DecidableEq, Repr

/-- The effect of a record: done, or an error with the state that earlier issues left. -/
inductive Eff where
  | done (l : Left) (s : State)
  | err (e : EngErr) (s : State)
deriving Repr

/-- RECORD_INVALID (Table 23.2). -/
def causeInvalid : Nat := 0x23
/-- FORMAT_MISMATCH. -/
def causeFormat : Nat := 0x24
/-- PARK_CONFLICT. -/
def causePark : Nat := 0x25
/-- TRIT_INVALID. -/
def causeTrit : Nat := 0x26

/-- The indices of a nest in nest order, n0 innermost (R130). -/
def nest (r : Rec) : List (Nat × Nat × Nat × Nat) :=
  (List.range r.n3.toNat).flatMap fun i3 => (List.range r.n2.toNat).flatMap fun i2 => (List.range r.n1.toNat).flatMap fun i1 =>
    (List.range r.n0.toNat).map fun i0 => (i3, i2, i1, i0)

/-- The address of an operand at an index of the nest. -/
def addrAt (d : Desc) (i : Nat × Nat × Nat × Nat) : Int :=
  (d.origin : Int) + i.1 * d.s3.toInt + i.2.1 * d.s2.toInt + i.2.2.1 * d.s1.toInt + i.2.2.2 * d.s0.toInt

/-- The issues of a record: its indices numbered. -/
def issues (r : Rec) : List (Nat × Nat × Nat × Nat × Nat) := (nest r).zipIdx.map fun e => (e.2, e.1)

/-- Run issues in order from a state; the first that errs ends the run. -/
def runIssues (f : Nat → Nat × Nat × Nat × Nat → State → Except EngErr State) : List (Nat × Nat × Nat × Nat × Nat) → State → Except (EngErr × State) State
  | [], s => .ok s
  | e :: es, s =>
    match f e.1 e.2 s with
    | .error x => .error (x, s)
    | .ok s => runIssues f es s

/-- Those of the issues or steps to come that the turn in progress may begin. -/
def inTurn {α : Type} (s : State) (es : List α) : List α := match s.lim with | none => es | some n => es.take n

/-- The issues of a copy record in the order in which they are made: they are unordered (R130). -/
def issuesBy (js : List Nat) (r : Rec) : List (Nat × Nat × Nat × Nat × Nat) :=
  if js = [] then issues r else js.filterMap (fun j => (issues r)[j]?) ++ (issues r).filter fun e => !js.contains e.1

/-- The issues of a copy record from the one at a position of that order on, as far as the turn in progress goes. -/
def runFrom (f : Nat → Nat × Nat × Nat × Nat → State → Except EngErr State) (js : List Nat) (r : Rec) (pos : Nat) (s : State) : Eff :=
  let all := issuesBy js r
  let es := all.drop pos
  let now := inTurn s es
  match runIssues f now s with
  | .error (.wait i, s) => .err (.wait (all.findIdx fun e => e.1 == i)) s
  | .error e => .err e.1 e.2
  | .ok s => if now.length < es.length then .err (.wait (pos + now.length)) s else .done ⟨[], (issues r).length⟩ s

/-! ### Signatures (R410) -/

/-- A signature with more 32-bit result words. -/
def sigMore (sig : Word) (rs : List Nat) : Word := rs.foldl (fun sig r => (sig ^^^ BitVec.ofNat 64 (r % 2 ^ 32)) * 0x0000_0100_0000_01B3#64) sig

end Sys2Proof.Machine

namespace Sys2Proof
/-- Word 2 of a known-answer record: the expected signature (R124). -/
def Rec.sig (r : Rec) : Word := (r.d.s3.extractLsb' 0 4 ++ r.d.s2 ++ r.d.s1 ++ r.d.s0 : BitVec 64)
end Sys2Proof

namespace Sys2Proof.Machine

/-! ### Queue words -/

/-- q_HEAD as it reads (Table 8.8). -/
def Queue.headWord (x : Queue) : Word :=
  (if x.evt then 0x8000_0000_0000_0000#64 else 0#64) ||| (if x.flight = [] then 0#64 else 0x4000_0000_0000_0000#64) ||| x.head.setWidth 64

/-- The first issue or step of a record not begun, in nest order. -/
def Flight.first (f : Flight) : Nat :=
  let js := f.part.order
  if js = [] then f.idx
  else
    let ks := List.range (f.idx + 1)
    let begun := if f.idx ≤ js.length then js.take f.idx else js ++ (ks.filter fun k => !js.contains k).take (f.idx - js.length)
    (ks.find? fun k => !begun.contains k).getD f.idx

/-- The first issue or step not begun of the record at HEAD (R390, R394). -/
def Queue.begun (x : Queue) : Nat := match x.flight with | f :: _ => f.first | [] => 0

/-- Change the started record of a slot counter. -/
def State.upFlight (s : State) (p : Nat) (q : BitVec 2) (slot : BitVec 32) (g : Flight → Flight) : State :=
  s.upCo p fun x => x.setQueue q { x.queue q with flight := (x.queue q).flight.map fun f => if f.slot = slot then g f else f }

/-- A record's header word. -/
def recHeader (s : State) (p : Nat) (q : Queue) (c : BitVec 32) : Word := BitVec.ofNat 64 (rdN s.mem (spKey p (q.slot c)) 8)

/-- A part of a record's body has been made, n issues or steps of total: what is not made waits for another turn, or the whole is over; a
known-answer record's signature is then compared (R410, R411). -/
def partOver (p : Nat) (q : BitVec 2) (f : Flight) (r : Rec) (n total : Nat) (left : Bool) (tags : List (Nat × BitVec 8)) (x : Part) (s : State) : Eff :=
  if left then .err (.wait n) (s.upFlight p q f.slot fun f => { f with part := x })
  else if r.kat && x.sig != r.sig then .err .kat s
  else .done ⟨tags, total⟩ s

/-- A context fault that an engine of a core raises at the record of a slot counter (R386, Table 23.5): the engine stops. -/
def State.engineFault (s : State) (p : Nat) (q : BitVec 2) (slot : BitVec 32) (cause detail : Nat) (val : Word) (idx : Nat) : State :=
  let x := (s.co p).queue q
  let f : FaultRec :=
    { ctx := (s.sc p).ctx, typ := 1 + q.toNat, phys := p, lcore := s.lcoreOf p, cause := cause, detail := detail,
      pos := slot.setWidth 64, stat := x.headWord, val := val, aux := x.tail.setWidth 64, idx := BitVec.ofNat 64 idx, tstop := s.ns,
      out := if q = 2#2 then x.outstanding else 0 }
  { (s.upCo p fun y => y.setQueue q { y.queue q with stopped := true }) with faults := s.faults ++ [f] }

end Sys2Proof.Machine
end

