-- ==== Sys2Proof/Machine/Flags.lean ====
section
/-! DEFINITION. Number formats and exact arithmetic (R141 to R158): every floating-point result is the exact real result rounded once, with
the VSTATUS flags that its rule states. -/
namespace Sys2Proof.Machine

/-! ### Flags of VSTATUS (Table 9.4) -/

/-- IX. -/
def flIX : Word := 1
/-- UF. -/
def flUF : Word := 2
/-- OF. -/
def flOF : Word := 4
/-- DZ. -/
def flDZ : Word := 8
/-- IV. -/
def flIV : Word := 16
/-- SAT. -/
def flSAT : Word := 32
/-- TI. -/
def flTI : Word := 64

/-- A value with the flags that forming it set. -/
abbrev Fl (α : Type) := α × Word

/-! ### Floating-point values (R141) -/

/-- A floating-point value: a NaN, an infinity, or the exact number ±m × 2^k. -/
inductive Fp where
  | nan (signalling : Bool)
  | inf (neg : Bool)
  | fin (neg : Bool) (m : Nat) (k : Int)
deriving DecidableEq, Repr

/-- The value of a pattern with p fraction bits and 8 exponent bits (Table 9.1). -/
def fpDecode (p w : Nat) : Fp :=
  let f := w % 2 ^ p
  let e := w / 2 ^ p % 256
  let neg := decide (w / 2 ^ (p + 8) % 2 = 1)
  if e = 255 then (if f = 0 then .inf neg else .nan (decide (f < 2 ^ (p - 1))))
  else if e = 0 then .fin neg f (-126 - p)
  else .fin neg (2 ^ p + f) ((e : Int) - 127 - p)

/-- The canonical quiet NaN (R144). -/
def qnan (p : Nat) : Nat := 255 * 2 ^ p + 2 ^ (p - 1)

/-- The pattern of a sign, a biased exponent field and a fraction. -/
def fpPack (p : Nat) (neg : Bool) (e f : Nat) : Nat := (if neg then 2 ^ (p + 8) else 0) + e * 2 ^ p + f

/-- Rounding modes by their code (Table 9.2): whether a discarded part, compared with one half (0 below, 1 equal, 2 above), takes the
magnitude up. -/
def roundUp (mode : Nat) (neg odd inexact : Bool) (half : Nat) : Bool :=
  if mode = 0 then half == 2 || (half == 1 && odd)
  else if mode = 1 then false
  else if mode = 2 then neg && inexact
  else !neg && inexact

/-- m × 2^k, a little more where sticky is set, as a multiple of 2^q: the rounded multiple and whether it is inexact. -/
def roundAt (mode : Nat) (neg : Bool) (m : Nat) (k : Int) (sticky : Bool) (q : Int) : Nat × Bool :=
  if q ≤ k then (m * 2 ^ (k - q).toNat, sticky)
  else
    let sh := (q - k).toNat
    let keep := m / 2 ^ sh
    let rem := m % 2 ^ sh
    let h := 2 ^ (sh - 1)
    let half := if rem < h then 0 else if rem = h && !sticky then 1 else 2
    let inexact := decide (rem ≠ 0) || sticky
    (if roundUp mode neg (keep % 2 == 1) inexact half then keep + 1 else keep, inexact)

/-- The exponent of the leading bit of m × 2^k. -/
def expOf (m : Nat) (k : Int) : Int := (m.log2 : Int) + k

/-- The overflow result of a mode (Table 9.2). -/
def overflowTo (p mode : Nat) (neg : Bool) : Nat :=
  let toInf := mode == 0 || (mode == 2 && neg) || (mode == 3 && !neg)
  if toInf then fpPack p neg 255 0 else fpPack p neg 254 (2 ^ p - 1)

/-- Round an exact magnitude to p fraction bits (R142, R143). -/
def roundFp (p mode : Nat) (ftz neg : Bool) (m : Nat) (k : Int) (sticky : Bool) : Fl Nat :=
  if m = 0 then (fpPack p neg 0 0, 0)
  else
    let e := expOf m k
    let r := roundAt mode neg m k sticky (e - p)
    let e' := if r.1 = 2 ^ (p + 1) then e + 1 else e
    if 127 < e' then (overflowTo p mode neg, flOF ||| flIX)
    else if e' < -126 then
      if ftz then (fpPack p neg 0 0, flUF ||| flIX)
      else
        let t := roundAt mode neg m k sticky (-126 - p)
        (fpPack p neg 0 t.1, if t.2 then flUF ||| flIX else 0)
    else
      let f := if r.1 = 2 ^ (p + 1) then 0 else r.1 - 2 ^ p
      (fpPack p neg (e' + 127).toNat f, if r.2 then flIX else 0)

/-- A subnormal operand read as zero under flush-to-zero (R143). -/
def ftzIn (p : Nat) (ftz : Bool) (x : Fp) : Fp :=
  match x with
  | .fin n m k => if ftz && decide (m < 2 ^ p) then .fin n 0 k else x
  | _ => x

/-- A signalling NaN. -/
def Fp.isSnan : Fp → Bool
  | .nan s => s
  | _ => false
/-- Any NaN. -/
def Fp.isNan : Fp → Bool
  | .nan _ => true
  | _ => false
/-- The sign of an infinity or a number. -/
def Fp.neg : Fp → Bool
  | .inf n => n
  | .fin n _ _ => n
  | .nan _ => false
/-- A zero. -/
def Fp.isZero : Fp → Bool
  | .fin _ m _ => m == 0
  | _ => false
/-- An infinity. -/
def Fp.isInf : Fp → Bool
  | .inf _ => true
  | _ => false
/-- The value with its sign changed. -/
def Fp.flip : Fp → Fp
  | .nan s => .nan s
  | .inf n => .inf !n
  | .fin n m k => .fin (!n) m k

/-- The format, mode and flush of an operation: fraction bits 23 for FP32 and 7 for BF16. -/
structure FpCtl where
  p    : Nat
  mode : Nat
  ftz  : Bool
deriving DecidableEq, Repr

/-- The canonical NaN with IV where a signalling NaN or an invalid operation asks for it. -/
def nanOut (c : FpCtl) (iv : Bool) : Fl Nat := (qnan c.p, if iv then flIV else 0)

/-- A signed exact sum ±m1 2^k1 ± m2 2^k2: sign, magnitude, exponent; zero has the given sign. -/
def exactSum (zneg : Bool) (n1 : Bool) (m1 : Nat) (k1 : Int) (n2 : Bool) (m2 : Nat) (k2 : Int) : Bool × Nat × Int :=
  let k := min k1 k2
  let a : Int := (m1 * 2 ^ (k1 - k).toNat : Nat)
  let b : Int := (m2 * 2 ^ (k2 - k).toNat : Nat)
  let t := (if n1 then -a else a) + (if n2 then -b else b)
  if t = 0 then (if n1 == n2 then n1 else zneg, 0, k) else (decide (t < 0), t.natAbs, k)

/-- x + y (R142 to R145). -/
def fpAdd (c : FpCtl) (x y : Fp) : Fl Nat :=
  match ftzIn c.p c.ftz x, ftzIn c.p c.ftz y with
  | .nan a, y => nanOut c (a || y.isSnan)
  | _, .nan b => nanOut c b
  | .inf a, .inf b => if a == b then (fpPack c.p a 255 0, 0) else nanOut c true
  | .inf a, _ => (fpPack c.p a 255 0, 0)
  | _, .inf b => (fpPack c.p b 255 0, 0)
  | .fin n1 m1 k1, .fin n2 m2 k2 =>
    let r := exactSum (c.mode == 2) n1 m1 k1 n2 m2 k2
    roundFp c.p c.mode c.ftz r.1 r.2.1 r.2.2 false

/-- x - y. -/
def fpSub (c : FpCtl) (x y : Fp) : Fl Nat := fpAdd c x y.flip

/-- x × y. -/
def fpMul (c : FpCtl) (x y : Fp) : Fl Nat :=
  let x := ftzIn c.p c.ftz x
  let y := ftzIn c.p c.ftz y
  if x.isNan || y.isNan then nanOut c (x.isSnan || y.isSnan)
  else if (x.isInf && y.isZero) || (x.isZero && y.isInf) then nanOut c true
  else if x.isInf || y.isInf then (fpPack c.p (x.neg != y.neg) 255 0, 0)
  else
    match x, y with
    | .fin n1 m1 k1, .fin n2 m2 k2 => roundFp c.p c.mode c.ftz (n1 != n2) (m1 * m2) (k1 + k2) false
    | _, _ => nanOut c false

/-- x × y + z, rounded once; 0 × ∞ sets IV whatever the addend (R144, R145). -/
def fpFma (c : FpCtl) (x y z : Fp) : Fl Nat :=
  let x := ftzIn c.p c.ftz x
  let y := ftzIn c.p c.ftz y
  let z := ftzIn c.p c.ftz z
  let bad := (x.isInf && y.isZero) || (x.isZero && y.isInf)
  if bad then nanOut c true
  else if x.isNan || y.isNan || z.isNan then nanOut c (x.isSnan || y.isSnan || z.isSnan)
  else if x.isInf || y.isInf then
    if z.isInf && z.neg != (x.neg != y.neg) then nanOut c true else (fpPack c.p (x.neg != y.neg) 255 0, 0)
  else if z.isInf then (fpPack c.p z.neg 255 0, 0)
  else
    match x, y, z with
    | .fin n1 m1 k1, .fin n2 m2 k2, .fin n3 m3 k3 =>
      let r := exactSum (c.mode == 2) (n1 != n2) (m1 * m2) (k1 + k2) n3 m3 k3
      roundFp c.p c.mode c.ftz r.1 r.2.1 r.2.2 false
    | _, _, _ => nanOut c false

/-- x / y (R144). -/
def fpDiv (c : FpCtl) (x y : Fp) : Fl Nat :=
  let x := ftzIn c.p c.ftz x
  let y := ftzIn c.p c.ftz y
  let neg := x.neg != y.neg
  if x.isNan || y.isNan then nanOut c (x.isSnan || y.isSnan)
  else if (x.isInf && y.isInf) || (x.isZero && y.isZero) then nanOut c true
  else if x.isInf then (fpPack c.p neg 255 0, 0)
  else if y.isZero then (fpPack c.p neg 255 0, flDZ)
  else if y.isInf then (fpPack c.p neg 0 0, 0)
  else
    match x, y with
    | .fin _ m1 k1, .fin _ m2 k2 =>
      let n := m1 * 2 ^ 80
      roundFp c.p c.mode c.ftz neg (n / m2) (k1 - k2 - 80) (decide (n % m2 ≠ 0))
    | _, _ => nanOut c false

/-- The integer square root by bits from bit i - 1 down. -/
def isqrt (x : Nat) : Nat → Nat → Nat
  | r, 0 => r
  | r, i + 1 => if (r + 2 ^ i) * (r + 2 ^ i) ≤ x then isqrt x (r + 2 ^ i) i else isqrt x r i

/-- The square root (R144, R145). -/
def fpSqrt (c : FpCtl) (x : Fp) : Fl Nat :=
  match ftzIn c.p c.ftz x with
  | .nan s => nanOut c s
  | .inf n => if n then nanOut c true else (fpPack c.p false 255 0, 0)
  | .fin n m k =>
    if m = 0 then (fpPack c.p n 0 0, 0)
    else if n then nanOut c true
    else
      let s : Nat := if k % 2 = 0 then 60 else 61
      let y := m * 2 ^ s
      let r := isqrt y 0 45
      roundFp c.p c.mode c.ftz false r ((k - s) / 2) (decide (r * r ≠ y))

/-- The reciprocal square root (R144, R145). -/
def fpRsqrt (c : FpCtl) (x : Fp) : Fl Nat :=
  match ftzIn c.p c.ftz x with
  | .nan s => nanOut c s
  | .inf n => if n then nanOut c true else (fpPack c.p false 0 0, 0)
  | .fin n m k =>
    if m = 0 then (fpPack c.p n 255 0, flDZ)
    else if n then nanOut c true
    else
      let t : Nat := if k % 2 = 0 then 100 else 101
      let r := isqrt (2 ^ t / m) 0 52
      roundFp c.p c.mode c.ftz false r ((-k - t) / 2) (decide (r * r * m ≠ 2 ^ t))

/-- The reciprocal (R144). -/
def fpRcp (c : FpCtl) (x : Fp) : Fl Nat := fpDiv c (.fin false (2 ^ c.p) (-(c.p : Int))) x

/-- x < y in the order of numbers, -0 below +0 (R145). -/
def fpLess (x y : Fp) : Bool :=
  match x, y with
  | .inf a, .inf b => a && !b
  | .inf a, _ => a
  | _, .inf b => !b
  | .fin n1 m1 k1, .fin n2 m2 k2 =>
    let k := min k1 k2
    let a : Int := (m1 * 2 ^ (k1 - k).toNat : Nat)
    let b : Int := (m2 * 2 ^ (k2 - k).toNat : Nat)
    let a := if n1 then -a else a
    let b := if n2 then -b else b
    if a = b then (n1 && !n2 && a == 0) else decide (a < b)
  | _, _ => false

/-- The pattern of a value that the format holds exactly. -/
def fpEncode (p : Nat) (x : Fp) : Nat :=
  match x with
  | .nan _ => qnan p
  | .inf n => fpPack p n 255 0
  | .fin n m k => (roundFp p 0 false n m k false).1

/-- FMIN and FMAX (R145). -/
def fpMinMax (c : FpCtl) (max : Bool) (x y : Fp) : Fl Nat :=
  let x := ftzIn c.p c.ftz x
  let y := ftzIn c.p c.ftz y
  if x.isNan || y.isNan then nanOut c (x.isSnan || y.isSnan)
  else
    let takeY := if max then fpLess x y else fpLess y x
    (fpEncode c.p (if takeY then y else x), 0)

/-! ### Conversions (Table 9.5) -/

/-- The range of an integer format: bits, signed. -/
def intRange (bits : Nat) (signed : Bool) : Int × Int :=
  if signed then (-(2 ^ (bits - 1)), 2 ^ (bits - 1) - 1) else (0, 2 ^ bits - 1)

/-- A number in w bits. -/
def wrapBits (w : Nat) (x : Int) : Nat := (x % (2 ^ w : Int)).toNat

/-- The two's complement or unsigned value of w bits. -/
def intOf (w : Nat) (signed : Bool) (x : Nat) : Int := if signed && decide (2 ^ (w - 1) ≤ x) then (x : Int) - 2 ^ w else x

/-- Floating point to an integer: a NaN gives 0 and IV, out of range the nearer bound and IV, else inexact sets IX. -/
def fpToInt (c : FpCtl) (bits : Nat) (signed : Bool) (x : Fp) : Fl Nat :=
  let r := intRange bits signed
  match ftzIn c.p c.ftz x with
  | .nan _ => (0, flIV)
  | .inf n => (wrapBits bits (if n then r.1 else r.2), flIV)
  | .fin n m k =>
    let t := roundAt c.mode n m k false 0
    let v : Int := if n then -(t.1 : Int) else t.1
    if v < r.1 then (wrapBits bits r.1, flIV) else if r.2 < v then (wrapBits bits r.2, flIV)
    else (wrapBits bits v, if t.2 then flIX else 0)

/-- An integer to floating point. -/
def intToFp (c : FpCtl) (v : Int) : Fl Nat := roundFp c.p c.mode false (decide (v < 0)) v.natAbs 0 false

/-- An integer in a format of fewer or as many bits: it wraps, or with sat clamps and sets SAT. -/
def intToInt (bits : Nat) (signed sat : Bool) (v : Int) : Fl Nat :=
  if sat then
    let r := intRange bits signed
    let u := clampInt r.1 r.2 v
    (wrapBits bits u, if u = v then 0 else flSAT)
  else (wrapBits bits v, 0)

/-- FP32 or BF16 to the other of the two. -/
def fpToFp (pIn : Nat) (c : FpCtl) (x : Fp) : Fl Nat :=
  match ftzIn pIn c.ftz x with
  | .nan s => nanOut c s
  | .inf n => (fpPack c.p n 255 0, 0)
  | .fin n m k => roundFp c.p c.mode c.ftz n m k false

/-! ### E5M3, T5, S4 (R149 to R151) -/

/-- The value of an E5M3 code as m × 2^k; none for the NaN 0xFF. -/
def e5m3val (c : Nat) : Option (Nat × Int) :=
  if c = 255 then none else if c < 8 then some (c, -17) else some (8 + c % 8, (c / 8 : Nat) - 18)

/-- E5M3 to FP32, exact (Table 9.5). -/
def e5m3ToFp32 (c : Nat) : Nat :=
  match e5m3val c with
  | none => qnan 23
  | some (m, k) => (roundFp 23 0 false false m k false).1

/-- The E5M3 code nearest to a number (R158). -/
def e5m3rn (x : Fp) : Fl Nat :=
  match x with
  | .nan _ => (0xFF, flIV)
  | .inf n => if n then (0xFF, flIV) else (0xFE, flOF ||| flIX)
  | .fin n m k =>
    if m = 0 then (0, 0)
    else if n then (0xFF, flIV)
    else
      let e := max (expOf m k) (-14)
      let r := roundAt 0 false m k false (e - 3)
      let code := (e + 14).toNat * 8 + r.1
      if 255 ≤ code then (0xFE, flOF ||| flIX)
      else if code = 0 then (0, flUF ||| flIX)
      else (code, if r.2 then flIX else 0)

/-- The five trits of a T5 byte, trit 0 first; five zeros for a byte above 242 (R150). -/
def t5dec (b : Nat) : List Int :=
  if 243 ≤ b then [0, 0, 0, 0, 0] else (List.range 5).map fun i => ((b / 3 ^ i % 3 : Nat) : Int) - 1

/-- The T5 byte of five trits (R150). -/
def t5enc (t : List Int) : Nat := t.foldr (fun x acc => (x + 1).toNat + 3 * acc) 0

/-- Element j of an S4 byte (R151). -/
def s4dec (b j : Nat) : Int := intOf 4 true (b / 16 ^ j % 16)

/-- The radix-4 digits of a w-bit weight (R151). -/
def digits4 (x : Int) (w : Nat) : List Int :=
  let u := wrapBits w x
  let b : Nat → Int := fun i => ((u / 2 ^ i % 2 : Nat) : Int)
  (List.range (w / 2)).map fun i => b (2 * i) + (if i = 0 then 0 else b (2 * i - 1)) - 2 * b (2 * i + 1)

/-! ### Quantisation (R152, R153) -/

/-- The integer nearest to n / d, ties to even. -/
def rneDiv (n d : Nat) : Nat :=
  let q := n / d
  let r := n % d
  if 2 * r < d then q else if d < 2 * r then q + 1 else if q % 2 = 0 then q else q + 1

/-- m1 2^k1 ≤ c × m2 2^k2. -/
def leScaled (m1 : Nat) (k1 : Int) (c m2 : Nat) (k2 : Int) : Bool :=
  let k := min k1 k2
  decide (m1 * 2 ^ (k1 - k).toNat ≤ c * m2 * 2 ^ (k2 - k).toNat)

/-- The magnitude of a number as m × 2^k. -/
def Fp.mag : Fp → Nat × Int
  | .fin _ m k => (m, k)
  | _ => (0, 0)

/-- The larger of two magnitudes. -/
def maxMag (a b : Nat × Int) : Nat × Int := if leScaled a.1 a.2 1 b.1 b.2 then b else a

/-- The smallest code from c on, fuel n, whose scale holds amax within 127. -/
def scaleFrom (a : Nat × Int) : Nat → Nat → Nat
  | c, 0 => c
  | c, n + 1 =>
    match e5m3val c with
    | some v => if leScaled a.1 a.2 127 v.1 v.2 then c else scaleFrom a (c + 1) n
    | none => 0xFE

/-- One element over a scale, rounded and clamped to ±127. -/
def quantElem (v : Nat × Int) (x : Fp) : Fl Int :=
  match x with
  | .fin n m k =>
    let e := min k v.2
    let q := rneDiv (m * 2 ^ (k - e).toNat) (v.1 * 2 ^ (v.2 - e).toNat)
    let c := min q 127
    (if n then -(c : Int) else c, if c = q then 0 else flSAT)
  | _ => (0, 0)

/-- quant32: the scale code and the quantised elements (R152). -/
def quant32 (xs : List Fp) : Fl (Nat × List Int) :=
  if xs.any fun x => x.isNan || x.isInf then ((0xFF, xs.map fun _ => 0), flIV)
  else
    let a := (xs.map Fp.mag).foldl maxMag (0, 0)
    if a.1 = 0 then ((0, xs.map fun _ => 0), 0)
    else
      let s := if leScaled a.1 a.2 127 114688 0 then scaleFrom a 1 254 else 0xFE
      let v := (e5m3val s).getD (1, 0)
      let r := xs.map (quantElem v)
      ((s, r.map (·.1)), r.foldl (fun f e => f ||| e.2) 0)

/-- One element of dequant32 as FP32 (R153). -/
def dequant (s : Nat) (q : Int) : Nat :=
  match e5m3val s with
  | none => qnan 23
  | some (m, k) => if q = 0 ∨ m = 0 then 0 else (roundFp 23 0 false (decide (q < 0)) (q.natAbs * m) k false).1

/-! ### The block-scale stage and the lane reduction (R154 to R156) -/

/-- bsupdate: acc + S × sa × sb, rounded once; the flags go to VSTATUS. -/
def bsupdate (acc : Nat) (s : Int) (sa sb : Nat) : Fl Nat :=
  match fpDecode 23 acc, e5m3val sa, e5m3val sb with
  | .nan _, _, _ => (qnan 23, 0)
  | _, none, _ => (qnan 23, 0)
  | _, _, none => (qnan 23, 0)
  | .inf n, _, _ => (fpPack 23 n 255 0, 0)
  | .fin n m k, some (ma, ka), some (mb, kb) =>
    let pm := s.natAbs * ma * mb
    let r := exactSum false n m k (decide (s < 0) && decide (pm ≠ 0)) pm (ka + kb)
    roundFp 23 0 false r.1 r.2.1 r.2.2 false

/-- One halving step of rtree: the first w elements combined with the next w. -/
def rtreeStep (op : Nat → Nat → Fl Nat) (w : Nat) (xs : List Nat) : Fl (List Nat) :=
  let r := List.zipWith op (xs.take w) (xs.drop w)
  (r.map (·.1), r.foldl (fun f e => f ||| e.2) 0)

/-- rtree with n halvings left (R156): 2^n lanes. -/
def rtree (op : Nat → Nat → Fl Nat) : Nat → List Nat → Fl Nat
  | 0, xs => (xs.headD 0, 0)
  | n + 1, xs =>
    let r := rtreeStep op (2 ^ n) xs
    let t := rtree op n r.1
    (t.1, r.2 ||| t.2)

/-! ### The sparsity pattern (R157) -/

/-- The subsets of k elements of lo, lo + 1, …, n of them, in lexicographic order. -/
def subsets : Nat → Nat → Nat → List (List Nat)
  | _, 0, 0 => [[]]
  | _, 0, _ + 1 => []
  | _, _ + 1, 0 => [[]]
  | lo, n + 1, k + 1 => (subsets (lo + 1) n k).map (lo :: ·) ++ subsets (lo + 1) n (k + 1)

/-- One mixing step modulo 2^32. -/
def mixStep (h : BitVec 32) (sh : Nat) : BitVec 32 := h ^^^ (h >>> sh)

/-- The hash of R157. -/
def patternHash (seed c g : BitVec 32) : BitVec 32 :=
  let h := seed ^^^ (c * 0x9E3779B1#32) ^^^ (g * 0x85EBCA77#32)
  let h := mixStep h 16 * 0x7FEB352D#32
  let h := mixStep h 15 * 0x846CA68B#32
  mixStep h 16

/-- The kept positions of a K-group of 8 (R157). -/
def pattern (seed c g : BitVec 32) (dens : Nat) : List Nat :=
  if dens = 8 then List.range 8
  else
    let n := if dens = 4 then 70 else 28
    ((subsets 0 8 dens)[(patternHash seed c g).toNat % n]?).getD []

end Sys2Proof.Machine
end

