-- ==== Sys2Proof/Machine/Reduce.lean ====
section
/-! DEFINITION. Reduction units, time-slot tables and combine trees (R222, R302 to R306, R327 to R335). -/
namespace Sys2Proof.Machine

/-! ### One element (R222, R327, R328) -/

/-- RNE without flush, for FP32 or BF16 by tag. -/
def redCtl (tag : Nat) : FpCtl := ⟨if tag = 2 then 7 else 23, 0, false⟩

/-- old combined with new under a reduce operation, 0 sum, 1 ssum, 2 max, 3 min: the result, and whether it overflowed or clamped. -/
def combineElem (tag op old new : Nat) : Nat × Bool :=
  if tag = 3 then
    let a := intOf 32 true old
    let b := intOf 32 true new
    if op = 0 then (wrapBits 32 (a + b), false)
    else if op = 1 then
      let r := clampInt (-(2 ^ 31)) (2 ^ 31 - 1) (a + b)
      (wrapBits 32 r, decide (r ≠ a + b))
    else (wrapBits 32 (if op = 2 then max a b else min a b), false)
  else
    let c := redCtl tag
    let x := fpDecode c.p old
    let y := fpDecode c.p new
    if op = 0 then
      let r := (fpAdd c x y).1
      (r, !x.isInf && !x.isNan && !y.isInf && !y.isNan && (fpDecode c.p r).isInf)
    else ((fpMinMax c (op == 2) x y).1, false)

/-- The identity of an operation that a node without inputs forwards (Table 11.3, R304). -/
def redIdentity (tag op : Nat) : Nat :=
  if tag = 3 then (if op = 2 then 0x8000_0000 else if op = 3 then 0x7FFF_FFFF else 0)
  else
    let p := if tag = 2 then 7 else 23
    if op = 2 then fpPack p true 255 0 else if op = 3 then fpPack p false 255 0 else fpPack p true 0 0

/-- Combine n elements of e bytes at a key with those of a number, lowest first; whether any overflowed. -/
def combineRun (tag op e : Nat) (m : Memory) : Nat → Nat → Nat → Bool → Memory × Bool
  | _, 0, _, o => (m, o)
  | k, n + 1, v, o =>
    let r := combineElem tag op (rdN m k e) (v % 2 ^ (8 * e))
    combineRun tag op e (wrN m k e r.1) (k + e) n (v / 2 ^ (8 * e)) (o || r.2)

/-- A combine into a core's scratchpad sets its REDSTAT.OVF (R329). -/
def combineSp (s : State) (p a n v tag op : Nat) : State :=
  let e := elemSize tag
  let r := combineRun tag op e s.mem (spKey p a) (n / e) v false
  let s := { s with mem := r.1 }
  if r.2 then s.upCo p fun x => { x with redstat := x.redstat ||| 1 } else s

/-- A combine at the home of a global line: whether it overflowed, or the cause and DETAIL of a fault. A sync object's line takes no store
(R315). -/
def combineHome (s : State) (req c ea n v tag op : Nat) : Except HomeFail (State × Bool) :=
  match spanFault s req c ea n 6, resolve s req c ea 6 with
  | some e, _ => .error ⟨e.1, detailOf e.1, e.2, noteXlat s req c e.2 6⟩
  | none, .error e => .error ⟨e, detailOf e, ea, s⟩
  | none, .ok key =>
    if !gateOpen s c then .ok (s, false)
    else if lineUncorrectable s key then .error ⟨0x22, 1, ea, noteAccess s req c ea 6 key⟩
    else if isObjHome s key then .ok (s, false)
    else
      let s := noteAccess s req c ea 6 key
      let e := elemSize tag
      let r := combineRun tag op e s.mem key (n / e) v false
      .ok (clearEcc (keyWrite s key n (rdN r.1 key n) (2 ^ n - 1)) (key - key % 64), r.2)

/-- Combine n bytes at a global address: at the home of their line; an element that straddles two lines is read from both and written to
both. -/
def combineSpan (s : State) (req c ea n v tag op : Nat) : Except HomeFail (State × Bool) :=
  if ea % 64 + n ≤ 64 then combineHome s req c ea n v tag op
  else
    match globalRead req c 3 ea n s with
    | .error e => .error ⟨e.1, detailOf e.1, e.2, s⟩
    | .ok (old, bad, s) =>
      if bad then .error ⟨0x22, 1, ea, s⟩
      else
        let r := combineElem tag op old v
        (globalWrite req c 3 ea n r.1 s).map fun s => (s, r.2)

/-! ### Time-slot tables (R334, R335) -/

/-- Table i of a context. -/
def slotTab (s : State) (c i : Nat) : SlotTab := tget s.slots (c * 64 + i) SlotTab.reset

/-- The key of word w of table i. -/
def slotKey (c i w : Nat) : Nat := cwinKey c (0x1B28_0000 + 4096 * i + 8 * w)

/-- The loaded table whose range holds an address. -/
def slotFor (s : State) (c ea : Nat) : Option Nat :=
  (List.range 64).find? fun i => decide ((slotTab s c i).base ≤ ea) && decide (ea < (slotTab s c i).base + (slotTab s c i).len)

/-- Count in a field of a word, saturating. -/
def countField (s : State) (key lo bits : Nat) : State :=
  let w := rdN s.mem key 8
  let f := bitsOf w (lo + bits - 1) lo
  s.put64 key (w - f * 2 ^ lo + satInc f bits * 2 ^ lo)

/-- A request of a copy record is over: one fewer outstanding. -/
def flightDone (s : State) (p : Nat) (q : BitVec 2) (slot : BitVec 32) (err : Bool) (stat : BitVec 8) : State :=
  s.upCo p fun x =>
    let v := x.queue q
    x.setQueue q { v with flight := v.flight.map fun f =>
      if f.slot = slot then { f with pend := f.pend - 1, err := f.err || err, stat := if f.err then f.stat else stat } else f }

/-- INFLIGHT of a context's table status follows its messages in arrival (Table 14.6). -/
def syncInflight (s : State) (c : Nat) : State :=
  let n := (s.rx.filter fun m => m.ctx == c && !m.failed && m.ent != 2 ^ 20).length
  if rdN s.mem (cwinKey c (0x1A00_0000 + 40)) 8 = n then s else s.put64 (cwinKey c (0x1A00_0000 + 40)) n

/-- The match entry's milestone, if the message counts (Table 12.2). -/
def RxMsg.ms (m : RxMsg) : Option Nat := let w := m.line.extractLsb' 384 64; if w.getLsbD 20 then some (w.toNat % 2 ^ 20) else none

/-- The event of an unmatched message (Table 13.2). -/
def RxMsg.event (m : RxMsg) : Ev :=
  { kind := 1, arg := BitVec.ofNat 64 (m.conn % 2 ^ 20 + m.op % 256 * 2 ^ 20), tag := if m.op = 2 then m.tag else 0, len := m.len, ptime := 0,
    fctx := 0, data := m.buf, asker := none }

/-- Every byte of a message has been placed. -/
def RxMsg.whole (m : RxMsg) : Bool := decide (m.len ≤ m.got) && m.left == 0

/-- The first message in arrival that is over: placed wholly, and in ordered mode with no earlier one of its connection unfinished. -/
def nextWhole : List RxMsg → List RxMsg → Option RxMsg
  | _, [] => none
  | before, m :: ms =>
    if m.whole && !m.failed && (m.lane == none || !(before.any fun b => b.lane == m.lane && !b.failed)) then some m
    else nextWhole (before ++ [m]) ms

/-- Count the messages that are over (R234, R251, R265), fuel n. -/
def finishMsgs : Nat → State → State
  | 0, s => s
  | n + 1, s =>
    match nextWhole [] s.rx with
    | none => s
    | some m =>
      let s := { s with rx := s.rx.filter fun x => x.id != m.id }
      if m.ent = 2 ^ 20 then finishMsgs n (pushEvent s m.ctx m.event)
      else finishMsgs n (syncInflight { s with incs := s.incs ++ (m.ms.map fun k => (⟨m.ctx, k, 1, m.lane, some m.conn⟩ : Inc)).toList } m.ctx)

/-- One held contribution of a message has been combined or discarded. -/
def msgPiece (s : State) (id : Nat) : State :=
  let s := { s with rx := s.rx.map fun m => if m.id = id then { m with left := m.left - 1 } else m }
  finishMsgs (s.rx.length + 1) s

/-- The contributions of a message that wait for their turns are dropped. -/
def dropHeldOf (s : State) (id : Nat) : State :=
  { s with slots := s.slots.map fun e => (e.1, { e.2 with lines := e.2.lines.map fun l => (l.1, { l.2 with held := l.2.held.filter (·.msg != some id) }) }) }

/-- A landing failure (R266): counted in the table status; the message is not counted, and what it still holds for a time slot is dropped. -/
def landFail (s : State) (id : Nat) : State :=
  match s.rx.find? fun m => m.id == id with
  | none => s
  | some m =>
    let s := tsRecord (dropHeldOf s id) m.ctx 3 m.ent
    syncInflight { s with rx := s.rx.map fun x => if x.id = id then { x with failed := true, left := 0 } else x } m.ctx

/-- A reduce landing of a message overflows: once for each message, NOVF of its context's REDOVF counts it and LASTENT names its entry
(R329, Table 18.2). -/
def landOverflow (s : State) (id : Nat) : State :=
  match s.rx.find? fun m => m.id == id with
  | none => s
  | some m =>
    let k := cwinKey m.ctx 0x1B20_0000
    if m.ovf then s
    else
      { s.put64 k (satInc (bitsOf (rdN s.mem k 8) 63 32) 32 * 2 ^ 32 + m.ent % 2 ^ 20) with
        rx := s.rx.map fun x => if x.id = id then { x with ovf := true } else x }

/-- A home slice combines a contribution; overflow goes to the issuing core's REDSTAT.GOVF or to REDOVF (R329). -/
def combineHeld (s : State) (c : Nat) (h : Held) : State :=
  match combineSpan s 0xFFFF c h.ea h.n h.v h.fmt h.op with
  | .error e =>
    match h.ref with
    | some r => e.st.memFault c (e.addr / 2 ^ 56) r.1 e.cause e.detail (BitVec.ofNat 64 e.addr)
    | none =>
      if e.cause = 0x22 then msgPiece (e.st.memFault c (e.addr / 2 ^ 56) 0xFFF e.cause e.detail (BitVec.ofNat 64 e.addr)) (h.msg.getD 0)
      else landFail e.st (h.msg.getD 0)
  | .ok (s, o) =>
    match h.ref with
    | some (p, slot) =>
      let s := if o then s.upCo p fun x => { x with redstat := x.redstat ||| 2 } else s
      if h.orphan then s else flightDone s p 2#2 slot false 0
    | none =>
      let id := h.msg.getD 0
      msgPiece (if o then landOverflow s id else s) id

/-- Of the contributions that time-slot tables hold, those that are to stay, by context. -/
def State.keepHeld (s : State) (keep : Nat → Held → Bool) : State :=
  { s with slots := s.slots.map fun e =>
      (e.1, { e.2 with lines := e.2.lines.map fun l => (l.1, { l.2 with held := l.2.held.filter (keep (e.1 / 64)) }) }) }

/-- Every contribution that time-slot tables hold, changed. -/
def State.mapHeld (s : State) (f : Held → Held) : State :=
  { s with slots := s.slots.map fun e => (e.1, { e.2 with lines := e.2.lines.map fun l => (l.1, { l.2 with held := l.2.held.map f }) }) }

/-- A contribution is discarded: it is acknowledged, and counts as landed (R335). -/
def dropHeld (s : State) (h : Held) : State :=
  match h.ref with
  | some (p, slot) => if h.orphan then s else flightDone s p 2#2 slot false 0
  | none => msgPiece s (h.msg.getD 0)

/-- The pieces of h's contribution that a line holds: a copy record's is one piece. -/
def SlotLine.pieces (l : SlotLine) (h : Held) : List Held := if h.msg.isNone then [h] else l.held.filter fun g => g.msg == h.msg

/-- What a line holds beside h's contribution. -/
def SlotLine.rest (l : SlotLine) (h : Held) : List Held := if h.msg.isNone then l.held.erase h else l.held.filter fun g => g.msg != h.msg

/-- A line holds every piece of h's contribution to it. -/
def SlotLine.complete (l : SlotLine) (h : Held) : Bool := ((l.pieces h).map (·.n)).sum == h.total

/-- The turn of a line of n slots goes on, past a slot that is skipped or whose contribution has been taken; what it holds then. -/
def SlotLine.advance (l : SlotLine) (n now : Nat) (skip : Bool) (held : List Held) : SlotLine :=
  let last := decide (l.turn + 1 = n)
  { turn := if last then 0 else l.turn + 1, since := now,
    skipped := if last && !held.isEmpty then [] else if skip then l.skipped ++ [l.turn] else l.skipped, held := held }

/-- Give a line of table i. -/
def putLine (s : State) (c i line : Nat) (l : SlotLine) : State :=
  let t := slotTab s c i
  { s with slots := tput s.slots (c * 64 + i) { t with lines := tput t.lines line l SlotLine.reset } SlotTab.reset }

/-- Combine what is held for the line's turn, one slot after another, fuel n. -/
def slotDrain (c i line : Nat) : Nat → State → State
  | 0, s => s
  | n + 1, s =>
    let t := slotTab s c i
    let l := tget t.lines line SlotLine.reset
    match l.held.find? fun h => t.srcs.idxOf h.src == l.turn && l.complete h with
    | none => s
    | some h =>
      let s := putLine s c i line (l.advance t.srcs.length s.ns false (l.rest h))
      slotDrain c i line n ((l.pieces h).foldl (fun s g => combineHeld s c g) s)

/-- A contribution reaches a line of a table's range (R335): an unlisted source and a skipped slot are discarded. -/
def slotArrive (s : State) (c i : Nat) (h : Held) : State :=
  let t := slotTab s c i
  let line := h.ea / 64
  let l := tget t.lines line SlotLine.reset
  let sl := t.srcs.idxOf h.src
  if sl = t.srcs.length then dropHeld (if h.fin then countField s (slotKey c i 3) 32 32 else s) h
  else if l.skipped.contains sl then dropHeld (if h.fin then countField s (slotKey c i 3) 0 32 else s) h
  else
    let l' : SlotLine :=
      { l with held := l.held ++ [h], since := if l.held = [] then s.ns else l.since,
               skipped := if l.turn = 0 ∧ l.held = [] then [] else l.skipped }
    slotDrain c i line (t.srcs.length + 1) (putLine s c i line l')

/-- SLOT_TIMEOUT: a line of a table whose turn has waited TMO ns skips the slot; what has come of that slot's contribution is discarded with
the rest of it (R335). The subject is context × 64 + table. -/
def execSlotTimeout (line : Nat) (s : State) : Out :=
  .next <|
    let c := s.cur / 64
    let i := s.cur % 64
    let t := slotTab s c i
    let l := tget t.lines line SlotLine.reset
    if l.held = [] ∨ s.ns < l.since + t.tmo then s
    else
      let late := l.held.filter fun h => t.srcs.idxOf h.src == l.turn
      let s := putLine (countField s (slotKey c i 2) 0 32) c i line
        (l.advance t.srcs.length s.ns true (l.held.filter fun h => t.srcs.idxOf h.src != l.turn))
      let s := if late.any (·.fin) then countField s (slotKey c i 3) 0 32 else s
      slotDrain c i line (t.srcs.length + 1) (late.foldl dropHeld s)

/-- Take the first request of a kind that a store has made. -/
def takeAct {α : Type} (f : Act → Option α) (s : State) : Option (α × State) :=
  match s.acts.findIdx? fun a => (f a).isSome with
  | none => none
  | some k => (s.acts[k]?.bind f).map fun a => (a, { s with acts := s.acts.eraseIdx k })

/-- A source of a slot is well formed (Table 18.4). -/
def srcOk (x : Nat) : Bool :=
  if x / 2 ^ 30 = 0 then x % 2 ^ 30 < 2 ^ 11 else x / 2 ^ 30 == 1 && decide (x % 2 ^ 30 < 2 ^ 20)

/-- Bytes 4,096 of a table beyond the listed sources are zero. -/
def slotTail (s : State) (c i n : Nat) : Bool :=
  (List.range (1008 - n)).all fun k => rdN s.mem (slotKey c i 0 + 64 + 4 * (n + k)) 4 == 0

/-- The sources of a table. -/
def slotSrcs (s : State) (c i n : Nat) : List Nat := (List.range n).map fun k => rdN s.mem (slotKey c i 0 + 64 + 4 * k) 4

/-- The checks of R334. -/
def slotOk (s : State) (c i : Nat) : Bool :=
  let w0 := rdN s.mem (slotKey c i 0) 8
  let w1 := rdN s.mem (slotKey c i 1) 8
  let base := bitsOf w0 61 0
  let len := bitsOf w1 63 32
  let n := bitsOf (rdN s.mem (slotKey c i 2) 8) 53 44
  let srcs := slotSrcs s c i n
  base % 64 == 0 && len % 64 == 0 && decide (64 ≤ len) && decide (len ≤ 2 ^ 31) && !badForm base && (base + len - 1) / 2 ^ 56 == base / 2 ^ 56 &&
  decide (1000 ≤ bitsOf w1 31 0) && decide (bitsOf w1 31 0 ≤ 10_000_000) &&
  ((List.range 64).all fun k => k == i || (slotTab s c k).len == 0 || decide ((slotTab s c k).base + (slotTab s c k).len ≤ base) ||
    decide (base + len ≤ (slotTab s c k).base)) &&
  decide (1 ≤ n) && decide (n ≤ 1008) && decide srcs.Nodup && srcs.all srcOk && slotTail s c i n &&
  (let w2 := rdN s.mem (slotKey c i 2) 8; bitsOf w2 63 54 == 0 && bitsOf w2 43 32 == 0) &&
  ([4, 5, 6, 7].all fun w => rdN s.mem (slotKey c i w) 8 == 0)

/-- The state of a table's former load is discarded: what its lines hold is acknowledged (R334, R335). -/
def clearSlots (s : State) (c i : Nat) : State :=
  ((slotTab s c i).lines.flatMap (·.2.held)).foldl dropHeld { s with slots := tput s.slots (c * 64 + i) SlotTab.reset SlotTab.reset }

/-- TIMESLOT_LOAD: the table whose word 0 was stored with VALID is loaded, or BAD is set (R334). -/
def execTimeslotLoad (s : State) : Out :=
  .next <|
    match takeAct (fun a => match a with | .timeslot c i => some (c, i) | _ => none) s with
    | none => s
    | some ((c, i), s) =>
      let w0 := rdN s.mem (slotKey c i 0) 8
      let w1 := rdN s.mem (slotKey c i 1) 8
      let s0 := clearSlots s c i
      if slotOk s0 c i then
        let t : SlotTab :=
          { base := bitsOf w0 61 0, len := bitsOf w1 63 32, tmo := bitsOf w1 31 0,
            srcs := slotSrcs s c i (bitsOf (rdN s.mem (slotKey c i 2) 8) 53 44), lines := [] }
        { s0.put64 (slotKey c i 0) (2 ^ 63 + w0 % 2 ^ 62) with slots := tput s0.slots (c * 64 + i) t SlotTab.reset }
      else s0.put64 (slotKey c i 0) (2 ^ 62 + w0 % 2 ^ 62)

/-! ### Combine trees -/

/-- The key of word w of tree t's entry. -/
def treeKey (c t w : Nat) : Nat := cwinKey c (0x1B00_0000 + 2048 * t + 8 * w)

/-- The words of a tree's entry (Table 18.3): header and node words, as they stand in memory. -/
def treeEntry (s : State) (c t : Nat) : List Nat := (List.range 136).map fun w => rdN s.mem (treeKey c t w) 8

/-- Word w of an entry. -/
def treeEntWord (e : List Nat) (w : Nat) : Nat := e[w]?.getD 0

/-- Node word j of an entry. -/
def nodeWord (e : List Nat) (j : Nat) : Nat := treeEntWord e (8 + j / 2) / 2 ^ (32 * (j % 2)) % 2 ^ 32

/-- Core j is a node. -/
def isNode (e : List Nat) (j : Nat) : Bool := nodeWord e j / 2 ^ 16 % 2 == 1
/-- Core j is the root. -/
def isRoot (e : List Nat) (j : Nat) : Bool := nodeWord e j / 2 ^ 17 % 2 == 1
/-- The parent of core j. -/
def parentOf (e : List Nat) (j : Nat) : Nat := nodeWord e j % 256
/-- Core j's place among its parent's children. -/
def orderOf (e : List Nat) (j : Nat) : Nat := nodeWord e j / 256 % 256

/-- The nodes that name j as their parent, in increasing ORDER. -/
def childrenOf (e : List Nat) (j : Nat) : List Nat :=
  ((List.range 256).filter fun k => isNode e k && !isRoot e k && parentOf e k == j).mergeSort
    fun a b => decide (orderOf e a ≤ orderOf e b)

/-- The height of a node (R332), fuel n. -/
def heightOf (e : List Nat) : Nat → Nat → Nat
  | 0, _ => 0
  | n + 1, j => ((childrenOf e j).map fun k => heightOf e n k + 1).foldl max 0

/-- Following PARENT from j reaches the root, fuel n. -/
def reachesRoot (e : List Nat) : Nat → Nat → Bool
  | 0, _ => false
  | n + 1, j => isRoot e j || reachesRoot e n (parentOf e j)

/-- The cores of the subtree of j, as a mask, fuel n. -/
def subtreeMask (e : List Nat) : Nat → Nat → BitVec 256
  | 0, _ => 0
  | n + 1, j => (childrenOf e j).foldl (fun m k => m ||| subtreeMask e n k) (1#256 <<< j)

/-- Run-time state of a tree. -/
def treeRun (s : State) (c t : Nat) : TreeRun := tget s.trees (c * 1024 + t) TreeRun.reset

/-- Give a tree's run-time state. -/
def putTree (s : State) (c t : Nat) (x : TreeRun) : State := { s with trees := tput s.trees (c * 1024 + t) x TreeRun.reset }

/-- A node of a tree in its round. -/
def TreeRun.node (x : TreeRun) (j : Nat) : NodeRun := tget x.nodes j NodeRun.reset

/-- The format, the operation, and the elements per round of a tree's entry. -/
def treeShape (e : List Nat) : Nat × Nat × Nat :=
  let fmt := bitsOf (treeEntWord e 0) 55 48
  (fmt, bitsOf (treeEntWord e 0) 57 56, bitsOf (treeEntWord e 1) 12 0 / elemSize fmt)

/-- TMO of a tree's entry. -/
def treeTmo (e : List Nat) : Nat := bitsOf (treeEntWord e 1) 63 32

/-- The conditions of R331, of the entry as a load reads it. -/
def treeOk (e : List Nat) : Bool :=
  let w0 := treeEntWord e 0
  let w1 := treeEntWord e 1
  let fmt := bitsOf w0 55 48
  let span := bitsOf w1 12 0
  let doff := bitsOf w0 21 0
  let ks := List.range 256
  let nodes := ks.filter fun j => isNode e j
  let roots := ks.filter fun j => isRoot e j
  roots.length == 1 && (roots.all fun j => isNode e j && parentOf e j == j) &&
  (nodes.all fun j => isNode e (parentOf e j) && reachesRoot e 256 j && nodeWord e j / 2 ^ 18 == 0) &&
  (nodes.all fun j => nodes.all fun k => j == k || isRoot e j || isRoot e k || parentOf e j != parentOf e k || orderOf e j != orderOf e k) &&
  (ks.all fun j => isNode e j || nodeWord e j == 0) &&
  (fmt == 1 || fmt == 2 || fmt == 3) && (bitsOf w0 57 56 != 1 || fmt == 3) &&
  decide (100 ≤ bitsOf w1 63 32) && decide (bitsOf w1 63 32 ≤ 10_000_000) && span % 64 == 0 && decide (64 ≤ span) && decide (span ≤ 4096) &&
  doff % 64 == 0 && decide (doff + span + 64 ≤ 0x40_0000) && bitsOf w1 31 13 == 0 && bitsOf w0 60 58 == 0 && bitsOf w0 34 22 == 0 &&
  treeEntWord e 2 % 2 ^ 32 == 0 && ([3, 4, 5, 6, 7].all fun w => treeEntWord e w == 0)

/-- Words of a delivery are landing one by one: those of an APUT's issue that ends its round (R303, R326). -/
def delivering (s : State) : Bool :=
  s.core.any fun e => e.2.cq.landed != [] && (match e.2.cq.current with | some f => f.hdr.extractLsb' 52 12 == 0x214#12 | none => false)

/-- TREE_LOAD: the tree whose word 0 was stored with VALID is loaded from its entry as it stands, or BAD is set and CLOSED stays; the old
tree's rounds and binding end (R331). While a delivery is landing it waits. -/
def execTreeLoad (s : State) : Out :=
  .next <|
    if delivering s then s
    else
    match takeAct (fun a => match a with | .tree c t => some (c, t) | _ => none) s with
    | none => s
    | some ((c, t), s) =>
      let e := treeEntry s c t
      if treeOk e then
        putTree ((s.put64 (treeKey c t 0) (2 ^ 63 + treeEntWord e 0 % 2 ^ 61)).put64 (treeKey c t 2) 0) c t { loaded := true, entry := e, team := none, nodes := [] }
      else putTree (s.put64 (treeKey c t 0) (2 ^ 62 + treeEntWord e 0 % 2 ^ 62)) c t TreeRun.reset

/-- CLOSED of a tree. -/
def treeClosed (s : State) (c t : Nat) : Bool := bitsOf (rdN s.mem (treeKey c t 0) 8) 61 61 == 1

/-- Set CLOSED. -/
def closeTree (s : State) (c t : Nat) : State :=
  let w := rdN s.mem (treeKey c t 0) 8
  if bitsOf w 61 61 = 1 then s else s.put64 (treeKey c t 0) (w + 2 ^ 61)

/-- What a node combines for an element, its own contribution first, then its children's values in order; none where it holds no
input. -/
def nodeInputs (x : NodeRun) (kids : List Nat) (e : Nat) : List Nat :=
  (tget x.own e none).toList ++ kids.filterMap fun k => tget x.kids (k * 4096 + e) none

/-- The combination of inputs in listed order, and whether one addition overflowed. -/
def combineList (tag op : Nat) : List Nat → Nat × Bool
  | [] => (redIdentity tag op, false)
  | v :: vs => vs.foldl (fun a w => let r := combineElem tag op a.1 w; (r.1, a.2 || r.2)) (v, false)

/-- Bytes of the elements that the root has combined, from element e on, n of them. -/
def spanBytes (x : NodeRun) (es e : Nat) : Nat → Nat
  | 0 => 0
  | n + 1 => (tget x.sent e none).getD 0 + 2 ^ (8 * es) * spanBytes x es (e + 1) n

/-- The root delivers a round (R303 to R305): the span, the status block, ROUND, and the destination semaphore; a nonzero MISSING mask
sets ERR and closes the tree. Every node goes on to the next round, whose timer has run since its first input came. -/
def deliverTree (s : State) (c t : Nat) (root : NodeRun) : State :=
  let x := treeRun s c t
  let w0 := treeEntWord x.entry 0
  let sh := treeShape x.entry
  let es := elemSize sh.1
  let span := sh.2.2 * es
  let rounds := (bitsOf (rdN s.mem (treeKey c t 2) 8) 63 32 + 1) % 2 ^ 32
  let mis := decide (root.missing ≠ 0)
  let s := s.put64 (treeKey c t 2) (rounds * 2 ^ 32)
  let s := match x.team.bind s.tm with
    | none => s
    | some tm =>
      match tm.cores[bitsOf w0 47 40]? with
      | none => s
      | some p =>
        let doff := bitsOf w0 21 0
        let s := spWrite s p doff span (spanBytes root es 0 sh.2.2)
        let w4 := rounds * 2 ^ 32 + (if root.ovf then 2 else 0) + (if mis then 1 else 0)
        let s := spWrite s p (doff + span) 64 (root.missing.toNat + 2 ^ 256 * w4)
        s.upCo p fun x => x.raise (bitsOf w0 39 35) mis
  let s := if mis then closeTree s c t else s
  putTree s c t { x with nodes := x.nodes.filterMap fun e =>
    if mis || e.2.next = [] then none else some (e.1, { NodeRun.reset with own := e.2.next, since := e.2.nextAt }) }

/-- A node forwards elements to its parent, with its mask and its overflow. -/
def forward (x : TreeRun) (j now : Nat) (es : List Nat) : TreeRun :=
  let v := x.node j
  let pj := parentOf x.entry j
  let u := x.node pj
  let u := { u with
    kids := es.foldl (fun k e => tins k (j * 4096 + e) (tget v.sent e none)) u.kids
    since := some (u.since.getD now), missing := u.missing ||| v.missing, ovf := u.ovf || v.ovf }
  { x with nodes := tput x.nodes pj u NodeRun.reset }

/-- A node combines the inputs that it holds of elements, in listed order. -/
def TreeRun.combine (x : TreeRun) (v : NodeRun) (kids es : List Nat) : NodeRun :=
  let sh := treeShape x.entry
  es.foldl (fun (v : NodeRun) e =>
    let r := combineList sh.1 sh.2.1 (nodeInputs v kids e)
    { v with sent := tins v.sent e (some r.1), ovf := v.ovf || r.2 }) v

/-- Forward from node j what has all its inputs, and so on towards the root, fuel n. -/
def settle (c t : Nat) : Nat → Nat → State → State
  | 0, _, s => s
  | n + 1, j, s =>
    let x := treeRun s c t
    let v := x.node j
    let sh := treeShape x.entry
    let kids := childrenOf x.entry j
    let ready := (List.range sh.2.2).filter fun e =>
      (tget v.sent e none).isNone && (nodeInputs v kids e).length == kids.length + 1
    let v' := x.combine v kids ready
    let x := { x with nodes := tput x.nodes j v' NodeRun.reset }
    let s := putTree s c t x
    if isRoot x.entry j then (if v'.sent.length = sh.2.2 then deliverTree s c t v' else s)
    else if ready = [] then s
    else settle c t n (parentOf x.entry j) (putTree s c t (forward x j s.ns ready))

/-- After a round has been delivered, the contributions held for the next one move up. -/
def settleAll (c t : Nat) (s : State) : State :=
  (treeRun s c t).nodes.foldl (fun s e => settle c t 257 e.1 s) s

/-- A contribution of elements to node j (R303): none where one of them would need a second round ahead. -/
def contribute (s : State) (c t j : Nat) (es : List (Nat × Nat)) : Option State :=
  let x := treeRun s c t
  let v := x.node j
  if es.any fun e => ((tget v.own e.1 none).isSome || (tget v.sent e.1 none).isSome) && (tget v.next e.1 none).isSome then none
  else
    let v := es.foldl (fun (v : NodeRun) e =>
      if (tget v.own e.1 none).isSome || (tget v.sent e.1 none).isSome then
        { v with next := tins v.next e.1 (some e.2), nextAt := some (v.nextAt.getD s.ns) }
      else { v with own := tins v.own e.1 (some e.2), since := some (v.since.getD s.ns) }) v
    some (settleAll c t (settle c t 257 j (putTree s c t { x with nodes := tput x.nodes j v NodeRun.reset })))

/-- The cores whose contribution node j has not seen when its time is up (R304, Table 16.6): its own core where it contributed no element,
and the subtree of each child that forwarded none. -/
def absentMask (x : TreeRun) (j n : Nat) : BitVec 256 :=
  let v := x.node j
  (childrenOf x.entry j).foldl (fun m k =>
    if (List.range n).all fun e => (tget v.kids (k * 4096 + e) none).isNone then m ||| subtreeMask x.entry 256 k else m)
    (if v.own = [] then 1#256 <<< j else 0)

/-- NODE_TIMEOUT: node j of the subject tree, context × 1,024 + tree, ends its part of the round (h + 1) × TMO ns after its first input
(R304). While a delivery is landing it waits. -/
def execNodeTimeout (j : Nat) (s : State) : Out :=
  .next <|
    if delivering s then s
    else
    let c := s.cur / 1024
    let t := s.cur % 1024
    let x := treeRun s c t
    let v := x.node j
    match v.since with
    | none => s
    | some t0 =>
      let n := (treeShape x.entry).2.2
      if !x.loaded || !isNode x.entry j || v.sent.length = n || decide (s.ns < t0 + (heightOf x.entry 256 j + 1) * treeTmo x.entry) then s
      else
        let es := (List.range n).filter fun e => (tget v.sent e none).isNone
        let v := x.combine { v with missing := v.missing ||| absentMask x j n } (childrenOf x.entry j) es
        let x := { x with nodes := tput x.nodes j v NodeRun.reset }
        if isRoot x.entry j then settleAll c t (deliverTree (putTree s c t x) c t v)
        else settleAll c t (settle c t 257 (parentOf x.entry j) (putTree s c t (forward x j s.ns es)))

/-- The trees that are bound to a team. -/
def boundTrees (s : State) (tid : Nat) : List Nat := (s.trees.filter fun e => e.2.team == some tid).map (·.1)

/-- A binding ends: open rounds are discarded, the tree stays loaded (R332). -/
def unbindTrees (s : State) (tid : Nat) : State :=
  (boundTrees s tid).foldl (fun s k => { s with trees := tput s.trees k { (tget s.trees k TreeRun.reset) with team := none, nodes := [] } TreeRun.reset }) s

/-- A team with a bound tree is suspended (R333): an open round is discarded, the tree closes and ERR is set on DSEM of the destination
task. -/
def suspendTrees (s : State) (tid : Nat) : State :=
  (boundTrees s tid).foldl (fun s k =>
    let x := tget s.trees k TreeRun.reset
    if x.nodes = [] then s
    else
      let w0 := treeEntWord x.entry 0
      let s := closeTree { s with trees := tput s.trees k { x with nodes := [] } TreeRun.reset } (k / 1024) (k % 1024)
      match (s.tm tid).bind fun t => t.cores[bitsOf w0 47 40]? with
      | some p => s.upCo p fun y => let d := bitsOf w0 39 35; y.setSem d { y.sem d with err := true }
      | none => s) s

end Sys2Proof.Machine
end

