-- ==== Sys2Proof/Machine/Match.lean ====
section
/-! DEFINITION. The matching, landing and counting of messages (R231 to R234, R242, R243, R262 to R269). -/
namespace Sys2Proof.Machine

/-! ### Match entries (Tables 12.2, 14.3, 14.4) -/

/-- The numbers of the match entries whose VALID bit is set, rising. -/
def validEntries (s : State) : List Nat :=
  s.mem.filterMap fun e =>
    if winKey 0x0200_0000 ≤ e.1 ∧ e.1 < winKey 0x0400_0000 ∧ (e.1 - winKey 0) % 64 = 7 ∧ 128 ≤ e.2.toNat then some ((e.1 - winKey 0) / 64)
    else none

/-- The line of an entry. -/
def entryLine (s : State) (i : Nat) : BitVec 512 := BitVec.ofNat 512 (rdN s.mem (winKey (64 * i)) 64)

/-- Word j of an entry's line. -/
def lineWord (l : BitVec 512) (j : Nat) : Nat := (l.extractLsb' (64 * j) 64).toNat

/-- The format and the reduce operation of a RED code. -/
def redCode (r : Nat) : Option (Nat × Nat) :=
  if r = 1 then some (1, 0) else if r = 2 then some (2, 0) else if r = 3 then some (3, 0) else if r = 4 then some (3, 1)
  else if r = 5 then some (1, 2) else if r = 6 then some (1, 3) else if r = 7 then some (3, 2) else if r = 8 then some (3, 3) else none

/-- A landing span of n bytes at an entry's start lies in its landing space (R264, Table 14.4). -/
def landOk (s : State) (c : Nat) (l : BitVec 512) (n : Nat) : Bool :=
  let w3 := lineWord l 3
  if bitsOf w3 63 56 = 1 then
    decide (bitsOf w3 55 48 < (s.cx c).residents.length) && decide (bitsOf w3 21 0 + n ≤ 0x40_0000)
  else !badForm (lineWord l 4) && (lineWord l 4 + n - 1) / 2 ^ 56 == lineWord l 4 / 2 ^ 56

/-- A valid entry of a context is well formed (R233, R263, R264, Table 14.4). -/
def entryOk (s : State) (c : Nat) (l : BitVec 512) : Bool :=
  let w := lineWord l
  let k := bitsOf (w 0) 35 28
  let sp := bitsOf (w 3) 63 56
  let lmax := bitsOf (w 5) 12 0
  let red := bitsOf (w 7) 7 0
  bitsOf (w 0) 27 0 == 0 && (sp == 1 || sp == 5) && bitsOf (w 3) 47 22 == 0 && bitsOf (w 5) 63 13 == 0 && bitsOf (w 6) 63 21 == 0 &&
  bitsOf (w 7) 63 8 == 0 && (bitsOf (w 6) 20 20 == 0 || decide (bitsOf (w 6) 19 0 < 524288)) &&
  (if k = 6 ∨ k = 7 then
    bitsOf (w 1) 63 32 == 0 && decide (1 ≤ w 2) && decide (w 2 ≤ 2 ^ 40) && lmax == 0 && red == 0 && landOk s c l (w 2)
  else
    (k == 1 || k == 2) && (k != 1 || (w 1 == 0 && w 2 == 0)) && decide (1 ≤ lmax) && decide (lmax ≤ 4096) && landOk s c l lmax &&
    (red == 0 || (match redCode red with | some r => lmax % elemSize r.1 == 0 | none => false)))

/-- A message or RMA operation that looks for its entry: its connection, its operation, its match bits or its key. -/
structure Query where
  conn : Nat
  op   : Nat
  tag  : Word
  key  : BitVec 32
deriving DecidableEq, Repr

/-- A well-formed entry takes a query (R263, R268). -/
def entryTakes (q : Query) (l : BitVec 512) : Bool :=
  let w := lineWord l
  bitsOf (w 0) 55 36 == q.conn && bitsOf (w 0) 35 28 == q.op &&
  (if q.op = 2 then (l.extractLsb' 64 64 ^^^ q.tag) &&& ~~~(l.extractLsb' 128 64) == 0#64
   else if q.op = 6 ∨ q.op = 7 then w 1 == q.key.toNat else true)

/-- The lowest-numbered candidate of a context, and the malformed entries passed over before it (R263, R264). -/
def findEntry (s : State) (c : Nat) (q : Query) : List Nat → List Nat → Option Nat × List Nat
  | [], bad => (none, bad)
  | i :: is, bad =>
    let l := entryLine s i
    if bitsOf (lineWord l 0) 61 56 ≠ c then findEntry s c q is bad
    else if !entryOk s c l then findEntry s c q is (bad ++ [i])
    else if entryTakes q l then (some i, bad)
    else findEntry s c q is bad

/-- The entry that takes a query: malformed ones are recorded, and ONCE clears VALID in the same step. -/
def takeEntry (s : State) (c : Nat) (q : Query) : Option (Nat × BitVec 512) × State :=
  let r := findEntry s c q (validEntries s) []
  let s := r.2.foldl (fun s i => tsRecord s c 0 i) s
  match r.1 with
  | none => (none, s)
  | some i =>
    let l := entryLine s i
    let w0 := lineWord l 0
    (some (i, l), if bitsOf w0 62 62 = 1 then s.put64 (winKey (64 * i)) (w0 % 2 ^ 63) else s)

/-! ### Landing (R265 to R267) -/

/-- The least of a message's bytes that its entry places. -/
def RxMsg.limit (m : RxMsg) : Nat := if m.op = 6 then m.len else min m.len (bitsOf (lineWord m.line 5) 12 0)

/-- The reduce action of a message's entry. -/
def RxMsg.red (m : RxMsg) : Option (Nat × Nat) := if m.op = 6 then none else redCode (bitsOf (lineWord m.line 7) 7 0)

/-- The elements of a global landing of lim bytes from start on, of e bytes each, whose first byte lies in the line of an address: the number
of the first of them, and of the first beyond. -/
def lineElems (start lim e ea : Nat) : Nat × Nat :=
  let l := ea - ea % 64
  ((l - start + e - 1) / e, min (lim / e) ((l + 64 - start + e - 1) / e))

/-- Combine the elements of a global landing, n bytes from an address on, fuel k: line by line, an element by itself where it straddles two
lines; at the turn of a time-slot table where one holds the address, else at once (R267, R329, R335). -/
def landReduce (m : RxMsg) (tag op : Nat) : Nat → Nat → Nat → Nat → State → Except HomeFail State
  | 0, _, _, _, s => .ok s
  | k + 1, ea, n, v, s =>
    let e := elemSize tag
    if n < e then .ok s
    else
      let p := if 64 < ea % 64 + e then e else min n ((64 - ea % 64) / e * e)
      match spanFault s 0xFFFF m.ctx ea p 6 with
      | some f => .error ⟨f.1, detailOf f.1, f.2, noteXlat s 0xFFFF m.ctx f.2 6⟩
      | none =>
        let start := lineWord m.line 4
        let r := lineElems start m.limit e ea
        let h : Held :=
          { src := 2 ^ 30 + m.conn, ea := ea, n := p, v := v % 2 ^ (8 * p), fmt := tag, op := op, ref := none, msg := some m.id,
            total := (r.2 - r.1) * e, fin := ea + p == start + r.2 * e }
        let s := { s with rx := s.rx.map fun x => if x.id = m.id then { x with left := x.left + 1 } else x }
        let s := match slotFor s m.ctx ea with
          | some i => slotArrive s m.ctx i h
          | none => combineHeld s m.ctx h
        landReduce m tag op k (ea + p) (n - p) (v / 2 ^ (8 * p)) s

/-- Fuel for the elements of a landing of n bytes. -/
def elemFuel (n : Nat) : Nat := 2 * (n / 64) + 4

/-- Place bytes of a message at an offset of it: those within the limit, at the landing span. A combine that meets an uncorrectable word of a
scratchpad leaves the span as it is and raises the fault at the core's die (DESIGN CHOICE, log entry 95). -/
def landBytes (m : RxMsg) (off n v : Nat) (roff : Nat) (s : State) : Except HomeFail State :=
  let n := min n (m.limit - off)
  let v := v % 2 ^ (8 * n)
  let w3 := lineWord m.line 3
  let at' := off + roff
  if bitsOf w3 63 56 = 1 then
    match (s.cx m.ctx).residents[bitsOf w3 55 48]? with
    | none => .error ⟨causeUnmapped, 0, 0, s⟩
    | some p =>
      let a := bitsOf w3 21 0 + at'
      match m.red with
      | some r =>
        if spBad s p a n then .ok (s.memFault m.ctx (p / 288) 0xFFF 0x22 0 (BitVec.ofNat 64 a))
        else .ok (combineSp (spFix s p a n) p a n v r.1 r.2)
      | none => .ok (spWrite s p a n v)
  else
    let ea := lineWord m.line 4 + at'
    match m.red with
    | some r => landReduce m r.1 r.2 (elemFuel n) ea n v s
    | none => globalWrite 0xFFFF m.ctx (lineFuel n) ea n v s

/-- What became of a packet of a message. -/
inductive Fate where
  /-- Placed or held: it is acknowledged. -/
  | placed
  /-- Refused: it is negatively acknowledged with a code. -/
  | refused (code : Nat)
  /-- Dropped without acknowledgement. -/
  | dropped
deriving DecidableEq, Repr

/-- Bytes of a list as a number, the first the lowest. -/
def bytesNum : List Byte → Nat
  | [] => 0
  | b :: bs => b.toNat + 256 * bytesNum bs

/-- Bytes of a matched message, or of one that becomes an event, arrive: they are placed, or kept for the event. -/
def placeBytes (s : State) (m : RxMsg) (off n v roff : Nat) : Fate × State :=
  if m.failed then
    (.refused 0, { s with rx := (s.rx.map fun x => if x.id = m.id then { x with got := x.got + n } else x).filter fun x =>
      !(x.id == m.id && x.failed && decide (x.len ≤ x.got)) })
  else
    let up (s : State) (f : RxMsg → RxMsg) : State := { s with rx := s.rx.map fun x => if x.id = m.id then f x else x }
    if m.ent = 2 ^ 20 then
      let k := min n (4096 - off)
      let s := up s fun x => { x with got := x.got + n, buf := x.buf + v % 2 ^ (8 * k) * 2 ^ (8 * off) }
      (.placed, finishMsgs (s.rx.length + 1) s)
    else
      match landBytes m off n v roff s with
      | .error e =>
        if e.cause = 0x22 then
          let s := e.st.memFault m.ctx (e.addr / 2 ^ 56) 0xFFF e.cause e.detail (BitVec.ofNat 64 e.addr)
          (.placed, up s fun x => { x with got := x.got + n })
        else (.refused 0, landFail e.st m.id)
      | .ok s =>
        let s := up s fun x => { x with got := x.got + n }
        (.placed, finishMsgs (s.rx.length + 1) s)

/-! ### The start of a message -/

/-- The lane of a connection's ordered messages (R251). -/
def connLane (c n mode : Nat) : Option Nat := if mode = 1 then some (c * 2 ^ 20 + n) else none

/-- The lane of an agent's ordered messages to its own package (R431). -/
def ownLane (a : Nat) : Nat := 2 ^ 27 + a

/-- A message of a lane is not wholly placed. -/
def laneBusy (s : State) (lane : Nat) : Bool := s.rx.any fun m => m.lane == some lane && !m.failed

/-- A message is refused at its first arriving packet of n bytes: where more packets are to come it is remembered as failed, so that they are
refused as well and never matched (R234, R263). -/
def keepRefused (s : State) (m : RxMsg) (n : Nat) : State :=
  if m.len ≤ n then s else { s with rx := s.rx ++ [{ m with failed := true, got := n }], rxId := s.rxId + 1 }

/-- A message is matched at its first arriving packet, of first bytes (R234, R263), or becomes an event to be (R242, R243): its run-time record,
or its fate. -/
def startMessage (s : State) (c conn mode : Nat) (lane : Option Nat) (op msg len first : Nat) (tag : Word) : Except Fate RxMsg × State :=
  let r := takeEntry s c { conn := conn, op := op, tag := tag, key := 0 }
  let s := r.2
  let new (ent : Nat) (l : BitVec 512) : RxMsg :=
    { id := s.rxId, ctx := c, conn := conn, mode := mode, lane := lane, op := op, msg := msg, ent := ent, line := l, len := len, got := 0, left := 0,
      failed := false, tag := tag, buf := 0, ovf := false }
  match r.1 with
  | some (i, l) =>
    let m := new i l
    match m.red with
    | some e => if len % elemSize e.1 ≠ 0 then (.error (.refused 0), keepRefused s m first) else enter s m
    | none => enter s m
  | none =>
    if handlerEntry s c 1 = 0 then (.error (.refused 0), keepRefused s (new (2 ^ 20) 0) first)
    else if !eventRoom s c 1 then (.error .dropped, tsDrop s c)
    else enter s (new (2 ^ 20) 0)
where
  /-- The message is in arrival; a truncation is recorded (R265). -/
  enter (s : State) (m : RxMsg) : Except Fate RxMsg × State :=
    let s := { s with rx := s.rx ++ [m], rxId := s.rxId + 1 }
    let s := if m.ent ≠ 2 ^ 20 ∧ bitsOf (lineWord m.line 5) 12 0 < m.len then tsRecord s m.ctx 2 m.ent else s
    (.ok m, syncInflight s m.ctx)

/-- A message that arrives whole: from the package itself (R431), or from a host ring (R259). -/
def arriveWhole (s : State) (c conn mode : Nat) (lane : Option Nat) (op len v : Nat) (tag : Word) : Fate × State :=
  let r := startMessage s c conn mode lane op s.rxId len len tag
  match r.1 with
  | .error f => (f, r.2)
  | .ok m => placeBytes r.2 m 0 len v 0

/-! ### RMA operations (R254, R268, R269) -/

/-- The key entry that serves an RMA operation, if the range is accepted. -/
def takeKey (s : State) (c conn op : Nat) (key : BitVec 32) (off len : Nat) : Option (Nat × BitVec 512) × State :=
  let r := takeEntry s c { conn := conn, op := op, tag := 0, key := key }
  match r.1 with
  | none => r
  | some (i, l) => (if off + len ≤ lineWord l 2 then some (i, l) else none, r.2)

/-- The addresses of the lines that n bytes from an address on touch, whose value word they reach: bytes 8 to 15. -/
def valueLines (ea n : Nat) : List Nat :=
  ((List.range (n / 64 + 2)).map fun i => ea - ea % 64 + 64 * i).filter fun l => decide (l + 8 < ea + n) && decide (ea < l + 16)

/-- REMOTE is set on each sync object whose value word an RMA read covers, whichever context's directory names it and by whatever address, and
stays set past a release that waits meanwhile (R320). -/
def markRemote (s : State) (c ea n : Nat) : State :=
  (valueLines ea n).foldl (fun s l =>
    match resolve s 0xFFFF c l 4 with
    | .error _ => s
    | .ok key =>
      if !isObjHome s key then s
      else
        let o := objAt s key
        let s := if o.waits = [] then s else { s with objs := tput s.objs key { o with late := true } ObjRun.reset }
        let w := rdN s.mem key 8
        if bitsOf w 62 62 = 1 then s else homeWord s c (BitVec.ofNat 64 l) key (w + 2 ^ 62)) s

/-- The bytes that an RMA read returns, read at their home when the request is matched; none where it is refused. -/
def serveRead (s : State) (c : Nat) (l : BitVec 512) (off len : Nat) : Option Nat × State :=
  let w3 := lineWord l 3
  if bitsOf w3 63 56 = 1 then
    match (s.cx c).residents[bitsOf w3 55 48]? with
    | none => (none, s)
    | some p =>
      let a := bitsOf w3 21 0 + off
      if spBad s p a len then (none, s) else (some (spRead s p a len), spFix s p a len)
  else
    let ea := lineWord l 4 + off
    match globalRead 0xFFFF c (lineFuel len) ea len s with
    | .error _ => (none, s)
    | .ok (v, bad, s') => if bad then (none, s') else (some v, markRemote s' c ea len)

end Sys2Proof.Machine
end

