-- ==== Sys2Proof/Machine/Sync.lean ====
section
/-! DEFINITION. Semaphores, pausing, monitored waits, sync objects and barriers (R93 to R102, R314 to R320). -/
namespace Sys2Proof.Machine

/-- The current agent waits. -/
def State.wait (s : State) (w : Wait) : State := s.upSc fun x => { x with run := .waiting w }

/-- A semaphore of the current core. -/
def State.sem (s : State) (k : BitVec 5) : Sem := (s.co s.cur).sem k.toNat

/-! ### Semaphores -/

/-- SEMADD's effect; a task with a checkpoint records the increment for a rollback (R399). -/
def semaddCore (k : BitVec 5) (a : Word) (x : Core) : Core :=
  let v := x.sem k.toNat
  let y := x.setSem k.toNat { v with done := v.done + a.setWidth 32, err := v.err && !a.getLsbD 32 }
  if x.ckpt.isSome then { y with undone := y.undone ++ [{ q := 3, slot := 0, sem := k.toNat, amt := a.setWidth 32, err := false }] } else y

/-- SEMADD (R93). -/
def execSemadd (g : Guard) (a : Src) (k : BitVec 5) (s : State) : Out :=
  issueCore (.semadd g a k) 5 g [a] none s fun s => (s.upCo s.cur (semaddCore k (s.rd a))).retire

/-- SEMWAIT: completes at once where its condition holds, else waits (R93). -/
def execSemwait (g : Guard) (a : Src) (k : BitVec 5) (s : State) : Out :=
  issueCore (.semwait g a k) 5 g [a] none s fun s =>
    if (s.sem k).waitOk ((s.rd a).setWidth 32) then s.retire else s.wait (.sem k ((s.rd a).setWidth 32))

/-- SEMWAIT_COMPLETE (R94). -/
def execSemwaitComplete (s : State) : Out :=
  .next <|
    match (s.sc s.cur).run with
    | .waiting (.sem k a) => if (s.sem k).waitOk a then s.retire else s
    | _ => s

/-- WAITB (R93). -/
def execWaitb (g : Guard) (k : BitVec 5) (t : BitVec 22) (s : State) : Out :=
  issueCore (.waitb g k t) 5 g [] none s fun s => if (s.sem k).waitbOk t then s.retire else s.wait (.waitb k t)

/-- WAITB_COMPLETE (R94). -/
def execWaitbComplete (s : State) : Out :=
  .next <|
    match (s.sc s.cur).run with
    | .waiting (.waitb k t) => if (s.sem k).waitbOk t then s.retire else s
    | _ => s

/-- SEMRD of DONE (R93). -/
def execSemrdDone (g : Guard) (d : BitVec 6) (k : BitVec 5) (s : State) : Out :=
  issueCore (.semrdDone g d k) 5 g [] (some d) s fun s => s.result d (semWord (s.sem k).done (s.sem k).err)

/-- SEMRD of PEND (R93). -/
def execSemrdPend (g : Guard) (d : BitVec 6) (k : BitVec 5) (s : State) : Out :=
  issueCore (.semrdPend g d k) 5 g [] (some d) s fun s => s.result d (semWord (s.sem k).pend (s.sem k).err)

/-! ### Pausing and monitored waits -/

/-- PAUSE stops fetch for n clk, 10 ticks each; PAUSE #0 has no effect (R95). -/
def execPause (g : Guard) (n : BitVec 22) (s : State) : Out :=
  issue 5 g [] none s fun s => if n = 0#22 then s.retire else s.wait (.pause (s.time + 10 * n.toNat))

/-- PAUSE_EXPIRE (R95). -/
def execPauseExpire (s : State) : Out :=
  .next <|
    match (s.sc s.cur).run with
    | .waiting (.pause t) => if t ≤ s.time then s.retire else s
    | _ => s

/-- Monitors in use on the Crossroads die. -/
def monitors (s : State) : Nat := (s.scal.filter fun e => match e.2.run with | .waiting (.waita _ _ _) => true | _ => false).length

/-- WAITA (R96). -/
def waitaBody (pd : BitVec 5) (ea : Word) (s : State) : State :=
  if ea.toNat % 8 ≠ 0 then s.trap 3 0 ea
  else
    match resolve s s.cur (s.sc s.cur).ctx.toNat ea.toNat 4 with
    | .error e => (noteXlat s s.cur (s.sc s.cur).ctx.toNat ea.toNat 4).ctxFault e (detailOf e) ea
    | .ok key =>
      let line := key - key % 64
      if (s.sc s.cur).watch = some (line, true) then s.resultP pd false
      else if 4096 ≤ monitors s then s.resultP pd true
      else s.wait (.waita pd line false)

/-- WAITA, on wayside threads and firmware cores only (R41, R96). -/
def execWaita (g : Guard) (pd : BitVec 5) (a : Src) (off : BitVec 22) (s : State) : Out :=
  issueThread (.waita g pd a off) 5 g [a] none s fun s => waitaBody pd (ea22 (s.rd a) off) s

/-- WAITA_RETURN: false after a write to the line, true where its monitor is lost (R96). -/
def execWaitaReturn (lost : Bool) (s : State) : Out :=
  .next <|
    match (s.sc s.cur).run with
    | .waiting (.waita pd _ hit) => if hit then s.resultP pd false else if lost then s.resultP pd true else s
    | _ => s

/-! ### Sync objects -/

/-- The task that a hold belongs to (R316): a team's logical core, a thread or a firmware core. -/
def taskId (s : State) (a : Nat) : Nat :=
  if isCore a then (match (s.co a).task with | some r => r.team * 256 + r.lcore | none => 0) else 2 ^ 64 + a

/-- REMOTE of the object at a key. -/
def objRemote (s : State) (key : Nat) : Bool := bitsOf (rdN s.mem key 8) 62 62 == 1

/-- The checks of R97 on an object address: alignment, the directory, the rights; then the body with the home key. -/
def withObject (obj : Word) (s : State) (body : Nat → State) : State :=
  let c := (s.sc s.cur).ctx.toNat
  if obj.toNat % 64 ≠ 0 then s.trap 3 0 obj
  else if (objEntry s c obj.toNat).isNone then s.trap 4 1 obj
  else
    match resolve s s.cur c obj.toNat 6 with
    | .error e => (noteXlat s s.cur c obj.toNat 6).ctxFault e (detailOf e) obj
    | .ok key => body key

/-- The current task holds the object. -/
def holds (s : State) (key : Nat) : Bool := (objAt s key).holders.any fun h => h.1 == taskId s s.cur

/-- ACQ.X and ACQ.S: a request joins the object's queue; an object already held traps SYNC_STATE (R98). -/
def acqBody (excl : Bool) (obj : Word) (s : State) : State :=
  withObject obj s fun key =>
    if holds s key then s.trap 16 0 obj
    else
      let o := objAt s key
      let s := putObj s (s.sc s.cur).ctx.toNat obj key { o with queue := o.queue ++ [(s.cur, excl)] } (objRemote s key)
      s.wait (.acq obj excl)

/-- ACQ.X (R98). -/
def execAcqX (g : Guard) (a : Src) (s : State) : Out := issue 5 g [a] none s fun s => acqBody true (s.rd a) s
/-- ACQ.S (R98). -/
def execAcqS (g : Guard) (a : Src) (s : State) : Out := issue 5 g [a] none s fun s => acqBody false (s.rd a) s

/-- The request at the head of an object's queue, the current agent's, is granted: the dirty bytes of the bound regions are written back, and
every line in them is invalidated (R98). -/
def grantHead (key : Nat) (obj : Word) (excl : Bool) (s : State) : State :=
  let o := objAt s key
  let c := (s.sc s.cur).ctx.toNat
  let r := objRegions s c obj.toNat
  let s := putObj (noteRegions s c obj.toNat) c obj key { o with holders := o.holders ++ [(taskId s s.cur, excl)], queue := o.queue.tail } (objRemote s key)
  let s := s.upSc fun x => (x.flush fun l => inRegions r l.tag).invalidate fun l => inRegions r l.tag
  s.retire

/-- The shared requests at the head of an object's queue are granted together (R316), fuel k. -/
def grantShared (key : Nat) : Nat → State → State
  | 0, s => s
  | k + 1, s =>
    match (objAt s key).queue.head? with
    | some (a, false) =>
      match (s.sc a).run with
      | .waiting (.acq obj _) => grantShared key k (asAgent s a (grantHead key obj false))
      | _ => s
    | _ => s

/-- The home grants the subject's request (R316): it heads the queue, and no hold stands against it. With a shared one the shared requests that
follow it are granted. -/
def grant (obj : Word) (excl : Bool) (s : State) : State :=
  let c := (s.sc s.cur).ctx.toNat
  match resolve s s.cur c obj.toNat 6 with
  | .error e => (noteXlat s s.cur c obj.toNat 6).ctxFault e (detailOf e) obj
  | .ok key =>
    let o := objAt s key
    let free := if excl then o.holders.isEmpty else !(o.holders.any (·.2))
    if o.queue.head? = some (s.cur, excl) ∧ free then
      let s := grantHead key obj excl s
      if excl then s else grantShared key o.queue.length s
    else s

/-- ACQ_GRANT: the home grants the subject's waiting request (R316). -/
def execAcqGrant (s : State) : Out :=
  .next <|
    match (s.sc s.cur).run with
    | .waiting (.acq obj excl) => grant obj excl s
    | _ => s

/-! ### Barriers -/

/-- A copy-queue operation whose completion an arrival waits for: PUT, PUTRED or MCAST. -/
def isPeerWrite (w : BitVec 512) : Bool :=
  w.extractLsb' 60 4 == 2#4 && (w.extractLsb' 52 8 == 0x10#8 || w.extractLsb' 52 8 == 0x12#8 || w.extractLsb' 52 8 == 0x13#8)

/-- No PUT, PUTRED or MCAST that the copy queue has accepted is still to complete (R101). -/
def peersDrained (s : State) (p : Nat) : Bool :=
  let q := (s.co p).cq
  (List.range q.fillLevel).all fun i => !isPeerWrite (slotRecord s p q (q.head + BitVec.ofNat 32 i))

/-- The kinds count as one in a team outside any caravan: CBAR as TBAR, CSTEP as SSTEP (R101). -/
def barrierKind (t : Team) (b : Barrier) : Barrier :=
  match t.caravan, b with
  | none, .cbar => .tbar
  | none, .cstep => .sstep
  | _, b => b

/-- The teams whose members a barrier of a team spans. -/
def barrierTeams (s : State) (t : Nat) (b : Barrier) : List Nat :=
  match s.tm t with
  | none => []
  | some x =>
    match barrierKind x b, x.caravan with
    | .cbar, some c => (s.team.filter fun e => e.2.caravan == some c && !e.2.ended).map fun e => e.1
    | .cstep, some c => (s.team.filter fun e => e.2.caravan == some c && !e.2.ended).map fun e => e.1
    | _, _ => [t]

/-- A barrier that spans a caravan. -/
def Barrier.wide : Barrier → Bool
  | .cbar | .cstep => true
  | _ => false

/-- The other teams of a team's caravan. -/
def otherTeams (s : State) (tid : Nat) (t : Team) : List Team :=
  match t.caravan with
  | some c => (s.team.filter fun e => e.2.caravan == some c && !e.2.ended && e.1 != tid).map (·.2)
  | none => []

/-- Some arrival of a team is at a barrier of which a test holds. -/
def Team.standsAt (t : Team) (p : Barrier → Bool) : Bool := t.arrived.any fun a => match a.2 with | some k => p (barrierKind t k) | none => false

/-- Some member stands at a barrier of another kind in this round (R102): one of the team, or where the barrier spans the caravan one of
its other teams at such a barrier. -/
def barrierMismatch (s : State) (t : Nat) (b : Barrier) : Bool :=
  match s.tm t with
  | none => false
  | some x =>
    let k := barrierKind x b
    x.standsAt (fun j => j != k) || (k.wide && (otherTeams s t x).any fun y => y.standsAt fun j => j.wide && j != k)

/-- The arrival's own drain is done (Table 6.7). -/
def arrivalReady (s : State) (b : Barrier) : Bool :=
  (match b with | .tbar | .cbar => (s.sc s.cur).drained | _ => true) && peersDrained s s.cur

/-- A member arrives at a barrier once its drain has finished (R101); a mismatch faults the context (R102). -/
def arrive (b : Barrier) (s : State) : State :=
  match (s.co s.cur).task with
  | none => s.retire
  | some r =>
    if !arrivalReady s b then
      match b with
      | .tbar | .cbar => s.upSc fun x => x.flushAll []
      | _ => s
    else if barrierMismatch s r.team b then s.ctxFault 0x29 0 0
    else (s.upTm r.team fun t => { t with arrived := tins t.arrived r.lcore (some b) }).wait (.barrier b)

/-- TBAR (R101). -/
def execTbar (g : Guard) (s : State) : Out := issueCore (.tbar g) 5 g [] none s (arrive .tbar)
/-- SSTEP (R101). -/
def execSstep (g : Guard) (s : State) : Out := issueCore (.sstep g) 5 g [] none s (arrive .sstep)
/-- CBAR (R101). -/
def execCbar (g : Guard) (s : State) : Out := issueCore (.cbar g) 5 g [] none s (arrive .cbar)
/-- CSTEP (R101). -/
def execCstep (g : Guard) (s : State) : Out := issueCore (.cstep g) 5 g [] none s (arrive .cstep)

/-- Every member of a team has arrived at a barrier of a kind or has executed DONE. -/
def teamArrived (k : Barrier) (t : Team) : Bool :=
  (List.range t.size).all fun l => t.done.getLsbD l || (match tget t.arrived l none with | some j => barrierKind t j == k | none => false)

/-- The barrier object of a team: TBOBJ, or CBOBJ for CBAR (words 6 and 7 of the work item, R280, R318). -/
def barrierObj (t : Team) (b : Barrier) : Nat :=
  match barrierKind t b with
  | .tbar | .sstep => (t.item.extractLsb' 384 64).toNat
  | .cbar | .cstep => (t.item.extractLsb' 448 64).toNat

/-- A waiting member's barrier completes: TBAR and CBAR invalidate the lines of the barrier object's regions (R101). -/
def releaseMember (s : State) (t : Team) (p : Nat) : State :=
  let x := s.sc p
  match x.run with
  | .waiting (.barrier b) =>
    let s := match b with | .tbar | .cbar => noteRegions s x.ctx.toNat (barrierObj t b) | _ => s
    let y := match b with
      | .tbar | .cbar =>
        let r := objRegions s x.ctx.toNat (barrierObj t b)
        x.invalidate fun l => inRegions r l.tag
      | _ => x
    s.putSc p y.retire
  | _ => s

/-- The round of a team's barrier is over: SSNUM increments at a superstep, every member goes on, and no one has arrived at the next. -/
def finishRound (s : State) (tid : Nat) : State :=
  match s.tm tid with
  | none => s
  | some t =>
    let step := t.arrived.any fun a => a.2 == some .sstep || a.2 == some .cstep
    let s := t.cores.foldl (fun s p => releaseMember s t p) s
    s.putTm tid { t with arrived := [], ssnum := if step then t.ssnum + 1 else t.ssnum }

/-- The kind of barrier a team stands at. -/
def roundKind (t : Team) : Option Barrier := ((t.arrived.find? fun a => a.2.isSome).bind (·.2)).map (barrierKind t)

/-- BARRIER_COMPLETE: once every member of the subject team, or of its caravan, has arrived, the barrier completes (R101, R318). -/
def execBarrierComplete (s : State) : Out :=
  .next <|
    match (s.tm s.cur).bind roundKind with
    | none => s
    | some b =>
      let ts := barrierTeams s s.cur b
      if ts.all fun t => match s.tm t with | some x => teamArrived b x | none => true then ts.foldl finishRound s else s

end Sys2Proof.Machine
end

