-- ==== Sys2Proof/Machine/Network.lean ====
section
/-! DEFINITION. The transport that the Crossroads die terminates: sending, the window, acknowledgements, retransmission, arrivals in both
delivery modes, RMA and flush (R217, R226 to R229, R248 to R256, R262, R268, R269, R431). -/
namespace Sys2Proof.Machine

/-! ### Connections (Table 13.4) -/

/-- The key of word w of a connection table entry. -/
def connKey (c n w : Nat) : Nat := cwinKey c (0x1C00_0000 + 64 * n + 8 * w)

/-- Word w of a connection table entry. -/
def connWord (s : State) (c n w : Nat) : Nat := rdN s.mem (connKey c n w) 8

/-- The entry's payload bytes per packet. -/
def connMtu (s : State) (c n : Nat) : Nat := 2048 * 2 ^ bitsOf (connWord s c n 0) 59 58

/-- STATE: 0 idle, 1 open, 2 failed. -/
def connState (s : State) (c n : Nat) : Nat := connWord s c n 6 % 4

/-- The entry is valid and permits a delivery mode (R250). -/
def connPermits (s : State) (c n mode : Nat) : Bool :=
  let w0 := connWord s c n 0
  decide (n ≤ 4095) && bitsOf w0 63 63 == 1 && bitsOf w0 59 58 != 3 && (if mode = 0 then bitsOf w0 62 62 == 1 else bitsOf w0 61 61 == 1)

/-- Word w of a collective entry of a context (Table 18.6). -/
def collWord (s : State) (c i w : Nat) : Nat := rdN s.mem (cwinKey c (0x1B30_0000 + 64 * i + 8 * w)) 8

/-- A collective entry names a connection among those that serve it. -/
def collServes (s : State) (c i n : Nat) : Bool := [4, 5, 6, 7].any fun w => bitsOf (collWord s c i w) 63 63 == 1 && bitsOf (collWord s c i w) 19 0 == n

/-- The numbers of the collective entries of a context in a STATE. -/
def collIn (s : State) (c st : Nat) : List Nat := (List.range 256).filter fun i => bitsOf (collWord s c i 0) 62 61 == st

/-- A connection serves a collective that PARTY_LOST has aborted (R338). -/
def connAborted (s : State) (c n : Nat) : Bool := (collIn s c 3).any fun i => collServes s c i n

/-- What an operation that names a connection meets: 0 it may be sent, or a status of Table 11.8. -/
def connStatus (s : State) (c n mode : Nat) : Nat :=
  if !connPermits s c n mode then 3 else if connAborted s c n then 4 else if connState s c n = 2 then 1 else 0

/-- A conversation packet may go on a connection: an aborted collective does not hold it back (R338, R367; DEDUCED, log entry 98). -/
def convUsable (s : State) (c n : Nat) : Bool := connPermits s c n 1 && connState s c n != 2

/-- A connection's run-time state. -/
def connRun (s : State) (c n : Nat) : ConnRun := tget s.conns (c * 4096 + n) ConnRun.reset

/-- Give a connection's run-time state. -/
def putConn (s : State) (c n : Nat) (x : ConnRun) : State := { s with conns := tput s.conns (c * 4096 + n) x ConnRun.reset }

/-- The state of a delivery mode. -/
def ConnRun.mode (x : ConnRun) (m : Nat) : ModeRun := if m = 0 then x.m0 else x.m1

/-- Give the state of a delivery mode. -/
def ConnRun.setMode (x : ConnRun) (m : Nat) (v : ModeRun) : ConnRun := if m = 0 then { x with m0 := v } else { x with m1 := v }

/-- Set STATE of a connection. -/
def setConnState (s : State) (c n v : Nat) : State := s.put64 (connKey c n 6) v

/-- Open a connection (R252, R253): STATE 1, a window of 65,536 bytes, nothing clean, no halving yet. -/
def openConn (s : State) (c n : Nat) : State :=
  let s := (setConnState s c n 1).put64 (connKey c n 4) 65536
  let x := connRun s c n
  putConn s c n { x with clean := 0, inflight := 0, hpsn := none }

/-- Context 0 writes a word of a context's connection table: word 0 of a failed connection, written again, reopens it (R252). -/
def writeConnWord (s : State) (c n w v : Nat) : State :=
  let s := s.put64 (connKey c n w) v
  if w = 0 ∧ bitsOf v 63 63 = 1 ∧ connState s c n = 2 then openConn s c n else s

/-! ### Ends of operations -/

/-- An increment on its way to a milestone. -/
def incMs (s : State) (c : Nat) (m : Option Nat) : State :=
  match m with
  | some k => { s with incs := s.incs ++ [⟨c, k, 1, none, none⟩] }
  | none => s

/-- One part of an operation has ended, with a status of Table 11.8 or 0. -/
def endPart (s : State) (c : Nat) (o : Origin) (st : Nat) : State :=
  match o with
  | .record p slot => flightDone s p 2#2 slot (st != 0) (BitVec.ofNat 8 st)
  | .trigger m i => if st = 0 then s else tsSkip s c m i 8
  | .other => s

/-- An error becomes known to a record one of whose messages has left already: no part ends, but the record ends in error. -/
def markPart (s : State) (c : Nat) (o : Origin) (st : Nat) : State :=
  match o with
  | .record p slot => s.upCo p fun x =>
      { x with cq := { x.cq with flight := x.cq.flight.map fun f => if f.slot = slot ∧ !f.err then { f with err := true, stat := BitVec.ofNat 8 st } else f } }
  | o => endPart s c o st

/-- A packet belongs to a message of a connection. -/
def Tx.isMsg (t : Tx) (c n mode msg : Nat) : Bool := t.ctx == c && t.conn == n && t.pkt.mode == mode && t.pkt.msg == msg

/-- Payload bytes of a packet. -/
def Tx.bytes (t : Tx) : Nat := t.pkt.data.length

/-- Operations that complete when their data has left (Table 11.7). -/
def leaves (op : Nat) : Bool := op == 1 || op == 2 || op == 6

/-- The last packet of a message has left: a copy record's part is over and its milestone advances (Table 11.7, R270). The milestone of
an MSEND or a triggered SEND waits for the acknowledgement, since it must not advance where the message fails (R105, R273). -/
def messageLeft (s : State) (t : Tx) : State :=
  if leaves t.pkt.op then
    match t.origin with
    | .record _ _ => incMs (endPart s t.ctx t.origin 0) t.ctx t.ms
    | _ => s
  else s

/-! ### The window (R253) -/

/-- Send a packet that waits, if the window lets it. -/
def sendOne (s : State) (t : Tx) : State :=
  let x := connRun s t.ctx t.conn
  let s := putConn s t.ctx t.conn { x with inflight := x.inflight + t.bytes, top := some (max t.pkt.psn (x.top.getD 0)) }
  let t' : Tx := { t with sent := true, sentAt := s.ns, rto := max 20_000 (2 * connWord s t.ctx t.conn 5) }
  let s := { s with tx := s.tx.map fun u => if u.isMsg t.ctx t.conn t.pkt.mode t.pkt.msg && u.pkt.psn == t.pkt.psn then t' else u }
  if s.tx.any fun u => u.isMsg t.ctx t.conn t.pkt.mode t.pkt.msg && !u.sent then s else messageLeft s t

/-- Send what the window of a connection lets go, in order, fuel k. -/
def pump (c n : Nat) : Nat → State → State
  | 0, s => s
  | k + 1, s =>
    match s.tx.find? fun t => t.ctx == c && t.conn == n && !t.sent with
    | none => s
    | some t =>
      let x := connRun s c n
      if x.inflight + t.bytes ≤ connWord s c n 4 ∨ x.inflight = 0 then pump c n k (sendOne s t) else s

/-- Send what the window lets go. -/
def pumpAll (s : State) (c n : Nat) : State := pump c n (s.tx.length + 1) s

/-- Halve the window for a packet, at most once for a flight (R253): both modes share the window and the number it was last halved for. -/
def halve (s : State) (c n psn : Nat) : State :=
  let x := connRun s c n
  if x.hpsn.all fun h => decide (h < psn) then
    let s := s.put64 (connKey c n 4) (max (connMtu s c n) (connWord s c n 4 / 2))
    putConn s c n { x with clean := 0, hpsn := x.top }
  else s

/-! ### Messages -/

/-- n bytes of a number, the lowest first. -/
def numBytes : Nat → Nat → List Byte
  | 0, _ => []
  | n + 1, v => BitVec.ofNat 8 v :: numBytes n (v / 256)

/-- A message that the package sends. -/
structure OutMsg where
  ctx    : Nat
  conn   : Nat
  mode   : Nat
  op     : Nat
  tag    : Word
  key    : BitVec 32
  roff   : Word
  len    : Nat
  /-- Its payload as a number, and how many bytes of it travel (none for an RMA read). -/
  data   : Nat
  carry  : Nat
  origin : Origin
  ms     : Option Nat
deriving DecidableEq, Repr

/-- The packets of a message from an offset on, fuel k. -/
def packets (m : OutMsg) (mtu msg psn : Nat) (hi lo : Word) (job : BitVec 24) : Nat → Nat → List Tx
  | 0, _ => []
  | k + 1, off =>
    let n := min mtu (m.carry - off)
    let p : Packet :=
      { peerHi := hi, peerLo := lo, job := job, mode := m.mode, op := m.op, psn := psn, msg := msg, off := off, len := m.len, tag := m.tag,
        key := m.key, roff := m.roff, ecn := false, sec := false, data := numBytes n (m.data / 2 ^ (8 * off)) }
    { ctx := m.ctx, conn := m.conn, pkt := p, origin := m.origin, ms := m.ms, sent := false, tries := 0, sentAt := 0, rto := 0 } ::
      (if m.carry ≤ off + n then [] else packets m mtu msg (psn + 1) hi lo job k (off + n))

/-- Give a message to its connection, which may be used: its packets take their sequence numbers and leave as the window allows. -/
def sendMessage (s : State) (m : OutMsg) : Nat × State :=
  let s := if connState s m.ctx m.conn = 0 then openConn s m.ctx m.conn else s
  let x := connRun s m.ctx m.conn
  let r := x.mode m.mode
  let mtu := connMtu s m.ctx m.conn
  let ps := packets m mtu x.msgs r.next (BitVec.ofNat 64 (connWord s m.ctx m.conn 1)) (BitVec.ofNat 64 (connWord s m.ctx m.conn 2))
    (BitVec.ofNat 24 (connWord s m.ctx m.conn 3)) (m.carry / mtu + 2) 0
  let s := putConn s m.ctx m.conn ({ x with msgs := x.msgs + 1 }.setMode m.mode { r with next := r.next + ps.length })
  (x.msgs, pumpAll { s with tx := s.tx ++ ps } m.ctx m.conn)

/-- Bytes in the packet and reorder buffers: payload that is to be acknowledged, and packets held for their turn (Table 1.4). -/
def bufferBytes (s : State) : Nat :=
  (s.tx.map Tx.bytes).sum + (s.own.map OwnMsg.len).sum + (s.conns.map fun e => ((e.2.m0.held ++ e.2.m1.held).map fun p => p.data.length).sum).sum

/-- The packet and reorder buffers, 256 MiB, have room for n bytes more (log entry 97). -/
def bufferRoom (s : State) (n : Nat) : Bool := decide (bufferBytes s + n ≤ 2 ^ 28)

/-- A message ends in an error status: its packets go; what it has not ended yet ends with the status. -/
def failMessage (s : State) (c n mode msg st : Nat) : State :=
  match s.tx.find? fun t => t.isMsg c n mode msg with
  | none => s
  | some t =>
    let mine := s.tx.filter fun u => u.isMsg c n mode msg
    let left := mine.all (·.sent)
    let x := connRun s c n
    let s := putConn s c n { x with inflight := x.inflight - ((mine.filter (·.sent)).map Tx.bytes).sum }
    let s := { s with tx := s.tx.filter fun u => !u.isMsg c n mode msg }
    if leaves t.pkt.op then
      match t.origin with
      | .record _ _ => if left then markPart s c t.origin st else endPart s c t.origin st
      | o => endPart s c o st
    else if t.pkt.op = 7 then
      let s := { s with reads := s.reads.filter fun r => !(r.ctx == c && r.conn == n && r.mode == mode && r.msg == msg) }
      endPart s c t.origin st
    else if t.pkt.op = 8 then endPart s c t.origin st
    else s

/-- Once an error is known to a record, its messages that have not left at all end with it (R217), fuel k. -/
def cancelRecord (p : Nat) (slot : BitVec 32) (st : Nat) : Nat → State → State
  | 0, s => s
  | k + 1, s =>
    match s.tx.find? fun t => t.origin == .record p slot && !t.sent && !(s.tx.any fun u => u.isMsg t.ctx t.conn t.pkt.mode t.pkt.msg && u.sent) with
    | none => s
    | some t => cancelRecord p slot st k (pumpAll (failMessage s t.ctx t.conn t.pkt.mode t.pkt.msg st) t.ctx t.conn)

/-- A message fails, and with it what its record has not begun to send. -/
def failWith (s : State) (c n mode msg st : Nat) : State :=
  match s.tx.find? fun t => t.isMsg c n mode msg with
  | none => s
  | some t =>
    let s := failMessage s c n mode msg st
    match t.origin with
    | .record p slot => cancelRecord p slot st (s.tx.length + 1) s
    | _ => s

/-- Every message outstanding on a connection whose operation is wanted ends with a status, fuel k. -/
def failAll (c n st : Nat) (want : Nat → Bool) : Nat → State → State
  | 0, s => s
  | k + 1, s =>
    match s.tx.find? fun t => t.ctx == c && t.conn == n && want t.pkt.op with
    | none => s
    | some t => failAll c n st want k (failMessage s c n t.pkt.mode t.pkt.msg st)

/-- RMA reads of a connection whose request was acknowledged and whose reply has not come end with a status. -/
def failReads (s : State) (c n st : Nat) : State :=
  let rs := s.reads.filter fun r => r.ctx == c && r.conn == n
  rs.foldl (fun s r => endPart s c r.origin st) { s with reads := s.reads.filter fun r => !(r.ctx == c && r.conn == n) }

/-- The operations on a connection that are wanted end with a status. -/
def endConn (s : State) (c n st : Nat) (want : Nat → Bool) : State := failReads (failAll c n st want (s.tx.length + 1) s) c n st

/-- A connection fails (R252). -/
def connFail (s : State) (c n : Nat) : State :=
  let s := endConn (setConnState s c n 2) c n 1 fun _ => true
  let x := connRun s c n
  putConn s c n { x with inflight := 0 }

/-! ### Messages to the package itself (R431) -/

/-- A message to the package itself arrives: its sender's part ends, placed or REFUSED. -/
def ownArrives (s : State) (o : OwnMsg) : State :=
  let r := arriveWhole s o.ctx 0xF_FFFF o.mode (if o.mode = 1 then some o.lane else none) o.op o.len o.data o.tag
  match r.1 with
  | .placed => incMs (endPart r.2 o.ctx o.origin 0) o.ctx o.ms
  | _ => endPart r.2 o.ctx o.origin 2

/-- A message to the package itself is sent: it is on its way until a PACKET_ARRIVAL without a packet. -/
def sendToSelf (s : State) (o : OwnMsg) : State := { s with own := s.own ++ [o] }

/-- The turn of the message at a place has come: an ordered one follows the earlier ordered ones of its core, and waits while a message of theirs is
not placed whole (R251, R431). -/
def ownReady (s : State) (i : Nat) (o : OwnMsg) : Bool :=
  o.mode != 1 || (!laneBusy s o.lane && !((s.own.take i).any fun q => q.mode == 1 && q.lane == o.lane))

/-- The message at a place is the next to arrive, if its turn has come. -/
def ownFirst (i : Nat) (s : State) : State :=
  match s.own[i]? with
  | some o => if ownReady s i o then { s with own := o :: s.own.eraseIdx i } else s
  | none => s

/-! ### Flushes that the device sends itself (R320, R321; DEDUCED, log entry 108) -/

/-- Connections of a context on which something that it has sent may stand unplaced: with packets outstanding, or, in ordered mode, acknowledged
while they are held for their turn (R251). -/
def flushConns (s : State) (c : Nat) : List Nat :=
  (s.conns.filter fun e => e.1 / 4096 == c && connState s c (e.1 % 4096) == 1 &&
    (e.2.m1.next != 0 || s.tx.any fun t => t.ctx == c && t.conn == e.1 % 4096 && decide (t.pkt.op ≤ 6))).map fun e => e.1 % 4096

/-- A flush goes on a connection, covering what both modes have taken: its connection, mode and sequence number. -/
def flushConn (s : State) (c n : Nat) : (Nat × Nat × Nat) × State :=
  let x := connRun s c n
  let mode := if connPermits s c n 0 then 0 else 1
  let m : OutMsg :=
    { ctx := c, conn := n, mode := mode, op := 8, tag := BitVec.ofNat 64 x.m1.next, key := 0, roff := BitVec.ofNat 64 x.m0.next, len := 0, data := 0,
      carry := 0, origin := .other, ms := none }
  ((n, mode, (x.mode mode).next), (sendMessage s m).2)

/-- A flush goes on each of some connections. -/
def flushAll (s : State) (c : Nat) : List Nat → List (Nat × Nat × Nat) × State
  | [] => ([], s)
  | n :: ns =>
    let r := flushConn s c n
    let t := flushAll r.2 c ns
    (r.1 :: t.1, t.2)

/-- A packet of a context has not been acknowledged, nor has its connection failed. -/
def stillOut (s : State) (c : Nat) (k : Nat × Nat × Nat) : Bool :=
  s.tx.any fun t => t.ctx == c && t.conn == k.1 && t.pkt.mode == k.2.1 && t.pkt.psn == k.2.2

/-! ### Collectives' flags (R321, R338) -/

/-- The messages in arrival on a collective's serving connections. -/
def collMsgs (s : State) (c i : Nat) : List Nat :=
  (s.rx.filter fun m => m.ctx == c && !m.failed && m.ent != 2 ^ 20 && collServes s c i m.conn).map (·.id)

/-- A collective is to write its completion flag with a status: a flush goes on each connection on which what the context has sent may stand
unplaced (Table 17.4). -/
def queueFlag (s : State) (c i st : Nat) : State :=
  if !gateOpen s c then s
  else
  let r := flushAll s c (flushConns s c)
  { r.2 with flags := r.2.flags ++ [{ ctx := c, entry := i, status := st, sends := r.1, msgs := collMsgs s c i }] }

/-- What a flag waits for has been placed. -/
def FlagWrite.ready (s : State) (f : FlagWrite) : Bool :=
  !(f.sends.any (stillOut s f.ctx)) && !(s.rx.any fun m => !m.failed && f.msgs.contains m.id)

/-- Write a completion flag at its home, as a release does: also where it is the value word of a sync object (R321). A killed context's is dropped
(R323). -/
def writeFlag (s : State) (f : FlagWrite) : State :=
  let ea := collWord s f.ctx f.entry 1
  let v := (collWord s f.ctx f.entry 3 % 2 ^ 32) * 2 ^ 32 + f.status
  let plain := match globalWrite 0xFFFF f.ctx 2 ea 8 v s with
    | .ok s => s
    | .error e => e.st.memFault f.ctx (e.addr / 2 ^ 56) 0xFFF e.cause e.detail (BitVec.ofNat 64 e.addr)
  match resolve s 0xFFFF f.ctx ea 2 with
  | .ok key => if isObjHome s key ∧ key % 64 = 8 ∧ gateOpen s f.ctx then homeWord s f.ctx (BitVec.ofNat 64 ea) key v else plain
  | .error _ => plain

/-- Write the flags whose bytes have been placed. -/
def settleFlags (s : State) : State :=
  let go := s.flags.filter (FlagWrite.ready s)
  go.foldl writeFlag { s with flags := s.flags.filter fun f => !FlagWrite.ready s f }

/-! ### Acknowledgements -/

/-- The whole message has been acknowledged: the milestone of an MSEND, of a triggered SEND, of a flush, or of a served RMA read advances
(R105, R255, R269, R273). -/
def messageAcked (s : State) (t : Tx) : State :=
  if t.pkt.op = 8 then incMs (endPart s t.ctx t.origin 0) t.ctx t.ms
  else if t.pkt.op = 10 then incMs s t.ctx t.ms
  else
    match t.origin with
    | .record _ _ => s
    | _ => if leaves t.pkt.op then incMs s t.ctx t.ms else s

/-- SRTT after a sample (R252). -/
def srttAfter (srtt sample : Nat) : Nat := (7 * srtt + sample) / 8

/-- ACK_RECEIVED: an acknowledgement of a packet of the subject context's connection, marked or not (R252, R253). -/
def execAckReceived (conn mode psn : Nat) (marked : Bool) (s : State) : Out :=
  .next <|
    let c := s.cur
    match s.tx.find? fun t => t.ctx == c && t.conn == conn && t.pkt.mode == mode && t.pkt.psn == psn && t.sent with
    | none => s
    | some t =>
      let x := connRun s c conn
      let w := connWord s c conn 4
      let clean := if marked then x.clean else x.clean + t.bytes
      let grow := !marked && decide (w ≤ clean)
      let s := putConn s c conn { x with inflight := x.inflight - t.bytes, clean := if grow then 0 else clean }
      let s := if grow then s.put64 (connKey c conn 4) (min (w + connMtu s c conn) 4_194_304) else s
      let s := if marked then halve s c conn psn else s
      let s := if t.tries = 0 then s.put64 (connKey c conn 5) (srttAfter (connWord s c conn 5) (s.ns - t.sentAt)) else s
      let s := { s with tx := s.tx.filter fun u => !(u.isMsg c conn mode t.pkt.msg && u.pkt.psn == psn) }
      let s := if s.tx.any fun u => u.isMsg c conn mode t.pkt.msg then s else messageAcked s t
      settleFlags (pumpAll s c conn)

/-- NEGATIVE_ACKNOWLEDGEMENT of a packet of the subject context's connection: the operation completes REFUSED (R217). -/
def execNegativeAcknowledgement (conn mode psn : Nat) (s : State) : Out :=
  .next <|
    match s.tx.find? fun t => t.ctx == s.cur && t.conn == conn && t.pkt.mode == mode && t.pkt.psn == psn && t.sent with
    | none => s
    | some t => settleFlags (pumpAll (failWith s s.cur conn mode t.pkt.msg 2) s.cur conn)

/-- RETRANSMIT_TIMEOUT of a packet of the subject context's connection: it is sent again with twice the timeout and the window halves;
after 16 retransmissions the connection fails (R252, R253). -/
def execRetransmitTimeout (conn mode psn : Nat) (s : State) : Out :=
  .next <|
    let c := s.cur
    match s.tx.find? fun t => t.ctx == c && t.conn == conn && t.pkt.mode == mode && t.pkt.psn == psn && t.sent with
    | none => s
    | some t =>
      if s.ns < t.sentAt + t.rto then s
      else if 16 ≤ t.tries then settleFlags (connFail s c conn)
      else
        let t' : Tx := { t with tries := t.tries + 1, sentAt := s.ns, rto := min (2 * t.rto) 1_000_000 }
        halve { s with tx := s.tx.map fun u => if u.isMsg c conn mode t.pkt.msg && u.pkt.psn == psn then t' else u } c conn psn

/-! ### Arrivals -/

/-- The valid network entries, of any context that is not free, that claim a packet by its source and job (R262). -/
def claims (s : State) (p : Packet) : List (Nat × Nat) :=
  (s.mem.filterMap fun e =>
    if cwinKey 0 0 ≤ e.1 ∧ e.1 < cwinKey 64 0 then
      let c := (e.1 - cwinKey 0 0) / 2 ^ 32
      let o := (e.1 - cwinKey 0 0) % 2 ^ 32
      if 0x1C00_0000 ≤ o ∧ o < 0x1C04_0000 ∧ o % 64 = 7 ∧ 128 ≤ e.2.toNat then some (c, (o - 0x1C00_0000) / 64) else none
    else none).filter fun k =>
      let w := connWord s k.1 k.2
      ctxState s k.1 != 0 && bitsOf (w 0) 60 60 == 0 && bitsOf (w 0) 59 58 != 3 && w 1 == p.peerHi.toNat && w 2 == p.peerLo.toNat &&
      w 3 % 2 ^ 24 == p.job.toNat

/-- Answer a packet: an acknowledgement, or with kind 1 a negative one. -/
def reply (s : State) (p : Packet) (kind code : Nat) : State :=
  { s with out := s.out ++ [{ peerHi := p.peerHi, peerLo := p.peerLo, job := p.job, mode := p.mode, psn := p.psn, kind := kind, code := code,
                              ecn := p.ecn && kind == 0 }] }

/-- A packet is refused and counted in the port statistics (R249, R262). -/
def refusePacket (s : State) (p : Packet) : State := reply { s with netBad := s.netBad + 1 } p 1 0

/-- Operations of Table 13.3, and the package's own: replies to RMA reads and conversation packets (R367). -/
def opSupported (op : Nat) : Bool := decide (1 ≤ op) && decide (op ≤ 13)

/-- The operations of conversation packets, which an aborted collective does not refuse (R338, R367; DEDUCED, log entry 98). -/
def isConvOp (op : Nat) : Bool := [3, 4, 5, 9, 11, 12, 13].contains op

/-- The message in arrival that a packet belongs to. -/
def rxOf (s : State) (c n : Nat) (p : Packet) : Option RxMsg :=
  s.rx.find? fun m => m.ctx == c && m.conn == n && m.mode == p.mode && m.msg == p.msg && m.op == p.op

/-- A packet of a send or a tagged send. -/
def deliverSend (s : State) (c n : Nat) (p : Packet) : Fate × State :=
  let v := bytesNum p.data
  match rxOf s c n p with
  | some m => placeBytes s m p.off p.data.length v 0
  | none =>
    let r := startMessage s c n p.mode (connLane c n p.mode) p.op p.msg p.len p.data.length p.tag
    match r.1 with
    | .error f => (f, r.2)
    | .ok m => placeBytes r.2 m p.off p.data.length v 0

/-- A packet of an RMA write (R268): the first one takes the key entry. -/
def deliverWrite (s : State) (c n : Nat) (p : Packet) : Fate × State :=
  let v := bytesNum p.data
  match rxOf s c n p with
  | some m => placeBytes s m p.off p.data.length v p.roff.toNat
  | none =>
    let r := takeKey s c n 6 p.key p.roff.toNat p.len
    let s := r.2
    let new (i : Nat) (l : BitVec 512) : RxMsg :=
      { id := s.rxId, ctx := c, conn := n, mode := p.mode, lane := connLane c n p.mode, op := 6, msg := p.msg, ent := i, line := l, len := p.len,
        got := 0, left := 0, failed := false, tag := 0, buf := 0, ovf := false }
    match r.1 with
    | none => (.refused 0, keepRefused s (new (2 ^ 20) 0) p.data.length)
    | some (i, l) =>
      let m := new i l
      placeBytes (syncInflight { s with rx := s.rx ++ [m], rxId := s.rxId + 1 } c) m p.off p.data.length v p.roff.toNat

/-- An RMA read (R254): served from the home at once, the reply sent on the same connection; where the buffers have no room for it, the request is
dropped, and its sender sends it again. -/
def deliverRead (s : State) (c n : Nat) (p : Packet) : Fate × State :=
  let r := takeKey s c n 7 p.key p.roff.toNat p.len
  match r.1 with
  | none => (.refused 0, r.2)
  | some (_, l) =>
    if !bufferRoom s (min p.len (2 ^ 28)) then (.dropped, s)
    else
    let v := serveRead r.2 c l p.roff.toNat p.len
    match v.1 with
    | none => (.refused 0, v.2)
    | some v' =>
      let w6 := lineWord l 6
      let m : OutMsg :=
        { ctx := c, conn := n, mode := p.mode, op := 10, tag := 0, key := 0, roff := BitVec.ofNat 64 p.msg, len := p.len, data := v',
          carry := p.len, origin := .other, ms := if bitsOf w6 20 20 = 1 then some (bitsOf w6 19 0) else none }
      (.placed, (sendMessage v.2 m).2)

/-- A packet of the reply to one of our RMA reads: its bytes land in the reader's scratchpad; the last one ends the issue (R228, Table
11.7). -/
def deliverReply (s : State) (c n : Nat) (p : Packet) : Fate × State :=
  match s.reads.find? fun r => r.ctx == c && r.conn == n && r.mode == p.mode && r.msg == p.roff.toNat with
  | none => (.placed, s)
  | some r =>
    let s := spWrite s r.core (r.off + p.off) p.data.length (bytesNum p.data)
    let got := r.got + p.data.length
    let rest := s.reads.filter fun x => x != r
    if r.len ≤ got then (.placed, incMs (endPart { s with reads := rest } c r.origin 0) c r.ms)
    else (.placed, { s with reads := s.reads.map fun x => if x = r then { x with got := got } else x })

/-- A flush waits for the writes it covers. -/
def deliverFlush (s : State) (c n : Nat) (p : Packet) : Fate × State :=
  let x := connRun s c n
  (.dropped, putConn s c n { x with flushes := x.flushes.filter (fun f => f.psn != p.psn || f.mode != p.mode) ++ [p] })

/-- A conversation packet: the first one of its message awaits its judgement or its effect, a later one brings more of the payload (R367). -/
def deliverConv (s : State) (c n : Nat) (p : Packet) : State :=
  if p.off = 0 then
    { s with convIn := s.convIn ++ [{ agent := none, later := false, reg := 0, slot := 0, ms := none, ctx := c, conn := n, pkt := p }] }
  else
    { s with convIn := s.convIn.map fun i =>
        if i.agent = none ∧ i.ctx = c ∧ i.conn = n ∧ i.pkt.mode = p.mode ∧ i.pkt.msg = p.msg ∧ i.pkt.op = p.op ∧ i.pkt.data.length = p.off then
          { i with pkt := { i.pkt with data := i.pkt.data ++ p.data } }
        else i }

/-- A packet that its connection and mode have accepted, by its operation. -/
def deliver (s : State) (c n : Nat) (p : Packet) : Fate × State :=
  if p.op = 1 ∨ p.op = 2 then deliverSend s c n p
  else if p.op = 6 then deliverWrite s c n p
  else if p.op = 7 then deliverRead s c n p
  else if p.op = 8 then deliverFlush s c n p
  else if p.op = 10 then deliverReply s c n p
  else (.placed, deliverConv s c n p)

/-- A packet whose turn has come: one that arrived for an aborted collective is refused (R338). -/
def deliverHeld (s : State) (c n : Nat) (p : Packet) : Fate × State :=
  if connAborted s c n && !isConvOp p.op then (.refused 0, s) else deliver s c n p

/-- The next expected number after all that have been accepted in a row, fuel k. -/
def advance (seen : List Nat) : Nat → Nat → Nat
  | 0, n => n
  | k + 1, n => if seen.contains n then advance seen k (n + 1) else n

/-- A packet has been accepted in unordered mode. -/
def markSeen (m : ModeRun) (psn : Nat) : ModeRun :=
  let seen := psn :: m.seen
  let nx := advance seen (seen.length + 1) m.rxNext
  { m with rxNext := nx, seen := seen.filter fun k => decide (nx ≤ k) }

/-- An earlier message of the connection in ordered mode is not wholly placed, so that a packet of another message must wait (R251). -/
def blocked (s : State) (c n : Nat) (p : Packet) : Bool :=
  s.rx.any fun m => m.lane == connLane c n 1 && !m.failed && m.msg != p.msg

/-- The number of a packet in ordered mode has been taken. -/
def takeNext (s : State) (c n : Nat) : State :=
  let x := connRun s c n
  putConn s c n (x.setMode 1 { x.m1 with rxNext := x.m1.rxNext + 1, held := x.m1.held.filter fun p => decide (x.m1.rxNext < p.psn) })

/-- Deliver the packets held in ordered mode whose turn has come, fuel k. A refused one is negatively acknowledged; one for which there is
no room stays. -/
def releaseHeld (c n : Nat) : Nat → State → State
  | 0, s => s
  | k + 1, s =>
    let m := (connRun s c n).m1
    match m.held.find? fun p => p.psn == m.rxNext with
    | none => s
    | some p =>
      if blocked s c n p then s
      else
        let r := deliverHeld s c n p
        match r.1 with
        | .placed => releaseHeld c n k (takeNext r.2 c n)
        | .refused code => releaseHeld c n k (reply (takeNext r.2 c n) p 1 code)
        | .dropped => if p.op = 8 then releaseHeld c n k (takeNext r.2 c n) else s

/-- Every RMA write packet that a flush covers has been accepted and placed: the flush carries the sender's next numbers of both modes. -/
def flushCovered (s : State) (c n : Nat) (p : Packet) : Bool :=
  let x := connRun s c n
  decide (p.roff.toNat ≤ x.m0.rxNext) && decide (p.tag.toNat ≤ x.m1.rxNext) &&
  !(s.rx.any fun m => m.ctx == c && m.conn == n && m.op == 6 && !m.failed)

/-- Acknowledge the flushes of a connection whose writes have been placed (R255). -/
def settleFlushes (s : State) (c n : Nat) : State :=
  let x := connRun s c n
  let go := x.flushes.filter (flushCovered s c n)
  go.foldl (fun s p => reply s p 0 0) (putConn s c n { x with flushes := x.flushes.filter fun p => !flushCovered s c n p })

/-- What the receive side of a connection can do now: held packets, flushes, flags. -/
def settleConn (s : State) (c n : Nat) : State :=
  let s := releaseHeld c n ((connRun s c n).m1.held.length + 1) s
  settleFlags (settleFlushes s c n)

/-- A packet reaches its connection: a duplicate is acknowledged again, one beyond the window is dropped, in ordered mode an early one is
held if there is room, and what is delivered is answered (R234, R251). -/
def acceptPacket (s : State) (c n : Nat) (p : Packet) : State :=
  let x := connRun s c n
  let m := x.mode p.mode
  if p.psn < m.rxNext ∨ m.seen.contains p.psn ∨ (m.held.any fun q => q.psn == p.psn) then
    if p.op = 8 ∧ (x.flushes ++ m.held).any (fun f => f.psn == p.psn && f.mode == p.mode) then s else reply s p 0 0
  else if m.rxNext + 1 + Config.rxWindow < p.psn then s
  else if p.mode = 1 ∧ (p.psn ≠ m.rxNext ∨ blocked s c n p) then
    if !bufferRoom s p.data.length then s
    else
      let s := putConn s c n (x.setMode 1 { m with held := m.held ++ [p] })
      if p.op = 8 then s else reply s p 0 0
  else
    let r := deliver s c n p
    let taken (s : State) : State :=
      if p.mode = 1 then takeNext s c n
      else let y := connRun s c n; putConn s c n (y.setMode 0 (markSeen y.m0 p.psn))
    match r.1 with
    | .placed => settleConn (reply (taken r.2) p 0 0) c n
    | .refused code => settleConn (reply (taken r.2) p 1 code) c n
    | .dropped => if p.op = 8 then settleConn (taken r.2) c n else r.2

/-- A packet that is refused for an aborted collective takes its sequence number, without its bytes (R338). -/
def passPacket (s : State) (c n : Nat) (p : Packet) : State :=
  let x := connRun s c n
  let m := x.mode p.mode
  if p.psn < m.rxNext ∨ m.seen.contains p.psn ∨ (m.held.any fun q => q.psn == p.psn) ∨ m.rxNext + 1 + Config.rxWindow < p.psn then s
  else if p.mode = 0 then putConn s c n (x.setMode 0 (markSeen m p.psn))
  else settleConn (putConn s c n (x.setMode 1 { m with held := m.held ++ [{ p with data := [] }] })) c n

/-- What has arrived for a collective's serving connections and is not yet placed or counted is discarded (R338). -/
def dropArrivals (s : State) (c : Nat) (serves : Nat → Bool) : State :=
  let gone := (s.rx.filter fun m => m.ctx == c && serves m.conn).map (·.id)
  let waits := (s.conns.filter fun e => e.1 / 4096 == c && serves (e.1 % 4096)).flatMap fun e => e.2.flushes
  let s := s.keepHeld fun _ h => h.msg.all fun i => !gone.contains i
  let s := { s with
    rx := s.rx.filter (fun m => !gone.contains m.id),
    incs := s.incs.filter (fun i => !(i.ctx == c && i.conn.any serves)),
    conns := s.conns.map fun e => if e.1 / 4096 = c ∧ serves (e.1 % 4096) then (e.1, { e.2 with flushes := [] }) else e }
  waits.foldl (fun s p => reply s p 1 0) s

/-- A packet reaches a port (R249, R256, R262). -/
def netArrive (p : Packet) (s : State) : State :=
  match claims s p with
  | [] => refusePacket s p
  | [(c, n)] =>
    if p.sec || decide (1 < p.mode) || !opSupported p.op then refusePacket s p
    else if !admits s c then reply s p 1 0
    else if !connPermits s c n p.mode then refusePacket s p
    else if connAborted s c n ∧ !isConvOp p.op then passPacket (reply s p 1 0) c n p
    else acceptPacket s c n p
  | _ => reply { s with netAmb := s.netAmb + 1 } p 1 0

/-- The first message to the package itself whose turn has come: its place. -/
def nextOwn (s : State) : Option Nat :=
  (List.range s.own.length).find? fun i => match s.own[i]? with | some o => ownReady s i o | none => false

/-- Messages to the package itself whose turn has come arrive, fuel k. -/
def releaseOwn : Nat → State → State
  | 0, s => s
  | k + 1, s =>
    match nextOwn s with
    | none => s
    | some i =>
      match s.own[i]? with
      | none => s
      | some o => releaseOwn k (ownArrives { s with own := s.own.eraseIdx i } o)

/-- The receive side of every connection goes on with what it holds: packets that were to wait for an earlier message, flushes, flags. -/
def resumeRx (s : State) : State :=
  s.conns.foldl (fun s e => settleConn s (e.1 / 4096) (e.1 % 4096)) (releaseOwn (s.own.length + 1) s)

/-- PACKET_ARRIVAL: a packet arrives at a port; without one, the receive side goes on with what it holds (R251). -/
def execPacketArrival (p : Option Packet) (s : State) : Out := .next (match p with | some p => netArrive p s | none => resumeRx s)

/-- RMA_WRITE_ARRIVAL: a packet of an RMA write (R254, R268). -/
def execRmaWriteArrival (p : Packet) (s : State) : Out := .next (netArrive { p with op := 6 } s)

/-- RMA_READ_ARRIVAL: an RMA read (R254, R268, R320). -/
def execRmaReadArrival (p : Packet) (s : State) : Out := .next (netArrive { p with op := 7 } s)

/-- FLUSH_ARRIVAL: a flush (R255). -/
def execFlushArrival (p : Packet) (s : State) : Out := .next (netArrive { p with op := 8 } s)

end Sys2Proof.Machine
end

