-- ==== Sys2Proof/Machine/CopyOps.lean ====
section
/-! DEFINITION. The copy engine: how issues move data, local and peer copies, reductions, multicast, the aperture, semaphore posts and the
network operations (R211 to R230, R302, R303, R332, R431). -/
namespace Sys2Proof.Machine

/-- A copy record that has started: its core, context, slot counter, words, whether it was accepted in the second buffer half, the window
registers as it found them, its B block once it has read it, and the order that its issues take. -/
structure CopyRun where
  p    : Nat
  c    : Nat
  slot : BitVec 32
  r    : Rec
  ph   : Bool
  win  : Tbl Word
  blk  : Option Nat
  order : List Nat
deriving DecidableEq, Repr

/-! ### Where a run lies -/

/-- A run of bytes: in the scratchpad of a core, or in global memory. -/
inductive Place where
  | sp (q a : Nat)
  | glob (ea : Nat)
deriving DecidableEq, Repr

/-- The run of an operand at an index of the nest: windows are read when the record starts (R129), tile operands are resolved through the
team (R343). -/
def placeOf (s : State) (x : CopyRun) (d : Desc) (i : Nat × Nat × Nat × Nat) : Place :=
  if d.space = 5#4 then
    let w := tget x.win (d.base.toNat / 2 ^ 28) 0#64
    let o : Int := addrAt d i - d.origin
    .glob (BitVec.ofInt 64 ((w.toNat : Int) + (d.base.toNat % 2 ^ 28 : Nat) + o)).toNat
  else if d.space = 4#4 then .sp (teamCore s x.p d.tile) (addrAt d i).toNat
  else .sp x.p (recAddr s x.p x.ph (addrAt d i))

/-- A global run is aligned as R211 asks. -/
def Place.aligned (x : Place) (al : Nat) : Bool := match x with | .sp _ _ => true | .glob ea => ea % al == 0

/-- The cores among places, each once. -/
def destCores (ps : List Place) : List Nat := (ps.filterMap fun x => match x with | .sp q _ => some q | .glob _ => none).eraseDups

/-! ### Moving runs in pieces of at most a line -/

end Sys2Proof.Machine

namespace Sys2Proof
/-- Bytes of a piece. -/
def Rec.piece (r : Rec) : Nat := min r.run 64
end Sys2Proof

namespace Sys2Proof.Machine

/-- Cut a number into n pieces of k bytes. -/
def cut (k : Nat) : Nat → Nat → List (Nat × Bool)
  | 0, _ => []
  | n + 1, v => (v % 2 ^ (8 * k), false) :: cut k n (v / 2 ^ (8 * k))

/-- An access to global memory fails with a cause: a poisoned line is consumed. -/
def globErr (cause ea idx : Nat) : EngErr :=
  if cause = 0x22 then .consumed 1 (BitVec.ofNat 64 ea) idx else .fault cause 0 (BitVec.ofNat 64 ea) idx

/-- A piece of k bytes of global memory as an issue reads it: each word that the engine has read ahead is as it was then (R325). -/
def farRead (x : CopyRun) (ea k v : Nat) (s : State) : Nat :=
  match aheadOf s x.p, resolve s x.p x.c ea 4 with
  | e :: es, .ok key => rdN ((e :: es).foldl (fun m e => if key - key % 64 ≤ e.1 ∧ e.1 < key + k then wrN m e.1 8 e.2 else m) (wrN [] key k v)) key k
  | _, _ => v

/-- Read n pieces of k bytes of global memory, each with whether it is poisoned (R414). -/
def readGlobal (x : CopyRun) (idx k : Nat) : Nat → Nat → State → Except EngErr (List (Nat × Bool) × State)
  | 0, _, s => .ok ([], s)
  | n + 1, ea, s =>
    if isControl (ea % 2 ^ 56) then .error (.fault causeUnmapped 0 (BitVec.ofNat 64 ea) idx)
    else
      match homeRead s x.p x.c ea k 4 with
      | .error e => .error (globErr e.1 e.2 idx)
      | .ok (v, bad, s) =>
        match readGlobal x idx k n (ea + k) s with
        | .error e => .error e
        | .ok (ps, s') => .ok ((farRead x ea k v s, bad) :: ps, s')

/-- Read a run. -/
def readRun (x : CopyRun) (idx : Nat) (at' : Place) (s : State) : Except EngErr (List (Nat × Bool) × State) :=
  match at' with
  | .sp q a =>
    if spBad s q a x.r.run then .error (.consumed 0 (BitVec.ofNat 64 a) idx)
    else .ok (cut (x.r.piece) (x.r.run / x.r.piece) (opRead s x.p q a x.r.run), spFix s q a x.r.run)
  | .glob ea => readGlobal x idx x.r.piece (x.r.run / x.r.piece) ea s

/-- Poison the words of n bytes of a scratchpad: two positions in error each. -/
def poisonSp (s : State) (q a n : Nat) : State :=
  { s with ecc := (wordKeys (spKey q a) n).foldl (fun t k => tput t k [0, 1] []) s.ecc }

/-- Poison a line of a stack: nine symbols in error. A sync object's line has taken no store (R315). -/
def poisonLine (s : State) (req c ea : Nat) : State :=
  match resolve s req c ea 2 with
  | .error _ => s
  | .ok key => if (hbmDie key).isSome && !isObjHome s key then { s with ecc := tput s.ecc (key - key % 64) (List.range 9) [] } else s

/-- Write pieces of k bytes to a scratchpad. -/
def writeRunSp (q k : Nat) : List (Nat × Bool) → Nat → State → State
  | [], _, s => s
  | (v, bad) :: ps, a, s =>
    let s := spWrite s q a k v
    writeRunSp q k ps (a + k) (if bad then poisonSp s q a k else s)

/-- Write pieces of k bytes to global memory, each at its home (R215, R230). -/
def writeGlobal (x : CopyRun) (idx k : Nat) : List (Nat × Bool) → Nat → State → Except EngErr State
  | [], _, s => .ok s
  | (v, bad) :: ps, ea, s =>
    if isControl (ea % 2 ^ 56) then .error (.fault causeUnmapped 0 (BitVec.ofNat 64 ea) idx)
    else
      let o := ea % 64
      match homeWrite s x.p x.c (ea - o) 64 (v * 2 ^ (8 * o)) ((2 ^ k - 1) * 2 ^ o) 2 with
      | .error e => .error (if e.cause = 0x22 then .consumed e.detail (BitVec.ofNat 64 e.addr) idx else .fault e.cause e.detail (BitVec.ofNat 64 e.addr) idx)
      | .ok s => writeGlobal x idx k ps (ea + k) (if bad then poisonLine s x.p x.c ea else s)

/-- Write a run. -/
def writeRun (x : CopyRun) (idx : Nat) (at' : Place) (ps : List (Nat × Bool)) (s : State) : Except EngErr State :=
  match at' with
  | .sp q a => .ok (writeRunSp q x.r.piece ps a s)
  | .glob ea => writeGlobal x idx x.r.piece ps ea s

/-- The whole run as a number. -/
def joinRun (k : Nat) : List (Nat × Bool) → Nat
  | [] => 0
  | (v, _) :: ps => v + 2 ^ (8 * k) * joinRun k ps

/-! ### Semaphores of destinations and outstanding parts -/

/-- The destination semaphore of a record is raised at each destination core (R214). -/
def raiseDests (x : CopyRun) (qs : List Nat) (s : State) : State :=
  if x.r.mods.getLsbD 13 then qs.eraseDups.foldl (fun s q => raiseBy s q x.p 2 x.slot (x.r.mf 12 8) false) s else s

/-- One part more is outstanding. -/
def addPart (s : State) (x : CopyRun) : State := s.upFlight x.p 2 x.slot fun f => { f with pend := f.pend + 1 }

/-- The record is to complete with an error status. -/
def failFlight (s : State) (x : CopyRun) (st : Nat) : State := markPart s x.c (.record x.p x.slot) st

/-- The record of the flight has met an error status. -/
def flightBad (s : State) (x : CopyRun) : Bool := (s.co x.p).cq.flight.any fun f => f.slot == x.slot && f.err

/-! ### COPY, FILL, PUT and GET (R219 to R221) -/

/-- FILL's byte over a run. -/
def fillPieces (r : Rec) : List (Nat × Bool) :=
  List.replicate (r.run / r.piece) (r.mf 15 8 * ((2 ^ (8 * r.piece) - 1) / 255), false)

/-- One issue of COPY, PUT or GET. -/
def moveIssue (x : CopyRun) (idx : Nat) (i : Nat × Nat × Nat × Nat) (s : State) : Except EngErr State :=
  match readRun x idx (placeOf s x x.r.a i) s with
  | .error e => .error e
  | .ok (ps, s) => writeRun x idx (placeOf s x x.r.d i) ps s

/-- One issue of FILL. -/
def fillIssue (x : CopyRun) (idx : Nat) (i : Nat × Nat × Nat × Nat) (s : State) : Except EngErr State :=
  writeRun x idx (placeOf s x x.r.d i) (fillPieces x.r) s

/-- Every global run of an operand is aligned (R211). -/
def runsAligned (s : State) (x : CopyRun) (d : Desc) : Bool :=
  d.space != 5#4 || (nest x.r).all fun i => (placeOf s x d i).aligned x.r.piece

/-- RECORD_INVALID with rule 12, at the record's start. -/
def badRecord : EngErr := .fault causeInvalid 12 0 0

/-- After a record's issues: its destination semaphore. -/
def thenRaise (x : CopyRun) (qs : State → List Nat) (e : Eff) : Eff :=
  match e with
  | .done l s => .done l (raiseDests x (qs s) s)
  | .err e s => .err e s

/-- The cores of the D runs. -/
def dCores (x : CopyRun) (s : State) : List Nat := destCores ((nest x.r).map (placeOf s x x.r.d))

/-- COPY, PUT and GET. -/
def moveEffect (x : CopyRun) (pos : Nat) (s : State) : Eff :=
  if !(runsAligned s x x.r.d && runsAligned s x x.r.a) then .err badRecord s
  else thenRaise x (dCores x) (runFrom (moveIssue x) x.order x.r pos s)

/-- FILL. -/
def fillEffect (x : CopyRun) (pos : Nat) (s : State) : Eff :=
  if !runsAligned s x x.r.d then .err badRecord s else runFrom (fillIssue x) x.order x.r pos s

/-! ### PUTRED (R222, R329, R335) -/

/-- Combine pieces of k bytes at their home: at the turn of a time-slot table where one holds the address, else at once. -/
def reduceGlobal (x : CopyRun) (idx k tag op : Nat) : List (Nat × Bool) → Nat → State → Except EngErr State
  | [], _, s => .ok s
  | (v, _) :: ps, ea, s =>
    if isControl (ea % 2 ^ 56) then .error (.fault causeUnmapped 0 (BitVec.ofNat 64 ea) idx)
    else
      match spanFault s x.p x.c ea k 6, resolve s x.p x.c ea 6 with
      | some e, _ => .error (globErr e.1 e.2 idx)
      | none, .error e => .error (globErr e ea idx)
      | none, .ok key =>
        if lineUncorrectable s key then .error (.consumed 1 (BitVec.ofNat 64 ea) idx)
        else
          let h : Held :=
            { src := x.p / 288 * 256 + s.lcoreOf x.p, ea := ea, n := k, v := v, fmt := tag, op := op, ref := some (x.p, x.slot), msg := none,
              total := k, fin := true }
          let s := addPart s x
          let s := match slotFor s x.c ea with
            | some i => slotArrive s x.c i h
            | none => combineHeld s x.c h
          reduceGlobal x idx k tag op ps (ea + k) s

/-- One issue of PUTRED. -/
def putredIssue (x : CopyRun) (idx : Nat) (i : Nat × Nat × Nat × Nat) (s : State) : Except EngErr State :=
  match readRun x idx (placeOf s x x.r.a i) s with
  | .error e => .error e
  | .ok (ps, s) =>
    let tag := x.r.d.tag.toNat
    let op := x.r.mf 7 4
    match placeOf s x x.r.d i with
    | .sp q a =>
      if spBad s q a x.r.run then .error (.consumed 0 (BitVec.ofNat 64 a) idx)
      else .ok (combineSp (spFix s q a x.r.run) q a x.r.run (joinRun x.r.piece ps) tag op)
    | .glob ea => if slotsShort s x.p ps.length then .error (.wait idx) else reduceGlobal x idx x.r.piece tag op ps ea s

/-- PUTRED. -/
def putredEffect (x : CopyRun) (pos : Nat) (s : State) : Eff :=
  if !runsAligned s x x.r.d then .err badRecord s else thenRaise x (dCores x) (runFrom (putredIssue x) x.order x.r pos s)

/-! ### MCAST (R223) -/

/-- One issue of MCAST to the logical cores of a list. -/
def mcastIssue (x : CopyRun) (js : List Nat) (idx : Nat) (i : Nat × Nat × Nat × Nat) (s : State) : Except EngErr State :=
  match readRun x idx (placeOf s x x.r.a i) s with
  | .error e => .error e
  | .ok (ps, s) => .ok (js.foldl (fun s j => writeRunSp (teamCore s x.p j) x.r.piece ps (addrAt x.r.d i).toNat s) s)

/-- The n bytes of the B block of an MCAST or network record, which it reads once, when it starts. -/
def blockOf (x : CopyRun) (n : Nat) (s : State) : Except EngErr (Nat × State) :=
  match x.blk with
  | some v => .ok (v, s)
  | none =>
    let b := recAddr s x.p x.ph x.r.b.origin
    if spBad s x.p b n then .error (.consumed 0 (BitVec.ofNat 64 b) 0)
    else
      let v := opRead s x.p x.p b n
      .ok (v, (spFix s x.p b n).upFlight x.p 2 x.slot fun f => { f with blk := some v })

/-- MCAST: the peer mask is read when the record starts. -/
def mcastEffect (x : CopyRun) (pos : Nat) (s : State) : Eff :=
  match blockOf x 32 s with
  | .error e => .err e s
  | .ok (m, s) =>
    if 2 ^ teamSize s x.p ≤ m then .err badRecord s
    else
      let js := (List.range 256).filter fun j => m.testBit j
      if js = [] then .done ⟨[], (issues x.r).length⟩ s
      else thenRaise x (fun s => js.map (teamCore s x.p)) (runFrom (mcastIssue x js) x.order x.r pos s)

/-! ### APUT (R224, R302, R303, R332) -/

/-- The elements of a run at a byte of a tree's span. -/
def spanElems (tag b n v : Nat) : List (Nat × Nat) :=
  let e := elemSize tag
  (List.range (n / e)).map fun k => (b / e + k, (v / 2 ^ (8 * e * k)) % 2 ^ (8 * e))

/-- The tree that an APUT names. -/
def aputTree (r : Rec) : Nat := r.d.origin / 4096

/-- The team of a core. -/
def teamNo (s : State) (p : Nat) : Option Nat := ((s.co p).task).map (·.team)

/-- A tree's entry may be bound to a team of a size: every node and DCORE is below it (R332). -/
def bindOk (e : List Nat) (size : Nat) : Bool :=
  decide (bitsOf (treeEntWord e 0) 47 40 < size) && (List.range 256).all fun j => !isNode e j || decide (j < size)

/-- What an APUT checks when it starts (R302, R332): the tree loaded and bound, or free to be bound, to the issuing core's team; the
core a node; the operation and the tag; the extent. The tree is judged as it was loaded (R331). -/
def aputOk (s : State) (x : CopyRun) : Bool :=
  let t := aputTree x.r
  let y := treeRun s x.c t
  let sh := treeShape y.entry
  let span := sh.2.2 * elemSize sh.1
  y.loaded &&
  (match y.team, teamNo s x.p with
    | some a, some b => a == b
    | none, some _ => bindOk y.entry (teamSize s x.p)
    | _, none => false) &&
  isNode y.entry (s.lcoreOf x.p) && x.r.mf 7 4 == sh.2.1 && x.r.d.tag.toNat == sh.1 &&
  (nest x.r).all fun i => decide ((addrAt x.r.d i).toNat % 4096 + x.r.run ≤ span)

/-- One issue of APUT: its contribution is accepted, or the issue must wait for the current round to end; a closed tree accepts it and
sends nothing. -/
def aputIssue (x : CopyRun) (idx : Nat) (i : Nat × Nat × Nat × Nat) (s : State) : Except EngErr State :=
  match readRun x idx (placeOf s x x.r.a i) s with
  | .error e => .error e
  | .ok (ps, s) =>
    let t := aputTree x.r
    if treeClosed s x.c t then .ok s
    else
      match contribute s x.c t (s.lcoreOf x.p)
          (spanElems x.r.d.tag.toNat ((addrAt x.r.d i).toNat % 4096) x.r.run (joinRun x.r.piece ps)) with
      | some s => .ok s
      | none => .error (.wait idx)

/-- APUT from issue pos on. -/
def aputEffect (x : CopyRun) (pos : Nat) (s : State) : Eff :=
  if pos = 0 ∧ !aputOk s x then .err badRecord s
  else
    let t := aputTree x.r
    let s := if pos = 0 then putTree s x.c t { treeRun s x.c t with team := teamNo s x.p } else s
    runFrom (aputIssue x) x.order x.r pos s

/-! ### SEMPOST (R225) -/

/-- SEMPOST: a raise for each issue. -/
def sempostEffect (x : CopyRun) (pos : Nat) (s : State) : Eff :=
  runFrom (fun _ _ s => .ok (raiseBy s (teamCore s x.p x.r.d.tile) x.p 2 x.slot (x.r.d.origin % 32) (x.r.mods.getLsbD 8))) x.order x.r pos s

/-! ### Network operations (R226 to R229, R431) -/

/-- A network descriptor (Table 11.10). -/
structure NetDesc where
  conn : Nat
  mode : Nat
  kind : Nat
  w1   : Word
  key  : BitVec 32
  ms   : Option Nat
deriving DecidableEq, Repr

/-- The kinds that an operation takes. -/
def kindOk (op kind : Nat) : Bool :=
  if op = 0x20 then kind == 1 || kind == 2 else if op = 0x21 then kind == 6 else if op = 0x22 then kind == 7 else kind == 8

/-- Fields common to network descriptors and send blocks: words 0 to 3 obey Table 11.10. -/
def headOk (w : Nat → Nat) : Bool :=
  let kind := w 0 % 256
  bitsOf (w 0) 43 16 == 0 && decide (bitsOf (w 0) 15 8 ≤ 1) && (!(kind == 1 || kind == 8) || w 1 == 0) && w 2 < 2 ^ 32 &&
  (kind == 6 || kind == 7 || w 2 == 0) && w 3 < 2 ^ 21 && decide (w 3 % 2 ^ 20 < 524288)

/-- The descriptor of eight words for an operation, if it obeys Table 11.10. -/
def netDesc (op : Nat) (w : Nat → Nat) : Option NetDesc :=
  let conn := bitsOf (w 0) 63 44
  if headOk w && kindOk op (w 0 % 256) && (conn != 0xF_FFFF || op == 0x20) && w 4 == 0 && w 5 == 0 && w 6 == 0 && w 7 == 0 then
    some { conn := conn, mode := bitsOf (w 0) 15 8, kind := w 0 % 256, w1 := BitVec.ofNat 64 (w 1), key := BitVec.ofNat 32 (w 2),
           ms := if bitsOf (w 3) 20 20 = 1 then some (w 3 % 2 ^ 20) else none }
  else none

/-- A message of an issue of a network record. -/
def netMsg (x : CopyRun) (n : NetDesc) (roff : Word) (len data carry : Nat) : OutMsg :=
  { ctx := x.c, conn := n.conn, mode := n.mode, op := n.kind, tag := if n.kind = 2 then n.w1 else 0, key := n.key, roff := roff, len := len,
    data := data, carry := carry, origin := .record x.p x.slot, ms := n.ms }

/-- The offset of an operand's run from its base. -/
def runOff (d : Desc) (i : Nat × Nat × Nat × Nat) : Word := BitVec.ofInt 64 (addrAt d i - d.origin)

/-- A message to this package's own Crossroads die (R431): its part of the record ends once it has arrived, placed or REFUSED. -/
def sendOwn (x : CopyRun) (n : NetDesc) (v : Nat) (s : State) : State :=
  sendToSelf (addPart s x)
    { ctx := x.c, lane := ownLane x.p, mode := n.mode, op := n.kind, len := x.r.run, data := v, tag := if n.kind = 2 then n.w1 else 0,
      origin := .record x.p x.slot, ms := n.ms }

/-- One issue of a network record; once an error is known no further issue starts (R217). It takes a request slot (Table 1.1). -/
def netIssue (x : CopyRun) (op : Nat) (n : NetDesc) (idx : Nat) (i : Nat × Nat × Nat × Nat) (s : State) : Except EngErr State :=
  if flightBad s x then .ok s
  else if slotsFull s x.p then .error (.wait idx)
  else if op = 0x22 then
    let m := netMsg x n (n.w1 + runOff x.r.d i) x.r.run 0 0
    let r := sendMessage (addPart s x) m
    let q : ReadReq :=
      { ctx := x.c, conn := n.conn, mode := n.mode, msg := r.1, core := x.p, off := recAddr s x.p x.ph (addrAt x.r.d i), len := x.r.run, got := 0,
        origin := .record x.p x.slot, ms := n.ms }
    .ok { r.2 with reads := r.2.reads ++ [q] }
  else if !bufferRoom s x.r.run then .error (.wait idx)
  else
    match readRun x idx (placeOf s x x.r.a i) s with
    | .error e => .error e
    | .ok (ps, s) =>
      let v := joinRun x.r.piece ps
      if n.conn = 0xF_FFFF then .ok (sendOwn x n v s)
      else .ok (sendMessage (addPart s x) (netMsg x n (if op = 0x21 then n.w1 + runOff x.r.a i else 0) x.r.run v x.r.run)).2

/-- A flush carries the next sequence numbers of both modes: every earlier write of the connection has a lower one (R229, R255). -/
def sendFlush (x : CopyRun) (n : NetDesc) (s : State) : State :=
  let y := connRun s x.c n.conn
  let m := { netMsg x n (BitVec.ofNat 64 y.m0.next) 0 0 0 with tag := BitVec.ofNat 64 y.m1.next }
  (sendMessage (addPart s x) m).2

/-- NSEND, NWRITE, NREAD and NFLUSH: the descriptor is read when the record starts. -/
def netEffect (x : CopyRun) (op pos : Nat) (s : State) : Eff :=
  match blockOf x 64 s with
  | .error e => .err e s
  | .ok (v, s) =>
    match netDesc op fun j => (v / 2 ^ (64 * j)) % 2 ^ 64 with
    | none => .err badRecord s
    | some n =>
      let st := if n.conn = 0xF_FFFF then 0 else connStatus s x.c n.conn n.mode
      if st ≠ 0 then .done ⟨[], (issues x.r).length⟩ (failFlight s x st)
      else if op = 0x23 then .done ⟨[], 1⟩ (sendFlush x n s)
      else runFrom (netIssue x op n) (if n.mode = 1 then [] else x.order) x.r pos s

/-- The effect of a copy record from issue pos on. -/
def copyEffect (x : CopyRun) (op pos : Nat) (s : State) : Eff :=
  if op = 0x02 then fillEffect x pos s
  else if op = 0x12 then putredEffect x pos s
  else if op = 0x13 then mcastEffect x pos s
  else if op = 0x14 then aputEffect x pos s
  else if op = 0x18 then sempostEffect x pos s
  else if 0x20 ≤ op then netEffect x op pos s
  else moveEffect x pos s

end Sys2Proof.Machine
end

