-- ==== Sys2Proof/Machine/Vector.lean ====
section
/-! DEFINITION. The vector engine: what one issue of each operation reads, forms and writes (R119 to R123, R182 to R210). -/
namespace Sys2Proof.Machine

/-! ### Lanes -/

/-- n lanes of w bits, lane 0 first. -/
def lanesOf (w : Nat) : Nat → Nat → List Nat
  | 0, _ => []
  | n + 1, v => v % 2 ^ w :: lanesOf w n (v / 2 ^ w)

/-- Lanes of w bits as one number. -/
def packLanes (w : Nat) : List Nat → Nat
  | [] => 0
  | x :: xs => x % 2 ^ w + 2 ^ w * packLanes w xs

/-- The lane width of a tag in bits. -/
def laneBits (t : Nat) : Nat := 1024 / laneCount t

/-- New lanes over old ones; a lane without a new value keeps its own. -/
def mergeLanes (old : List Nat) (new : List (Option Nat)) : List Nat := List.zipWith (fun o n => n.getD o) old new

/-- The activity of L lanes under a mask (R183). -/
def activeLanes (m : Nat) (l : Nat) : List Bool := (List.range l).map fun i => m / 2 ^ (i * (128 / l)) % 2 == 1

/-! ### What an issue writes -/

/-- A write of an issue: a vector register with its tag, some of 32 accumulator entries, the bytes of a scratchpad span that a mask
names, a mask register, or the spill map's entry of a group. -/
inductive Wr where
  | reg (n tag v : Nat)
  | acc (e : Nat) (vs : List (Option Nat))
  | sp (a n v mask : Nat)
  | msk (n v : Nat)
  | park (g : Nat) (v : BitVec 9)
deriving DecidableEq, Repr

/-- What an issue gives: its writes, its flags, and the words it would hand to the compare unit (R187). -/
structure VOut where
  ws  : List Wr
  fl  : Word
  kat : List Nat
deriving DecidableEq, Repr

/-- The block of an accumulator entry (R120). -/
def accBlock (e : Nat) : Nat := 8 * (e / 512 / 32) + e % 512 / 64

/-- Write one entry of the accumulator; its block's written bit is set. -/
def Core.putAcc (x : Core) (e v : Nat) : Core :=
  { x with acc := tput x.acc e (BitVec.ofNat 32 v) 0#32, written := setBit x.written (accBlock e) true }

/-- Write the given ones of consecutive entries. -/
def putAccs : Nat → List (Option Nat) → Core → Core
  | _, [], x => x
  | e, v :: vs, x => putAccs (e + 1) vs (match v with | some v => x.putAcc e v | none => x)

/-- Bytes of the masked write that are written whole words: they get fresh check bits. -/
def spWriteMasked (s : State) (p a n v mask : Nat) : State :=
  if mask = 2 ^ n - 1 then spWrite s p a n v
  else
    let s := { s with mem := wrMasked s.mem (spKey p a) n v mask }
    if s.ecc = [] then s
    else { s with ecc := s.ecc.filter fun e => !(decide (spKey p a ≤ e.1) && decide (e.1 + 8 ≤ spKey p a + n) &&
      mask / 2 ^ (e.1 - spKey p a) % 256 == 255) }

/-- Perform a write on a core. -/
def applyWr (p : Nat) (s : State) (w : Wr) : State :=
  match w with
  | .reg n tag v => s.upCo p fun x =>
      { x with vregs := tput x.vregs n (BitVec.ofNat 1024 v) 0, vtags := tput x.vtags n (BitVec.ofNat 8 tag) 0,
               vempty := setBit x.vempty n false }
  | .acc e vs => s.upCo p (putAccs e vs)
  | .sp a n v mask => spWriteMasked s p a n v mask
  | .msk n v => s.upCo p fun x => { x with masks := tput x.masks n (BitVec.ofNat 128 v) 0, mempty := setBit x.mempty n false }
  | .park g v => s.upCo p fun x => { x with spill := tput x.spill g v 0 }

/-! ### What an issue reads -/

/-- The record in execution: its core, operation and fields, whether its scratchpad addresses move to the second half (R125), and TIE as it
stood when the record started (R147). -/
structure VCtx where
  p   : Nat
  op  : Nat
  r   : Rec
  ph  : Bool
  tie : Bool
deriving DecidableEq, Repr

/-- The bits of a vector register that an issue reads, with the check of its tag (R122): 1 D, 2 A, 3 B. -/
def readReg (k : VCtx) (which : Nat) (d : Desc) (a : Int) (j : Nat) (s : State) : Except EngErr Nat :=
  let x := s.co k.p
  if d.tag ≠ 0#8 ∧ tget x.vtags a.toNat 0 ≠ d.tag then .error (.fault causeFormat which 0 j) else .ok (tget x.vregs a.toNat 0).toNat

/-- A mask register; m0 reads all ones (R121). -/
def readMask (s : State) (p : Nat) (n : Nat) : Nat := if n = 0 then 2 ^ 128 - 1 else (tget (s.co p).masks n 0).toNat

/-- Whether the group of an entry is parked (R123). -/
def parked (x : Core) (e : Nat) : Bool := tget x.spill (e / 32) 0 ≠ 0#9

/-- n entries from an entry on, as an issue reads them. -/
def accRead (s : State) (p e n : Nat) : List Nat := (List.range n).map fun i => entryRead s p (e + i)

/-- A scratchpad span lies inside the scratchpad once the halves have been applied (log entry 30). -/
def spInside (a n : Nat) : Bool := decide (a + n ≤ 0x40_0000)

/-- A scratchpad span of an issue: n bytes in lanes of b bytes of which some are read. -/
def readSp (k : VCtx) (a : Int) (n b : Nat) (act : List Bool) (j : Nat) (s : State) : Except EngErr Nat :=
  let a := recAddr s k.p k.ph a
  if !spInside a n then .error (.fault causeInvalid 11 (BitVec.ofNat 64 a) j)
  else if s.ecc ≠ [] ∧ act.zipIdx.any (fun e => e.1 && spBad s k.p (a + b * e.2) b) then .error (.consumed 0 (BitVec.ofNat 64 a) j)
  else .ok (opRead s k.p k.p a n)

/-- A whole scratchpad span. -/
def readSpAll (k : VCtx) (a : Int) (n j : Nat) (s : State) : Except EngErr Nat := readSp k a n n [true] j s

/-- A write to a scratchpad span: n bytes under a byte mask. -/
def writeSp (k : VCtx) (a : Int) (n v mask j : Nat) (s : State) : Except EngErr (List Wr) :=
  let a := recAddr s k.p k.ph a
  if spInside a n then .ok [.sp a n v mask] else .error (.fault causeInvalid 11 (BitVec.ofNat 64 a) j)

/-- The byte mask of lanes of b bytes. -/
def bytesOfLanes (b : Nat) : List (Option Nat) → Nat
  | [] => 0
  | v :: vs => (if v.isSome then 2 ^ b - 1 else 0) + 2 ^ b * bytesOfLanes b vs

/-- The result of lanes in a register, in issue order for the compare unit. -/
def regOut (k : VCtx) (d : Int) (new : List (Option Nat)) (fl : Word) (s : State) : VOut :=
  let t := k.r.d.tag.toNat
  let w := laneBits t
  let old := lanesOf w (laneCount t) (tget (s.co k.p).vregs d.toNat 0).toNat
  { ws := [.reg d.toNat t (packLanes w (mergeLanes old new))], fl := fl, kat := new.filterMap id }

/-- Lanes of which the inactive ones give nothing. -/
def underMask (act : List Bool) (vs : List (Fl Nat)) : List (Option Nat) × Word :=
  (List.zipWith (fun a v => if a then some v.1 else none) act vs,
   (List.zipWith (fun (a : Bool) (v : Fl Nat) => if a then v.2 else 0#64) act vs).foldl (· ||| ·) 0#64)

/-! ### Lane operations -/

/-- The controls of a floating-point operation on a tag. -/
def fpCtlOf (r : Rec) (tag : Nat) : FpCtl := ⟨if tag = 2 then 7 else 23, r.mf 1 0, r.mods.getLsbD 2⟩

/-- A floating-point lane operation (R194). -/
def floatLane (op : Nat) (c : FpCtl) (a b d : Nat) : Fl Nat :=
  let x := fpDecode c.p a
  let y := fpDecode c.p b
  if op = 0x10 then fpAdd c x y
  else if op = 0x11 then fpSub c x y
  else if op = 0x12 then fpMul c x y
  else if op = 0x13 then fpFma c x y (fpDecode c.p d)
  else if op = 0x14 then fpMinMax c false x y
  else if op = 0x15 then fpMinMax c true x y
  else if op = 0x16 ∨ op = 0x17 then
    let v := ftzIn c.p c.ftz x
    if v.isNan then nanOut c v.isSnan
    else (fpEncode c.p (if op = 0x16 then (if v.neg then v.flip else v) else v.flip), 0)
  else if op = 0x18 then fpDiv c x y
  else if op = 0x19 then fpSqrt c x
  else if op = 0x1A then fpRsqrt c x
  else fpRcp c x

/-- Whether an integer tag is read signed (R195). -/
def tagSigned (t : Nat) : Bool := t != 6

/-- An integer lane operation (R195, R196). -/
def intLane (op : Nat) (t : Nat) (sat : Bool) (a b : Nat) : Fl Nat :=
  let w := laneBits t
  let x := intOf w (tagSigned t) a
  let y := intOf w (tagSigned t) b
  if op = 0x20 then intToInt w (tagSigned t) sat (x + y)
  else if op = 0x21 then intToInt w (tagSigned t) sat (x - y)
  else if op = 0x2C then intToInt w (tagSigned t) sat (x * y)
  else if op = 0x22 then (a &&& b, 0)
  else if op = 0x23 then (a ||| b, 0)
  else if op = 0x24 then (a ^^^ b, 0)
  else if op = 0x25 then (a * 2 ^ (b % w) % 2 ^ w, 0)
  else if op = 0x26 then (a / 2 ^ (b % w), 0)
  else if op = 0x27 then (wrapBits w (x / (2 ^ (b % w) : Nat)), 0)
  else if op = 0x28 then (wrapBits w (min x y), 0)
  else (wrapBits w (max x y), 0)

/-- The four byte products of an IDOT4 lane added to D (R197). -/
def dot4 (ta : Nat) (sat : Bool) (a b d : Nat) : Fl Nat :=
  let s := (List.zipWith (fun x y => intOf 8 (tagSigned ta) x * intOf 8 true y) (lanesOf 8 4 a) (lanesOf 8 4 b)).foldl (· + ·) 0
  intToInt 32 true sat (intOf 32 true d + s)

/-- A floating-point comparison (Table 11.2, R198). -/
def floatCmp (c : FpCtl) (cond a b : Nat) : Bool × Word :=
  let x := ftzIn c.p c.ftz (fpDecode c.p a)
  let y := ftzIn c.p c.ftz (fpDecode c.p b)
  let un := x.isNan || y.isNan
  let iv := x.isSnan || y.isSnan || (un && (cond == 2 || cond == 3))
  let lt := fpLess x y && !(x.isZero && y.isZero)
  let gt := fpLess y x && !(x.isZero && y.isZero)
  let eq := !lt && !gt
  (if cond = 0 then !un && eq else if cond = 1 then un || !eq else if cond = 2 then !un && lt else if cond = 3 then !un && (lt || eq) else un,
   if iv then flIV else 0)

/-- An integer comparison (Table 11.2). -/
def intCmp (t cond a b : Nat) : Bool :=
  let w := laneBits t
  let x := intOf w (tagSigned t) a
  let y := intOf w (tagSigned t) b
  if cond = 0 then a == b else if cond = 1 then a != b else if cond = 2 then decide (x < y) else if cond = 3 then decide (x ≤ y)
  else if cond = 4 then decide (a < b) else decide (a ≤ b)

/-- One conversion (Table 9.5, R201): from a tag to a tag. -/
def convert (r : Rec) (ta td v : Nat) : Fl Nat :=
  let fa := ta == 1 || ta == 2
  let fd := td == 1 || td == 2
  let ca := fpCtlOf r ta
  if ta = 7 then (e5m3ToFp32 v, 0)
  else if td = 7 then e5m3rn (ftzIn 23 ca.ftz (fpDecode 23 v))
  else if fa && fd then fpToFp ca.p (fpCtlOf r td) (fpDecode ca.p v)
  else if fa then fpToInt ca (laneBits td) (tagSigned td) (fpDecode ca.p v)
  else if fd then intToFp (fpCtlOf r td) (intOf (laneBits ta) (tagSigned ta) v)
  else intToInt (laneBits td) (tagSigned td) (r.mods.getLsbD 3) (intOf (laneBits ta) (tagSigned ta) v)

/-! ### The issues -/

/-- The mask of a record as an issue reads it. -/
def VCtx.mask (k : VCtx) (s : State) : Nat := readMask s k.p (k.r.mf 6 4)

/-- VLD and VLD.BC (R188). -/
def issueLoad (k : VCtx) (j : Nat) (d a : Int) (s : State) : Except EngErr VOut :=
  let t := k.r.d.tag.toNat
  let w := laneBits t
  let act := activeLanes (k.mask s) (laneCount t)
  if k.op = 0x02 then
    match readSpAll k a (w / 8) j s with
    | .error e => .error e
    | .ok v => .ok (regOut k d (act.map fun x => if x then some v else none) 0 s)
  else
    match readSp k a 128 (w / 8) act j s with
    | .error e => .error e
    | .ok v => .ok (regOut k d (List.zipWith (fun x y => if x then some y else none) act (lanesOf w (laneCount t) v)) 0 s)

/-- VST (R188). -/
def issueStore (k : VCtx) (j : Nat) (d a : Int) (s : State) : Except EngErr VOut :=
  let t := k.r.a.tag.toNat
  let w := laneBits t
  match readReg k 2 k.r.a a j s with
  | .error e => .error e
  | .ok v =>
    let ls := List.zipWith (fun x y => if x then some y else none) (activeLanes (k.mask s) (laneCount t)) (lanesOf w (laneCount t) v)
    match writeSp k d 128 v (bytesOfLanes (w / 8) ls) j s with
    | .error e => .error e
    | .ok ws => .ok { ws := ws, fl := 0, kat := [] }

/-- VMOV (R189). -/
def issueMove (k : VCtx) (j : Nat) (d a : Int) (s : State) : Except EngErr VOut :=
  let t := k.r.d.tag.toNat
  match readReg k 2 k.r.a a j s with
  | .error e => .error e
  | .ok v =>
    .ok (regOut k d (List.zipWith (fun x y => if x then some y else none) (activeLanes (k.mask s) (laneCount t))
      (lanesOf (laneBits t) (laneCount t) v)) 0 s)

/-- ACCRD (R190). -/
def issueAccrd (k : VCtx) (j : Nat) (d a : Int) (s : State) : Except EngErr VOut :=
  let x := s.co k.p
  let e := a.toNat
  if parked x e then .error (.fault causePark 0 0 j)
  else if k.r.a.tag ≠ 0#8 ∧ tget x.btags (accBlock e) 0 ≠ k.r.a.tag then .error (.fault causeFormat 2 0 j)
  else
    let ls := List.zipWith (fun x y => if x then some y else none) (activeLanes (k.mask s) 32) (accRead s k.p e 32)
    if k.r.d.space = 2#4 then
      let old := lanesOf 32 32 (tget x.vregs d.toNat 0).toNat
      .ok { ws := [.reg d.toNat k.r.d.tag.toNat (packLanes 32 (mergeLanes old ls))], fl := 0, kat := [] }
    else
      match writeSp k d 128 (packLanes 32 (ls.map (·.getD 0))) (bytesOfLanes 4 ls) j s with
      | .error e => .error e
      | .ok ws => .ok { ws := ws, fl := 0, kat := [] }

/-- ACCWR (R191). DESIGN CHOICE (log entry 116): a wrong tag of A comes before a parked group of D. -/
def issueAccwr (k : VCtx) (j : Nat) (d a : Int) (s : State) : Except EngErr VOut :=
  match readReg k 2 k.r.a a j s with
  | .error e => .error e
  | .ok v =>
    if parked (s.co k.p) d.toNat then .error (.fault causePark 0 0 j)
    else .ok { ws := [.acc d.toNat (List.zipWith (fun x y => if x then some y else none) (activeLanes (k.mask s) 32) (lanesOf 32 32 v))],
               fl := 0, kat := [] }

/-- PARK, its group known to be free (R192). -/
def issuePark (k : VCtx) (j : Nat) (d a : Int) (s : State) : Except EngErr VOut :=
  match readReg k 2 k.r.a a j s with
  | .error e => .error e
  | .ok v =>
    .ok { ws := [.acc d.toNat ((lanesOf 32 32 v).map some), .park (d.toNat / 32) (0x100#9 ||| (tget (s.co k.p).vtags a.toNat 0).setWidth 9)],
          fl := 0, kat := [] }

/-- UNPARK, its group known to be parked (R193). -/
def issueUnpark (k : VCtx) (d a : Int) (s : State) : VOut :=
  let x := s.co k.p
  { ws := [.reg d.toNat ((tget x.spill (a.toNat / 32) 0).toNat % 256) (packLanes 32 (accRead s k.p a.toNat 32)), .park (a.toNat / 32) 0],
    fl := 0, kat := [] }

/-- The lanes of D that FMA and IDOT4 read; a known-answer record reads zeros (R187). -/
def readD (k : VCtx) (d : Int) (j : Nat) (s : State) : Except EngErr Nat := if k.r.kat then .ok 0 else readReg k 1 k.r.d d j s

/-- Two source registers, and D where it is read. -/
def readTwo (k : VCtx) (j : Nat) (d a b : Int) (useB useD : Bool) (s : State) : Except EngErr (Nat × Nat × Nat) :=
  match readReg k 2 k.r.a a j s with
  | .error e => .error e
  | .ok va =>
    match (if useB then readReg k 3 k.r.b b j s else .ok 0) with
    | .error e => .error e
    | .ok vb =>
      match (if useD then readD k d j s else .ok 0) with
      | .error e => .error e
      | .ok vd => .ok (va, vb, vd)

/-- Three lists of lanes taken together. -/
def zip3 (f : Nat → Nat → Nat → Fl Nat) : List Nat → List Nat → List Nat → List (Fl Nat)
  | a :: as, b :: bs, c :: cs => f a b c :: zip3 f as bs cs
  | _, _, _ => []

/-- The lane-wise operations (R194 to R197). -/
def issueLanes (k : VCtx) (j : Nat) (d a b : Int) (s : State) : Except EngErr VOut :=
  let r := k.r
  let t := r.d.tag.toNat
  let w := laneBits t
  let n := laneCount t
  let useB := decide (k.op ≤ 0x15) || k.op == 0x18 || decide (0x20 ≤ k.op)
  let useD := k.op == 0x13 || k.op == 0x2D
  match readTwo k j d a b useB useD s with
  | .error e => .error e
  | .ok (va, vb, vd) =>
    let f : Nat → Nat → Nat → Fl Nat :=
      if k.op < 0x20 then floatLane k.op (fpCtlOf r t)
      else if k.op = 0x2D then dot4 r.a.tag.toNat (r.mods.getLsbD 3)
      else fun x y _ => intLane k.op t (r.mods.getLsbD 3) x y
    let o := underMask (activeLanes (k.mask s) n) (zip3 f (lanesOf w n va) (lanesOf w n vb) (lanesOf w n vd))
    .ok (regOut k d o.1 o.2 s)

/-- FCMP and ICMP (R198): each active lane's bits of the mask. -/
def issueCmp (k : VCtx) (j : Nat) (d a b : Int) (s : State) : Except EngErr VOut :=
  let r := k.r
  let t := r.a.tag.toNat
  let w := laneBits t
  let n := laneCount t
  match readTwo k j d a b true false s with
  | .error e => .error e
  | .ok (va, vb, _) =>
    let f : Nat → Nat → Fl Nat := fun x y =>
      if k.op = 0x30 then (let c := floatCmp (fpCtlOf r t) (r.mf 10 8) x y; (if c.1 then 1 else 0, c.2))
      else (if intCmp t (r.mf 10 8) x y then 1 else 0, 0)
    let o := underMask (activeLanes (k.mask s) n) (List.zipWith f (lanesOf w n va) (lanesOf w n vb))
    let q := 128 / n
    let old := lanesOf q n (readMask s k.p d.toNat)
    .ok { ws := [.msk d.toNat (packLanes q (mergeLanes old (o.1.map fun v => v.map fun x => x * (2 ^ q - 1))))], fl := o.2,
          kat := o.1.filterMap id }

/-- VSEL (R199). -/
def issueSel (k : VCtx) (j : Nat) (d a b : Int) (s : State) : Except EngErr VOut :=
  let t := k.r.d.tag.toNat
  let w := laneBits t
  let n := laneCount t
  match readTwo k j d a b true false s with
  | .error e => .error e
  | .ok (va, vb, _) =>
    let ls := zip3 (fun m x y => (if m = 1 then x else y, 0)) ((activeLanes (k.mask s) n).map fun x => if x then 1 else 0) (lanesOf w n va) (lanesOf w n vb)
    .ok (regOut k d (ls.map fun x => some x.1) 0 s)

/-- MASKOP (R200). -/
def issueMaskop (k : VCtx) (d a b : Int) (s : State) : VOut :=
  let x : VMask := BitVec.ofNat 128 (readMask s k.p a.toNat)
  let y : VMask := BitVec.ofNat 128 (readMask s k.p b.toNat)
  let o := k.r.mf 9 8
  let v := if o = 0 then x &&& y else if o = 1 then x ||| y else if o = 2 then x ^^^ y else x &&& ~~~y
  { ws := [.msk d.toNat v.toNat], fl := 0, kat := lanesOf 32 4 v.toNat }

/-- CVT (R201). -/
def issueCvt (k : VCtx) (j : Nat) (d a : Int) (s : State) : Except EngErr VOut :=
  let r := k.r
  let ta := r.a.tag.toNat
  let td := r.d.tag.toNat
  let la := laneCount ta
  let ld := laneCount td
  let p := r.mf 9 8
  match readReg k 2 r.a a j s with
  | .error e => .error e
  | .ok v =>
    let src := lanesOf (laneBits ta) la v
    let act := activeLanes (k.mask s) ld
    let from' : Nat → Option Nat := fun i =>
      if la < ld then (if p * la ≤ i ∧ i < p * la + la then some (i - p * la) else none) else some (p * ld + i)
    let vs : List (Option (Fl Nat)) := (List.range ld).map fun i =>
      if act.getD i false then (from' i).map fun q => convert r ta td (src.getD q 0) else none
    .ok (regOut k d (vs.map fun x => x.map (·.1)) (vs.foldl (fun f x => match x with | some v => f ||| v.2 | none => f) 0) s)

/-- QUANT (R202): 32 quantised bytes and one scale byte. -/
def issueQuant (k : VCtx) (j : Nat) (d a b : Int) (s : State) : Except EngErr VOut :=
  let r := k.r
  match readReg k 2 r.a a j s with
  | .error e => .error e
  | .ok v =>
    let q := quant32 ((lanesOf 32 32 v).map (fpDecode 23))
    let bytes := q.1.2.map (wrapBits 8)
    match writeSp k b 1 q.1.1 1 j s with
    | .error e => .error e
    | .ok wb =>
      let wd : Except EngErr (List Wr) :=
        if r.kat then .ok []
        else if r.d.space = 2#4 then
          let p := r.mf 9 8
          let old := lanesOf 8 128 (tget (s.co k.p).vregs d.toNat 0).toNat
          .ok [.reg d.toNat 5 (packLanes 8 (old.take (32 * p) ++ bytes ++ old.drop (32 * p + 32)))]
        else writeSp k d 32 (packLanes 8 bytes) (2 ^ 32 - 1) j s
      match wd with
      | .error e => .error e
      | .ok wd => .ok { ws := wd ++ wb, fl := q.2, kat := bytes ++ [q.1.1] }

/-- DEQUANT (R203). -/
def issueDequant (k : VCtx) (j : Nat) (d a b : Int) (s : State) : Except EngErr VOut :=
  let r := k.r
  let va := if r.a.space = 2#4 then (readReg k 2 r.a a j s).map fun v => v / 2 ^ (256 * r.mf 9 8) else readSpAll k a 32 j s
  match va with
  | .error e => .error e
  | .ok v =>
    match readSpAll k b 1 j s with
    | .error e => .error e
    | .ok sc =>
      let ls := (lanesOf 8 32 v).map fun q => dequant sc (intOf 8 true q)
      .ok (regOut k d (List.zipWith (fun x y => if x then some y else none) (activeLanes (k.mask s) 32) ls) 0 s)

/-- A lane as a trit, and whether it was none (R204). -/
def tritOf (b : Nat) : Int × Bool :=
  let v := intOf 8 true b
  if v < -1 then (-1, true) else if 1 < v then (1, true) else (v, false)

/-- The T5 bytes of trits, five to a byte, fuel n. -/
def packTrits : Nat → List Int → List Nat
  | 0, _ => []
  | n + 1, ts => t5enc ((ts.take 5) ++ List.replicate (5 - (ts.take 5).length) 0) :: packTrits n (ts.drop 5)

/-- TRPACK (R204). -/
def issueTrpack (k : VCtx) (j : Nat) (d a : Int) (s : State) : Except EngErr VOut :=
  let t := k.r.mf 14 8
  match readReg k 2 k.r.a a j s with
  | .error e => .error e
  | .ok v =>
    let ts := ((lanesOf 8 128 v).take t).map tritOf
    let n := (t + 4) / 5
    let bytes := packTrits n (ts.map (·.1))
    match (if k.r.kat then .ok [] else writeSp k d n (packLanes 8 bytes) (2 ^ n - 1) j s) with
    | .error e => .error e
    | .ok ws => .ok { ws := ws, fl := if ts.any (·.2) then flSAT else 0, kat := bytes }

/-- TRUNPACK (R205, R150). -/
def issueTrunpack (k : VCtx) (j : Nat) (d a : Int) (s : State) : Except EngErr VOut :=
  let t := k.r.mf 14 8
  let n := (t + 4) / 5
  match readSpAll k a n j s with
  | .error e => .error e
  | .ok v =>
    let bytes := lanesOf 8 n v
    let bad := bytes.any fun b => decide (243 ≤ b)
    if bad && k.tie && !k.r.kat then .error (.fault causeTrit 0 0 j)
    else
      let ls := ((bytes.flatMap t5dec).take t).map (wrapBits 8)
      .ok (regOut k d ((ls ++ List.replicate (128 - t) 0).map some) (if bad then flTI else 0) s)

/-- VPERM (R208). -/
def issuePerm (k : VCtx) (j : Nat) (d a b : Int) (s : State) : Except EngErr VOut :=
  let t := k.r.d.tag.toNat
  let w := laneBits t
  let n := laneCount t
  match readTwo k j d a b true false s with
  | .error e => .error e
  | .ok (va, vb, _) =>
    let src := lanesOf w n va
    .ok (regOut k d (List.zipWith (fun x i => if x then some (src.getD (i % n) 0) else none) (activeLanes (k.mask s) n) (lanesOf w n vb)) 0 s)

/-- The lane of VSHUF's sources that lane i takes: of A or of B (R209). -/
def shufLane (pat n i : Nat) : Bool × Nat :=
  let h := n / 2
  if pat = 0 then (i % 2 == 0, i / 2) else if pat = 1 then (i % 2 == 0, h + i / 2)
  else if pat = 2 then (decide (i < h), 2 * (i % h)) else (decide (i < h), 2 * (i % h) + 1)

/-- VSHUF (R209). -/
def issueShuf (k : VCtx) (j : Nat) (d a b : Int) (s : State) : Except EngErr VOut :=
  let t := k.r.d.tag.toNat
  let w := laneBits t
  let n := laneCount t
  match readTwo k j d a b true false s with
  | .error e => .error e
  | .ok (va, vb, _) =>
    let la := lanesOf w n va
    let lb := lanesOf w n vb
    let act := activeLanes (k.mask s) n
    .ok (regOut k d ((List.range n).map fun i =>
      if act.getD i false then (let q := shufLane (k.r.mf 9 8) n i; some ((if q.1 then la else lb).getD q.2 0)) else none) 0 s)

/-- VBCAST (R210). -/
def issueBcast (k : VCtx) (j : Nat) (d a : Int) (s : State) : Except EngErr VOut :=
  let t := k.r.d.tag.toNat
  match readReg k 2 k.r.a a j s with
  | .error e => .error e
  | .ok v =>
    let x := (lanesOf (laneBits t) (laneCount t) v).getD (k.r.mf 14 8) 0
    .ok (regOut k d ((activeLanes (k.mask s) (laneCount t)).map fun m => if m then some x else none) 0 s)

/-- One issue of a vector operation that is no reduction. -/
def vecIssue (k : VCtx) (j : Nat) (i : Nat × Nat × Nat × Nat) (s : State) : Except EngErr VOut :=
  let d := addrAt k.r.d i
  let a := addrAt k.r.a i
  let b := addrAt k.r.b i
  if k.op = 0x01 ∨ k.op = 0x02 then issueLoad k j d a s
  else if k.op = 0x03 then issueStore k j d a s
  else if k.op = 0x04 then issueMove k j d a s
  else if k.op = 0x08 then issueAccrd k j d a s
  else if k.op = 0x09 then issueAccwr k j d a s
  else if k.op = 0x0A then issuePark k j d a s
  else if k.op = 0x0B then .ok (issueUnpark k d a s)
  else if k.op < 0x2E then issueLanes k j d a b s
  else if k.op = 0x30 ∨ k.op = 0x31 then issueCmp k j d a b s
  else if k.op = 0x32 then issueSel k j d a b s
  else if k.op = 0x33 then .ok (issueMaskop k d a b s)
  else if k.op = 0x38 then issueCvt k j d a s
  else if k.op = 0x3C then issueQuant k j d a b s
  else if k.op = 0x3D then issueDequant k j d a b s
  else if k.op = 0x40 then issueTrpack k j d a s
  else if k.op = 0x41 then issueTrunpack k j d a s
  else if k.op = 0x50 then issuePerm k j d a b s
  else if k.op = 0x51 then issueShuf k j d a b s
  else issueBcast k j d a s

/-! ### Reductions (R206, R207) -/

/-- The operation of a reduction on patterns. -/
def redLane (k : VCtx) (a b : Nat) : Fl Nat :=
  let t := k.r.a.tag.toNat
  let c := fpCtlOf k.r t
  if t ≤ 2 then
    if k.op = 0x48 then fpAdd c (fpDecode c.p a) (fpDecode c.p b) else fpMinMax c (k.op == 0x49) (fpDecode c.p a) (fpDecode c.p b)
  else if k.op = 0x48 then intLane 0x20 t (k.r.mods.getLsbD 3) a b
  else intLane (if k.op = 0x49 then 0x29 else 0x28) t false a b

/-- The identity of a reduction (Table 11.3). -/
def redZero (k : VCtx) : Nat :=
  let t := k.r.a.tag.toNat
  let w := laneBits t
  if t ≤ 2 then
    let p := if t = 2 then 7 else 23
    if k.op = 0x48 then fpPack p true 0 0 else fpPack p (k.op == 0x49) 255 0
  else if k.op = 0x48 then 0
  else wrapBits w (let r := intRange w (tagSigned t); if k.op = 0x49 then r.1 else r.2)

/-- The result of one issue's lanes. -/
def redIssue (k : VCtx) (v : Nat) (s : State) : Fl Nat :=
  let t := k.r.a.tag.toNat
  let n := laneCount t
  rtree (redLane k) n.log2 (List.zipWith (fun x y => if x then y else redZero k) (activeLanes (k.mask s) n) (lanesOf (laneBits t) n v))

/-- The result of a group so far, with one more issue in the order of i0. -/
def redJoin (k : VCtx) (i0 : Nat) (acc : List Nat) (v : Fl Nat) : Fl Nat :=
  match (if i0 = 0 then [] else acc) with
  | [] => v
  | x :: _ => let y := redLane k x v.1; (y.1, v.2 ||| y.2)

/-- One issue of a reduction: the group's result so far, which its last issue writes at the D address of the group's first. -/
def issueRed (k : VCtx) (j : Nat) (i : Nat × Nat × Nat × Nat) (acc : List Nat) (s : State) : Except EngErr (List Nat × VOut) :=
  let r := k.r
  match readReg k 2 r.a (addrAt r.a i) j s with
  | .error e => .error e
  | .ok u =>
    let v := redJoin k i.2.2.2 acc (redIssue k u s)
    if i.2.2.2 + 1 < r.n0.toNat then .ok ([v.1], { ws := [], fl := v.2, kat := [] })
    else
      let d := addrAt r.d (i.1, i.2.1, i.2.2.1, 0)
      let e := elemSize r.a.tag.toNat
      if r.kat then .ok ([], { ws := [], fl := v.2, kat := [v.1] })
      else if r.d.space = 2#4 then .ok ([], { ws := [.reg d.toNat r.d.tag.toNat v.1], fl := v.2, kat := [v.1] })
      else (writeSp k d e v.1 (2 ^ e - 1) j s).map fun ws => ([], { ws := ws, fl := v.2, kat := [v.1] })

/-! ### The whole record -/

/-- VSTATUS gains flags. -/
def addFlags (s : State) (p : Nat) (fl : Word) : State := s.upCo p fun x => { x with vstatus := x.vstatus ||| fl }

/-- An issue's effect: its writes and flags, or with KAT only its words. -/
def vecApply (k : VCtx) (o : VOut) (sig : Word) (s : State) : Word × State :=
  if k.r.kat then (sigMore sig o.kat, s) else (sig, addFlags (o.ws.foldl (applyWr k.p) s) k.p o.fl)

/-- The scratchpad spans that an issue reads are corrected (R77). -/
def vecFix (k : VCtx) (i : Nat × Nat × Nat × Nat) (s : State) : State :=
  if s.ecc = [] then s
  else
    let one (w : Nat) (d : Desc) (s : State) : State :=
      if d.space = 1#4 then spFix s k.p (recAddr s k.p k.ph (addrAt d i)) (vecSpan k.op w k.r d) else s
    one 1 k.r.a (if k.op = 0x3D then one 2 k.r.b s else s)

/-- RSUM, RMAX or RMIN. -/
def isRed (op : Nat) : Bool := decide (0x48 ≤ op) && decide (op ≤ 0x4A)

/-- One issue: what the engine holds of a group after it, and what it writes. -/
def vecOut (k : VCtx) (j : Nat) (i : Nat × Nat × Nat × Nat) (acc : List Nat) (s : State) : Except EngErr (List Nat × VOut) :=
  if isRed k.op then issueRed k j i acc s else (vecIssue k j i s).map fun o => ([], o)

/-- Issues in nest order. -/
def runVec (k : VCtx) : List (Nat × Nat × Nat × Nat × Nat) → Part → State → Except (EngErr × State) (Part × State)
  | [], g, s => .ok (g, s)
  | e :: es, g, s =>
    match vecOut k e.1 e.2 g.vals s with
    | .error x => .error (x, s)
    | .ok o =>
      let y := vecApply k o.2 g.sig (vecFix k e.2 s)
      runVec k es { g with vals := o.1, sig := y.1 } y.2

/-- What PARK, UNPARK and RSUM check of the whole record at its start (R185, R192, R193, R206). -/
def vecStart (k : VCtx) (s : State) : Option EngErr :=
  let x := s.co k.p
  if k.op = 0x0A ∨ k.op = 0x0B then
    let gs := (nest k.r).map fun i => (addrAt (if k.op = 0x0A then k.r.d else k.r.a) i).toNat / 32
    if !decide gs.Nodup || gs.any (fun g => (tget x.spill g 0 ≠ 0#9) == (k.op == 0x0A)) then some (.fault causePark 0 0 0) else none
  else if k.op = 0x48 then
    if (nest k.r).any fun i => k.r.a.tag ≠ 0#8 && tget x.vtags (addrAt k.r.a i).toNat 0 != k.r.a.tag then some (.fault causeFormat 2 0 0) else none
  else none

/-- The vector and mask registers that an operand names over the nest are full (R119). -/
def opFull (x : Core) (r : Rec) (d : Desc) : Bool :=
  if d.space = 2#4 then (nest r).all fun i => !x.vempty.getLsbD (addrAt d i).toNat
  else if d.space = 7#4 then (nest r).all fun i => !x.mempty.getLsbD (addrAt d i).toNat
  else true

/-- Every register that a vector record reads or writes is full, its lane mask among them: the engine blocks until it is (R119). -/
def vecFull (s : State) (p : Nat) (r : Rec) : Bool :=
  let x := s.co p
  (x.vempty == 0 && x.mempty == 0) ||
  (opFull x r r.a && opFull x r r.b && (r.kat || opFull x r r.d) && !x.mempty.getLsbD (r.mf 6 4))

/-- The blocks whose tag the completion of an ACCWR sets: those of its groups, if its mask has an active lane (R120, R191). -/
def accwrTags (k : VCtx) (s : State) : List (Nat × BitVec 8) :=
  if k.op = 0x09 ∧ (activeLanes (k.mask s) 32).any id then ((nest k.r).map fun i => (accBlock (addrAt k.r.d i).toNat, k.r.d.tag)).eraseDups else []

/-- The effect of a vector record from its first issue not begun on: its issues in nest order, or those of them that the turn in progress may
begin. -/
def vecEffect (p op : Nat) (f : Flight) (ph : Bool) (r : Rec) (s : State) : Eff :=
  let k : VCtx := { p := p, op := op, r := r, ph := ph, tie := f.tie }
  match (if f.idx = 0 then vecStart k s else none) with
  | some e => .err e s
  | none =>
    let es := (issues r).drop f.idx
    let now := inTurn s es
    match runVec k now f.part s with
    | .error e => .err e.1 e.2
    | .ok (x, s') =>
      partOver p 0 f r (f.idx + now.length) (nest r).length (decide (now.length < es.length)) (if r.kat then [] else accwrTags k s') x s'

end Sys2Proof.Machine
end

