-- ==== Sys2Proof/Machine/Matrix.lean ====
section
/-! DEFINITION. The matrix engine: the configuration, MZERO, and MDOT as a sequence of steps (R115, R159 to R172, R178 to R181). -/
namespace Sys2Proof.Machine

/-! ### The configuration (Table 7.4) -/

/-- The matrix configuration in force. -/
structure MCfg where
  seed   : BitVec 32
  shen   : Bool
  shape  : Nat
  rsen   : Bool
  rscale : Nat
  ascale : Nat
  bscale : Nat
deriving DecidableEq, Repr

/-- Word i of a configuration block. -/
def cfgWord (b : BitVec 512) (i : Nat) : Nat := (b.extractLsb' (64 * i) 64).toNat

/-- The fields of a configuration block. -/
def mcfgOf (b : BitVec 512) : MCfg :=
  { seed := BitVec.ofNat 32 (cfgWord b 0), shen := bitsOf (cfgWord b 1) 22 22 == 1, shape := bitsOf (cfgWord b 1) 21 0,
    rsen := bitsOf (cfgWord b 2) 22 22 == 1, rscale := bitsOf (cfgWord b 2) 21 0, ascale := cfgWord b 3 % 2 ^ 22, bscale := cfgWord b 4 % 2 ^ 22 }

/-- The checks of MCFG (R115, R178). -/
def mcfgOk (b : BitVec 512) : Bool :=
  bitsOf (cfgWord b 0) 63 32 == 0 && bitsOf (cfgWord b 1) 63 23 == 0 && bitsOf (cfgWord b 2) 63 23 == 0 && bitsOf (cfgWord b 3) 63 22 == 0 &&
  bitsOf (cfgWord b 4) 63 22 == 0 && cfgWord b 5 == 0 && cfgWord b 6 == 0 && cfgWord b 7 == 0 && bitsOf (cfgWord b 1) 21 0 % 8 == 0 &&
  bitsOf (cfgWord b 2) 21 0 % 128 == 0

/-- MCFG (R178). -/
def mcfgEffect (p : Nat) (ph : Bool) (r : Rec) (s : State) : Eff :=
  let k : VCtx := { p := p, op := 1, r := r, ph := ph, tie := false }
  match readSpAll k r.a.origin 64 0 s with
  | .error e => .err e s
  | .ok v =>
    let b := BitVec.ofNat 512 v
    if mcfgOk b then .done ⟨[], 1⟩ ((spFix s p (recAddr s p ph r.a.origin) 64).upCo p fun x => { x with mcfg := b })
    else .err (.fault causeInvalid 12 0 0) s

/-! ### MZERO (R180) -/

/-- The entry lies in the 32 × 64 block from an origin. -/
def inBlock (o e : Nat) : Bool := accBlock e == accBlock o

/-- Some group of a block is parked. -/
def blockParked (x : Core) (o : Nat) : Bool := x.spill.any fun g => g.2 ≠ 0#9 && inBlock o (32 * g.1)

/-- Zero the block of an origin. -/
def Core.zeroBlock (x : Core) (o : Nat) : Core :=
  { x with acc := x.acc.filter fun e => !inBlock o e.1, written := setBit x.written (accBlock o) true }

/-- MZERO: every origin is checked before anything is written. -/
def mzeroEffect (p : Nat) (r : Rec) (s : State) : Eff :=
  let os := (nest r).map fun i => (addrAt r.d i).toNat
  if os.any fun o => o % 64 != 0 || o / 512 % 32 != 0 then .err (.fault causeInvalid 12 0 0) s
  else if os.any (blockParked (s.co p)) then .err (.fault causePark 0 0 0) s
  else
    .done ⟨os.eraseDups.map fun o => (accBlock o, r.d.tag), os.length⟩ (s.upCo p fun x => os.foldl Core.zeroBlock x)

/-! ### MDOT -/

/-- What the steps of a record need: its context, configuration, the listed rows with their segments, and the columns formed. -/
structure MCtx where
  k    : VCtx
  cfg  : MCfg
  /-- Source row and segment of each packed row. -/
  rows : List (Nat × Nat)
  cols : Nat
deriving DecidableEq, Repr

/-- The record uses block-diagonal columns. -/
def MCtx.bd (m : MCtx) : Bool := m.k.r.mods.getLsbD 2
/-- The record accumulates integers. -/
def MCtx.isum (m : MCtx) : Bool := m.k.r.mods.getLsbD 3
/-- The density: 8, 4 or 2 of eight. -/
def MCtx.dens (m : MCtx) : Nat := if m.k.r.mf 1 0 = 0 then 8 else if m.k.r.mf 1 0 = 1 then 4 else 2

/-- The rows of a segment, from its 32-bit word. -/
def segRows (g w : Nat) : List (Nat × Nat) := (List.range (w / 65536)).map fun i => (w % 65536 + i, g)

/-- The rows that a record forms (R164): those of the shape record, or all M; what it reads of the shape record is corrected (R77). -/
def mdotRows (k : VCtx) (c : MCfg) (s : State) : Except EngErr (List (Nat × Nat) × State) :=
  let m := 32 * k.r.n1.toNat
  let bad : Except EngErr (List (Nat × Nat) × State) := .error (.fault causeInvalid 12 0 0)
  if !c.shen then .ok ((List.range m).map fun q => (q, 0), s)
  else if !spInside c.shape 8 then bad
  else if spBad s k.p c.shape 8 then .error (.consumed 0 (BitVec.ofNat 64 c.shape) 0)
  else
    let n := opRead s k.p k.p c.shape 4
    if 64 < n ∨ opRead s k.p k.p (c.shape + 4) 4 ≠ 0 ∨ !spInside c.shape (8 + 4 * n) then bad
    else if spBad s k.p (c.shape + 8) (4 * n) then .error (.consumed 0 (BitVec.ofNat 64 (c.shape + 8)) 0)
    else
      let ws := (List.range n).map fun g => opRead s k.p k.p (c.shape + 8 + 4 * g) 4
      if m < (ws.map (· / 65536)).sum then bad
      else .ok (ws.zipIdx.flatMap fun e => segRows e.2 e.1, spFix s k.p c.shape (8 + 4 * n))

/-- The address of A's block (q, kb). -/
def MCtx.aAddr (m : MCtx) (q kb : Nat) : Int :=
  let d := m.k.r.a
  (d.base.toNat : Int) + ((m.rows.getD q (0, 0)).1 : Nat) * d.s1.toInt + kb * d.s0.toInt

/-- The address of column c's weights in block kb (Table 10.2, R165). -/
def MCtx.bAddr (m : MCtx) (c kb : Nat) : Int :=
  let d := m.k.r.b
  if m.bd then (d.base.toNat : Int) + ((m.rows.getD c (0, 0)).1 : Nat) * d.s1.toInt + kb * d.s0.toInt
  else (d.base.toNat : Int) + (c / 64 : Nat) * d.s2.toInt + (c % 64 : Nat) * d.s1.toInt + kb * d.s0.toInt

/-- Bytes of a column's block. -/
def MCtx.bLen (m : MCtx) : Nat := colBytes m.k.op (m.k.r.mf 1 0)

/-- Every address of A and, with `.bd`, of B lies in its range (R164, R165). -/
def mdotAddrOk (m : MCtx) : Bool :=
  let top : Int := if m.k.r.a.space = 1#4 then 0x40_0000 else 131072
  let kbs := List.range m.k.r.n0.toNat
  ((List.range m.rows.length).all fun q => kbs.all fun kb => decide (0 ≤ m.aAddr q kb) && decide (m.aAddr q kb + 32 ≤ top)) &&
  (!m.bd || (List.range m.rows.length).all fun c => kbs.all fun kb => decide (0 ≤ m.bAddr c kb) && decide (m.bAddr c kb + m.bLen ≤ 0x40_0000))

/-- The scale extents lie in the scratchpad (R169). -/
def mdotScalesOk (m : MCtx) : Bool :=
  let n0 := m.k.r.n0.toNat
  let t := m.rows.length
  let big := (m.rows.map (·.1)).foldl max 0
  t == 0 ||
  ((m.isum || m.k.r.a.space != 1#4 || spInside m.cfg.ascale (big * n0 + n0)) &&
   (m.isum || spInside m.cfg.bscale ((n0 - 1) / 5 * m.cols + m.cols)) &&
   (!m.cfg.rsen || m.k.r.a.space != 3#4 || spInside m.cfg.rscale (4 * t)))

/-- Entry (q, c) is formed (R165). -/
def MCtx.formed (m : MCtx) (q c : Nat) : Bool := !m.bd || (m.rows.getD q (0, 0)).2 == (m.rows.getD c (0, 0)).2

/-- The destination entry of (q, c). -/
def MCtx.entry (m : MCtx) (q c : Nat) : Nat := m.k.r.d.base.toNat + 512 * q + c

/-- The destination blocks that the record writes. -/
def mdotBlocks (m : MCtx) : List Nat :=
  ((List.range m.rows.length).flatMap fun q => ((List.range m.cols).filter fun c => m.formed q c).map fun c => accBlock (m.entry q c)).eraseDups

/-- The checks of accumulator operands at the start (R169): parked groups, then tags. DESIGN CHOICE (log entry 109): that order, and that the
destination extent is T rows of the columns up to a whole group of 32, entries that `.bd` does not form among them. -/
def mdotAccOk (m : MCtx) (s : State) : Option EngErr :=
  let x := s.co m.k.p
  let qs := List.range m.rows.length
  let kbs := List.range m.k.r.n0.toNat
  let aIn := m.k.r.a.space == 3#4
  let dGroups : List Nat := if m.k.r.kat then [] else qs.flatMap fun q => (List.range ((m.cols + 31) / 32)).map fun g => m.entry q (32 * g)
  let aGroups : List Nat := if aIn then qs.flatMap fun q => kbs.map fun kb => (m.aAddr q kb).toNat else []
  if x.spill ≠ [] ∧ ((dGroups ++ aGroups).any fun e => parked x e) then some (.fault causePark 0 0 0)
  else if !m.k.r.kat && (mdotBlocks m).any fun b => tget x.btags b 0 != m.k.r.d.tag then some (.fault causeFormat 1 0 0)
  else if aGroups.any fun e => tget x.btags (accBlock e) 0 != m.k.r.a.tag then some (.fault causeFormat 2 0 0)
  else none

/-- Bytes of the scratchpad that a step reads, with the check of their error codes. -/
def stepRead (m : MCtx) (a n idx : Nat) (s : State) : Except EngErr Nat :=
  if !spInside a n then .error (.fault causeInvalid 11 (BitVec.ofNat 64 a) idx)
  else if spBad s m.k.p a n then .error (.consumed 0 (BitVec.ofNat 64 a) idx)
  else .ok (opRead s m.k.p m.k.p a n)

/-- Where the scale of A's block (q, kb) lies, with its bytes: an activation scale, or a row-scale word (R166). -/
def MCtx.scaleAt (m : MCtx) (q kb : Nat) : Option (Nat × Nat) :=
  if m.k.r.a.space = 1#4 then (if m.isum then none else some (m.cfg.ascale + (m.rows.getD q (0, 0)).1 * m.k.r.n0.toNat + kb, 1))
  else if m.cfg.rsen then some (m.cfg.rscale + 4 * q, 4) else none

/-- The number by which the engine keeps what it has read of block (q, kb). -/
def MCtx.scaleKey (m : MCtx) (q kb : Nat) : Nat := q * m.k.r.n0.toNat + kb

/-- The scale of A's block (q, kb): read once for a record (R115, R166). -/
def aScale (m : MCtx) (kept : Tbl Nat) (q kb idx : Nat) (s : State) : Except EngErr Nat :=
  match m.scaleAt q kb, kept.lookup (m.scaleKey q kb) with
  | none, _ => .ok 0
  | _, some v => .ok v
  | some a, none => stepRead m a.1 a.2 idx s

/-- An A block (q, kb): its scale as read, its scale, 32 activations and flags (R166). -/
def aBlock (m : MCtx) (kept : Tbl Nat) (q kb idx : Nat) (s : State) : Except EngErr (Nat × Nat × List Int × Word) :=
  if m.k.r.a.space = 1#4 then
    match stepRead m (recAddr s m.k.p m.k.ph (m.aAddr q kb)) 32 idx s with
    | .error e => .error e
    | .ok v => (aScale m kept q kb idx s).map fun sa => (sa, sa, (lanesOf 8 32 v).map (intOf 8 true), 0)
  else
    let y := (accRead s m.k.p (m.aAddr q kb).toNat 32).map (fpDecode 23)
    if m.cfg.rsen then
      (aScale m kept q kb idx s).map fun rs =>
        let z := y.map fun v => fpMul ⟨23, 0, false⟩ v (fpDecode 23 rs)
        let r := quant32 (z.map fun v => fpDecode 23 v.1)
        (rs, r.1.1, r.1.2, z.foldl (fun f v => f ||| v.2) r.2)
    else
      let r := quant32 y
      .ok (0, r.1.1, r.1.2, r.2)

/-- The decoded weights of n bytes, and whether a T5 byte was none. -/
def decodeWeights (op n v : Nat) : List Int × Bool :=
  let bs := lanesOf 8 n v
  if op = 0x10 then (bs.flatMap t5dec, bs.any fun b => decide (243 ≤ b))
  else if op = 0x11 then (bs.flatMap fun b => [s4dec b 0, s4dec b 1], false)
  else (bs.map (intOf 8 true), false)

/-- The kept positions of column c's block kb, in K order (R162). -/
def keptOf (m : MCtx) (c kb : Nat) : List Nat :=
  (List.range 4).flatMap fun g => (pattern m.cfg.seed (BitVec.ofNat 32 c) (BitVec.ofNat 32 (4 * kb + g)) m.dens).map fun x => 8 * g + x

/-- The weights of column c's block kb by position, its scale, and whether a byte was invalid. -/
def bBlock (m : MCtx) (c kb idx : Nat) (s : State) : Except EngErr (List (Nat × Int) × Nat × Bool) :=
  match stepRead m (recAddr s m.k.p m.k.ph (m.bAddr c kb)) m.bLen idx s with
  | .error e => .error e
  | .ok v =>
    let w := decodeWeights m.k.op m.bLen v
    if w.2 && m.k.tie then .error (.fault causeTrit 0 0 idx)
    else
      let ws := List.zip (keptOf m c kb) w.1
      if m.isum then .ok (ws, 0, w.2) else (stepRead m (m.cfg.bscale + kb / 5 * m.cols + c) 1 idx s).map fun sb => (ws, sb, w.2)

/-- The block sum S (R159). -/
def blockSum (ws : List (Nat × Int)) (xs : List Int) : Int := (ws.map fun e => e.2 * xs.getD e.1 0).foldl (· + ·) 0

/-- One update of an entry. -/
def updateEntry (m : MCtx) (e : Nat) (sum : Int) (sa sb : Nat) : Fl Nat :=
  if m.isum then (wrapBits 32 ((e : Int) + sum), 0) else bsupdate e sum sa sb

/-- Apply a function that can fail to each element. -/
def mapE {α β : Type} (f : α → Except EngErr β) : List α → Except EngErr (List β)
  | [] => .ok []
  | x :: xs =>
    match f x with
    | .error e => .error e
    | .ok y =>
      match mapE f xs with
      | .error e => .error e
      | .ok ys => .ok (y :: ys)

/-- What one K-block leaves: the entries of a tile, each with its row, column and value, the flags, and the scales of A by key. -/
structure BlockOut where
  es     : List (Nat × Nat × Nat)
  fl     : Word
  scales : List (Nat × Nat)
deriving DecidableEq, Repr

/-- The entries of a tile, each with its row, column and value, after block kb. With `.isum` no flag is set (R167), else an invalid T5 byte sets TI
(R150). -/
def stepBlock (m : MCtx) (kept : Tbl Nat) (kb idx : Nat) (es : List (Nat × Nat × Nat)) (s : State) : Except EngErr BlockOut :=
  match mapE (fun q => (aBlock m kept q kb idx s).map fun b => (q, b)) (es.map (·.1)).eraseDups with
  | .error e => .error e
  | .ok as =>
    match mapE (fun c => (bBlock m c kb idx s).map fun b => (c, b)) (es.map (·.2.1)).eraseDups with
    | .error e => .error e
    | .ok bs =>
      let fl := as.foldl (fun f a => f ||| a.2.2.2.2) 0
      let fl := if bs.any fun b => b.2.2.2 then fl ||| flTI else fl
      let r := es.map fun e =>
        match as.find? fun a => a.1 == e.1, bs.find? fun b => b.1 == e.2.1 with
        | some a, some b => (e.1, e.2.1, updateEntry m e.2.2 (blockSum b.2.1 a.2.2.2.1) a.2.2.1 b.2.2.1)
        | _, _ => (e.1, e.2.1, (e.2.2, 0))
      .ok { es := r.map fun e => (e.1, e.2.1, e.2.2.1), fl := if m.isum then 0 else r.foldl (fun f e => f ||| e.2.2.2) fl,
            scales := as.map fun a => (m.scaleKey a.1 kb, a.2.1) }

/-- The scratchpad spans of A's and B's blocks kb of some rows and columns, with their scales; a scale that has been read is not read again. -/
def blockSpans (m : MCtx) (kept : Tbl Nat) (kb : Nat) (qs cs : List Nat) (s : State) : List (Nat × Nat) :=
  (qs.flatMap fun q =>
    (if m.k.r.a.space = 1#4 then [(recAddr s m.k.p m.k.ph (m.aAddr q kb), 32)] else []) ++
    (if (kept.lookup (m.scaleKey q kb)).isSome then [] else (m.scaleAt q kb).toList)) ++
  (cs.flatMap fun c => [(recAddr s m.k.p m.k.ph (m.bAddr c kb), m.bLen)] ++ (if m.isum then [] else [(m.cfg.bscale + kb / 5 * m.cols + c, 1)]))

/-- What a block has read is corrected where a single bit was wrong (R77). -/
def stepFix (m : MCtx) (kept : Tbl Nat) (kb : Nat) (es : List (Nat × Nat × Nat)) (s : State) : State :=
  if s.ecc = [] then s
  else (blockSpans m kept kb (es.map (·.1)).eraseDups (es.map (·.2.1)).eraseDups s).foldl (fun s e => spFix s m.k.p e.1 e.2) s

/-- Write a block's entries and flags; a known-answer record writes nothing. -/
def stepWrite (m : MCtx) (es : List (Nat × Nat × Nat)) (fl : Word) (s : State) : State :=
  if m.k.r.kat then s else (addFlags s m.k.p fl).upCo m.k.p fun x => es.foldl (fun x e => x.putAcc (m.entry e.1 e.2.1) e.2.2) x

/-- A step that begins under a power alarm runs narrowed, and that is seen (R173, R174). -/
def stepSeen (m : MCtx) (x : Part) (s : State) : State :=
  if s.palarm && x.blocks == 0 then s.upCo m.k.p fun x => { x with nseen := true } else s

/-- The values of entries are free where an MDOT's inputs differed when it resumed (R172). -/
def wildEntries (x : Part) (es : List (Nat × Nat × Nat)) (s : State) : List (Nat × Nat × Nat) × State :=
  if x.wild then (es.zipIdx.map fun e => (e.1.1, e.1.2.1, (Config.freeWord (s.free + e.2)).toNat % 2 ^ 32), { s with free := s.free + es.length }) else (es, s)

/-- The K-groups of a record. -/
def kGroups (m : MCtx) : List (List Nat) :=
  let n0 := m.k.r.n0.toNat
  if m.dens = 8 then (List.range n0).map fun k => [k]
  else (List.range ((n0 + 1) / 2)).map fun g => if 2 * g + 1 < n0 then [2 * g, 2 * g + 1] else [2 * g]

/-- The rows and columns of a tile (pass, column tile). -/
def tilePlaces (m : MCtx) (pass t : Nat) : List (Nat × Nat) :=
  let qs := (List.range 32).filterMap fun i => if 32 * pass + i < m.rows.length then some (32 * pass + i) else none
  let cs := (List.range 64).filterMap fun j => if 64 * t + j < m.cols then some (64 * t + j) else none
  qs.flatMap fun q => (cs.filter fun c => m.formed q c).map fun c => (q, c)

/-- The entries of a tile as a step finds them. -/
def tileEntries (m : MCtx) (pass t : Nat) (s : State) : List (Nat × Nat × Nat) :=
  (tilePlaces m pass t).map fun e => (e.1, e.2, (tget (s.co m.k.p).acc (m.entry e.1 e.2) 0).toNat)

/-- The tiles of a record. -/
def tilesOf (m : MCtx) : List (Nat × Nat) :=
  let ps := (m.rows.length + 31) / 32
  let ts := if m.bd then (m.cols + 63) / 64 else m.k.r.n2.toNat
  (List.range ps).flatMap fun p => (List.range ts).map fun t => (p, t)

/-- A K-block of a step: the step's tile and number, and whether the block ends its step and its tile. -/
structure MBlock where
  tile : Nat × Nat
  kb   : Nat
  idx  : Nat
  last : Bool
  done : Bool
deriving DecidableEq, Repr

/-- The steps of a record in order, numbered: tile and K-group (R171). -/
def mdotSteps (m : MCtx) : List (((Nat × Nat) × List Nat) × Nat) := ((tilesOf m).flatMap fun t => (kGroups m).map fun g => (t, g)).zipIdx

/-- The K-blocks of a step. -/
def stepMBlocks (m : MCtx) (e : ((Nat × Nat) × List Nat) × Nat) : List MBlock :=
  e.1.2.zipIdx.map fun b =>
    { tile := e.1.1, kb := b.1, idx := e.2, last := b.2 + 1 == e.1.2.length, done := b.1 + 1 == m.k.r.n0.toNat }

/-- The K-blocks of a record that have not been made. -/
def mdotLeft (m : MCtx) (pos : Nat) (x : Part) : List MBlock := (((mdotSteps m).drop pos).flatMap (stepMBlocks m)).drop x.blocks

/-- The entries of a tile as a block finds them: a known-answer tile's start at zero and stay in the engine. -/
def blockEntries (m : MCtx) (b : MBlock) (x : Part) (s : State) : List (Nat × Nat × Nat) :=
  if m.k.r.kat then (tilePlaces m b.tile.1 b.tile.2).zipIdx.map fun e => (e.1.1, e.1.2, x.vals.getD e.2 0) else tileEntries m b.tile.1 b.tile.2 s

/-- What the engine holds after a block. -/
def Part.after (x : Part) (m : MCtx) (b : MBlock) (es : List (Nat × Nat × Nat)) (scales : List (Nat × Nat)) : Part :=
  let vs := es.map (·.2.2)
  { x with
    blocks := if b.last then 0 else x.blocks + 1, scales := scales.foldl (fun t e => tins t e.1 e.2) x.scales,
    vals := if m.k.r.kat && !b.done then vs else [], sig := if m.k.r.kat && b.done then sigMore x.sig vs else x.sig }

/-- Run blocks in order. -/
def runBlocks (m : MCtx) : List MBlock → Part → State → Except (EngErr × State) (Part × State)
  | [], x, s => .ok (x, s)
  | b :: bs, x, s =>
    let s := stepSeen m x s
    let es := blockEntries m b x s
    match stepBlock m x.scales b.kb b.idx es s with
    | .error e => .error (e, s)
    | .ok o =>
      let w := wildEntries x o.es (stepFix m x.scales b.kb es s)
      runBlocks m bs (x.after m b w.1 o.scales) (stepWrite m w.1 o.fl w.2)

/-- The body of an MDOT from step pos on: its K-blocks in order, or those of them that the turn in progress may begin. -/
def mdotBody (m : MCtx) (f : Flight) (x : Part) (s : State) : Eff :=
  let es := mdotLeft m f.idx x
  let now := inTurn s es
  match runBlocks m now x s with
  | .error e => .err e.1 e.2
  | .ok (x, s') =>
    let next := match now.getLast? with | some b => if b.last then b.idx + 1 else b.idx | none => f.idx
    let total := (mdotSteps m).length
    partOver m.k.p 1 f m.k.r (if now.length < es.length then next else total) total (decide (now.length < es.length))
      (if m.k.r.kat then [] else (mdotBlocks m).map fun b => (b, m.k.r.d.tag)) x s'

/-- What an MDOT needs, for rows that it has read. -/
def mctxOf (p op : Nat) (tie ph : Bool) (r : Rec) (rows : List (Nat × Nat)) (s : State) : MCtx :=
  { k := { p := p, op := op, r := r, ph := ph, tie := tie }, cfg := mcfgOf (s.co p).mcfg, rows := rows,
    cols := if r.mods.getLsbD 2 then rows.length else 64 * r.n2.toNat }

/-- What an MDOT reads while it runs: its operands A and B with their scales (R172). -/
def mdotInputs (m : MCtx) (s : State) : List Nat :=
  let qs := List.range m.rows.length
  (List.range m.k.r.n0.toNat).flatMap fun kb =>
    (blockSpans m [] kb qs (List.range m.cols) s).map (fun e => spRead s m.k.p e.1 e.2) ++
    (if m.k.r.a.space = 1#4 then [] else qs.flatMap fun q => accRead s m.k.p (m.aAddr q kb).toNat 32)

/-- The MDOT of a flight as it is saved: with its inputs, and without the scales that it will read again (R172). -/
def Flight.saved (f : Flight) (p op : Nat) (ph : Bool) (r : Rec) (s : State) : Flight :=
  match f.rows with
  | none => f
  | some rows => { f with part := { f.part with inputs := some (mdotInputs (mctxOf p op f.tie ph r rows s) s), scales := [] } }

/-- An MDOT goes on. The first time after a save it reads its shape record again; if that or another input differs, every value that it still
writes is free, in the extent that it had (R172). -/
def mdotResume (m : MCtx) (f : Flight) (s : State) : Eff :=
  match f.part.inputs with
  | none => mdotBody m f f.part s
  | some v =>
    match mdotRows m.k m.cfg s with
    | .error (.consumed d a i) => .err (.consumed d a i) s
    | .error _ => mdotBody m f { f.part with inputs := none, wild := true } s
    | .ok (rows, s) => mdotBody m f { f.part with inputs := none, wild := f.part.wild || rows != m.rows || mdotInputs m s != v } s

/-- MDOT (R167): the rows, which it reads when it starts (R115); the checks of its start; then its steps. DESIGN CHOICE (log entry 109): of several
checks that fail, rule 12 comes first. -/
def mdotEffect (p op : Nat) (f : Flight) (ph : Bool) (r : Rec) (s : State) : Eff :=
  match f.rows with
  | some rows => mdotResume (mctxOf p op f.tie ph r rows s) f s
  | none =>
    match mdotRows { p := p, op := op, r := r, ph := ph, tie := f.tie } (mcfgOf (s.co p).mcfg) s with
    | .error e => .err e s
    | .ok (rows, s) =>
      let m := mctxOf p op f.tie ph r rows s
      if (m.bd && (!m.cfg.shen || decide (64 * r.n2.toNat < rows.length) || r.b.s2 != 0)) || !mdotAddrOk m || !mdotScalesOk m then
        .err (.fault causeInvalid 12 0 0) s
      else
        match mdotAccOk m s with
        | some e => .err e s
        | none => mdotBody m f f.part (s.upFlight p 1 f.slot fun f => { f with rows := some rows })

/-- The effect of a matrix record. MCFG and MZERO are not interrupted (R172). -/
def matEffect (p op : Nat) (f : Flight) (ph : Bool) (r : Rec) (s : State) : Eff :=
  if op = 0x01 then mcfgEffect p ph r s else if op = 0x02 then mzeroEffect p r s else mdotEffect p op f ph r s

end Sys2Proof.Machine
end

