-- ==== Sys2Proof/Machine/Phase.lean ====
section
/-! DEFINITION. Starting and completing records: validation, the await, the grant, the class check, the effect; checkpoints, the rollback of a
phase, and known-answer mismatches (R113, R126, R131, R135, R136, R139, R175, R216, R398 to R401, R411). -/
namespace Sys2Proof.Machine

/-! ### Header fields (Table 8.3) -/

/-- Raise enabled. -/
def hdrRaise (h : Word) : Bool := h.getLsbD 24
/-- The raise semaphore. -/
def hdrSem (h : Word) : Nat := (h.extractLsb' 25 5).toNat
/-- The event bit. -/
def hdrEvent (h : Word) : Bool := h.getLsbD 5
/-- CHAIN of a matrix record (R138). -/
def hdrChain (h : Word) : Bool := h.getLsbD 51
/-- The operation code. -/
def hdrOp (h : Word) : Nat := (h.extractLsb' 52 8).toNat
/-- The await condition of a header holds on a core. -/
def hdrReady (x : Core) (h : Word) : Bool := !h.getLsbD 30 || (x.sem (h.extractLsb' 31 5).toNat).awaitOk (h.extractLsb' 8 16)

/-! ### Accepting a record -/

/-- A queue takes the record that stands in slot TAIL: PEND of its raise semaphore, STATUS.PH and, of a QFENCE's fence, its origin (R89,
R90, R125). -/
def acceptSlot (s : State) (p : Nat) (q : BitVec 2) (fence : Bool) : State :=
  let v := (s.co p).queue q
  let c := v.tail
  let h := recHeader s p v c
  let x := if hdrRaise h then (s.co p).pend (hdrSem h) else s.co p
  let ph := v.ph.filter (· != c)
  let fs := v.fences.filter (· != c)
  s.putCo p (x.setQueue q
    { v with tail := c + 1, ph := if (s.sc p).ph then ph ++ [c] else ph, fences := if fence then fs ++ [c] else fs })

/-- Write a record to slot TAIL and accept it. -/
def acceptRecord (s : State) (p : Nat) (q : BitVec 2) (w : BitVec 512) (fence : Bool) : State :=
  let v := (s.co p).queue q
  acceptSlot (spWrite s p (v.slot v.tail) 64 w.toNat) p q fence

/-! ### The quad's grant (R113, R175, R176) -/

/-- LEASE_RUN of a quad. -/
def leaseRun (s : State) (p : Nat) : Nat := (s.qd (quadOf p)).lease.toNat % 128

/-- A core runs the patterns of segment 6 of a scan: matrix records of its queue (R379). -/
def scanning6 (x : Core) : Bool := x.svc == .scanning && x.scanSeg == 6#4

/-- A core's matrix queue requests the array: its head record is a valid matrix record whose await holds, or one that had started before it was
stopped (R113, R172). A core whose segment 6 is in its scan requests it for its patterns (R379). -/
def requestsArray (s : State) (p : Nat) : Bool :=
  let x := s.co p
  let v := x.mq
  let w := v.record s p v.next
  scanning6 x ||
  (!x.rolling && !v.stopped &&
    (v.current.isSome ||
      (v.flight == [] && v.waiting && w.extractLsb' 60 4 == 1#4 && hdrReady x (w.extractLsb' 0 64) &&
        wordsBroken (judgeOf s p 1 (v.fences.contains v.next)) w == 0)))

/-- LEASE_GRANT: the free array of the subject quad grants round-robin, starting after the slot that held the last grant, for a run of at most
LEASE_RUN as it stands now (R113, R174). -/
def execLeaseGrant (s : State) : Out :=
  .next <|
    let x := s.qd s.cur
    if x.grant.isSome then s
    else
      match ([1, 2, 3, 4].map fun k => (x.last + k) % 4).find? fun k => requestsArray s (4 * s.cur + k) with
      | none => s
      | some k => s.putQd s.cur { x with grant := some k, run := 1, last := k, lim := leaseRun s (4 * s.cur) }

/-- The grant of a core ends because its matrix record ends otherwise than by completing; the record of another queue leaves it (R113, R176). -/
def endGrantOf (q : BitVec 2) (s : State) (p : Nat) : State := if q = 1#2 then endGrant s p else s

/-- The chain test once a matrix record has completed and its raise has taken effect (R113, R175). -/
def chainTest (s : State) (p : Nat) (h : Word) : State :=
  let x := s.co p
  let v := x.mq
  let w := v.record s p v.next
  let y := s.qd (quadOf p)
  if !holdsGrant s p then s
  else if hdrChain h && !v.stopped && v.waiting && w.extractLsb' 60 4 == 1#4 && hdrReady x (w.extractLsb' 0 64) && decide (y.run < y.lim) then
    s.putQd (quadOf p) { y with run := y.run + 1 }
  else endGrant s p

/-! ### Completion (R135, R136, R218) -/

/-- The format tags that a completed record's blocks take (R114, R120). -/
def Core.setTags (x : Core) (ts : List (Nat × BitVec 8)) : Core := { x with btags := ts.foldl (fun t e => tput t e.1 e.2 0) x.btags }

/-- CQSTAT keeps its first error (R218). -/
def Core.noteStat (x : Core) (f : Flight) : Core :=
  if f.stat = 0 ∨ x.cqstat.getLsbD 63 then x
  else { x with cqstat := 0x8000_0000_0000_0000#64 ||| (f.stat.setWidth 64 <<< 32) ||| f.slot.setWidth 64 }

/-- A save of a core's team is under way. -/
def savingTask (s : State) (p : Nat) : Bool := match s.teamOf p with | some t => t.saving.isSome | none => false

/-- The scalar state of a checkpoint. -/
def Scalar.restore (x : Scalar) (k : Checkpoint) : Scalar :=
  { x with
    pc := k.pc, regs := k.regs, empty := k.empty, fills := k.fills, preds := k.preds, status := k.status, lstart0 := k.loops.getD 0 0,
    lend0 := k.loops.getD 1 0, lcount0 := k.loops.getD 2 0, lstart1 := k.loops.getD 3 0, lend1 := k.loops.getD 4 0,
    lcount1 := k.loops.getD 5 0, phnum := k.loops.getD 6 0, win := k.win }

/-- A rollback has run its copy records again: triggered COPY records are accepted again, the scalar state is restored and the task goes on
(R399). -/
def finishRoll (s : State) (p : Nat) : State :=
  let x := s.co p
  if x.rolling && x.rerun == [] && x.cq.flight == [] then
    let s := s.putCo p { x with rolling := false, trigs := [] }
    let s := x.trigs.foldl (fun s w => acceptRecord s p 2 w false) s
    let s := s.upCo p fun y => { y with trigs := x.trigs }
    let s := match x.ckpt with | some k => s.putSc p ((s.sc p).restore k) | none => s
    if (s.sc p).run = .suspended ∧ !savingTask s p then s.putSc p { s.sc p with run := .running } else s
  else s

/-- The oldest started record of a queue completes, if its body is over and nothing of it is outstanding. -/
def completeHead (s : State) (p : Nat) (q : BitVec 2) : State :=
  let x := s.co p
  let v := x.queue q
  match v.flight with
  | [] => s
  | f :: fs =>
    if f.pend ≠ 0 ∨ !f.made then s
    else
      let v := { v with flight := fs, head := if x.rolling then v.head else v.head + 1, evt := v.evt || hdrEvent f.hdr,
                        fences := v.fences.filter (· != f.slot) }
      let s := s.putCo p (((x.setTags f.tags).noteStat f).setQueue q v)
      let s := if hdrRaise f.hdr then raiseBy s p p q.toNat f.slot (hdrSem f.hdr) f.err else s
      let s := if q = 1#2 then chainTest s p f.hdr else s
      finishRoll s p

/-- A pattern of a scan completes: each is chained to the next, so that a grant covers LEASE_RUN of them (R379). -/
def patternDone (s : State) (p : Nat) : State :=
  let y := s.qd (quadOf p)
  if !holdsGrant s p then s else if y.run < y.lim then s.putQd (quadOf p) { y with run := y.run + 1 } else endGrant s p

/-- RECORD_COMPLETE: the oldest started record of a queue of the subject core completes (R135). -/
def execRecordComplete (q : BitVec 2) (s : State) : Out :=
  .next (if q = 3#2 then s else if q = 1#2 ∧ scanning6 (s.co s.cur) then patternDone s s.cur else completeHead s s.cur q)

/-! ### Checkpoints and rollback (R398 to R401) -/

/-- Take a checkpoint of a core's task, which resumes at pc. -/
def takeCheckpoint (s : State) (p : Nat) (pc : Word) : State :=
  let y := s.sc p
  let x := s.co p
  let k : Checkpoint :=
    { pc := pc, regs := y.regs, empty := y.empty, fills := y.fills, preds := y.preds, status := y.status,
      loops := [y.lstart0, y.lend0, y.lcount0, y.lstart1, y.lend1, y.lcount1, y.phnum], win := y.win, sems := x.sems,
      tails := [x.vq.tail, x.mq.tail, x.cq.tail], cqHead := x.cq.head, refetch := match x.ckpt with | some k => k.tails.getD 2 0 | none => 0 }
  s.putCo p { x with ckpt := some k, rolls := 0, trigs := [], undone := [] }

/-- TAILck of a queue. -/
def Checkpoint.tail (k : Checkpoint) (q : Nat) : BitVec 32 := k.tails.getD q 0

/-- Counter c lies at or after counter t. -/
def atOrAfter (c t : BitVec 32) : Bool := decide (0 ≤ (c - t).toInt)

/-- No rollback is possible (R401): a vector or matrix record accepted before TAILck has not completed, or a copy record to be run again
has left its ring. -/
def cannotRoll (x : Core) (k : Checkpoint) : Bool :=
  !atOrAfter x.vq.head (k.tail 0) || !atOrAfter x.mq.head (k.tail 1) || decide (x.cq.count.toNat < (x.cq.tail - k.refetch).toNat)

/-- Two byte ranges meet. -/
def meets (a n b m : Nat) : Bool := decide (a < b + m) && decide (b < a + n)

/-- The extent of a copy record's D operand in its own core's scratchpad: its lowest address and its bytes (R132). -/
def dExtent (s : State) (p : Nat) (x : CopyRun) : Option (Nat × Nat) :=
  let as := (nest x.r).filterMap fun i => match placeOf s x x.r.d i with | .sp q a => if q = p then some a else none | .glob _ => none
  match as with
  | [] => none
  | a :: as => let lo := as.foldl min a; some (lo, as.foldl max a + x.r.run - lo)

/-- The D extent of a copy record overlaps input half ph of a declared pair of its own core (R399). -/
def writesInput (s : State) (p : Nat) (ph : Bool) (x : CopyRun) : Bool :=
  (x.r.d.space == 1#4 || x.r.d.space == 4#4) && !x.r.zeroTrip &&
  match dExtent s p x with
  | none => false
  | some d => (pairsOf s p).any fun e => meets d.1 d.2 (if ph then e.inp + e.n else e.inp) e.n

/-- A copy record as its engine runs it. -/
def copyRun (s : State) (p : Nat) (f : Flight) (r : Rec) (ph : Bool) : CopyRun :=
  { p := p, c := (s.sc p).ctx.toNat, slot := f.slot, r := r, ph := ph, win := f.win, blk := f.blk, order := f.part.order }

/-- The copy record in a slot of a core, with the window registers that it has taken, or would take now. -/
def copyAt (s : State) (p : Nat) (c : BitVec 32) : CopyRun :=
  let r := splitRec (slotRecord s p (s.co p).cq c)
  let win := match (s.co p).cq.flight.find? fun f => f.slot == c with | some f => f.win | none => (s.sc p).win
  { p := p, c := (s.sc p).ctx.toNat, slot := c, r := r, ph := r.phase && (s.co p).cq.ph.contains c, win := win, blk := none, order := [] }

/-- The counters from REFETCH up to, not including, TAILck. -/
def refetched (k : Checkpoint) : List (BitVec 32) :=
  (List.range (k.tail 2 - k.refetch).toNat).map fun i => k.refetch + BitVec.ofNat 32 i

/-- The copy record of a counter has not completed: while a rollback is under way those that it has not run again yet, else those from HEAD on. -/
def notDone (x : Core) (c : BitVec 32) : Bool :=
  if x.rolling then x.rerun.any (fun e => e.1 == c) || x.cq.flight.any (fun f => f.slot == c) else atOrAfter c x.cq.head

/-- The copy record of a counter has started. -/
def hasStarted (x : Core) (c : BitVec 32) : Bool :=
  !notDone x c || x.cq.flight.any (fun f => f.slot == c) || (x.rolling && x.rerun.contains (c, true))

/-- The copy records that a rollback runs again, each with whether it had started: those not completed, and those that write input half p
(R399). -/
def toRerun (s : State) (p : Nat) (k : Checkpoint) : List (BitVec 32 × Bool) :=
  ((refetched k).filter fun c => (slotRecord s p (s.co p).cq c).extractLsb' 60 4 == 2#4 &&
    (notDone (s.co p) c || writesInput s p (k.status.getLsbD 6) (copyAt s p c))).map fun c => (c, hasStarted (s.co p) c)

/-- What started copy records of a core have outstanding drains as at the halt line, and no longer belongs to them (R388, R399). -/
def orphan (s : State) (p : Nat) (drop : BitVec 32 → Bool) : State :=
  let mine (o : Origin) : Bool := match o with | .record q c => q == p && drop c | _ => false
  let free (o : Origin) : Origin := if mine o then .other else o
  let s := s.mapHeld fun h => match h.ref with | some r => if r.1 = p ∧ drop r.2 then { h with orphan := true } else h | none => h
  { s with
    tx := s.tx.map fun t => { t with origin := free t.origin }, reads := s.reads.map fun r => { r with origin := free r.origin },
    own := s.own.map fun o => { o with origin := free o.origin } }

/-- The increments that a rollback takes back: the task's SEMADDs, and those of the records that it discards, pushes again or runs
again. -/
def undoes (k : Checkpoint) (again : List (BitVec 32)) (u : Undo) : Bool :=
  u.q == 3 || atOrAfter u.slot (k.tail u.q) || (u.q == 2 && again.contains u.slot)

/-- DONE loses an increment, and ERR what came with it. -/
def Core.takeBack (x : Core) (u : Undo) : Core :=
  let v := x.sem u.sem
  x.setSem u.sem { v with done := v.done - u.amt, err := v.err && !u.err }

/-- PEND loses the increments of the records of a queue from a counter on, n of them. -/
def dropPends (s : State) (p : Nat) (q : BitVec 2) : Nat → BitVec 32 → State
  | 0, _ => s
  | n + 1, c =>
    let h := recHeader s p ((s.co p).queue q) c
    let s := if hdrRaise h then s.upCo p fun x => let v := x.sem (hdrSem h); x.setSem (hdrSem h) { v with pend := v.pend - 1 } else s
    dropPends s p q n (c + 1)

/-- The queue takes no record from a counter on; those that have started before it stay. -/
def Queue.cutAt (v : Queue) (c : BitVec 32) : Queue :=
  { v with tail := c, flight := v.flight.filter fun f => !atOrAfter f.slot c, words := [], early := [], landed := [] }

/-- A queue of a core loses its records from a counter on, and their PENDs. -/
def cutQueue (s : State) (p : Nat) (q : BitVec 2) (c : BitVec 32) : State :=
  let s := dropPends s p q (((s.co p).queue q).tail - c).toNat c
  s.upCo p fun x => x.setQueue q ((x.queue q).cutAt c)

/-- Nothing of a queue is in progress, HEAD and TAIL at a counter. -/
def Queue.emptyAt (v : Queue) (c : BitVec 32) : Queue :=
  { v with head := c, tail := c, flight := [], words := [], early := [], landed := [] }

/-- The core's part of a rollback: semaphores, and HEAD and TAIL of every queue. -/
def Core.rollBack (x : Core) (k : Checkpoint) (again : List (BitVec 32 × Bool)) : Core :=
  let undo := undoes k (again.map (·.1))
  let y := (x.undone.filter undo).foldl Core.takeBack x
  { y with
    vq := y.vq.emptyAt (k.tail 0), mq := y.mq.emptyAt (k.tail 1), cq := y.cq.emptyAt (k.tail 2), undone := x.undone.filter fun u => !undo u,
    rolls := x.rolls + 1, rolling := true, rerun := again }

/-- The rollback of the current phase of a core's task (R399): what a blocking instruction of the task waits for is withdrawn, semaphores and
queues go back at once, and the copy records that it names are to be run again; then the scalar state goes back. -/
def rollBack (s : State) (p : Nat) (k : Checkpoint) : State :=
  let again := toRerun s p k
  let s := endGrant (orphan (withdraw s p) p fun _ => true) p
  let s := cutQueue (cutQueue (cutQueue s p 0 (k.tail 0)) p 1 (k.tail 1)) p 2 (k.tail 2)
  let s := s.upCo p fun x => x.rollBack k again
  finishRoll (s.putSc p { s.sc p with run := .suspended }) p

/-- An uncorrectable word is consumed: in a phase it rolls the phase back, or is a fault where R401 says so; else it is a fault with the
given DETAIL (R77, R398, R414). -/
def consume (s : State) (p : Nat) (inPhase : Bool) (detail : Nat) (fault : State → Nat → State) : State :=
  if !inPhase then fault s detail
  else
    match (s.co p).ckpt with
    | none => fault s detail
    | some k => if cannotRoll (s.co p) k then fault s 2 else if 2 ≤ (s.co p).rolls then fault s 3 else rollBack s p k

/-! ### Known-answer records (R411) -/

/-- The records of the current phase that have not completed are discarded. -/
def discardPhase (s : State) (p : Nat) (k : Checkpoint) : State :=
  let cutTo (s : State) (q : Nat) : BitVec 32 :=
    let h := ((s.co p).queue (BitVec.ofNat 2 q)).head
    if atOrAfter h (k.tail q) then h else k.tail q
  let c2 := cutTo s 2
  let s := orphan s p fun c => atOrAfter c c2
  let s := cutQueue (cutQueue (cutQueue s p 0 (cutTo s 0)) p 1 (cutTo s 1)) p 2 c2
  if (s.co p).mq.flight = [] then endGrant s p else s

/-- KATSTAT and the mask after a mismatch (R411, Table 24.2). -/
def Core.noteKat (x : Core) (cls : Nat) : Core :=
  let n := x.katstat.toNat % 2 ^ 32
  { x with
    capmask := setBit x.capmask cls false
    katstat := (x.katstat &&& 0x8000_0000_0000_0000#64) ||| BitVec.ofNat 64 (cls % 256 * 2 ^ 48 + satInc n 32) }

/-- The team of a core is suspended because of a class (R295, R296). -/
def suspendFor (s : State) (p cls : Nat) : State := match (s.co p).task with | some r => s.suspendTeam r.team cls | none => s

/-- Change a queue of a core. -/
def upQueue (s : State) (p : Nat) (q : BitVec 2) (f : Queue → Queue) : State := s.upCo p fun x => x.setQueue q (f (x.queue q))

/-- A record that was accepted before the phase, at the head of its queue, is passed over: it does not complete, it raises nothing, and nobody
waits for it (R411). -/
def passOver (s : State) (p : Nat) (q : BitVec 2) (f : Flight) : State :=
  if f.slot ≠ ((s.co p).queue q).head then s
  else
    let s := upQueue s p q fun v => { v with head := v.head + 1, flight := v.flight.tail, fences := v.fences.filter (· != f.slot) }
    if hdrRaise f.hdr then s.upCo p fun x => let v := x.sem (hdrSem f.hdr); x.setSem (hdrSem f.hdr) { v with pend := v.pend - 1 } else s

/-- A known-answer record whose signature differs (R411). -/
def katMismatch (s : State) (p : Nat) (q : BitVec 2) (f : Flight) (cls : Nat) : State :=
  let s := s.upCo p fun x => x.noteKat cls
  match (if hasPhases s p then (s.co p).ckpt else none) with
  | none => endGrantOf q (s.engineFault p q f.slot 0x28 cls 0 f.idx) p
  | some k =>
    let s :=
      if cannotRoll (s.co p) k then
        let s := discardPhase (s.upCo p fun x => { x with katstat := x.katstat ||| 0x8000_0000_0000_0000#64 }) p k
        endGrantOf q (if atOrAfter f.slot (k.tail q.toNat) then s else passOver s p q f) p
      else rollBack s p k
    suspendFor s p cls

/-! ### Starting a record -/

/-- A record of a queue as it starts: its words as its engine took them, nothing of its body made. During a rollback one that had completed at
the checkpoint raises nothing again (R399). -/
def newFlight (s : State) (p : Nat) (q : BitVec 2) (slot : BitVec 32) (pend : Nat) (err : Bool) : Flight :=
  let x := s.co p
  let v := x.queue q
  let w := v.record s p slot
  let h := w.extractLsb' 0 64
  let h := match x.ckpt with
    | some k => if x.rolling && !atOrAfter slot k.cqHead then h &&& ~~~0x0100_0020#64 else h
    | none => h
  { hdr := h, slot := slot, words := w, idx := 0, made := decide (pend = 0), pend := pend, err := err, stat := 0, tags := [],
    win := (s.sc p).win, tie := x.vstatus.getLsbD 16, blk := none, rows := none, part := .reset }

/-- A record has started. -/
def pushFlight (s : State) (p : Nat) (q : BitVec 2) (slot : BitVec 32) (pend : Nat) (err : Bool) : State :=
  let rolling := (s.co p).rolling
  let f := newFlight s p q slot pend err
  let s := upQueue s p q fun v => { v with flight := v.flight ++ [f], words := [] }
  if rolling then s.upCo p fun y => { y with rerun := y.rerun.tail } else s

/-- The effect of a record of a class, from its first issue or step not begun on. -/
def bodyOf (s : State) (p : Nat) (f : Flight) (cls op : Nat) (r : Rec) (ph : Bool) : Eff :=
  if cls = 0 then vecEffect p op f ph r s
  else if cls = 1 then matEffect p op f ph r s
  else copyEffect (copyRun s p f r ph) op f.idx s

/-- The body of a record is over: what it left outstanding is not. -/
def endBody (s : State) (p : Nat) (q : BitVec 2) (slot : BitVec 32) (l : Left) : State :=
  s.upFlight p q slot fun f => { f with pend := f.pend - 1, made := true, tags := l.tags, idx := l.steps }

/-- A record has begun its issues or steps up to one. -/
def begunTo (s : State) (p : Nat) (q : BitVec 2) (slot : BitVec 32) (idx : Nat) : State := s.upFlight p q slot fun f => { f with idx := idx }

/-- A poisoned line that a record has met at its home is logged (R414). -/
def noteConsumed (s : State) (p detail : Nat) (val : Word) : State :=
  if detail ≠ 1 then s
  else
    let s' := noteXlat s p (s.sc p).ctx.toNat val.toNat 0
    match resolve s p (s.sc p).ctx.toNat val.toNat 0 with | .ok key => noteRead s' key | .error _ => s'

/-- A started record goes on: it makes its effect, or as much of it as the turn in progress allows. -/
def runRecord (s : State) (p : Nat) (q : BitVec 2) (f : Flight) (cls op : Nat) (r : Rec) : State :=
  let ph := r.phase && ((s.co p).queue q).ph.contains f.slot
  if s.lim = some 0 then s
  else
    match bodyOf s p f cls op r ph with
    | .done l s => endBody s p q f.slot l
    | .err e s =>
      let fault (s : State) (cause detail : Nat) (val : Word) (idx : Nat) : State :=
        endGrantOf q ((begunTo s p q f.slot idx).engineFault p q f.slot cause detail val idx) p
      match e with
      | .wait i => begunTo s p q f.slot i
      | .fault cause detail val idx => fault s cause detail val idx
      | .consumed detail val idx => consume (noteConsumed s p detail val) p (r.phase && hasPhases s p) detail fun s d => fault s 0x22 d val idx
      | .kat => katMismatch s p q f (opClass cls op)

/-- A started record that holds back a later one of its queue (R135, R216, R255): of the copy engine's, one whose writes may still land, and a
flush waits for the RMA writes ahead of it. -/
def holdsBack (cls op : Nat) (v : Queue) : Bool :=
  if cls ≠ 2 ∨ op = 0x18 then v.flight != []
  else v.flight.any fun f => f.pend != 0 && (hdrOp f.hdr == 0x12 || hdrOp f.hdr == 0x22 || (op == 0x23 && hdrOp f.hdr == 0x21))

/-- The record that a queue takes next had started before, and a rollback runs it again. -/
def resumes (x : Core) : Bool := x.rolling && (match x.rerun.head? with | some e => e.2 | none => false)

/-- A copy record that needs a request slot waits while they are all taken (Table 1.1). -/
def needsSlot (s : State) (p cls : Nat) (r : Rec) : Bool := cls == 2 && (r.d.space == 5#4 || r.a.space == 5#4) && slotsFull s p

/-- An engine meets a record of a fenced class: it does not start it, FENCED_ENGINE is noted with the slot counter and the class, and the team
is to move (R18, R139). -/
def fenceOff (s : State) (p : Nat) (q : BitVec 2) (slot : BitVec 32) (cls : Nat) : State :=
  suspendFor (endGrantOf q (upQueue s p q fun v => { v with fenced := some (slot, cls) }) p) p cls

/-- A record starts and makes its effect. -/
def beginRecord (s : State) (p : Nat) (q : BitVec 2) (slot : BitVec 32) (cls op : Nat) (r : Rec) : State :=
  let f := newFlight s p q slot 1 false
  runRecord (pushFlight s p q slot 1 false) p q f cls op r

/-- An engine goes on with the record that it has started, or takes the next one of its queue (R113, R126, R131, R135, R136, R139). DESIGN CHOICE
(log entry 113): a granted matrix record tests its await again when it starts. -/
def startRecord (cls op : Nat) (r : Rec) (s : State) : State :=
  let p := s.cur
  let q := s.curq
  let x := s.co p
  let v := x.queue q
  match v.current, x.nextSlot q with
  | some f, _ =>
    if (v.stopped && !v.inStep && !(x.rolling && savingTask s p)) || (cls == 1 && !holdsGrant s p) || needsSlot s p cls r then s else runRecord s p q f cls op r
  | none, none => s
  | none, some c =>
    if v.stopped && !(x.rolling && savingTask s p) then s
    else if cls ≠ 2 ∧ v.flight ≠ [] then s
    else
      let rule := ruleBroken (judgeOf s p q (v.fences.contains c)) cls op r
      let again := resumes x
      if rule ≠ 0 then endGrantOf q (s.engineFault p q c causeInvalid rule 0 0) p
      else if !again && r.awEn && !(x.sem r.awSem.toNat).awaitOk r.thr then s
      else if cls = 1 ∧ !holdsGrant s p then s
      else if !x.capmask.getLsbD (opClass cls op) then fenceOff s p q c (opClass cls op)
      else if !again && r.awEn && (x.sem r.awSem.toNat).err then pushFlight s p q c 0 true
      else if r.zeroTrip then pushFlight s p q c 0 false
      else if holdsBack cls op v || needsSlot s p cls r || (cls == 0 && !vecFull s p r) then s
      else beginRecord s p q c cls op r

/-- RECORD_INVALID: an engine reaches a record whose class or operation is unassigned (R131). -/
def execRecordInvalid (w : BitVec 512) (s : State) : Out :=
  .next <|
    let p := s.cur
    let q := s.curq
    let x := s.co p
    match x.nextSlot q with
    | none => s
    | some c =>
      if (x.queue q).stopped ∨ (q ≠ 2#2 ∧ (x.queue q).flight ≠ []) then s
      else endGrantOf q (s.engineFault p q c causeInvalid (wordsBroken (judgeOf s p q ((x.queue q).fences.contains c)) w) 0 0) p

/-- The slot of the record that an engine takes next holds an uncorrectable word. -/
def slotBad (s : State) (p : Nat) (q : BitVec 2) : Bool :=
  let v := (s.co p).queue q
  match v.current, (s.co p).nextSlot q with
  | none, some c => spBad s p (v.slot c) 64
  | _, _ => false

/-- The engine consumes it: ECC_UNCORRECTABLE (R77), whatever the phase, since the record cannot be told. -/
def slotFault (s : State) (p : Nat) (q : BitVec 2) : State :=
  let v := (s.co p).queue q
  match (s.co p).nextSlot q with
  | some c => if v.stopped then s else endGrantOf q (s.engineFault p q c 0x22 0 (BitVec.ofNat 64 (v.slot c)) 0) p
  | none => s

/-- Its reads correct a single error (R77, R417). -/
def slotFix (s : State) (p : Nat) (q : BitVec 2) : State :=
  let v := (s.co p).queue q
  match v.current, (s.co p).nextSlot q with
  | none, some c => spFix s p (v.slot c) 64
  | _, _ => s

/-! ### JOIN (R92, R140) -/

/-- A fence of a join group heads its queue. -/
def fenceAtHead (s : State) (p : Nat) (num : BitVec 32) (j : Nat) : Bool :=
  let v := (s.co p).queue (BitVec.ofNat 2 j)
  let w := v.record s p v.next
  v.flight == [] && v.waiting && !v.stopped && v.fences.contains v.next && w.extractLsb' 60 4 == 3#4 && w.extractLsb' 64 32 == num

/-- A fence retires. -/
def retireFence (s : State) (p : Nat) (q : BitVec 2) (err : Bool) : State :=
  completeHead (pushFlight s p q ((s.co p).queue q).next 0 err) p q

/-- An engine takes a JOIN: with its await satisfied, one that a program pushed retires at the head of its queue, and those of a QFENCE
retire together. -/
def startJoin (r : Rec) (s : State) : State :=
  let p := s.cur
  let q := s.curq
  let x := s.co p
  let v := x.queue q
  let num : BitVec 32 := r.n1 ++ r.n0
  match x.nextSlot q with
  | none => s
  | some c =>
    if v.stopped then s
    else
      let fence := v.fences.contains c
      let rule := ruleBroken (judgeOf s p q fence) 3 1 r
      if rule ≠ 0 then s.engineFault p q c causeInvalid rule 0 0
      else if r.awEn && !(x.sem r.awSem.toNat).awaitOk r.thr then s
      else if !x.capmask.getLsbD 38 then fenceOff s p q c 38
      else if v.flight ≠ [] then s
      else if !fence || (r.awEn && (x.sem r.awSem.toNat).err) then retireFence s p q (r.awEn && (x.sem r.awSem.toNat).err)
      else
        let group := [0, 1, 2].filter fun j => r.mods.getLsbD j
        if group.all (fenceAtHead s p num) then group.foldl (fun s j => retireFence s p (BitVec.ofNat 2 j) false) s else s

/-- JOIN (R140). -/
def execJoin (r : Rec) (s : State) : Out := .next (startJoin r s)

end Sys2Proof.Machine
end

