-- ==== Sys2Proof/Machine/Firmware.lean ====
section
/-! DEFINITION. The firmware registers: core selection, masks, service states and commands, the logical core map, known-answer and error
status, the scrubber, the lead lease and heartbeats (R121, R375 to R383, R405 to R408, R412, R415, R417, R422). -/
namespace Sys2Proof.Machine

/-! ### Zeroing a core (R121) -/

/-- A core after zeroing: what the die's firmware keeps of it stays, everything else is as it was before the core first ran. -/
def Core.zeroed (x : Core) : Core :=
  { Core.reset with
    capmask := x.capmask, svc := x.svc, rej := x.rej, zeroing := x.zeroing, preClaim := x.preClaim, boot := x.boot, gained := x.gained, scanSeg := x.scanSeg, scanRes := x.scanRes,
    scanFail := x.scanFail, scanSig := x.scanSig, katstat := x.katstat, spcorr := x.spcorr, resident := x.resident }

/-- Zero a core: its state, its scalar stream, its scratchpad. -/
def zeroCore (s : State) (p : Nat) : State :=
  let s := endGrant s p
  let lo := spKey p 0
  let hi := spKey p 0x40_0000
  let s := (s.upCo p Core.zeroed).putSc p Scalar.reset
  { s with mem := zeroRange s.mem lo hi, ecc := s.ecc.filter fun e => !(decide (lo ≤ e.1) && decide (e.1 < hi)) }

/-! ### The logical core map (R383, Table 22.6) -/

/-- The physical core of a die index. -/
def diePhys (d i : Nat) : Nat := d * 288 + i

/-- The physical core that a die's map entry names. -/
def lcmCore (s : State) (d e : Nat) : Option Nat :=
  let v := tget (s.di d).lcm e 0
  if v.getLsbD 9 then some (diePhys d (v.toNat % 512)) else none

/-- The physical cores that a die's map names, in the order of the map. -/
def mapCores (s : State) (d : Nat) : List Nat := (List.range 256).filterMap (lcmCore s d)

/-- The map entry that names a core. -/
def mapEntry (s : State) (p : Nat) : Option Nat :=
  (((s.di (p / 288)).lcm).find? fun e => e.2.getLsbD 9 && e.2.toNat % 512 == p % 288).map (·.1)

/-- A die is up: its map names cores, and all of them are in SERVICE (R419). -/
def dieUp (s : State) (d : Nat) : Bool := mapCores s d != [] && (mapCores s d).all fun p => (s.co p).svc == .service

/-- Work may be taken: the Crossroads die runs, and a tile die is up or has been (R419, R420). -/
def taking (s : State) : Bool := s.opened || ((s.di 8).started && (List.range 8).any (dieUp s))

/-- The first tile die that comes up opens the package to work. -/
def noteUp (s : State) : State := { s with opened := taking s }

/-- MAPPED. -/
def mapped (s : State) (p : Nat) : Bool := (mapEntry s p).isSome

/-- Give a map entry; bit 9 says that it is valid. -/
def setEntry (s : State) (d e : Nat) (v : BitVec 10) : State := s.putDi d { s.di d with lcm := tput (s.di d).lcm e v 0 }

/-! ### Service states and commands (R377, R378) -/

/-- STATE of CORESTATE (Table 22.3). -/
def Svc.code : Svc → Nat
  | .spare => 0
  | .service => 1
  | .draining => 2
  | .held => 3
  | .scanning => 4
  | .retired => 5

/-- CORESTATE. -/
def coreStateWord (s : State) (p : Nat) : Word :=
  let x := s.co p
  BitVec.ofNat 64 ((match mapEntry s p with | some e => 2 ^ 24 + e * 2 ^ 16 | none => 0) + (if x.rej then 128 else 0) + x.svc.code)

/-- A resident core of a context that is not free. -/
def residentBusy (s : State) (p : Nat) : Bool :=
  match (s.co p).resident with
  | some c => ctxState s c.toNat != 0
  | none => false

/-- A command is rejected. -/
def rejectCmd (s : State) (p : Nat) : State := s.upCo p fun x => { x with rej := true }

/-- Command 1, DRAIN. -/
def cmdDrain (s : State) (p : Nat) : State :=
  if (s.co p).svc = .service ∧ !residentBusy s p then s.upCo p fun x => { x with svc := .draining, rej := false } else rejectCmd s p

/-- Command 2, SCAN; at a core that a PRE claim has taken it also sets RESULT 4 and SEG 0 (R381). -/
def cmdScan (s : State) (p : Nat) : State :=
  if (s.co p).svc = .held ∧ !(s.co p).zeroing then
    s.upCo p fun x => { x with svc := .scanning, rej := false, scanSeg := 0, scanRes := 1, scanFail := 0, scanSig := 0 }
  else if (s.co p).preClaim then rejectCmd (s.upCo p fun x => { x with scanSeg := 0, scanRes := 4 }) p
  else rejectCmd s p

/-- Command 3, RELEASE: the core is zeroed, and CORE_ZEROING_DONE brings it to its new state. -/
def cmdRelease (s : State) (p : Nat) : State :=
  if (s.co p).svc = .held ∧ !(s.co p).zeroing then s.upCo p fun x => { x with zeroing := true, rej := false } else rejectCmd s p

/-- Command 4, RETIRE. -/
def cmdRetire (s : State) (p : Nat) : State :=
  let x := s.co p
  if (x.svc = .held ∨ x.svc = .spare) ∧ !x.zeroing ∧ !mapped s p ∧ x.capmask = 0#64 then
    s.upCo p fun x => { x with svc := .retired, rej := false }
  else rejectCmd s p

/-- A command of Table 22.4. -/
def coreCommand (s : State) (p cmd : Nat) : State :=
  if cmd = 1 then cmdDrain s p else if cmd = 2 then cmdScan s p else if cmd = 3 then cmdRelease s p else cmdRetire s p

/-- DRAIN of the subject core (R378). -/
def execDrain (s : State) : Out := .next (cmdDrain s s.cur)
/-- SCAN of the subject core (R379). -/
def execScan (s : State) : Out := .next (cmdScan s s.cur)
/-- RELEASE of the subject core (R378). -/
def execRelease (s : State) : Out := .next (cmdRelease s s.cur)
/-- RETIRE of the subject core (R378). -/
def execRetire (s : State) : Out := .next (cmdRetire s s.cur)

/-- DRAIN_TO_HELD: once no team holds the draining subject core, it is zeroed and HELD (R378). -/
def execDrainToHeld (s : State) : Out :=
  .next <|
    if (s.co s.cur).svc = .draining ∧ (s.co s.cur).task = none then (zeroCore s s.cur).upCo s.cur fun x => { x with svc := .held } else s

/-- CORE_ZEROING_DONE: the subject core becomes SERVICE where the map names it, else SPARE (R378, R383). -/
def execCoreZeroingDone (s : State) : Out :=
  .next <|
    if (s.co s.cur).zeroing then
      noteUp ((zeroCore s s.cur).upCo s.cur fun x => { x with zeroing := false, svc := if mapped s s.cur then .service else .spare })
    else s

/-! ### Scans (R379, Table 22.5) -/

/-- The classes of a segment. -/
def segClasses (n : Nat) : Word :=
  if n = 0 then 0x7 else if n = 1 then 0x78 else if n = 2 then 0x300 else if n = 3 then 0xC00 else if n = 4 then 0xF000
  else if n = 5 then 0xF0000 else if n = 6 then 0xF000000 else 0x7F_0000_0000

/-- SCAN_COMPLETE: the segment in progress on the subject core ends, its classes in fail with a wrong signature, diff the difference of the
lowest of them; segment 7 ends the scan. Segment 6 ends with its last pattern, under a grant of the array, which ends with it (R379). -/
def execScanComplete (fail : BitVec 48) (diff : Word) (s : State) : Out :=
  .next <|
    if (s.co s.cur).svc ≠ .scanning ∨ (scanning6 (s.co s.cur) ∧ !holdsGrant s s.cur) then s
    else
      (endGrant s s.cur).upCo s.cur fun x =>
        let bad := fail.setWidth 64 &&& segClasses x.scanSeg.toNat
        let y := { x with scanFail := x.scanFail ||| bad, scanSig := if x.scanFail = 0#64 ∧ bad ≠ 0#64 then diff else x.scanSig, scanSeg := x.scanSeg + 1 }
        if x.scanSeg = 7#4 then { y with svc := .held, scanRes := if y.scanFail = 0#64 then 2 else 3 } else y

/-- SCANSTAT. -/
def scanStatWord (x : Core) : Word := BitVec.ofNat 64 (x.scanSeg.toNat * 4096 + x.scanRes.toNat)

/-! ### Reading the registers -/

/-- The core that CORESEL of a die selects. -/
def selCore (s : State) (d : Nat) : Nat := diePhys d (s.di d).coresel.toNat

/-- The erasure entry that ERSEL of a die selects. -/
def selErent (s : State) (d : Nat) : BitVec 16 := tget (s.di d).erent (s.di d).ersel.toNat 0

/-- LCMENT as it reads. -/
def lcmWord (s : State) (d : Nat) : Word :=
  let v := tget (s.di d).lcm (s.di d).lcmidx.toNat 0
  ((v.extractLsb' 0 9).setWidth 64) ||| (if v.getLsbD 9 then 0x8000_0000_0000_0000#64 else 0#64)

/-- A register of 0x800 to 0x815 on a tile die. -/
def readDieReg (s : State) (d c : Nat) : Word :=
  let x := s.di d
  let y := s.co (selCore s d)
  if c = 0x800 then x.coresel.setWidth 64
  else if c = 0x801 then y.capmask
  else if c = 0x802 then coreStateWord s (selCore s d)
  else if c = 0x804 then scanStatWord y
  else if c = 0x805 then y.scanFail
  else if c = 0x806 then y.scanSig
  else if c = 0x807 then y.katstat
  else if c = 0x808 then x.lcmidx.setWidth 64
  else if c = 0x809 then lcmWord s d
  else if c = 0x810 then x.ersel.setWidth 64
  else if c = 0x811 then (selErent s d).setWidth 64
  else if c = 0x812 then x.hbmlog
  else if c = 0x813 then x.scrubcfg
  else if c = 0x814 then x.scrubstat
  else if c = 0x815 then y.spcorr.setWidth 64
  else 0

/-- LEADCAS as it reads. -/
def leadWord (s : State) : Word :=
  BitVec.ofNat 64 ((if s.leadHeld then 2 ^ 63 else 0) + s.leadHolder.toNat * 2 ^ 56)

/-- The package time of a die's last heartbeat. Between routines the service code of a started core writes HBEAT every 2 ms (R423): at the
multiples of 2 ms of package time (DESIGN CHOICE, log entry 92). -/
def lastBeat (s : State) (d : Nat) : Nat :=
  if (s.di d).started && !(s.di d).busy then max (s.di d).hbtime (s.ns / 2_000_000 * 2_000_000) else (s.di d).hbtime

/-- LEADEXP: the firmware core that holds the lease renews it, between routines by its service code every 2 ms: at the multiples of 2 ms of package
time (R422; DESIGN CHOICE, log entry 117). -/
def leadUntil (s : State) : Nat :=
  let d := s.leadHolder.toNat
  if s.leadHeld && (s.di d).started && !(s.di d).busy then max s.leadExp.toNat (s.ns / 2_000_000 * 2_000_000 + 10_000_000) else s.leadExp.toNat

/-- A firmware register as an agent reads it: zero outside the firmware cores; on the Crossroads die only the lease and the heartbeats
act (R375). -/
def readFirmware (s : State) (a c : Nat) : Word :=
  if !isFw a then 0
  else if c < 0x820 then (if a - 8192 < 8 then readDieReg s (a - 8192) c else 0)
  else if c = 0x820 then leadWord s
  else if c = 0x821 then BitVec.ofNat 64 (leadUntil s)
  else if c = 0x822 then 0
  else BitVec.ofNat 64 (lastBeat s (c - 0x823))

/-! ### Writing the registers -/

/-- The current agent is a tile die's firmware core, on whose registers a write acts; elsewhere a write in context 0 is ignored (R375). -/
def onTileFw (s : State) (body : Nat → State) : State :=
  if isFw s.cur ∧ s.cur - 8192 < 8 then body (s.cur - 8192) else s.retire

/-- Some bit of a mask is set in a value. -/
def hasBits (v m : Word) : Bool := v &&& m != 0#64

/-- A register write that traps where a reserved bit is set, else has an effect (R376, R415). -/
def checked (i : Instr) (bad : Bool) (s : State) (f : State → State) : State := if bad then s.illegal i 1 else (f s).retire

/-- KATSTAT after a write (Table 24.2). -/
def katAfter (old v : Word) : Word :=
  (if v.getLsbD 63 then 0#64 else old &&& 0x8000_0000_0000_0000#64) ||| (old &&& 0x00FF_0000_0000_0000#64) ||| (v &&& 0xFFFF_FFFF#64)

/-- An erasure entry obeys R415. -/
def erentOk (v : Word) : Bool :=
  let p0 := (v.extractLsb' 8 7).toNat
  let p1 := (v.extractLsb' 0 7).toNat
  !hasBits v 0xFFFF_FFFF_FFFF_0000 && (!v.getLsbD 15 || decide (p0 ≤ 71)) && (!v.getLsbD 7 || decide (p1 ≤ 71)) &&
  !(v.getLsbD 15 && v.getLsbD 7 && p0 == p1)

/-- MTCR to a register of 0x800 to 0x815 that has no row of its own, on tile die d. -/
def writeDieReg (i : Instr) (d c : Nat) (v : Word) (s : State) : State :=
  let p := selCore s d
  if c = 0x800 then checked i (decide (287 < v.toNat)) s fun s => s.putDi d { s.di d with coresel := v.setWidth 9 }
  else if c = 0x802 then checked i (hasBits v 0xFFFF_FFFF_FE00_FF78) s id
  else if c = 0x803 then checked i (decide (v.toNat = 0) || decide (4 < v.toNat)) s fun s => coreCommand s p v.toNat
  else if c = 0x804 then checked i (hasBits v 0xFFFF_FFFF_FFFF_0FF0) s id
  else if c = 0x805 then checked i (hasBits v 0xFFFF_0000_0000_0000) s id
  else if c = 0x806 then s.retire
  else if c = 0x807 then checked i (hasBits v 0x7F00_FFFF_0000_0000) s fun s => s.upCo p fun x => { x with katstat := katAfter x.katstat v }
  else if c = 0x808 then checked i (decide (255 < v.toNat)) s fun s => s.putDi d { s.di d with lcmidx := v.setWidth 8 }
  else if c = 0x810 then checked i (decide (255 < v.toNat)) s fun s => s.putDi d { s.di d with ersel := v.setWidth 8 }
  else if c = 0x811 then
    checked i (!erentOk v) s fun s => s.putDi d { s.di d with erent := tput (s.di d).erent (s.di d).ersel.toNat (v.setWidth 16) 0 }
  else if c = 0x812 then
    checked i (hasBits v 0x3000_1FFF_C000_0000) s fun s =>
      if v.getLsbD 63 then s.putDi d { s.di d with hbmlog := (s.di d).hbmlog &&& 0x7FFF_FFFF_FFFF_FFFF#64 } else s
  else if c = 0x813 then
    checked i (hasBits v 0x7FFF_FFFF_FFFF_0000 || v.setWidth 16 == 0#16) s fun s => s.putDi d { s.di d with scrubcfg := v }
  else if c = 0x814 then (s.putDi d { s.di d with scrubstat := v }).retire
  else (s.upCo p fun x => { x with spcorr := v.setWidth 32 }).retire

/-- MTCR to a firmware register that has no row of its own: LEADEXP and HBTIMEn are read only. -/
def writeFirmware (i : Instr) (c : Nat) (v : Word) (s : State) : State :=
  if c < 0x820 then onTileFw s fun d => writeDieReg i d c v s else s.retire

/-- Every assigned class (Table 24.1). -/
def allClasses : Word := 0x0000_007F_0F0F_FF7F

/-- CORECAP: bits are cleared in any state, set only in HELD or SPARE; bit 0 of a mapped core stays (R382). -/
def corecapBody (i : Instr) (d : Nat) (v : Word) (s : State) : State :=
  let p := selCore s d
  let x := s.co p
  let new := v &&& allClasses
  if hasBits v 0xFFFF_0000_0000_0000 || (mapped s p && x.capmask.getLsbD 0 && !v.getLsbD 0) then s.illegal i 1
  else (s.upCo p fun x => { x with capmask := if x.svc = .held ∨ x.svc = .spare then new else x.capmask &&& new }).retire

/-- CORECAP_WRITE (R380, R382, R407). -/
def execCorecapWrite (g : Guard) (a : Src) (s : State) : Out :=
  issuePriv (.corecapWrite g a) 0 g [a] none s fun s => onTileFw s fun d => corecapBody (.corecapWrite g a) d (s.rd a) s

/-- LCMENT (R383): the core that the entry names must be HELD, the one that it is to name SPARE with bit 0 of its mask set. -/
def lcmentBody (i : Instr) (d : Nat) (v : Word) (s : State) : State :=
  let e := (s.di d).lcmidx.toNat
  let idx := v.toNat % 512
  let p := diePhys d idx
  let valid := v.getLsbD 63
  let oldOk := match lcmCore s d e with | some q => (s.co q).svc == .held && !(s.co q).zeroing | none => true
  let newOk := !valid || (decide (idx < 288) && (s.co p).svc == .spare && !(s.co p).zeroing && (s.co p).capmask.getLsbD 0)
  if hasBits v 0x7FFF_FFFF_FFFF_FE00 || !oldOk || !newOk then s.illegal i 1
  else
    let s := setEntry s d e (v.setWidth 9 |>.setWidth 10 |>.or (if valid then 0x200#10 else 0#10))
    (noteUp (if valid then s.upCo p fun x => { x with zeroing := true } else s)).retire

/-- LCMENT_WRITE (R383). -/
def execLcmentWrite (g : Guard) (a : Src) (s : State) : Out :=
  issuePriv (.lcmentWrite g a) 0 g [a] none s fun s => onTileFw s fun d => lcmentBody (.lcmentWrite g a) d (s.rd a) s

/-- LEADCAS succeeds: the lease has lapsed and EXPECT is 15, or the holder is EXPECT (R422). -/
def leadFree (s : State) (expect : Nat) : Bool :=
  (expect == 15 && (!s.leadHeld || decide (leadUntil s < s.ns))) || (s.leadHeld && s.leadHolder.toNat == expect)

/-- LEADCAS (R422). -/
def leadcasBody (i : Instr) (v : Word) (s : State) : State :=
  let new := bitsOf v.toNat 59 56
  if hasBits v 0xF0F0_FFFF_FFFF_FFFF || decide (8 < new) then s.illegal i 1
  else if leadFree s (bitsOf v.toNat 51 48) then
    ({ s with leadHeld := true, leadHolder := BitVec.ofNat 4 new, leadExp := BitVec.ofNat 64 (s.ns + 10_000_000) }).retire
  else s.retire

/-- LEADCAS_WRITE, on a die firmware core (R422); elsewhere ignored. -/
def execLeadcasWrite (g : Guard) (a : Src) (s : State) : Out :=
  issuePriv (.leadcasWrite g a) 0 g [a] none s fun s => if isFw s.cur then leadcasBody (.leadcasWrite g a) (s.rd a) s else s.retire

/-- HBEAT_WRITE: the die's heartbeat (R422). -/
def execHbeatWrite (g : Guard) (a : Src) (s : State) : Out :=
  issuePriv (.hbeatWrite g a) 0 g [a] none s fun s =>
    if isFw s.cur then (s.putDi (s.cur - 8192) { s.di (s.cur - 8192) with hbtime := s.ns }).retire else s.retire

end Sys2Proof.Machine
end

