-- ==== Sys2Proof/Machine/Control.lean ====
section
/-! DEFINITION. Control registers, ring registers, MLEASE, DONE, PROBE, PHINT, PHASE and SHOOT (R83, R84, R106 to R109, R111, R112, R133, R134,
R146, R174, R218, R329, R349, R350). -/
namespace Sys2Proof.Machine

/-! ### Reading (Table 6.1) -/

/-- CORE; a thread or a firmware core reads as logical core 0 of a team of one (R84). -/
def coreWord (s : State) (a : Nat) : Word :=
  match (if isCore a then s.teamOf a else none) with
  | some t => BitVec.ofNat 64 (s.lcoreOf a + (t.size - 1) * 2 ^ 8 + t.cidx * 2 ^ 16 + (t.cteams - 1) * 2 ^ 19)
  | none => 0

/-- CYCLE: clk since the first instruction. -/
def cycleWord (s : State) (x : Scalar) : Word := BitVec.ofNat 64 (x.cycle0 + (s.time - x.start) / 10)

/-- SSNUM. -/
def ssnumWord (s : State) (a : Nat) : Word := match (if isCore a then s.teamOf a else none) with | some t => t.ssnum | none => 0

/-- A ring register: 0 BASE, 1 COUNT, 2 HEAD, 3 TAIL (Tables 8.8, 8.9). -/
def ringWord (v : Queue) (n : Nat) : Word :=
  if n = 0 then v.base.setWidth 64 else if n = 1 then v.count.setWidth 64 else if n = 2 then v.headWord else v.tail.setWidth 64

/-- MSTATUS (Table 10.6). -/
def mstatusWord (s : State) (p : Nat) : Word :=
  let y := s.qd (quadOf p)
  BitVec.ofNat 64 ((if holdsGrant s p then y.run * 2 ^ 16 + 1 else 0) + (if (s.co p).nseen then 4 else 0) + (if s.palarm then 2 else 0))

/-- The registers of a core's engines; a thread or a firmware core has none and reads zero. -/
def readEngineReg (s : State) (p c : Nat) : Word :=
  let x := s.co p
  if !isCore p then 0
  else if c = 0x022 then x.capmask
  else if 0x040 ≤ c ∧ c ≤ 0x04B then ringWord (x.queue (BitVec.ofNat 2 ((c - 0x040) / 4))) (c % 4)
  else if c = 0x060 then x.vstatus
  else if c = 0x061 then mstatusWord s p
  else if c = 0x062 then (s.qd (quadOf p)).lease
  else if c = 0x063 then x.cqstat
  else x.redstat

/-- Trap and loop registers. -/
def readTrapReg (x : Scalar) (c : Nat) : Word :=
  if c = 0x000 then x.status
  else if c = 0x001 then x.tvec
  else if c = 0x002 then x.tpc
  else if c = 0x003 then x.tcause
  else if c = 0x004 then x.tval
  else if c = 0x005 then x.tstatus
  else if c ≤ 0x00B then tget x.tscr (c - 8) 0
  else if c = 0x010 then x.lstart0
  else if c = 0x011 then x.lend0
  else if c = 0x012 then x.lcount0
  else if c = 0x013 then x.lstart1
  else if c = 0x014 then x.lend1
  else x.lcount1

/-- A control register of an agent (Table 6.1). -/
def readCreg (s : State) (a c : Nat) : Word :=
  let x := s.sc a
  if c ≤ 0x015 then readTrapReg x c
  else if c = 0x020 then coreWord s a
  else if c = 0x021 then x.ctx.setWidth 64
  else if c = 0x023 then BitVec.ofNat 64 s.ns
  else if c = 0x024 then cycleWord s x
  else if c = 0x025 then ssnumWord s a
  else if c = 0x026 then x.phnum
  else if 0x030 ≤ c ∧ c ≤ 0x033 then tget x.roles (c - 0x030) 0
  else if 0x050 ≤ c ∧ c ≤ 0x05F then tget x.win (c - 0x050) 0
  else if c = 0x100 then x.shctx.setWidth 64
  else if 0x800 ≤ c then readFirmware s a c
  else readEngineReg s a c

/-- MFCR (R83, R109). -/
def execMfcr (g : Guard) (d : BitVec 6) (c : BitVec 12) (s : State) : Out :=
  issue 0 g [] (some d) s fun s => s.result d (readCreg s s.cur c.toNat)

/-! ### Writing -/

/-- A loop register after a write. -/
def Scalar.setLoopReg (x : Scalar) (c : Nat) (v : Word) : Scalar :=
  if c = 0x010 then { x with lstart0 := align8 v }
  else if c = 0x011 then { x with lend0 := align8 v }
  else if c = 0x012 then { x with lcount0 := v }
  else if c = 0x013 then { x with lstart1 := align8 v }
  else if c = 0x014 then { x with lend1 := align8 v }
  else { x with lcount1 := v }

/-- STATUS, a trap register or a scratch register after a write (Tables 6.1 to 6.3). -/
def Scalar.setTrapReg (x : Scalar) (c : Nat) (v : Word) : Scalar :=
  if c = 0x000 then { x with status := (x.status &&& 0x40#64) ||| (v &&& 0x87#64) }
  else if c = 0x001 then { x with tvec := align8 v }
  else if c = 0x002 then { x with tpc := align8 v }
  else if c = 0x003 then { x with tcause := v &&& 0xFFFF#64 }
  else if c = 0x004 then { x with tval := v }
  else if c = 0x005 then { x with tstatus := v &&& 0xC7#64 }
  else { x with tscr := tput x.tscr (c - 8) v 0 }

/-- Write-1-to-clear bits of a mask. -/
def w1c (old v m : Word) : Word := old &&& ~~~(v &&& m)

/-- EVT of q_HEAD is W1C. -/
def Queue.clearEvt (q : Queue) (v : Word) : Queue := if v.getLsbD 63 then { q with evt := false } else q

/-- An engine register of a core after a write; q_TAIL and what is read only keep their values. -/
def Core.setEngineReg (x : Core) (c : Nat) (v : Word) : Core :=
  if c = 0x042 then { x with vq := x.vq.clearEvt v }
  else if c = 0x046 then { x with mq := x.mq.clearEvt v }
  else if c = 0x04A then { x with cq := x.cq.clearEvt v }
  else if c = 0x060 then { x with vstatus := w1c (x.vstatus &&& 0x7F#64) v 0x7F ||| (v &&& 0x1_0000#64) }
  else if c = 0x061 then { x with nseen := x.nseen && !v.getLsbD 2 }
  else if c = 0x063 then { x with cqstat := w1c x.cqstat v 0x8000_0000_0000_0000 }
  else if c = 0x064 then { x with redstat := w1c x.redstat v 3 }
  else x

/-- MTCR to a register that is not privileged. An MTCR at LENDn is tested with the loop registers and the loop bits of STATUS held before it
(R72, R84). -/
def writeCreg (c : Nat) (v : Word) (s : State) : State :=
  if 0x010 ≤ c ∧ c ≤ 0x015 then s.retire.upSc fun x => x.setLoopReg c v
  else if c ≤ 0x00B then s.retire.upSc fun x => x.setTrapReg c v
  else if 0x050 ≤ c ∧ c ≤ 0x05F then (s.upSc fun x => { x with win := tput x.win (c - 0x050) v 0 }).retire
  else if isCore s.cur ∧ 0x040 ≤ c then (s.upCo s.cur fun x => x.setEngineReg c v).retire
  else s.retire

/-- MTCR (R83, R84, R109): SHCTX and the firmware registers are privileged (R41). -/
def execMtcr (g : Guard) (a : Src) (c : BitVec 12) (s : State) : Out :=
  let i : Instr := .mtcr g a c
  if c = 0x100#12 then issuePriv i 0 g [a] none s fun s => (s.upSc fun x => { x with shctx := (s.rd a).setWidth 6 }).retire
  else if 0x800 ≤ c.toNat then issuePriv i 0 g [a] none s fun s => writeFirmware i c.toNat (s.rd a) s
  else issue 0 g [a] none s fun s => writeCreg c.toNat (s.rd a) s

/-! ### Ring registers and MLEASE -/

/-- q_BASE may hold a value (Table 8.9). -/
def baseOk (v : Word) : Bool := v.setWidth 6 == 0#6 && decide (v.toNat < 2 ^ 22) && decide (0x100 ≤ v.toNat)

/-- q_COUNT may hold a value (Table 8.9). -/
def countOk (v : Word) : Bool := [0, 16, 32, 64, 128, 256, 512, 1024, 2048, 4096].contains v.toNat

/-- A ring lies in the scratchpad. -/
def ringFits (base count : Nat) : Bool := decide (base + 64 * count ≤ 0x40_0000)

/-- A write to q_BASE or q_COUNT (R84, R134). -/
def ringWrite (i : Instr) (q : BitVec 2) (count : Bool) (v : Word) (s : State) : State :=
  let x := (s.co s.cur).queue q
  let ok := if count then countOk v && ringFits x.base.toNat v.toNat else baseOk v && ringFits v.toNat x.count.toNat
  if !isCore s.cur then s.retire
  else if x.head ≠ x.tail ∨ x.flight ≠ [] ∨ !ok then s.illegal i 1
  else
    let y := { x with head := 0, tail := 0, ph := [], fences := [] }
    (s.upCo s.cur fun z => z.setQueue q (if count then { y with count := v.setWidth 13 } else { y with base := v.setWidth 22 })).retire

/-- RING_REGISTER_WRITE (R84, R134). -/
def execRingRegisterWrite (g : Guard) (a : Src) (q : BitVec 2) (count : Bool) (s : State) : Out :=
  issue 0 g [a] none s fun s => ringWrite (.ringRegisterWrite g a q count) q count (s.rd a) s

/-- A write to MLEASE (R174). -/
def mleaseBody (i : Instr) (v : Word) (s : State) : State :=
  if !isCore s.cur then s.retire
  else if v.toNat = 0 ∨ 64 < v.toNat then s.illegal i 1
  else (s.putQd (quadOf s.cur) { s.qd (quadOf s.cur) with lease := v }).retire

/-- MLEASE_WRITE, privileged (R41, R174). -/
def execMleaseWrite (g : Guard) (a : Src) (s : State) : Out :=
  issuePriv (.mleaseWrite g a) 0 g [a] none s fun s => mleaseBody (.mleaseWrite g a) (s.rd a) s

/-! ### DONE -/

/-- DONE (R111): the drain begins; TASK_END follows once it has finished. -/
def execDoneOp (g : Guard) (s : State) : Out := issue 0 g [] none s fun s => s.wait .drain

/-! ### PROBE (R106, R350) -/

/-- The owner die finds a translation for the first byte of a unit. DESIGN CHOICE (log entry 111): control space, which has no translation, counts as
mapped for context 0 and as unmapped for every other context. -/
def unitMapped (s : State) (c ea : Nat) : Bool :=
  let d := ea / 2 ^ 56
  let off := ea % 2 ^ 56
  if isControl off then c == 0
  else
    match (if d = 8 then windowKey s c off 4 else none) with
    | some (.error e) => e == causePermission
    | some (.ok _) => true
    | none => (walk s c d off).isSome

/-- The first of n units from a unit on that is not mapped. -/
def firstUnmapped (s : State) (c : Nat) : Nat → Nat → Option Nat
  | _, 0 => none
  | u, n + 1 => if unitMapped s c (u * 65536) then firstUnmapped s c (u + 1) n else some u

/-- The units of PROBE's range end at last; a page request for a unit, raised n times before within this PROBE (R242, R243, R350): with no
handler it is answered with a refusal, and with the queue full it waits. -/
def raisePage (u last n : Nat) (s : State) : State :=
  let ea : Word := BitVec.ofNat 64 (u * 65536)
  if 16 ≤ n ∨ handlerEntry s 0 4 = 0#64 then (s.upSc fun x => { x with probes := 0, answer := none }).trap 11 0 ea
  else if !eventRoom s 0 4 then s
  else
    let e : Ev := { kind := 4, arg := ea, tag := 0, len := 0, ptime := 0, fctx := (s.sc s.cur).ctx.toNat, data := 0, asker := some s.cur }
    (pushEvent s 0 e).upSc fun x => { x with run := .waiting (.page u last), probes := n + 1, answer := none }

/-- PROBE asks from a unit on, which has raised n page requests. -/
def probeFrom (u last n : Nat) (s : State) : State :=
  match firstUnmapped s (s.sc s.cur).ctx.toNat u (last + 1 - u) with
  | none => (s.upSc fun x => { x with probes := 0, answer := none }).retire
  | some k => raisePage k last (if k = u then n else 0) s

/-- PROBE (R106). -/
def probeBody (a b : Word) (s : State) : State :=
  if b = 0#64 then s.retire
  else if badForm a.toNat then s.trap 4 2 a
  else if (a.toNat + b.toNat - 1) % 2 ^ 64 / 2 ^ 56 ≠ a.toNat / 2 ^ 56 then s.trap 4 3 a
  else probeFrom (a.toNat / 65536) ((a.toNat + b.toNat - 1) / 65536) 0 s

/-- PROBE (R106, R350). -/
def execProbe (g : Guard) (a b : Src) (s : State) : Out := issue 0 g [a, b] none s fun s => probeBody (s.rd a) (s.rd b) s

/-- PAGE_REQUEST_ANSWER: the page request that the subject's PROBE waits for has been answered: it asks again from that unit, or traps
PROBE_FAULT (R245, R350). -/
def execPageRequestAnswer (s : State) : Out :=
  .next <|
    match (s.sc s.cur).run, (s.sc s.cur).answer with
    | .waiting (.page u last), some ok =>
      if ok then probeFrom u last (s.sc s.cur).probes s
      else (s.upSc fun x => { x with probes := 0, answer := none }).trap 11 0 (BitVec.ofNat 64 (u * 65536))
    | _, _ => s

/-! ### PHINT and PHASE -/

/-- The task watchdog starts again (R402). -/
def restartWatchdog (s : State) : State := s.upSc fun x => { x with wd := s.time }

/-- A yield request is pending for the current core's team. -/
def yieldPending (s : State) : Bool := match s.teamOf s.cur with | some t => t.yield.isSome | none => false

/-- PHINT (R107): with a yield request pending the task, its PHINT retired, waits for its save. -/
def phintBody (ea : Word) (s : State) : State :=
  if ea.toNat % 64 ≠ 0 then s.trap 3 0 ea
  else if 0x3F_FF80 < ea.toNat then s.trap 4 0 ea
  else
    let s := restartWatchdog s.retire
    if yieldPending s then (s.upSc fun x => { x with stopAt := s.time }).wait (.yield ea) else s

/-- PHINT (R41, R107). -/
def execPhint (g : Guard) (a : Src) (imm : BitVec 28) (s : State) : Out :=
  issueCore (.phint g a imm) 0 g [a] none s fun s => phintBody (ea28 (s.rd a) imm) s

/-- PHASE's effect: PH toggles, PHNUM increments, and the next phase starts from a checkpoint (R108, R398). -/
def phaseBody (s : State) : State :=
  let s := s.upSc fun x => { x with status := x.status ^^^ 0x40#64, phnum := x.phnum + 1 }
  let s := restartWatchdog s.retire
  takeCheckpoint s s.cur s.pc

/-- PHASE (R41, R108). -/
def execPhase (g : Guard) (s : State) : Out :=
  let i : Instr := .phase g
  issueCore i 0 g [] none s fun s => if hasPhases s s.cur then phaseBody s else s.illegal i 4

/-! ### SHOOT (R112, R349) -/

/-- A translation of a context overlaps a range of n bytes of its die; a length of 0 names them all. -/
def shotBy (c off n : Nat) (e : TlbEnt) : Bool :=
  e.ctx == c && (n == 0 || (decide (e.unit * 65536 < off + n) && decide (off < (e.unit + 1) * 65536)))

/-- The same of a range entry. -/
def rangeShot (c off n : Nat) (e : RangeEnt) : Bool :=
  e.ctx == c && (n == 0 || (decide (e.lo * 65536 < off + n) && decide (off < (e.hi + 1) * 65536)))

/-- Every TLB of a die drops what overlaps a range of a context. -/
def shootDie (s : State) (d c off n : Nat) : State :=
  let shot (x : Core) : Core := { x with tlb := x.tlb.filter fun t => !shotBy c off n t }
  let y := s.di d
  { s with core := s.core.map fun (e : Nat × Core) => if e.1 / 288 = d then (e.1, shot e.2) else e }.putDi d
    { y with tlb := y.tlb.filter fun t => !shotBy c off n t, ranges := y.ranges.filter fun t => !rangeShot c off n t }

/-- SHOOT. DESIGN CHOICE (log entry 106): the owner is all of the bits above the offset, so that an address with a[63:60] nonzero traps DETAIL 3;
a length of 0 looks at no address. -/
def shootBody (a b : Word) (s : State) : State :=
  let d := agentDie s.cur
  let c := (s.sc s.cur).shctx.toNat
  if b ≠ 0#64 ∧ (a.toNat / 2 ^ 56 ≠ d ∨ (a.toNat + b.toNat - 1) % 2 ^ 64 / 2 ^ 56 ≠ d) then s.trap 4 3 a
  else (shootDie s d c (a.toNat % 2 ^ 56) b.toNat).retire

/-- SHOOT, privileged (R41, R112). -/
def execShoot (g : Guard) (a b : Src) (s : State) : Out :=
  issuePriv (.shoot g a b) 0 g [a, b] none s fun s => shootBody (s.rd a) (s.rd b) s

end Sys2Proof.Machine
end

