-- ==== Sys2Proof/Machine/LoadStore.lean ====
section
/-! DEFINITION. Loads and stores of scratchpad and local stores, with the error code of scratchpad words (R74 to R77, R239, R375). -/
namespace Sys2Proof.Machine

/-- Some byte of an access lies in a declared pair of the task, either half (R398). -/
def inPair (s : State) (p a n : Nat) : Bool := (pairsOf s p).any fun e => meets a n e.inp (2 * e.n) || meets a n e.out (2 * e.n)

/-- The current agent's word at an address is uncorrectable; only scratchpads carry the code. -/
def localBad (s : State) (ea w : Nat) : Bool := isCore s.cur && spBad s s.cur ea w

/-- The current agent consumes an uncorrectable word (R77, R398). -/
def consumeLocal (s : State) (ea : Word) (w : Nat) : State :=
  consume s s.cur (inPair s s.cur ea.toNat w) 0 fun s d => s.ctxFault 0x22 d ea

/-- Single errors of the words that an access reads are corrected. -/
def localFix (s : State) (ea w : Nat) : State := if isCore s.cur then spFix s s.cur ea w else s

/-- A load of w bytes (R74, R75, R77). DESIGN CHOICE (log entry 104): an address that is misaligned and out of range traps MISALIGNED. -/
def loadLocal (w : Nat) (sx : Bool) (d : BitVec 6) (ea : Word) (s : State) : State :=
  if ea.toNat % w ≠ 0 then s.trap 3 0 ea
  else if !inLocal s ea w then s.trap 4 0 ea
  else if localBad s ea.toNat w then consumeLocal s ea w
  else
    let s := localFix s ea.toNat w
    s.result d (extendLoad (rdN s.mem (lsKey s.cur ea.toNat) w) w sx)

/-- Write w bytes to the current agent's scratchpad or local store. -/
def storeBytes (s : State) (ea w v : Nat) : State :=
  let s := { s with mem := wrN s.mem (lsKey s.cur ea) w v }
  if isCore s.cur then spFresh s s.cur ea w else s

/-- A store of w bytes: one of fewer than 8 bytes reads the word first (R74, R75, R77). -/
def storeLocal (w : Nat) (ea v : Word) (s : State) : State :=
  if ea.toNat % w ≠ 0 then s.trap 3 0 ea
  else if !inLocal s ea w then s.trap 4 0 ea
  else if w < 8 ∧ localBad s ea.toNat w then consumeLocal s ea w
  else (storeBytes (if w < 8 then localFix s ea.toNat w else s) ea.toNat w v.toNat).retire

/-- LD.S.B (R74, R75). -/
def execLdSB (g : Guard) (d : BitVec 6) (a : Src) (imm : BitVec 28) (s : State) : Out :=
  issue 0 g [a] (some d) s fun s => loadLocal 1 true d (ea28 (s.rd a) imm) s

/-- LD.S.BU (R74, R75). -/
def execLdSBu (g : Guard) (d : BitVec 6) (a : Src) (imm : BitVec 28) (s : State) : Out :=
  issue 0 g [a] (some d) s fun s => loadLocal 1 false d (ea28 (s.rd a) imm) s

/-- LD.S.H (R74, R75). -/
def execLdSH (g : Guard) (d : BitVec 6) (a : Src) (imm : BitVec 28) (s : State) : Out :=
  issue 0 g [a] (some d) s fun s => loadLocal 2 true d (ea28 (s.rd a) imm) s

/-- LD.S.HU (R74, R75). -/
def execLdSHu (g : Guard) (d : BitVec 6) (a : Src) (imm : BitVec 28) (s : State) : Out :=
  issue 0 g [a] (some d) s fun s => loadLocal 2 false d (ea28 (s.rd a) imm) s

/-- LD.S.W (R74, R75). -/
def execLdSW (g : Guard) (d : BitVec 6) (a : Src) (imm : BitVec 28) (s : State) : Out :=
  issue 0 g [a] (some d) s fun s => loadLocal 4 true d (ea28 (s.rd a) imm) s

/-- LD.S.WU (R74, R75). -/
def execLdSWu (g : Guard) (d : BitVec 6) (a : Src) (imm : BitVec 28) (s : State) : Out :=
  issue 0 g [a] (some d) s fun s => loadLocal 4 false d (ea28 (s.rd a) imm) s

/-- LD.S (R74, R75). -/
def execLdS (g : Guard) (d : BitVec 6) (a : Src) (imm : BitVec 28) (s : State) : Out :=
  issue 0 g [a] (some d) s fun s => loadLocal 8 false d (ea28 (s.rd a) imm) s

/-- ST.S.B (R74, R75). -/
def execStSB (g : Guard) (a b : Src) (imm : BitVec 28) (s : State) : Out :=
  issue 0 g [a, b] none s fun s => storeLocal 1 (ea28 (s.rd a) imm) (s.rd b) s

/-- ST.S.H (R74, R75). -/
def execStSH (g : Guard) (a b : Src) (imm : BitVec 28) (s : State) : Out :=
  issue 0 g [a, b] none s fun s => storeLocal 2 (ea28 (s.rd a) imm) (s.rd b) s

/-- ST.S.W (R74, R75). -/
def execStSW (g : Guard) (a b : Src) (imm : BitVec 28) (s : State) : Out :=
  issue 0 g [a, b] none s fun s => storeLocal 4 (ea28 (s.rd a) imm) (s.rd b) s

/-- ST.S (R74, R75). -/
def execStS (g : Guard) (a b : Src) (imm : BitVec 28) (s : State) : Out :=
  issue 0 g [a, b] none s fun s => storeLocal 8 (ea28 (s.rd a) imm) (s.rd b) s

end Sys2Proof.Machine
end

