-- ==== Sys2Proof/Machine/Message.lean ====
section
/-! DEFINITION. Message descriptors and MSEND (R103 to R105, R239, R250, R431). -/
namespace Sys2Proof.Machine

/-! ### Reading descriptors -/

/-- Read n bytes of the current agent's scratchpad or local store, an uncorrectable word consumed as by a load (R77). -/
def withLocal (ea n : Nat) (s : State) (body : Nat → State → State) : State :=
  if localBad s ea n then consumeLocal s (BitVec.ofNat 64 ea) n
  else body (rdN s.mem (lsKey s.cur ea) n) (localFix s ea n)

/-- Read the 64-byte descriptor of a sending instruction (R103): its eight words. -/
def withDesc (ea : Word) (s : State) (body : (Nat → Nat) → State → State) : State :=
  if ea.toNat % 64 ≠ 0 then s.trap 3 0 ea
  else if lsSize s.cur - 64 < ea.toNat then s.trap 4 0 ea
  else withLocal ea.toNat 64 s fun v => body fun j => (v / 2 ^ (64 * j)) % 2 ^ 64

/-- The number of the first word that breaks its rule. -/
def firstBad (checks : List Bool) : Option Nat := checks.findIdx? (!·)

/-- PBASE. -/
def pbase (w : Nat → Nat) : Nat := w 2 % 2 ^ 22
/-- PLEN. -/
def plen (w : Nat → Nat) : Nat := w 3 % 2 ^ 13

/-- The checks of Table 6.8 that every message descriptor of a KIND among kinds takes, word by word, in an agent's store of a size. DESIGN CHOICE
(log entry 105): on a thread or a firmware core PBASE + PLEN is held against its own store. -/
def msgChecks (size : Nat) (kinds : List Nat) (w : Nat → Nat) : List Bool :=
  let kind := w 0 % 256
  [ bitsOf (w 0) 43 16 == 0 && decide (bitsOf (w 0) 15 8 ≤ 1) && kinds.contains kind && (kind != 3 || bitsOf (w 0) 63 44 == 0),
    (kind == 2 || kind == 3) || w 1 == 0,
    decide (w 2 < 2 ^ 22),
    decide (w 3 < 2 ^ 13) && decide (plen w ≤ 4096) && decide (pbase w + plen w ≤ size),
    decide (w 4 < 2 ^ 32),
    decide (w 5 < 2 ^ 21) && decide (w 5 % 2 ^ 20 < 524288),
    decide (w 6 < 2 ^ 10) && (kind == 5 || w 6 == 0),
    w 7 == 0 ]

/-- The milestone of a descriptor. -/
def msgMs (w : Nat → Nat) : Option Nat := if bitsOf (w 5) 20 20 = 1 then some (w 5 % 2 ^ 20) else none

/-- Dirty lines are written back, and nothing more happens until every earlier store has been performed at its home (R104). -/
def whenDrained (s : State) (body : State → State) : State := if (s.sc s.cur).drained then body s else s.upSc fun x => x.flushAll []

/-! ### MSEND -/

/-- The status of MSEND for an unusable connection (Table 6.9); 4 where it serves an aborted collective. -/
def msendStatus (s : State) (c n mode : Nat) : Nat :=
  let st := connStatus s c n mode
  if st = 3 then 2 else if st = 1 then 3 else st

/-- MSEND hands its message over (R105, R431). A message on a connection of an aborted collective is taken and lost (R338). -/
def msendGo (d : BitVec 6) (w : Nat → Nat) (v : Nat) (s : State) : State :=
  let c := (s.sc s.cur).ctx.toNat
  let conn := bitsOf (w 0) 63 44
  let mode := bitsOf (w 0) 15 8
  let tag : Word := BitVec.ofNat 64 (w 1)
  if conn = 0xF_FFFF then
    let o : OwnMsg :=
      { ctx := c, lane := ownLane s.cur, mode := mode, op := w 0 % 256, len := plen w, data := v, tag := tag, origin := .other, ms := msgMs w }
    (sendToSelf s o).result d 0
  else
    let st := msendStatus s c conn mode
    if st = 2 ∨ st = 3 then s.result d (BitVec.ofNat 64 st)
    else
      let room := Config.sendRoom s.free && bufferRoom s (plen w)
      let s := { s with free := s.free + 1 }
      if !room then s.result d 1
      else if st = 4 then s.result d 0
      else
        let m : OutMsg :=
          { ctx := c, conn := conn, mode := mode, op := w 0 % 256, tag := tag, key := 0, roff := 0, len := plen w, data := v, carry := plen w,
            origin := .other, ms := msgMs w }
        (sendMessage s m).2.result d 0

/-- MSEND once its descriptor is read. -/
def msendBody (d : BitVec 6) (ea : Word) (s : State) : State :=
  withDesc ea s fun w s =>
    match firstBad (msgChecks (lsSize s.cur) [1, 2] w) with
    | some k => s.trap 14 k ea
    | none => whenDrained s fun s => withLocal (pbase w) (plen w) s fun v => msendGo d w v

/-- MSEND (R103, R104, R105). -/
def execMsend (g : Guard) (d : BitVec 6) (a : Src) (off : BitVec 22) (s : State) : Out :=
  issue 6 g [a] (some d) s fun s => msendBody d (ea22 (s.rd a) off) s

end Sys2Proof.Machine
end

