-- ==== Sys2Proof/Machine/Pool.lean ====
section
/-! DEFINITION. Work items: their checks, the child pool, the spill queues, and what the dispatcher reads of the head of a queue (R236, R280,
R281, R284, R285, R287, R299 to R301, R420). -/
namespace Sys2Proof.Machine

/-! ### Fields of a work item (Tables 12.4, 15.2) -/

/-- Word j of a work item. -/
def itemWord (w : BitVec 512) (j : Nat) : Nat := (w.extractLsb' (64 * j) 64).toNat
/-- CTX. -/
def itemCtx (w : BitVec 512) : Nat := bitsOf (itemWord w 0) 53 48
/-- QUEUE. -/
def itemQueue (w : BitVec 512) : Nat := bitsOf (itemWord w 0) 47 38
/-- TEAM + 1. -/
def itemTasks (w : BitVec 512) : Nat := bitsOf (itemWord w 0) 37 30 + 1
/-- RES. -/
def itemRes (w : BitVec 512) : Nat := bitsOf (itemWord w 0) 29 22
/-- RESEN. -/
def itemResen (w : BitVec 512) : Bool := bitsOf (itemWord w 0) 21 21 == 1
/-- CARAVAN + 1. -/
def itemTeams (w : BitVec 512) : Nat := itemWord w 4 % 8 + 1
/-- The completion milestone, if enabled. -/
def itemCms (w : BitVec 512) : Option Nat := if bitsOf (itemWord w 0) 20 20 = 1 then some (itemWord w 0 % 2 ^ 20) else none
/-- DEADLINE has passed (R291). -/
def itemLate (s : State) (w : BitVec 512) : Bool := itemWord w 3 != 0 && decide (itemWord w 3 < s.ns)

/-! ### The queue table (Table 15.5) -/

/-- The key of word w of a queue table entry. -/
def queueKey (q w : Nat) : Nat := winKey (0x1E00_0000 + 32 * q + 8 * w)
/-- Word w of a queue table entry. -/
def queueWord (s : State) (q w : Nat) : Nat := rdN s.mem (queueKey q w) 8
/-- VALID. -/
def queueValid (s : State) (q : Nat) : Bool := bitsOf (queueWord s q 0) 63 63 == 1
/-- A VALID queue of a context. -/
def queueOf (s : State) (c q : Nat) : Bool := queueValid s q && queueCtx s q == c
/-- TICKETS. -/
def tickets (s : State) (q : Nat) : Nat := queueWord s q 0 % 2 ^ 16
/-- PASS. -/
def queuePass (s : State) (q : Nat) : Nat := queueWord s q 1

/-- A queue takes work items of a context (R281, R287). -/
def queueTakes (s : State) (c q : Nat) : Bool := queueOf s c q && tickets s q != 0 && bitsOf (queueWord s q 0) 61 60 != 3

/-- The work items of a queue, its head first. -/
def queueItems (s : State) (q : Nat) : List PoolItem := s.pool.filter fun i => itemQueue i.item == q

/-- DEPTH follows the pool. -/
def syncDepth (s : State) (q : Nat) : State :=
  s.put64 (queueKey q 2) (queueWord s q 2 / 2 ^ 32 * 2 ^ 32 + (queueItems s q).length % 2 ^ 32)

/-! ### The check of a work item (R281) -/

/-- A global address of a form that R78 accepts and of an alignment; 0 is always accepted. -/
def addrOk (ea al : Nat) : Bool := ea % al == 0 && !badForm ea

/-- The checks by word of a work item that a context submits. -/
def itemChecks (s : State) (c : Nat) (w : BitVec 512) : List Bool :=
  let v := itemWord w
  [ decide (v 0 < 2 ^ 54) && itemCtx w == c && queueTakes s c (itemQueue w) &&
      (match itemCms w with | some m => allotted s c .milestone m | none => true) &&
      (!itemResen w || decide (itemRes w + itemTasks w - 1 < (s.cx c).residents.length)),
    true, true, true,
    bitsOf (v 4) 31 10 == 0 && bitsOf (v 4) 7 3 == 0 && bitsOf (v 4) 9 8 != 3 && (!itemResen w || v 4 % 8 == 0),
    addrOk (v 5) 8, addrOk (v 6) 64, addrOk (v 7) 64 && (v 7 == 0 || v 4 % 8 != 0) ]

/-! ### Kernel descriptors (R284, R285) -/

/-- Word j of a kernel descriptor. -/
def kdWord (k : BitVec 1024) (j : Nat) : Nat := (k.extractLsb' (64 * j) 64).toNat
/-- The ring field of a queue: base and number of slots. -/
def kdRing (k : BitVec 1024) (q : Nat) : Nat × Nat :=
  let f := bitsOf (kdWord k 5) (20 * q + 19) (20 * q)
  (f / 16 * 64, if f % 16 = 0 then 0 else 2 ^ (f % 16))
/-- USE. -/
def kdUse (k : BitVec 1024) : Word := BitVec.ofNat 64 (kdWord k 2)

/-- A ring field obeys Table 15.4 and R285. -/
def kdRingOk (k : BitVec 1024) (q : Nat) : Bool :=
  let l := bitsOf (kdWord k 5) (20 * q + 3) (20 * q)
  let r := kdRing k q
  l == 0 || (decide (4 ≤ l) && decide (l ≤ 12) && decide (0x100 ≤ r.1) && decide (r.1 + 64 * r.2 ≤ 0x40_0000))

/-- A kernel descriptor passes its check. -/
def kdescOk (k : BitVec 1024) : Bool :=
  let w := kdWord k
  w 0 % 8 == 0 && decide (w 1 < 2 ^ 32) && w 1 % 8 == 0 && decide (w 2 < 2 ^ 48) && w 2 % 2 == 1 &&
  !hasBits (kdUse k) (~~~allClasses) && decide (w 4 < 2 ^ 22) && decide (0x100 + w 4 ≤ 0x40_0000) && decide (w 5 < 2 ^ 60) &&
  kdRingOk k 0 && kdRingOk k 1 && kdRingOk k 2 &&
  (kdescPairs k).all (fun p => decide (p.inp + 2 * p.n ≤ 0x40_0000) && decide (p.out + 2 * p.n ≤ 0x40_0000)) &&
  [10, 11, 12, 13, 14, 15].all (fun j => w j == 0)

/-- Every line of n bytes from an address on is mapped with RD in a context, fuel k. -/
def readable (s : State) (c : Nat) : Nat → Nat → Nat → Bool
  | 0, _, _ => true
  | k + 1, ea, n =>
    n == 0 ||
      (match resolve s 0xFFFF c ea 4 with
        | .ok _ => let m := min n (64 - ea % 64); readable s c k (ea + m) (n - m)
        | .error _ => false)

/-- What the dispatcher finds when a work item becomes the head of its queue (R285). -/
def headRead (s : State) (w : BitVec 512) : HeadRead × State :=
  let c := itemCtx w
  let ea := itemWord w 1
  if ea % 64 ≠ 0 then (⟨2, 0⟩, s)
  else
    match globalRead 0xFFFF c 4 ea 128 s with
    | .error _ => (⟨2, 0⟩, s)
    | .ok (v, bad, s) =>
      let k := BitVec.ofNat 1024 v
      if bad then (⟨2, 0⟩, s.memFault c (ea / 2 ^ 56) 0xFFF 0x22 1 (BitVec.ofNat 64 ea))
      else if !kdescOk k then (⟨2, 0⟩, s)
      else if readable s c (lineFuel 256) (itemWord w 2) 256 && readable s c (lineFuel (kdWord k 4)) (kdWord k 3) (kdWord k 4) then (⟨0, k⟩, s)
      else (⟨4, k⟩, s)

/-- Give every work item that has become the head of its queue what the dispatcher reads; seen are the queues met so far. -/
def readHeads : List PoolItem → List Nat → State → List PoolItem × State
  | [], _, s => ([], s)
  | i :: is, seen, s =>
    let q := itemQueue i.item
    if seen.contains q || i.head.isSome then
      let r := readHeads is (q :: seen) s
      (i :: r.1, r.2)
    else
      let h := headRead s i.item
      let r := readHeads is (q :: seen) h.2
      ({ i with head := some h.1 } :: r.1, r.2)

/-- The dispatcher's copies of the heads follow the pool. -/
def refreshHeads (s : State) : State :=
  let r := readHeads s.pool [] s
  { r.2 with pool := r.1 }

/-! ### The pool and the spill queues (R300, R301) -/

/-- Unreserved entries in use. -/
def unreserved (s : State) : Nat := (s.pool.filter fun i => !i.reserved).length
/-- Reserved entries in use. -/
def reservedUsed (s : State) : Nat := (s.pool.filter fun i => i.reserved).length

/-- A work item enters the pool and its queue. -/
def enterPool (s : State) (w : BitVec 512) (reserved : Bool) : State :=
  refreshHeads (syncDepth { s with pool := s.pool ++ [{ item := w, reserved := reserved, head := none }] } (itemQueue w))

/-- A new work item takes an unreserved entry: one is free and its context's spill queue is empty. -/
def poolRoom (s : State) (c : Nat) : Bool := decide (unreserved s < 64512) && !s.spills.contains c

/-- The key of word w of a spill queue block (Table 15.8). -/
def spillKey (c w : Nat) : Nat := winKey (0x1D00_0000 + 32 * c + 8 * w)
/-- Word w of a spill queue block. -/
def spillWord (s : State) (c w : Nat) : Nat := rdN s.mem (spillKey c w) 8
/-- The number of entries of a spill queue. -/
def spillSize (s : State) (c : Nat) : Nat :=
  let l := spillWord s c 1 % 32
  if 10 ≤ l ∧ l ≤ 20 then 2 ^ l else 0
/-- Work items in a spill queue. -/
def spillDepth (s : State) (c : Nat) : Nat := (spillWord s c 3 + 2 ^ 32 - spillWord s c 2) % 2 ^ 32
/-- The address of the entry of a counter. -/
def spillAt (s : State) (c n : Nat) : Nat := (spillWord s c 0 + 64 * (n % spillSize s c)) % 2 ^ 64

/-- A SPAWN appends its work item to the context's spill queue: the status, 1 or 2. -/
def spill (s : State) (c : Nat) (w : BitVec 512) : Nat × State :=
  if spillSize s c = 0 ∨ spillSize s c ≤ spillDepth s c then (2, s)
  else
    let ea := spillAt s c (spillWord s c 3)
    match globalWrite 0xFFFF c 2 ea 64 w.toNat s with
    | .error e => (2, e.st.memFault c (e.addr / 2 ^ 56) 0xFFF e.cause e.detail (BitVec.ofNat 64 e.addr))
    | .ok s => (1, { s.put64 (spillKey c 3) ((spillWord s c 3 + 1) % 2 ^ 32) with spills := s.spills ++ [c] })

/-- The first occurrence of a context leaves the order of spilling. -/
def dropFirst (c : Nat) : List Nat → List Nat
  | [] => []
  | x :: xs => if x = c then xs else x :: dropFirst c xs

/-- The oldest context's head returns to the pool, into an unreserved entry where one is free, else into a reserved one (R301). -/
def refillOne (s : State) : Option State :=
  match s.spills with
  | [] => none
  | c :: _ =>
    let res := !decide (unreserved s < 64512)
    if res && !decide (reservedUsed s < 1024) then none
    else
      let ea := spillAt s c (spillWord s c 2)
      let s' := { s.put64 (spillKey c 2) ((spillWord s c 2 + 1) % 2 ^ 32) with spills := dropFirst c s.spills }
      match globalRead 0xFFFF c 2 ea 64 s' with
      | .error e => some (s'.memFault c (e.2 / 2 ^ 56) 0xFFF e.1 0 (BitVec.ofNat 64 e.2))
      | .ok (v, bad, s') =>
        if bad then some (s'.memFault c (ea / 2 ^ 56) 0xFFF 0x22 1 (BitVec.ofNat 64 ea)) else some (enterPool s' (BitVec.ofNat 512 v) res)

/-- Refill while entries are free, fuel k. -/
def refill : Nat → State → State
  | 0, s => s
  | k + 1, s => match refillOne s with | none => s | some s => refill k s

/-- Spilled work items return to the pool. -/
def refillAll (s : State) : State := refill s.spills.length s

/-! ### SPAWN -/

/-- SPAWN once its descriptor is read (R281, R299, R300). -/
def spawnBody (d : BitVec 6) (ea : Word) (s : State) : State :=
  withDesc ea s fun v s =>
    let w : BitVec 512 := (List.range 8).foldl (fun a j => a ||| (BitVec.ofNat 512 (v j) <<< (64 * j))) 0
    let c := (s.sc s.cur).ctx.toNat
    match firstBad (itemChecks s c w) with
    | some k => s.trap 14 k ea
    | none =>
      whenDrained s fun s =>
        if poolRoom s c then (enterPool s w false).result d 0
        else
          let r := spill s c w
          r.2.result d (BitVec.ofNat 64 r.1)

/-- SPAWN (R103, R104, R299). -/
def execSpawn (g : Guard) (d : BitVec 6) (a : Src) (off : BitVec 22) (s : State) : Out :=
  issue 6 g [a] (some d) s fun s => spawnBody d (ea22 (s.rd a) off) s

end Sys2Proof.Machine
end

