-- ==== Sys2Proof/Machine/Milestone.lean ====
section
/-! DEFINITION. Milestones and the operations that their firing starts, and the drain requests of match entries (R235 to R238, R269 to R276,
R338, R389). -/
namespace Sys2Proof.Machine

/-! ### Operation lists -/

/-- OP of an operation word. -/
def opCode (w : Word) : Nat := w.toNat / 2 ^ 60
/-- ARG of an operation word. -/
def opArg (w : Word) : Nat := w.toNat % 2 ^ 60

/-- The operations of a list up to the first with OP 0. -/
def opList (line : Nat) : List Word := ((List.range 8).map fun j => BitVec.ofNat 64 (line / 2 ^ (64 * j))).takeWhile fun w => opCode w != 0

/-- Reserved operations at the front of a list are skipped with reason 2 (R235, Table 14.5), fuel k. -/
def skipReserved (s : State) (f : Fired) : Nat → State × Fired
  | 0 => (s, f)
  | k + 1 =>
    match f.ops with
    | w :: ws => if 7 ≤ opCode w then skipReserved (tsSkip s f.ctx f.ms f.idx 2) { f with idx := f.idx + 1, ops := ws } k else (s, f)
    | [] => (s, f)

/-- Put a fired list's remainder at its place n in the list of fired lists. -/
def putFired (s : State) (n : Nat) (f : Fired) : State :=
  let r := skipReserved s f 8
  if r.2.ops = [] then { r.1 with fired := r.1.fired.eraseIdx n } else { r.1 with fired := r.1.fired.set n r.2 }

/-- A milestone fires (R272, R389): its list starts where the context is LIVE; a collective that it completes ends (R338). -/
def fire (s : State) (c m : Nat) : State :=
  let ops := opList (rdN s.mem (winKey (64 * m)) 64)
  let f : Fired := { ctx := c, ms := m, idx := 0, ops := ops }
  let s := if ctxLive s c then putFired { s with fired := s.fired ++ [f] } s.fired.length f else s
  let es := (collIn s c 1).filter fun i => collWord s c i 2 % 2 ^ 20 == m
  let s := es.foldl (fun s i =>
    let w := collWord s c i 0
    queueFlag (s.put64 (cwinKey c (0x1B30_0000 + 64 * i)) (takeBits w (2 * 2 ^ 61) 62 61)) c i 1) s
  if es = [] then s else settleFlags s

/-- The key of a milestone's COUNT. -/
def msKey (m : Nat) : Nat := winKey (0x1000_0000 + 16 * m)

/-- An increment of v is applied to a milestone of a context (R270); one that is not allotted to it takes none (log entry 33). -/
def increment (s : State) (c m v : Nat) : State :=
  if !allotted s c .milestone m then s
  else
    let old := rdN s.mem (msKey m) 8
    let new := (old + v) % 2 ^ 64
    let thresh := rdN s.mem (msKey m + 8) 8
    let s := (noteWrite s (msKey m)).put64 (msKey m) new
    if old < thresh ∧ thresh ≤ new then fire s c m else s

/-- MILESTONE_INCREMENT: the k-th increment on its way is applied (R270), unless an earlier one of its lane is still on its way (R251). -/
def execMilestoneIncrement (k : Nat) (s : State) : Out :=
  .next <|
    match s.incs[k]? with
    | none => s
    | some i =>
      if i.lane.isSome && (s.incs.take k).any fun j => j.lane == i.lane then s
      else increment { s with incs := s.incs.eraseIdx k } i.ctx i.ms i.amt.toNat

/-! ### Starting operations (Table 14.5) -/

/-- The fired lists of a milestone whose next operation has a code, each with its place, in the order of their firing. -/
def findFired (m op : Nat) : Nat → List Fired → List (Nat × Fired)
  | _, [] => []
  | n, f :: fs => if f.ms = m ∧ (f.ops.head?.map opCode) = some op then (n, f) :: findFired m op (n + 1) fs else findFired m op (n + 1) fs

/-- What an operation that starts comes to. -/
inductive OpEnd where
  /-- It has taken effect. -/
  | started (s : State)
  /-- It waits. -/
  | waits
  /-- It is skipped with a reason. -/
  | skipped (s : State) (why : Nat)

/-- The first of some fired lists whose head operation need not wait runs it, and goes on; one that waits holds back no other list (R272). -/
def runFirst (s : State) (body : Fired → Nat → State → OpEnd) : List (Nat × Fired) → State
  | [] => s
  | (n, f) :: fs =>
    let rest : Fired := { f with idx := f.idx + 1, ops := f.ops.tail }
    match body f (opArg (f.ops.headD 0)) s with
    | .started s => putFired s n rest
    | .waits => runFirst s body fs
    | .skipped s why => putFired (tsSkip s f.ctx f.ms f.idx why) n rest

/-- The operation of a code at the head of a fired list of the subject milestone runs. -/
def runOp (op : Nat) (s : State) (body : Fired → Nat → State → OpEnd) : Out := .next (runFirst s body (findFired s.cur op 0 s.fired))

/-- An operation reads its block of n bytes: reason 1 for an argument that is misaligned, unmapped or not readable in the milestone's
context (R272); a poisoned block is consumed by the die (R414) and has no effect. -/
def withBlock (f : Fired) (arg n al : Nat) (s : State) (body : Nat → State → OpEnd) : OpEnd :=
  if arg % al ≠ 0 then .skipped s 1
  else
    match globalRead 0xFFFF f.ctx (lineFuel n) arg n s with
    | .error _ => .skipped s 1
    | .ok (v, bad, s) => if bad then .started (s.memFault f.ctx (arg / 2 ^ 56) 0xFFF 0x22 1 (BitVec.ofNat 64 arg)) else body v s

/-- Word j of a block. -/
def blockWord (v j : Nat) : Nat := (v / 2 ^ (64 * j)) % 2 ^ 64

/-- LAUNCH (R236, R281, R300, R420). -/
def launchOp (f : Fired) (arg : Nat) (s : State) : OpEnd :=
  withBlock f arg 64 64 s fun v s =>
    let w := BitVec.ofNat 512 v
    if itemCtx w ≠ f.ctx then .skipped s 3
    else if (firstBad (itemChecks s f.ctx w)).isSome then .skipped s 5
    else if !taking s ∨ !poolRoom s f.ctx then .waits
    else .started (enterPool s w false)

/-- LAUNCH of the subject milestone (R281). -/
def execLaunch (s : State) : Out := runOp 1 s launchOp

/-- The core of a resident core number on which a task of the context runs. -/
def residentTask (s : State) (c r : Nat) : Option Nat :=
  match (s.cx c).residents[r]? with
  | none => none
  | some p =>
    match s.teamOf p, (s.sc p).run with
    | some _, .done => none
    | some t, _ => if t.ctx.toNat = c then some p else none
    | none, _ => none

/-- COPY (R272, R273). -/
def copyOp (f : Fired) (arg : Nat) (s : State) : OpEnd :=
  withBlock f arg 128 64 s fun v s =>
    let w := BitVec.ofNat 512 v
    match residentTask s f.ctx (blockWord v 8 % 256) with
    | none => .skipped s 4
    | some p =>
      let x := s.co p
      if x.cq.count = 0 then .skipped s 4
      else if v / 2 ^ 520 ≠ 0 ∨ w.extractLsb' 60 4 ≠ 2#4 ∨ wordsBroken (judgeOf s p 2 false) w ≠ 0 then .skipped s 5
      else if x.cq.full ∨ x.rolling then .waits
      else
        let s := acceptRecord s p 2 w false
        .started (if x.ckpt.isSome then s.upCo p fun y => { y with trigs := y.trigs ++ [w] } else s)

/-- TRIGGERED_COPY of the subject milestone (R272). -/
def execTriggeredCopy (s : State) : Out := runOp 2 s copyOp

/-- A send block obeys R237 and Table 11.10. -/
def sendBlockOk (w : Nat → Nat) : Bool :=
  headOk w && kindOk 0x20 (w 0 % 256) && bitsOf (w 0) 63 44 != 0xF_FFFF && decide (w 5 ≤ 4096) && w 6 == 0 && w 7 == 0

/-- The window of a connection lets the first packet of a message of n bytes leave now. -/
def windowOpen (s : State) (c n len : Nat) : Bool :=
  let x := connRun s c n
  !(s.tx.any fun t => t.ctx == c && t.conn == n && !t.sent) &&
  (x.inflight == 0 || decide (x.inflight + min len (connMtu s c n) ≤ connWord s c n 4))

/-- SEND (R237, R273). -/
def sendOp (f : Fired) (arg : Nat) (s : State) : OpEnd :=
  withBlock f arg 64 64 s fun v s =>
    let w := blockWord v
    let conn := bitsOf (w 0) 63 44
    let mode := bitsOf (w 0) 15 8
    if !sendBlockOk w then .skipped s 5
    else
      let st := connStatus s f.ctx conn mode
      if st = 3 then .skipped s 6
      else if st ≠ 0 then .skipped s 8
      else if !windowOpen s f.ctx conn (w 5) ∨ !bufferRoom s (w 5) then .waits
      else
        match globalRead 0xFFFF f.ctx (lineFuel (w 5)) (w 4) (w 5) s with
        | .error _ => .skipped s 7
        | .ok (data, bad, s) =>
          if bad then .skipped s 7
          else
            let m : OutMsg :=
              { ctx := f.ctx, conn := conn, mode := mode, op := w 0 % 256, tag := if w 0 % 256 = 2 then BitVec.ofNat 64 (w 1) else 0, key := 0,
                roff := 0, len := w 5, data := data, carry := w 5, origin := .trigger f.ms f.idx,
                ms := if bitsOf (w 3) 20 20 = 1 then some (w 3 % 2 ^ 20) else none }
            .started (sendMessage s m).2

/-- SEND of the subject milestone (R237). -/
def execSend (s : State) : Out := runOp 3 s sendOp

/-- RAISE (R272, R273). -/
def raiseOp (f : Fired) (arg : Nat) (s : State) : OpEnd :=
  withBlock f arg 16 16 s fun v s =>
    let w := blockWord v
    match residentTask s f.ctx (w 0 % 256) with
    | none => .skipped s 4
    | some p =>
      if w 0 / 2 ^ 17 ≠ 0 ∨ bitsOf (w 0) 15 13 ≠ 0 ∨ w 1 ≠ 0 then .skipped s 5
      else .started (s.upCo p fun x => x.raise (bitsOf (w 0) 12 8) (bitsOf (w 0) 16 16 == 1))

/-- RAISE of the subject milestone (R272). -/
def execRaise (s : State) : Out := runOp 4 s raiseOp

/-- MSADD (R270, R272). -/
def msaddOp (f : Fired) (arg : Nat) (s : State) : OpEnd :=
  withBlock f arg 16 16 s fun v s =>
    let m := blockWord v 0
    if 2 ^ 20 ≤ m ∨ !allotted s f.ctx .milestone m then .skipped s 5
    else if blockWord v 1 = 0 then .started s
    else .started { s with incs := s.incs ++ [⟨f.ctx, m, BitVec.ofNat 64 (blockWord v 1), none, none⟩] }

/-- MSADD of the subject milestone (R272). -/
def execMsadd (s : State) : Out := runOp 5 s msaddOp

/-- An event of KIND 2 or 3 is queued, or counted where the context has no handler for it; none where it must wait (R242, R243). -/
def raiseEvent (s : State) (c kind : Nat) (arg : Word) : Option State :=
  if handlerEntry s c kind = 0#64 then some (tsEvSkip s c)
  else if !eventRoom s c kind then none
  else some (pushEvent s c { kind := kind, arg := arg, tag := 0, len := 0, ptime := 0, fctx := 0, data := 0, asker := none })

/-- HANDLER (R242, R243, R272). -/
def handlerOp (f : Fired) (arg : Nat) (s : State) : OpEnd :=
  withBlock f arg 16 16 s fun v s =>
    if blockWord v 1 ≠ 0 then .skipped s 5
    else match raiseEvent s f.ctx 2 (BitVec.ofNat 64 (blockWord v 0)) with | some s => .started s | none => .waits

/-- HANDLER of the subject milestone (R272). -/
def execHandler (s : State) : Out := runOp 6 s handlerOp

/-! ### Drain requests (R276) -/

/-- DRAINREQ_WRITE: a performed store to DRAINREQ of the subject context starts a drain request. -/
def execDrainreqWrite (s : State) : Out :=
  .next <|
    match takeAct (fun a => match a with | .drainreq c v => if c = s.cur then some v else none | _ => none) s with
    | some (v, s) => s.putCx s.cur { s.cx s.cur with drains := (s.cx s.cur).drains ++ [(v.toNat, s.rxId)] }
    | none => s

/-- Every message of a context that was matched before a number has been placed and counted, or has failed. -/
def drainedBefore (s : State) (c n : Nat) : Bool :=
  !(s.rx.any fun m => m.ctx == c && m.ent != 2 ^ 20 && !m.failed && decide (m.id < n)) && !(s.incs.any fun i => i.ctx == c)

/-- DRAIN_REQUEST_DONE: the oldest drain request of the subject context completes. -/
def execDrainRequestDone (s : State) : Out :=
  .next <|
    match (s.cx s.cur).drains with
    | [] => s
    | (v, n) :: ds =>
      if drainedBefore s s.cur n then
        let s := s.putCx s.cur { s.cx s.cur with drains := ds }
        (noteWrite s (tsKey s.cur 6)).put64 (tsKey s.cur 6) v
      else s

end Sys2Proof.Machine
end

