-- ==== Sys2Proof/Machine/Handler.lean ====
section
/-! DEFINITION. Wayside handlers: how a free thread takes an event, in what state the handler starts, and its watchdog (R240 to R246, R402,
R403). -/
namespace Sys2Proof.Machine

/-- Write n bytes at a key of a scratchpad or a local store: storage errors in their words end. -/
def State.putStore (s : State) (key n v : Nat) : State :=
  { s with mem := wrN s.mem key n v, ecc := s.ecc.filter fun e => !(decide (key ≤ e.1 + 7) && decide (e.1 < key + n)) }

/-- Zero the bytes from lo up to hi of a scratchpad or a local store. -/
def State.zeroStore (s : State) (lo hi : Nat) : State :=
  { s with mem := zeroRange s.mem lo hi, ecc := s.ecc.filter fun e => !(decide (lo ≤ e.1) && decide (e.1 < hi)) }

/-- Handlers of a context that run: its threads that are not free. -/
def handlersOf (s : State) (c : Nat) : Nat :=
  (s.scal.filter fun e => isThread e.1 && e.2.run != .idle && e.2.ctx.toNat == c).length

/-- HMIN. -/
def hmin (s : State) (c : Nat) : Nat := bitsOf (ctxWord s c 6) 63 53
/-- HMAX. -/
def hmax (s : State) (c : Nat) : Nat := bitsOf (ctxWord s c 6) 52 42

/-- A handler of a context has not begun its first instruction: those after it start once it has (R243, R245). -/
def handlerFresh (s : State) (c : Nat) : Bool := s.scal.any fun e => isThread e.1 && e.2.fresh && e.2.run != .idle && e.2.ctx.toNat == c

/-- A context has queued events, is LIVE (R389), and runs fewer than a number of handlers, each of which has begun. -/
def wantsThread (s : State) (c limit : Nat) : Bool :=
  !(s.cx c).events.isEmpty && ctxLive s c && decide (handlersOf s c < limit) && !handlerFresh s c

/-- The context whose next event a free thread takes, and the next place in the round-robin (R240). -/
def pickContext (s : State) : Option (Nat × Nat) :=
  match (List.range 64).find? fun c => wantsThread s c (hmin s c) with
  | some c => some (c, s.turnCtx)
  | none =>
    (((List.range 64).map fun i => (s.turnCtx + i) % 64).find? fun c => wantsThread s c (hmax s c)).map fun c => (c, (c + 1) % 64)

/-- The words of the event block of an event of a context (Table 13.2). -/
def eventWords (c : Nat) (e : Ev) : List Word :=
  [ BitVec.ofNat 64 (c * 256 + e.kind), e.arg, e.tag, BitVec.ofNat 64 ((if 4096 < e.len then 2 ^ 63 else 0) + e.len % 2 ^ 32),
    BitVec.ofNat 64 e.ptime, BitVec.ofNat 64 e.fctx, 0, 0 ]

/-- Words as one number, the first in the low bits. -/
def wordsNat : List Word → Nat
  | [] => 0
  | w :: ws => w.toNat + 2 ^ 64 * wordsNat ws

/-- The scalar stream of a thread at the first instruction of a handler (R244); its cache keeps its lines (R310). -/
def handlerScalar (s : State) (x : Scalar) (c : Nat) (e : Ev) : Scalar :=
  { Scalar.reset with
    run := .running, ctx := BitVec.ofNat 6 c, pc := align8 (handlerEntry s c e.kind), tvec := align8 (handlerEntry s c 0),
    regs := tput (tput [(62, 0x4000#64)] 4 (BitVec.ofNat 64 e.kind) 0) 5 e.arg 0, dc := x.dc, fresh := true,
    event := eventWords c e ++ (match e.asker with | some a => [BitVec.ofNat 64 a] | none => []) }

/-- A thread takes an event: its local store holds the event block and, for KIND 1, the payload; the rest is zeroed unless its previous
handler was of the same context (R244). -/
def startHandler (s : State) (t c : Nat) (e : Ev) : State :=
  let x := s.sc (4096 + t)
  let s := if x.ctx.toNat = c then s else s.zeroStore (tlsKey t 0) (tlsKey t 0x4000)
  let s := s.putStore (tlsKey t 0) 256 (wordsNat (eventWords c e))
  let s := if e.kind = 1 then s.putStore (tlsKey t 0x1000) (min e.len 4096) e.data else s
  s.putSc (4096 + t) (handlerScalar s x c e)

/-- HANDLER_START: the subject thread, if it is free, takes the next event (R240, R241). -/
def execHandlerStart (s : State) : Out :=
  .next <|
    if (s.sc s.cur).run ≠ .idle ∨ !isThread s.cur then s
    else
      match pickContext s with
      | none => s
      | some (c, turn) =>
        match (s.cx c).events with
        | [] => s
        | e :: es =>
          let s := s.putCx c { s.cx c with events := es }
          startHandler { s with turnCtx := turn } (s.cur - 4096) c e

/-- The handler watchdog of a context in ns (R246, Table 23.1). -/
def hwdNs (s : State) (c : Nat) : Nat :=
  let v := bitsOf (ctxWord s c 5) 31 0
  (if v = 0 then 100 else v) * 1000

/-- The stream runs or waits, and does not stand still for a save. -/
def Run.isLive (r : Run) : Bool := match r with | .running => true | .waiting (.yield _) => false | .waiting _ => true | _ => false

/-- A save of a context is under way: from a yield request or the start of a migration until the last image is VALID (R403). -/
def savingCtx (s : State) (c : Nat) : Bool := s.team.any fun e => e.2.ctx.toNat == c && (e.2.yield.isSome || e.2.saving.isSome)

/-- A watchdog of the current agent's context expires with a DETAIL: WATCHDOG, or WATCHDOG_IN_SAVE while a save is under way (R403). -/
def watchdogFault (s : State) (detail : Nat) (val : Word) : State :=
  if savingCtx s (s.sc s.cur).ctx.toNat then s.scalarFault 0x2D 0 val else s.scalarFault 0x2C detail val

/-- HANDLER_WATCHDOG: the subject thread's handler has run past its limit and is stopped (R246). -/
def execHandlerWatchdog (s : State) : Out :=
  .next <|
    let x := s.sc s.cur
    if isThread s.cur ∧ x.run.isLive ∧ !x.fresh ∧ hwdNs s x.ctx.toNat < s.ns - x.wd / 21 then
      watchdogFault ((withdraw s s.cur).upSc fun x => x.stop .halted) 1 (x.event.headD 0)
    else s

end Sys2Proof.Machine
end

