-- ==== Sys2Proof/Machine/HostPort.lean ====
section
/-! DEFINITION. The host port: BAR0's registers, the host rings and their fetcher, the address translation cache and PASID teardown (R257 to
R261, R421, R423, R425). -/
namespace Sys2Proof.Machine

/-! ### Registers (Table 13.5) -/

/-- A byte of BAR0. -/
def hostKey (off : Nat) : Nat := 2 ^ 46 + off

/-- Register w of ring r: 0 RBASE, 1 RSIZE, 2 RTAIL, 3 RHEAD, 4 RCFG. -/
def ringKey (r w : Nat) : Nat := hostKey (0x1_0000 + 64 * r + 8 * w)
/-- A ring register's value. -/
def ringReg (s : State) (r w : Nat) : Nat := rdN s.mem (ringKey r w) 8
/-- EN. -/
def ringEn (s : State) (r : Nat) : Bool := bitsOf (ringReg s r 4) 63 63 == 1
/-- STATE. -/
def ringState (s : State) (r : Nat) : Nat := bitsOf (ringReg s r 4) 62 61
/-- PASID. -/
def ringPasid (s : State) (r : Nat) : Nat := bitsOf (ringReg s r 4) 51 32
/-- CONN. -/
def ringConn (s : State) (r : Nat) : Nat := bitsOf (ringReg s r 4) 31 20
/-- CTX. -/
def ringCtx (s : State) (r : Nat) : Nat := bitsOf (ringReg s r 4) 19 14

/-- The fields of RCFG that a write gives. -/
def rcfgFields (v : Nat) : Nat := bitsOf v 51 14 * 2 ^ 14

/-- Give RCFG: EN, STATE and its other fields. -/
def putRcfg (s : State) (r en st v : Nat) : State := s.put64 (ringKey r 4) (en * 2 ^ 63 + st * 2 ^ 61 + rcfgFields v)

/-- The ring takes a STATE. -/
def ringGoes (s : State) (r st : Nat) : State := putRcfg s r (bitsOf (ringReg s r 4) 63 63) st (ringReg s r 4)

/-- TAIL is within 2^LOG entries of HEAD. -/
def tailOk (s : State) (r tail : Nat) : Bool :=
  decide ((tail + 2 ^ 32 - ringReg s r 3) % 2 ^ 32 ≤ 2 ^ (ringReg s r 1 % 32))

/-- HOST_RING_DOORBELL: RTAIL of the subject ring (R258). -/
def execHostRingDoorbell (v : Word) (s : State) : Out :=
  .next <|
    let r := s.cur
    let t := v.toNat % 2 ^ 32
    let s := s.put64 (ringKey r 2) t
    if ringEn s r ∧ !tailOk s r t then ringGoes s r 3 else s

/-- The connection entry of a ring has HOST = 1 and RING = r (Table 13.4). -/
def hostConnOk (s : State) (c n r : Nat) : Bool :=
  let w0 := connWord s c n 0
  bitsOf w0 63 63 == 1 && bitsOf w0 60 60 == 1 && bitsOf w0 7 0 == r

/-- Setting EN of ring r with RCFG v is allowed (R258). -/
def enableOk (s : State) (r v : Nat) : Bool :=
  let l := ringReg s r 1 % 32
  ctxLive s (bitsOf v 19 14) && decide (4 ≤ l) && decide (l ≤ 16) && hostConnOk s (bitsOf v 19 14) (bitsOf v 31 20) r

/-- What a ring that stops has outstanding is to be discarded when it arrives (R261). -/
def forgetReads (s : State) (r : Nat) : State := { s with hostReads := s.hostReads.map fun q => if q.ring = r then { q with live := false } else q }

/-- HOST_RING_ENABLE: RCFG of the subject ring (R258): while EN is 1 only a write that clears it acts; a TAIL that stands more than 2^LOG entries
beyond the new HEAD sets STATE 3. -/
def execHostRingEnable (v : Word) (s : State) : Out :=
  .next <|
    let r := s.cur
    let n := v.toNat
    if ringEn s r then (if v.getLsbD 63 then s else forgetReads (putRcfg s r 0 0 n) r)
    else if !v.getLsbD 63 then putRcfg s r 0 (ringState s r) n
    else if enableOk s r n then
      let s := (putRcfg s r 1 1 n).put64 (ringKey r 3) 0
      if tailOk s r (ringReg s r 2) then s else ringGoes s r 3
    else putRcfg s r 0 3 n

/-! ### The fetcher (R259, R260) -/

/-- Word j of a ring entry. -/
def entryWord (e : RingEntry) (j : Nat) : Nat := (e.extractLsb' (64 * j) 64).toNat
/-- INL. -/
def entryInl (e : RingEntry) : Bool := bitsOf (entryWord e 3) 63 63 == 1
/-- LEN. -/
def entryLen (e : RingEntry) : Nat := entryWord e 3 % 2 ^ 13

/-- An entry obeys R259. -/
def ringEntryOk (e : RingEntry) : Bool :=
  (entryWord e 0 == 1 || entryWord e 0 == 2) && bitsOf (entryWord e 3) 62 13 == 0 && decide (entryLen e ≤ 4096) &&
  (!entryInl e || (decide (entryLen e ≤ 32) && entryWord e 2 == 0))

/-- A translation enters the address translation cache, which holds 4,096. -/
def atcAdd (t : Nat × Nat) (l : List (Nat × Nat)) : List (Nat × Nat) := (t :: l.filter fun x => x != t).take 4096

/-- A ring stops in error, and the host is interrupted (R259). -/
def ringError (s : State) (r : Nat) : State := { forgetReads (ringGoes s r 3) r with msix := s.msix ++ [r] }

/-- The payload of an entry: its own words, or what was read for it. -/
def entryData (e : RingEntry) (data : Nat) : Nat := if entryInl e then (e.extractLsb' 256 256).toNat % 2 ^ (8 * entryLen e) else data % 2 ^ (8 * entryLen e)

/-- The I/O virtual address of a ring's entry at HEAD. -/
def entryAt (s : State) (r : Nat) : Nat := (ringReg s r 0 + 64 * (ringReg s r 3 % 2 ^ (ringReg s r 1 % 32))) % 2 ^ 64

/-- The pages that the fetcher reads for a ring: of its entry at HEAD, or of an entry's payload. -/
def hostPages (s : State) (r : Nat) (e : Option RingEntry) : List Nat :=
  match e with
  | none => [entryAt s r / 4096]
  | some e =>
    let a := entryWord e 2
    let z := (a + entryLen e - 1) % 2 ^ 64
    if z / 4096 = a / 4096 then [a / 4096] else [a / 4096, z / 4096]

/-- The fetcher of a ring asks for the translations that its cache does not hold, or, holding them all, reads (R260). -/
def askHost (s : State) (r : Nat) (e : Option RingEntry) : State :=
  let pages := hostPages s r e
  let miss := pages.filter fun p => !s.atc.contains (ringPasid s r, p)
  let q : HostRead :=
    { ring := r, pasid := ringPasid s r, pages := if miss = [] then pages else miss, since := s.ns, trans := miss != [], entry := e, live := true }
  { s with hostReads := s.hostReads ++ [q] }

/-- The key of PASIDSTAT. -/
def pasidStat : Nat := hostKey 0x1008

/-- A teardown of a PASID is under way (R261). -/
def pasidBusy (s : State) (pasid : Nat) : Bool := bitsOf (rdN s.mem pasidStat 8) 63 63 == 1 && rdN s.mem pasidStat 8 % 2 ^ 20 == pasid

/-- The fetcher of a ring goes for its entry at HEAD, if it has nothing outstanding. -/
def hostReadTurn (r : Nat) (s : State) : State :=
  if 256 ≤ r ∨ !ringEn s r ∨ ringState s r ≠ 1 ∨ ringReg s r 3 = ringReg s r 2 ∨ pasidBusy s (ringPasid s r) ∨ (s.hostReads.any fun q => q.ring == r) then s
  else askHost s r none

/-- A read was issued with a translation that an invalidation names. -/
def readUses (q : HostRead) (i : Nat × Nat × Nat) : Bool :=
  !q.trans && q.pasid == i.1 && q.pages.any fun p => decide (i.2.1 ≤ p) && decide (p ≤ i.2.2)

/-- Invalidations complete once no read issued with their translations is outstanding (R260). -/
def settleInval (s : State) : State :=
  let busy (i : Nat × Nat × Nat) : Bool := s.hostReads.any fun q => readUses q i
  { s with inval := s.inval.filter busy, invalDone := s.invalDone ++ s.inval.filter fun i => !busy i }

/-- The outstanding request of a ring has completed. -/
def readDone (s : State) (r : Nat) : State := settleInval { s with hostReads := s.hostReads.filter fun q => q.ring != r }

/-- An entry of a ring is handed to matching with what was read for it, as one message; one that may not enter yet is fetched again. -/
def handOn (s : State) (r : Nat) (e : RingEntry) (v : Nat) : State :=
  let next := (ringReg s r 3 + 1) % 2 ^ 32
  let c := ringCtx s r
  let tag : Word := if entryWord e 0 = 2 then BitVec.ofNat 64 (entryWord e 1) else 0
  if !admits s c || connAborted s c (ringConn s r) then s.put64 (ringKey r 3) next
  else if laneBusy s (c * 2 ^ 20 + ringConn s r) then s
  else
    let f := arriveWhole s c (ringConn s r) 1 (connLane c (ringConn s r) 1) (entryWord e 0) (entryLen e) (entryData e v) tag
    match f.1 with
    | .dropped => f.2
    | _ => f.2.put64 (ringKey r 3) next

/-- The subject ring's entry has been read: it is handed on, or its payload is to be read. -/
def takeEntryRead (s : State) (r : Nat) (entry : Option RingEntry) : State :=
  match entry with
  | none => ringError s r
  | some e =>
    if !ringEntryOk e then ringError s r
    else if entryInl e || entryLen e == 0 then handOn s r e 0
    else askHost s r (some e)

/-- HOST_RING_FETCH: the outstanding request of the subject ring's fetcher completes (R259 to R261): with translations, unless there is no entry; with
the entry at HEAD; or with the payload of its entry. None: it has failed. What arrives for a ring that has stopped is discarded. -/
def execHostRingFetch (entry : Option RingEntry) (data : Option Nat) (s : State) : Out :=
  .next <|
    let r := s.cur
    match s.hostReads.find? fun q => q.ring == r with
    | none => s
    | some q =>
      let s := readDone s r
      if !q.live ∨ !ringEn s r ∨ ringState s r ≠ 1 ∨ ringReg s r 3 = ringReg s r 2 then s
      else if q.trans then
        (if entry.isNone then ringError s r
         else askHost { s with atc := q.pages.foldl (fun l p => atcAdd (q.pasid, p) l) s.atc } r q.entry)
      else
        match q.entry, data with
        | none, _ => takeEntryRead s r entry
        | some _, none => ringError s r
        | some e, some v => handOn s r e v

/-- ATS_INVALIDATION: the cache drops every translation of a PASID for pages lo to hi; the completion follows once every read issued with them
has completed (R260). -/
def execAtsInvalidation (pasid lo hi : Nat) (s : State) : Out :=
  .next <|
    let s := { s with atc := s.atc.filter fun e => !(e.1 == pasid && decide (lo ≤ e.2) && decide (e.2 ≤ hi)) }
    settleInval { s with inval := s.inval ++ [(pasid, lo, hi)] }

/-! ### PASID teardown (R261) -/

/-- A fault that no unit raises, of a context: KILLED or PASID_TEARDOWN (R390). -/
def ctxCause (s : State) (c cause : Nat) : State :=
  { s with faults := s.faults ++ [{ ctx := BitVec.ofNat 6 c, typ := 6, phys := 0, lcore := 0, cause := cause, detail := 0, pos := 0, stat := 0,
                                    val := 0, aux := 0, idx := 0, tstop := s.ns, out := 0 }] }

/-- The rings of a PASID. -/
def ringsOf (s : State) (pasid : Nat) : List Nat := (List.range 256).filter fun r => ringPasid s r == pasid && ringReg s r 4 != 0

/-- PASID_TEARDOWN: PASIDCTL is written: the PASID's rings stop, and their contexts are to be killed. -/
def execPasidTeardown (v : Word) (s : State) : Out :=
  .next <|
    if !v.getLsbD 63 ∨ bitsOf (rdN s.mem pasidStat 8) 63 63 = 1 then s
    else
      let p := v.toNat % 2 ^ 20
      let rs := ringsOf s p
      let cs := ((rs.map (ringCtx s)).eraseDups).filter fun c => ctxState s c == 1 || ctxState s c == 2 || ctxState s c == 3
      let s := rs.foldl (fun s r => forgetReads (putRcfg s r 0 2 (ringReg s r 4)) r) s
      let s := (cs.filter fun c => ctxState s c != 3).foldl (fun s c => ctxCause s c 0x30) s
      { s.put64 pasidStat (2 ^ 63 + p) with pasidCtx := cs, atc := s.atc.filter fun e => e.1 != p }

/-- PASID_TEARDOWN_DONE: once every request for the PASID has completed or is older than the port's 10 ms, and the kills have confirmed their drain:
FREE 1, BUSY 0. -/
def execPasidTeardownDone (s : State) : Out :=
  .next <|
    let w := rdN s.mem pasidStat 8
    let late (q : HostRead) : Bool := q.pasid == w % 2 ^ 20 && decide (q.since + 10_000_000 ≤ s.ns)
    if bitsOf w 63 63 = 1 ∧ s.pasidCtx.all (fun c => ctxState s c == 0 || ctxState s c == 4) ∧
        s.hostReads.all (fun q => q.pasid != w % 2 ^ 20 || late q) then
      settleInval { s.put64 pasidStat (2 ^ 62 + w % 2 ^ 20) with pasidCtx := [], hostReads := s.hostReads.filter fun q => !late q }
    else s

/-! ### BAR0 -/

/-- BAR0_REGISTER_WRITE: a host write to a register of BAR0 without a row of its own: RBASE and RSIZE (ignored while EN is 1), the
attestation nonce, and the dies' routine request blocks (R258, R423, R425). -/
def execBar0RegisterWrite (off : Nat) (v : Word) (s : State) : Out :=
  .next <|
    let o := off - off % 8
    if 0x1_0000 ≤ o ∧ o < 0x1_4000 then
      let r := (o - 0x1_0000) / 64
      if ringEn s r then s
      else if o % 64 = 0 then s.put64 (hostKey o) (v.toNat / 4096 * 4096)
      else if o % 64 = 8 then s.put64 (hostKey o) (v.toNat % 32)
      else s
    else if 0x108 ≤ o ∧ o < 0x128 then s.put64 (hostKey o) v.toNat
    else if 0x2000 ≤ o ∧ o < 0x2240 then
      devWrite s (ctlKey ((o - 0x2000) / 64) (0x2000 + (o - 0x2000) % 64)) 1 v.toNat 0xFF
    else s

end Sys2Proof.Machine
end

