-- ==== Sys2Proof/Machine/Reliability.lean ====
section
/-! DEFINITION. The scrubbers and the retraining of a stack (R413 to R418, R420). -/
namespace Sys2Proof.Machine

/-- The keys of a die's lines with errors among the n lines from a line on. -/
def badLines (s : State) (d line n : Nat) : List Nat :=
  (s.ecc.filter fun e => decide (physKey d (64 * line) ≤ e.1) && decide (e.1 < physKey d (64 * (line + n))) && e.2 != []).map (·.1)

/-- The scrub read of lines with errors: each is logged, and those that could be corrected await their write-back. -/
def scrubLines (s : State) (d : Nat) (bad : List Nat) : State :=
  let good := bad.filter fun k => !lineUncorrectable s k
  let s := bad.foldl noteRead s
  s.putDi d { s.di d with scrubbed := good.map fun k => (k, false) }

/-- The scrub read of a 4 KiB block: every line with errors is logged, and those that could be corrected await their write-back. -/
def scrubRead (s : State) (d : Nat) : State :=
  let pos := (s.di d).scrubPos
  let s := scrubLines s d (badLines s d pos 64)
  s.putDi d { s.di d with scrubPos := (pos + 64) % 2 ^ 30 }

/-- SKIP + 1, saturating. -/
def countSkip (s : State) (d : Nat) : State :=
  let st := (s.di d).scrubstat.toNat
  s.putDi d { s.di d with scrubstat := BitVec.ofNat 64 (st - st % 65536 + satInc (st % 65536) 16) }

/-- The scrub write-back of a line: that of a line written since the scrub read is abandoned, and the line is to be read again. -/
def scrubWrite (d : Nat) (s : State) (k : Nat × Bool) : State :=
  if k.2 then
    let s := countSkip s d
    s.putDi d { s.di d with scrubAgain := (s.di d).scrubAgain ++ [k.1] }
  else clearEcc s k.1

/-- HBM_SCRUB: the scrubber of the subject die writes back what it has corrected, or reads again the lines whose write-back it has abandoned,
or reads the next block (R416). -/
def execHbmScrub (s : State) : Out :=
  .next <|
    let d := s.cur
    if 8 ≤ d ∨ !(s.di d).started then s
    else if (s.di d).scrubbed ≠ [] then
      let s := (s.di d).scrubbed.foldl (scrubWrite d) s
      s.putDi d { s.di d with scrubbed := [] }
    else if (s.di d).scrubAgain ≠ [] then
      let ks := (s.di d).scrubAgain
      scrubLines (s.putDi d { s.di d with scrubAgain := [] }) d (ks.filter fun k => tget s.ecc k [] != [])
    else if (s.di d).scrubcfg.getLsbD 63 then scrubRead s d
    else s

/-- SCRATCHPAD_SCRUB: a pass over the subject core's scratchpad while the core is SERVICE, HELD or SPARE corrects single-bit errors
(R417). -/
def execScratchpadScrub (s : State) : Out :=
  .next <|
    let p := s.cur
    let v := (s.co p).svc
    if isCore p ∧ (v = .service ∨ v = .held ∨ v = .spare) then
      ((s.ecc.filter fun e => decide (spKey p 0 ≤ e.1) && decide (e.1 < spKey p 0x40_0000)).map (·.1)).foldl (fixWord p) s
    else s

/-- Every tile die is up. -/
def allUp (s : State) : Bool := (List.range 8).all (dieUp s)

/-- HBM_RETRAIN: the subject die's stack runs at 10.0 Gb/s: after every die is up, H0 first (R418, R420, R421). -/
def execHbmRetrain (s : State) : Out :=
  .next <|
    let d := s.cur
    if d < 8 ∧ allUp s ∧ !(s.di d).hbmFull ∧ (List.range d).all (fun k => (s.di k).hbmFull) then
      let s := s.putDi d { s.di d with hbmFull := true }
      { s with ready := s.ready || (List.range 8).all fun k => (s.di k).hbmFull }
    else s

end Sys2Proof.Machine
end

