-- ==== Sys2Proof/Machine/BringUp.lean ====
section
/-! DEFINITION. Bring-up, the firmware routines, attestation, the power and thermal alarms, and reset (R375, R384, R408, R418 to R428). -/
namespace Sys2Proof.Machine

/-! ### The power alarm (R426) -/

/-- The samples of the last 100 µs, in watts. -/
def recentPower (s : State) : List Nat := (s.samples.filter fun e => decide (s.ns < e.1 + 100_000)).map (·.2)

/-- Their mean exceeds 2,700 W. -/
def powerHigh (s : State) : Bool := decide (2700 * (recentPower s).length < (recentPower s).sum)

/-- It is below 2,565 W, or there is no sample. -/
def powerLow (s : State) : Bool := decide ((recentPower s).sum < 2565 * (recentPower s).length) || (recentPower s).isEmpty

/-- PALARM after a change of what it depends on, or of time: it rises at once, and falls once the three conditions have held for 1 ms. -/
def judgeAlarm (s : State) : State :=
  if powerHigh s || s.pwrAlert || s.hot != [] then { s with palarm := true, calm := none }
  else if powerLow s then
    let t := s.calm.getD s.ns
    { s with calm := some t, palarm := s.palarm && decide (s.ns < t + 1_000_000) }
  else { s with calm := none }

/-- The module is in reset: nothing but the pins is followed. -/
def judgeUnlessReset (s : State) : State := if s.inReset then s else judgeAlarm s

/-! ### Images (R423, R424) -/

/-- The bytes of an image that its signature covers: the release number, the routine table, the code. The spec does not lay an image out
(DESIGN CHOICE, log entry 13). -/
def imageBytes (i : Image) : List Byte :=
  bytesLE i.release.toNat 8 ++ bytesLE i.routines.length 8 ++ (i.routines.flatMap fun e => e.1 :: bytesLE e.2.toNat 2) ++ i.code

/-- The digest of an image's public key: of x and y, each with its most significant byte first (log entry 13). -/
def keyDigest (i : Image) : BitVec 256 := sha256 (bytesBE i.keyX.toNat 32 ++ bytesBE i.keyY.toNat 32)

/-- The boot ROM accepts an image (R424): its key is the fused one, its signature over its digest verifies, its release is new enough. -/
def imageOk (s : State) (i : Image) : Bool :=
  keyDigest i == s.fuseKey.getD Config.fusedKey && ecdsaOk (i.keyX, i.keyY) (sha256 (imageBytes i)) i.sigR i.sigS &&
    decide ((s.fuseMin.getD Config.minRelease).toNat ≤ i.release.toNat)

/-- Bytes written one after the other. -/
def putBytes (m : Memory) (k : Nat) : List Byte → Memory
  | [] => m
  | b :: bs => putBytes (memPut m k b) (k + 1) bs

/-- The routine table of an image: numbers 1 to 255. -/
def routineTable (i : Image) : Tbl (BitVec 16) := i.routines.foldl (fun t e => if e.1 = 0#8 then t else tins t e.1.toNat e.2) []

/-- A die's firmware core runs an accepted image: its code stands in the local store. -/
def loadImage (s : State) (d : Nat) (i : Image) : State :=
  let s := s.putMem (putBytes (zeroRange s.mem (fwKey d 0) (fwKey d 0x1_0000)) (fwKey d 0) (i.code.take 0x1_0000))
  s.putDi d { s.di d with started := true, release := i.release, routines := routineTable i }

/-! ### Start order (R418) -/

/-- Word 0 of a context's entry out of reset: BANKKEY 0xFFF (Table 23.1). -/
def ctxResetWord : Nat := 0xFFF * 2 ^ 16

/-- The context table at bring-up: every entry at its reset values, and entry 0 LIVE with HMIN 16 and HMAX 1,024 (R384). -/
def bringUpContexts (s : State) : State :=
  let s := (List.range 64).foldl (fun s c => s.put64 (ctxKey c 0) ctxResetWord) s
  (s.put64 (ctxKey 0 0) (2 ^ 61 + ctxResetWord)).put64 (ctxKey 0 6) (16 * 2 ^ 53 + 1024 * 2 ^ 42)

/-- RESET_RELEASE: RESET_N is released: the straps are sampled, and with BOOT_SRC 0 or 1 and an accepted image the Crossroads die's
firmware runs, brings its tables up and claims the lead lease (R418, R422, R424, R428). -/
def execResetRelease (boot : BitVec 2) (modId : BitVec 4) (img : Image) (s : State) : Out :=
  .next <|
    if !s.inReset || s.tripped then s
    else
      let s := { s with time := 0, bootSrc := boot, modId := modId }
      if boot.toNat < 2 ∧ imageOk s img then
        let s := loadImage s 8 img
        judgeAlarm (bringUpContexts { s.putDi 8 { s.di 8 with startAt := some 0 } with
          inReset := false, leadHeld := true, leadHolder := 8, leadExp := 10_000_000 })
      else s

/-- A die's map at bring-up: entry i names the core of die index i (R408). -/
def bringUpMap (s : State) (d : Nat) : State := (List.range 256).foldl (fun s i => setEntry s d i (BitVec.ofNat 10 (0x200 + i))) s

/-- The tile dies before a die have started, each in its turn. -/
def diesBefore (s : State) (d : Nat) : Bool := (List.range d).all fun e => (s.di e).startAt.isSome

/-- DIE_START: the subject tile die starts 250 µs × n after the Crossroads die's firmware, after the dies before it; with a refused image
it stays in reset (R418, R424). -/
def execDieStart (img : Image) (s : State) : Out :=
  .next <|
    let d := s.cur
    if 8 ≤ d then s
    else
      match (s.di 8).startAt, (s.di d).startAt with
      | some t, none =>
        if s.ns < t + 250_000 * d ∨ !diesBefore s d then s
        else
          let s := s.putDi d { s.di d with startAt := some s.ns }
          if imageOk s img then bringUpMap (loadImage s d img) d else s
      | _, _ => s

/-- Every assigned class but 24 to 27 (R419, Table 24.1). -/
def bringUpMask : Word := 0x0000_007F_000F_FF7F

/-- A core comes up HELD, to be scanned (R419). -/
def bringUpCore (d : Nat) (s : State) (i : Nat) : State :=
  s.upCo (diePhys d i) fun x => { x with svc := .held, capmask := bringUpMask, boot := .toScan }

/-- The groups of quads before group k have started. -/
def groupsBefore (s : State) (d k : Nat) : Bool := (List.range k).all fun j => (s.di d).groups.getLsbD j

/-- QUAD_GROUP_START: group k of 8 quads of the subject die starts 20 µs × k after the die, after the groups before it (R418). -/
def execQuadGroupStart (k : Nat) (s : State) : Out :=
  .next <|
    let d := s.cur
    match (s.di d).startAt with
    | none => s
    | some t =>
      if 8 ≤ d ∨ 9 ≤ k ∨ !(s.di d).started ∨ (s.di d).groups.getLsbD k ∨ !groupsBefore s d k ∨ s.ns < t + 20_000 * k then s
      else
        let s := ((List.range 32).map (32 * k + ·)).foldl (bringUpCore d) s
        s.putDi d { s.di d with groups := setBit (s.di d).groups k true }

/-! ### The scan of a core that comes up (R419) -/

/-- The classes of the segments 0 to 5 and 7. -/
def bootClasses : Word := segClasses 0 ||| segClasses 1 ||| segClasses 2 ||| segClasses 3 ||| segClasses 4 ||| segClasses 5 ||| segClasses 7

/-- A core's scan is over, and its segment 6 has passed. -/
def arrayPassed (s : State) (p : Nat) : Bool := ((s.co p).boot == .passed || (s.co p).boot == .failed) && (s.co p).scanFail &&& segClasses 6 == 0#64

/-- The four cores of a core's quad have passed segment 6. -/
def quadPassed (s : State) (p : Nat) : Bool := (List.range 4).all fun i => arrayPassed s (4 * quadOf p + i)

/-- A spare core of a die that has passed, bit 0 of its mask set. -/
def passedSpare (s : State) (d : Nat) : Option Nat :=
  (List.range 288).find? fun i =>
    (s.co (diePhys d i)).boot == .passed && (s.co (diePhys d i)).svc == .spare && !(s.co (diePhys d i)).zeroing &&
    (s.co (diePhys d i)).capmask.getLsbD 0

/-- A core can no more become a spare that has passed: it has failed, or it is named by the map, retired or without class 0. -/
def noSpare (s : State) (p : Nat) : Bool :=
  let x := s.co p
  x.boot == .failed || (x.boot == .passed && (mapped s p || x.svc == .retired || !x.capmask.getLsbD 0))

/-- The map entry of a core that has failed goes to a spare that has passed; with none, the entry is written with VALID 0 (R419, R383). -/
def replaceFailed (s : State) (p : Nat) : State :=
  let d := p / 288
  match mapEntry s p with
  | none => s
  | some e =>
    match passedSpare s d with
    | some i => (setEntry s d e (BitVec.ofNat 10 (0x200 + i))).upCo (diePhys d i) fun x => { x with zeroing := true }
    | none =>
      if (List.range 288).all (fun i => noSpare s (diePhys d i)) then noteUp (setEntry s d e 0) else s

/-- A core of a quad whose four cores have passed segment 6 gains classes 24 to 27, once, in HELD or SPARE; in HELD it is then released, unless it
has failed (R382, R419). -/
def gainArray (p : Nat) (s : State) : State :=
  let x := s.co p
  let gain (s : State) : State := s.upCo p fun x => { x with capmask := x.capmask ||| segClasses 6, gained := true }
  if x.gained ∨ !quadPassed s p then s
  else if x.svc = .service then cmdDrain s p
  else if x.svc = .held ∧ !x.zeroing then (if x.boot = .failed then gain s else cmdRelease (gain s) p)
  else if x.svc = .spare then gain s
  else s

/-- The next step of the service code with a core, while no routine runs: its scan; then SERVICE, or SPARE, or another core in its place; then classes
24 to 27 (R419, R423). -/
def bringUpTurn (p : Nat) (s : State) : State :=
  let x := s.co p
  if !(s.di (p / 288)).started || (s.di (p / 288)).busy then s
  else
    match x.boot with
    | .toScan => cmdScan (s.upCo p fun x => { x with boot := .inScan }) p
    | .inScan =>
      if x.svc ≠ .held then s
      else if x.scanRes ≠ 2#4 ∧ x.scanRes ≠ 3#4 then cmdScan s p
      else if x.scanFail &&& bootClasses ≠ 0#64 then replaceFailed (s.upCo p fun x => { x with boot := .failed }) p
      else cmdRelease (s.upCo p fun x => { x with boot := .passed }) p
    | .failed => gainArray p (replaceFailed s p)
    | .passed => gainArray p s
    | .off => s

/-! ### Power and heat (R426, R427) -/

/-- POWER_SAMPLE: the input power in watts is sampled (R426). -/
def execPowerSample (w : Nat) (s : State) : Out :=
  .next <| if s.inReset then s else judgeAlarm { s with samples := ((s.ns, w) :: s.samples).take 10 }

/-- PWR_ALERT: PWR_ALERT_N is asserted or released (R426). -/
def execPwrAlert (on : Bool) (s : State) : Out := .next (judgeUnlessReset { s with pwrAlert := on })

/-- The module in reset; what the outside world holds stays: the turns to come, the pins, the sensors, the free values drawn. -/
def intoReset (s : State) : State :=
  { State.reset with sched := s.sched, free := s.free, pwrAlert := s.pwrAlert, hot := s.hot, fuseKey := s.fuseKey, fuseMin := s.fuseMin }

/-- THERMAL_SENSOR: a die sensor reads a temperature: TALARM while one reads 95 °C or more; at 105 °C the module trips into reset (R427). -/
def execThermalSensor (sensor deg : Nat) (s : State) : Out :=
  .next <|
    let others := s.hot.filter (· != sensor)
    let s := { s with hot := if 95 ≤ deg then sensor :: others else others }
    if 105 ≤ deg then { intoReset s with tripped := true } else judgeUnlessReset s

/-- RESET_N_ASSERTED: RESET_N is low: the module is held in reset and every context is lost (R428). -/
def execResetNAsserted (s : State) : Out := .next (intoReset s)

/-! ### Firmware routines (R375, R422, R423) -/

/-- The scalar stream of a firmware core at a routine's first instruction (R375). -/
def routineScalar (s : State) (x : Scalar) (entry : BitVec 16) : Scalar :=
  { Scalar.reset with
    run := .running, pc := align8 (entry.setWidth 64), tvec := align8 (handlerEntry s 0 0), regs := [(62, 0x1_0000#64)], dc := x.dc, wb := x.wb, start := s.time,
    wd := s.time }

/-- Routine num of die d starts: the argument block, BUSY, then its first instruction. -/
def startRoutine (s : State) (d num args : Nat) (entry : BitVec 16) : State :=
  let k := routineKey d
  let res := bitsOf (rdN s.mem k 8) 47 16
  let m := zeroRange (wrN s.mem (fwKey d 0) 56 args) (fwKey d 0x38) (fwKey d 0x100)
  let beat := lastBeat s d
  let s := if s.leadHeld ∧ s.leadHolder.toNat = d then { s with leadExp := BitVec.ofNat 64 (leadUntil s) } else s
  let s := (s.putMem m).put64 k (2 ^ 62 + res * 2 ^ 16 + num)
  (s.putDi d { s.di d with busy := true, hbtime := beat }).putSc (8192 + d) (routineScalar s (s.sc (8192 + d)) entry)

/-- ROUTINE_REQUEST: a GO store that was not ignored starts its routine, or sets FAIL (R423). -/
def execRoutineRequest (s : State) : Out :=
  .next <|
    match takeAct (fun a => match a with | .routine d num args => some (d, num, args) | _ => none) s with
    | none => s
    | some ((d, num, args), s) =>
      if (s.di d).busy || !(s.di d).started then s
      else
        let w := rdN s.mem (routineKey d) 8
        match (s.di d).routines.find? fun e => e.1 == num with
        | none => s.put64 (routineKey d) (bitsOf w 62 61 * 2 ^ 61 + 2 ^ 60 + bitsOf w 47 16 * 2 ^ 16 + w % 256)
        | some (_, e) => startRoutine s d num args e

/-- A firmware core is reset: its routine, or one that is about to start, ends with FAIL; its stores are on their way (R422, R423). -/
def resetFirmware (s : State) (d : Nat) : State :=
  let a := 8192 + d
  let s := withdraw s a
  let x := (s.sc a).flushAll []
  let s := s.putSc a { Scalar.reset with dc := x.dc, wb := x.wb }
  let s := { s with acts := s.acts.filter fun e => match e with | .routine e _ _ => e != d | _ => true }
  let w := rdN s.mem (routineKey d) 8
  let s := s.putDi d { s.di d with busy := false, hbtime := s.ns }
  if bitsOf w 62 62 = 1 then s.put64 (routineKey d) (2 ^ 60 + bitsOf w 47 16 * 2 ^ 16 + w % 256) else s

/-- HEARTBEAT_TIMEOUT: the lead resets the subject die's firmware core, whose heartbeat is more than 10 ms old (R422). -/
def execHeartbeatTimeout (s : State) : Out :=
  .next <|
    let d := s.cur
    if s.leadHeld ∧ s.ns ≤ leadUntil s ∧ d < 9 ∧ (s.di d).started ∧ lastBeat s d + 10_000_000 < s.ns then resetFirmware s d else s

/-! ### MODSTAT and attestation (R421, R425) -/

/-- MODSTAT (Table 25.2). -/
def modstat (s : State) : Nat :=
  let bits (f : Nat → Bool) : Nat := ((List.range 8).map fun d => if f d then 2 ^ d else 0).sum
  let lead := if s.leadHeld then s.leadHolder.toNat else 15
  let state := if s.inReset then 0 else if s.ready then 2 else 1
  lead * 2 ^ 24 + bits (fun d => (s.di d).hbmFull) * 2 ^ 16 + bits (dieUp s) * 2 ^ 8 + (if s.hot = [] then 0 else 32) +
    (if s.palarm then 16 else 0) + state

/-- The four words of a 256-bit value. -/
def quarters (v : BitVec 256) : List Word := (List.range 4).map fun i => v.extractLsb' (64 * i) 64

/-- The bytes of words, each with its least significant byte first (R2). -/
def wordBytes (ws : List Word) : List Byte := ws.flatMap fun w => bytesLE w.toNat 8

/-- The four words of a digest whose bytes stand in their order (DESIGN CHOICE, log entry 13). -/
def digestWords (v : BitVec 256) : List Word := quarters (BitVec.ofNat 256 ((bytesBE v.toNat 32).foldr (fun b n => b.toNat + 256 * n) 0))

/-- Words 0 to 18 of a report. -/
def reportBody (s : State) : List Word :=
  BitVec.ofNat 64 (1 + s.modId.toNat * 256) :: (List.range 9).map (fun d => (s.di d).release) ++ [BitVec.ofNat 64 (modstat s)] ++
  digestWords (sha256 (wordBytes ((List.range 2304).map fun p => (s.co p).capmask))) ++
  (List.range 4).map fun i => BitVec.ofNat 64 (rdN s.mem (hostKey (0x108 + 8 * i)) 8)

/-- Words written one after the other. -/
def putWords (s : State) (k : Nat) : List Word → State
  | [] => s
  | w :: ws => putWords (s.put64 k w.toNat) (k + 8) ws

/-- ATTCTL. -/
def attCtl : Nat := hostKey 0x100

/-- ATTESTATION_REQUEST: a write to ATTCTL with bit 0 set asks for a report; ATTCTL[0] reads 1 until it is complete (R425). -/
def execAttestationRequest (v : Word) (s : State) : Out := .next <| if s.inReset ∨ !v.getLsbD 0 then s else s.put64 attCtl 1

/-- The 27 words of a report: the signature's r and s are numbers of 32 bytes, least significant byte first (R2, R425). -/
def reportWords (s : State) : List Word :=
  let body := reportBody s
  let k := Config.signNonce s.free
  body ++ quarters (BitVec.ofNat 256 (ecdsaR k)) ++ quarters (BitVec.ofNat 256 (ecdsaS Config.deviceKey k (sha256 (wordBytes body))))

/-- The report that the host has asked for is complete: it stands at 0x200, and ATTCTL[0] reads 0 (R425). -/
def reportTurn (s : State) : State :=
  if rdN s.mem attCtl 8 % 2 = 0 then s else (putWords { s with free := s.free + 1 } (hostKey 0x200) (reportWords s)).put64 attCtl 0

end Sys2Proof.Machine
end

