-- ==== Sys2Proof/Machine/Alu.lean ====
section
/-! DEFINITION. Integer arithmetic and logic, constants, fields, compares and predicates (R54 to R64). -/
namespace Sys2Proof.Machine

/-- NOP has no effect (R54). -/
def execNop (g : Guard) (s : State) : Out := issue 0 g [] none s State.retire

/-- ADD (R55). -/
def execAdd (g : Guard) (d : BitVec 6) (a b : Src) (s : State) : Out :=
  issue 0 g [a, b] (some d) s fun s => s.result d (s.rd a + s.rd b)

/-- SUB (R55). -/
def execSub (g : Guard) (d : BitVec 6) (a b : Src) (s : State) : Out :=
  issue 0 g [a, b] (some d) s fun s => s.result d (s.rd a - s.rd b)

/-- AND (R55). -/
def execAnd (g : Guard) (d : BitVec 6) (a b : Src) (s : State) : Out :=
  issue 0 g [a, b] (some d) s fun s => s.result d (s.rd a &&& s.rd b)

/-- OR (R55). -/
def execOr (g : Guard) (d : BitVec 6) (a b : Src) (s : State) : Out :=
  issue 0 g [a, b] (some d) s fun s => s.result d (s.rd a ||| s.rd b)

/-- XOR (R55). -/
def execXor (g : Guard) (d : BitVec 6) (a b : Src) (s : State) : Out :=
  issue 0 g [a, b] (some d) s fun s => s.result d (s.rd a ^^^ s.rd b)

/-- ANDN (R55). -/
def execAndn (g : Guard) (d : BitVec 6) (a b : Src) (s : State) : Out :=
  issue 0 g [a, b] (some d) s fun s => s.result d (s.rd a &&& ~~~(s.rd b))

/-- SHL: only the six low bits of b count (R55). -/
def execShl (g : Guard) (d : BitVec 6) (a b : Src) (s : State) : Out :=
  issue 0 g [a, b] (some d) s fun s => s.result d (s.rd a <<< ((s.rd b).toNat % 64))

/-- SHR (R55). -/
def execShr (g : Guard) (d : BitVec 6) (a b : Src) (s : State) : Out :=
  issue 0 g [a, b] (some d) s fun s => s.result d (s.rd a >>> ((s.rd b).toNat % 64))

/-- SAR (R55). -/
def execSar (g : Guard) (d : BitVec 6) (a b : Src) (s : State) : Out :=
  issue 0 g [a, b] (some d) s fun s => s.result d ((s.rd a).sshiftRight ((s.rd b).toNat % 64))

/-- MIN, signed (R55). -/
def execMin (g : Guard) (d : BitVec 6) (a b : Src) (s : State) : Out :=
  issue 0 g [a, b] (some d) s fun s => s.result d (if (s.rd a).toInt ≤ (s.rd b).toInt then s.rd a else s.rd b)

/-- MAX, signed (R55). -/
def execMax (g : Guard) (d : BitVec 6) (a b : Src) (s : State) : Out :=
  issue 0 g [a, b] (some d) s fun s => s.result d (if (s.rd a).toInt ≤ (s.rd b).toInt then s.rd b else s.rd a)

/-- MINU (R55). -/
def execMinu (g : Guard) (d : BitVec 6) (a b : Src) (s : State) : Out :=
  issue 0 g [a, b] (some d) s fun s => s.result d (if (s.rd a).toNat ≤ (s.rd b).toNat then s.rd a else s.rd b)

/-- MAXU (R55). -/
def execMaxu (g : Guard) (d : BitVec 6) (a b : Src) (s : State) : Out :=
  issue 0 g [a, b] (some d) s fun s => s.result d (if (s.rd a).toNat ≤ (s.rd b).toNat then s.rd b else s.rd a)

/-- SEL reads both sources and chooses by a predicate (R56). -/
def execSel (g : Guard) (d : BitVec 6) (a b : Src) (p : BitVec 5) (s : State) : Out :=
  issue 0 g [a, b] (some d) s fun s => s.result d (if (s.sc s.cur).pred p then s.rd a else s.rd b)

/-- MUL: the low 64 bits (R55). -/
def execMul (g : Guard) (d : BitVec 6) (a b : Src) (s : State) : Out :=
  issue 1 g [a, b] (some d) s fun s => s.result d (s.rd a * s.rd b)

/-- MULH: bits 127:64 of the signed product (R55). -/
def execMulh (g : Guard) (d : BitVec 6) (a b : Src) (s : State) : Out :=
  issue 1 g [a, b] (some d) s fun s => s.result d (BitVec.ofInt 64 ((s.rd a).toInt * (s.rd b).toInt / 2 ^ 64))

/-- MULHU: bits 127:64 of the unsigned product (R55). -/
def execMulhu (g : Guard) (d : BitVec 6) (a b : Src) (s : State) : Out :=
  issue 1 g [a, b] (some d) s fun s => s.result d (BitVec.ofNat 64 ((s.rd a).toNat * (s.rd b).toNat / 2 ^ 64))

/-- A division: a zero divisor traps DIV_ZERO with the dividend before any register is written (R22, R58). -/
def divBody (d : BitVec 6) (a b : Src) (f : Word → Word → Word) (s : State) : State :=
  if s.rd b = 0#64 then s.trap 5 0 (s.rd a) else s.result d (f (s.rd a) (s.rd b))

/-- DIV: truncated toward zero; -2^63 by -1 gives -2^63 (R58). -/
def execDiv (g : Guard) (d : BitVec 6) (a b : Src) (s : State) : Out :=
  issue 2 g [a, b] (some d) s (divBody d a b divS)

/-- DIVU (R58). -/
def execDivu (g : Guard) (d : BitVec 6) (a b : Src) (s : State) : Out :=
  issue 2 g [a, b] (some d) s (divBody d a b (fun x y => BitVec.ofNat 64 (x.toNat / y.toNat)))

/-- REM: the sign of the dividend (R58). -/
def execRem (g : Guard) (d : BitVec 6) (a b : Src) (s : State) : Out :=
  issue 2 g [a, b] (some d) s (divBody d a b remS)

/-- REMU (R58). -/
def execRemu (g : Guard) (d : BitVec 6) (a b : Src) (s : State) : Out :=
  issue 2 g [a, b] (some d) s (divBody d a b (fun x y => BitVec.ofNat 64 (x.toNat % y.toNat)))

/-- ADDS, signed and clamped (R55). -/
def execAdds (g : Guard) (d : BitVec 6) (a b : Src) (s : State) : Out :=
  issue 4 g [a, b] (some d) s fun s => s.result d (satS ((s.rd a).toInt + (s.rd b).toInt))

/-- SUBS, signed and clamped (R55). -/
def execSubs (g : Guard) (d : BitVec 6) (a b : Src) (s : State) : Out :=
  issue 4 g [a, b] (some d) s fun s => s.result d (satS ((s.rd a).toInt - (s.rd b).toInt))

/-- ADDUS, unsigned and clamped (R55). -/
def execAddus (g : Guard) (d : BitVec 6) (a b : Src) (s : State) : Out :=
  issue 4 g [a, b] (some d) s fun s => s.result d (satU ((s.rd a).toNat + (s.rd b).toNat))

/-- SUBUS, unsigned and clamped (R55). -/
def execSubus (g : Guard) (d : BitVec 6) (a b : Src) (s : State) : Out :=
  issue 4 g [a, b] (some d) s fun s => s.result d (satU (((s.rd a).toNat : Int) - (s.rd b).toNat))

/-- CLZ (R57). -/
def execClz (g : Guard) (d : BitVec 6) (a : Src) (s : State) : Out :=
  issue 3 g [a] (some d) s fun s => s.result d (clz64 (s.rd a))

/-- CTZ (R57). -/
def execCtz (g : Guard) (d : BitVec 6) (a : Src) (s : State) : Out :=
  issue 3 g [a] (some d) s fun s => s.result d (ctz64 (s.rd a))

/-- POPC (R57). -/
def execPopc (g : Guard) (d : BitVec 6) (a : Src) (s : State) : Out :=
  issue 3 g [a] (some d) s fun s => s.result d (popc64 (s.rd a))

/-- BREV (R57). -/
def execBrev (g : Guard) (d : BitVec 6) (a : Src) (s : State) : Out :=
  issue 3 g [a] (some d) s fun s => s.result d (brev64 (s.rd a))

/-- BSWAP (R57). -/
def execBswap (g : Guard) (d : BitVec 6) (a : Src) (s : State) : Out :=
  issue 3 g [a] (some d) s fun s => s.result d (bswap64 (s.rd a))

/-- ADD with a sign-extended immediate (R59). -/
def execAddImm (g : Guard) (d : BitVec 6) (a : Src) (imm : BitVec 28) (s : State) : Out :=
  issue 0 g [a] (some d) s fun s => s.result d (s.rd a + imm28 imm)

/-- AND with a sign-extended immediate (R59). -/
def execAndImm (g : Guard) (d : BitVec 6) (a : Src) (imm : BitVec 28) (s : State) : Out :=
  issue 0 g [a] (some d) s fun s => s.result d (s.rd a &&& imm28 imm)

/-- OR with a sign-extended immediate (R59). -/
def execOrImm (g : Guard) (d : BitVec 6) (a : Src) (imm : BitVec 28) (s : State) : Out :=
  issue 0 g [a] (some d) s fun s => s.result d (s.rd a ||| imm28 imm)

/-- XOR with a sign-extended immediate (R59). -/
def execXorImm (g : Guard) (d : BitVec 6) (a : Src) (imm : BitVec 28) (s : State) : Out :=
  issue 0 g [a] (some d) s fun s => s.result d (s.rd a ^^^ imm28 imm)

/-- SHL by an immediate from 0 to 63 (R59). -/
def execShlImm (g : Guard) (d : BitVec 6) (a : Src) (k : BitVec 6) (s : State) : Out :=
  issue 0 g [a] (some d) s fun s => s.result d (s.rd a <<< k.toNat)

/-- SHR by an immediate from 0 to 63 (R59). -/
def execShrImm (g : Guard) (d : BitVec 6) (a : Src) (k : BitVec 6) (s : State) : Out :=
  issue 0 g [a] (some d) s fun s => s.result d (s.rd a >>> k.toNat)

/-- SAR by an immediate from 0 to 63 (R59). -/
def execSarImm (g : Guard) (d : BitVec 6) (a : Src) (k : BitVec 6) (s : State) : Out :=
  issue 0 g [a] (some d) s fun s => s.result d ((s.rd a).sshiftRight k.toNat)

/-- LI (R59). -/
def execLi (g : Guard) (d : BitVec 6) (imm : BitVec 28) (s : State) : Out :=
  issue 0 g [] (some d) s fun s => s.result d (imm28 imm)

/-- LSI appends the 28-bit field, unsigned (R59). -/
def execLsi (g : Guard) (d : BitVec 6) (a : Src) (imm : BitVec 28) (s : State) : Out :=
  issue 0 g [a] (some d) s fun s => s.result d ((s.rd a <<< 28) ||| imm.setWidth 64)

/-- ADR: the address of the instruction plus the offset (R59). -/
def execAdr (g : Guard) (d : BitVec 6) (imm : BitVec 28) (s : State) : Out :=
  issue 0 g [] (some d) s fun s => s.result d (s.pc + imm28 imm)

/-- EXTU (R60). -/
def execExtu (g : Guard) (d : BitVec 6) (a : Src) (pos len1 : BitVec 6) (s : State) : Out :=
  issue 3 g [a] (some d) s fun s => s.result d (fieldOf (s.rd a) pos.toNat (len1.toNat + 1))

/-- EXTS (R60). -/
def execExts (g : Guard) (d : BitVec 6) (a : Src) (pos len1 : BitVec 6) (s : State) : Out :=
  issue 3 g [a] (some d) s fun s => s.result d (sextN (fieldOf (s.rd a) pos.toNat (len1.toNat + 1)) (len1.toNat + 1))

/-- INS reads its destination (R60). -/
def execIns (g : Guard) (d : BitVec 6) (a : Src) (pos len1 : BitVec 6) (s : State) : Out :=
  issue 3 g [a] (some d) s fun s => s.result d (insField ((s.sc s.cur).reg d) (s.rd a) pos.toNat (len1.toNat + 1))

/-- SXT (R61). -/
def execSxt (g : Guard) (d : BitVec 6) (a : Src) (w : BitVec 2) (s : State) : Out :=
  issue 0 g [a] (some d) s fun s => s.result d (sextN (s.rd a) (extWidth w))

/-- ZXT (R61). -/
def execZxt (g : Guard) (d : BitVec 6) (a : Src) (w : BitVec 2) (s : State) : Out :=
  issue 0 g [a] (some d) s fun s => s.result d ((s.rd a) &&& maskN (extWidth w))

/-- CMP.EQ of two registers (R62). -/
def execCmpEq (g : Guard) (pd : BitVec 5) (a b : Src) (s : State) : Out :=
  issue 0 g [a, b] none s fun s => s.resultP pd (decide (s.rd a = s.rd b))

/-- CMP.NE of two registers (R62). -/
def execCmpNe (g : Guard) (pd : BitVec 5) (a b : Src) (s : State) : Out :=
  issue 0 g [a, b] none s fun s => s.resultP pd (decide (s.rd a ≠ s.rd b))

/-- CMP.LT of two registers (R62). -/
def execCmpLt (g : Guard) (pd : BitVec 5) (a b : Src) (s : State) : Out :=
  issue 0 g [a, b] none s fun s => s.resultP pd (decide ((s.rd a).toInt < (s.rd b).toInt))

/-- CMP.LE of two registers (R62). -/
def execCmpLe (g : Guard) (pd : BitVec 5) (a b : Src) (s : State) : Out :=
  issue 0 g [a, b] none s fun s => s.resultP pd (decide ((s.rd a).toInt ≤ (s.rd b).toInt))

/-- CMP.LTU of two registers (R62). -/
def execCmpLtu (g : Guard) (pd : BitVec 5) (a b : Src) (s : State) : Out :=
  issue 0 g [a, b] none s fun s => s.resultP pd (decide ((s.rd a).toNat < (s.rd b).toNat))

/-- CMP.LEU of two registers (R62). -/
def execCmpLeu (g : Guard) (pd : BitVec 5) (a b : Src) (s : State) : Out :=
  issue 0 g [a, b] none s fun s => s.resultP pd (decide ((s.rd a).toNat ≤ (s.rd b).toNat))

/-- CMP.EQ with the immediate sign-extended (R62). -/
def execCmpEqImm (g : Guard) (pd : BitVec 5) (a : Src) (imm : BitVec 28) (s : State) : Out :=
  issue 0 g [a] none s fun s => s.resultP pd (decide (s.rd a = imm28 imm))

/-- CMP.NE with the immediate sign-extended (R62). -/
def execCmpNeImm (g : Guard) (pd : BitVec 5) (a : Src) (imm : BitVec 28) (s : State) : Out :=
  issue 0 g [a] none s fun s => s.resultP pd (decide (s.rd a ≠ imm28 imm))

/-- CMP.LT with the immediate sign-extended (R62). -/
def execCmpLtImm (g : Guard) (pd : BitVec 5) (a : Src) (imm : BitVec 28) (s : State) : Out :=
  issue 0 g [a] none s fun s => s.resultP pd (decide ((s.rd a).toInt < (imm28 imm).toInt))

/-- CMP.LE with the immediate sign-extended (R62). -/
def execCmpLeImm (g : Guard) (pd : BitVec 5) (a : Src) (imm : BitVec 28) (s : State) : Out :=
  issue 0 g [a] none s fun s => s.resultP pd (decide ((s.rd a).toInt ≤ (imm28 imm).toInt))

/-- CMP.LTU with the immediate sign-extended (R62). -/
def execCmpLtuImm (g : Guard) (pd : BitVec 5) (a : Src) (imm : BitVec 28) (s : State) : Out :=
  issue 0 g [a] none s fun s => s.resultP pd (decide ((s.rd a).toNat < (imm28 imm).toNat))

/-- CMP.LEU with the immediate sign-extended (R62). -/
def execCmpLeuImm (g : Guard) (pd : BitVec 5) (a : Src) (imm : BitVec 28) (s : State) : Out :=
  issue 0 g [a] none s fun s => s.resultP pd (decide ((s.rd a).toNat ≤ (imm28 imm).toNat))

/-- PAND (R63). -/
def execPand (g : Guard) (pd pa pb : BitVec 5) (s : State) : Out :=
  issue 0 g [] none s fun s => s.resultP pd ((s.sc s.cur).pred pa && (s.sc s.cur).pred pb)

/-- POR (R63). -/
def execPor (g : Guard) (pd pa pb : BitVec 5) (s : State) : Out :=
  issue 0 g [] none s fun s => s.resultP pd ((s.sc s.cur).pred pa || (s.sc s.cur).pred pb)

/-- PXOR (R63). -/
def execPxor (g : Guard) (pd pa pb : BitVec 5) (s : State) : Out :=
  issue 0 g [] none s fun s => s.resultP pd ((s.sc s.cur).pred pa != (s.sc s.cur).pred pb)

/-- PANDN (R63). -/
def execPandn (g : Guard) (pd pa pb : BitVec 5) (s : State) : Out :=
  issue 0 g [] none s fun s => s.resultP pd ((s.sc s.cur).pred pa && !(s.sc s.cur).pred pb)

/-- The predicates as MFP reads them: bit 0 is one (R64). -/
def Scalar.predWord (x : Scalar) : Word := (x.preds ||| 1#32).setWidth 64

/-- MFP (R64). -/
def execMfp (g : Guard) (d : BitVec 6) (s : State) : Out :=
  issue 0 g [] (some d) s fun s => s.result d (s.sc s.cur).predWord

/-- MTP sets p1 to p31 (R64). -/
def execMtp (g : Guard) (a : Src) (s : State) : Out :=
  issue 0 g [a] none s fun s => (s.upSc fun x => { x with preds := (s.rd a).setWidth 32 &&& ~~~1#32 }).retire

end Sys2Proof.Machine
end

