-- ==== Sys2Proof/Machine/Release.lean ====
section
/-! DEFINITION. Releases of sync objects (R98, R313, R316, R320). -/
namespace Sys2Proof.Machine

/-- The home reads REMOTE of an object for a release of the current agent, and where it is set begins the wait for what had left: a flush goes on
each connection concerned, as for NFLUSH (R320). -/
def beginWait (s : State) (key c : Nat) (ea : Word) : State :=
  let o := objAt s key
  if objRemote s key ∧ flushConns s c ≠ [] ∧ (o.waits.lookup s.cur).isNone then
    let r := flushAll s c (flushConns s c)
    putObj r.2 c ea key { o with waits := o.waits ++ [(s.cur, r.1)] } true
  else s

/-- The current agent's release of an object waits no more. -/
def waitOver (s : State) (key c : Nat) : Bool :=
  match (objAt s key).waits.lookup s.cur with
  | some ks => !ks.any (stillOut s c)
  | none => true

/-- The release part of REL and REL.SET: every dirty line is written back, those of the regions first, and nothing more happens until
every store is performed; with REMOTE set the release waits for what the context has sent by then as well (R313, R320). -/
def whenReleased (obj : Word) (key : Nat) (s : State) (body : State → State) : State :=
  let c := (s.sc s.cur).ctx.toNat
  if !(s.sc s.cur).drained then (noteRegions s c obj.toNat).upSc fun x => x.flushAll (objRegions s c obj.toNat)
  else
    let s := beginWait s key c obj
    if waitOver s key c then body s else s

/-- RELNUM + 1 (Table 17.3). -/
def bumpRel (s : State) (c : Nat) (ea : Word) (key : Nat) : State := homeWord s c ea (key + 16) (rdN s.mem (key + 16) 8 + 1)

/-- The current agent's release of an object is performed for a context: word 0 and RELNUM follow, and REMOTE is cleared, unless a network read
arrived while a release waited (R316, R320). An uncorrectable line takes neither (R414). -/
def putReleased (s : State) (c : Nat) (ea : Word) (key : Nat) (holders : List (Nat × Bool)) : State :=
  let o := objAt s key
  let ws := o.waits.filter fun w => w.1 != s.cur
  let s' := putObj s c ea key { o with holders := holders, waits := ws, late := o.late && !ws.isEmpty } o.late
  if lineUncorrectable s key then s' else bumpRel s' c ea key

/-- A hold is given up (R316). -/
def releaseHold (s : State) (c : Nat) (ea : Word) (key task : Nat) : State := putReleased s c ea key ((objAt s key).holders.filter fun h => h.1 != task)

/-- REL (R98). -/
def execRel (g : Guard) (a : Src) (s : State) : Out :=
  issue 5 g [a] none s fun s =>
    withObject (s.rd a) s fun key =>
      if !holds s key then s.trap 16 1 (s.rd a)
      else whenReleased (s.rd a) key s fun s => (releaseHold s (s.sc s.cur).ctx.toNat (s.rd a) key (taskId s s.cur)).retire

/-- REL.SET stores the value word with release; the holds are unchanged (R98). -/
def execRelSet (g : Guard) (a b : Src) (s : State) : Out :=
  issue 5 g [a, b] none s fun s =>
    withObject (s.rd a) s fun key =>
      whenReleased (s.rd a) key s fun s =>
        let v := s.rd b
        let c := (s.sc s.cur).ctx.toNat
        let s' := putReleased s c (s.rd a) key (objAt s key).holders
        (if lineUncorrectable s key then s' else homeWord s' c (s.rd a) (key + 8) v.toNat).retire

end Sys2Proof.Machine
end

