-- ==== Sys2Proof/Machine/Roles.lean ====
section
/-! DEFINITION. Conversation objects: their fields, the turn, the endpoints and the bindings of roles (R359 to R366, R371). -/
namespace Sys2Proof.Machine

/-! ### The object (Tables 21.3, 21.4) -/

/-- The key of word w of conversation object n. -/
def convKey (n w : Nat) : Nat := winKey (0x2000_0000 + 256 * n + 8 * w)
/-- Word w of conversation object n. -/
def convWord (s : State) (n w : Nat) : Nat := rdN s.mem (convKey n w) 8
/-- LIFE: 0 idle, 1 open, 2 closed, 3 aborted. -/
def convLife (s : State) (n : Nat) : Nat := bitsOf (convWord s n 0) 61 60
/-- CTX. -/
def convCtx (s : State) (n : Nat) : Nat := bitsOf (convWord s n 0) 59 54
/-- ITIN. -/
def convItin (s : State) (n : Nat) : Nat := bitsOf (convWord s n 0) 47 40
/-- CUR. -/
def convCur (s : State) (n : Nat) : Nat := bitsOf (convWord s n 0) 39 32
/-- SEQ. -/
def convSeq (s : State) (n : Nat) : Nat := convWord s n 0 % 2 ^ 32
/-- PROXY. -/
def convProxy (s : State) (n : Nat) : Bool := bitsOf (convWord s n 1) 63 63 == 1
/-- HCONN. -/
def convHconn (s : State) (n : Nat) : Nat := convWord s n 1 % 2 ^ 20
/-- HOBJ. -/
def convHobj (s : State) (n : Nat) : Nat := convWord s n 2 % 2 ^ 16
/-- LOST. -/
def convLost (s : State) (n : Nat) : Nat := bitsOf (convWord s n 21) 15 8
/-- The entry of role r. -/
def roleWord (s : State) (n r : Nat) : Nat := convWord s n (4 + r)
/-- AS. -/
def roleAs (w : Nat) : Bool := bitsOf w 63 63 == 1
/-- RM. -/
def roleRm (w : Nat) : Bool := bitsOf w 62 62 == 1
/-- CONN of a role entry. -/
def roleConn (w : Nat) : Nat := bitsOf w 51 32
/-- QUEUE of a role entry. -/
def roleQueue (w : Nat) : Nat := bitsOf w 25 16

/-- Set bits hi to lo of word w of an object. -/
def putConvBits (s : State) (n w hi lo v : Nat) : State := s.put64 (convKey n w) (takeBits (convWord s n w) (v * 2 ^ lo) hi lo)

/-- The endpoint of queue q holds role r (R363). -/
def roleHeld (s : State) (n r q : Nat) : Bool := let w := roleWord s n r; roleAs w && !roleRm w && roleQueue w == q

/-- A conversation beyond its object. -/
def convRun (s : State) (n : Nat) : ConvRun := tget s.convs n ConvRun.reset
/-- Give it. -/
def putConv (s : State) (n : Nat) (x : ConvRun) : State := { s with convs := tput s.convs n x ConvRun.reset }

/-! ### Transitions (Table 21.2) -/

/-- SND. -/
def trSnd (w : Nat) : Nat := bitsOf w 27 24
/-- RCV. -/
def trRcv (w : Nat) : Nat := bitsOf w 23 20
/-- KIND. -/
def trKind (w : Nat) : Nat := bitsOf w 19 12
/-- NEXT. -/
def trNext (w : Nat) : Nat := bitsOf w 11 4

/-- The transitions of a state. -/
def stateRow (x : ConvRun) (st : Nat) : List Nat := x.rows.getD st []

/-- The role whose turn it is: SND of slot 0 of the current state of an open conversation (R360, R371); a proxy's own state binds
nothing (R367). -/
def convTurn (s : State) (n : Nat) : Option Nat :=
  if convLife s n = 1 ∧ !convProxy s n then (stateRow (convRun s n) (convCur s n)).head?.map trSnd else none

/-! ### Bindings -/

/-- The agent that a task is on; none where its team is suspended (R365). -/
def taskAgent (s : State) (task : Nat) : Option Nat :=
  if 2 ^ 64 ≤ task then some (task - 2 ^ 64)
  else
    match s.tm (task / 256) with
    | none => none
    | some t => if t.suspended.isSome then none else t.cores[task % 256]?

/-- The binding of role r. -/
def bindOf (s : State) (n r : Nat) : Option Bind := (convRun s n).binds.find? fun b => b.role == r

/-- A binding ends: BND reads 0. -/
def endBind (s : State) (n r : Nat) : State :=
  let x := convRun s n
  putConvBits (putConv s n { x with binds := x.binds.filter fun b => b.role != r }) n (4 + r) 61 61 0

/-- Every binding of a task ends (R365). -/
def endBinds (s : State) (task : Nat) : State :=
  s.convs.foldl (fun s e => (e.2.binds.filter fun b => b.task == task).foldl (fun s b => endBind s e.1 b.role) s) s

/-- A role register (Table 21.5). -/
def roleReg (role conv : Nat) : Word := BitVec.ofNat 64 (2 ^ 63 + role % 256 * 2 ^ 24 + conv % 65536)

end Sys2Proof.Machine
end

