-- ==== Sys2Proof/Machine/Ending.lean ====
section
/-! DEFINITION. The end of a task, a handler and a routine, and the completion of work items (R111, R245, R280, R282, R283, R292, R316, R332,
R365, R423). -/
namespace Sys2Proof.Machine

/-! ### TASK_END (R111) -/

/-- Every record accepted into a core's queues has completed. -/
def queuesDone (x : Core) : Bool :=
  [x.vq, x.mq, x.cq].all (fun q => q.head == q.tail && q.flight.isEmpty) && !x.rolling

/-- The objects that a task holds. -/
def heldBy (s : State) (task : Nat) : List Nat := (s.objs.filter fun e => e.2.holders.any fun h => h.1 == task).map (·.1)

/-- The home begins the releases of what the current agent's task holds, each of which may have to wait for what has left (R316, R320). -/
def beginReleases (s : State) (task c : Nat) : State := (heldBy s task).foldl (fun s k => beginWait s k c (BitVec.ofNat 64 (objName s k).2)) s

/-- Some release of what the current agent's task holds still waits. -/
def releaseWaits (s : State) (task c : Nat) : Bool := (heldBy s task).any fun k => !waitOver s k c

/-- The home releases every object that a task holds, each as a REL (R316). -/
def releaseAll (s : State) (c task : Nat) : State :=
  (heldBy s task).foldl (fun s k => releaseHold s c (BitVec.ofNat 64 (objName s k).2) k task) s

/-- A core is free again. -/
def freeCore (s : State) (p : Nat) : State :=
  let s := s.upCo p fun x => { x with task := none, preClaim := false, ckpt := none, rolls := 0, trigs := [], undone := [] }
  s.putSc p { s.sc p with run := .idle }

/-- Every task of a team has executed DONE. -/
def Team.finished (t : Team) : Bool := (List.range t.size).all fun l => t.done.getLsbD l

/-- A team of which every task has executed DONE gives up its slot, its cores and its trees; with the last team of its work item the
item is to complete (R282, R292, R332). -/
def finishTeam (s : State) (tid : Nat) : State :=
  match s.tm tid with
  | none => s
  | some t =>
    if !t.finished then s
    else
      let s := t.cores.foldl freeCore (unbindTrees s tid)
      let s := s.putTm tid { t with ended := true }
      let mine : Nat × Team → Bool := fun e => e.1 == tid || (t.caravan.isSome && e.2.caravan == t.caravan)
      if s.team.all fun e => !mine e || e.2.ended then
        { s with team := s.team.filter (fun e => !mine e), ended := s.ended ++ [(t.item, 0)] }
      else s

/-- The task on the current core has ended. -/
def endTask (s : State) : State :=
  let p := s.cur
  let task := taskId s p
  let s := endBinds (releaseAll s (s.sc p).ctx.toNat task) task
  let s := s.upSc fun x => { x with run := .done, roles := [] }
  match (s.co p).task with
  | none => s
  | some r => finishTeam (s.upTm r.team fun t => { t with done := setBit t.done r.lcore true }) r.team

/-- ANSWER of the page request that a handler served reaches the PROBE that asked (R245). -/
def answerPage (s : State) (t : Nat) : State :=
  match (s.sc (4096 + t)).event[8]? with
  | none => s
  | some a =>
    let y := s.sc a.toNat
    match y.run with
    | .waiting (.page _ _) => s.putSc a.toNat { y with answer := some (rdN s.mem (tlsKey t 56) 8 == 0) }
    | _ => s

/-- The handler on the current thread has ended: the thread is free. -/
def endHandler (s : State) : State :=
  let task := taskId s s.cur
  let s := endBinds (releaseAll s (s.sc s.cur).ctx.toNat task) task
  (answerPage s (s.cur - 4096)).upSc fun x => { x with run := .idle, roles := [], watch := none }

/-- The routine on the current firmware core has ended (R423): RESULT is s4[31:0], BUSY clears, DONE is set. -/
def endRoutine (s : State) : State :=
  let d := s.cur - 8192
  let num := rdN s.mem (routineKey d) 1
  let res := ((s.sc s.cur).reg 4).toNat % 2 ^ 32
  let s := (releaseAll s 0 (taskId s s.cur)).put64 (routineKey d) (2 ^ 61 + res * 2 ^ 16 + num)
  (s.putDi d { s.di d with busy := false }).upSc fun x => { x with run := .idle, watch := none }

/-- The four steps of R111 are over but for the write-backs. -/
def fillsDone (s : State) : Bool := (s.sc s.cur).fills.isEmpty && (!isCore s.cur || queuesDone (s.co s.cur))

/-- TASK_END: the subject agent, which has executed DONE, ends once its drain has finished; its dirty lines are written back first. -/
def execTaskEnd (s : State) : Out :=
  .next <|
    if (s.sc s.cur).run ≠ .waiting .drain ∨ !fillsDone s then s
    else if !(s.sc s.cur).drained then s.upSc fun x => x.flushAll []
    else
      let c := (s.sc s.cur).ctx.toNat
      let s := beginReleases s (taskId s s.cur) c
      if releaseWaits s (taskId s s.cur) c then s
      else if isCore s.cur then endTask s
      else if isThread s.cur then endHandler s
      else endRoutine s

/-! ### WORK_ITEM_COMPLETE (R282, R283) -/

/-- The callback word. -/
def callbackWord (w : BitVec 512) (st : Nat) : Word :=
  BitVec.ofNat 64 (bitsOf (itemWord w 4) 63 32 * 2 ^ 32 + st % 256 * 2 ^ 24 + itemQueue w)

/-- CB asks for a callback. -/
def wantsCallback (w : BitVec 512) (st : Nat) : Bool :=
  let cb := bitsOf (itemWord w 4) 9 8
  cb == 2 || (cb == 1 && st != 0)

/-- The status word is stored, if STATADDR is nonzero. -/
def storeStatusWord (s : State) (w : BitVec 512) (st : Nat) : State :=
  let ea := itemWord w 5
  if ea = 0 then s
  else
    match globalWrite 0xFFFF (itemCtx w) 2 ea 8 (s.ns % 2 ^ 56 * 256 + st % 256) s with
    | .ok s => s
    | .error e => e.st.memFault (itemCtx w) (e.addr / 2 ^ 56) 0xFFF e.cause e.detail (BitVec.ofNat 64 e.addr)

/-- The effects of a completion up to the callback, in their order: the status word, then the milestone, whose COUNT rises before the callback is
queued (R282). -/
def completeItem (s : State) (w : BitVec 512) (st : Nat) : State :=
  let s := storeStatusWord s w st
  match itemCms w with
  | some m => increment s (itemCtx w) m 1
  | none => s

/-- WORK_ITEM_COMPLETE: the k-th work item that is to complete does so: the status word, the milestone, the callback, which waits for
room in the event queue (its status then carries 256); one of a killed context disappears. -/
def execWorkItemComplete (k : Nat) (s : State) : Out :=
  .next <|
    match s.ended[k]? with
    | none => s
    | some (w, st) =>
      let gone (s : State) : State := { s with ended := s.ended.eraseIdx k }
      if !admits s (itemCtx w) then gone s
      else
        let s := if 256 ≤ st then s else completeItem s w st
        if !wantsCallback w (st % 256) then gone s
        else
          match raiseEvent s (itemCtx w) 3 (callbackWord w st) with
          | some s => gone s
          | none => { s with ended := s.ended.set k (w, 256 + st % 256) }

end Sys2Proof.Machine
end

