-- ==== Sys2Proof/Machine/Work.lean ====
section
/-! DEFINITION. The dispatcher: gates, lending, the choice of a queue, placement, launch, and the request to yield (R286 to R294, R297, R381,
R389, R408). -/
namespace Sys2Proof.Machine

/-! ### Placement (R292, R293, R381) -/

/-- Every class of a placement mask stands in a core's mask. -/
def maskFits (m have' : Word) : Bool := m &&& ~~~have' == 0#64

/-- A core that a dispatch may claim, from a queue with PRE or not (R377, R381). -/
def coreFree (s : State) (pre : Bool) (p : Nat) : Bool :=
  let x := s.co p
  x.task.isNone && x.resident.isNone && ((x.svc == .service && !x.zeroing) || (pre && (x.svc == .held || x.svc == .scanning)))

/-- Free team slots of a die. -/
def freeSlots (s : State) (d : Nat) : Nat := 32 - (s.team.filter fun e => e.2.die == d && !e.2.ended && e.2.suspended.isNone).length

/-- The first n cores of a die, in the order of its map, that qualify for a mask, where the die has them and a slot. -/
def qualify (s : State) (pre : Bool) (m : Word) (n d : Nat) : Option (List Nat) :=
  let ps := (mapCores s d).filter fun p => coreFree s pre p && maskFits m (s.co p).capmask
  if 0 < freeSlots s d ∧ n ≤ ps.length then some (ps.take n) else none

/-- A suspended team has a placement on its own die. -/
def fitsHome (s : State) (t : Team) : Bool := (qualify s false t.mask t.size t.die).isSome

/-- Every team of a group of teams is suspended, and of a LIVE context (R389). -/
def groupAsleep (s : State) (g : List Nat) : Bool :=
  g.all fun t => match s.tm t with | some x => x.suspended.isSome && ctxLive s x.ctx.toNat | none => false

/-- A suspended team can resume now on a die, ahead of a new dispatch from queue q to it; a team that has yielded to q does not count
(R297). -/
def dieAwaited (s : State) (q d : Nat) : Bool :=
  s.team.any fun e => e.2.die == d && e.2.suspended.isSome && e.2.yieldTo != some q && groupAsleep s (teamGroup s e.1) &&
    (teamGroup s e.1).all fun t => match s.tm t with | some x => fitsHome s x | none => false

/-- The dies that qualify for n tasks of a mask dispatched from queue q, with the cores each gives. -/
def placeDies (s : State) (q : Nat) (pre : Bool) (m : Word) (n : Nat) : List (Nat × List Nat) :=
  (List.range 8).filterMap fun d => if dieAwaited s q d then none else (qualify s pre m n d).map fun ps => (d, ps)

/-- The die with the most free slots, the lowest on a tie. -/
def bestDie (s : State) : List (Nat × List Nat) → Option (Nat × List Nat)
  | [] => none
  | e :: es =>
    match bestDie s es with
    | none => some e
    | some f => if freeSlots s e.1 < freeSlots s f.1 then some f else some e

/-- A core's place in its die's logical core map. -/
def mapPlace (s : State) (p : Nat) : Nat := (mapEntry s p).getD 256

/-- Put a core in its place among cores in map order. -/
def insCore (s : State) (p : Nat) : List Nat → List Nat
  | [] => [p]
  | q :: qs => if mapPlace s p ≤ mapPlace s q then p :: q :: qs else q :: insCore s p qs

/-- The resident cores that a work item with RESEN names, in the order of their die's logical core map (R236, R286). -/
def itemResidents (s : State) (w : BitVec 512) : List Nat :=
  (((s.cx (itemCtx w)).residents.drop (itemRes w)).take (itemTasks w)).foldr (insCore s) []

/-- PRE. -/
def queuePre (s : State) (q : Nat) : Bool := bitsOf (queueWord s q 0) 62 62 == 1

/-- The placement of resident cores. -/
def placeResident (s : State) (q : Nat) (w : BitVec 512) : Option (List (Nat × List Nat)) :=
  let ps := itemResidents s w
  let d := ps.headD 0 / 288
  let ok := ps.all fun p => (s.co p).task.isNone && !(s.co p).zeroing && (s.co p).svc == .service
  if ok && decide (0 < freeSlots s d) && !dieAwaited s q d then some [(d, ps)] else none

/-- A placement of a work item, by team: the die and the cores by logical number. -/
def placeItem (s : State) (q : Nat) (w : BitVec 512) (m : Word) : Option (List (Nat × List Nat)) :=
  if itemResen w then placeResident s q w
  else
    let ds := placeDies s q (queuePre s q) m (itemTasks w)
    if itemTeams w = 1 then (bestDie s ds).map fun e => [e]
    else if itemTeams w ≤ ds.length then some (ds.take (itemTeams w)) else none

/-- A die could ever take n tasks of a mask: so many cores of its map have the classes, or it has still to start. -/
def dieEver (s : State) (m : Word) (n d : Nat) : Bool :=
  (s.di d).startAt.isNone || decide (n ≤ ((mapCores s d).filter fun p => maskFits m (s.co p).capmask).length)

/-- No placement can ever satisfy a work item (R292, R293). -/
def neverFits (s : State) (w : BitVec 512) (m : Word) : Bool :=
  if itemResen w then
    let ps := itemResidents s w
    !(ps.all fun p => maskFits m (s.co p).capmask && p / 288 == ps.headD 0 / 288)
  else decide (((List.range 8).filter (dieEver s m (itemTasks w))).length < itemTeams w)

/-! ### Gates and lending (R288, R290) -/

/-- GKIND. -/
def gateKind (s : State) (q : Nat) : Nat := bitsOf (queueWord s q 0) 61 60
/-- The gate milestone. -/
def gateMs (s : State) (q : Nat) : Nat := bitsOf (queueWord s q 0) 35 16
/-- The gate conversation. -/
def gateConv (s : State) (q : Nat) : Nat := bitsOf (queueWord s q 0) 31 16

/-- A queue is blocked (R288, R371). -/
def queueBlocked (s : State) (q : Nat) : Bool :=
  if gateKind s q = 1 then decide (rdN s.mem (msKey (gateMs s q)) 8 < rdN s.mem (msKey (gateMs s q) + 8) 8)
  else if gateKind s q = 2 then
    let n := gateConv s q
    if convLife s n = 0 then true
    else if convLife s n = 1 then (match convTurn s n with | some r => !roleHeld s n r q | none => true)
    else false
  else false

/-- The queue that a blocked queue lends to. -/
def lendTarget (s : State) (q : Nat) : Option Nat :=
  if !queueBlocked s q then none
  else if gateKind s q = 1 then some (bitsOf (queueWord s q 0) 53 44)
  else
    (convTurn s (gateConv s q)).bind fun r =>
      let w := roleWord s (gateConv s q) r
      if roleAs w && !roleRm w then some (roleQueue w) else none

/-- Following targets from queue x comes back to q over no lower number, fuel k: q is the lowest of a cycle. -/
def lowestOfCycle (s : State) (q : Nat) : Nat → Nat → Bool
  | 0, _ => false
  | k + 1, x =>
    match lendTarget s x with
    | none => false
    | some y => y == q || (decide (q < y) && lowestOfCycle s q k y)

/-- One lending step; the step out of the lowest queue of a cycle is disregarded. -/
def lendStep (s : State) (q : Nat) : Option Nat := if lowestOfCycle s q 1024 q then none else lendTarget s q

/-- The runnable queue that takes what queue q lends, after k hops at most. -/
def lendTo (s : State) (run : List Nat) : Nat → Nat → Option Nat
  | 0, _ => none
  | k + 1, q =>
    match lendStep s q with
    | none => none
    | some t => if !queueValid s t then none else if run.contains t then some t else lendTo s run k t

/-! ### The choice (R288, R289) -/

/-- The head of a queue. -/
def queueHead (s : State) (q : Nat) : Option PoolItem := (queueItems s q).head?

/-- What the dispatcher read of a head. -/
def PoolItem.read (i : PoolItem) : HeadRead := i.head.getD ⟨0, 0⟩

/-- A head can never be dispatched: it fails the checks of R285, or no placement can ever satisfy it. -/
def headHopeless (s : State) (i : PoolItem) : Bool := i.read.status != 0 || neverFits s i.item (kdUse i.read.kdesc)

/-- A queue is runnable. -/
def runnable (s : State) (q : Nat) : Bool :=
  match queueHead s q with
  | none => false
  | some i =>
    ctxLive s (itemCtx i.item) &&
    (itemLate s i.item || headHopeless s i || (!queueBlocked s q && (placeItem s q i.item (kdUse i.read.kdesc)).isSome))

/-- The queues with work items waiting. -/
def busyQueues (s : State) : List Nat := (s.pool.map fun i => itemQueue i.item).eraseDups

/-- The runnable queues. -/
def runnables (s : State) : List Nat := (busyQueues s).filter (runnable s)

/-- E(q): its own tickets and what blocked queues lend. -/
def effTickets (s : State) (run : List Nat) (q : Nat) : Nat :=
  tickets s q + ((((busyQueues s).filter fun b => queueBlocked s b && lendTo s run 4 b == some q).map (tickets s)).sum)

/-- A queue precedes another: the lower PASS, the lower number on a tie. -/
def queueBefore (s : State) (q r : Nat) : Bool := decide (queuePass s q < queuePass s r) || (queuePass s q == queuePass s r && decide (q ≤ r))

/-- The queue that is first of a list. -/
def firstQueue (s : State) : List Nat → Option Nat
  | [] => none
  | q :: qs =>
    match firstQueue s qs with
    | none => some q
    | some r => if queueBefore s q r then some q else some r

/-- Queues that were not runnable at the last dispatch come up to VT. -/
def wake (s : State) (run : List Nat) : State :=
  run.foldl (fun s q => if s.ran.contains q then s else s.put64 (queueKey q 1) (max (queuePass s q) s.vt)) s

/-- A work item leaves the pool. -/
def dropHead (q : Nat) : List PoolItem → List PoolItem
  | [] => []
  | i :: is => if itemQueue i.item = q then is else i :: dropHead q is

/-- The head of a queue leaves it: DEPTH follows, spilled items come back, the new head is read (R285, R301). -/
def popQueue (s : State) (q : Nat) : State := refillAll (refreshHeads (syncDepth { s with pool := dropHead q s.pool } q))

/-! ### Launch (R286) -/

/-- A core is claimed for a task: a scan is aborted, a HELD core comes into SERVICE, and the core is zeroed where the rules say so. -/
def claimCore (s : State) (c p : Nat) (fresh : Bool) : State :=
  let x := s.co p
  let pre := x.svc != .service
  let keep := !fresh && !pre && (x.resident == some (BitVec.ofNat 6 c) || x.owner == some (BitVec.ofNat 6 c))
  let s := if keep then s else zeroCore s p
  noteUp <| s.upCo p fun y =>
    { y with
      scanRes := if x.svc = .scanning then 4 else y.scanRes, svc := .service, zeroing := false, preClaim := pre, owner := some (BitVec.ofNat 6 c),
      sems := [], vstatus := 0, nseen := false, cqstat := 0, redstat := 0, mcfg := 0, icache := [], rolls := 0, ckpt := none, trigs := [], undone := [] }

/-- The ring of a queue at launch. -/
def launchRing (k : BitVec 1024) (q : Nat) : Queue :=
  { Queue.reset with base := BitVec.ofNat 22 (kdRing k q).1, count := BitVec.ofNat 13 (kdRing k q).2 }

/-- The scalar stream at a task's first instruction (R37). -/
def taskScalar (c : Nat) (k : BitVec 1024) : Scalar :=
  { Scalar.reset with
    run := .running, ctx := BitVec.ofNat 6 c, pc := align8 (BitVec.ofNat 64 (kdWord k 0 + kdWord k 1)), regs := [(62, 0x40_0000#64)], fresh := true }

/-- The bytes that launch copies to a scratchpad, or the fault that reading them raises: its cause, DETAIL and address. -/
def copyIn (s : State) (c p at' ea n : Nat) : Except HomeFail State :=
  match globalRead 0xFFFF c (lineFuel n) ea n s with
  | .error e => .error ⟨e.1, detailOf e.1, e.2, s⟩
  | .ok (v, bad, s) => if bad then .error ⟨0x22, 1, ea, s⟩ else .ok (s.putStore (spKey p at') n v)

/-- The argument block and the image. -/
def copyArgs (s : State) (c p args : Nat) (k : BitVec 1024) : Except HomeFail State :=
  match copyIn s c p 0 args 256 with
  | .error e => .error e
  | .ok s => copyIn s c p 0x100 (kdWord k 3) (kdWord k 4)

/-- Task l of a team is launched on core p; where a byte that launch copies cannot be read the context faults and the task does not
start. -/
def launchTask (s : State) (tid l p c args : Nat) (k : BitVec 1024) : State :=
  let s := claimCore s c p false
  let s := s.upCo p fun x => { x with task := some ⟨tid, l⟩, vq := launchRing k 0, mq := launchRing k 1, cq := launchRing k 2 }
  let s := s.putSc p (taskScalar c k)
  match copyArgs s c p args k with
  | .error e => (e.st.memFault c (e.addr / 2 ^ 56) 0xFFF e.cause e.detail (BitVec.ofNat 64 e.addr)).putSc p { s.sc p with run := .suspended }
  | .ok s => if hasPhases s p then takeCheckpoint s p (s.sc p).pc else s

/-- Launch the tasks of a team in the order of its cores. -/
def launchTasks (tid c args : Nat) (k : BitVec 1024) : Nat → List Nat → State → State
  | _, [], s => s
  | l, p :: ps, s => launchTasks tid c args k (l + 1) ps (launchTask s tid l p c args k)

/-- A team before its first step. -/
def freshTeam (w : BitVec 512) (k : BitVec 1024) (q d : Nat) (ps : List Nat) (caravan : Option Nat) (i : Nat) : Team :=
  { ctx := BitVec.ofNat 6 (itemCtx w), die := d, queue := q, item := w, kdesc := k, size := itemTasks w, cores := ps, mask := kdUse k,
    resen := itemResen w, caravan := caravan, cidx := i, cteams := itemTeams w, done := 0, arrived := [], ssnum := 0, yield := none,
    yieldTo := none, refit := false, suspended := none, saving := none, slots := [], kept := [], ended := false }

/-- Form and launch the teams of a work item. -/
def launchTeams (w : BitVec 512) (k : BitVec 1024) (q : Nat) (caravan : Option Nat) : Nat → List (Nat × List Nat) → State → State
  | _, [], s => s
  | i, e :: es, s =>
    let tid := s.teamNo
    let s := ({ s with teamNo := tid + 1 }).putTm tid (freshTeam w k q e.1 e.2 caravan i)
    launchTeams w k q caravan (i + 1) es (launchTasks tid (itemCtx w) (itemWord w 2) k 0 e.2 s)

/-- A team that yielded to a queue no longer waits for it. -/
def yielded (s : State) (q : Nat) : State :=
  { s with team := s.team.map fun e => (e.1, if e.2.yieldTo = some q ∧ e.2.suspended.isSome then { e.2 with yieldTo := none } else e.2) }

/-- The chosen queue's head is placed: VT, PASS and DISP advance, its teams start. -/
def dispatchItem (s : State) (run : List Nat) (q : Nat) (i : PoolItem) (pl : List (Nat × List Nat)) : State :=
  let e := effTickets s run q
  let p := queuePass s q
  let s := { s.put64 (queueKey q 1) ((p + max 1 (2 ^ 20 / e)) % 2 ^ 64) with vt := p }
  let d := queueWord s q 2
  let s := s.put64 (queueKey q 2) ((d / 2 ^ 32 + 1) % 2 ^ 32 * 2 ^ 32 + d % 2 ^ 32)
  let s := launchTeams i.item i.read.kdesc q (if itemTeams i.item = 1 then none else some s.teamNo) 0 pl s
  yielded (popQueue s q) q

/-- A head completes with a status and is not placed. -/
def discardHead (s : State) (q : Nat) (i : PoolItem) (st : Nat) : State := popQueue { s with ended := s.ended ++ [(i.item, st)] } q

/-- Choose until a work item is placed or no queue is runnable, fuel k. -/
def choose : Nat → State → State
  | 0, s => s
  | k + 1, s =>
    let run := runnables s
    let s := wake s run
    match firstQueue s run with
    | none => { s with ran := run }
    | some q =>
      match queueHead s q with
      | none => { s with ran := run }
      | some i =>
        if itemLate s i.item then choose k (discardHead { s with ran := run } q i 1)
        else if i.read.status ≠ 0 then choose k (discardHead { s with ran := run } q i i.read.status)
        else if neverFits s i.item (kdUse i.read.kdesc) then choose k (discardHead { s with ran := run } q i 3)
        else
          match placeItem s q i.item (kdUse i.read.kdesc) with
          | none => { s with ran := run }
          | some pl => let s := dispatchItem { s with ran := run } run q i pl; { s with ran := (runnables s).filter run.contains }

/-! ### The request to yield (R297, R392) -/

/-- Save slots of a context that saved tasks hold. -/
def slotsUsed (s : State) (c : Nat) : List Nat := (s.team.filter fun e => e.2.ctx.toNat == c).flatMap fun e => e.2.slots.map (·.2)

/-- NSAVE. -/
def nsave (s : State) (c : Nat) : Nat := bitsOf (ctxWord s c 4) 63 48

/-- The free save slots of a context. -/
def freeSaves (s : State) (c : Nat) : List Nat := let u := slotsUsed s c; (List.range (nsave s c)).filter fun k => !u.contains k

/-- The tasks of a team that have not executed DONE, by logical number. -/
def Team.live (t : Team) : List Nat := (List.range t.size).filter fun l => !t.done.getLsbD l

/-- Tasks of a group that have not executed DONE. -/
def groupTasks (s : State) (g : List Nat) : Nat := (g.map fun t => match s.tm t with | some x => x.live.length | none => 0).sum

/-- Save slots of a context that teams outside a group are to take: of teams asked to yield or being saved (R392). -/
def promisedSaves (s : State) (c : Nat) (g : List Nat) : Nat :=
  ((s.team.filter fun e => e.2.ctx.toNat == c && (e.2.yield.isSome || e.2.saving.isSome) && e.2.suspended.isNone && !g.contains e.1).map fun e =>
    e.2.live.length).sum

/-- A group may be asked to yield: it runs, its queue has no PRE, it is not RESEN, and enough save slots are free that no other team is to
take. -/
def mayYield (s : State) (g : List Nat) : Bool :=
  !g.isEmpty &&
  (g.all fun t => match s.tm t with
    | some x => !queuePre s x.queue && !x.resen && x.yield.isNone && x.suspended.isNone && x.saving.isNone && !x.ended && ctxLive s x.ctx.toNat &&
        decide (groupTasks s g + promisedSaves s x.ctx.toNat g ≤ (freeSaves s x.ctx.toNat).length)
    | none => false)

/-- The machine without a group of teams on its cores. -/
def without (s : State) (g : List Nat) : State :=
  let ps := g.flatMap fun t => match s.tm t with | some x => x.cores | none => []
  { s with team := s.team.filter (fun e => !g.contains e.1),
           core := s.core.map fun e => if ps.contains e.1 then (e.1, { e.2 with task := none }) else e }

/-- The better of two teams to ask: the higher PASS of the queue, then the higher queue number. -/
def askBefore (s : State) (a b : Team) : Bool := !queueBefore s a.queue b.queue || a.queue == b.queue

/-- The best of the teams that may be asked so that a head can be placed. -/
def pickYield (s : State) (q : Nat) (i : PoolItem) : List (Nat × Team) → Option (Nat × Team)
  | [] => none
  | e :: es =>
    let r := pickYield s q i es
    let g := teamGroup s e.1
    if mayYield s g && (placeItem (without s g) q i.item (kdUse i.read.kdesc)).isSome then
      match r with
      | none => some e
      | some f => if askBefore s e.2 f.2 then some e else some f
    else r

/-- A queue with PRE is runnable except for a placement. -/
def wantsYield (s : State) (q : Nat) : Bool :=
  queuePre s q && !(s.team.any fun e => e.2.yieldTo == some q) &&
  (match queueHead s q with
   | none => false
   | some i => ctxLive s (itemCtx i.item) && !itemLate s i.item && !headHopeless s i && !queueBlocked s q &&
       (placeItem s q i.item (kdUse i.read.kdesc)).isNone)

/-- The dispatcher asks one team, with its caravan, to yield for a queue. -/
def askYield (s : State) (q : Nat) : State :=
  match queueHead s q with
  | none => s
  | some i =>
    match pickYield s q i s.team with
    | none => s
    | some e => (teamGroup s e.1).foldl (fun s t => s.upTm t fun x => { x with yield := some s.ns, yieldTo := some q }) s

/-- Requests to yield for every queue with PRE that waits for a placement. -/
def askYields (s : State) : State := ((busyQueues s).filter (wantsYield s)).foldl (fun s q => if wantsYield s q then askYield s q else s) s

/-- DISPATCH: the dispatcher chooses the runnable queue with the lowest PASS and dispatches its head work item (R289); spilled work items
return first (R301), and queues with PRE ask for room (R297). -/
def execDispatch (s : State) : Out :=
  .next (let s := refreshHeads (refillAll s); askYields (choose (s.pool.length + 1) s))

end Sys2Proof.Machine
end

