-- ==== Sys2Proof/Machine/Save.lean ====
section
/-! DEFINITION. The save engine: what stops a team, its save images, suspension, restore and moves (R292 to R298, R333, R392 to R397, R402,
R403). -/
namespace Sys2Proof.Machine

/-! ### Runs of the save pool -/

/-- The listed bytes from lo up to hi, their keys moved to a new origin. -/
def cellsOf (m : Memory) (lo hi at' : Nat) : Memory := (m.filter fun e => decide (lo ≤ e.1) && decide (e.1 < hi)).map fun e => (e.1 - lo + at', e.2)

/-- The bytes from lo up to hi become those of a list of cells that lie there in canonical form. -/
def putCells (m : Memory) (lo hi : Nat) (cells : Memory) : Memory :=
  (m.filter fun e => decide (e.1 < lo)) ++ cells ++ m.filter fun e => decide (hi ≤ e.1)

/-- Write the cells of one 64 KiB unit, or of a part of it from offset o on for n bytes, of a context's address space; the cells' keys
count from the address. Lines of sync objects stay (R315); a line that is written in part and is uncorrectable fails (R414). -/
def putUnit (s : State) (c ea n : Nat) (cells : Memory) : Except HomeFail State :=
  match resolve s 0xFFFF c ea 2 with
  | .error e => .error ⟨e, detailOf e, ea, noteXlat s 0xFFFF c ea 2⟩
  | .ok k =>
    let s := noteXlat s 0xFFFF c ea 2
    if k % 64 ≠ 0 ∧ lineUncorrectable s k then .error ⟨0x22, 1, ea, noteRead s k⟩
    else if (k + n) % 64 ≠ 0 ∧ lineUncorrectable s (k + n - 1) then .error ⟨0x22, 1, ea + n - 1, noteRead s (k + n - 1)⟩
    else
      let s := if k % 64 ≠ 0 then noteRead s k else s
      let s := if (k + n) % 64 ≠ 0 ∧ (k + n - 1) / 64 ≠ k / 64 then noteRead s (k + n - 1) else s
      let s := noteRange s k (k + n)
      let m := putCells s.mem k (k + n) (cells.map fun e => (e.1 + k, e.2))
      let objs := (objHomes s).filter fun l => decide (k < l + 64) && decide (l < k + n)
      .ok { s with mem := objs.foldl (fun m l => wrN m l 64 (rdN s.mem l 64)) m,
                   ecc := s.ecc.filter fun e => !(decide (k < e.1 + 64) && decide (e.1 < k + n)) }

/-- Write n bytes at a global address given as cells that count from it, unit by unit, fuel k. -/
def putRange (c : Nat) : Nat → Nat → Nat → Memory → State → Except HomeFail State
  | 0, _, _, _, s => .ok s
  | k + 1, ea, n, cells, s =>
    if n = 0 then .ok s
    else
      let m := min n (65536 - ea % 65536)
      match putUnit s c ea m (cells.filter fun e => decide (e.1 < m)) with
      | .error e => .error e
      | .ok s => putRange c k (ea + m) (n - m) ((cells.filter fun e => decide (m ≤ e.1)).map fun e => (e.1 - m, e.2)) s

/-- Some line from key lo up to hi is uncorrectable. -/
def rangeBad (s : State) (lo hi : Nat) : Bool := s.ecc.any fun e => decide (lo < e.1 + 64) && decide (e.1 < hi) && lineUncorrectable s e.1

/-- Read n bytes at a global address as cells that count from it, unit by unit, fuel k; a poisoned line is an error (R414). -/
def getRange (c : Nat) : Nat → Nat → Nat → Nat → State → Except HomeFail (Memory × State)
  | 0, _, _, _, s => .ok ([], s)
  | k + 1, ea, n, at', s =>
    if n = 0 then .ok ([], s)
    else
      let m := min n (65536 - ea % 65536)
      match resolve s 0xFFFF c ea 4 with
      | .error e => .error ⟨e, detailOf e, ea, noteXlat s 0xFFFF c ea 4⟩
      | .ok key =>
        let s := noteReads (noteXlat s 0xFFFF c ea 4) key (key + m)
        if rangeBad s key (key + m) then .error ⟨0x22, 1, ea, s⟩
        else
          match getRange c k (ea + m) (n - m) (at' + m) s with
          | .error e => .error e
          | .ok (r, s') => .ok (cellsOf s.mem key (key + m) at' ++ r, s')

/-- Units that a run of n bytes may meet. -/
def unitFuel (n : Nat) : Nat := n / 65536 + 2

/-! ### What a save names (Table 6.10) -/

/-- The scalar registers, vector registers and scratchpad ranges that a save writes; full, or as a liveness descriptor names them. -/
structure Live where
  full  : Bool
  slive : BitVec 64
  vlive : BitVec 384
  /-- Base and length. -/
  spans : List (Nat × Nat)
  /-- The descriptor's 128 bytes, zero for a full save. -/
  desc  : Nat
deriving DecidableEq, Repr

/-- A full save. -/
def Live.all : Live := { full := true, slive := ~~~0#64, vlive := ~~~0#384, spans := [(0, 0x40_0000)], desc := 0 }

/-- The ranges of a descriptor. -/
def descSpans (v : Nat) : List (Nat × Nat) :=
  ([8, 9, 10, 11].map fun j => (blockWord v j % 2 ^ 32, bitsOf (blockWord v j) 63 32)).filter fun e => e.2 != 0

/-- A descriptor obeys Table 6.10. DESIGN CHOICE (log entry 112): a range of length 0 is unused whatever its BASE. -/
def descOk (v : Nat) : Bool :=
  [7, 12, 13, 14, 15].all (fun j => blockWord v j == 0) &&
  (descSpans v).all fun e => e.1 % 64 == 0 && e.2 % 64 == 0 && decide (e.1 + e.2 ≤ 0x40_0000)

/-- What the save of a core's task names: a task that stands at its PHINT is saved as its descriptor says, every other in full (R107, R393). A
descriptor with an uncorrectable word counts as one that breaks its rule (DESIGN CHOICE, log entry 95). -/
def liveOf (s : State) (p : Nat) : Live :=
  match (s.sc p).run with
  | .waiting (.yield ea) =>
    let v := rdN s.mem (spKey p ea.toNat) 128
    if !descOk v || spBad s p ea.toNat 128 then .all
    else { full := false, slive := BitVec.ofNat 64 (blockWord v 0), vlive := BitVec.ofNat 384 (v / 2 ^ 64), spans := descSpans v, desc := v }
  | _ => .all

/-- The ring slots from HEAD to TAIL − 1 of a queue, as scratchpad ranges. -/
def ringSpans (q : Queue) : List (Nat × Nat) := (List.range q.fillLevel).map fun i => (q.slot (q.head + BitVec.ofNat 32 i), 64)

/-- Every scratchpad range that a task's image holds. -/
def imageSpans (s : State) (p : Nat) (l : Live) : List (Nat × Nat) :=
  let x := s.co p
  if l.full then [(0, 0x40_0000)] else l.spans ++ ringSpans x.vq ++ ringSpans x.mq ++ ringSpans x.cq

/-- The save engine reads scratchpad ranges: single errors in them are corrected (R77, R417). -/
def spFixSpans (s : State) (p : Nat) (spans : List (Nat × Nat)) : State :=
  (s.ecc.filter fun e => spans.any fun r => decide (spKey p r.1 ≤ e.1) && decide (e.1 < spKey p (r.1 + r.2))).foldl (fun s e => fixWord p s e.1) s

/-- The liveness descriptor of a task that stands at its PHINT, as a scratchpad range. -/
def descSpan (s : State) (p : Nat) : List (Nat × Nat) := match (s.sc p).run with | .waiting (.yield ea) => [(ea.toNat, 128)] | _ => []

/-! ### The image (Table 23.6) -/

/-- n bytes of a number as cells at an offset. -/
def numCells (at' n v : Nat) : Memory := wrN [] at' n v

/-- Cells of a list of (offset, bytes, value). -/
def partCells (ps : List (Nat × Nat × Nat)) : Memory := ps.foldl (fun m e => wrN m e.1 e.2.1 e.2.2) []

/-- The control registers that an image holds: those of Table 6.1 up to 0x0FF, but for those that R397 leaves unrestored. -/
def savedCregs : List Nat :=
  [0x000, 0x001, 0x002, 0x003, 0x004, 0x005, 0x008, 0x009, 0x00A, 0x00B, 0x010, 0x011, 0x012, 0x013, 0x014, 0x015, 0x024, 0x026, 0x030, 0x031,
   0x032, 0x033] ++ ((List.range 12).map fun i => 0x040 + i) ++ ((List.range 16).map fun i => 0x050 + i) ++ [0x060, 0x061, 0x062, 0x063, 0x064]

/-- The block of an entry is written (R120). -/
def blockWritten (x : Core) (e : Nat) : Bool := x.written.getLsbD (accBlock e)

/-- The first entries of the 32 rows of block b, of 64 entries each (R120). -/
def blockRows (b : Nat) : List Nat := (List.range 32).map fun i => (32 * (b / 8) + i) * 512 + 64 * (b % 8)

/-- Entry e of the accumulator is saved: its block is written, or its group is parked (R394). -/
def accSaved (x : Core) (e : Nat) : Bool := blockWritten x e || (tget x.spill (e / 32) 0).getLsbD 8

/-- The always-saved words at the front of an image. -/
def headParts (s : State) (p lcore : Nat) (l : Live) : List (Nat × Nat × Nat) :=
  let x := s.sc p
  let y := s.co p
  [ (0, 8, (if l.full then 2 ^ 62 else 0) + x.ctx.toNat * 2 ^ 56 + lcore % 256 * 2 ^ 48), (8, 8, x.pc.toNat), (0x10, 8, s.ns),
    (0x18, 8, x.preds.toNat ||| 1), (0x20, 8, y.vq.head.toNat), (0x28, 8, y.vq.begun), (0x30, 8, y.mq.head.toNat), (0x38, 8, y.mq.begun),
    (0x40, 8, y.cq.head.toNat), (0x48, 8, y.cq.begun), (0x50, 8, y.joinNo.toNat), (0x58, 8, y.written.toNat), (0x80, 128, l.desc),
    (0x100, 64, y.mcfg.toNat), (0x180, 16, 2 ^ 128 - 1) ]

/-- The tables of an image's first 64 KiB. -/
def tableParts (s : State) (p : Nat) : List (Nat × Nat × Nat) :=
  let y := s.co p
  (y.btags.map fun e => (0x140 + e.1, 1, e.2.toNat)) ++ (y.masks.map fun e => (0x180 + 16 * e.1, 16, e.2.toNat)) ++
  (y.sems.flatMap fun e => [(0x200 + 16 * e.1, 8, e.2.pend.toNat + e.2.done.toNat * 2 ^ 32), (0x208 + 16 * e.1, 8, if e.2.err then 1 else 0)]) ++
  (savedCregs.map fun n => (0x800 + 8 * n, 8, (readCreg s p n).toNat)) ++ (y.vtags.map fun e => (0x2000 + e.1, 1, e.2.toNat)) ++
  (y.spill.map fun e => (0x4000 + 2 * e.1, 2, e.2.toNat))

/-- The scalar registers of an image. -/
def regParts (x : Scalar) (l : Live) : List (Nat × Nat × Nat) :=
  ((List.range 64).filter fun i => l.slive.getLsbD i).map fun i => (8 * i, 8, (x.reg (BitVec.ofNat 6 i)).toNat)

/-- Write the parts of an image other than the scratchpad: each region from its first offset, its length, its cells. -/
def imageRegions (s : State) (p lcore : Nat) (l : Live) : List (Nat × Nat × Memory) :=
  let x := s.sc p
  let y := s.co p
  [ (0, 0x1000, partCells (headParts s p lcore l ++ (tableParts s p).filter fun e => decide (e.1 < 0x1000))) ] ++
  (if l.full then [(0x1000, 0x200, partCells (regParts x l))]
   else (regParts x l).map fun e => (0x1000 + e.1, 8, numCells 0 8 e.2.2)) ++
  [ (0x1200, 0xEE00, partCells (((tableParts s p).filter fun e => decide (0x1000 ≤ e.1)).map fun e => (e.1 - 0x1200, e.2.1, e.2.2))) ] ++
  (((List.range 384).filter fun i => l.vlive.getLsbD i).map fun i => (0x1_0000 + 128 * i, 128, numCells 0 128 (tget y.vregs i 0).toNat)) ++
  [ (0x1_C000, 0x4000, []) ] ++
  ((((List.range 64).filter fun b => y.written.getLsbD b).flatMap blockRows).map fun o =>
    (0x2_0000 + 4 * o, 256, partCells ((y.acc.filter fun e => decide (o ≤ e.1) && decide (e.1 < o + 64)).map fun e => (4 * (e.1 - o), 4, e.2.toNat)))) ++
  ((y.spill.filter fun e => e.2.getLsbD 8 && !blockWritten y (32 * e.1)).map fun g =>
    (0x2_0000 + 128 * g.1, 128, partCells ((y.acc.filter fun e => e.1 / 32 == g.1).map fun e => (4 * (e.1 % 32), 4, e.2.toNat)))) ++
  [ (0xA_0000, 0x6_0000, []), (0x50_0000, 0x30_0000, []) ]

/-- The scratchpad regions of an image. -/
def imageScratch (s : State) (p : Nat) (l : Live) : List (Nat × Nat × Memory) :=
  (imageSpans s p l).map fun e => (0x10_0000 + e.1, e.2, cellsOf s.mem (spKey p e.1) (spKey p (e.1 + e.2)) 0)

/-- Write regions of an image at an address. -/
def putRegions (c at' : Nat) : List (Nat × Nat × Memory) → State → Except HomeFail State
  | [], s => .ok s
  | r :: rs, s =>
    match putRange c (unitFuel r.2.1) (at' + r.1) r.2.1 r.2.2 s with
    | .error e => .error e
    | .ok s => putRegions c at' rs s

/-- SAVEBASE. -/
def saveBase (s : State) (c : Nat) : Nat := ctxWord s c 3
/-- The address of a save slot. -/
def slotAddr (s : State) (c k : Nat) : Nat := (saveBase s c + 0x80_0000 * k) % 2 ^ 64

/-- A matrix record as it is saved (R172). -/
def savedMatrix (s : State) (p : Nat) (f : Flight) : Flight :=
  let r := splitRec f.words
  f.saved p (hdrOp f.hdr) (r.phase && (s.co p).mq.ph.contains f.slot) r s

/-- What the device keeps of a task beside its image (log entry 32). -/
def besideImage (s : State) (p lcore : Nat) : Kept :=
  let x := s.co p
  { lcore := lcore, wd := (s.sc p).stopAt - (s.sc p).wd, ckpt := x.ckpt, rolls := x.rolls, trigs := x.trigs, undone := x.undone, rolling := x.rolling,
    rerun := x.rerun, ph := [x.vq.ph, x.mq.ph, x.cq.ph], fences := [x.vq.fences, x.mq.fences, x.cq.fences],
    flights := [x.vq.flight, x.mq.flight.map (savedMatrix s p), x.cq.flight] }

/-- Save the task of a core, VALID last (R395). -/
def saveTask (s : State) (p lcore k : Nat) : Except HomeFail State :=
  let c := (s.sc p).ctx.toNat
  let l := liveOf s p
  let at' := slotAddr s c k
  let s := spFixSpans s p (descSpan s p ++ imageSpans s p l)
  match putRegions c at' (imageRegions s p lcore l ++ imageScratch s p l) s with
  | .error e => .error e
  | .ok s' =>
    let w0 := 2 ^ 63 + (if l.full then 2 ^ 62 else 0) + c * 2 ^ 56 + lcore % 256 * 2 ^ 48
    globalWrite 0xFFFF c 2 at' 8 w0 s'

/-! ### TEAM_SAVE -/

/-- A task of a team has stopped for the save. -/
def taskStopped (s : State) (t : Team) (l : Nat) : Bool :=
  t.done.getLsbD l ||
  (match t.cores[l]? with
   | some p => (match (s.sc p).run with | .suspended => true | .waiting (.yield _) => true | _ => false)
   | none => true)

/-- Every task of a team that has not executed DONE has stopped. -/
def teamStopped (s : State) (t : Team) : Bool := (List.range t.size).all (taskStopped s t)

/-- The core of a live task. -/
def liveCores (t : Team) : List (Nat × Nat) := t.live.filterMap fun l => (t.cores[l]?).map fun p => (l, p)

/-- PREEMPT_LIMIT in ns. -/
def preemptNs (s : State) (c : Nat) : Nat := let v := bitsOf (ctxWord s c 4) 47 32; (if v = 0 then 50 else v) * 1000

/-- PREEMPT_LIMIT_EXPIRE: the tasks of the subject team that have not stopped for its yield request are stopped, and saved in full
(R393). -/
def execPreemptLimitExpire (s : State) : Out :=
  .next <|
    match s.tm s.cur with
    | none => s
    | some t =>
      match t.yield with
      | none => s
      | some t0 =>
        if s.ns < t0 + preemptNs s t.ctx.toNat then s
        else
          let ps := (liveCores t).filter fun e => !taskStopped s t e.1
          s.stopCores .suspended (ps.map (·.2))

/-- The save of a team may begin: it was asked to yield and its tasks have stopped. -/
def mayBegin (s : State) (t : Team) : Bool := t.yield.isSome && teamStopped s t

/-- The engines of a team's cores stop, and the save engine takes over. -/
def beginSave (s : State) (tid : Nat) : State :=
  match s.tm tid with
  | none => s
  | some t =>
    if t.saving.isSome then s
    else
      let s := t.cores.foldl (fun s p => stopGrant (s.upCo p fun x => x.stopEngines true) p) s
      s.putTm tid { t with saving := some (t.yield.getD s.ns), yield := none }

/-- An engine has come to rest: at an issue or step boundary, every issue that it has begun finished (R395 step 2). -/
def Queue.atRest (q : Queue) : Bool := !q.inStep && q.flight.all fun f => !f.made && decide (f.pend = 1)

/-- A task's fills have arrived, its engines have come to rest and nothing of a rollback is left (R395 steps 1 and 2). -/
def taskQuiet (s : State) (p : Nat) : Bool :=
  let x := s.co p
  (s.sc p).fills.isEmpty && [x.vq, x.mq, x.cq].all Queue.atRest && !x.rolling

/-- Every task of a team is quiet. -/
def teamQuiet (s : State) (t : Team) : Bool := (liveCores t).all fun e => taskQuiet s e.2
/-- Every dirty line of a team's tasks has been written back. -/
def teamDrained (s : State) (t : Team) : Bool := (liveCores t).all fun e => (s.sc e.2).drained

/-- Teams of a group. -/
def groupTeams (s : State) (g : List Nat) : List Team := g.filterMap (s.tm ·)

/-- No die, or for a caravan not enough dies, could ever take the teams of a group, or it is a RESEN team that a fence has suspended (R296). -/
def groupHopeless (s : State) (g : List Nat) : Bool :=
  let ts := groupTeams s g
  ts.any (fun t => t.resen && t.refit) ||
  ts.any (fun t => decide (((List.range 8).filter fun d => dieEver s t.mask t.size d).length < ts.length))

/-- The tasks of a group are discarded, and its work item completes UNPLACEABLE (R296). -/
def discardGroup (s : State) (g : List Nat) : State :=
  let ts := groupTeams s g
  let drop (s : State) (t : Nat × Team) : State :=
    let s := (List.range t.2.size).foldl (fun s l => endBinds s (t.1 * 256 + l)) (unbindTrees s t.1)
    if t.2.suspended.isSome then s else t.2.cores.foldl freeCore s
  let s := (g.filterMap fun t => (s.tm t).map fun x => (t, x)).foldl drop s
  let mine (e : Nat × Team) : Bool := g.contains e.1 || (ts.any fun t => t.caravan.isSome && t.caravan == e.2.caravan)
  { s with team := s.team.filter (fun e => !mine e), ended := match ts with | t :: _ => s.ended ++ [(t.item, 3)] | [] => s.ended }

/-- Save the tasks of a team into slots, in order: what was saved and where. -/
def saveTasks : List (Nat × Nat) → List Nat → State → Except HomeFail State
  | [], _, s => .ok s
  | _, [], s => .ok s
  | e :: es, k :: ks, s =>
    match saveTask s e.2 e.1 k with
    | .error x => .error x
    | .ok s => saveTasks es ks s

/-- A team is off its cores, its images VALID (R395). -/
def sleepTeam (s : State) (tid : Nat) (ks : List Nat) : State :=
  match s.tm tid with
  | none => s
  | some t =>
    let ls := liveCores t
    let t' : Team :=
      { t with
        suspended := some s.ns, saving := none, yield := none, slots := (ls.map (·.1)).zip ks, kept := ls.map fun e => besideImage s e.2 e.1 }
    (t.cores.foldl freeCore s).putTm tid t'

/-- Save a group of teams, one after the other, into the free slots of their context. -/
def saveGroup (c : Nat) : List Nat → State → Except HomeFail State
  | [], s => .ok s
  | t :: ts, s =>
    match s.tm t with
    | none => saveGroup c ts s
    | some x =>
      let ks := (freeSaves s c).take x.live.length
      let s := suspendTrees s t
      match saveTasks (liveCores x) ks s with
      | .error e => .error e
      | .ok s => saveGroup c ts (sleepTeam s t ks)

/-- A fault that the Crossroads die raises for a context. -/
def dieFault (s : State) (c cause : Nat) : State := s.memFault c 8 0xFFF cause 0 0

/-- A save is given up: no team of the group is being saved any more (R389). -/
def abandonSave (s : State) (g : List Nat) : State := g.foldl (fun s t => s.upTm t fun x => { x with saving := none, yield := none, yieldTo := none }) s

/-- Write back every dirty line of a group's tasks. -/
def flushGroup (s : State) (g : List Nat) : State :=
  (groupTeams s g).foldl (fun s t => (liveCores t).foldl (fun s e => s.putSc e.2 ((s.sc e.2).flushAll [])) s) s

/-- TEAM_SAVE: the save of the subject team, and of its caravan, goes on (R395): the engines stop, every fill arrives and every begun
record completes, dirty lines are written back, then the images are written and the teams are suspended; a group that could never be
placed again is discarded (R296), and too few free slots are a migration's fault (R392). -/
def execTeamSave (s : State) : Out :=
  .next <|
    let g := teamGroup s s.cur
    let ts := groupTeams s g
    let c := match ts with | t :: _ => t.ctx.toNat | [] => 0
    if g.isEmpty || !ctxLive s c then s
    else if ts.any (fun t => t.suspended.isSome || !(t.saving.isSome || mayBegin s t)) then s
    else if ts.any (fun t => t.saving.isNone) then g.foldl beginSave s
    else if !ts.all (teamQuiet s) then s
    else if !ts.all (teamDrained s) then flushGroup s g
    else if groupHopeless s g then discardGroup s g
    else if (freeSaves s c).length < groupTasks s g + (if ts.any (·.refit) then promisedSaves s c g else 0) then
      if ts.any (·.refit) then dieFault (abandonSave s g) c 0x2E else s
    else
      match saveGroup c g s with
      | .ok s => s
      | .error e => (abandonSave e.st g).memFault c (e.addr / 2 ^ 56) 0xFFF e.cause e.detail (BitVec.ofNat 64 e.addr)

/-! ### TEAM_RESTORE (R397) -/

/-- Words of free values: register i of a block, n words of it, from the n0-th free value on. -/
def freeNat (n0 : Nat) : Nat → Nat
  | 0 => 0
  | n + 1 => (Config.freeWord n0).toNat + 2 ^ 64 * freeNat (n0 + 1) n

/-- An image that has been read: its cells, their keys counting from the slot's address. -/
def imgNum (m : Memory) (at' n : Nat) : Nat := rdN m at' n

/-- The scalar registers of an image; those it does not name hold undefined values (R26). -/
def restoredRegs (m : Memory) (l : Live) (n0 : Nat) : Tbl Word :=
  (List.range 63).foldl (fun t i =>
    tput t (i + 1) (if l.slive.getLsbD (i + 1) then BitVec.ofNat 64 (imgNum m (0x1000 + 8 * (i + 1)) 8) else Config.freeWord (n0 + i)) 0) []

/-- The vector registers of an image. -/
def restoredVregs (m : Memory) (l : Live) (n0 : Nat) : Tbl VWord :=
  (List.range 384).foldl (fun t i =>
    tput t i (BitVec.ofNat 1024 (if l.vlive.getLsbD i then imgNum m (0x1_0000 + 128 * i) 128 else freeNat (n0 + 16 * i) 16)) 0) []

/-- The control register n of an image. -/
def imgCreg (m : Memory) (n : Nat) : Word := BitVec.ofNat 64 (imgNum m (0x800 + 8 * n) 8)

/-- The scalar stream that an image gives; reserved fields read zero, whatever the image holds (R4). -/
def restoredScalar (s : State) (m : Memory) (l : Live) (c : Nat) (wd : Nat) : Scalar :=
  let r := imgCreg m
  { Scalar.reset with
    run := .running, ctx := BitVec.ofNat 6 c, pc := align8 (BitVec.ofNat 64 (imgNum m 8 8)), regs := restoredRegs m l s.free,
    preds := BitVec.ofNat 32 (imgNum m 0x18 8), status := r 0 &&& 0xC7#64, tvec := align8 (r 1), tpc := align8 (r 2), tcause := r 3 &&& 0xFFFF#64,
    tval := r 4, tstatus := r 5 &&& 0xC7#64,
    tscr := (List.range 4).foldl (fun t i => tput t i (r (8 + i)) 0) [], lstart0 := align8 (r 0x10), lend0 := align8 (r 0x11), lcount0 := r 0x12,
    lstart1 := align8 (r 0x13), lend1 := align8 (r 0x14), lcount1 := r 0x15, phnum := r 0x26, roles := (List.range 4).foldl (fun t i => tput t i (r (0x30 + i)) 0) [],
    win := (List.range 16).foldl (fun t i => tput t i (r (0x50 + i)) 0) [], start := s.time, cycle0 := (r 0x24).toNat, wd := s.time - wd }

/-- A queue that an image and the device's own record of it give: the record in progress goes on from the saved position, under what it read when it
started (R129, R139, R147, R397). -/
def restoredQueue (m : Memory) (k : Kept) (q : Nat) : Queue :=
  let r (j : Nat) : Word := imgCreg m (0x40 + 4 * q + j)
  let at' := imgNum m (0x28 + 16 * q) 8
  let flight := match k.flights.getD q [] with
    | f :: fs => (if f.first = at' then f else { f with idx := at', part := { f.part with order := [] } }) :: fs
    | [] => []
  { base := (r 0).setWidth 22 &&& 0x3F_FFC0#22, count := (r 1).setWidth 13, head := (r 2).setWidth 32, tail := (r 3).setWidth 32,
    evt := (r 2).getLsbD 63, flight := flight, ph := k.ph.getD q [], fences := k.fences.getD q [], stopped := false,
    fenced := none, words := [], early := [], landed := [] }

/-- A semaphore of an image. -/
def restoredSem (m : Memory) (i : Nat) : Sem :=
  { pend := BitVec.ofNat 32 (imgNum m (0x200 + 16 * i) 4), done := BitVec.ofNat 32 (imgNum m (0x204 + 16 * i) 4), err := imgNum m (0x208 + 16 * i) 1 % 2 == 1 }

/-- A saved group is parked: its spill map word in the image. -/
def imgSpill (m : Memory) (g : Nat) : BitVec 9 := BitVec.ofNat 9 (imgNum m (0x4000 + 2 * g) 2)

/-- The accumulator of an image: the entries of written blocks and parked groups. -/
def restoredAcc (m : Memory) : Tbl (BitVec 32) :=
  let written : BitVec 64 := BitVec.ofNat 64 (imgNum m 0x58 8)
  (m.filter fun e => decide (0x2_0000 ≤ e.1) && decide (e.1 < 0xA_0000)).foldl (fun t e =>
    let i := (e.1 - 0x2_0000) / 4
    if written.getLsbD (accBlock i) || (imgSpill m (i / 32)).getLsbD 8 then tput t i (BitVec.ofNat 32 (imgNum m (0x2_0000 + 4 * i) 4)) 0 else t) []

/-- A sparse table of n entries from a function. -/
def tblOf {α : Type} [DecidableEq α] (n : Nat) (d : α) (f : Nat → α) : Tbl α := (List.range n).foldl (fun t i => tput t i (f i) d) []

/-- The core that an image gives, on a core zeroed and claimed. -/
def restoredCore (x : Core) (s : State) (m : Memory) (l : Live) (k : Kept) (task : TaskRef) : Core :=
  { x with
    vq := restoredQueue m k 0, mq := restoredQueue m k 1, cq := restoredQueue m k 2, sems := tblOf 32 Sem.reset (restoredSem m),
    vregs := restoredVregs m l (s.free + 63), vtags := tblOf 384 0 fun i => BitVec.ofNat 8 (imgNum m (0x2000 + i) 1),
    masks := tblOf 8 0 fun i => if i = 0 then 0 else BitVec.ofNat 128 (imgNum m (0x180 + 16 * i) 16), acc := restoredAcc m,
    btags := tblOf 64 0 fun i => BitVec.ofNat 8 (imgNum m (0x140 + i) 1), written := BitVec.ofNat 64 (imgNum m 0x58 8),
    spill := tblOf 4096 0 (imgSpill m), mcfg := BitVec.ofNat 512 (imgNum m 0x100 64), vstatus := imgCreg m 0x60 &&& 0x1_007F#64,
    cqstat := imgCreg m 0x63 &&& 0x8000_00FF_FFFF_FFFF#64, redstat := imgCreg m 0x64 &&& 3#64, nseen := (imgCreg m 0x61).getLsbD 2, joinNo := BitVec.ofNat 32 (imgNum m 0x50 8), task := some task,
    ckpt := k.ckpt, rolls := k.rolls, trigs := k.trigs, undone := k.undone, rolling := k.rolling, rerun := k.rerun }

/-- The undefined value of scratchpad block b. -/
def blockFree (n0 b : Nat) : Nat := freeNat (n0 + 8 * b) 8

/-- Scratchpad block b (64 bytes) is named by an image. -/
def blockNamed (spans : List (Nat × Nat)) (b : Nat) : Bool := spans.any fun e => decide (e.1 ≤ 64 * b) && decide (64 * b < e.1 + e.2)

/-- The scratchpad of a core takes the named bytes of an image; every other byte holds an undefined value (R26). -/
def restoreScratch (s : State) (p : Nat) (m : Memory) (spans : List (Nat × Nat)) (n0 : Nat) : State :=
  let named := (m.filter fun e => decide (0x10_0000 ≤ e.1) && decide (e.1 < 0x50_0000) && blockNamed spans ((e.1 - 0x10_0000) / 64)).map fun e =>
    (e.1 - 0x10_0000 + spKey p 0, e.2)
  let s := { s with mem := putCells s.mem (spKey p 0) (spKey p 0x40_0000) named }
  { s with mem := (List.range 65536).foldl (fun m b =>
      if blockNamed spans b || blockFree n0 b == 0 then m else wrN m (spKey p (64 * b)) 64 (blockFree n0 b)) s.mem }

/-- What an image names, as its header and its descriptor say. -/
def imageLive (m : Memory) : Live :=
  if imgNum m 0 8 / 2 ^ 62 % 2 = 1 then .all
  else
    let v := imgNum m 0x80 128
    { full := false, slive := BitVec.ofNat 64 (blockWord v 0), vlive := BitVec.ofNat 384 (v / 2 ^ 64), spans := descSpans v, desc := v }

/-- Restore a task on a core (R397). MLEASE is one of the registers that the image holds: its quad takes it, if it is a value that MLEASE may
hold (log entry 36). -/
def restoreTask (s : State) (tid c p : Nat) (k : Kept) (m : Memory) : State :=
  let s := claimCore s c p true
  let l := imageLive m
  let x := restoredCore (s.co p) s m l k ⟨tid, k.lcore⟩
  let spans := if l.full then [(0, 0x40_0000)] else l.spans ++ ringSpans x.vq ++ ringSpans x.mq ++ ringSpans x.cq
  let y := restoredScalar s m l c k.wd
  let s := (restoreScratch s p m spans (s.free + 6207)).putSc p y
  let s := s.putCo p x
  let lease := imgCreg m 0x62
  let s := if lease.toNat = 0 ∨ 64 < lease.toNat then s else s.putQd (quadOf p) { s.qd (quadOf p) with lease := lease }
  { s with free := if l.full then s.free else s.free + 530_495 }

/-- The image is VALID. -/
def imageValid (m : Memory) : Bool := imgNum m 0 8 / 2 ^ 63 % 2 == 1

/-- Read regions of an image at an address, each by its offset and length, into its cells. -/
def readRegions (c at' : Nat) : List (Nat × Nat) → Memory → State → Except HomeFail (Memory × State)
  | [], m, s => .ok (m, s)
  | r :: rs, m, s =>
    match getRange c (unitFuel r.2) (at' + r.1) r.2 r.1 s with
    | .error e => .error e
    | .ok (cells, s) => readRegions c at' rs (cells.foldl (fun m e => tins m e.1 e.2) m) s

/-- The regions of an image that its front and its tables name: registers, written blocks, parked groups (Table 23.6). -/
def namedRegions (m : Memory) : List (Nat × Nat) :=
  let l := imageLive m
  let written : BitVec 64 := BitVec.ofNat 64 (imgNum m 0x58 8)
  (((List.range 64).filter fun i => l.slive.getLsbD i).map fun i => (0x1000 + 8 * i, 8)) ++
  (((List.range 384).filter fun i => l.vlive.getLsbD i).map fun i => (0x1_0000 + 128 * i, 128)) ++
  (((List.range 64).filter fun b => written.getLsbD b).flatMap fun b => (blockRows b).map fun o => (0x2_0000 + 4 * o, 256)) ++
  (((List.range 4096).filter fun g => (imgSpill m g).getLsbD 8 && !written.getLsbD (accBlock (32 * g))).map fun g => (0x2_0000 + 128 * g, 128))

/-- The scratchpad regions of an image: the named ranges, and the ring slots in use. -/
def namedScratch (m : Memory) (k : Kept) : List (Nat × Nat) :=
  let l := imageLive m
  let spans := if l.full then l.spans else l.spans ++ (List.range 3).flatMap fun q => ringSpans (restoredQueue m k q)
  spans.map fun e => (0x10_0000 + e.1, e.2)

/-- The image of a task at an address: if it is VALID, what it holds (R397); else its first word alone. -/
def readImage (c at' : Nat) (k : Kept) (s : State) : Except HomeFail (Memory × State) :=
  match readRegions c at' [(0, 8)] [] s with
  | .error e => .error e
  | .ok (m, s) =>
    if !imageValid m then .ok (m, s)
    else
      match readRegions c at' [(0, 0x1000), (0x2000, 0x180), (0x4000, 0x2000)] [] s with
      | .error e => .error e
      | .ok (m, s) => readRegions c at' (namedRegions m ++ namedScratch m k) m s

/-- The images of a team's saved tasks: by logical core, with what the device keeps. -/
def readImages (c : Nat) (t : Team) : List (Nat × Nat) → State → Except HomeFail (List (Kept × Memory) × State)
  | [], s => .ok ([], s)
  | e :: es, s =>
    match t.kept.find? fun k => k.lcore == e.1 with
    | none => readImages c t es s
    | some k =>
      match readImage c (slotAddr s c e.2) k s with
      | .error x => .error x
      | .ok (m, s) =>
        match readImages c t es s with
        | .error x => .error x
        | .ok (r, s) => .ok ((k, m) :: r, s)

/-- A team runs again on a die and its cores. -/
def wakeTeam (s : State) (tid d : Nat) (ps : List Nat) (imgs : List (Kept × Memory)) : State :=
  match s.tm tid with
  | none => s
  | some t =>
    let s := s.putTm tid { t with die := d, cores := ps, suspended := none, yieldTo := none, refit := false, slots := [], kept := [] }
    let idle := (List.range t.size).filter fun l => t.done.getLsbD l
    let s := idle.foldl (fun s l => match ps[l]? with
      | some p => ((claimCore s t.ctx.toNat p true).upCo p fun x => { x with task := some ⟨tid, l⟩ }).putSc p { Scalar.reset with run := .done, ctx := t.ctx }
      | none => s) s
    imgs.foldl (fun s e => match ps[e.1.lcore]? with | some p => restoreTask s tid t.ctx.toNat p e.1 e.2 | none => s) s

/-- A placement of suspended teams: each on its own die, or where a class has been fenced on any die, the one with the most free slots, no two
on one die (R292, R293, R295). -/
def placeTeams (s : State) : List Team → List Nat → Option (List (Nat × List Nat))
  | [], _ => some []
  | t :: ts, used =>
    let ds := if t.refit then List.range 8 else [t.die]
    let found := (ds.filter fun d => !used.contains d).filterMap fun d => (qualify s false t.mask t.size d).map fun ps => (d, ps)
    match (if t.cteams = 1 then bestDie s found else found.head?) with
    | none => none
    | some e => (placeTeams s ts (e.1 :: used)).map (e :: ·)

/-- The queue that a team has yielded to still waits for a place. -/
def yieldWaits (s : State) (t : Team) : Bool :=
  match t.yieldTo with
  | none => false
  | some q => (queueHead s q).isSome && !queueBlocked s q

/-- Read the images of a group. -/
def groupImages : List Team → State → Except HomeFail (List (List (Kept × Memory)) × State)
  | [], s => .ok ([], s)
  | t :: ts, s =>
    match readImages t.ctx.toNat t t.slots s with
    | .error e => .error e
    | .ok (r, s) => (groupImages ts s).map fun x => (r :: x.1, x.2)

/-- Wake teams on their placements with their images. -/
def wakeTeams : List Nat → List (Nat × List Nat) → List (List (Kept × Memory)) → State → State
  | t :: ts, d :: ds, i :: is, s => wakeTeams ts ds is (wakeTeam s t d.1 d.2 i)
  | _, _, _, s => s

/-- TEAM_RESTORE: the subject team, suspended, and its caravan resume where a placement exists (R295, R297, R397); a group that can never be
placed again is discarded (R296). -/
def execTeamRestore (s : State) : Out :=
  .next <|
    let g := teamGroup s s.cur
    let ts := groupTeams s g
    if g.isEmpty || !groupAsleep s g || ts.any (yieldWaits s) then s
    else if groupHopeless s g then discardGroup s g
    else
      match placeTeams s ts [] with
      | none => s
      | some ds =>
        match groupImages ts s with
        | .error e =>
          let c := match ts with | t :: _ => t.ctx.toNat | [] => 0
          e.st.memFault c (e.addr / 2 ^ 56) 0xFFF e.cause e.detail (BitVec.ofNat 64 e.addr)
        | .ok (is, s) => if is.all fun r => r.all fun e => imageValid e.2 then wakeTeams g ds is s else s

/-- TEAM_MOVE: a team that has waited on its die for more than 20 µs moves to die d, or its caravan to dies d and the next ones that
qualify (R298). -/
def execTeamMove (d : Nat) (s : State) : Out :=
  .next <|
    let g := teamGroup s s.cur
    let ts := groupTeams s g
    let late := ts.all fun t => match t.suspended with | some t0 => decide (t0 + 20_000 < s.ns) | none => false
    if g.isEmpty || !late || ts.any (fun t => t.resen) || !decide (d < 8) then s
    else
      let dies := (List.range 8).map fun i => (d + i) % 8
      let pick : List Nat → Team → List Nat := fun used t =>
        match dies.find? fun e => !used.contains e && (qualify s false t.mask t.size e).isSome with
        | some e => used ++ [e]
        | none => used
      let used := ts.foldl pick []
      if used.length = ts.length ∧ used.head? = some d then
        (g.zip used).foldl (fun s e => s.upTm e.1 fun t => { t with die := e.2, suspended := some s.ns }) s
      else s

end Sys2Proof.Machine
end

