-- ==== Sys2Proof/Machine/Conversation.lean ====
section
/-! DEFINITION. Conversations: itineraries, opening, the sends, claims and delegations of tasks, judging, placing, aborts and collectives
(R28, R103 to R105, R337 to R339, R355 to R358, R361 to R374, R429, R430). -/
namespace Sys2Proof.Machine

/-! ### Packets between homes and proxies (R367; the layout is the model's own, log entry 37) -/

/-- A packet of the package itself to a conversation's home, or one that awaits judgement at it. -/
def convPacket (op n : Nat) (tag : Word) (len v : Nat) : Packet :=
  { peerHi := 0, peerLo := 0, job := 0, mode := 1, op := op, psn := 0, msg := 0, off := 0, len := len, tag := tag, key := BitVec.ofNat 32 n, roff := 0,
    ecn := false, sec := false, data := numBytes len v }

/-- The words of a request: role, kind, queue, and whether the sender's endpoint holds the role and its task has bound it. -/
def reqTag (role kind queue : Nat) (bound : Bool) : Word :=
  BitVec.ofNat 64 (role + kind * 2 ^ 8 + queue * 2 ^ 16 + if bound then 2 ^ 32 else 0)
/-- Role of a request. -/
def reqRole (p : Packet) : Nat := bitsOf p.tag.toNat 7 0
/-- Kind of a request. -/
def reqKind (p : Packet) : Nat := bitsOf p.tag.toNat 15 8
/-- Queue of a request. -/
def reqQueue (p : Packet) : Nat := bitsOf p.tag.toNat 31 16
/-- The sender may speak for the role. -/
def reqBound (p : Packet) : Bool := bitsOf p.tag.toNat 32 32 == 1

/-- Send a conversation packet on a connection, in reliable ordered mode; on one that may not be used it is lost. -/
def convSend (s : State) (c conn op obj : Nat) (tag roff : Word) (len v : Nat) : State :=
  if !convUsable s c conn then s
  else
    (sendMessage s { ctx := c, conn := conn, mode := 1, op := op, tag := tag, key := BitVec.ofNat 32 obj, roff := roff, len := len, data := v, carry := len,
                     origin := .other, ms := none }).2

/-! ### Placement (R357) -/

/-- An inbox takes a message: delivery word, length, zeros, payload; then DONE of its semaphore rises. Or its semaphore takes the ERR of an abort. -/
def placeAt (s : State) (b : Bind) (a : Nat) (m : Placement) : State :=
  if m.err then s.upCo a fun x => x.setSem b.sem { x.sem b.sem with err := true }
  else
  let n := min m.len (b.len - 64)
  let head := m.word.toNat + (n + if n < m.len then 2 ^ 63 else 0) * 2 ^ 64
  let s := s.putStore (lsKey a b.base) (64 + n) (head + m.data % 2 ^ (8 * n) * 2 ^ 512)
  s.upCo a fun x => x.raise b.sem false

/-- The first message whose role is bound at a task that is on its core: its place in the list, the binding and the agent. -/
def findPlace (s : State) (n : Nat) (want : Nat → Bool) : Nat → List Placement → Option (Nat × Placement × Bind × Nat)
  | _, [] => none
  | k, m :: ms =>
    let here := if m.conv = n ∧ want m.role then (bindOf s n m.role).bind fun b => (taskAgent s b.task).map fun a => (b, a) else none
    match here with
    | some e => some (k, m, e.1, e.2)
    | none => findPlace s n want (k + 1) ms

/-- Place the messages of the wanted roles of a conversation in acceptance order, fuel k. -/
def placeAll (n : Nat) (want : Nat → Bool) : Nat → State → State
  | 0, s => s
  | k + 1, s =>
    match findPlace s n want 0 s.places with
    | none => s
    | some (i, m, b, a) => placeAll n want k (placeAt { s with places := s.places.eraseIdx i } b a m)

/-- CONV_PLACEMENT: the first message of the subject conversation that can be placed is placed. -/
def execConvPlacement (s : State) : Out := .next (placeAll s.cur (fun _ => true) 1 s)

/-! ### Ends of requests -/

/-- A CSEND.A verdict fills its register; a checkpoint that has it pending keeps the value (R28, R398). -/
def fillVerdict (s : State) (a : Nat) (reg : BitVec 6) (v : Word) : State :=
  let x := s.sc a
  let mine (f : Fill) : Bool := f.verdict && f.reg == reg && f.val.isNone
  match x.fills.findIdx? mine with
  | none => s
  | some k =>
    let s := s.putSc a ((dropFill x k).fillReg reg v)
    if !isCore a then s
    else s.upCo a fun y => { y with ckpt := y.ckpt.map fun c =>
      { c with fills := c.fills.map fun f => if mine f then { f with val := some v, verdict := false } else f } }

/-- The verdict of a send or a delegation reaches its task: TCAUSE's value, 0 for acceptance. -/
def sendVerdict (s : State) (a n : Nat) (later : Bool) (reg : BitVec 6) (ms : Option Nat) (code : Nat) : State :=
  let s := if code = 0 then incMs s (s.sc a).ctx.toNat ms else s
  if later then fillVerdict s a reg (BitVec.ofNat 64 code)
  else if (s.sc a).run = .waiting .verdict then
    asAgent s a fun s => if code = 0 then s.retire else s.trap (code % 256) (code / 256) (BitVec.ofNat 64 n)
  else s

/-- The role register of a task is cleared. -/
def clearRole (s : State) (a slot : Nat) : State := s.putSc a { s.sc a with roles := tput (s.sc a).roles slot 0 0 }

/-- A role is bound, and what is held for it placed (R356). -/
def bindRole (s : State) (a n : Nat) (b : Bind) : State :=
  let x := convRun s n
  let s := putConv s n { x with binds := x.binds.filter (fun e => e.role != b.role) ++ [b] }
  let s := putConvBits s n (4 + b.role) 61 61 1
  let s := s.putSc a { s.sc a with roles := tput (s.sc a).roles b.reg (roleReg b.role n) 0 }
  placeAll n (fun r => r == b.role) s.places.length s

/-! ### Judging (R355, R358, R370, R371, R430) -/

/-- The code for a role that is not held. -/
def noRole (r : Nat) : Nat := r * 256 + 15

/-- An object that cannot be judged: not the context's own, aborted, or idle. -/
def unusable (s : State) (c n role : Nat) : Option Nat :=
  if !allotted s c .conversation n || convCtx s n != c then some (4 * 256 + 14)
  else if convLife s n = 3 then some (convLost s n * 256 + 10)
  else if convLife s n = 0 then some (noRole role)
  else none

/-- An accepted message goes to its receiver: held here for placement, or forwarded to the holder's package. -/
def routeMessage (s : State) (n : Nat) (rcv : Nat) (word : Word) (len v : Nat) : State :=
  let w := roleWord s n rcv
  if roleRm w then
    let closed := if convLife s n = 2 then 2 ^ 16 else 0
    convSend s (convCtx s n) (roleConn w) 12 (n + closed) word (BitVec.ofNat 64 rcv) len v
  else { s with places := s.places ++ [{ conv := n, role := rcv, word := word, len := len, data := v }] }

/-- The home takes transition t for a message of n bytes. -/
def advanceConv (s : State) (n t len v : Nat) : State :=
  let seq := (convSeq s n + 1) % 2 ^ 32
  let s := putConvBits (putConvBits s n 0 39 32 (trNext t)) n 0 31 0 seq
  let s := s.put64 (convKey n 20) s.ns
  let s := if stateRow (convRun s n) (trNext t) = [] then putConvBits s n 0 61 60 2 else s
  let word : Word := BitVec.ofNat 64 (trKind t + trSnd t * 2 ^ 8 + trNext t * 2 ^ 16 + seq * 2 ^ 32)
  routeMessage s n (trRcv t) word len v

/-- Judge a message of a role and a kind at its home (R355). -/
def judgeSend (s : State) (c n role kind : Nat) (may : Bool) (len v : Nat) : Nat × State :=
  match unusable s c n role with
  | some code => (code, s)
  | none =>
    if !may then (noRole role, s)
    else
      match (stateRow (convRun s n) (convCur s n)).find? fun t => trSnd t == role && trKind t == kind with
      | none => (kind * 256 + 9, s)
      | some t => (0, advanceConv s n t len v)

/-- Every message accepted for a role has been placed (R370). -/
def roleQuiet (s : State) (n role : Nat) : Bool :=
  !(s.places.any fun m => m.conv == n && m.role == role) &&
  !(s.tx.any fun t => t.pkt.op == 12 && t.ctx == convCtx s n && t.pkt.key.toNat % 65536 == n && t.pkt.roff.toNat == role && roleRm (roleWord s n role))

/-- The role passes to the endpoint of a queue, its binding ends, and the hand-over payload is held for the new holder (R358). -/
def handOver (s : State) (n role queue len v : Nat) : State :=
  let s := putConvBits (endBind s n role) n (4 + role) 25 16 queue
  if len = 0 then s
  else
    let word : Word := BitVec.ofNat 64 (role * 2 ^ 8 + convCur s n * 2 ^ 16 + convSeq s n * 2 ^ 32)
    { s with places := s.places ++ [{ conv := n, role := role, word := word, len := len, data := v }] }

/-- Judge a delegation at its home; the hand-over of a role held here happens with it. -/
def judgeDeleg (s : State) (c n role queue : Nat) (may remote : Bool) (len v : Nat) : Nat × State :=
  match unusable s c n role with
  | some code => (code, s)
  | none =>
    if !may then (noRole role, s)
    else if remote then (0, putConvBits s n (4 + role) 25 16 queue)
    else (0, handOver s n role queue len v)

/-- Judge a claim at its home: 0, 10 or 15 (R356, R366). -/
def judgeClaim (s : State) (c n role : Nat) (may : Bool) : Nat :=
  match unusable s c n role with
  | some code => code % 256
  | none => if may then 0 else 15

/-- A remote party speaks for a role: the entry names its connection. -/
def remoteHolds (s : State) (n role conn : Nat) : Bool :=
  let w := roleWord s n role
  decide (role < 16) && roleAs w && roleRm w && roleConn w == conn

/-- The verdict that goes back to a proxy. -/
def sendBack (s : State) (i : ConvIn) (n code : Nat) : State :=
  let closed := if convLife s n = 2 then 2 ^ 24 else 0
  convSend s i.ctx i.conn 11 n (BitVec.ofNat 64 (code % 65536 + convCur s n * 2 ^ 16 + closed + convSeq s n * 2 ^ 32)) i.pkt.roff 0 0

/-! ### Aborts (R338, R371 to R373) -/

/-- A collective of a context ends ABORTED (R338): the operations on its serving connections end so, what has arrived on them and is not placed
is discarded, and its flag is written; that of a killed context is not (R339). -/
def abortColl (s : State) (c i : Nat) (survive : Bool) : State :=
  let s := s.put64 (cwinKey c (0x1B30_0000 + 64 * i)) (takeBits (collWord s c i 0) (3 * 2 ^ 61) 62 61)
  let conns := ([4, 5, 6, 7].filter fun w => bitsOf (collWord s c i w) 63 63 == 1).map fun w => bitsOf (collWord s c i w) 19 0
  let s := conns.foldl (fun s n => endConn s c n 4 fun op => !isConvOp op) s
  let s := dropArrivals s c fun n => conns.contains n
  if survive then queueFlag s c i 2 else s

/-- The armed collectives bound to a conversation end ABORTED. -/
def abortColls (s : State) (n : Nat) (survive : Bool) : State :=
  let c := convCtx s n
  settleFlags (((collIn s c 1).filter fun i => collWord s c i 0 % 65536 == n).foldl (fun s i => abortColl s c i survive) s)

/-- ERR is set on the inbox semaphore of a binding of conversation n: of a suspended task once it resumes and what is held for the role has been
placed (R365, R372). -/
def bindErr (n : Nat) (s : State) (b : Bind) : State :=
  match taskAgent s b.task with
  | some a => s.upCo a fun x => x.setSem b.sem { x.sem b.sem with err := true }
  | none => { s with places := s.places ++ [{ conv := n, role := b.role, word := 0, len := 0, data := 0, err := true }] }

/-- Requests that wait for the home of a proxy, those that a test takes, end as its aborted conversation says. -/
def failRequests (s : State) (n lost : Nat) (want : Verdict → Bool) : State :=
  s.scal.foldl (fun s e =>
    (e.2.verdicts.filter fun v => v.conv == n && want v).foldl (fun s v =>
      let s := s.putSc e.1 { s.sc e.1 with verdicts := (s.sc e.1).verdicts.filter fun w => w.tok != v.tok || w.conv != n }
      if v.kind = 4 then
        (if (s.sc e.1).run = .waiting .verdict then asAgent s e.1 fun s => s.result v.reg 10 else s)
      else sendVerdict s e.1 n v.later v.reg none (lost * 256 + 10)) s) s

/-- The effects of an abort on this package (R372): LIFE 3 and LOST; accepted messages are placed or discarded; ERR; collectives. -/
def abortHere (s : State) (n lost : Nat) (survive : Bool) : State :=
  let s := putConvBits (putConvBits s n 0 61 60 3) n 21 15 8 lost
  let s := if survive then placeAll n (fun _ => true) s.places.length s else s
  let s := { s with places := s.places.filter fun m => m.conv != n || (survive && (bindOf s n m.role).isSome) }
  let s := if survive then (convRun s n).binds.foldl (bindErr n) s else s
  abortColls s n survive

/-- The connections of an object's remote roles. -/
def remoteConns (s : State) (n : Nat) : List Nat :=
  ((List.range 16).filterMap fun r => let w := roleWord s n r; if roleAs w && roleRm w then some (roleConn w) else none).eraseDups

/-- The parties of a conversation on this package survive its abort: its context has not been killed (R339, R373). -/
def survives (s : State) (n : Nat) : Bool := gateOpen s (convCtx s n) && !(s.cx (convCtx s n)).told

/-- The home aborts its conversation and tells every proxy. -/
def abortConv (s : State) (n lost : Nat) (survive : Bool) : State :=
  if convLife s n = 0 ∨ convLife s n = 3 then s
  else
    let s := abortHere s n lost survive
    (remoteConns s n).foldl (fun s conn => convSend s (convCtx s n) conn 13 n (BitVec.ofNat 64 lost) 0 0 0) s

/-- A proxy's side of a conversation is aborted. -/
def abortProxy (s : State) (n lost : Nat) (survive : Bool) : State :=
  if convLife s n = 0 ∨ convLife s n = 3 then s else failRequests (abortHere s n lost survive) n lost fun _ => true

/-! ### Arrivals in the order of the home (R368) -/

/-- The proxy object of a context for an object at the home beyond a connection. -/
def proxyFor (s : State) (c conn obj : Nat) : Option Nat :=
  ((s.allots.filter fun a => a.ctx == c && a.kind == .conversation).flatMap fun a => (List.range (a.hi - a.lo)).map (a.lo + ·)).find? fun n =>
    convProxy s n && convHconn s n == conn && convHobj s n == obj && convLife s n != 0

/-- The conversation of the request that a verdict answers: it stands although its proxy may have been freed meanwhile (R28). -/
def askedConv (s : State) (i : ConvIn) : Option Nat :=
  s.scal.findSome? fun e =>
    if e.2.ctx.toNat = i.ctx then (e.2.verdicts.find? fun v => v.conn == i.conn && v.tok == i.pkt.roff.toNat).map (·.conv) else none

/-- The conversation object that a packet concerns. -/
def itemConv (s : State) (i : ConvIn) : Option Nat :=
  let n := i.pkt.key.toNat % 65536
  if i.agent.isSome ∨ i.pkt.op ≤ 9 ∨ 14 ≤ i.pkt.op then some n
  else if i.pkt.op = 11 then (askedConv s i).orElse fun _ => proxyFor s i.ctx i.conn n
  else proxyFor s i.ctx i.conn n

/-- Every byte of a packet's message has arrived. -/
def ConvIn.whole (i : ConvIn) : Bool := decide (i.pkt.len ≤ i.pkt.data.length)

/-- The first packet that concerns an object, once its message has arrived whole: its place and itself. -/
def firstItem (s : State) (n : Nat) : Nat → List ConvIn → Option (Nat × ConvIn)
  | _, [] => none
  | k, i :: is => if itemConv s i = some n then (if i.whole then some (k, i) else none) else firstItem s n (k + 1) is

/-- Messages that have not arrived whole on a connection that has failed are discarded, and so are packets that concern no object. -/
def dropBroken (s : State) : State :=
  { s with convIn := s.convIn.filter fun i => (itemConv s i).isSome && (i.agent.isSome || i.whole || connState s i.ctx i.conn != 2) }

/-- The context that a packet speaks for. -/
def itemCtxOf (s : State) (i : ConvIn) : Nat := match i.agent with | some a => (s.sc a).ctx.toNat | none => i.ctx

/-- A proxy takes CUR, SEQ and the end that a packet carries (R367). -/
def proxyShows (s : State) (n cur seq : Nat) (closed : Bool) : State :=
  let s := putConvBits (putConvBits s n 0 39 32 cur) n 0 31 0 seq
  if closed && convLife s n == 1 then putConvBits s n 0 61 60 2 else s

/-- The request that a verdict answers waits for something at this package: the old holder is to have every message accepted for the role before
the role is handed over (R358, R370). -/
def verdictWaits (s : State) (n conn : Nat) (p : Packet) : Bool :=
  bitsOf p.tag.toNat 15 0 == 0 &&
  s.scal.any fun e => e.2.verdicts.any fun v =>
    v.conv == n && v.conn == conn && v.tok == p.roff.toNat && v.kind == 5 && s.places.any fun m => m.conv == n && m.role == v.role

/-- A verdict from a home reaches the task that waits for it. A proxy that has been freed meanwhile has no role left to bind or to hand over. -/
def takeVerdict (s : State) (n c conn : Nat) (p : Packet) : State :=
  let code := bitsOf p.tag.toNat 15 0
  let live := proxyFor s c conn (p.key.toNat % 65536) == some n
  let s := if live then proxyShows s n (bitsOf p.tag.toNat 23 16) (bitsOf p.tag.toNat 63 32) (bitsOf p.tag.toNat 24 24 == 1) else s
  let mine (v : Verdict) : Bool := v.conv == n && v.conn == conn && v.tok == p.roff.toNat
  match s.scal.find? fun e => e.2.verdicts.any mine with
  | none => s
  | some e =>
    match e.2.verdicts.find? mine with
    | none => s
    | some v =>
      let s := s.putSc e.1 { e.2 with verdicts := e.2.verdicts.filter fun w => !mine w }
      if v.kind = 4 then
        if (s.sc e.1).run ≠ .waiting .verdict then s
        else
          let other : Bool := match bindOf s n v.role with | some b => b.task != taskId s e.1 | none => false
          let code := if code = 0 ∧ (other ∨ !live) then 15 else code
          let s := if code = 0 then
            bindRole s e.1 n { role := v.role, task := taskId s e.1, reg := v.slot, base := v.base, len := v.len, sem := v.sem } else s
          asAgent s e.1 fun s => s.result v.reg (BitVec.ofNat 64 (code % 256))
      else
        let s := if v.kind = 5 ∧ code = 0 then clearRole (if live then handOver s n v.role v.queue v.len v.data else s) e.1 v.slot else s
        sendVerdict s e.1 n v.later v.reg v.ms code

/-- A packet takes effect at its object; none where it has to wait. -/
def applyItem (s : State) (n : Nat) (i : ConvIn) : Option State :=
  let p := i.pkt
  let c := itemCtxOf s i
  let role := reqRole p
  let v := bytesNum p.data
  match i.agent with
  | some a =>
    if p.op = 3 then
      let r := judgeSend s c n role (reqKind p) (reqBound p) p.len v
      some (sendVerdict r.2 a n i.later i.reg i.ms r.1)
    else if !roleQuiet s n role then none
    else
      let r := judgeDeleg s c n role (reqQueue p) (reqBound p) false p.len v
      some (sendVerdict (if r.1 = 0 then clearRole r.2 a i.slot else r.2) a n false 0 i.ms r.1)
  | none =>
    let may := remoteHolds s n role i.conn && (reqBound p || p.op == 4)
    if p.op = 3 then
      let r := judgeSend s c n role (reqKind p) may p.len v
      some (sendBack r.2 i n r.1)
    else if p.op = 4 then some (sendBack s i n (judgeClaim s c n role may))
    else if p.op = 5 then
      if !roleQuiet s n role then none
      else
        let r := judgeDeleg s c n role (reqQueue p) may true p.len v
        some (sendBack r.2 i n r.1)
    else if p.op = 11 then (if verdictWaits s n i.conn p then none else some (takeVerdict s n i.ctx i.conn p))
    else if p.op = 12 then
      let w := p.tag.toNat
      let s := proxyShows s n (bitsOf w 23 16) (bitsOf w 63 32) (bitsOf p.key.toNat 16 16 == 1)
      if convLife s n = 3 then some s
      else some { s with places := s.places ++ [{ conv := n, role := p.roff.toNat, word := p.tag, len := p.len, data := v }] }
    else if p.op = 13 then some (abortProxy s n (bitsOf p.tag.toNat 7 0) (survives s n))
    else none

/-- A send whose transition goes to a role held on another package finds no room in the buffers for its payload (log entry 97). -/
def noRoomFor (s : State) (n : Nat) (i : ConvIn) : Bool :=
  i.pkt.op == 3 && !bufferRoom s i.pkt.len &&
  (stateRow (convRun s n) (convCur s n)).any fun t => trSnd t == reqRole i.pkt && trKind t == reqKind i.pkt && roleRm (roleWord s n (trRcv t))

/-- CSEND_VERDICT: the home of the subject conversation judges the first packet that concerns it, and the verdict returns; at a proxy the
home's answer, placement or abort takes effect (R355, R367, R369). -/
def execCsendVerdict (s : State) : Out :=
  .next <|
    let s := dropBroken s
    match firstItem s s.cur 0 s.convIn with
    | none => s
    | some (k, i) =>
      if noRoomFor s s.cur i then s
      else
        match applyItem { s with convIn := s.convIn.eraseIdx k } s.cur i with
        | some s => s
        | none => s

/-- The lowest remote role whose connection has failed. -/
def failedRole (s : State) (n : Nat) : Option Nat :=
  (List.range 16).find? fun r => let w := roleWord s n r; roleAs w && roleRm w && connState s (convCtx s n) (roleConn w) == 2

/-- The requests that wait for the home of a freed or aborted conversation on a connection that has failed end PARTY_LOST (R371). -/
def failGone (s : State) (n : Nat) : State := failRequests s n 0xFF fun v => connState s (convCtx s n) v.conn == 2

/-- PARTY_LOST: a PARTY_LOST packet for the subject conversation, in its order, or the failure of a connection of it (R339, R371). -/
def execPartyLost (s : State) : Out :=
  .next <|
    let n := s.cur
    let s := dropBroken s
    match firstItem s n 0 s.convIn with
    | some (k, i) =>
      if i.agent.isNone ∧ i.pkt.op = 9 then
        let s := { s with convIn := s.convIn.eraseIdx k }
        let r := reqRole i.pkt
        if convCtx s n = i.ctx ∧ !convProxy s n ∧ (remoteHolds s n r i.conn ∨ (r = 0xFF ∧ (remoteConns s n).contains i.conn)) then
          abortConv s n r (survives s n)
        else s
      else s
    | none =>
      if convLife s n = 0 ∨ convLife s n = 3 then failGone s n
      else if convProxy s n then (if connState s (convCtx s n) (convHconn s n) = 2 then abortProxy s n 0xFF (survives s n) else s)
      else match failedRole s n with | some r => abortConv s n r (survives s n) | none => s

/-! ### Requests of tasks (Table 6.8, R429) -/

/-- ROLE. -/
def descRole (w : Nat → Nat) : Nat := bitsOf (w 4) 31 24
/-- MKIND. -/
def descKind (w : Nat → Nat) : Nat := bitsOf (w 4) 23 16
/-- CONV. -/
def descConv (w : Nat → Nat) : Nat := w 4 % 65536
/-- DQ. -/
def descDq (w : Nat → Nat) : Nat := w 6 % 1024

/-- The endpoint of an agent's task: its work item's queue; a handler has none (R363). -/
def endpointOf (s : State) (a : Nat) : Option Nat := if isCore a then (s.teamOf a).map (·.queue) else none

/-- The endpoint of an agent holds a role of an object of its package. -/
def agentHolds (s : State) (a n r : Nat) : Bool := match endpointOf s a with | some q => decide (r < 16) && roleHeld s n r q | none => false

/-- It holds the role and its task has bound it. -/
def agentMay (s : State) (a n r : Nat) : Bool := agentHolds s a n r && (match bindOf s n r with | some b => b.task == taskId s a | none => false)

/-- The current agent's request goes to a home on another package, and its task remembers it. -/
def toHome (s : State) (op n : Nat) (tag : Word) (len v : Nat) (r : Verdict) : State :=
  let c := (s.sc s.cur).ctx.toNat
  let conn := convHconn s n
  if !convUsable s c conn then s
  else
    let tok := (connRun s c conn).msgs
    let s := convSend s c conn op (convHobj s n) tag (BitVec.ofNat 64 tok) len v
    s.upSc fun x => { x with verdicts := x.verdicts ++ [{ r with conn := conn, tok := tok }] }

/-- A request without its own fields. -/
def Verdict.base0 (kind n role : Nat) : Verdict :=
  { conn := 0, tok := 0, kind := kind, conv := n, role := role, later := false, reg := 0, slot := 0, base := 0, len := 0, sem := 0, queue := 0, data := 0, ms := none }

/-- A send of the current task to the same conversation has no verdict yet (R105). -/
def sendPending (s : State) (n : Nat) : Bool :=
  (s.convIn.any fun i => i.agent == some s.cur && i.pkt.key.toNat == n) || ((s.sc s.cur).verdicts.any fun v => v.conv == n)

/-- The current task's CSEND.A marks its destination empty and goes on; CSEND waits. -/
def afterSend (later : Option (BitVec 6)) (s : State) : State :=
  match later with
  | none => s.wait .verdict
  | some d =>
    let f : Fill := { reg := d, ea := 0, w := 8, sext := false, acq := false, val := none, verdict := true }
    (s.upSc fun x => { x.markEmpty d with fills := x.fills ++ [f] }).retire

/-- A CSEND or CSEND.A whose payload has been read goes to the home. A verdict that the package knows at issue (the conversation is not the
context's, the proxy is idle or aborted, its connection cannot be used) is CSEND.A's value at once (DESIGN CHOICE, log entry 99). -/
def csendGo (later : Option (BitVec 6)) (w : Nat → Nat) (v : Nat) (s : State) : State :=
  let n := descConv w
  let role := descRole w
  let tag := reqTag role (descKind w) 0 (agentMay s s.cur n role)
  let d := later.getD 0
  if convProxy s n then
    if convLife s n = 3 ∨ convLife s n = 0 ∨ !convUsable s (s.sc s.cur).ctx.toNat (convHconn s n) then
      let code := if convLife s n = 3 then convLost s n * 256 + 10 else if convLife s n = 0 then noRole role else 0xFF * 256 + 10
      match later with
      | none => s.trap (code % 256) (code / 256) (BitVec.ofNat 64 n)
      | some d => s.result d (BitVec.ofNat 64 code)
    else if !bufferRoom s (plen w) then s
    else
      afterSend later (toHome s 3 n tag (plen w) v { Verdict.base0 3 n role with later := later.isSome, reg := d, ms := msgMs w })
  else
    let i : ConvIn :=
      { agent := some s.cur, later := later.isSome, reg := d, slot := 0, ms := msgMs w, ctx := (s.sc s.cur).ctx.toNat, conn := 0,
        pkt := convPacket 3 n tag (plen w) v }
    afterSend later { s with convIn := s.convIn ++ [i] }

/-- CSEND and CSEND.A (R103 to R105, R430). -/
def csendBody (later : Option (BitVec 6)) (ea : Word) (s : State) : State :=
  withDesc ea s fun w s =>
    match firstBad (msgChecks (lsSize s.cur) [3] w) with
    | some k => s.trap 14 k ea
    | none =>
      let n := descConv w
      if !allotted s (s.sc s.cur).ctx.toNat .conversation n then
        match later with
        | none => s.trap 14 4 ea
        | some d => s.result d (BitVec.ofNat 64 (4 * 256 + 14))
      else if sendPending s n then s
      else whenDrained s fun s => withLocal (pbase w) (plen w) s fun v => csendGo later w v

/-- CSEND (R105). -/
def execCsend (g : Guard) (a : Src) (off : BitVec 22) (s : State) : Out :=
  issue 6 g [a] none s fun s => csendBody none (ea22 (s.rd a) off) s

/-- CSEND.A (R28, R105). -/
def execCsendA (g : Guard) (d : BitVec 6) (a : Src) (off : BitVec 22) (s : State) : Out :=
  issue 6 g [a] (some d) s fun s => csendBody (some d) (ea22 (s.rd a) off) s

/-- The checks of R356 beyond Table 6.8's. -/
def claimChecks (size : Nat) (w : Nat → Nat) : List Bool :=
  let m := msgChecks size [4] w
  [ m.getD 0 false && bitsOf (w 0) 15 8 == 0, m.getD 1 false, m.getD 2 false && pbase w % 64 == 0,
    m.getD 3 false && plen w % 64 == 0 && decide (128 ≤ plen w), m.getD 4 false && bitsOf (w 4) 23 21 == 0,
    m.getD 5 false && bitsOf (w 5) 20 20 == 0, m.getD 6 false, m.getD 7 false ]

/-- A claim may bind: the endpoint holds the role, and no other task has bound it. -/
def mayClaim (s : State) (n role : Nat) : Bool :=
  agentHolds s s.cur n role && (match bindOf s n role with | some b => b.task == taskId s s.cur | none => true)

/-- The home's judgement of a CROLE, or the claim's way to it. -/
def claimGo (d : BitVec 6) (w : Nat → Nat) (slot : Nat) (s : State) : State :=
  let n := descConv w
  let role := descRole w
  let c := (s.sc s.cur).ctx.toNat
  let b : Bind := { role := role, task := taskId s s.cur, reg := slot, base := pbase w, len := plen w, sem := bitsOf (w 4) 20 16 }
  if convProxy s n ∧ convLife s n ≠ 0 ∧ convLife s n ≠ 3 then
    if !mayClaim s n role then s.result d 15
    else if !convUsable s c (convHconn s n) then s.result d 10
    else
      (toHome s 4 n (reqTag role 0 0 true) 0 0
        { Verdict.base0 4 n role with reg := d, slot := slot, base := pbase w, len := plen w, sem := bitsOf (w 4) 20 16 }).wait .verdict
  else
    let st := judgeClaim s c n role (mayClaim s n role)
    (if st = 0 then bindRole s s.cur n b else s).result d (BitVec.ofNat 64 st)

/-- CROLE (R356, R366, R429, R430). -/
def croleBody (d : BitVec 6) (ea b : Word) (s : State) : State :=
  withDesc ea s fun w s =>
    if 4 ≤ b.toNat then s.trap 14 9 ea
    else
      match firstBad (claimChecks (lsSize s.cur) w) with
      | some k => s.trap 14 k ea
      | none =>
        if (tget (s.sc s.cur).roles b.toNat 0).getLsbD 63 then s.trap 14 8 ea
        else if !allotted s (s.sc s.cur).ctx.toNat .conversation (descConv w) then s.trap 14 4 ea
        else whenDrained s (claimGo d w b.toNat)

/-- CROLE (R105, R356). -/
def execCrole (g : Guard) (d : BitVec 6) (a b : Src) (off : BitVec 22) (s : State) : Out :=
  issue 6 g [a, b] (some d) s fun s => croleBody d (ea22 (s.rd a) off) (s.rd b) s

/-- The checks of R358 beyond Table 6.8's. -/
def delegChecks (s : State) (w : Nat → Nat) : List Bool :=
  let m := msgChecks (lsSize s.cur) [5] w
  [ m.getD 0 false, m.getD 1 false, m.getD 2 false, m.getD 3 false, m.getD 4 false && descKind w == descDq w % 256, m.getD 5 false,
    m.getD 6 false && queueOf s (s.sc s.cur).ctx.toNat (descDq w), m.getD 7 false ]

/-- A delegation whose payload has been read goes to the home. -/
def delegGo (w : Nat → Nat) (slot v : Nat) (s : State) : State :=
  let n := descConv w
  let role := descRole w
  let c := (s.sc s.cur).ctx.toNat
  let tag := reqTag role 0 (descDq w) (agentMay s s.cur n role)
  if convLife s n = 3 then s.trap 10 (convLost s n) (BitVec.ofNat 64 n)
  else if convProxy s n ∧ convLife s n ≠ 0 then
    if !convUsable s c (convHconn s n) then s.trap 10 0xFF (BitVec.ofNat 64 n)
    else if !roleQuiet s n role || !bufferRoom s (plen w) then s
    else
      (toHome s 5 n tag (plen w) v { Verdict.base0 5 n role with slot := slot, queue := descDq w, len := plen w, data := v, ms := msgMs w }).wait .verdict
  else
    let i : ConvIn :=
      { agent := some s.cur, later := false, reg := 0, slot := slot, ms := msgMs w, ctx := c, conn := 0, pkt := convPacket 5 n tag (plen w) v }
    ({ s with convIn := s.convIn ++ [i] }).wait .verdict

/-- CDELEG (R358, R370, R429, R430). -/
def cdelegBody (ea b : Word) (s : State) : State :=
  withDesc ea s fun w s =>
    if 4 ≤ b.toNat then s.trap 14 9 ea
    else
      match firstBad (delegChecks s w) with
      | some k => s.trap 14 k ea
      | none =>
        let r := (tget (s.sc s.cur).roles b.toNat 0).toNat
        if r < 2 ^ 63 then s.trap 15 (descRole w) (BitVec.ofNat 64 (descConv w))
        else if bitsOf r 31 24 ≠ descRole w ∨ r % 65536 ≠ descConv w then s.trap 14 4 ea
        else if !allotted s (s.sc s.cur).ctx.toNat .conversation (descConv w) then s.trap 14 4 ea
        else if sendPending s (descConv w) then s
        else whenDrained s fun s => withLocal (pbase w) (plen w) s fun v => delegGo w b.toNat v

/-- CDELEG (R105, R358). -/
def execCdeleg (g : Guard) (a b : Src) (off : BitVec 22) (s : State) : Out :=
  issue 6 g [a, b] none s fun s => cdelegBody (ea22 (s.rd a) off) (s.rd b) s

/-! ### Itineraries (R360, R361) -/

/-- The key of word w of itinerary i. -/
def itinKey (i w : Nat) : Nat := winKey (0x2100_0000 + 32768 * i + 8 * w)
/-- NROLES. -/
def itinRoles (s : State) (i : Nat) : Nat := bitsOf (rdN s.mem (itinKey i 0) 8) 23 16
/-- NSTATES. -/
def itinStates (s : State) (i : Nat) : Nat := rdN s.mem (itinKey i 0) 8 % 2 ^ 16
/-- The 16 transition words of a state. -/
def itinRow (s : State) (i st : Nat) : List Nat := (List.range 16).map fun j => rdN s.mem (itinKey i (8 + 8 * st) + 4 * j) 4

/-- The valid transition words of a row: those before the first whose V is clear. -/
def validRow (r : List Nat) : List Nat := r.takeWhile fun w => bitsOf w 31 31 == 1

/-- A row obeys R361. -/
def rowOk (roles states : Nat) (r : List Nat) : Bool :=
  let v := validRow r
  (r.drop v.length).all (fun w => bitsOf w 31 31 == 0) && r.all (fun w => bitsOf w 30 28 == 0 && w % 16 == 0) &&
  v.all (fun w => decide (trSnd w < roles) && decide (trRcv w < roles) && trSnd w != trRcv w && trKind w != 0 && decide (trNext w < states)) &&
  (v.map fun w => (trSnd w, trKind w)).eraseDups.length == v.length

/-- An itinerary block obeys R361. -/
def itinOk (s : State) (i : Nat) : Bool :=
  let n := itinRoles s i
  let k := itinStates s i
  decide (1 ≤ n) && decide (n ≤ 16) && decide (1 ≤ k) && decide (k ≤ 256) && bitsOf (rdN s.mem (itinKey i 0) 8) 61 24 == 0 &&
  bitsOf (rdN s.mem (itinKey i 1) 8) 63 32 == 0 && [2, 3, 4, 5, 6, 7].all (fun w => rdN s.mem (itinKey i w) 8 == 0) &&
  (List.range k).all (fun st => rowOk n k (itinRow s i st)) &&
  !(s.mem.any fun e => decide (itinKey i (8 + 8 * k) ≤ e.1) && decide (e.1 < itinKey (i + 1) 0))

/-- ITINERARY_LOAD: a store of VALID = 1 loads an itinerary, or sets BAD (R361). -/
def execItineraryLoad (s : State) : Out :=
  .next <|
    match takeAct (fun a => match a with | .itinerary i => some i | _ => none) s with
    | none => s
    | some (i, s) =>
      let w0 := rdN s.mem (itinKey i 0) 8 % 2 ^ 62
      if rdN s.mem (itinKey i 1) 8 % 2 ^ 32 ≠ 0 then
        s.put64 (itinKey i 0) ((if (s.itins.any fun e => e.1 == i) then 3 * 2 ^ 62 else 2 ^ 62) + w0)
      else if itinOk s i then
        let rows := (List.range (itinStates s i)).map fun st => validRow (itinRow s i st)
        { s.put64 (itinKey i 0) (2 ^ 63 + w0) with itins := tins s.itins i ⟨itinRoles s i, rows⟩ }
      else { s.put64 (itinKey i 0) (2 ^ 62 + w0) with itins := tdel s.itins i }

/-! ### Opening, killing and freeing -/

/-- A role entry of an object that is to open (R364). -/
def entryOpens (s : State) (c roles n r : Nat) : Bool :=
  let w := roleWord s n r
  if r < roles then roleAs w && (if roleRm w then connPermits s c (roleConn w) 1 else queueOf s c (roleQueue w)) else w == 0

/-- The itinerary that the die has loaded under a number (R361). -/
def itinOf (s : State) (i : Nat) : Itin := tget s.itins i ⟨0, []⟩

/-- An object opens (R364), judged by the itinerary as it was loaded. -/
def opens (s : State) (n : Nat) : Bool :=
  let c := convCtx s n
  if convProxy s n then connPermits s c (convHconn s n) 1 && (List.range 16).all fun r => !(roleAs (roleWord s n r) && roleRm (roleWord s n r))
  else
    let i := convItin s n
    (s.itins.any fun e => e.1 == i) && allotted s c .itinerary i && (List.range 16).all (entryOpens s c (itinOf s i).roles n)

/-- The first item that concerns a conversation is a command of an operation: it is taken. -/
def takeCommand (s : State) (n op : Nat) : Option State :=
  let s := dropBroken s
  match firstItem s n 0 s.convIn with
  | none => none
  | some (k, i) => if i.pkt.op = op then some { s with convIn := s.convIn.eraseIdx k } else none

/-- CONVERSATION_OPEN: a store of OPEN = 1, in its order of arrival, opens the subject conversation, or sets BAD (R364, R368). -/
def execConversationOpen (s : State) : Out :=
  .next <|
    let n := s.cur
    match takeCommand s n 15 with
    | none => s
    | some s =>
      if convLife s n ≠ 0 then s
      else
        let keep := convCtx s n * 2 ^ 54 + convItin s n * 2 ^ 40
        if !opens s n then s.put64 (convKey n 0) (2 ^ 62 + keep)
        else if convProxy s n then putConv (s.put64 (convKey n 0) (2 ^ 63 + 2 ^ 60 + keep)) n ConvRun.reset
        else
          let rows := (itinOf s (convItin s n)).rows
          let life := if stateRow ⟨rows, []⟩ 0 = [] then 2 else 1
          let u := itinKey (convItin s n) 1
          let s := s.put64 u (rdN s.mem u 8 + 1)
          putConv (s.put64 (convKey n 0) (2 ^ 63 + life * 2 ^ 60 + keep)) n ⟨rows, []⟩

/-- CONVERSATION_KILL: a KILL write, in its order of arrival, aborts the subject conversation with LOST 0xFF; at a proxy it is carried to the home
(R368, R371). -/
def execConversationKill (s : State) : Out :=
  .next <|
    let n := s.cur
    match takeCommand s n 14 with
    | none => s
    | some s =>
      if convLife s n = 0 ∨ convLife s n = 3 then s
      else if convProxy s n then convSend s (convCtx s n) (convHconn s n) 9 (convHobj s n) 0xFF 0 0 0
      else abortConv s n 0xFF (survives s n)

/-- An accepted message of an object is held or unplaced: here, on its way to a holder elsewhere, or arrived and not yet taken (R374). -/
def convUnplaced (s : State) (n : Nat) : Bool :=
  s.places.any (fun m => m.conv == n) ||
  (!convProxy s n && s.tx.any fun t => t.pkt.op == 12 && t.ctx == convCtx s n && t.pkt.key.toNat % 65536 == n) ||
  s.convIn.any fun i => i.agent.isNone && i.pkt.op == 12 && itemConv s i == some n

/-- CONVERSATION_FREE: a closed or aborted object with nothing held or unplaced is zeroed; it stays its context's (R374). -/
def execConversationFree (s : State) : Out :=
  .next <|
    let n := s.cur
    match takeCommand s n 16 with
    | none => s
    | some s =>
      if convLife s n < 2 ∨ convUnplaced s n then s
      else
        let c := convCtx s n
        let u := itinKey (convItin s n) 1
        let s := if convProxy s n then s else s.put64 u (rdN s.mem u 8 - 1)
        let s := s.zeroKeys (convKey n 0) (convKey n 32)
        putConv (s.put64 (convKey n 0) (c * 2 ^ 54)) n ConvRun.reset

/-! ### Collectives (R337) -/

/-- A context holds a role in a conversation. -/
def holdsRole (s : State) (c n : Nat) : Bool :=
  allotted s c .conversation n && convCtx s n == c && convLife s n != 0 &&
  (List.range 16).any fun r => roleAs (roleWord s n r) && !roleRm (roleWord s n r)

/-- COLLECTIVE_ARM: a store of VALID = 1 arms a collective entry, unless it is malformed (R337). -/
def execCollectiveArm (s : State) : Out :=
  .next <|
    match takeAct (fun a => match a with | .collective c i => some (c, i) | _ => none) s with
    | none => s
    | some ((c, i), s) =>
      let w0 := collWord s c i 0
      let ok := holdsRole s c (w0 % 65536) && collWord s c i 1 % 8 == 0 && allotted s c .milestone (collWord s c i 2 % 2 ^ 20)
      s.put64 (cwinKey c (0x1B30_0000 + 64 * i)) (takeBits w0 (if ok then 2 ^ 61 else 0) 62 61)

end Sys2Proof.Machine
end

