-- ==== Sys2Proof/Machine/ContextOps.lean ====
section
/-! DEFINITION. Contexts: creation, the halt line and the halt report, watchdogs, and the kill (R246, R256, R323, R339, R373, R384 to R391, R402
to R404). -/
namespace Sys2Proof.Machine

/-! ### CONTEXT_CREATE (R385) -/

/-- NRES. -/
def nres (s : State) (c : Nat) : Nat := ctxWord s c 8 % 512

/-- Effective PREEMPT in µs. -/
def preemptUs (s : State) (c : Nat) : Nat := let v := bitsOf (ctxWord s c 4) 47 32; if v = 0 then 50 else v
/-- Effective SWD in µs. -/
def swdUs (s : State) (c : Nat) : Nat := let v := bitsOf (ctxWord s c 5) 63 32; if v = 0 then 500 else v

/-- HMIN of every live context, and of c. -/
def hminSum (s : State) (c : Nat) : Nat := (((List.range 64).filter fun k => k == c || ctxState s k == 1).map (hmin s)).sum

/-- A core may become a resident core. -/
def mayReside (s : State) (p : Nat) : Bool :=
  decide (p < 2304) && (s.co p).svc == .service && (s.co p).task.isNone &&
  (match (s.co p).resident with | some k => ctxState s k.toNat == 0 | none => true)

/-- The resident-core list, read in context 0's address space. -/
def resList (s : State) (c : Nat) : Option (List Nat × State) :=
  let n := nres s c
  if n = 0 then some ([], s)
  else
    match globalRead 0xFFFF 0 (lineFuel (2 * n)) (ctxWord s c 7) (2 * n) s with
    | .error _ => none
    | .ok (v, bad, s) => if bad then none else some ((List.range n).map fun k => (v / 2 ^ (16 * k)) % 65536, s)

/-- The checks of R385 that need no list. -/
def createOk (s : State) (c : Nat) : Bool :=
  c != 0 && decide (preemptUs s c < swdUs s c) && decide (4096 ≤ ctxWord s c 2 % 2 ^ 32) && ctxWord s c 1 % 4096 == 0 && decide (1 ≤ hmin s c) &&
  decide (hmin s c ≤ hmax s c) && decide (hminSum s c ≤ 1024)

/-- Word 0 of a context's entry with STATE, BAD and KCAUSE; BANKKEY stays. -/
def putCtxHead (s : State) (c st bad kcause : Nat) : State :=
  s.put64 (ctxKey c 0) (st * 2 ^ 61 + bad * 2 ^ 39 + bitsOf (ctxWord s c 0) 27 16 * 2 ^ 16 + kcause % 65536)

/-- KCAUSE. -/
def kcause (s : State) (c : Nat) : Nat := ctxWord s c 0 % 65536

/-- CREATE is refused. -/
def createBad (s : State) (c : Nat) : State := putCtxHead s c 0 1 (kcause s c)

/-- A request that a store has made concerns a context. -/
def Act.isOf (c : Nat) : Act → Bool
  | .drainreq k _ | .tree k _ | .timeslot k _ | .collective k _ | .ctxCreate k | .ctxKill k => k == c
  | .itinerary _ | .convOpen _ | .convKill _ | .convFree _ | .migrate _ | .routine _ _ _ => false

/-- CONTEXT_CREATE: a CREATE store creates a FREE context, its status block zeroed (R275), or sets BAD. -/
def execContextCreate (s : State) : Out :=
  .next <|
    match takeAct (fun a => match a with | .ctxCreate c => some c | _ => none) s with
    | none => s
    | some (c, s) =>
      if ctxState s c ≠ 0 then s
      else if !createOk s c then createBad s c
      else
        match resList s c with
        | none => createBad s c
        | some (ps, s) =>
          if ps.all (mayReside s) && ps.eraseDups.length == ps.length then
            let s := ps.foldl (fun s p => (zeroCore s p).upCo p fun x => { x with resident := some (BitVec.ofNat 6 c) }) s
            let s := { s.zeroKeys (tsKey c 0) (tsKey c 8) with acts := s.acts.filter fun a => !a.isOf c }
            (putCtxHead s c 1 0 0).putCx c { CtxRun.reset with residents := ps }
          else createBad s c

/-! ### The halt line (R387 to R389) -/

/-- A fault precedes another at the halt controller. -/
def FaultRec.before (a b : FaultRec) : Bool :=
  decide (a.tstop < b.tstop) || (a.tstop == b.tstop && (decide (a.typ < b.typ) || (a.typ == b.typ && decide (a.phys ≤ b.phys))))

/-- The first of a list of faults. -/
def firstOf : List FaultRec → Option FaultRec
  | [] => none
  | f :: fs =>
    match firstOf fs with
    | none => some f
    | some g => if f.before g then some f else some g

/-- The teams of a context that are on their cores. -/
def ctxTeams (s : State) (c : Nat) : List (Nat × Team) :=
  s.team.filter fun e => e.2.ctx.toNat == c && !e.2.ended && e.2.suspended.isNone

/-- The cores on which a task of a context runs. -/
def ctxCores (s : State) (c : Nat) : List Nat := (ctxTeams s c).flatMap fun e => (liveCores e.2).map (·.2)

/-- The threads that run a handler of a context. -/
def ctxThreads (s : State) (c : Nat) : List Nat :=
  (s.scal.filter fun e => isThread e.1 && e.2.run != .idle && e.2.ctx.toNat == c).map (·.1)

/-- The record of a scalar stream that stopped for the line. -/
def scalarRec (s : State) (c a : Nat) : FaultRec :=
  let x := s.sc a
  { ctx := BitVec.ofNat 6 c, typ := if isCore a then 0 else 4, phys := if isCore a then a else a - 4096, lcore := if isCore a then s.lcoreOf a else 0,
    cause := 0, detail := 0, pos := x.pc, stat := x.status, val := 0, aux := x.tcause, idx := x.tpc, tstop := s.ns, out := 0 }

/-- The record of a core's engine that stopped for the line, or at a record of a fenced class (R139). -/
def engineRec (s : State) (c p : Nat) (q : Nat) : FaultRec :=
  let v := (s.co p).queue (BitVec.ofNat 2 q)
  let stop : Nat × Nat := match v.fenced with | some e => (0x27, e.2) | none => (0, 0)
  { ctx := BitVec.ofNat 6 c, typ := q + 1, phys := p, lcore := s.lcoreOf p, cause := stop.1, detail := stop.2, pos := v.head.setWidth 64,
    stat := v.headWord, val := 0, aux := v.tail.setWidth 64, idx := BitVec.ofNat 64 v.begun, tstop := s.ns, out := if q = 2 then v.outstanding else 0 }

/-- A unit's record stands already. -/
def hasRec (rs : List FaultRec) (f : FaultRec) : Bool := rs.any fun r => r.typ == f.typ && r.phys == f.phys

/-- Records of one list, and of another those of units that have none yet. -/
def joinRecs (rs fs : List FaultRec) : List FaultRec := fs.foldl (fun rs f => if hasRec rs f then rs else rs ++ [f]) rs

/-- Every unit of a context stops (R388): its cores and its handlers. -/
def stopUnits (s : State) (c : Nat) : State :=
  let ps := ctxCores s c
  let s := s.stopCores .halted ps
  let s := ps.foldl (fun s p => s.putSc p { s.sc p with run := .halted }) s
  (ctxThreads s c).foldl (fun s a => let s := withdraw s a; let s := s.putSc a ((s.sc a).stop .halted); s.putSc a { s.sc a with run := .halted }) s

/-- Saves of a context are abandoned (R389). -/
def dropSaves (s : State) (c : Nat) : State :=
  { s with team := s.team.map fun e => if e.2.ctx.toNat = c then (e.1, { e.2 with saving := none, yield := none }) else e }

/-- The kill follows of itself (R404). -/
def killsAfter (cause : Nat) : Bool := cause == 0x2D || cause == 0x2F || cause == 0x30

/-- The line of a LIVE context rises for a fault (R387); pending are the faults of its other units that are on their way. -/
def raiseLine (s : State) (c : Nat) (f : FaultRec) (pending : List FaultRec) : State :=
  let saving := ((ctxTeams s c).filter fun e => e.2.saving.isSome || e.2.yield.isSome).flatMap fun e => (liveCores e.2).map (·.2)
  let s := dropSaves (stopUnits s c) c
  let own := joinRecs (if f.typ = 6 then [] else [f]) (pending.filter fun g => g.typ != 6)
  let units := (ctxCores s c).flatMap (fun p => scalarRec s c p :: (List.range 3).map fun q => engineRec s c p q) ++ (ctxThreads s c).map (scalarRec s c)
  (putCtxHead s c 2 0 f.cause).putCx c
    { s.cx c with
      traise := s.ns, first := if f.typ = 6 then none else some f, records := joinRecs own units, reported := false, saving := saving,
      killing := killsAfter f.cause || pending.any fun g => killsAfter g.cause }

/-- Faults that reach the controller of a halted context: they change the records of their own units only. -/
def lateFaults (s : State) (c : Nat) (fs : List FaultRec) : State :=
  let x := s.cx c
  let keep := x.records.filter fun r => !(r.cause == 0 && fs.any fun f => f.typ == r.typ && f.phys == r.phys)
  s.putCx c { x with records := if x.reported then x.records else joinRecs keep (fs.filter fun f => f.typ != 6),
                     killing := x.killing || fs.any fun f => killsAfter f.cause }

/-- CONTEXT_FAULT: the faults of the subject context that are on their way reach its halt controller; the first raises the line (R386,
R387). -/
def execContextFault (s : State) : Out :=
  .next <|
    let c := s.cur
    let fs := s.faults.filter fun f => f.ctx.toNat == c
    let s := { s with faults := s.faults.filter fun f => f.ctx.toNat != c }
    match firstOf fs with
    | none => s
    | some f => if ctxState s c = 1 then raiseLine s c f fs else if ctxState s c = 2 then lateFaults s c fs else s

/-! ### HALT_REPORT (R390, R391) -/

/-- A record precedes another in the report. -/
def recBefore (a b : FaultRec) : Bool := decide (a.typ < b.typ) || (a.typ == b.typ && decide (a.phys ≤ b.phys))

/-- Insert a record in order. -/
def insRec (r : FaultRec) : List FaultRec → List FaultRec
  | [] => [r]
  | x :: xs => if recBefore r x then r :: x :: xs else x :: insRec r xs

/-- Records in ascending order of type and unit. -/
def sortRecs (rs : List FaultRec) : List FaultRec := rs.foldl (fun l r => insRec r l) []

/-- The records of a report in their order: the first fault's first. -/
def reportOrder (x : CtxRun) : List FaultRec :=
  match x.first with
  | none => sortRecs x.records
  | some f => f :: sortRecs (x.records.filter fun r => !(r.typ == f.typ && r.phys == f.phys))

/-- A stop record (Table 23.5). -/
def stopRec (x : CtxRun) (r : FaultRec) : Nat :=
  let first := x.first == some r
  let saving := decide (r.typ < 4) && x.saving.contains r.phys
  let w0 := 2 ^ 63 + (if first then 2 ^ 62 else 0) + (if saving then 2 ^ 61 else 0) + r.typ % 16 * 2 ^ 56 + r.phys % 4096 * 2 ^ 44 + r.lcore % 256 * 2 ^ 36 +
    r.cause % 65536 * 2 ^ 16 + r.detail % 65536
  wordsNat [BitVec.ofNat 64 w0, r.pos, r.stat, r.val, r.aux, r.idx, BitVec.ofNat 64 r.tstop, BitVec.ofNat 64 r.out]

/-- Write stop records one after the other. -/
def writeRecs (c : Nat) (x : CtxRun) : Nat → List FaultRec → State → Option State
  | _, [], s => some s
  | ea, r :: rs, s =>
    match globalWrite 0xFFFF c 2 ea 64 (stopRec x r) s with
    | .ok s => writeRecs c x (ea + 64) rs s
    | .error _ => none

/-- The header of a report (Table 23.4). -/
def reportHead (s : State) (c : Nat) (x : CtxRun) (n lost : Nat) : Nat :=
  let w0 := 2 ^ 63 + (if lost = 0 then 0 else 2 ^ 62) + c * 2 ^ 56 + kcause s c * 2 ^ 32 + n
  wordsNat [BitVec.ofNat 64 w0, BitVec.ofNat 64 x.traise, BitVec.ofNat 64 s.ns, BitVec.ofNat 64 lost, 0, 0, 0, 0]

/-- FMS advances, if it is enabled (R391, R404). -/
def bumpFms (s : State) (c : Nat) : State :=
  let w := ctxWord s c 2
  if bitsOf w 43 43 = 1 then { s with incs := s.incs ++ [⟨0, bitsOf w 63 44, 1, none, none⟩] } else s

/-- The whole report, where the fault area takes it. -/
def writeReport (s : State) (c : Nat) : Option State :=
  let x := s.cx c
  let rs := reportOrder x
  let room := (ctxWord s c 2 % 2 ^ 32 - 64) / 64
  let area := ctxWord s c 1
  match writeRecs c x (area + 64) (rs.take room) s with
  | none => none
  | some s' =>
    match globalWrite 0xFFFF c 2 area 64 (reportHead s c x (min rs.length room) (rs.length - room)) s' with
    | .ok s => some s
    | .error _ => none

/-- Every engine of a context has come to an issue or step boundary (R172, R388). -/
def atBoundaries (s : State) (c : Nat) : Bool := (ctxCores s c).all fun p => [(s.co p).vq, (s.co p).mq, (s.co p).cq].all fun v => !v.inStep

/-- A stopped engine has ended the issue or step that had begun: its grant ends (R176), and where its context's line has risen its record is written
now (R388). -/
def stopEnds (s : State) (p : Nat) (q : BitVec 2) : State :=
  let s := if q = 1#2 then endGrant s p else s
  let c := (s.sc p).ctx.toNat
  let f := engineRec s c p q.toNat
  if ctxState s c ≠ 2 then s
  else s.putCx c { s.cx c with records := (s.cx c).records.map fun r => if r.typ = f.typ ∧ r.phys = p ∧ r.cause = 0 then f else r }

/-- HALT_REPORT: the report of the subject context is written, once its engines have stopped, and FMS advances. -/
def execHaltReport (s : State) : Out :=
  .next <|
    let c := s.cur
    if ctxState s c ≠ 2 ∨ (s.cx c).reported ∨ !atBoundaries s c then s
    else
      let s := (writeReport s c).getD s
      bumpFms (s.putCx c { s.cx c with reported := true }) c

/-! ### Watchdogs (R402, R403) -/

/-- The task watchdog of a core counts: its task has begun and runs, or a rollback of its phase does, and it is not suspended for a save (R402). -/
def watchdogCounts (s : State) (p : Nat) : Bool :=
  let x := s.sc p
  isCore p && (s.co p).task.isSome && !x.fresh && (x.run.isLive || ((s.co p).rolling && x.run == .suspended && !savingTask s p))

/-- TASK_WATCHDOG: the subject core's task has run for longer than TWD since its first instruction, or its last PHINT or PHASE. -/
def execTaskWatchdog (s : State) : Out :=
  .next <|
    let x := s.sc s.cur
    let twd := ctxWord s x.ctx.toNat 4 % 2 ^ 32
    if watchdogCounts s s.cur ∧ twd ≠ 0 ∧ twd * 1000 < s.ns - x.wd / 21 then
      watchdogFault ((withdraw s s.cur).upSc fun x => x.stop .halted) 0 0
    else s

/-- Since when the save watchdog of a team counts. -/
def saveSince (t : Team) : Option Nat := match t.saving with | some a => some a | none => t.yield

/-- SAVE_WATCHDOG: the save of the subject team has not finished within SWD: the context halts WATCHDOG_IN_SAVE. -/
def execSaveWatchdog (s : State) : Out :=
  .next <|
    match s.tm s.cur with
    | none => s
    | some t =>
      match saveSince t, (liveCores t).head? with
      | some t0, some e => if swdUs s t.ctx.toNat * 1000 < s.ns - t0 then asAgent s e.2 fun s => s.scalarFault 0x2D 0 0 else s
      | _, _ => s

/-! ### The kill (R404) -/

/-- The conversations of a context that are open or closed and not aborted. -/
def ctxConvs (s : State) (c : Nat) : List Nat :=
  (((s.allots.filter fun a => a.ctx == c && a.kind == .conversation).flatMap fun a => (List.range (a.hi - a.lo)).map (a.lo + ·))).filter fun n =>
    convLife s n == 1 || convLife s n == 2

/-- A proxy tells the home that every role held here is lost (R339, R373). -/
def tellLost (s : State) (n : Nat) : State :=
  (List.range 16).foldl (fun s r =>
    let w := roleWord s n r
    if roleAs w && !roleRm w then convSend s (convCtx s n) (convHconn s n) 9 (convHobj s n) (BitVec.ofNat 64 r) 0 0 0 else s) s

/-- Step 1: the context's conversations end. -/
def killConvs (s : State) (c : Nat) : State :=
  (ctxConvs s c).foldl (fun s n => if convProxy s n then tellLost s n else abortConv s n 0xFF false) s

/-- A notice of an abort or of a lost party has not been acknowledged; not even sent. -/
def noticePending (s : State) (c : Nat) : Bool := s.tx.any fun t => t.ctx == c && (t.pkt.op == 9 || t.pkt.op == 13)
def noticeUnsent (s : State) (c : Nat) : Bool := s.tx.any fun t => t.ctx == c && (t.pkt.op == 9 || t.pkt.op == 13) && !t.sent

/-- The connections of a context fail, and what has not been sent is discarded (R256). -/
def closeConns (s : State) (c : Nat) : State :=
  let used := (List.range 4096).filter fun n => bitsOf (connWord s c n 0) 63 63 == 1 || (s.conns.any fun e => e.1 == c * 4096 + n)
  let s := used.foldl (fun s n => failReads (setConnState s c n 2) c n 1) s
  { s with tx := s.tx.filter fun t => t.ctx != c || t.sent }

/-- Step 2: queued events, work items and fired operations of a context are discarded, and so is what has arrived for it and is not performed: messages,
conversation packets, completion flags. -/
def dropWork (s : State) (c : Nat) : State :=
  let qs := ((s.pool.filter fun i => itemCtx i.item == c).map fun i => itemQueue i.item).eraseDups
  let s := { s with
    pool := s.pool.filter (fun i => itemCtx i.item != c), spills := s.spills.filter (· != c), fired := s.fired.filter (fun f => f.ctx != c),
    ended := s.ended.filter (fun e => itemCtx e.1 != c), incs := s.incs.filter (fun i => i.ctx != c), own := s.own.filter (fun o => o.ctx != c),
    flags := s.flags.filter (fun f => f.ctx != c), convIn := s.convIn.filter fun i => i.ctx != c }
  let s := dropArrivals s c fun _ => true
  let s := qs.foldl syncDepth s
  let s := s.keepHeld fun k _ => k != c
  s.putCx c { s.cx c with events := [], drains := [], closed := true }

/-- CONTEXT_KILL: a KILL store halts a LIVE context with KILLED or marks a halted one; once the halt report of the subject context has been
written, its conversations are aborted, and when the notices of that have left its admit gates close (R373, R404). -/
def execContextKill (s : State) : Out :=
  .next <|
    match takeAct (fun a => match a with | .ctxKill c => some c | _ => none) s with
    | some (c, s) =>
      if ctxState s c = 1 then ctxCause s c 0x2F
      else if ctxState s c = 2 then s.putCx c { s.cx c with killing := true }
      else s
    | none =>
      let c := s.cur
      if ctxState s c = 2 ∧ (s.cx c).killing ∧ (s.cx c).reported then
        let s := if (s.cx c).told then s else let s := killConvs s c; s.putCx c { s.cx c with told := true }
        if noticeUnsent s c then s else setCtxState (dropWork (closeConns s c) c) c 3
      else s

/-! ### CONTEXT_ZEROING -/

/-- The leaves of a range table, in at most fuel levels. -/
def leavesOf (s : State) (d : Nat) : Nat → Nat → List Nat
  | 0, _ => []
  | k + 1, a =>
    if !nodeOk s d a then []
    else if bitsOf (physWord s d a 0) 63 63 = 1 then [a]
    else (List.range (bitsOf (physWord s d a 0) 7 0)).flatMap fun i => leavesOf s d k (nodeChild s d a i)

/-- The pages below a radix table, lvl levels down, each with its index from i on. -/
def radixPages (s : State) (d : Nat) : Nat → Nat → Nat → List (Nat × Nat)
  | 0, t, i => [(i, t)]
  | lvl + 1, t, i =>
    if physSize d < t + 8192 then []
    else (List.range 1024).flatMap fun j =>
      let w := physWord s d t j
      if bitsOf w 63 63 == 1 && (if lvl = 0 then w % 65536 == 0 else bitsOf w 55 0 % 8192 == 0)
      then radixPages s d lvl (bitsOf w 55 0) (i * 1024 + j) else []

/-- The physical runs that a range entry maps. -/
def entryRuns (s : State) (d a k : Nat) : List (Nat × Nat) :=
  let w0 := entWord s d a k 0
  let n := bitsOf (entWord s d a k 1) 55 16 + 1 - bitsOf w0 55 16
  if bitsOf w0 63 63 = 0 ∨ !entOk s d a k then []
  else if bitsOf w0 59 58 = 0 then [(entWord s d a k 2, n * 65536)]
  else ((radixPages s d 4 (entWord s d a k 2) 0).filter fun e => decide (e.1 < n)).map fun e => (e.2, 65536)

/-- The physical runs of a die that a context's range table maps. -/
def ctxRuns (s : State) (c d : Nat) : List (Nat × Nat) :=
  let root := rdN s.mem (ctlKey d (16 * c)) 8
  if bitsOf root 63 63 = 0 then []
  else (leavesOf s d 8 (bitsOf root 55 0)).flatMap fun a => (List.range (bitsOf (physWord s d a 0) 7 0)).flatMap fun k => entryRuns s d a k

/-- Zero a run of keys with everything the package keeps of it. -/
def wipe (s : State) (lo hi : Nat) : State :=
  let inside (k : Nat) : Bool := decide (lo ≤ k) && decide (k < hi)
  { s.zeroKeys lo hi with ecc := s.ecc.filter (fun e => !inside e.1), objs := s.objs.filter fun e => !inside e.1 }

/-- The parts of a physical run of a die that lie together in the key space: a tile die's run is one part, the Crossroads die's one for each
64 KiB. -/
def runParts (d a n : Nat) : List (Nat × Nat) :=
  let n := min n (physSize d - a)
  if d < 8 then [(physKey d a, n)] else (List.range (n / 65536)).map fun i => (physKey d (a + 65536 * i), 65536)

/-- A die zeroes the pages of a context and clears its translation root. -/
def wipeDie (c : Nat) (s : State) (d : Nat) : State :=
  let s := ((ctxRuns s c d).flatMap fun e => runParts d e.1 e.2).foldl (fun s e => wipe s e.1 (e.1 + e.2)) s
  let s := shootDie s d c 0 0
  s.put64 (ctlKey d (16 * c)) 0

/-- What the Crossroads die holds for a context is zeroed: its allotments, its windows, its connections and messages; its connections stay
failed (R256). -/
def wipeTables (s : State) (c : Nat) : State :=
  let mine := s.allots.filter fun a => a.ctx == c
  let s := mine.foldl (fun s a =>
    let r := allotRange' a.kind a.lo
    wipe s (winKey r.1) (winKey (r.1 + (a.hi - a.lo) * r.2))) s
  let failed := (List.range 4096).filter fun n => connState s c n == 2
  let s := failed.foldl (fun s n => setConnState s c n 2) (wipe s (cwinKey c 0) (cwinKey (c + 1) 0))
  let own (k : AllotKind) (n : Nat) : Bool := mine.any fun a => a.kind == k && decide (a.lo ≤ n) && decide (n < a.hi)
  { s with
    convs := s.convs.filter (fun e => !own .conversation e.1), places := s.places.filter (fun m => !own .conversation m.conv),
    itins := s.itins.filter (fun e => !own .itinerary e.1), allots := s.allots.filter (fun a => a.ctx != c),
    conns := s.conns.filter (fun e => e.1 / 4096 != c), tx := s.tx.filter (fun t => t.ctx != c), reads := s.reads.filter (fun r => r.ctx != c),
    rx := s.rx.filter (fun m => m.ctx != c), flags := s.flags.filter (fun f => f.ctx != c), trees := s.trees.filter (fun e => e.1 / 1024 != c),
    slots := s.slots.filter (fun e => e.1 / 64 != c), convIn := s.convIn.filter (fun i => i.ctx != c),
    faults := s.faults.filter (fun f => f.ctx.toNat != c), incs := s.incs.filter (fun i => i.ctx != c), own := s.own.filter (fun o => o.ctx != c),
    pasidCtx := s.pasidCtx.filter (· != c),
    acts := s.acts.filter fun a => !a.isOf c &&
      (match a with | .itinerary i => !own .itinerary i | .convOpen n | .convKill n | .convFree n => !own .conversation n | _ => true) }
where
  /-- The bytes of one entry of an allotted table: the first entry's offset and their size. -/
  allotRange' (k : AllotKind) (i : Nat) : Nat × Nat :=
    match k with
    | .trigger => (64 * i, 64)
    | .milestone => (0x1000_0000 + 16 * i, 16)
    | .conversation => (0x2000_0000 + 256 * i, 256)
    | .itinerary => (0x2100_0000 + 32768 * i, 32768)

/-- The cores and threads of a context are zeroed and free. -/
def wipeUnits (s : State) (c : Nat) : State :=
  let ps := (s.team.filter fun e => e.2.ctx.toNat == c && !e.2.ended && e.2.suspended.isNone).flatMap (fun e => e.2.cores) ++ (s.cx c).residents
  let s := ps.foldl (fun s p => (zeroCore s p).upCo p fun x => { x with task := none, preClaim := false, resident := none }) s
  let ts := (s.scal.filter fun e => isThread e.1 && e.2.ctx.toNat == c).map (·.1)
  let s := ts.foldl (fun s a => (s.zeroStore (tlsKey (a - 4096) 0) (tlsKey (a - 4096) 0x4000)).putSc a Scalar.reset) s
  { s with team := s.team.filter fun e => e.2.ctx.toNat != c }

/-- Every request of a context that its gates had admitted has been performed or discarded: no write-back and no notice is on its way, no reply to
a copy record is to come, and no message is in arrival (R323, R404). -/
def ctxDrained (s : State) (c : Nat) : Bool :=
  s.scal.all (fun e => e.2.ctx.toNat != c || e.2.wb.isEmpty) && !noticePending s c && !(s.reads.any fun r => r.ctx == c) &&
  !(s.rx.any fun m => m.ctx == c) && !(s.flags.any fun f => f.ctx == c)

/-- CONTEXT_ZEROING: the subject context's drain is confirmed and STATE becomes ZEROING; then its cores, threads, memory, roots and
allotments are zeroed, STATE becomes FREE and FMS advances. -/
def execContextZeroing (s : State) : Out :=
  .next <|
    let c := s.cur
    if ctxState s c = 3 then (if ctxDrained s c then setCtxState s c 4 else s)
    else if ctxState s c = 4 then
      let s := wipeUnits s c
      let s := wipeTables ((List.range 9).foldl (wipeDie c) s) c
      let s := (s.put64 (spillKey c 2) 0).put64 (spillKey c 3) 0
      bumpFms ((putCtxHead s c 0 0 (kcause s c)).putCx c CtxRun.reset) c
    else s

end Sys2Proof.Machine
end

