-- ==== Sys2Proof/Machine/CopyRecs.lean ====
section
/-! DEFINITION. The copy records; the effects are in CopyOps.lean (R211 to R230). -/
namespace Sys2Proof.Machine

/-- COPY: Copies runs between scratchpad and global memory (R219). -/
def execCopy (r : Rec) (s : State) : Out := .next (startRecord 2 0x01 r s)

/-- FILL: Fills runs with a byte value (R220). -/
def execFill (r : Rec) (s : State) : Out := .next (startRecord 2 0x02 r s)

/-- PUT: Writes runs into a team member's scratchpad (R221). -/
def execPut (r : Rec) (s : State) : Out := .next (startRecord 2 0x10 r s)

/-- GET: Reads runs from a team member's scratchpad (R221). -/
def execGet (r : Rec) (s : State) : Out := .next (startRecord 2 0x11 r s)

/-- PUTRED: Combines runs into a peer's scratchpad or global memory at a reduction unit (R222). -/
def execPutred (r : Rec) (s : State) : Out := .next (startRecord 2 0x12 r s)

/-- MCAST: Writes runs to every core named in a peer mask (R223). -/
def execMcast (r : Rec) (s : State) : Out := .next (startRecord 2 0x13 r s)

/-- APUT: Contributes elements to a combine tree through the aperture (R224). -/
def execAput (r : Rec) (s : State) : Out := .next (startRecord 2 0x14 r s)

/-- SEMPOST: Adds 1 to DONE, and optionally sets ERR, of a semaphore on a team core (R225). -/
def execSempost (r : Rec) (s : State) : Out := .next (startRecord 2 0x18 r s)

/-- NSEND: Sends one message per issue on a connection (R227). -/
def execNsend (r : Rec) (s : State) : Out := .next (startRecord 2 0x20 r s)

/-- NWRITE: RMA-writes runs to a remote window (R228). -/
def execNwrite (r : Rec) (s : State) : Out := .next (startRecord 2 0x21 r s)

/-- NREAD: RMA-reads runs from a remote window (R228). -/
def execNread (r : Rec) (s : State) : Out := .next (startRecord 2 0x22 r s)

/-- NFLUSH: Sends a flush that completes when earlier NWRITEs have been placed (R229). -/
def execNflush (r : Rec) (s : State) : Out := .next (startRecord 2 0x23 r s)

end Sys2Proof.Machine
end

