-- ==== Sys2Proof/Machine/EngineIssue.lean ====
section
/-! DEFINITION. Handing records to the engines: PUSH, PUSHM, RTAIL and QFENCE (R23, R24, R89 to R92, R131, R140). -/
namespace Sys2Proof.Machine

/-- A queue of the current core. -/
def State.curQueue (s : State) (q : BitVec 2) : Queue := (s.co s.cur).queue q

/-- The checks and the acceptance that PUSH and PUSHM share (R23, R89): ring, validity, room. -/
def pushBody (q : BitVec 2) (pd : BitVec 5) (w : BitVec 512) (tval : Word) (s : State) : State :=
  let v := s.curQueue q
  if v.count = 0 then s.trap 8 2 1
  else
    let rule := wordsBroken (judgeOf s s.cur q false) w
    if rule ≠ 0 then s.trap 7 rule tval
    else if v.full then s.resultP pd true
    else (acceptRecord s s.cur q w false).resultP pd false

/-- Register a + i as a source under one policy bit. -/
def srcAt (a : Src) (i : Nat) : Src := { a with r := a.r + BitVec.ofNat 6 i }

/-- The record in eight registers from a on, word i in register a + i. -/
def regsRecord (s : State) (a : Src) : Nat → BitVec 512
  | 0 => 0
  | n + 1 => ((s.rd (srcAt a n)).setWidth 512 <<< (64 * n)) ||| regsRecord s a n

/-- PUSH (R23, R89). -/
def execPush (g : Guard) (pd : BitVec 5) (a : Src) (q : BitVec 2) (s : State) : Out :=
  issueCore (.push g pd a q) 5 g ((List.range 8).map (srcAt a)) none s fun s => pushBody q pd (regsRecord s a 8) (a.r.setWidth 64) s

/-- PUSHM: the record is read from scratchpad (R24, R89); an uncorrectable word there is consumed as by a load (R77), before the ring is looked at
(DESIGN CHOICE, log entry 102). -/
def pushmBody (q : BitVec 2) (pd : BitVec 5) (ea : Word) (s : State) : State :=
  if ea.toNat % 64 ≠ 0 then s.trap 3 0 ea
  else if 0x3F_FFC0 < ea.toNat then s.trap 4 0 ea
  else if spBad s s.cur ea.toNat 64 then consume s s.cur false 0 fun s d => s.ctxFault 0x22 d ea
  else pushBody q pd (BitVec.ofNat 512 (spRead s s.cur ea.toNat 64)) ea (spFix s s.cur ea.toNat 64)

/-- PUSHM (R23, R24, R89). -/
def execPushm (g : Guard) (pd : BitVec 5) (a : Src) (q : BitVec 2) (off : BitVec 22) (s : State) : Out :=
  issueCore (.pushm g pd a q off) 5 g [a] none s fun s => pushmBody q pd (ea22 (s.rd a) off) s

/-- Accept n records that stand in ring memory. -/
def acceptN (q : BitVec 2) : Nat → State → State
  | 0, s => s
  | n + 1, s => acceptN q n (acceptSlot s s.cur q false)

/-- The scratchpad addresses of the header words that RTAIL reads: those of n slots from TAIL on (R90). -/
def rtailHeaders (v : Queue) (n : Nat) : List Nat := (List.range n).map fun j => v.slot (v.tail + BitVec.ofNat 32 j)

/-- RTAIL's checks and effect (R90). Its reads of the headers correct single errors; an uncorrectable one is consumed, the first in slot order
(R77, R417). -/
def rtailBody (q : BitVec 2) (n : Word) (s : State) : State :=
  let v := s.curQueue q
  if v.count = 0 then s.trap 8 2 n
  else if v.count.toNat < n.toNat then s.trap 8 0 n
  else if v.count.toNat - v.fillLevel < n.toNat then s.trap 8 1 n
  else
    let hs := rtailHeaders v n.toNat
    match hs.find? fun a => spBad s s.cur a 8 with
    | some a => consume s s.cur false 0 fun s d => s.ctxFault 0x22 d (BitVec.ofNat 64 a)
    | none => (acceptN q n.toNat (hs.foldl (fun s a => spFix s s.cur a 8) s)).retire

/-- RTAIL (R90). -/
def execRtail (g : Guard) (a : Src) (q : BitVec 2) (s : State) : Out :=
  issueCore (.rtail g a q) 5 g [a] none s fun s => rtailBody q (s.rd a) s

/-- The queues of a mask. -/
def maskQueues (m : BitVec 3) : List Nat := [0, 1, 2].filter fun j => m.getLsbD j

/-- A fence record that QFENCE writes (R140). -/
def fenceRecord (m : BitVec 3) (num : BitVec 32) : BitVec 512 :=
  (0x3010_0000_0000_0000#512) ||| (m.setWidth 512 <<< 36) ||| (num.setWidth 512 <<< 64)

/-- QFENCE (R92): a queue without a ring traps, a full one stalls, else every named queue takes a fence of one join number. -/
def qfenceBody (m : BitVec 3) (s : State) : State :=
  let qs := maskQueues m
  match qs.find? fun j => (s.curQueue (BitVec.ofNat 2 j)).count == 0 with
  | some j => s.trap 8 2 (BitVec.ofNat 64 j)
  | none =>
    if qs.any fun j => (s.curQueue (BitVec.ofNat 2 j)).full then s
    else
      let num := (s.co s.cur).joinNo
      let s := s.upCo s.cur fun x => { x with joinNo := num + 1 }
      (qs.foldl (fun s j => acceptRecord s s.cur (BitVec.ofNat 2 j) (fenceRecord m num) true) s).retire

/-- QFENCE (R92). -/
def execQfence (g : Guard) (m : BitVec 3) (s : State) : Out := issueCore (.qfence g m) 5 g [] none s (qfenceBody m)

end Sys2Proof.Machine
end

