-- ==== Sys2Proof/Machine/Flow.lean ====
section
/-! DEFINITION. Branches, calls and hardware loops (R65 to R73). -/
namespace Sys2Proof.Machine

/-- A taken transfer of the current agent. -/
def State.jump (s : State) (t : Word) : State := s.upSc fun x => x.jump t

/-- BR (R65). -/
def execBr (g : Guard) (imm : BitVec 28) (s : State) : Out := issue 0 g [] none s fun s => s.jump (s.pc + immWords imm)

/-- CALL writes s63 (R65). -/
def execCall (g : Guard) (imm : BitVec 28) (s : State) : Out :=
  issue 0 g [] (some 63#6) s fun s => (s.wr 63#6 (s.pc + 8)).jump (s.pc + immWords imm)

/-- JR: a target that is not a multiple of 8 traps MISALIGNED (R66). -/
def execJr (g : Guard) (a : Src) (s : State) : Out :=
  issue 0 g [a] none s fun s => if (s.rd a).toNat % 8 ≠ 0 then s.trap 3 0 (s.rd a) else s.jump (s.rd a)

/-- CALLR reads the target before it writes s63 (R66). -/
def execCallr (g : Guard) (a : Src) (s : State) : Out :=
  issue 0 g [a] (some 63#6) s fun s => if (s.rd a).toNat % 8 ≠ 0 then s.trap 3 0 (s.rd a) else (s.wr 63#6 (s.pc + 8)).jump (s.rd a)

/-- The loop registers of a set, its active bit and LORD (R71). -/
def Scalar.setLoop (x : Scalar) (n : BitVec 1) (start fin cnt : Word) : Scalar :=
  let on := decide (cnt ≠ 0#64)
  if n = 0#1 then
    { x with lstart0 := start, lend0 := fin, lcount0 := cnt, status := if on then setBit (setBit x.status 0 true) 2 false else setBit x.status 0 false }
  else
    { x with lstart1 := start, lend1 := fin, lcount1 := cnt, status := if on then setBit (setBit x.status 1 true) 2 true else setBit x.status 1 false }

/-- LOOP and LOOPI once the count is known (R71): a zero count is a taken transfer to the label. -/
def loopBody (n : BitVec 1) (cnt : Word) (imm : BitVec 28) (s : State) : State :=
  let pc := s.pc
  let s := s.upSc fun x => x.setLoop n (pc + 8) (pc + immWords imm - 8) cnt
  if cnt = 0#64 then s.jump (pc + immWords imm) else s.retire

/-- LOOP (R71). -/
def execLoop (g : Guard) (n : BitVec 1) (a : Src) (imm : BitVec 28) (s : State) : Out :=
  issue 0 g [a] none s fun s => loopBody n (s.rd a) imm s

/-- LOOPI (R71). -/
def execLoopi (g : Guard) (n : BitVec 1) (cnt : BitVec 12) (imm : BitVec 28) (s : State) : Out :=
  issue 0 g [] none s fun s => loopBody n (cnt.setWidth 64) imm s

/-- LPCLR sets a loop set inactive and leaves its registers and LORD (R73). -/
def execLpclr (g : Guard) (n : BitVec 1) (s : State) : Out :=
  issue 0 g [] none s fun s => (s.upSc fun x => { x with status := setBit x.status n.toNat false }).retire

end Sys2Proof.Machine
end

