-- ==== Sys2Proof/Machine/MatrixRecs.lean ====
section
/-! DEFINITION. The matrix records; the effects are in Matrix.lean (R159 to R181). -/
namespace Sys2Proof.Machine

/-- MCFG: Loads the matrix configuration block under a grant (R178). -/
def execMcfg (r : Rec) (s : State) : Out := .next (startRecord 1 0x01 r s)

/-- MZERO: Zeroes accumulator blocks and sets their tags (R180). -/
def execMzero (r : Rec) (s : State) : Out := .next (startRecord 1 0x02 r s)

/-- MDOT_T: Ternary-weight product accumulated into the accumulator, step by step (R167). -/
def execMdotT (r : Rec) (s : State) : Out := .next (startRecord 1 0x10 r s)

/-- MDOT_S4: Signed 4-bit-weight product on digit planes (R167). -/
def execMdotS4 (r : Rec) (s : State) : Out := .next (startRecord 1 0x11 r s)

/-- MDOT_I8: INT8-weight product on digit planes (R167). -/
def execMdotI8 (r : Rec) (s : State) : Out := .next (startRecord 1 0x12 r s)

end Sys2Proof.Machine
end

