-- ==== Sys2Proof/Machine/Migration.lean ====
section
/-! DEFINITION. Migration of a span within one die (R322, R352). -/
namespace Sys2Proof.Machine

/-! ### The request block (Table 19.7) -/

/-- Word w of a die's migration request block. -/
def migKey (d w : Nat) : Nat := ctlKey d (0x1000 + 8 * w)
/-- Its value. -/
def migWord (s : State) (d w : Nat) : Nat := rdN s.mem (migKey d w) 8
/-- VBASE. -/
def migBase (s : State) (d : Nat) : Nat := bitsOf (migWord s d 0) 55 0
/-- CTX. -/
def migCtx (s : State) (d : Nat) : Nat := bitsOf (migWord s d 1) 55 48
/-- LEN. -/
def migLen (s : State) (d : Nat) : Nat := bitsOf (migWord s d 1) 47 0
/-- NEWPHYS. -/
def migNew (s : State) (d : Nat) : Nat := bitsOf (migWord s d 2) 55 0
/-- BUSY. -/
def migBusy (s : State) (d : Nat) : Bool := bitsOf (migWord s d 0) 62 62 == 1

/-- Give BUSY, FAIL and DONE as a number of three bits; VBASE stays. -/
def putMig (s : State) (d v : Nat) : State := s.put64 (migKey d 0) (v * 2 ^ 60 + migBase s d)

/-! ### What is moved -/

/-- The physical address of the level-0 word of page n of a paged range, from level lvl down. -/
def leafSlot (s : State) (d n : Nat) : Nat → Nat → Option Nat
  | 0, _ => none
  | 1, t => some (t + 8 * (n % 1024))
  | lvl + 2, t =>
    let w := physWord s d t ((n / 2 ^ (10 * (lvl + 1))) % 1024)
    if decide (t + 8192 ≤ physSize d) && bitsOf w 63 63 == 1 && bitsOf w 55 0 % 8192 == 0
    then leafSlot s d n (lvl + 1) (bitsOf w 55 0) else none

/-- One piece of a migration: where it lies, where it goes, its bytes, the word of the tables that names it and that word's new value. -/
structure Piece where
  old  : Nat
  new  : Nat
  n    : Nat
  slot : Nat
  word : Nat
deriving DecidableEq, Repr

/-- The pieces of a paged span whose first page is page n0: its mapped pages, page i of the span to the i-th page from NEWPHYS on. -/
def pagePieces (s : State) (d map n0 new cnt : Nat) : List Piece :=
  (List.range cnt).filterMap fun i =>
    match radix s d (n0 + i) 4 map, leafSlot s d (n0 + i) 4 map with
    | some p, some a => some { old := p, new := new + 65536 * i, n := 65536, slot := a, word := 2 ^ 63 + new + 65536 * i }
    | _, _ => none

/-- The pieces of the request of a die, if the span lies in one valid entry and a contiguous range is moved whole (R352). -/
def migPieces (s : State) (d : Nat) : Option (List Piece) :=
  let v := migBase s d
  let len := migLen s d
  if 63 < migCtx s d then none
  else
    match rangeEntry s (migCtx s d) d v with
    | none => none
    | some (a, k) =>
      let w0 := entWord s d a k 0
      let base := bitsOf w0 55 16 * 65536
      let last := bitsOf (entWord s d a k 1) 55 16 * 65536 + 0xFFFF
      let map := entWord s d a k 2
      if last < v + len - 1 then none
      else if bitsOf w0 59 58 = 0 then
        if v = base ∧ v + len - 1 = last then
          some [{ old := map, new := migNew s d, n := len, slot := a + 8 * (4 + 4 * k + 2), word := migNew s d }]
        else none
      else some (pagePieces s d map ((v - base) / 65536) (migNew s d) (len / 65536))

/-- A piece does not overlap the new physical range. -/
def Piece.apart (x : Piece) (new len : Nat) : Bool := decide (x.old + x.n ≤ new) || decide (new + len ≤ x.old)

/-- The request of a die obeys Table 19.7 and R352: its pieces. -/
def migOk (s : State) (d : Nat) : Option (List Piece) :=
  let new := migNew s d
  let len := migLen s d
  if migBase s d % 65536 ≠ 0 ∨ len % 65536 ≠ 0 ∨ len = 0 ∨ new % 65536 ≠ 0 ∨ physSize d < new + len then none
  else
    match migPieces s d with
    | none => none
    | some ps => if ps.all fun x => x.apart new len && decide (x.old + x.n ≤ physSize d) then some ps else none

/-! ### The move -/

/-- A key of a range of n keys at src, moved to dst. -/
def moveKey (src dst n k : Nat) : Nat := if src ≤ k ∧ k < src + n then k - src + dst else k

/-- The listed bytes of a range copied over another. -/
def copyRange (m : Memory) (src dst n : Nat) : Memory :=
  (m.filter fun e => decide (src ≤ e.1) && decide (e.1 < src + n)).foldl (fun m e => memPut m (e.1 - src + dst) e.2) (zeroRange m dst (dst + n))

/-- A table's entries of a range move to another, over what stood there. -/
def moveTbl {α : Type} (t : Tbl α) (src dst n : Nat) : Tbl α :=
  (t.filter fun e => decide (src ≤ e.1) && decide (e.1 < src + n)).foldl (fun t e => tins t (e.1 - src + dst) e.2)
    (t.filter fun e => !(decide (src ≤ e.1) && decide (e.1 < src + n)) && !(decide (dst ≤ e.1) && decide (e.1 < dst + n)))

/-- The errors of a range after it has been copied over another: a line that can be corrected is written afresh, one that cannot poisons
its new place. -/
def copyEcc (s : State) (src dst n : Nat) : Tbl (List Nat) :=
  (s.ecc.filter fun e => decide (src ≤ e.1) && decide (e.1 < src + n) && lineUncorrectable s e.1).foldl
    (fun t e => tput t (e.1 - src + dst) (List.range 9) []) (s.ecc.filter fun e => !(decide (dst ≤ e.1) && decide (e.1 < dst + n)))

/-- A thread's watch line, if it lies in a range, moves with it. -/
def Scalar.moveWatch (src dst n : Nat) (x : Scalar) : Scalar :=
  { x with watch := x.watch.map fun (w : Nat × Bool) => (moveKey src dst n w.1, w.2) }

/-- An agent that waits on a line of a range of n keys loses its monitor to the migration: its WAITA returns (R96). -/
def loseMonitor (src n : Nat) (s : State) (a : Nat) : State :=
  match (s.sc a).run with
  | .waiting (.waita pd l hit) => if src ≤ l ∧ l < src + n then asAgent s a fun s => s.resultP pd !hit else s
  | _ => s

/-- A piece is copied, with the state of the sync objects in it and the watch lines in it, and the word that names it is written; a WAITA on
one of its lines returns. -/
def movePiece (d : Nat) (s : State) (x : Piece) : State :=
  let src := physKey d x.old
  let dst := physKey d x.new
  let s := (s.scal.map (·.1)).foldl (loseMonitor src x.n) s
  let s := noteRange (noteReads s src (src + x.n)) dst (dst + x.n)
  let s := { s with
    mem := copyRange s.mem src dst x.n, ecc := copyEcc s src dst x.n, objs := moveTbl s.objs src dst x.n,
    scal := s.scal.map fun e => (e.1, e.2.moveWatch src dst x.n) }
  keyWrite s (physKey d x.slot) 8 x.word 0xFF

/-- MIGRATION_REQUEST: the request of a GO store is judged: one that breaks a rule sets FAIL and is over (R352). -/
def execMigrationRequest (s : State) : Out :=
  .next <|
    match takeAct (fun a => match a with | .migrate d => some d | _ => none) s with
    | none => s
    | some (d, s) => if migBusy s d && (migOk s d).isNone then putMig s d 2 else s

/-- MIGRATION_COMPLETE: the subject die's memory side has drained the requests admitted to the span, copies it, swaps the translation and
shoots it down; requests that were held are performed at the new pages (R322, R352). -/
def execMigrationComplete (s : State) : Out :=
  .next <|
    let d := s.cur
    if !migBusy s d then s
    else
      match migOk s d with
      | none => putMig s d 2
      | some ps =>
        let c := migCtx s d
        let v := migBase s d
        let len := migLen s d
        putMig (shootDie (ps.foldl (movePiece d) s) d c v len) d 1

end Sys2Proof.Machine
end

