-- ==== Sys2Proof/Machine/System.lean ====
section
/-! DEFINITION. Unassigned opcodes, software traps and the return from a trap (R40, R86, R110). -/
namespace Sys2Proof.Machine

/-- An unassigned opcode traps ILLEGAL_OP with DETAIL 0, the word in TVAL (R40). -/
def execUnassignedOpcode (w : Word) (s : State) : Out := .next (s.trap 1 0 w)

/-- TRAP (R110). -/
def execTrapOp (g : Guard) (code : BitVec 16) (s : State) : Out := issue 0 g [] none s fun s => s.trap 13 0 (code.setWidth 64)

/-- BREAK (R110). -/
def execBrk (g : Guard) (s : State) : Out := issue 0 g [] none s fun s => s.trap 12 0 0

/-- ERET (R21, R86). -/
def execEret (g : Guard) (s : State) : Out := issue 0 g [] none s fun s => s.upSc Scalar.eret

end Sys2Proof.Machine
end

