-- ==== Sys2Proof/Machine/VectorRecs.lean ====
section
/-! DEFINITION. The vector records: what starting one does is the same for all, and the effect of each operation is in Vector.lean (R184 to R210). -/
namespace Sys2Proof.Machine

/-- VLD: Loads scratchpad spans into vector register lanes (R188). -/
def execVld (r : Rec) (s : State) : Out := .next (startRecord 0 0x01 r s)

/-- VLD_BC: Loads one element and broadcasts it to every active lane (R188). -/
def execVldBc (r : Rec) (s : State) : Out := .next (startRecord 0 0x02 r s)

/-- VST: Stores the active lanes of a register to scratchpad (R188). -/
def execVst (r : Rec) (s : State) : Out := .next (startRecord 0 0x03 r s)

/-- VMOV: Copies a register's bits under a new tag (R189). -/
def execVmov (r : Rec) (s : State) : Out := .next (startRecord 0 0x04 r s)

/-- ACCRD: Reads accumulator entries into a register or into scratchpad (R190). -/
def execAccrd (r : Rec) (s : State) : Out := .next (startRecord 0 0x08 r s)

/-- ACCWR: Writes register lanes into accumulator entries (R191). -/
def execAccwr (r : Rec) (s : State) : Out := .next (startRecord 0 0x09 r s)

/-- PARK: Parks vector registers in spill-map groups (R192). -/
def execPark (r : Rec) (s : State) : Out := .next (startRecord 0 0x0A r s)

/-- UNPARK: Returns parked groups to vector registers (R193). -/
def execUnpark (r : Rec) (s : State) : Out := .next (startRecord 0 0x0B r s)

/-- FADD: Floating-point add, lane by lane (R194). -/
def execFadd (r : Rec) (s : State) : Out := .next (startRecord 0 0x10 r s)

/-- FSUB: Floating-point subtract, lane by lane (R194). -/
def execFsub (r : Rec) (s : State) : Out := .next (startRecord 0 0x11 r s)

/-- FMUL: Floating-point multiply, lane by lane (R194). -/
def execFmul (r : Rec) (s : State) : Out := .next (startRecord 0 0x12 r s)

/-- FMA: Fused multiply-add with a single rounding (R194). -/
def execFma (r : Rec) (s : State) : Out := .next (startRecord 0 0x13 r s)

/-- FMIN: Floating-point minimum, lane by lane (R194). -/
def execFmin (r : Rec) (s : State) : Out := .next (startRecord 0 0x14 r s)

/-- FMAX: Floating-point maximum, lane by lane (R194). -/
def execFmax (r : Rec) (s : State) : Out := .next (startRecord 0 0x15 r s)

/-- FABS: Floating-point absolute value (R194). -/
def execFabs (r : Rec) (s : State) : Out := .next (startRecord 0 0x16 r s)

/-- FNEG: Floating-point negation (R194). -/
def execFneg (r : Rec) (s : State) : Out := .next (startRecord 0 0x17 r s)

/-- FDIV: Correctly rounded floating-point divide (R194). -/
def execFdiv (r : Rec) (s : State) : Out := .next (startRecord 0 0x18 r s)

/-- FSQRT: Correctly rounded square root (R194). -/
def execFsqrt (r : Rec) (s : State) : Out := .next (startRecord 0 0x19 r s)

/-- FRSQRT: Correctly rounded reciprocal square root (R194). -/
def execFrsqrt (r : Rec) (s : State) : Out := .next (startRecord 0 0x1A r s)

/-- FRCP: Correctly rounded reciprocal (R194). -/
def execFrcp (r : Rec) (s : State) : Out := .next (startRecord 0 0x1B r s)

/-- IADD: Integer add, wrapping or saturating (R195). -/
def execIadd (r : Rec) (s : State) : Out := .next (startRecord 0 0x20 r s)

/-- ISUB: Integer subtract, wrapping or saturating (R195). -/
def execIsub (r : Rec) (s : State) : Out := .next (startRecord 0 0x21 r s)

/-- IAND: Bitwise AND of two registers (R195). -/
def execIand (r : Rec) (s : State) : Out := .next (startRecord 0 0x22 r s)

/-- IOR: Bitwise OR of two registers (R195). -/
def execIor (r : Rec) (s : State) : Out := .next (startRecord 0 0x23 r s)

/-- IXOR: Bitwise XOR of two registers (R195). -/
def execIxor (r : Rec) (s : State) : Out := .next (startRecord 0 0x24 r s)

/-- ISHL: Integer shift left, lane by lane (R196). -/
def execIshl (r : Rec) (s : State) : Out := .next (startRecord 0 0x25 r s)

/-- ISHR: Integer logical shift right, lane by lane (R196). -/
def execIshr (r : Rec) (s : State) : Out := .next (startRecord 0 0x26 r s)

/-- ISAR: Integer arithmetic shift right, lane by lane (R196). -/
def execIsar (r : Rec) (s : State) : Out := .next (startRecord 0 0x27 r s)

/-- IMIN: Integer minimum, lane by lane (R195). -/
def execImin (r : Rec) (s : State) : Out := .next (startRecord 0 0x28 r s)

/-- IMAX: Integer maximum, lane by lane (R195). -/
def execImax (r : Rec) (s : State) : Out := .next (startRecord 0 0x29 r s)

/-- IMUL: Integer multiply, wrapping or saturating (R195). -/
def execImul (r : Rec) (s : State) : Out := .next (startRecord 0 0x2C r s)

/-- IDOT4: Adds a four-element INT8 dot product into each INT32 lane (R197). -/
def execIdot4 (r : Rec) (s : State) : Out := .next (startRecord 0 0x2D r s)

/-- FCMP: Floating-point compare into a mask (R198). -/
def execFcmp (r : Rec) (s : State) : Out := .next (startRecord 0 0x30 r s)

/-- ICMP: Integer compare into a mask (R198). -/
def execIcmp (r : Rec) (s : State) : Out := .next (startRecord 0 0x31 r s)

/-- VSEL: Selects each lane from A or B by the mask (R199). -/
def execVsel (r : Rec) (s : State) : Out := .next (startRecord 0 0x32 r s)

/-- MASKOP: Combines whole masks with AND, OR, XOR or AND NOT (R200). -/
def execMaskop (r : Rec) (s : State) : Out := .next (startRecord 0 0x33 r s)

/-- CVT: Converts lanes between the format pairs of Table 9.5 (R201). -/
def execCvt (r : Rec) (s : State) : Out := .next (startRecord 0 0x38 r s)

/-- QUANT: Quantises 32 FP32 values to INT8 with one E5M3 scale (R202). -/
def execQuant (r : Rec) (s : State) : Out := .next (startRecord 0 0x3C r s)

/-- DEQUANT: Dequantises INT8 values with an E5M3 scale (R203). -/
def execDequant (r : Rec) (s : State) : Out := .next (startRecord 0 0x3D r s)

/-- TRPACK: Packs INT8 lanes into T5 bytes (R204). -/
def execTrpack (r : Rec) (s : State) : Out := .next (startRecord 0 0x40 r s)

/-- TRUNPACK: Decodes T5 bytes into INT8 lanes (R205). -/
def execTrunpack (r : Rec) (s : State) : Out := .next (startRecord 0 0x41 r s)

/-- RSUM: Tree sum of lanes, in groups (R206). -/
def execRsum (r : Rec) (s : State) : Out := .next (startRecord 0 0x48 r s)

/-- RMAX: Tree maximum of lanes, in groups (R206). -/
def execRmax (r : Rec) (s : State) : Out := .next (startRecord 0 0x49 r s)

/-- RMIN: Tree minimum of lanes, in groups (R206). -/
def execRmin (r : Rec) (s : State) : Out := .next (startRecord 0 0x4A r s)

/-- VPERM: Permutes lanes by the indices in B (R208). -/
def execVperm (r : Rec) (s : State) : Out := .next (startRecord 0 0x50 r s)

/-- VSHUF: Interleaves or de-interleaves two registers (R209). -/
def execVshuf (r : Rec) (s : State) : Out := .next (startRecord 0 0x51 r s)

/-- VBCAST: Broadcasts one lane to every active lane (R210). -/
def execVbcast (r : Rec) (s : State) : Out := .next (startRecord 0 0x52 r s)

end Sys2Proof.Machine
end

