-- ==== Sys2Proof/Machine/Dispatch.lean ====
section
/-! DEFINITION. One arm per instruction: a direct call of its meaning. -/
namespace Sys2Proof.Machine

/-- What an instruction does. -/
def exec (i : Instr) (s : State) : Host.Outcome State Fault Refusal :=
  match i with
  | .nop g => Sys2Proof.Machine.execNop g s
  | .add g d a b => Sys2Proof.Machine.execAdd g d a b s
  | .sub g d a b => Sys2Proof.Machine.execSub g d a b s
  | .and g d a b => Sys2Proof.Machine.execAnd g d a b s
  | .or g d a b => Sys2Proof.Machine.execOr g d a b s
  | .xor g d a b => Sys2Proof.Machine.execXor g d a b s
  | .andn g d a b => Sys2Proof.Machine.execAndn g d a b s
  | .shl g d a b => Sys2Proof.Machine.execShl g d a b s
  | .shr g d a b => Sys2Proof.Machine.execShr g d a b s
  | .sar g d a b => Sys2Proof.Machine.execSar g d a b s
  | .min g d a b => Sys2Proof.Machine.execMin g d a b s
  | .max g d a b => Sys2Proof.Machine.execMax g d a b s
  | .minu g d a b => Sys2Proof.Machine.execMinu g d a b s
  | .maxu g d a b => Sys2Proof.Machine.execMaxu g d a b s
  | .sel g d a b p => Sys2Proof.Machine.execSel g d a b p s
  | .mul g d a b => Sys2Proof.Machine.execMul g d a b s
  | .mulh g d a b => Sys2Proof.Machine.execMulh g d a b s
  | .mulhu g d a b => Sys2Proof.Machine.execMulhu g d a b s
  | .div g d a b => Sys2Proof.Machine.execDiv g d a b s
  | .divu g d a b => Sys2Proof.Machine.execDivu g d a b s
  | .rem g d a b => Sys2Proof.Machine.execRem g d a b s
  | .remu g d a b => Sys2Proof.Machine.execRemu g d a b s
  | .adds g d a b => Sys2Proof.Machine.execAdds g d a b s
  | .subs g d a b => Sys2Proof.Machine.execSubs g d a b s
  | .addus g d a b => Sys2Proof.Machine.execAddus g d a b s
  | .subus g d a b => Sys2Proof.Machine.execSubus g d a b s
  | .clz g d a => Sys2Proof.Machine.execClz g d a s
  | .ctz g d a => Sys2Proof.Machine.execCtz g d a s
  | .popc g d a => Sys2Proof.Machine.execPopc g d a s
  | .brev g d a => Sys2Proof.Machine.execBrev g d a s
  | .bswap g d a => Sys2Proof.Machine.execBswap g d a s
  | .addImm g d a imm => Sys2Proof.Machine.execAddImm g d a imm s
  | .andImm g d a imm => Sys2Proof.Machine.execAndImm g d a imm s
  | .orImm g d a imm => Sys2Proof.Machine.execOrImm g d a imm s
  | .xorImm g d a imm => Sys2Proof.Machine.execXorImm g d a imm s
  | .shlImm g d a k => Sys2Proof.Machine.execShlImm g d a k s
  | .shrImm g d a k => Sys2Proof.Machine.execShrImm g d a k s
  | .sarImm g d a k => Sys2Proof.Machine.execSarImm g d a k s
  | .li g d imm => Sys2Proof.Machine.execLi g d imm s
  | .lsi g d a imm => Sys2Proof.Machine.execLsi g d a imm s
  | .adr g d imm => Sys2Proof.Machine.execAdr g d imm s
  | .extu g d a pos len1 => Sys2Proof.Machine.execExtu g d a pos len1 s
  | .exts g d a pos len1 => Sys2Proof.Machine.execExts g d a pos len1 s
  | .ins g d a pos len1 => Sys2Proof.Machine.execIns g d a pos len1 s
  | .sxt g d a w => Sys2Proof.Machine.execSxt g d a w s
  | .zxt g d a w => Sys2Proof.Machine.execZxt g d a w s
  | .cmpEq g pd a b => Sys2Proof.Machine.execCmpEq g pd a b s
  | .cmpNe g pd a b => Sys2Proof.Machine.execCmpNe g pd a b s
  | .cmpLt g pd a b => Sys2Proof.Machine.execCmpLt g pd a b s
  | .cmpLe g pd a b => Sys2Proof.Machine.execCmpLe g pd a b s
  | .cmpLtu g pd a b => Sys2Proof.Machine.execCmpLtu g pd a b s
  | .cmpLeu g pd a b => Sys2Proof.Machine.execCmpLeu g pd a b s
  | .cmpEqImm g pd a imm => Sys2Proof.Machine.execCmpEqImm g pd a imm s
  | .cmpNeImm g pd a imm => Sys2Proof.Machine.execCmpNeImm g pd a imm s
  | .cmpLtImm g pd a imm => Sys2Proof.Machine.execCmpLtImm g pd a imm s
  | .cmpLeImm g pd a imm => Sys2Proof.Machine.execCmpLeImm g pd a imm s
  | .cmpLtuImm g pd a imm => Sys2Proof.Machine.execCmpLtuImm g pd a imm s
  | .cmpLeuImm g pd a imm => Sys2Proof.Machine.execCmpLeuImm g pd a imm s
  | .pand g pd pa pb => Sys2Proof.Machine.execPand g pd pa pb s
  | .por g pd pa pb => Sys2Proof.Machine.execPor g pd pa pb s
  | .pxor g pd pa pb => Sys2Proof.Machine.execPxor g pd pa pb s
  | .pandn g pd pa pb => Sys2Proof.Machine.execPandn g pd pa pb s
  | .mfp g d => Sys2Proof.Machine.execMfp g d s
  | .mtp g a => Sys2Proof.Machine.execMtp g a s
  | .br g imm => Sys2Proof.Machine.execBr g imm s
  | .call g imm => Sys2Proof.Machine.execCall g imm s
  | .jr g a => Sys2Proof.Machine.execJr g a s
  | .callr g a => Sys2Proof.Machine.execCallr g a s
  | .loop g n a imm => Sys2Proof.Machine.execLoop g n a imm s
  | .loopi g n cnt imm => Sys2Proof.Machine.execLoopi g n cnt imm s
  | .lpclr g n => Sys2Proof.Machine.execLpclr g n s
  | .ldSB g d a imm => Sys2Proof.Machine.execLdSB g d a imm s
  | .ldSBu g d a imm => Sys2Proof.Machine.execLdSBu g d a imm s
  | .ldSH g d a imm => Sys2Proof.Machine.execLdSH g d a imm s
  | .ldSHu g d a imm => Sys2Proof.Machine.execLdSHu g d a imm s
  | .ldSW g d a imm => Sys2Proof.Machine.execLdSW g d a imm s
  | .ldSWu g d a imm => Sys2Proof.Machine.execLdSWu g d a imm s
  | .ldS g d a imm => Sys2Proof.Machine.execLdS g d a imm s
  | .stSB g a b imm => Sys2Proof.Machine.execStSB g a b imm s
  | .stSH g a b imm => Sys2Proof.Machine.execStSH g a b imm s
  | .stSW g a b imm => Sys2Proof.Machine.execStSW g a b imm s
  | .stS g a b imm => Sys2Proof.Machine.execStS g a b imm s
  | .ldGB g d a imm => Sys2Proof.Machine.execLdGB g d a imm s
  | .ldGBu g d a imm => Sys2Proof.Machine.execLdGBu g d a imm s
  | .ldGH g d a imm => Sys2Proof.Machine.execLdGH g d a imm s
  | .ldGHu g d a imm => Sys2Proof.Machine.execLdGHu g d a imm s
  | .ldGW g d a imm => Sys2Proof.Machine.execLdGW g d a imm s
  | .ldGWu g d a imm => Sys2Proof.Machine.execLdGWu g d a imm s
  | .ldG g d a imm => Sys2Proof.Machine.execLdG g d a imm s
  | .stGB g a b imm => Sys2Proof.Machine.execStGB g a b imm s
  | .stGH g a b imm => Sys2Proof.Machine.execStGH g a b imm s
  | .stGW g a b imm => Sys2Proof.Machine.execStGW g a b imm s
  | .stG g a b imm => Sys2Proof.Machine.execStG g a b imm s
  | .globalLoadFill k => Sys2Proof.Machine.execGlobalLoadFill k s
  | .writebackPerform k => Sys2Proof.Machine.execWritebackPerform k s
  | .push g pd a q => Sys2Proof.Machine.execPush g pd a q s
  | .pushm g pd a q off => Sys2Proof.Machine.execPushm g pd a q off s
  | .rtail g a q => Sys2Proof.Machine.execRtail g a q s
  | .qfence g mask => Sys2Proof.Machine.execQfence g mask s
  | .semadd g a k => Sys2Proof.Machine.execSemadd g a k s
  | .semwait g a k => Sys2Proof.Machine.execSemwait g a k s
  | .waitb g k t => Sys2Proof.Machine.execWaitb g k t s
  | .semrdDone g d k => Sys2Proof.Machine.execSemrdDone g d k s
  | .semrdPend g d k => Sys2Proof.Machine.execSemrdPend g d k s
  | .pause g n => Sys2Proof.Machine.execPause g n s
  | .waita g pd a off => Sys2Proof.Machine.execWaita g pd a off s
  | .waitaReturn lost => Sys2Proof.Machine.execWaitaReturn lost s
  | .acqX g a => Sys2Proof.Machine.execAcqX g a s
  | .acqS g a => Sys2Proof.Machine.execAcqS g a s
  | .rel g a => Sys2Proof.Machine.execRel g a s
  | .relSet g a b => Sys2Proof.Machine.execRelSet g a b s
  | .ldAcq g d a off => Sys2Proof.Machine.execLdAcq g d a off s
  | .acquireLoadFill k => Sys2Proof.Machine.execAcquireLoadFill k s
  | .tbar g => Sys2Proof.Machine.execTbar g s
  | .sstep g => Sys2Proof.Machine.execSstep g s
  | .cbar g => Sys2Proof.Machine.execCbar g s
  | .cstep g => Sys2Proof.Machine.execCstep g s
  | .spawn g d a off => Sys2Proof.Machine.execSpawn g d a off s
  | .msend g d a off => Sys2Proof.Machine.execMsend g d a off s
  | .csend g a off => Sys2Proof.Machine.execCsend g a off s
  | .csendA g d a off => Sys2Proof.Machine.execCsendA g d a off s
  | .crole g d a b off => Sys2Proof.Machine.execCrole g d a b off s
  | .cdeleg g a b off => Sys2Proof.Machine.execCdeleg g a b off s
  | .mfcr g d c => Sys2Proof.Machine.execMfcr g d c s
  | .mtcr g a c => Sys2Proof.Machine.execMtcr g a c s
  | .ringRegisterWrite g a q count => Sys2Proof.Machine.execRingRegisterWrite g a q count s
  | .mleaseWrite g a => Sys2Proof.Machine.execMleaseWrite g a s
  | .trapOp g code => Sys2Proof.Machine.execTrapOp g code s
  | .brk g => Sys2Proof.Machine.execBrk g s
  | .eret g => Sys2Proof.Machine.execEret g s
  | .doneOp g => Sys2Proof.Machine.execDoneOp g s
  | .probe g a b => Sys2Proof.Machine.execProbe g a b s
  | .phint g a imm => Sys2Proof.Machine.execPhint g a imm s
  | .phase g => Sys2Proof.Machine.execPhase g s
  | .shoot g a b => Sys2Proof.Machine.execShoot g a b s
  | .vld r => Sys2Proof.Machine.execVld r s
  | .vldBc r => Sys2Proof.Machine.execVldBc r s
  | .vst r => Sys2Proof.Machine.execVst r s
  | .vmov r => Sys2Proof.Machine.execVmov r s
  | .accrd r => Sys2Proof.Machine.execAccrd r s
  | .accwr r => Sys2Proof.Machine.execAccwr r s
  | .park r => Sys2Proof.Machine.execPark r s
  | .unpark r => Sys2Proof.Machine.execUnpark r s
  | .fadd r => Sys2Proof.Machine.execFadd r s
  | .fsub r => Sys2Proof.Machine.execFsub r s
  | .fmul r => Sys2Proof.Machine.execFmul r s
  | .fma r => Sys2Proof.Machine.execFma r s
  | .fmin r => Sys2Proof.Machine.execFmin r s
  | .fmax r => Sys2Proof.Machine.execFmax r s
  | .fabs r => Sys2Proof.Machine.execFabs r s
  | .fneg r => Sys2Proof.Machine.execFneg r s
  | .fdiv r => Sys2Proof.Machine.execFdiv r s
  | .fsqrt r => Sys2Proof.Machine.execFsqrt r s
  | .frsqrt r => Sys2Proof.Machine.execFrsqrt r s
  | .frcp r => Sys2Proof.Machine.execFrcp r s
  | .iadd r => Sys2Proof.Machine.execIadd r s
  | .isub r => Sys2Proof.Machine.execIsub r s
  | .iand r => Sys2Proof.Machine.execIand r s
  | .ior r => Sys2Proof.Machine.execIor r s
  | .ixor r => Sys2Proof.Machine.execIxor r s
  | .ishl r => Sys2Proof.Machine.execIshl r s
  | .ishr r => Sys2Proof.Machine.execIshr r s
  | .isar r => Sys2Proof.Machine.execIsar r s
  | .imin r => Sys2Proof.Machine.execImin r s
  | .imax r => Sys2Proof.Machine.execImax r s
  | .imul r => Sys2Proof.Machine.execImul r s
  | .idot4 r => Sys2Proof.Machine.execIdot4 r s
  | .fcmp r => Sys2Proof.Machine.execFcmp r s
  | .icmp r => Sys2Proof.Machine.execIcmp r s
  | .vsel r => Sys2Proof.Machine.execVsel r s
  | .maskop r => Sys2Proof.Machine.execMaskop r s
  | .cvt r => Sys2Proof.Machine.execCvt r s
  | .quant r => Sys2Proof.Machine.execQuant r s
  | .dequant r => Sys2Proof.Machine.execDequant r s
  | .trpack r => Sys2Proof.Machine.execTrpack r s
  | .trunpack r => Sys2Proof.Machine.execTrunpack r s
  | .rsum r => Sys2Proof.Machine.execRsum r s
  | .rmax r => Sys2Proof.Machine.execRmax r s
  | .rmin r => Sys2Proof.Machine.execRmin r s
  | .vperm r => Sys2Proof.Machine.execVperm r s
  | .vshuf r => Sys2Proof.Machine.execVshuf r s
  | .vbcast r => Sys2Proof.Machine.execVbcast r s
  | .mcfg r => Sys2Proof.Machine.execMcfg r s
  | .mzero r => Sys2Proof.Machine.execMzero r s
  | .mdotT r => Sys2Proof.Machine.execMdotT r s
  | .mdotS4 r => Sys2Proof.Machine.execMdotS4 r s
  | .mdotI8 r => Sys2Proof.Machine.execMdotI8 r s
  | .copy r => Sys2Proof.Machine.execCopy r s
  | .fill r => Sys2Proof.Machine.execFill r s
  | .put r => Sys2Proof.Machine.execPut r s
  | .get r => Sys2Proof.Machine.execGet r s
  | .putred r => Sys2Proof.Machine.execPutred r s
  | .mcast r => Sys2Proof.Machine.execMcast r s
  | .aput r => Sys2Proof.Machine.execAput r s
  | .nodeTimeout j => Sys2Proof.Machine.execNodeTimeout j s
  | .sempost r => Sys2Proof.Machine.execSempost r s
  | .nsend r => Sys2Proof.Machine.execNsend r s
  | .nwrite r => Sys2Proof.Machine.execNwrite r s
  | .nread r => Sys2Proof.Machine.execNread r s
  | .nflush r => Sys2Proof.Machine.execNflush r s
  | .join r => Sys2Proof.Machine.execJoin r s
  | .recordComplete q => Sys2Proof.Machine.execRecordComplete q s
  | .packetArrival p => Sys2Proof.Machine.execPacketArrival p s
  | .rmaWriteArrival p => Sys2Proof.Machine.execRmaWriteArrival p s
  | .rmaReadArrival p => Sys2Proof.Machine.execRmaReadArrival p s
  | .flushArrival p => Sys2Proof.Machine.execFlushArrival p s
  | .ackReceived conn mode psn marked => Sys2Proof.Machine.execAckReceived conn mode psn marked s
  | .retransmitTimeout conn mode psn => Sys2Proof.Machine.execRetransmitTimeout conn mode psn s
  | .milestoneIncrement k => Sys2Proof.Machine.execMilestoneIncrement k s
  | .hostRingDoorbell v => Sys2Proof.Machine.execHostRingDoorbell v s
  | .hostRingEnable v => Sys2Proof.Machine.execHostRingEnable v s
  | .hostRingFetch entry data => Sys2Proof.Machine.execHostRingFetch entry data s
  | .atsInvalidation pasid lo hi => Sys2Proof.Machine.execAtsInvalidation pasid lo hi s
  | .pasidTeardown v => Sys2Proof.Machine.execPasidTeardown v s
  | .bar0RegisterWrite off v => Sys2Proof.Machine.execBar0RegisterWrite off v s
  | .workItemComplete k => Sys2Proof.Machine.execWorkItemComplete k s
  | .teamMove d => Sys2Proof.Machine.execTeamMove d s
  | .slotTimeout line => Sys2Proof.Machine.execSlotTimeout line s
  | .scanComplete fail diff => Sys2Proof.Machine.execScanComplete fail diff s
  | .corecapWrite g a => Sys2Proof.Machine.execCorecapWrite g a s
  | .lcmentWrite g a => Sys2Proof.Machine.execLcmentWrite g a s
  | .leadcasWrite g a => Sys2Proof.Machine.execLeadcasWrite g a s
  | .hbeatWrite g a => Sys2Proof.Machine.execHbeatWrite g a s
  | .attestationRequest v => Sys2Proof.Machine.execAttestationRequest v s
  | .resetRelease boot modId img => Sys2Proof.Machine.execResetRelease boot modId img s
  | .dieStart img => Sys2Proof.Machine.execDieStart img s
  | .quadGroupStart k => Sys2Proof.Machine.execQuadGroupStart k s
  | .powerSample w => Sys2Proof.Machine.execPowerSample w s
  | .pwrAlert on => Sys2Proof.Machine.execPwrAlert on s
  | .thermalSensor sensor deg => Sys2Proof.Machine.execThermalSensor sensor deg s
  | .unassignedOpcode w => Sys2Proof.Machine.execUnassignedOpcode w s
  | .recordInvalid w => Sys2Proof.Machine.execRecordInvalid w s
  | .negativeAcknowledgement conn mode psn => Sys2Proof.Machine.execNegativeAcknowledgement conn mode psn s
  | .semwaitComplete => Sys2Proof.Machine.execSemwaitComplete s
  | .waitbComplete => Sys2Proof.Machine.execWaitbComplete s
  | .pauseExpire => Sys2Proof.Machine.execPauseExpire s
  | .acqGrant => Sys2Proof.Machine.execAcqGrant s
  | .barrierComplete => Sys2Proof.Machine.execBarrierComplete s
  | .csendVerdict => Sys2Proof.Machine.execCsendVerdict s
  | .convPlacement => Sys2Proof.Machine.execConvPlacement s
  | .taskEnd => Sys2Proof.Machine.execTaskEnd s
  | .pageRequestAnswer => Sys2Proof.Machine.execPageRequestAnswer s
  | .leaseGrant => Sys2Proof.Machine.execLeaseGrant s
  | .launch => Sys2Proof.Machine.execLaunch s
  | .triggeredCopy => Sys2Proof.Machine.execTriggeredCopy s
  | .send => Sys2Proof.Machine.execSend s
  | .raise => Sys2Proof.Machine.execRaise s
  | .msadd => Sys2Proof.Machine.execMsadd s
  | .handler => Sys2Proof.Machine.execHandler s
  | .handlerStart => Sys2Proof.Machine.execHandlerStart s
  | .handlerWatchdog => Sys2Proof.Machine.execHandlerWatchdog s
  | .drainreqWrite => Sys2Proof.Machine.execDrainreqWrite s
  | .drainRequestDone => Sys2Proof.Machine.execDrainRequestDone s
  | .pasidTeardownDone => Sys2Proof.Machine.execPasidTeardownDone s
  | .dispatch => Sys2Proof.Machine.execDispatch s
  | .preemptLimitExpire => Sys2Proof.Machine.execPreemptLimitExpire s
  | .teamSave => Sys2Proof.Machine.execTeamSave s
  | .teamRestore => Sys2Proof.Machine.execTeamRestore s
  | .treeLoad => Sys2Proof.Machine.execTreeLoad s
  | .timeslotLoad => Sys2Proof.Machine.execTimeslotLoad s
  | .collectiveArm => Sys2Proof.Machine.execCollectiveArm s
  | .itineraryLoad => Sys2Proof.Machine.execItineraryLoad s
  | .conversationOpen => Sys2Proof.Machine.execConversationOpen s
  | .conversationKill => Sys2Proof.Machine.execConversationKill s
  | .partyLost => Sys2Proof.Machine.execPartyLost s
  | .conversationFree => Sys2Proof.Machine.execConversationFree s
  | .migrationRequest => Sys2Proof.Machine.execMigrationRequest s
  | .migrationComplete => Sys2Proof.Machine.execMigrationComplete s
  | .contextCreate => Sys2Proof.Machine.execContextCreate s
  | .contextFault => Sys2Proof.Machine.execContextFault s
  | .haltReport => Sys2Proof.Machine.execHaltReport s
  | .taskWatchdog => Sys2Proof.Machine.execTaskWatchdog s
  | .saveWatchdog => Sys2Proof.Machine.execSaveWatchdog s
  | .contextKill => Sys2Proof.Machine.execContextKill s
  | .contextZeroing => Sys2Proof.Machine.execContextZeroing s
  | .drain => Sys2Proof.Machine.execDrain s
  | .drainToHeld => Sys2Proof.Machine.execDrainToHeld s
  | .scan => Sys2Proof.Machine.execScan s
  | .release => Sys2Proof.Machine.execRelease s
  | .retire => Sys2Proof.Machine.execRetire s
  | .heartbeatTimeout => Sys2Proof.Machine.execHeartbeatTimeout s
  | .routineRequest => Sys2Proof.Machine.execRoutineRequest s
  | .hbmScrub => Sys2Proof.Machine.execHbmScrub s
  | .scratchpadScrub => Sys2Proof.Machine.execScratchpadScrub s
  | .hbmRetrain => Sys2Proof.Machine.execHbmRetrain s
  | .coreZeroingDone => Sys2Proof.Machine.execCoreZeroingDone s
  | .resetNAsserted => Sys2Proof.Machine.execResetNAsserted s

end Sys2Proof.Machine
end

