-- ==== Sys2Proof/Machine/Race.lean ====
section
/-! DEFINITION. Words that an issue or an arrival reads or writes ahead of its other words: what other agents see of an access is decided word by
word (R76, R114, R137, R177, R186, R325, R326). -/
namespace Sys2Proof.Machine

/-- The word at a key, or the entry of a core's accumulator that goes by it. -/
def wordAt (s : State) (p key : Nat) : Nat := if accKey 0 ≤ key then (tget (s.co p).acc (key - accKey 0) 0).toNat else rdN s.mem key 8

/-- Words of memory are written ahead of others: their lines' watchers see it (R96). -/
def noteWords (ws : List (Nat × Nat)) (s : State) : State := ws.foldl (fun s e => if accKey 0 ≤ e.1 then s else noteWrite s e.1) s

/-- Give words their values. -/
def landWords (p : Nat) (ws : List (Nat × Nat)) (s : State) : State :=
  ws.foldl (fun s e =>
    if accKey 0 ≤ e.1 then s.upCo p fun x => { x with acc := tput x.acc (e.1 - accKey 0) (BitVec.ofNat 32 e.2) 0 }
    else { s with mem := wrN s.mem e.1 8 e.2 }) s

/-- The key of a word of some core's scratchpad without an uncorrectable error, or of an accumulator entry. -/
def isNearWord (s : State) (key : Nat) : Bool :=
  (decide (accKey 0 ≤ key) && decide (key < accKey 131072)) ||
  (decide (spKey 0 0 ≤ key) && decide (key < spKey 2304 0) && key % 8 == 0 && decide ((wordErrs s key).length ≤ 1))

/-- So, or of a word of a stack's line without an error, or of the Crossroads die's SRAM. -/
def isRaceWord (s : State) (key : Nat) : Bool :=
  isNearWord s key || (decide (key < 2 ^ 39 + physSize 8) && key % 8 == 0 && tget s.ecc (key - key % 64) [] == [])

/-- The core whose scratchpad word goes by a key. -/
def keyCore (key : Nat) : Nat := (key - spKey 0 0) / 2 ^ 22

/-- A turn writes a word: it changes it, or leaves it so whatever it was before. -/
def writesWord (p key : Nat) (run : State → Out) (s : State) : Bool :=
  match run s, run (landWords p [(key, if wordAt s p key = 0 then 1 else 0)] s) with
  | .next t, .next u => wordAt t p key != wordAt s p key || wordAt t p key == wordAt u p key
  | _, _ => false

/-- A turn reads a scratchpad word with a single error: it counts one correction more than it would without (R417). -/
def readsError (key : Nat) (run : State → Out) (s : State) : Bool :=
  match run s, run { s with ecc := tput s.ecc key [] [] } with
  | .next t, .next u => (t.co (keyCore key)).spcorr != (u.co (keyCore key)).spcorr
  | _, _ => false

/-- The error code of a word that lands ahead of the others: fresh, or corrected where the issue reads the word first (R77, R417). -/
def landCode (key : Nat) (run : State → Out) (s : State) : State :=
  if accKey 0 ≤ key ∨ wordErrs s key = [] then s
  else if readsError key run s then fixWord (keyCore key) s key
  else { s with ecc := tput s.ecc key [] [] }

/-- An engine has gone on with the record that it was running, or has ended it. -/
def progressed (v w : Queue) : Bool :=
  match v.current, w.current with
  | some f, some g => f.slot != g.slot || f.idx != g.idx || f.part.blocks != g.part.blocks || (w.stopped && !v.stopped)
  | some _, none => true
  | none, _ => false

/-- An engine that had stopped within an issue or step may have ended it. -/
def rests (p : Nat) (q : BitVec 2) (v : Queue) (t : State) : State :=
  if v.stopped && v.inStep && !((t.co p).queue q).inStep then stopEnds t p q else t

/-- Run an engine for at most n issues, and one that is stopped to the end of the one that has begun; one of which some words have been read or
written ahead is finished by itself, and those words stay as they are. -/
def raceTurn (p : Nat) (q : BitVec 2) (n : Option Nat) (run : State → Out) (s : State) : Out :=
  let v := (s.co p).queue q
  let pending := v.early != [] || v.landed != []
  let n := if v.stopped ∧ n ≠ some 0 then some 1 else n
  if !pending then
    match n with
    | none => run s
    | some _ => match run { s with lim := n } with | .next t => .next (rests p q v { t with lim := none }) | o => o
  else if n = some 0 then .next s
  else
    match run { landWords p v.landed s with lim := some 1 } with
    | .next t =>
      if progressed v ((t.co p).queue q) then
        let now := v.landed.map fun e => (e.1, wordAt s p e.1)
        .next (rests p q v { upQueue (landWords p now t) p q (fun w => { w with early := [], landed := [] }) with lim := none })
      else .next s
    | o => o

/-- The engine of a queue reads a word ahead: of the slot of the record that it takes next, or of what the next issue of its record reads. -/
def readAhead (p : Nat) (q : BitVec 2) (key : Nat) (s : State) : State :=
  let v := (s.co p).queue q
  match v.current, (s.co p).nextSlot q with
  | some _, _ =>
    if isRaceWord s key && !v.stopped && !v.early.any (fun e => e.1 == key) then
      let s' := if isNearWord s key && decide (key < accKey 0) then fixWord (keyCore key) s key else s
      upQueue s' p q fun v => { v with early := v.early ++ [(key, wordAt s p key)] }
    else s
  | none, some c =>
    let k := spKey p (v.slot c)
    if isNearWord s key && decide (k ≤ key) && decide (key < k + 64) && !v.words.any (fun e => e.1 == (key - k) / 8) then
      upQueue (fixWord p s key) p q fun v => { v with words := v.words ++ [((key - k) / 8, rdN s.mem key 8)] }
    else s
  | none, none => s

/-- A word of what the next issue of a queue's record writes lands ahead: as it stands after the issue alone has been made. -/
def landAhead (p : Nat) (q : BitVec 2) (key : Nat) (run : State → Out) (s : State) : State :=
  let v := (s.co p).queue q
  match run s with
  | .next t =>
    if v.current.isSome && isRaceWord s key && !v.landed.any (fun e => e.1 == key) && t.faults.length == s.faults.length &&
        !(t.co p).rolling && progressed v ((t.co p).queue q) && writesWord p key run s then
      let s' := landWords p [(key, wordAt t p key)] (noteWords [(key, 0)] (landCode key run s))
      upQueue s' p q fun v => { v with landed := v.landed ++ [(key, wordAt s p key)] }
    else s
  | _ => s

/-- The copy engine is to make the issues of its record that it has not begun in another order: those of a list next (R130). With words of its next
issue read or written ahead it does not. -/
def reorder (p : Nat) (js : List Nat) (s : State) : State :=
  let v := (s.co p).cq
  match v.current with
  | some f =>
    if v.early = [] ∧ v.landed = [] then
      let r := splitRec f.words
      let begun := ((issuesBy f.part.order r).take f.idx).map (·.1)
      let js := (begun ++ js.filter fun j => decide (j < (issues r).length)).eraseDups
      s.upFlight p 2 f.slot fun f => { f with part := { f.part with order := js } }
    else s
  | none => s

/-- An arrival whose bytes land in memory: of a packet, of a message to the package itself, of a host ring's entry. -/
def isArrival (i : Instr) : Bool := match i with | .packetArrival _ => true | .rmaWriteArrival _ => true | .hostRingFetch _ _ => true | _ => false

/-- Run an event; words of an arrival that have landed ahead stay as they are. -/
def arrivalTurn (subject : Nat) (i : Instr) (run : State → Out) (s : State) : Out :=
  match s.arrival with
  | some (k, j, ws) =>
    if k = subject ∧ j = i then
      match run (landWords 0 ws { s with arrival := none }) with
      | .next t => .next (landWords 0 (ws.map fun e => (e.1, wordAt s 0 e.1)) t)
      | o => o
    else run s
  | none => run s

/-- A word of an arrival lands ahead of the others; of one arrival at a time. -/
def arriveAhead (subject : Nat) (i : Instr) (key : Nat) (run : State → Out) (s : State) : State :=
  let ws : Option (List (Nat × Nat)) := match s.arrival with
    | none => some []
    | some (k, j, ws) => if k = subject ∧ j = i then some ws else none
  match ws, run s with
  | some ws, .next t =>
    if isArrival i && isRaceWord s key && decide (key < accKey 0) && !ws.any (fun e => e.1 == key) && writesWord 0 key run s then
      { landWords 0 [(key, wordAt t 0 key)] (noteWords [(key, 0)] (landCode key run s)) with arrival := some (subject, i, ws ++ [(key, wordAt s 0 key)]) }
    else s
  | _, _ => s

end Sys2Proof.Machine
end

