-- ==== Sys2Proof/Machine/Turns.lean ====
section
/-! DEFINITION. What one turn of the schedule does. -/
namespace Sys2Proof.Machine

/-- An agent's scalar stream takes its next instruction, if it runs: fetch, decode, then the instruction's meaning. A word that breaks its
form traps ILLEGAL_OP with DETAIL 1 (R31, R40). -/
def scalarTurn (a : Nat) (s : State) : Out :=
  let s := { s with cur := a }
  if (s.sc a).run = .running then
    match fetch s a with
    | .error e => .next ((noteFetch s a).ctxFault e.1 e.2 (s.sc a).pc)
    | .ok w =>
      match decodeWord w with
      | .error _ => .next ((noteFetch s a).trap 1 1 w)
      | .ok i => exec i (noteFetch s a)
  else .next s

/-- A core's engine goes on with its record of a queue or takes the next one, if there is one, for at most n issues. -/
def engineTurn (p : Nat) (q : BitVec 2) (n : Option Nat) (s : State) : Out :=
  let s := { s with cur := p, curq := q }
  match nextRecord s p q with
  | none => .next s
  | some i => if slotBad s p q then .next (slotFault s p q) else raceTurn p q n (exec i) (slotFix s p q)

/-- An instruction that a fetch or a ring brings, and no event. -/
def isFetched (i : Instr) : Bool :=
  (encodeScalar i).isSome || (recParts i).isSome || (match i with | .unassignedOpcode _ => true | .recordInvalid _ => true | _ => false)

/-- An agent of the package. -/
def isAgent (a : Nat) : Bool := isCore a || isThread a || isFw a

/-- A core's first-level TLB takes the translation of a unit of its own die for its task's context, the memory side's TLB of a die the range
entry of a unit and, of a paged range, its page entry: only what the walk grants now, and as many as the TLB holds (R347, R348). -/
def tlbFill (d : Nat) (p : Option Nat) (c unit : Nat) (s : State) : State :=
  match walk s c d (unit * 65536), rangeEntry s c d (unit * 65536) with
  | some (b, r), some (a, k) =>
    let e : TlbEnt := { ctx := c, unit := unit, base := b, rights := r }
    match p with
    | some p => if p / 288 = d ∧ isCore p ∧ (s.sc p).ctx.toNat = c then s.upCo p fun x => { x with tlb := (e :: x.tlb).take 96 } else s
    | none =>
      let paged := bitsOf (entWord s d a k 0) 59 58 == 1
      let g : RangeEnt :=
        { ctx := c, lo := bitsOf (entWord s d a k 0) 55 16, hi := bitsOf (entWord s d a k 1) 55 16, rights := r, paged := paged,
          map := entWord s d a k 2 }
      let x := s.di d
      s.putDi d { x with ranges := (g :: x.ranges).take 2048, tlb := if paged then (e :: x.tlb).take 8192 else x.tlb }
  | _, _ => s

/-- A core's first-level TLB drops its oldest translation, or a die's memory side its oldest page or range entry. -/
def tlbDrop (d : Nat) (p : Option Nat) (range : Bool) (s : State) : State :=
  match p with
  | some p => s.upCo p fun x => { x with tlb := x.tlb.dropLast }
  | none =>
    s.putDi d (if range then { s.di d with ranges := (s.di d).ranges.dropLast } else { s.di d with tlb := (s.di d).tlb.dropLast })

/-- Bytes that an allotment covers: their first offset and their size (R231, R359). -/
def allotRange (k : AllotKind) (i : Nat) : Nat × Nat :=
  match k with
  | .trigger => (64 * i, 64)
  | .milestone => (0x1000_0000 + 16 * i, 16)
  | .conversation => (0x2000_0000 + 256 * i, 256)
  | .itinerary => (0x2100_0000 + 32768 * i, 32768)

/-- The owner of allotted conversation objects: CTX of each (Table 21.3), n of them. -/
def ownConvs (c lo : Nat) : Nat → Memory → Memory
  | 0, m => m
  | n + 1, m => ownConvs c (lo + 1) n (wrN m (winKey (0x2000_0000 + 256 * lo)) 8 (c % 64 * 2 ^ 54))

/-- Context 0 allots numbers of a table to a context; their words are zeroed, and nothing stands beside them (R231, R359). -/
def allotTurn (a : Allot) (s : State) : State :=
  let lo := allotRange a.kind a.lo
  let s := s.zeroKeys (winKey lo.1) (winKey (lo.1 + (a.hi - a.lo) * lo.2))
  let m := s.mem
  let m := if a.kind = .conversation then ownConvs a.ctx a.lo (a.hi - a.lo) m else m
  let new (k : AllotKind) (n : Nat) : Bool := a.kind == k && decide (a.lo ≤ n) && decide (n < a.hi)
  { s with
    mem := m, allots := s.allots ++ [a], itins := s.itins.filter (fun e => !new .itinerary e.1),
    convs := s.convs.filter (fun e => !new .conversation e.1), places := s.places.filter fun m => !new .conversation m.conv }

/-- Context 0 writes a word of a table that a context itself only reads: its handler table, its connection table or its sync object
directory (R242, R250, R314). -/
def tableTurn (c off v : Nat) (s : State) : State :=
  let o := off - off % 8
  if 0x1C00_0000 ≤ o ∧ o < 0x1C04_0000 then
    let n := (o - 0x1C00_0000) / 64
    let w := o % 64 / 8
    if w < 4 then writeConnWord s c n w v else s
  else if (0x1800_0000 ≤ o ∧ o < 0x1800_0040) ∨ (0x1F00_0000 ≤ o ∧ o < 0x1F01_0000) then s.put64 (cwinKey c o) v
  else s

/-- A soft error strikes the word of a core's scratchpad or the line of a stack at a key (R77, R413). -/
def upsetTurn (key : Nat) (pos : List Nat) (s : State) : State :=
  let k := if key < 2 ^ 39 then key - key % 64 else key - key % 8
  { s with ecc := tput s.ecc k (tget s.ecc k [] ++ pos.filter fun p => !(tget s.ecc k []).contains p) [] }

/-- One turn. -/
def runTurn (t : Turn) (s : State) : Out :=
  match t with
  | .scalar a => if isAgent a then scalarTurn a s else .fault .noAgent
  | .engine p q => if isCore p && q != 3#2 then engineTurn p q none s else .fault .noAgent
  | .some p q n => if isCore p && q != 3#2 then engineTurn p q (some n) s else .fault .noAgent
  | .early p q key => .next (if isCore p && q != 3#2 then readAhead p q key s else s)
  | .order p js => .next (if isCore p then reorder p js s else s)
  | .own i => .next (ownFirst i s)
  | .ahead p q key => .next (if isCore p && q != 3#2 then landAhead p q key (engineTurn p q (some 1)) s else s)
  | .event subject i => if isFetched i then .fault .notEvent else arrivalTurn subject i (exec i) { s with cur := subject }
  | .aheadOf subject i key => .next (arriveAhead subject i key (fun s => arrivalTurn subject i (exec i) { s with cur := subject }) s)
  | .pass n => .next (judgeUnlessReset { s with time := s.time + n })
  | .evict a tag => if isAgent a then .next (evictLine a tag s) else .fault .noAgent
  | .codeFill a => .next (codeFill a s)
  | .codeDrop a => .next (if isCore a then s.upCo a fun x => { x with icache := x.icache.dropLast } else s)
  | .tlbFill d p c unit => .next (tlbFill d p c unit s)
  | .tlbDrop d p range => .next (tlbDrop d p range s)
  | .allot a => .next (allotTurn a s)
  | .table c off v => .next (tableTurn c off v.toNat s)
  | .upset key pos => .next (upsetTurn key pos s)
  | .bringUp p => .next (if isCore p then bringUpTurn p s else s)
  | .report => .next (reportTurn s)
  | .hostRead r => .next (hostReadTurn r s)

/-- The machine takes the first turn of its schedule; with none, the current agent takes its next instruction. -/
def takeTurn (s : State) : Out :=
  match s.sched with
  | [] => scalarTurn s.cur s
  | t :: ts => runTurn t { s with sched := ts }

end Sys2Proof.Machine
end

