-- ==== Sys2Proof/Machine/Step.lean ====
section
/-! DEFINITION. One step of the package: one turn of its schedule. -/
namespace Sys2Proof.Machine

/-- One step. -/
def step (s : State) : Host.Outcome State Fault Refusal := takeTurn s

/-- The state with an instruction of nbits bits placed where the next step fetches it. -/
def State.withFetchWord (s : State) (nbits w : Nat) : State := if nbits ≤ 64 then placeScalar s w else placeRecord s w

end Sys2Proof.Machine
end

