-- ==== Sys2Proof/Safety.lean ====
section
/-! DEFINITION. What a safe step is, and the words in which the statements say what a step does: when an instruction acts, and what it
leaves as it was. -/
namespace Sys2Proof.Safety
open Machine

/-! ### Outcomes -/

/-- An outcome that goes on in a state with a property. -/
def goesOn (P : State → Prop) : Out → Prop
  | .next s => P s
  | _ => False

/-- The invariant of memory. -/
def memOk (s : State) : Prop := s.mem.wf = true

/-- An instruction completes: exec answers a next state, which has a property. -/
def completes (i : Instr) (s : State) (P : State → Prop) : Prop := ∃ t, exec i s = .next t ∧ P t

/-! ### When an instruction acts (Table 4.4) -/

/-- The scalar stream of the current agent. -/
def stream (s : State) : Scalar := s.sc s.cur

/-- Steps 3 to 6 of Table 4.4 let an instruction act: its class is in a core's mask, its guard holds, and its sources and destinations are
full. -/
def acts (s : State) (cls : Nat) (g : Guard) (srcs : List Src) (dsts : List (BitVec 6)) : Prop :=
  (isCore s.cur = true → (s.co s.cur).capmask.getLsbD cls = true) ∧ (stream s).pred g.p ≠ g.neg ∧
  (∀ a ∈ srcs, (stream s).isEmpty a.r = false) ∧ ∀ d ∈ dsts, (stream s).isEmpty d = false

/-! ### What an instruction changes -/

/-- All of the package but the scalar stream of the current agent is as it was: all memory, every other agent, every engine and table. -/
def onlyStream (s t : State) : Prop := t = { s with scal := t.scal } ∧ ∀ a, a ≠ s.cur → t.sc a = s.sc a

/-- The current agent meets a context fault with a cause and an address (R78, R390): its stream stops where it stands, and nothing else of the package
changes but that the fault is noted, with the context, the pc and STATUS. -/
def contextFaults (s : State) (cause : Nat) (val : Word) (t : State) : Prop :=
  onlyStream s { t with faults := s.faults } ∧ stream t = { stream s with run := .halted } ∧
    ∃ f : FaultRec, t.faults = s.faults ++ [f] ∧ f.ctx = (stream s).ctx ∧ f.pos = (stream s).pc ∧ f.stat = (stream s).status ∧ f.cause = cause ∧
      f.detail = 0 ∧ f.val = val

/-- The registers but those listed read as they did. -/
def regsKept (x y : Scalar) (ds : List (BitVec 6)) : Prop := ∀ r, r ∉ ds → y.reg r = x.reg r

/-- The predicates but those listed read as they did. -/
def predsKept (x y : Scalar) (ps : List (BitVec 5)) : Prop := ∀ p, p ∉ ps → y.pred p = x.pred p

/-- Everything of a scalar stream is as it was but the registers, the predicates, the pc, STATUS and the loop counters, which a statement
speaks of one by one. -/
def restKept (x y : Scalar) : Prop :=
  y = { x with regs := y.regs, preds := y.preds, pc := y.pc, run := y.run, status := y.status, lcount0 := y.lcount0, lcount1 := y.lcount1 }

/-- The stream has gone past an instruction that is no taken transfer: the pc, the two loop counters and STATUS are what the end-of-body
test gives (R72), and the stream runs. -/
def movedOn (x y : Scalar) : Prop :=
  y.pc = x.retire.pc ∧ y.status = x.retire.status ∧ y.lcount0 = x.retire.lcount0 ∧ y.lcount1 = x.retire.lcount1 ∧ y.run = .running

/-- A result: register d, unless it is s0, reads v; nothing else changes, and the stream moves on. -/
def result (s : State) (d : BitVec 6) (v : Word) (t : State) : Prop :=
  onlyStream s t ∧ (d ≠ 0#6 → (stream t).reg d = v) ∧ (stream t).reg 0#6 = 0#64 ∧ regsKept (stream s) (stream t) [d] ∧
  predsKept (stream s) (stream t) [] ∧ restKept (stream s) (stream t) ∧ movedOn (stream s) (stream t)

/-- A predicate result: predicate p, unless it is p0, reads v; nothing else changes, and the stream moves on. -/
def resultP (s : State) (p : BitVec 5) (v : Prop) (t : State) : Prop :=
  onlyStream s t ∧ (p ≠ 0#5 → ((stream t).pred p = true ↔ v)) ∧ (stream t).pred 0#5 = true ∧ regsKept (stream s) (stream t) [] ∧
  predsKept (stream s) (stream t) [p] ∧ restKept (stream s) (stream t) ∧ movedOn (stream s) (stream t)

/-- Nothing changes but the pc and the loops: the stream moves on. -/
def passes (s t : State) : Prop :=
  onlyStream s t ∧ regsKept (stream s) (stream t) [] ∧ predsKept (stream s) (stream t) [] ∧ restKept (stream s) (stream t) ∧
  movedOn (stream s) (stream t)

/-- Trap entry (R20, R85): TPC holds the trapping instruction's address, TCAUSE the code and the DETAIL, TVAL its value, TSTATUS the STATUS
before it; LA0 and LA1 are 0 and TH is 1, STATUS otherwise unchanged; the pc is TVEC; nothing else changes. -/
def trapped (s : State) (code detail : Nat) (tval : Word) (t : State) : Prop :=
  onlyStream s t ∧
  stream t = { stream s with
    tpc := (stream s).pc, tcause := BitVec.ofNat 64 (code + 256 * detail), tval := tval, tstatus := (stream s).status,
    status := (stream t).status, pc := (stream s).tvec, run := .running } ∧
  ∀ i, i < 64 → (stream t).status.getLsbD i = (if i < 2 then false else if i = 7 then true else (stream s).status.getLsbD i)

/-- A precise trap can be taken: TH is 0 and TVEC is not zero (R85). -/
def canTrap (s : State) : Prop := (stream s).th = false ∧ (stream s).tvec ≠ 0#64

/-- The current agent's stream moves on with every register and predicate as it was, and no other stream changes. -/
def streamMoves (s t : State) : Prop :=
  (∀ a, a ≠ s.cur → t.sc a = s.sc a) ∧ regsKept (stream s) (stream t) [] ∧ predsKept (stream s) (stream t) [] ∧
  restKept (stream s) (stream t) ∧ movedOn (stream s) (stream t)

/-! ### Which instructions are which (Tables 4.5, 4.6, R41) -/

/-- The guard of a scalar instruction, as its word holds it. -/
def guardOf (i : Instr) : Option Guard := (encodeFields i).map Fields.guard

/-- The class of a scalar opcode (Table 4.5). -/
def scalarClass (op : Nat) : Nat :=
  if 0x030 ≤ op ∧ op ≤ 0x032 then 1 else if 0x034 ≤ op ∧ op ≤ 0x037 then 2 else if 0x040 ≤ op ∧ op ≤ 0x047 then 3
  else if 0x038 ≤ op ∧ op ≤ 0x03B then 4 else if 0x180 ≤ op ∧ op ≤ 0x19B then 5 else if 0x1C0 ≤ op ∧ op ≤ 0x1C5 then 6 else 0

/-- The class of a scalar instruction. -/
def classOf (i : Instr) : Option Nat := (encodeFields i).map fun f => scalarClass f.op.toNat

/-- PUSH, PUSHM, RTAIL, QFENCE, SEMADD, SEMWAIT, WAITB, SEMRD, TBAR, SSTEP, CBAR, CSTEP, PHINT and PHASE: compute cores alone run them. -/
def coreOnly (i : Instr) : Prop :=
  ∃ f, encodeFields i = some f ∧
    f.op.toNat ∈ [0x180, 0x181, 0x182, 0x183, 0x184, 0x185, 0x186, 0x187, 0x198, 0x199, 0x19A, 0x19B, 0x209, 0x20A]

/-- WAITA: only wayside threads and firmware cores run it. -/
def threadOnly (i : Instr) : Prop := ∃ f, encodeFields i = some f ∧ f.op.toNat = 0x189

/-- SHOOT, and MTCR to MLEASE, SHCTX or a firmware register: legal only in context 0. -/
def privileged (i : Instr) : Prop :=
  ∃ f, encodeFields i = some f ∧
    (f.op.toNat = 0x210 ∨ f.op.toNat = 0x201 ∧ (f.imm.toNat = 0x062 ∨ f.imm.toNat = 0x100 ∨ 0x800 ≤ f.imm.toNat))

/-- Step 2 of Table 4.4 lets an instruction through on this kind of core and in this context. -/
def allowedOn (i : Instr) (s : State) : Prop :=
  (coreOnly i → isCore s.cur = true) ∧ (threadOnly i → isCore s.cur = false) ∧ (privileged i → (stream s).ctx = 0#6)

/-- The source registers of a scalar instruction in field order, with their policy bits (Tables 4.6, R89): a source that the form does not have is
s0, which is always full; PUSH reads eight registers under one bit; the predicate operations and LOOPI have no register source. -/
def srcsOf (i : Instr) : List Src :=
  match encodeFields i with
  | none => []
  | some f =>
    if f.op.toNat = 0x180 then (List.range 8).map fun j => ⟨f.a + BitVec.ofNat 6 j, f.p1⟩
    else if f.op.toNat = 0x0C9 ∨ 0x090 ≤ f.op.toNat ∧ f.op.toNat ≤ 0x093 then []
    else [⟨f.a, f.p1⟩, ⟨f.b, f.p2⟩]

/-- The destination register of a scalar instruction, s0 where it has none: a call's is s63; compares, predicate operations, loops, PUSH, PUSHM and
WAITA have a predicate or a loop set in the field (Tables 4.6, R65). -/
def dstOf (i : Instr) : BitVec 6 :=
  match encodeFields i with
  | none => 0
  | some f =>
    if f.op.toNat = 0x0C1 ∨ f.op.toNat = 0x0C3 then 63
    else if f.op.toNat ∈ [0x180, 0x181, 0x189] ∨ 0x080 ≤ f.op.toNat ∧ f.op.toNat ≤ 0x093 ∨ 0x0C8 ≤ f.op.toNat ∧ f.op.toNat ≤ 0x0CA then 0
    else f.d

/-! ### Hardware loops, by set: false is set 0, true is set 1 -/

/-- A loop set is active. -/
def loopOn (x : Scalar) (n : Bool) : Bool := if n then x.la1 else x.la0
/-- LSTARTn. -/
def loopStart (x : Scalar) (n : Bool) : Word := if n then x.lstart1 else x.lstart0
/-- LENDn. -/
def loopEnd (x : Scalar) (n : Bool) : Word := if n then x.lend1 else x.lend0
/-- LCOUNTn. -/
def loopCount (x : Scalar) (n : Bool) : Word := if n then x.lcount1 else x.lcount0

/-- The pc stands at the end of an active loop. -/
def ends (x : Scalar) (n : Bool) : Prop := loopOn x n = true ∧ x.pc = loopEnd x n

/-- The end-of-body test returns to the start of a loop: a pass remains, and the more recently activated set does not return first (R72). -/
def returns (x : Scalar) (n : Bool) : Prop :=
  ends x n ∧ 1 < (loopCount x n).toNat ∧ (n = x.lord ∨ ¬(ends x (!n) ∧ 1 < (loopCount x (!n)).toNat))

/-- The end-of-body test ends a loop (R72). -/
def fallsThrough (x : Scalar) (n : Bool) : Prop :=
  ends x n ∧ (loopCount x n).toNat ≤ 1 ∧ (n = x.lord ∨ ¬(ends x (!n) ∧ 1 < (loopCount x (!n)).toNat))

/-- An address lies in a loop's body (R67). -/
def inLoop (x : Scalar) (n : Bool) (a : Word) : Prop := (loopStart x n).toNat ≤ a.toNat ∧ a.toNat ≤ (loopEnd x n).toNat

/-- A taken transfer (R67): the pc is the target, and each active loop whose body it leaves becomes inactive, its count kept; of the
registers only those listed may differ, and nothing else does. -/
def jumpsTo (s : State) (target : Word) (ds : List (BitVec 6)) (t : State) : Prop :=
  onlyStream s t ∧ regsKept (stream s) (stream t) ds ∧ predsKept (stream s) (stream t) [] ∧ restKept (stream s) (stream t) ∧
  (stream t).pc = target ∧ (stream t).run = .running ∧
  (∀ n, loopCount (stream t) n = loopCount (stream s) n) ∧
  (∀ n, loopOn (stream t) n = true ↔
    loopOn (stream s) n = true ∧ ¬(inLoop (stream s) n (stream s).pc ∧ ¬inLoop (stream s) n target)) ∧
  ∀ i, 2 ≤ i → (stream t).status.getLsbD i = (stream s).status.getLsbD i

/-! ### Memory -/

/-- Byte j of a word. -/
def byteOf (v : Word) (j : Nat) : Byte := v.extractLsb' (8 * j) 8

/-- A value is what a load of w bytes at a key returns: the bytes little-endian, then zeros or copies of the top bit (R2, Table 5.7). -/
def loads (m : Memory) (key w : Nat) (sx : Bool) (v : Word) : Prop :=
  (∀ i j, i < w → j < 8 → v.getLsbD (8 * i + j) = (memGet m (key + i)).getLsbD j) ∧
  ∀ i, 8 * w ≤ i → i < 64 → v.getLsbD i = (sx && (memGet m (key + (w - 1))).getLsbD 7)

/-- Memory differs only in the w bytes at a key, which hold the low bytes of a value (R2). -/
def stored (m m' : Memory) (key w : Nat) (v : Word) : Prop :=
  (∀ j, j < w → memGet m' (key + j) = byteOf v j) ∧ ∀ k, k < key ∨ key + w ≤ k → memGet m' k = memGet m k

/-- Every byte of memory reads as it did. -/
def memSame (s t : State) : Prop := ∀ k, memGet t.mem k = memGet s.mem k

/-- A line of a data cache holds the w low bytes of a value at an address, and they are valid and dirty; the other bytes of the line, where
the cache held it, are as they were (R80). -/
def lineStored (x y : Scalar) (ea : Word) (w : Nat) (v : Word) : Prop :=
  ∃ l, y.line (tagOf ea) = some l ∧
    (∀ i j, i < w → j < 8 → l.data.getLsbD (8 * (ea.toNat % 64 + i) + j) = v.getLsbD (8 * i + j)) ∧
    (∀ i, i < w → l.valid.getLsbD (ea.toNat % 64 + i) = true ∧ l.dirty.getLsbD (ea.toNat % 64 + i) = true) ∧
    ∀ o, x.line (tagOf ea) = some o → ∀ i, i < 64 → (i < ea.toNat % 64 ∨ ea.toNat % 64 + w ≤ i) →
      l.valid.getLsbD i = o.valid.getLsbD i ∧ l.dirty.getLsbD i = o.dirty.getLsbD i ∧
      ∀ j, j < 8 → l.data.getLsbD (8 * i + j) = o.data.getLsbD (8 * i + j)

/-! ### Queues, semaphores and waiting -/

/-- Only the pc's instruction is left waiting: the stream waits, and nothing else changes. -/
def waits (s : State) (w : Wait) (t : State) : Prop := onlyStream s t ∧ stream t = { stream s with run := .waiting w }

/-- A semaphore of the current core. -/
def semOf (s : State) (k : Nat) : Sem := (s.co s.cur).sem k

/-- A queue of the current core. -/
def ringOf (s : State) (q : BitVec 2) : Queue := (s.co s.cur).queue q

/-- The header word of a record. -/
def header (w : BitVec 512) : Word := w.extractLsb' 0 64

/-- A queue has taken a record (R89): it stands in the slot of the old TAIL, no other byte of memory has changed, TAIL is one higher and the
rest of the ring's registers as before, the other queues are as before, and PEND of the semaphore that the record raises, if it raises one,
is one higher. -/
def accepted (s : State) (q : BitVec 2) (w : BitVec 512) (t : State) : Prop :=
  rdN t.mem (spKey s.cur ((ringOf s q).slot (ringOf s q).tail)) 64 = w.toNat ∧
  (∀ k, k < spKey s.cur ((ringOf s q).slot (ringOf s q).tail) ∨ spKey s.cur ((ringOf s q).slot (ringOf s q).tail) + 64 ≤ k →
    memGet t.mem k = memGet s.mem k) ∧
  (ringOf t q).tail = (ringOf s q).tail + 1 ∧ (ringOf t q).head = (ringOf s q).head ∧ (ringOf t q).base = (ringOf s q).base ∧
  (ringOf t q).count = (ringOf s q).count ∧ (ringOf t q).flight = (ringOf s q).flight ∧
  (∀ r, r ≠ 3#2 → r ≠ q → ringOf t r = ringOf s r) ∧
  ∀ k, semOf t k = (if hdrRaise (header w) = true ∧ k = hdrSem (header w) then { semOf s k with pend := (semOf s k).pend + 1 } else semOf s k)

/-! ### Descriptors and requests (R103, Table 6.8) -/

/-- Word j of the 64-byte descriptor at an address of the agent's own store. -/
def descWord (s : State) (ea : Word) (j : Nat) : Nat := rdN s.mem (lsKey s.cur ea.toNat) 64 / 2 ^ (64 * j) % 2 ^ 64

/-- The payload that a descriptor names. -/
def payload (s : State) (ea : Word) : Nat := rdN s.mem (lsKey s.cur (pbase (descWord s ea))) (plen (descWord s ea))

/-- A descriptor can be read: its address is a multiple of 64 inside the agent's store, and no word of that store holds a storage error. -/
def descReadable (s : State) (ea : Word) : Prop := ea.toNat % 64 = 0 ∧ ea.toNat ≤ lsSize s.cur - 64 ∧ s.ecc = []

/-- The task's request to a conversation's home on this package is queued there: the last in arrival order, from this agent, with an
operation, the conversation, and the payload. -/
def requested (s : State) (op n len data : Nat) (later : Bool) (t : State) : Prop :=
  ∃ i : ConvIn, t.convIn = s.convIn ++ [i] ∧ i.agent = some s.cur ∧ i.later = later ∧ i.pkt.op = op ∧ i.pkt.key = BitVec.ofNat 32 n ∧
    i.pkt.len = len ∧ i.pkt.data = numBytes len data

/-- The units from lo to hi of a context overlap what SHOOT with sources a and b names: the context in SHCTX, and the range, or everything for length 0. -/
def shotAt (s : State) (a b : Src) (c lo hi : Nat) : Prop :=
  c = (stream s).shctx.toNat ∧
    (s.rd b = 0#64 ∨ lo * 65536 < (s.rd a).toNat % 2 ^ 56 + (s.rd b).toNat ∧ (s.rd a).toNat % 2 ^ 56 < (hi + 1) * 65536)

/-- The verdict of a CSEND.A for a register is the j-th of a stream's pending values, the first for that register. -/
def waitsVerdict (x : Scalar) (reg : BitVec 6) (j : Nat) : Prop :=
  (∃ f : Fill, x.fills[j]? = some f ∧ f.verdict = true ∧ f.reg = reg ∧ f.val = none) ∧
  ∀ i f, i < j → x.fills[i]? = some f → ¬(f.verdict = true ∧ f.reg = reg ∧ f.val = none)

/-- It has arrived: the register is full with it, and no other register, predicate or pc changes. -/
def verdictFilled (x y : Scalar) (reg : BitVec 6) (j : Nat) (v : Word) : Prop :=
  (reg ≠ 0#6 → y.reg reg = v ∧ y.isEmpty reg = false) ∧ y.fills = x.fills.eraseIdx j ∧ regsKept x y [reg] ∧ predsKept x y [] ∧ y.pc = x.pc

/-- Every conversation packet that awaits judgement concerns an object, and its message has arrived whole or may still do so: none is to be
discarded. -/
def nothingBroken (s : State) : Prop :=
  ∀ i ∈ s.convIn, itemConv s i ≠ none ∧ (i.agent ≠ none ∨ i.whole = true ∨ connState s i.ctx i.conn ≠ 2)

/-! ### Records (Tables 8.3 to 8.9) -/

/-- One issue: every trip count is 1. -/
def oneIssue (r : Rec) : Prop := r.n0 = 1 ∧ r.n1 = 1 ∧ r.n2 = 1 ∧ r.n3 = 1

/-- The record of slot c is the next of the current queue, and its effect can begin (R113, R126, R131, R135, R139): the queue runs, no record of it
is half made and no rollback is under way, the record is valid, its await, if it has one, is satisfied without an error, a matrix record has
the array's grant, its class is in the mask, no trip count is zero, no earlier record holds it back, a copy record that needs a request slot
finds one free; the turn is not limited, and no word has been read ahead. -/
def begins (s : State) (cls op : Nat) (r : Rec) (c : BitVec 32) : Prop :=
  s.lim = none ∧ (ringOf s s.curq).current = none ∧ (ringOf s s.curq).early = [] ∧ needsSlot s s.cur cls r = false ∧
  (s.co s.cur).nextSlot s.curq = some c ∧ (s.co s.cur).rolling = false ∧ (ringOf s s.curq).stopped = false ∧
  ruleBroken (judgeOf s s.cur s.curq ((ringOf s s.curq).fences.contains c)) cls op r = 0 ∧
  (r.awEn = true → (semOf s r.awSem.toNat).awaitOk r.thr = true ∧ (semOf s r.awSem.toNat).err = false) ∧
  (cls = 1 → holdsGrant s s.cur = true) ∧ (s.co s.cur).capmask.getLsbD (opClass cls op) = true ∧ r.zeroTrip = false ∧
  holdsBack cls op (ringOf s s.curq) = false ∧ ∀ f ∈ (ringOf s s.curq).flight, f.slot ≠ c

/-- The header word of the record of slot c, as its engine takes it (R137). -/
def slotHeader (s : State) (c : BitVec 32) : Word := header (Queue.record s s.cur (ringOf s s.curq) c)

/-- The record of slot c has started and its body is over: it is the last of the queue's started records, with its header, what it has outstanding,
whether it ends with an error status, and the block tags that its completion sets; nothing else of the queues changes. -/
def started (s : State) (c : BitVec 32) (pend : Nat) (err : Bool) (tags : List (Nat × BitVec 8)) (t : State) : Prop :=
  (∃ f : Flight, ringOf t s.curq = { ringOf s s.curq with flight := (ringOf s s.curq).flight ++ [f], words := [] } ∧
    f.hdr = slotHeader s c ∧ f.slot = c ∧ f.made = true ∧ f.pend = pend ∧ f.err = err ∧ f.stat = 0 ∧ f.tags = tags) ∧
  ∀ q, q ≠ 3#2 → q ≠ s.curq → ringOf t q = ringOf s q

/-- Where a scratchpad operand of a one-issue record lies: in the second half of its buffer pair if the record is phase-marked and was
accepted with STATUS.PH 1 (R125). -/
def spAt (s : State) (r : Rec) (c : BitVec 32) (d : Desc) : Nat :=
  recAddr s s.cur (r.phase && (ringOf s s.curq).ph.contains c) (d.base.toNat : Int)

/-- Vector register n of the current core. -/
def vreg (s : State) (n : Nat) : VWord := tget (s.co s.cur).vregs n 0
/-- Its format tag. -/
def vtag (s : State) (n : Nat) : BitVec 8 := tget (s.co s.cur).vtags n 0
/-- Mask register n of the current core; m0 reads all ones. -/
def mreg (s : State) (n : Nat) : VMask := if n = 0 then ~~~0 else tget (s.co s.cur).masks n 0
/-- Entry e of the accumulator of the current core. -/
def accum (s : State) (e : Nat) : Nat := (tget (s.co s.cur).acc e 0).toNat
/-- Lane i, of w bits. -/
def lane (w i : Nat) (v : VWord) : Nat := v.toNat / 2 ^ (w * i) % 2 ^ w
/-- Lane i of n is active under the mask of a record (R183). -/
def laneOn (s : State) (r : Rec) (n i : Nat) : Bool := (mreg s (r.mf 6 4)).getLsbD (i * (128 / n))

/-- The registers that a vector record names are full, its lane mask among them (R119), and the vector registers that a one-issue record reads hold
the tag that its descriptor names, if it names one (R122). -/
def operandsReady (s : State) (r : Rec) (rd : List Desc) : Prop :=
  vecFull s s.cur r = true ∧
  ∀ d ∈ rd, d.tag = 0 ∨ vtag s d.base.toNat = d.tag

/-- Of the package only the current core's engine state changes: its vector registers, their tags and whether they are empty, its masks,
VSTATUS, accumulator, written bits, spill map and queues. -/
def engineOnly (s t : State) : Prop :=
  t = { s with core := t.core } ∧ (∀ p, p ≠ s.cur → t.co p = s.co p) ∧
  t.co s.cur = { s.co s.cur with
    vregs := (t.co s.cur).vregs, vtags := (t.co s.cur).vtags, vempty := (t.co s.cur).vempty, masks := (t.co s.cur).masks,
    vstatus := (t.co s.cur).vstatus, acc := (t.co s.cur).acc, written := (t.co s.cur).written, spill := (t.co s.cur).spill,
    vq := (t.co s.cur).vq, mq := (t.co s.cur).mq, cq := (t.co s.cur).cq }

/-- The accumulator, its written bits and the spill map are as they were. -/
def accKept (s t : State) : Prop :=
  (t.co s.cur).acc = (s.co s.cur).acc ∧ (t.co s.cur).written = (s.co s.cur).written ∧ (t.co s.cur).spill = (s.co s.cur).spill

/-- The vector registers, their tags and whether they are empty are as they were. -/
def vregsKept (s t : State) : Prop :=
  (t.co s.cur).vregs = (s.co s.cur).vregs ∧ (t.co s.cur).vtags = (s.co s.cur).vtags ∧ (t.co s.cur).vempty = (s.co s.cur).vempty

/-- Vector register d has new lanes, the lane i that f gives a value; its other lanes keep theirs; it has a tag and is full; every other
register is as it was. -/
def vregWritten (s : State) (d : Nat) (tag : BitVec 8) (n w : Nat) (f : Nat → Option Nat) (t : State) : Prop :=
  (∀ i, i < n → lane w i (vreg t d) = (f i).getD (lane w i (vreg s d))) ∧ vtag t d = tag ∧ (t.co s.cur).vempty.getLsbD d = false ∧
  ∀ m, m ≠ d → vreg t m = vreg s m ∧ vtag t m = vtag s m ∧ (t.co s.cur).vempty.getLsbD m = (s.co s.cur).vempty.getLsbD m

/-- VSTATUS has gained the flags of the given lanes and lost none. -/
def flagsGained (s : State) (n : Nat) (f : Nat → Option Word) (t : State) : Prop :=
  ∀ b, b < 64 → ((t.co s.cur).vstatus.getLsbD b = true ↔
    (s.co s.cur).vstatus.getLsbD b = true ∨ ∃ i v, i < n ∧ f i = some v ∧ v.getLsbD b = true)

/-- The result of a one-issue lane operation: register D takes f(i) in each active lane i of its n, VSTATUS gains the flags that forming them
set, and the record has started; nothing else changes. -/
def laneResult (s : State) (r : Rec) (c : BitVec 32) (f : Nat → Fl Nat) (t : State) : Prop :=
  engineOnly s t ∧ accKept s t ∧ (t.co s.cur).masks = (s.co s.cur).masks ∧ started s c 0 false [] t ∧
  vregWritten s r.d.base.toNat r.d.tag (laneCount r.d.tag.toNat) (laneBits r.d.tag.toNat)
    (fun i => if laneOn s r (laneCount r.d.tag.toNat) i then some (f i).1 else none) t ∧
  flagsGained s (laneCount r.d.tag.toNat) (fun i => if laneOn s r (laneCount r.d.tag.toNat) i then some (f i).2 else none) t

/-- The issues of a vector record, performed one after another in nest order (R130, R185): what they gather and the state they leave. -/
def issued (k : VCtx) : List (Nat × Nat × Nat × Nat × Nat) → Word → State → Word → State → Prop
  | [], g, s, g', t => g' = g ∧ t = s
  | e :: es, g, s, g', t =>
    ∃ o, vecIssue k e.1 e.2 s = .ok o ∧ issued k es (vecApply k o g (vecFix k e.2 s)).1 (vecApply k o g (vecFix k e.2 s)).2 g' t

/-- The result of a reduction's one group, its issues from issue j on joined in the order of i0 to what the earlier ones gave (R206). -/
def redOver (k : VCtx) (s : State) : Nat → List Int → Fl Nat → Except EngErr (Fl Nat)
  | _, [], acc => .ok acc
  | j, a :: as, acc =>
    match readReg k 2 k.r.a a j s with
    | .error e => .error e
    | .ok u => let v := redJoin k j [acc.1] (redIssue k u s); redOver k s (j + 1) as (v.1, acc.2 ||| v.2)

/-- A copy record of the current core that starts. -/
def copyRun (s : State) (r : Rec) (c : BitVec 32) : CopyRun :=
  { p := s.cur, c := (s.sc s.cur).ctx.toNat, slot := c, r := r, ph := r.phase && (ringOf s 2#2).ph.contains c, win := (s.sc s.cur).win, blk := none,
    order := [] }

/-- Where the run of an operand of a one-issue copy record lies: in the scratchpad of a core, or at a global address (R129, R343). -/
def runAt (s : State) (r : Rec) (c : BitVec 32) (d : Desc) : Place := placeOf s (copyRun s r c) d (0, 0, 0, 0)

/-- n bytes at a key hold the n bytes that stood at another key, and every other byte of memory is as it was. -/
def copied (m m' : Memory) (dst src n : Nat) : Prop :=
  (∀ j, j < n → memGet m' (dst + j) = memGet m (src + j)) ∧ ∀ k, k < dst ∨ dst + n ≤ k → memGet m' k = memGet m k

/-- Semaphore k of core q has gained n, and ERR where asked; every other semaphore of the package is as it was. -/
def raised (s t : State) (q k n : Nat) (err : Bool) : Prop :=
  ∀ p j, (t.co p).sem j = if p = q ∧ j = k then
    { (s.co p).sem j with done := ((s.co p).sem j).done + BitVec.ofNat 32 n, err := ((s.co p).sem j).err || err } else (s.co p).sem j

/-- No semaphore of the package changes. -/
def semsKept (s t : State) : Prop := ∀ p j, (t.co p).sem j = (s.co p).sem j

/-- Word j of a 64-byte network descriptor in the current core's scratchpad. -/
def netWord (s : State) (r : Rec) (c : BitVec 32) (j : Nat) : Nat := rdN s.mem (spKey s.cur (spAt s r c r.b)) 64 / 2 ^ (64 * j) % 2 ^ 64

/-- The package's outgoing packets have gained those of one message: they carry the bytes of v in order. -/
def messageQueued (s t : State) (op mode len carry v : Nat) (tag : Word) (key : BitVec 32) (roff : Word) : Prop :=
  ∃ ps : List Packet, t.tx.map (·.pkt) = s.tx.map (·.pkt) ++ ps ∧ ps ≠ [] ∧ ps.flatMap (·.data) = numBytes carry v ∧
    ∀ p ∈ ps, p.op = op ∧ p.mode = mode ∧ p.len = len ∧ p.tag = tag ∧ p.key = key ∧ p.roff = roff

/-- The outgoing packets of the package are distinct, and those of a connection belong to messages that it has numbered. -/
def outgoingDistinct (s : State) (c n : Nat) : Prop :=
  s.tx.Pairwise (fun u v => ¬(u.ctx = v.ctx ∧ u.conn = v.conn ∧ u.pkt.mode = v.pkt.mode ∧ u.pkt.msg = v.pkt.msg ∧ u.pkt.psn = v.pkt.psn)) ∧
  ∀ u ∈ s.tx, u.ctx = c → u.conn = n → u.pkt.msg < (connRun s c n).msgs

/-! ### The network -/

/-- An answer to a packet: kind 0 acknowledges, carrying its congestion mark; kind 1 refuses. -/
def answerTo (p : Packet) (kind code : Nat) : Reply :=
  { peerHi := p.peerHi, peerLo := p.peerLo, job := p.job, mode := p.mode, psn := p.psn, kind := kind, code := code, ecn := p.ecn && kind == 0 }

/-- A packet is claimed by one connection, whose context takes it in and which permits its mode and operation (R249, R250, R256, R262). -/
def reaches (s : State) (c n : Nat) (p : Packet) : Prop :=
  claims s p = [(c, n)] ∧ p.sec = false ∧ p.mode ≤ 1 ∧ opSupported p.op = true ∧ admits s c = true ∧ connPermits s c n p.mode = true ∧
  connAborted s c n = false

/-- A packet has been accepted before, or is held for its turn. -/
def duplicate (s : State) (c n : Nat) (p : Packet) : Prop :=
  p.psn < ((connRun s c n).mode p.mode).rxNext ∨ ((connRun s c n).mode p.mode).seen.contains p.psn = true ∨
  (((connRun s c n).mode p.mode).held.any fun q => q.psn == p.psn) = true

/-- Nothing is in arrival on the package, and the connection holds no packet, no flush and no completion flag back. -/
def quiet (s : State) (c n : Nat) : Prop :=
  s.rx = [] ∧ s.flags = [] ∧ (connRun s c n).m1.held = [] ∧ (connRun s c n).flushes = []

/-! ### Requests of stores, milestones and host rings -/

/-- The oldest request of a kind that performed stores have made, and the requests without it. -/
def nextAct (s : State) (p : Act → Prop) (a : Act) (rest : List Act) : Prop :=
  ∃ l r, s.acts = l ++ a :: r ∧ rest = l ++ r ∧ p a ∧ ∀ b ∈ l, ¬p b

/-- The next operation of code op of the subject milestone: the first fired list whose next operation has that code, with its argument, and the
lists before and after it; none of the operations after it is reserved. -/
def nextOp (s : State) (op : Nat) (f : Fired) (arg : Nat) (l r : List Fired) : Prop :=
  s.fired = l ++ f :: r ∧ f.ms = s.cur ∧ (∀ g ∈ l, ¬(g.ms = s.cur ∧ g.ops.head?.map opCode = some op)) ∧
  ∃ w ws, f.ops = w :: ws ∧ opCode w = op ∧ opArg w = arg ∧ ∀ v ∈ ws, opCode v < 7

/-- That operation is done with: its list goes on with the next one. -/
def opDone (f : Fired) (l r : List Fired) (t : State) : Prop :=
  t.fired = l ++ (if f.ops.tail = [] then [] else [{ f with idx := f.idx + 1, ops := f.ops.tail }]) ++ r

/-- An operation's block of n bytes reads as v in its context. -/
def blockAt (s : State) (f : Fired) (arg n v : Nat) : Prop := globalRead 0xFFFF f.ctx (lineFuel n) arg n s = .ok (v, false, s)

/-- An operation has been skipped: the table status records it with a reason, and no other memory changes (R272). -/
def skipRecorded (s : State) (f : Fired) (why : Nat) (t : State) : Prop :=
  rdN t.mem (tsKey f.ctx 1) 8 =
    f.ms % 2 ^ 20 * 2 ^ 44 + f.idx % 8 * 2 ^ 41 + why * 2 ^ 32 + satInc (rdN s.mem (tsKey f.ctx 1) 8 % 2 ^ 32) 32 ∧
  ∀ k, k < tsKey f.ctx 1 ∨ tsKey f.ctx 1 + 8 ≤ k → memGet t.mem k = memGet s.mem k

/-- Every byte of memory but the n at a key is as it was. -/
def memBut (s t : State) (key n : Nat) : Prop := ∀ k, k < key ∨ key + n ≤ k → memGet t.mem k = memGet s.mem k

/-- The registers of every agent read as they did. -/
def allRegsKept (s t : State) : Prop := ∀ a, (t.sc a).reg = (s.sc a).reg

/-! ### Alarms -/

/-- The input power in watts as the samples of the last 100 µs give it. -/
def power100 (u : State) : List Nat := (u.samples.filter fun e => decide (u.ns < e.1 + 100_000)).map (·.2)

/-- PALARM has been judged for a state (R426, R427): it rises with a mean input power of more than 2,700 W over 100 µs, with PWR_ALERT or with a hot
sensor, and falls once the mean has been below 2,565 W for 1 ms without them; nothing else changes. -/
def alarmJudged (u t : State) : Prop :=
  t = { u with palarm := t.palarm, calm := t.calm } ∧
  (2700 * (power100 u).length < (power100 u).sum ∨ u.pwrAlert = true ∨ u.hot ≠ [] → t.palarm = true ∧ t.calm = none) ∧
  ((power100 u).sum ≤ 2700 * (power100 u).length → u.pwrAlert = false → u.hot = [] →
    ((power100 u).sum < 2565 * (power100 u).length ∨ power100 u = [] →
      t.calm = some (u.calm.getD u.ns) ∧ (t.palarm = true ↔ u.palarm = true ∧ u.ns < u.calm.getD u.ns + 1_000_000)) ∧
    (2565 * (power100 u).length ≤ (power100 u).sum → power100 u ≠ [] → t.palarm = u.palarm ∧ t.calm = none))

end Sys2Proof.Safety
end

