-- ==== Sys2Proof/Certificates/Slice0/Obligations.lean ====
section
/-! DEFINITION. The statements about the HX8 package. Each docstring names the rules or tables of the spec that it formalises. -/
open Sys2Proof Sys2Proof.Machine Sys2Proof.Safety

/-! ### The registers -/

/-- s0 reads zero, is always full and discards writes, p0 reads true and discards writes, and every other register and predicate reads what was last
written to it and is empty only from a mark on until its value arrives (R33). -/
def Obligations.RegistersAndPredicates : Prop :=
  ∀ x : Scalar,
    (x.reg 0 = 0 ∧ x.isEmpty 0 = false ∧ x.pred 0 = true) ∧
    (∀ (v : Word) (b : Bool), x.setReg 0 v = x ∧ x.fillReg 0 v = x ∧ x.markEmpty 0 = x ∧ x.setPred 0 b = x) ∧
    (∀ (r : BitVec 6) (v : Word), r ≠ 0 →
      (∀ q, (x.setReg r v).reg q = if q = r then v else x.reg q) ∧ (∀ q, (x.fillReg r v).reg q = if q = r then v else x.reg q) ∧
      (∀ q, (x.setReg r v).isEmpty q = x.isEmpty q) ∧ (∀ q, (x.markEmpty r).isEmpty q = if q = r then true else x.isEmpty q) ∧
      ∀ q, (x.fillReg r v).isEmpty q = if q = r then false else x.isEmpty q) ∧
    ∀ (p : BitVec 5) (b : Bool), p ≠ 0 → ∀ q, (x.setPred p b).pred q = if q = p then b else x.pred q

/-! ### Scalar results (R53 to R64) -/

/-- Table 5.1, the integer operations: the destination takes f(a, b), and nothing else changes but the pc and the loops (R53, R55). -/
def Parts.IntegerOperationResults : Prop :=
  ∀ (s : State) (g : Guard) (d : BitVec 6) (a b : Src), acts s 0 g [a, b] [d] →
    completes (.add g d a b) s (result s d (s.rd a + s.rd b)) ∧
    completes (.sub g d a b) s (result s d (s.rd a - s.rd b)) ∧
    completes (.and g d a b) s (result s d (s.rd a &&& s.rd b)) ∧
    completes (.or g d a b) s (result s d (s.rd a ||| s.rd b)) ∧
    completes (.xor g d a b) s (result s d (s.rd a ^^^ s.rd b)) ∧
    completes (.andn g d a b) s (result s d (s.rd a &&& ~~~s.rd b)) ∧
    completes (.shl g d a b) s (result s d (s.rd a <<< ((s.rd b).toNat % 64))) ∧
    completes (.shr g d a b) s (result s d (s.rd a >>> ((s.rd b).toNat % 64))) ∧
    (∃ v : Word, v.toInt = (s.rd a).toInt / 2 ^ ((s.rd b).toNat % 64) ∧ completes (.sar g d a b) s (result s d v)) ∧
    (∃ v : Word, v.toInt = min (s.rd a).toInt (s.rd b).toInt ∧ completes (.min g d a b) s (result s d v)) ∧
    (∃ v : Word, v.toInt = max (s.rd a).toInt (s.rd b).toInt ∧ completes (.max g d a b) s (result s d v)) ∧
    (∃ v : Word, v.toNat = min (s.rd a).toNat (s.rd b).toNat ∧ completes (.minu g d a b) s (result s d v)) ∧
    (∃ v : Word, v.toNat = max (s.rd a).toNat (s.rd b).toNat ∧ completes (.maxu g d a b) s (result s d v)) ∧
    ∀ p : BitVec 5, completes (.sel g d a b p) s (result s d (if (stream s).pred p then s.rd a else s.rd b))

/-- Table 5.1, the products and the saturating sums: exact integers, then the low or high half, or the nearest end of the range (R55). -/
def Parts.ProductsAndSaturatingSums : Prop :=
  ∀ (s : State) (g : Guard) (d : BitVec 6) (a b : Src),
    (acts s 1 g [a, b] [d] →
      (∃ v : Word, v.toNat = (s.rd a).toNat * (s.rd b).toNat % 2 ^ 64 ∧ completes (.mul g d a b) s (result s d v)) ∧
      (∃ v : Word, v.toInt = (s.rd a).toInt * (s.rd b).toInt / 2 ^ 64 ∧ completes (.mulh g d a b) s (result s d v)) ∧
      ∃ v : Word, v.toNat = (s.rd a).toNat * (s.rd b).toNat / 2 ^ 64 ∧ completes (.mulhu g d a b) s (result s d v)) ∧
    (acts s 4 g [a, b] [d] →
      (∃ v : Word, v.toInt = max (-(2 ^ 63)) (min (2 ^ 63 - 1) ((s.rd a).toInt + (s.rd b).toInt)) ∧
        completes (.adds g d a b) s (result s d v)) ∧
      (∃ v : Word, v.toInt = max (-(2 ^ 63)) (min (2 ^ 63 - 1) ((s.rd a).toInt - (s.rd b).toInt)) ∧
        completes (.subs g d a b) s (result s d v)) ∧
      (∃ v : Word, v.toNat = min (2 ^ 64 - 1) ((s.rd a).toNat + (s.rd b).toNat) ∧ completes (.addus g d a b) s (result s d v)) ∧
      ∃ v : Word, v.toNat = (s.rd a).toNat - (s.rd b).toNat ∧ completes (.subus g d a b) s (result s d v))

/-- Division by a divisor that is not zero: quotients truncate toward zero, the remainder has the sign of the dividend, and the one
overflow gives -2^63 with remainder 0 (R58). -/
def Parts.DivisionResults : Prop :=
  ∀ (s : State) (g : Guard) (d : BitVec 6) (a b : Src), acts s 2 g [a, b] [d] → s.rd b ≠ 0#64 →
    (∃ v : Word, (if (s.rd a).toInt = -(2 ^ 63) ∧ (s.rd b).toInt = -1 then v.toInt = -(2 ^ 63)
        else v.toInt = (s.rd a).toInt.tdiv (s.rd b).toInt) ∧ completes (.div g d a b) s (result s d v)) ∧
    (∃ v : Word, v.toNat = (s.rd a).toNat / (s.rd b).toNat ∧ completes (.divu g d a b) s (result s d v)) ∧
    (∃ v : Word, (if (s.rd a).toInt = -(2 ^ 63) ∧ (s.rd b).toInt = -1 then v.toInt = 0
        else v.toInt = (s.rd a).toInt - (s.rd b).toInt * (s.rd a).toInt.tdiv (s.rd b).toInt) ∧
      completes (.rem g d a b) s (result s d v)) ∧
    ∃ v : Word, v.toNat = (s.rd a).toNat - (s.rd b).toNat * ((s.rd a).toNat / (s.rd b).toNat) ∧
      completes (.remu g d a b) s (result s d v)

/-- DIV with a zero divisor traps DIV_ZERO, cause 5, with TVAL the dividend and every register as it was (R22); so do the other three
forms (R58). -/
def Obligations.DivisionByZeroTraps : Prop :=
  ∀ (s : State) (g : Guard) (d : BitVec 6) (a b : Src), acts s 2 g [a, b] [d] → s.rd b = 0#64 → canTrap s →
    (completes (.div g d a b) s fun t => trapped s 5 0 (s.rd a) t ∧ ∀ r, (stream t).reg r = (stream s).reg r) ∧
    completes (.divu g d a b) s (trapped s 5 0 (s.rd a)) ∧ completes (.rem g d a b) s (trapped s 5 0 (s.rd a)) ∧
    completes (.remu g d a b) s (trapped s 5 0 (s.rd a))

/-- Table 5.2: leading and trailing zeros, one bits, reversal of bits and of bytes, each said bit by bit (R57). -/
def Parts.CountsAndReversals : Prop :=
  ∀ (s : State) (g : Guard) (d : BitVec 6) (a : Src), acts s 3 g [a] [d] →
    (∃ v : Word, (∀ i, 64 - v.toNat ≤ i → (s.rd a).getLsbD i = false) ∧ v.toNat ≤ 64 ∧
      (v.toNat < 64 → (s.rd a).getLsbD (63 - v.toNat) = true) ∧ completes (.clz g d a) s (result s d v)) ∧
    (∃ v : Word, (∀ i, i < v.toNat → (s.rd a).getLsbD i = false) ∧ v.toNat ≤ 64 ∧
      (v.toNat < 64 → (s.rd a).getLsbD v.toNat = true) ∧ completes (.ctz g d a) s (result s d v)) ∧
    (∃ v : Word, v.toNat = (List.range 64).countP (fun i => (s.rd a).getLsbD i) ∧ completes (.popc g d a) s (result s d v)) ∧
    (∃ v : Word, (∀ i, i < 64 → v.getLsbD i = (s.rd a).getLsbD (63 - i)) ∧ completes (.brev g d a) s (result s d v)) ∧
    ∃ v : Word, (∀ i j, i < 8 → j < 8 → v.getLsbD (8 * i + j) = (s.rd a).getLsbD (8 * (7 - i) + j)) ∧
      completes (.bswap g d a) s (result s d v)

/-- Table 5.3: the immediate operations and constants (R59). -/
def Parts.ImmediateResults : Prop :=
  ∀ (s : State) (g : Guard) (d : BitVec 6) (a : Src) (imm : BitVec 28) (k : BitVec 6),
    (acts s 0 g [a] [d] →
      completes (.addImm g d a imm) s (result s d (s.rd a + imm.signExtend 64)) ∧
      completes (.andImm g d a imm) s (result s d (s.rd a &&& imm.signExtend 64)) ∧
      completes (.orImm g d a imm) s (result s d (s.rd a ||| imm.signExtend 64)) ∧
      completes (.xorImm g d a imm) s (result s d (s.rd a ^^^ imm.signExtend 64)) ∧
      completes (.shlImm g d a k) s (result s d (s.rd a <<< k.toNat)) ∧
      completes (.shrImm g d a k) s (result s d (s.rd a >>> k.toNat)) ∧
      (∃ v : Word, v.toInt = (s.rd a).toInt / 2 ^ k.toNat ∧ completes (.sarImm g d a k) s (result s d v)) ∧
      completes (.lsi g d a imm) s (result s d ((s.rd a <<< 28) ||| imm.setWidth 64))) ∧
    (acts s 0 g [] [d] →
      completes (.li g d imm) s (result s d (imm.signExtend 64)) ∧
      completes (.adr g d imm) s (result s d ((stream s).pc + imm.signExtend 64)))

/-- Fields and extension, bit by bit (R60, R61): EXTU, EXTS and INS of a field that fits, SXT and ZXT of 8, 16 and 32 bits. -/
def Parts.FieldAndExtensionResults : Prop :=
  ∀ (s : State) (g : Guard) (d : BitVec 6) (a : Src),
    (acts s 3 g [a] [d] → ∀ pos len1 : BitVec 6, pos.toNat + (len1.toNat + 1) ≤ 64 →
      (∃ v : Word, (∀ i, i < 64 → v.getLsbD i = (if i < len1.toNat + 1 then (s.rd a).getLsbD (pos.toNat + i) else false)) ∧
        completes (.extu g d a pos len1) s (result s d v)) ∧
      (∃ v : Word, (∀ i, i < 64 → v.getLsbD i = (s.rd a).getLsbD (pos.toNat + min i len1.toNat)) ∧
        completes (.exts g d a pos len1) s (result s d v)) ∧
      ∃ v : Word, (∀ i, i < 64 → v.getLsbD i =
          (if pos.toNat ≤ i ∧ i < pos.toNat + (len1.toNat + 1) then (s.rd a).getLsbD (i - pos.toNat) else ((stream s).reg d).getLsbD i)) ∧
        completes (.ins g d a pos len1) s (result s d v)) ∧
    (acts s 0 g [a] [d] → ∀ w : BitVec 2, w ≠ 3#2 →
      completes (.sxt g d a w) s (result s d
        (if w = 0#2 then ((s.rd a).setWidth 8).signExtend 64 else if w = 1#2 then ((s.rd a).setWidth 16).signExtend 64
          else ((s.rd a).setWidth 32).signExtend 64)) ∧
      completes (.zxt g d a w) s (result s d
        (if w = 0#2 then ((s.rd a).setWidth 8).setWidth 64 else if w = 1#2 then ((s.rd a).setWidth 16).setWidth 64
          else ((s.rd a).setWidth 32).setWidth 64)))

/-- The twelve compares (R62): signed forms compare as integers, unsigned forms as numbers, an immediate sign-extended in both. -/
def Parts.CompareResults : Prop :=
  ∀ (s : State) (g : Guard) (p : BitVec 5) (a b : Src) (imm : BitVec 28),
    (acts s 0 g [a, b] [] →
      completes (.cmpEq g p a b) s (resultP s p (s.rd a = s.rd b)) ∧
      completes (.cmpNe g p a b) s (resultP s p (s.rd a ≠ s.rd b)) ∧
      completes (.cmpLt g p a b) s (resultP s p ((s.rd a).toInt < (s.rd b).toInt)) ∧
      completes (.cmpLe g p a b) s (resultP s p ((s.rd a).toInt ≤ (s.rd b).toInt)) ∧
      completes (.cmpLtu g p a b) s (resultP s p ((s.rd a).toNat < (s.rd b).toNat)) ∧
      completes (.cmpLeu g p a b) s (resultP s p ((s.rd a).toNat ≤ (s.rd b).toNat))) ∧
    (acts s 0 g [a] [] →
      completes (.cmpEqImm g p a imm) s (resultP s p ((s.rd a).toInt = imm.toInt)) ∧
      completes (.cmpNeImm g p a imm) s (resultP s p ((s.rd a).toInt ≠ imm.toInt)) ∧
      completes (.cmpLtImm g p a imm) s (resultP s p ((s.rd a).toInt < imm.toInt)) ∧
      completes (.cmpLeImm g p a imm) s (resultP s p ((s.rd a).toInt ≤ imm.toInt)) ∧
      completes (.cmpLtuImm g p a imm) s (resultP s p ((s.rd a).toNat < (imm.signExtend 64).toNat)) ∧
      completes (.cmpLeuImm g p a imm) s (resultP s p ((s.rd a).toNat ≤ (imm.signExtend 64).toNat)))

/-- Predicate operations, and the move of all predicates to and from a register (R63, R64). -/
def Parts.PredicateOperations : Prop :=
  ∀ (s : State) (g : Guard),
    (acts s 0 g [] [] → ∀ p q r : BitVec 5,
      completes (.pand g p q r) s (resultP s p ((stream s).pred q = true ∧ (stream s).pred r = true)) ∧
      completes (.por g p q r) s (resultP s p ((stream s).pred q = true ∨ (stream s).pred r = true)) ∧
      completes (.pxor g p q r) s (resultP s p ((stream s).pred q ≠ (stream s).pred r)) ∧
      completes (.pandn g p q r) s (resultP s p ((stream s).pred q = true ∧ (stream s).pred r = false))) ∧
    (∀ d : BitVec 6, acts s 0 g [] [d] →
      ∃ v : Word, (∀ i : BitVec 5, v.getLsbD i.toNat = (stream s).pred i) ∧ v.toNat < 2 ^ 32 ∧ completes (.mfp g d) s (result s d v)) ∧
    ∀ a : Src, acts s 0 g [a] [] →
      completes (.mtp g a) s fun t =>
        onlyStream s t ∧ (∀ i : BitVec 5, i ≠ 0#5 → (stream t).pred i = (s.rd a).getLsbD i.toNat) ∧ (stream t).pred 0#5 = true ∧
        regsKept (stream s) (stream t) [] ∧ restKept (stream s) (stream t) ∧ movedOn (stream s) (stream t)

/-! ### Control flow (R65 to R73) -/

/-- The end-of-body test (R72), at a NOP, which has no other effect (R54): a loop that ends here and has passes left returns to its start
with its count one lower; one that has none ends, its count 0; the other set is tested only if the more recently activated one does not
return; with no return the pc is the next instruction. -/
def Obligations.EndOfBodyTest : Prop :=
  ∀ (s : State) (g : Guard), acts s 0 g [] [] →
    completes (.nop g) s fun t =>
      onlyStream s t ∧ regsKept (stream s) (stream t) [] ∧ predsKept (stream s) (stream t) [] ∧ restKept (stream s) (stream t) ∧
      (stream t).run = .running ∧
      (∀ n, returns (stream s) n → (stream t).pc = loopStart (stream s) n ∧ loopOn (stream t) n = true ∧
        loopCount (stream t) n = loopCount (stream s) n - 1) ∧
      (∀ n, fallsThrough (stream s) n → loopOn (stream t) n = false ∧ loopCount (stream t) n = 0#64) ∧
      (∀ n, ¬returns (stream s) n → ¬fallsThrough (stream s) n →
        loopOn (stream t) n = loopOn (stream s) n ∧ loopCount (stream t) n = loopCount (stream s) n) ∧
      ((∀ n, ¬returns (stream s) n) → (stream t).pc = (stream s).pc + 8) ∧
      ∀ i, 2 ≤ i → (stream t).status.getLsbD i = (stream s).status.getLsbD i

/-- BR, CALL, JR and CALLR are taken transfers (R65 to R67): the targets, s63 with the address after a call, a register target that is not
a multiple of 8 trapping MISALIGNED, cause 3, and CALLR reading its target before it writes s63. -/
def Obligations.BranchesAndCalls : Prop :=
  ∀ (s : State) (g : Guard) (a : Src) (imm : BitVec 28),
    (acts s 0 g [] [] → completes (.br g imm) s (jumpsTo s ((stream s).pc + 8 * imm.signExtend 64) [])) ∧
    (acts s 0 g [] [63#6] → completes (.call g imm) s fun t =>
      jumpsTo s ((stream s).pc + 8 * imm.signExtend 64) [63#6] t ∧ (stream t).reg 63#6 = (stream s).pc + 8) ∧
    (acts s 0 g [a] [] → (s.rd a).toNat % 8 = 0 → completes (.jr g a) s (jumpsTo s (s.rd a) [])) ∧
    (acts s 0 g [a] [63#6] → (s.rd a).toNat % 8 = 0 → completes (.callr g a) s fun t =>
      jumpsTo s (s.rd a) [63#6] t ∧ (stream t).reg 63#6 = (stream s).pc + 8) ∧
    ((s.rd a).toNat % 8 ≠ 0 → canTrap s →
      (acts s 0 g [a] [] → completes (.jr g a) s (trapped s 3 0 (s.rd a))) ∧
      (acts s 0 g [a] [63#6] → completes (.callr g a) s (trapped s 3 0 (s.rd a))))

/-- LOOP and LOOPI with a count that is not zero set up their loop set, make it active and the more recent one, and retire; with a zero
count the set is inactive and they are a taken transfer to the label (R71). -/
def Obligations.LoopSetup : Prop :=
  ∀ (s : State) (g : Guard) (n : BitVec 1) (imm : BitVec 28) (i : Instr) (cnt : Word),
    ((∃ a, i = .loop g n a imm ∧ cnt = s.rd a ∧ acts s 0 g [a] []) ∨
      (∃ c : BitVec 12, i = .loopi g n c imm ∧ cnt = c.setWidth 64 ∧ acts s 0 g [] [])) →
    ∃ x : Scalar, x = { stream s with
        lstart0 := x.lstart0, lend0 := x.lend0, lcount0 := x.lcount0, lstart1 := x.lstart1, lend1 := x.lend1, lcount1 := x.lcount1,
        status := x.status } ∧
      loopStart x (n == 1#1) = (stream s).pc + 8 ∧ loopEnd x (n == 1#1) = (stream s).pc + 8 * (imm.signExtend 64 - 1) ∧
      loopCount x (n == 1#1) = cnt ∧ (loopOn x (n == 1#1) = true ↔ cnt ≠ 0#64) ∧
      loopStart x (n == 0#1) = loopStart (stream s) (n == 0#1) ∧ loopEnd x (n == 0#1) = loopEnd (stream s) (n == 0#1) ∧
      loopCount x (n == 0#1) = loopCount (stream s) (n == 0#1) ∧ loopOn x (n == 0#1) = loopOn (stream s) (n == 0#1) ∧
      x.lord = (if cnt = 0#64 then (stream s).lord else n == 1#1) ∧ (∀ j, 3 ≤ j → x.status.getLsbD j = (stream s).status.getLsbD j) ∧
      (cnt ≠ 0#64 → completes i s (passes (s.putSc s.cur x))) ∧
      (cnt = 0#64 → completes i s (jumpsTo (s.putSc s.cur x) ((stream s).pc + 8 * imm.signExtend 64) []))

/-- LPCLR, opcode 0x0CA of class sbase, sets its loop set inactive and leaves LSTART, LEND, LCOUNT and LORD as they were; on an inactive set it has no
effect; a word of that opcode with a bit of [41:0] set is no instruction (R73). -/
def Obligations.LoopClear : Prop :=
  (∀ (s : State) (g : Guard) (n : BitVec 1), acts s 0 g [] [] →
    ∃ x : Scalar, x = { stream s with status := x.status } ∧
      (∀ j, j < 64 → x.status.getLsbD j = (if j = n.toNat then false else (stream s).status.getLsbD j)) ∧
      completes (.lpclr g n) s (passes (s.putSc s.cur x))) ∧
  (∀ (g : Guard) (n : BitVec 1), classOf (.lpclr g n) = some 0 ∧ (encodeFields (.lpclr g n)).map Fields.op = some 0x0CA#10) ∧
  ∀ w : Word, w.extractLsb' 54 10 = 0x0CA#10 → w.extractLsb' 0 42 ≠ 0 → ∃ e, decodeWord w = .error e

/-! ### Checks, traps and the return from a trap (R20, R21, R31 to R41, R85, R86, R110) -/

/-- An instruction whose guard fails retires with no effect but the end-of-body test, whatever its sources hold: of every class (R32).
Privileged and wrong-core forms are apart, because their check comes first. -/
def Obligations.FailedGuardRetires : Prop :=
  ∀ (i : Instr) (g : Guard) (cls : Nat) (s : State), guardOf i = some g → classOf i = some cls →
    allowedOn i s → s.hasClass cls = true → (stream s).pred g.p = g.neg → completes i s (passes s)

/-- A class that is not in the core's capability mask traps FENCED_CAP, cause 2, with TVAL the class, before the guard is looked at
(Table 4.4): TPC, TCAUSE, TVAL and TSTATUS are written as for any trap. The task of a team outside any caravan is then suspended with its
team, whose placement mask the class joins (R295). -/
def Obligations.FencedClassTraps : Prop :=
  ∀ (i : Instr) (g : Guard) (cls : Nat) (s : State), guardOf i = some g → classOf i = some cls → allowedOn i s →
    isCore s.cur = true → (s.co s.cur).capmask.getLsbD cls = false → canTrap s → (stream s).run = .running →
    completes i s fun t =>
      (stream t).tpc = (stream s).pc ∧ (stream t).tcause = 2 ∧ (stream t).tval = BitVec.ofNat 64 cls ∧
      (stream t).tstatus = (stream s).status ∧ (∀ r, (stream t).reg r = (stream s).reg r) ∧
      ((s.co s.cur).task = none → trapped s 2 0 (BitVec.ofNat 64 cls) t) ∧
      ∀ (r : TaskRef) (x : Team), (s.co s.cur).task = some r → s.tm r.team = some x → x.caravan = none → s.cur ∈ x.cores →
        (stream t).run = .suspended ∧
        ∃ y, t.tm r.team = some y ∧ y.mask.getLsbD cls = true ∧ (∀ j, x.mask.getLsbD j = true → y.mask.getLsbD j = true) ∧
          y.saving = some s.ns

/-- Of every scalar instruction whose guard holds, in the order of Table 4.4: an empty source with its policy bit set traps REG_EMPTY, cause 6, with
TVAL the register's number; with the bit clear the instruction stalls and changes nothing (R34). Of several empty sources the first in field order
decides, which is the model's choice (log entry 103). -/
def Parts.EmptySourcePolicy : Prop :=
  ∀ (i : Instr) (g : Guard) (cls : Nat) (s : State), guardOf i = some g → classOf i = some cls → allowedOn i s →
    s.hasClass cls = true → (stream s).pred g.p ≠ g.neg →
    ∀ (a : Src) (l r : List Src), srcsOf i = l ++ a :: r → (∀ b ∈ l, (stream s).isEmpty b.r = false) → (stream s).isEmpty a.r = true →
      (a.trap = true → canTrap s → completes i s (trapped s 6 0 (a.r.setWidth 64))) ∧
      (a.trap = false → completes i s fun t => t = s)

/-- Every scalar instruction that would act, but whose destination register is empty, stalls and changes nothing. A fill makes the destination full with
its value: that of a load whose value has returned, and that of an LD.ACQ of a word of no sync object; no other register is written or
filled (R35). -/
def Parts.EmptyDestinationStalls : Prop :=
  (∀ (i : Instr) (g : Guard) (cls : Nat) (s : State), guardOf i = some g → classOf i = some cls → allowedOn i s →
    s.hasClass cls = true → (stream s).pred g.p ≠ g.neg → (∀ b ∈ srcsOf i, (stream s).isEmpty b.r = false) →
    (stream s).isEmpty (dstOf i) = true → completes i s fun t => t = s) ∧
  ∀ (s : State) (k : Nat) (f : Fill) (v : Word), (stream s).fills[k]? = some f → f.verdict = false → f.val = some v →
    (f.acq = true → acqRegions s (stream s).ctx.toNat f.ea = none) →
    completes (if f.acq then .acquireLoadFill k else .globalLoadFill k) s fun t =>
      onlyStream s t ∧ (f.reg ≠ 0#6 → (stream t).reg f.reg = v) ∧ (stream t).isEmpty f.reg = false ∧
      regsKept (stream s) (stream t) [f.reg] ∧ (∀ r, r ≠ f.reg → (stream t).isEmpty r = (stream s).isEmpty r) ∧
      (stream t).pc = (stream s).pc ∧ (stream t).run = (stream s).run

/-- TRAP (0x202) traps TRAP, cause 13 with TVAL the code, and BREAK (0x203) traps BREAK, cause 12; both are of class sbase (R110). -/
def Obligations.SoftwareTraps : Prop :=
  (∀ (s : State) (g : Guard) (code : BitVec 16), acts s 0 g [] [] → canTrap s →
    completes (.trapOp g code) s (trapped s 13 0 (code.setWidth 64)) ∧ completes (.brk g) s (trapped s 12 0 0)) ∧
  ∀ (g : Guard) (code : BitVec 16), (classOf (.trapOp g code) = some 0 ∧ (encodeFields (.trapOp g code)).map Fields.op = some 0x202#10) ∧
    classOf (.brk g) = some 0 ∧ (encodeFields (.brk g)).map Fields.op = some 0x203#10

/-- With STATUS.TH 1 a precise trap is not taken: the context faults DOUBLE_TRAP; with TVEC 0 and TH 0 it faults UNHANDLED_TRAP. The stop
record holds the trapping instruction's address and the cause the trap would have recorded, the stream stops, and no register or byte of
memory changes (R85). -/
def Obligations.TrapInHandlerFaults : Prop :=
  ∀ (s : State) (g : Guard) (code : BitVec 16), acts s 0 g [] [] → isFw s.cur = false →
    ((stream s).th = true ∨ (stream s).tvec = 0#64) →
    completes (.trapOp g code) s fun t =>
      stream t = { stream s with run := .halted } ∧ (∀ a, a ≠ s.cur → t.sc a = s.sc a) ∧
      t = { s with scal := t.scal, faults := t.faults } ∧
      ∃ f : FaultRec, t.faults = s.faults ++ [f] ∧ f.ctx = (stream s).ctx ∧ f.pos = (stream s).pc ∧ f.stat = (stream s).status ∧
        f.cause = (if (stream s).th then 0x2A else 0x2B) ∧ f.detail = 13

/-- ERET goes to TPC, restores TH, LORD, LA1 and LA0 from TSTATUS and leaves PH; TPC, TCAUSE, TVAL, TSTATUS and the loop registers keep
their values (R21, R86). It retires, so the end-of-body test is made at its own address (log entry 25): stated where no loop that TSTATUS
restores ends there. -/
def Obligations.EretReturns : Prop :=
  ∀ (s : State) (g : Guard), acts s 0 g [] [] →
    ¬((stream s).tstatus.getLsbD 0 = true ∧ (stream s).pc = (stream s).lend0) →
    ¬((stream s).tstatus.getLsbD 1 = true ∧ (stream s).pc = (stream s).lend1) →
    completes (.eret g) s fun t =>
      onlyStream s t ∧ stream t = { stream s with pc := (stream s).tpc, status := (stream t).status, run := .running } ∧
      (∀ i, i < 64 → (stream t).status.getLsbD i = (if i = 7 ∨ i < 3 then (stream s).tstatus.getLsbD i else if i = 6 then (stream s).ph else false))

/-- An unassigned opcode traps ILLEGAL_OP, cause 1 with DETAIL 0, TVAL the instruction word (R40). -/
def Parts.UnassignedOpcodeTraps : Prop :=
  ∀ (s : State) (w : Word), canTrap s → completes (.unassignedOpcode w) s (trapped s 1 0 w)

/-- WAITA on a compute core, and on a thread or a firmware core the instructions of engines, semaphores, teams and buffer phases, trap
ILLEGAL_OP with DETAIL 2, TVAL the instruction word, before the guard is looked at (R41). -/
def Parts.WrongKindOfCoreTraps : Prop :=
  ∀ (i : Instr) (s : State) (w : Word), encodeScalar i = some w → canTrap s →
    ((∃ g p a o, i = .waita g p a o) → isCore s.cur = true → completes i s (trapped s 1 2 w)) ∧
    (coreOnly i → isCore s.cur = false → completes i s (trapped s 1 2 w))

/-- SHOOT, and an MTCR to a privileged control register, trap ILLEGAL_OP with DETAIL 3 in every context but 0, before the guard (R41). -/
def Parts.PrivilegedOutsideContextZeroTraps : Prop :=
  ∀ (i : Instr) (s : State) (w : Word), encodeScalar i = some w → privileged i → (stream s).ctx ≠ 0#6 → canTrap s →
    completes i s (trapped s 1 3 w)

/-! ### Scratchpad and local stores (R74, R75, R77, R239, R375) -/

/-- The seven scratchpad loads: an aligned access inside the agent's own scratchpad or local store, of a word that is not uncorrectable,
gives its destination the bytes there, extended as Table 5.7 says. Single errors of the word are corrected first (R77); with none the rest of
the package is as it was. -/
def Parts.LocalLoadResults : Prop :=
  ∀ (s : State) (g : Guard) (d : BitVec 6) (a : Src) (imm : BitVec 28) (i : Instr) (w : Nat) (sx : Bool),
    (i, w, sx) ∈ [(.ldSB g d a imm, 1, true), (.ldSBu g d a imm, 1, false), (.ldSH g d a imm, 2, true), (.ldSHu g d a imm, 2, false),
      (.ldSW g d a imm, 4, true), (.ldSWu g d a imm, 4, false), (.ldS g d a imm, 8, false)] →
    acts s 0 g [a] [d] → ∀ ea, ea = s.rd a + imm.signExtend 64 → ea.toNat % w = 0 → ea.toNat + w ≤ lsSize s.cur →
    localBad s ea.toNat w = false →
    ∃ v, loads s.mem (lsKey s.cur ea.toNat) w sx v ∧ completes i s (result (localFix s ea.toNat w) d v) ∧
      (s.ecc = [] → completes i s (result s d v))

/-- The four scratchpad stores: the w bytes at the address take the low bytes of the source; every other byte of memory, every register and
every other stream is as it was, and but for the error code of the word so is the rest of the package. A store of fewer than 8 bytes needs a
word that is not uncorrectable (R77). -/
def Parts.LocalStoreResults : Prop :=
  ∀ (s : State) (g : Guard) (a b : Src) (imm : BitVec 28) (i : Instr) (w : Nat),
    (i, w) ∈ [(.stSB g a b imm, 1), (.stSH g a b imm, 2), (.stSW g a b imm, 4), (.stS g a b imm, 8)] →
    acts s 0 g [a, b] [] → ∀ ea, ea = s.rd a + imm.signExtend 64 → ea.toNat % w = 0 → ea.toNat + w ≤ lsSize s.cur →
    (w < 8 → localBad s ea.toNat w = false) →
    completes i s fun t =>
      streamMoves s t ∧ stored s.mem t.mem (lsKey s.cur ea.toNat) w (s.rd b) ∧
      t = { s with scal := t.scal, mem := t.mem, ecc := t.ecc, core := t.core } ∧ (s.ecc = [] → t.ecc = [] ∧ t.core = s.core)

/-- A load or store that is not naturally aligned traps MISALIGNED, cause 3 (R74), and an aligned scratchpad access above the last byte
traps BAD_ADDRESS, cause 4 (R75), with TVAL the effective address. That a scratchpad access that is both misaligned and too high traps MISALIGNED is the
model's choice (log entry 104, DESIGN CHOICE). -/
def Parts.AccessTraps : Prop :=
  ∀ (s : State) (g : Guard) (d : BitVec 6) (a b : Src) (imm : BitVec 28) (i : Instr) (w : Nat),
    acts s 0 g [a, b] [d] → canTrap s → ∀ ea, ea = s.rd a + imm.signExtend 64 →
    ((i, w) ∈ [(.ldSH g d a imm, 2), (.ldSHu g d a imm, 2), (.ldSW g d a imm, 4), (.ldSWu g d a imm, 4), (.ldS g d a imm, 8),
        (.stSH g a b imm, 2), (.stSW g a b imm, 4), (.stS g a b imm, 8),
        (.ldGH g d a imm, 2), (.ldGHu g d a imm, 2), (.ldGW g d a imm, 4), (.ldGWu g d a imm, 4), (.ldG g d a imm, 8),
        (.stGH g a b imm, 2), (.stGW g a b imm, 4), (.stG g a b imm, 8)] →
      ea.toNat % w ≠ 0 → completes i s (trapped s 3 0 ea)) ∧
    ((i, w) ∈ [(.ldSB g d a imm, 1), (.ldSBu g d a imm, 1), (.ldSH g d a imm, 2), (.ldSHu g d a imm, 2), (.ldSW g d a imm, 4),
        (.ldSWu g d a imm, 4), (.ldS g d a imm, 8), (.stSB g a b imm, 1), (.stSH g a b imm, 2), (.stSW g a b imm, 4), (.stS g a b imm, 8)] →
      ea.toNat % w = 0 → lsSize s.cur < ea.toNat + w → completes i s (trapped s 4 0 ea))

/-! ### Global memory (R78 to R82, R99) -/

/-- The seven global loads at issue: an aligned access of a well-formed address, with no acquire load outstanding, its line not being
fetched and a request slot free, marks its destination empty, queues the fill and moves on; nothing else of the package changes. A hit's
value is known at once, a miss's is not (R79). -/
def Parts.GlobalLoadIssues : Prop :=
  ∀ (s : State) (g : Guard) (d : BitVec 6) (a : Src) (imm : BitVec 28) (i : Instr) (w : Nat) (sx : Bool),
    (i, w, sx) ∈ [(.ldGB g d a imm, 1, true), (.ldGBu g d a imm, 1, false), (.ldGH g d a imm, 2, true), (.ldGHu g d a imm, 2, false),
      (.ldGW g d a imm, 4, true), (.ldGWu g d a imm, 4, false), (.ldG g d a imm, 8, false)] →
    acts s 0 g [a] [d] → ∀ ea, ea = s.rd a + imm.signExtend 64 → ea.toNat % w = 0 → badForm ea.toNat = false →
    (isControl (ea.toNat % 2 ^ 56) = true → (stream s).ctx = 0#6) → (stream s).acquiring = false →
    (stream s).fetching (tagOf ea) = false → slotsFull s s.cur = false →
    completes i s fun t =>
      onlyStream s t ∧ (d ≠ 0#6 → (stream t).isEmpty d = true) ∧ (∀ r, r ≠ d → (stream t).isEmpty r = (stream s).isEmpty r) ∧
      regsKept (stream s) (stream t) [] ∧ predsKept (stream s) (stream t) [] ∧ movedOn (stream s) (stream t) ∧
      ∃ f : Fill, (stream t).fills = (stream s).fills ++ [f] ∧ f.reg = d ∧ f.ea = ea ∧ f.w = w ∧ f.sext = sx ∧ f.acq = false ∧
        f.verdict = false ∧
        (f.val ≠ none ↔ ∃ l, (stream s).line (tagOf ea) = some l ∧ ∀ k, k < w → l.valid.getLsbD (ea.toNat % 64 + k) = true)

/-- GLOBAL_LOAD_FILL: the value of a pending load arrives: its register reads it and is full, and the load is no longer pending. A hit
brings the value found at issue; a miss of a line that the cache does not hold, whose home is ordinary memory and takes the context's accesses, brings
the bytes at the home, extended as Table 5.7 says. No byte of memory changes (R35, R79). -/
def Parts.GlobalLoadFillArrives : Prop :=
  ∀ (s : State) (k : Nat) (f : Fill), (stream s).fills[k]? = some f → f.acq = false → f.verdict = false →
    (∀ v, f.val = some v → completes (.globalLoadFill k) s fun t =>
      onlyStream s t ∧ (f.reg ≠ 0#6 → (stream t).reg f.reg = v ∧ (stream t).isEmpty f.reg = false) ∧
      regsKept (stream s) (stream t) [f.reg] ∧ (stream t).fills = (stream s).fills.eraseIdx k ∧ (stream t).pc = (stream s).pc) ∧
    (f.val = none → (stream s).line (tagOf f.ea) = none → (stream s).wbPending (tagOf f.ea) = false → gateOpen s (stream s).ctx.toNat = true →
      isControl (f.ea.toNat % 2 ^ 56) = false → f.w ∈ [1, 2, 4, 8] → f.ea.toNat % f.w = 0 →
      ∀ key, resolve s s.cur (stream s).ctx.toNat f.ea.toNat 4 = .ok key → key % 64 = f.ea.toNat % 64 → isDevice key = false →
        lineUncorrectable s key = false →
        completes (.globalLoadFill k) s fun t =>
          (f.reg ≠ 0#6 → loads s.mem key f.w f.sext ((stream t).reg f.reg) ∧ (stream t).isEmpty f.reg = false) ∧
          regsKept (stream s) (stream t) [f.reg] ∧ (stream t).fills = (stream s).fills.eraseIdx k ∧ (stream t).pc = (stream s).pc ∧
          memSame s t)

/-- R78: a malformed global address, and one in control space outside context 0, raise the context fault UNMAPPED_ACCESS, cause 0x20, at issue; an address
that is unmapped, or that the context may not use so, raises UNMAPPED_ACCESS, or PERMISSION, cause 0x21, when its check is made: of a load when its
home is reached, of a store when its bytes reach their home, where the owner die's memory side reports it for the issuing core. An instruction that faults
does not retire, no register is written and no byte of memory changes, and the stop record holds the pc and the address, of a store of a line that of its
lowest dirty byte, which is the model's choice (log entry 93). A fetch faults in the same way. -/
def Parts.GlobalAccessFaults : Prop :=
  (∀ (s : State) (g : Guard) (d : BitVec 6) (a b : Src) (imm : BitVec 28) (i : Instr) (w : Nat),
    acts s 0 g [a, b] [d] → isFw s.cur = false → ∀ ea, ea = s.rd a + imm.signExtend 64 → ea.toNat % w = 0 →
    ((i, w) ∈ [(.ldGB g d a imm, 1), (.ldGBu g d a imm, 1), (.ldGH g d a imm, 2), (.ldGHu g d a imm, 2), (.ldGW g d a imm, 4), (.ldGWu g d a imm, 4),
        (.ldG g d a imm, 8)] →
      (badForm ea.toNat = true ∨ isControl (ea.toNat % 2 ^ 56) = true ∧ (stream s).ctx ≠ 0#6) → completes i s (contextFaults s 0x20 ea)) ∧
    ((i, w) ∈ [(.stGB g a b imm, 1), (.stGH g a b imm, 2), (.stGW g a b imm, 4), (.stG g a b imm, 8)] →
      (badForm ea.toNat = true → completes i s (contextFaults s 0x20 ea)) ∧
      (badForm ea.toNat = false → isControl (ea.toNat % 2 ^ 56) = true → (stream s).ctx ≠ 0#6 → (stream s).acquiring = false →
        (stream s).fetching (tagOf ea) = false → gateOpen s (stream s).ctx.toNat = true → completes i s (contextFaults s 0x20 ea)))) ∧
  (∀ (s : State) (g : Guard) (d : BitVec 6) (a : Src) (off : BitVec 22) (ea : Word), acts s 5 g [a] [d] → isFw s.cur = false →
    ea = s.rd a + off.signExtend 64 → ea.toNat % 8 = 0 → badForm ea.toNat = true → completes (.ldAcq g d a off) s (contextFaults s 0x20 ea)) ∧
  (∀ (s : State) (k e : Nat) (f : Fill), (stream s).fills[k]? = some f → f.val = none → f.verdict = false → isFw s.cur = false → s.ecc = [] →
    (stream s).wbPending (tagOf f.ea) = false → gateOpen s (stream s).ctx.toNat = true → e = 0x20 ∨ e = 0x21 →
    resolve s s.cur (stream s).ctx.toNat f.ea.toNat 4 = .error e →
    (f.acq = false → isControl (f.ea.toNat % 2 ^ 56) = false → completes (.globalLoadFill k) s (contextFaults s e f.ea)) ∧
    (f.acq = true → completes (.acquireLoadFill k) s (contextFaults s e f.ea))) ∧
  (∀ (s : State) (k e : Nat) (w : WriteBack) (ea : Nat), (stream s).wb[k]? = some w → (∀ o ∈ (stream s).wb.take k, ¬(o.tag = w.tag ∧ o.ctx = w.ctx)) →
    isFw s.cur = false → s.ecc = [] → gateOpen s w.ctx.toNat = true → e = 0x20 ∨ e = 0x21 → ea = tagAddr w.tag + firstByte w.mask.toNat 0 64 →
    resolve s s.cur w.ctx.toNat ea 2 = .error e →
    completes (.writebackPerform k) s fun t =>
      t = { s with scal := t.scal, faults := t.faults } ∧ (stream t).wb = (stream s).wb.eraseIdx k ∧ (∀ r, (stream t).reg r = (stream s).reg r) ∧
      ∃ f : FaultRec, t.faults = s.faults ++ [f] ∧ f.cause = e ∧ f.ctx = w.ctx ∧ f.val = BitVec.ofNat 64 ea ∧ f.typ = 5 ∧ f.phys = ea / 2 ^ 56 ∧
        f.pos = BitVec.ofNat 64 (if isCore s.cur then s.cur else 0xFFF)) ∧
  ∀ (s : State) (e : Nat), s.sched = [] → (stream s).run = .running → (stream s).fresh = false → isFw s.cur = false → s.ecc = [] →
    codeLine s s.cur = none → e = 0x20 ∨ e = 0x21 → resolve s s.cur (stream s).ctx.toNat (stream s).pc.toNat 1 = .error e →
    ∃ t, step s = .next t ∧ contextFaults s e (stream s).pc t

/-- The four global stores: the cache's line takes the bytes, which become valid and dirty, and no memory changes (R80, R82); in control
space, which no cache holds, the store is performed at its home at once (R342). While the core is fetching the line, or a load-acquire is outstanding,
the store stalls and changes nothing (R82, R99). -/
def Parts.GlobalStoreResults : Prop :=
  ∀ (s : State) (g : Guard) (a b : Src) (imm : BitVec 28) (i : Instr) (w : Nat),
    (i, w) ∈ [(.stGB g a b imm, 1), (.stGH g a b imm, 2), (.stGW g a b imm, 4), (.stG g a b imm, 8)] →
    acts s 0 g [a, b] [] → ∀ ea, ea = s.rd a + imm.signExtend 64 → ea.toNat % w = 0 → badForm ea.toNat = false →
    ((stream s).acquiring = true ∨ (stream s).fetching (tagOf ea) = true → completes i s fun t => t = s) ∧
    ((stream s).acquiring = false → (stream s).fetching (tagOf ea) = false → isControl (ea.toNat % 2 ^ 56) = false →
      completes i s fun t =>
        onlyStream s t ∧ lineStored (stream s) (stream t) ea w (s.rd b) ∧ regsKept (stream s) (stream t) [] ∧
        predsKept (stream s) (stream t) [] ∧ (stream t).fills = (stream s).fills ∧ movedOn (stream s) (stream t)) ∧
    ((stream s).acquiring = false → (stream s).fetching (tagOf ea) = false → isControl (ea.toNat % 2 ^ 56) = true → ∀ u, homeWrite s s.cur (stream s).ctx.toNat ea.toNat w ((s.rd b).toNat % 2 ^ (8 * w)) (2 ^ w - 1) 2 = .ok u →
      completes i s fun t => t = u.retire)

/-- WRITEBACK_PERFORM: a write-back of a context that the memory sides admit, whose line's home is ordinary memory and no sync object, writes exactly
the bytes of its mask there, and is gone (R80, R315, R323). -/
def Parts.WritebackPerforms : Prop :=
  ∀ (s : State) (k : Nat) (w : WriteBack) (key0 : Nat), (stream s).wb[k]? = some w →
    (∀ o ∈ (stream s).wb.take k, ¬(o.tag = w.tag ∧ o.ctx = w.ctx)) →
    resolve s s.cur w.ctx.toNat (tagAddr w.tag + firstByte w.mask.toNat 0 64) 2 = .ok key0 →
    gateOpen s w.ctx.toNat = true → isObjHome s (key0 - firstByte w.mask.toNat 0 64) = false → isDevice key0 = false → isDevice (key0 - firstByte w.mask.toNat 0 64) = false →
    lineUncorrectable s (key0 - firstByte w.mask.toNat 0 64) = false →
    completes (.writebackPerform k) s fun t =>
      (∀ j, j < 64 → memGet t.mem (key0 - firstByte w.mask.toNat 0 64 + j) =
        (if w.mask.getLsbD j then w.data.extractLsb' (8 * j) 8 else memGet s.mem (key0 - firstByte w.mask.toNat 0 64 + j))) ∧
      (∀ j, j < key0 - firstByte w.mask.toNat 0 64 ∨ key0 - firstByte w.mask.toNat 0 64 + 64 ≤ j → memGet t.mem j = memGet s.mem j) ∧
      (stream t).wb = (stream s).wb.eraseIdx k ∧ (∀ r, (stream t).reg r = (stream s).reg r) ∧ (stream t).pc = (stream s).pc

/-- LD.ACQ at issue: an aligned access of a well-formed address, with no other acquire load, the line not being fetched and a request slot free, marks its
destination empty and is pending (R99). ACQUIRE_LOAD_FILL, of a word at an address bound to no sync object, then reads the home: the
register is full with the 8 bytes there, and the lines without dirty bytes have left the cache. -/
def Parts.AcquireLoad : Prop :=
  (∀ (s : State) (g : Guard) (d : BitVec 6) (a : Src) (off : BitVec 22), acts s 5 g [a] [d] →
    ∀ ea, ea = s.rd a + off.signExtend 64 → ea.toNat % 8 = 0 → badForm ea.toNat = false → (stream s).acquiring = false →
    (stream s).fetching (tagOf ea) = false → slotsFull s s.cur = false →
    completes (.ldAcq g d a off) s fun t =>
      onlyStream s t ∧ (d ≠ 0#6 → (stream t).isEmpty d = true) ∧ regsKept (stream s) (stream t) [] ∧
      predsKept (stream s) (stream t) [] ∧ movedOn (stream s) (stream t) ∧ (stream t).acquiring = true ∧
      ∃ f : Fill, (stream t).fills = (stream s).fills ++ [f] ∧ f.reg = d ∧ f.ea = ea ∧ f.w = 8 ∧ f.acq = true ∧ f.val = none) ∧
  ∀ (s : State) (k : Nat) (f : Fill) (key : Nat), (stream s).fills[k]? = some f → f.acq = true → f.val = none → f.ea.toNat % 8 = 0 →
    gateOpen s (stream s).ctx.toNat = true → (stream s).wbPending (tagOf f.ea) = false → resolve s s.cur (stream s).ctx.toNat f.ea.toNat 4 = .ok key →
    lineUncorrectable s key = false → acqRegions s (stream s).ctx.toNat f.ea = none →
    completes (.acquireLoadFill k) s fun t =>
      (f.reg ≠ 0#6 → loads s.mem key 8 false ((stream t).reg f.reg) ∧ (stream t).isEmpty f.reg = false) ∧
      regsKept (stream s) (stream t) [f.reg] ∧ (stream t).fills = (stream s).fills.eraseIdx k ∧ memSame s t ∧
      (∀ e ∈ (stream t).dc, ∀ l ∈ e.2, l.dirty ≠ 0)

/-! ### Engine issue, semaphores and waiting (R89 to R96) -/

/-- PUSH takes the record in eight registers, and PUSHM the one in scratchpad, when the queue has a ring and room and the record breaks no
rule: the predicate is false; with the queue full the predicate is true and nothing else happens (R23, R89). -/
def Parts.PushesAccept : Prop :=
  ∀ (s : State) (g : Guard) (p : BitVec 5) (a : Src) (q : BitVec 2) (off : BitVec 22) (i : Instr) (w : BitVec 512), q ≠ 3#2 →
    isCore s.cur = true → s.ecc = [] →
    (i = .push g p a q ∧ acts s 5 g ((List.range 8).map fun k => { a with r := a.r + BitVec.ofNat 6 k }) [] ∧
        (∀ k j, k < 8 → j < 64 → w.getLsbD (64 * k + j) = ((stream s).reg (a.r + BitVec.ofNat 6 k)).getLsbD j) ∨
      i = .pushm g p a q off ∧ acts s 5 g [a] [] ∧ (s.rd a + off.signExtend 64).toNat % 64 = 0 ∧
        (s.rd a + off.signExtend 64).toNat ≤ 0x3F_FFC0 ∧ w.toNat = rdN s.mem (spKey s.cur (s.rd a + off.signExtend 64).toNat) 64) →
    (ringOf s q).count ≠ 0 → wordsBroken (judgeOf s s.cur q false) w = 0 →
    ((ringOf s q).fillLevel ≠ (ringOf s q).count.toNat →
      completes i s fun t => accepted s q w t ∧ (p ≠ 0#5 → (stream t).pred p = false) ∧ regsKept (stream s) (stream t) [] ∧
        predsKept (stream s) (stream t) [p] ∧ restKept (stream s) (stream t) ∧ movedOn (stream s) (stream t)) ∧
    ((ringOf s q).fillLevel = (ringOf s q).count.toNat → completes i s (resultP s p True))

/-- PUSH of a record that breaks a rule traps BAD_RECORD, cause 7, with DETAIL the rule and TVAL the first register's number; a queue without a ring traps
RING_OVERRUN, cause 8, with DETAIL 2 and TVAL the count 1 (R89, R131), which is the model's reading (log entry 42, DEDUCED). -/
def Parts.PushRefusesBadRecords : Prop :=
  ∀ (s : State) (g : Guard) (p : BitVec 5) (a : Src) (q : BitVec 2) (w : BitVec 512), q ≠ 3#2 → isCore s.cur = true → canTrap s →
    acts s 5 g ((List.range 8).map fun k => { a with r := a.r + BitVec.ofNat 6 k }) [] →
    (∀ k j, k < 8 → j < 64 → w.getLsbD (64 * k + j) = ((stream s).reg (a.r + BitVec.ofNat 6 k)).getLsbD j) →
    ((ringOf s q).count = 0 → completes (.push g p a q) s (trapped s 8 2 1)) ∧
    ((ringOf s q).count ≠ 0 → wordsBroken (judgeOf s s.cur q false) w ≠ 0 →
      completes (.push g p a q) s (trapped s 7 (wordsBroken (judgeOf s s.cur q false) w) (a.r.setWidth 64)))

/-- PUSHM's traps: an address that is no multiple of 64 traps MISALIGNED, cause 3, and an aligned one above 0x3F_FFC0 BAD_ADDRESS, cause 4, with TVAL
the address; a queue without a ring traps RING_OVERRUN, cause 8, with DETAIL 2 and TVAL 1 (log entry 42); a record
that breaks a rule traps BAD_RECORD, cause 7, with DETAIL the rule and TVAL the address (R23, R24, R89, R131). -/
def Parts.PushmTraps : Prop :=
  ∀ (s : State) (g : Guard) (p : BitVec 5) (a : Src) (q : BitVec 2) (off : BitVec 22) (ea : Word), q ≠ 3#2 → isCore s.cur = true → canTrap s →
    acts s 5 g [a] [] → ea = s.rd a + off.signExtend 64 →
    (ea.toNat % 64 ≠ 0 → completes (.pushm g p a q off) s (trapped s 3 0 ea)) ∧
    (ea.toNat % 64 = 0 → 0x3F_FFC0 < ea.toNat → completes (.pushm g p a q off) s (trapped s 4 0 ea)) ∧
    (ea.toNat % 64 = 0 → ea.toNat ≤ 0x3F_FFC0 → s.ecc = [] →
      ((ringOf s q).count = 0 → completes (.pushm g p a q off) s (trapped s 8 2 1)) ∧
      ∀ w : BitVec 512, w.toNat = rdN s.mem (spKey s.cur ea.toNat) 64 → (ringOf s q).count ≠ 0 → wordsBroken (judgeOf s s.cur q false) w ≠ 0 →
        completes (.pushm g p a q off) s (trapped s 7 (wordsBroken (judgeOf s s.cur q false) w) ea))

/-- RTAIL accepts n records that stand in the ring: TAIL is n higher, PEND of each semaphore is higher by the number of those records that
raise it, and no byte of memory changes, where no scratchpad word is in error; a header that is uncorrectable is consumed: the context faults
ECC_UNCORRECTABLE, cause 0x22, and nothing is accepted (R77). More records than free slots trap RING_OVERRUN, cause 8, with DETAIL 1, more than the ring
holds with DETAIL 0, and a queue without a ring with DETAIL 2, TVAL n (R90). -/
def Parts.RtailAccepts : Prop :=
  ∀ (s : State) (g : Guard) (a : Src) (q : BitVec 2), q ≠ 3#2 → isCore s.cur = true → acts s 5 g [a] [] →
    (canTrap s → (ringOf s q).count = 0 → completes (.rtail g a q) s (trapped s 8 2 (s.rd a))) ∧
    ((ringOf s q).count ≠ 0 → (s.rd a).toNat ≤ (ringOf s q).count.toNat - (ringOf s q).fillLevel → isFw s.cur = false →
      (∃ j, j < (s.rd a).toNat ∧ spBad s s.cur ((ringOf s q).slot ((ringOf s q).tail + BitVec.ofNat 32 j)) 8 = true) →
      completes (.rtail g a q) s fun t =>
        t.mem = s.mem ∧ t.core = s.core ∧ (stream t).run = .halted ∧ (∀ r, (stream t).reg r = (stream s).reg r) ∧
        ∃ f : FaultRec, t.faults = s.faults ++ [f] ∧ f.cause = 0x22 ∧ f.pos = (stream s).pc) ∧
    ((ringOf s q).count ≠ 0 → s.ecc = [] → (s.rd a).toNat ≤ (ringOf s q).count.toNat - (ringOf s q).fillLevel →
      completes (.rtail g a q) s fun t =>
        streamMoves s t ∧ t.mem = s.mem ∧ (ringOf t q).tail = (ringOf s q).tail + BitVec.ofNat 32 (s.rd a).toNat ∧
        (ringOf t q).head = (ringOf s q).head ∧ (∀ r, r ≠ 3#2 → r ≠ q → ringOf t r = ringOf s r) ∧
        ∀ k, (semOf t k).done = (semOf s k).done ∧ (semOf t k).pend = (semOf s k).pend + BitVec.ofNat 32 ((List.range (s.rd a).toNat).countP fun j =>
          let h := recHeader s s.cur (ringOf s q) ((ringOf s q).tail + BitVec.ofNat 32 j)
          hdrRaise h && hdrSem h == k)) ∧
    (canTrap s → (ringOf s q).count ≠ 0 → (ringOf s q).count.toNat < (s.rd a).toNat → completes (.rtail g a q) s (trapped s 8 0 (s.rd a))) ∧
    (canTrap s → (ringOf s q).count ≠ 0 → (s.rd a).toNat ≤ (ringOf s q).count.toNat → (ringOf s q).count.toNat - (ringOf s q).fillLevel < (s.rd a).toNat →
      completes (.rtail g a q) s (trapped s 8 1 (s.rd a)))

/-- QFENCE, every named queue having a ring and room, gives each named queue one fence record of one join number, which then increments;
queues that are not named do not change. The records stand in the slots at TAIL, whatever the mask, where those slots lie apart. With a named queue
full it stalls and changes nothing; with one that has no ring it traps RING_OVERRUN, cause 8, DETAIL 2, TVAL the code of the lowest such queue (R92, R140). -/
def Parts.QfenceWritesFences : Prop :=
  ∀ (s : State) (g : Guard) (m : BitVec 3), isCore s.cur = true → acts s 5 g [] [] →
    (∀ j, j < 3 → m.getLsbD j = true → (ringOf s (BitVec.ofNat 2 j)).count = 0 →
      (∀ k, k < j → m.getLsbD k = true → (ringOf s (BitVec.ofNat 2 k)).count ≠ 0) → canTrap s →
      completes (.qfence g m) s (trapped s 8 2 (BitVec.ofNat 64 j))) ∧
    ((∀ j, j < 3 → m.getLsbD j = true → (ringOf s (BitVec.ofNat 2 j)).count ≠ 0) →
    ((∀ j, j < 3 → m.getLsbD j = true → (ringOf s (BitVec.ofNat 2 j)).fillLevel ≠ (ringOf s (BitVec.ofNat 2 j)).count.toNat) →
      completes (.qfence g m) s fun t =>
        streamMoves s t ∧ (t.co s.cur).joinNo = (s.co s.cur).joinNo + 1 ∧
        (∀ j, j < 3 → (ringOf t (BitVec.ofNat 2 j)).tail = (ringOf s (BitVec.ofNat 2 j)).tail + (if m.getLsbD j then 1 else 0) ∧
          (ringOf t (BitVec.ofNat 2 j)).head = (ringOf s (BitVec.ofNat 2 j)).head) ∧
        ((∀ j k, j < 3 → k < 3 → j ≠ k → m.getLsbD j = true → m.getLsbD k = true → ∀ a b,
            a = (ringOf s (BitVec.ofNat 2 j)).slot (ringOf s (BitVec.ofNat 2 j)).tail →
            b = (ringOf s (BitVec.ofNat 2 k)).slot (ringOf s (BitVec.ofNat 2 k)).tail → a + 64 ≤ b ∨ b + 64 ≤ a) →
          ∀ j, j < 3 → m.getLsbD j = true →
            rdN t.mem (spKey s.cur ((ringOf s (BitVec.ofNat 2 j)).slot (ringOf s (BitVec.ofNat 2 j)).tail)) 64 =
              (fenceRecord m (s.co s.cur).joinNo).toNat)) ∧
    ((∃ j, j < 3 ∧ m.getLsbD j = true ∧ (ringOf s (BitVec.ofNat 2 j)).fillLevel = (ringOf s (BitVec.ofNat 2 j)).count.toNat) →
      completes (.qfence g m) s fun t => t = s))

/-- SEMADD, SEMRD, SEMWAIT and WAITB (Table 6.5): DONE grows by a[31:0] and a[32] clears ERR; a read gives the count with ERR in bit 32; a
wait passes at once where DONE - a, or PEND - DONE below the threshold, says so as a signed 32-bit number, or ERR is 1; else it waits, and
passes when its completion finds the condition to hold (R93, R94). -/
def Obligations.SemaphoreOperations : Prop :=
  ∀ (s : State), isCore s.cur = true →
    (∀ (g : Guard) (a : Src) (k : BitVec 5), acts s 5 g [a] [] →
      (completes (.semadd g a k) s fun t =>
        streamMoves s t ∧ t.mem = s.mem ∧
        ∀ j, semOf t j = (if j = k.toNat then { semOf s j with
          done := (semOf s j).done + (s.rd a).setWidth 32, err := (semOf s j).err && !(s.rd a).getLsbD 32 } else semOf s j)) ∧
      (0 ≤ ((semOf s k.toNat).done - (s.rd a).setWidth 32).toInt ∨ (semOf s k.toNat).err = true → completes (.semwait g a k) s (passes s)) ∧
      (((semOf s k.toNat).done - (s.rd a).setWidth 32).toInt < 0 → (semOf s k.toNat).err = false →
        completes (.semwait g a k) s (waits s (.sem k ((s.rd a).setWidth 32))))) ∧
    (∀ (g : Guard) (k : BitVec 5) (n : BitVec 22), acts s 5 g [] [] →
      (((semOf s k.toNat).pend - (semOf s k.toNat).done).toInt < n.toNat ∨ (semOf s k.toNat).err = true →
        completes (.waitb g k n) s (passes s)) ∧
      (n.toNat ≤ ((semOf s k.toNat).pend - (semOf s k.toNat).done).toInt → (semOf s k.toNat).err = false →
        completes (.waitb g k n) s (waits s (.waitb k n)))) ∧
    (∀ (g : Guard) (d : BitVec 6) (k : BitVec 5), acts s 5 g [] [d] →
      (∃ v : Word, v.toNat = (semOf s k.toNat).done.toNat + (if (semOf s k.toNat).err then 2 ^ 32 else 0) ∧
        completes (.semrdDone g d k) s (result s d v)) ∧
      ∃ v : Word, v.toNat = (semOf s k.toNat).pend.toNat + (if (semOf s k.toNat).err then 2 ^ 32 else 0) ∧
        completes (.semrdPend g d k) s (result s d v)) ∧
    (∀ (k : BitVec 5) (a : BitVec 32), (stream s).run = .waiting (.sem k a) →
      (0 ≤ ((semOf s k.toNat).done - a).toInt ∨ (semOf s k.toNat).err = true) → completes .semwaitComplete s (passes s)) ∧
    ∀ (k : BitVec 5) (n : BitVec 22), (stream s).run = .waiting (.waitb k n) →
      (((semOf s k.toNat).pend - (semOf s k.toNat).done).toInt < n.toNat ∨ (semOf s k.toNat).err = true) →
      completes .waitbComplete s (passes s)

/-- PAUSE #0 has no effect; PAUSE #n waits n clk, ten ticks each, and then goes on (R95). WAITA on a thread returns false when its watch line
has been written, true when no monitor is free or its monitor is lost, and else waits (R96). -/
def Parts.PauseAndMonitoredWait : Prop :=
  ∀ (s : State),
    (∀ (g : Guard) (n : BitVec 22), acts s 5 g [] [] →
      (n = 0#22 → completes (.pause g n) s (passes s)) ∧
      (n ≠ 0#22 → completes (.pause g n) s (waits s (.pause (s.time + 10 * n.toNat))))) ∧
    (∀ till, (stream s).run = .waiting (.pause till) → till ≤ s.time → completes .pauseExpire s (passes s)) ∧
    (∀ (g : Guard) (p : BitVec 5) (a : Src) (off : BitVec 22) (key : Nat), isCore s.cur = false → acts s 5 g [a] [] →
      (s.rd a + off.signExtend 64).toNat % 8 = 0 →
      resolve s s.cur (stream s).ctx.toNat (s.rd a + off.signExtend 64).toNat 4 = .ok key →
      ((stream s).watch = some (key - key % 64, true) → completes (.waita g p a off) s (resultP s p False)) ∧
      ((stream s).watch ≠ some (key - key % 64, true) → monitors s < 4096 →
        completes (.waita g p a off) s (waits s (.waita p (key - key % 64) false))) ∧
      ((stream s).watch ≠ some (key - key % 64, true) → 4096 ≤ monitors s → completes (.waita g p a off) s (resultP s p True))) ∧
    ∀ (p : BitVec 5) (line : Nat) (hit lost : Bool), (stream s).run = .waiting (.waita p line hit) →
      (hit = true → completes (.waitaReturn lost) s (resultP s p False)) ∧
      (hit = false → lost = true → completes (.waitaReturn lost) s (resultP s p True))

/-! ### Sync objects and barriers (R97 to R102, R315 to R318) -/

/-- ACQ.X and ACQ.S of an object that the task does not hold put the agent's request at the end of the object's queue and wait. ACQ_GRANT, the
request at the head and no hold against it, makes the task a holder, takes the request off the queue and lets the instruction retire; no line
of the object's regions is left in the cache. With a shared request the shared ones that follow it are granted, each in the same way (R98, R316). -/
def Parts.AcquireAndGrant : Prop :=
  (∀ (s : State) (g : Guard) (a : Src) (key : Nat), acts s 5 g [a] [] → (s.rd a).toNat % 64 = 0 →
    objEntry s (stream s).ctx.toNat (s.rd a).toNat ≠ none → resolve s s.cur (stream s).ctx.toNat (s.rd a).toNat 6 = .ok key →
    holds s key = false →
    (completes (.acqX g a) s fun t => (objAt t key).queue = (objAt s key).queue ++ [(s.cur, true)] ∧
      (objAt t key).holders = (objAt s key).holders ∧ (stream t).run = .waiting (.acq (s.rd a) true) ∧ (stream t).pc = (stream s).pc) ∧
    completes (.acqS g a) s fun t => (objAt t key).queue = (objAt s key).queue ++ [(s.cur, false)] ∧
      (objAt t key).holders = (objAt s key).holders ∧ (stream t).run = .waiting (.acq (s.rd a) false) ∧ (stream t).pc = (stream s).pc) ∧
  ∀ (s : State) (obj : Word) (excl : Bool) (key : Nat) (l r : List (Nat × Bool)), (stream s).run = .waiting (.acq obj excl) →
    resolve s s.cur (stream s).ctx.toNat obj.toNat 6 = .ok key → (objAt s key).queue = (s.cur, excl) :: (l ++ r) →
    (if excl then (objAt s key).holders = [] ∧ l = []
      else (∀ h ∈ (objAt s key).holders, h.2 = false) ∧ (∀ e ∈ l, e.2 = false ∧ ∃ o x, (s.sc e.1).run = .waiting (.acq o x)) ∧
        r.head?.map (·.2) ≠ some false) →
    (s.cur :: l.map (·.1)).Nodup →
    completes .acqGrant s fun t =>
      (objAt t key).holders = (objAt s key).holders ++ (taskId s s.cur, excl) :: l.map (fun e => (taskId s e.1, false)) ∧
      (objAt t key).queue = r ∧ (∀ r, (stream t).reg r = (stream s).reg r) ∧ movedOn (stream s) (stream t) ∧
      (∀ e ∈ l, movedOn (s.sc e.1) (t.sc e.1) ∧ ∀ r, (t.sc e.1).reg r = (s.sc e.1).reg r) ∧
      ∀ e ∈ (stream t).dc, ∀ l ∈ e.2, inRegions (objRegions s (stream s).ctx.toNat obj.toNat) l.tag = false

/-- REL and REL.SET of an object that no network read has marked, once every store of the task has been performed: REL gives up the task's hold and leaves VALUE, REL.SET leaves the holds
and stores VALUE; both raise RELNUM by one (Table 17.3) and retire. While a line is dirty or a write-back is on its way they wait, the dirty
lines leaving for their homes. Of an object whose line is uncorrectable a release writes no byte, and the context faults ECC_UNCORRECTABLE, cause 0x22
(R414). An ACQ of an object held, and a REL of one not held, trap SYNC_STATE, cause 16 (R97, R98). -/
def Parts.ReleaseResults : Prop :=
  ∀ (s : State) (g : Guard) (a b : Src) (key : Nat), acts s 5 g [a, b] [] → (s.rd a).toNat % 64 = 0 →
    objEntry s (stream s).ctx.toNat (s.rd a).toNat ≠ none → resolve s s.cur (stream s).ctx.toNat (s.rd a).toNat 6 = .ok key →
    (holds s key = true → (stream s).drained = true → objRemote s key = false → (objAt s key).waits.lookup s.cur = none →
      lineUncorrectable s key = true → completes (.rel g a) s fun t =>
        t.mem = s.mem ∧ (objAt t key).holders = (objAt s key).holders.filter (fun h => h.1 != taskId s s.cur) ∧
        ∃ f : FaultRec, t.faults = s.faults ++ [f] ∧ f.cause = 0x22 ∧ f.ctx = (stream s).ctx) ∧
    (holds s key = true → (stream s).drained = true → objRemote s key = false → (objAt s key).waits.lookup s.cur = none →
      lineUncorrectable s key = false → completes (.rel g a) s fun t =>
        (objAt t key).holders = (objAt s key).holders.filter (fun h => h.1 != taskId s s.cur) ∧ (objAt t key).queue = (objAt s key).queue ∧
        rdN t.mem (key + 8) 8 = rdN s.mem (key + 8) 8 ∧ rdN t.mem (key + 16) 8 = (rdN s.mem (key + 16) 8 + 1) % 2 ^ 64 ∧
        (∀ k, k < key ∨ key + 24 ≤ k → memGet t.mem k = memGet s.mem k) ∧ (∀ r, (stream t).reg r = (stream s).reg r) ∧
        movedOn (stream s) (stream t)) ∧
    ((stream s).drained = true → objRemote s key = false → (objAt s key).waits.lookup s.cur = none → lineUncorrectable s key = false →
      completes (.relSet g a b) s fun t =>
        (objAt t key).holders = (objAt s key).holders ∧ (objAt t key).queue = (objAt s key).queue ∧
        rdN t.mem (key + 8) 8 = (s.rd b).toNat ∧ rdN t.mem (key + 16) 8 = (rdN s.mem (key + 16) 8 + 1) % 2 ^ 64 ∧
        (∀ k, k < key ∨ key + 24 ≤ k → memGet t.mem k = memGet s.mem k) ∧ (∀ r, (stream t).reg r = (stream s).reg r) ∧
        movedOn (stream s) (stream t)) ∧
    ((stream s).drained = false → holds s key = true → completes (.rel g a) s fun t =>
      t.mem = s.mem ∧ (stream t).pc = (stream s).pc ∧ (stream t).run = (stream s).run ∧ ∀ e ∈ (stream t).dc, ∀ l ∈ e.2, l.dirty = 0) ∧
    (holds s key = true → canTrap s → completes (.acqX g a) s (trapped s 16 0 (s.rd a)) ∧ completes (.acqS g a) s (trapped s 16 0 (s.rd a))) ∧
    (holds s key = false → canTrap s → completes (.rel g a) s (trapped s 16 1 (s.rd a)))

/-- TBAR, SSTEP, CBAR and CSTEP of a core whose drain has finished and whose barrier no other kind of barrier contradicts: the team counts the
core's arrival and the core waits. BARRIER_COMPLETE of a team outside any caravan, every member having arrived or ended: the waiting
members go on, no arrival is left, and SSNUM is one higher exactly at a superstep (R101). -/
def Parts.BarrierArrivalAndCompletion : Prop :=
  (∀ (s : State) (g : Guard) (r : TaskRef) (x : Team) (i : Instr) (b : Barrier),
    (i, b) ∈ [(.tbar g, .tbar), (.sstep g, .sstep), (.cbar g, .cbar), (.cstep g, .cstep)] → isCore s.cur = true → acts s 5 g [] [] →
    (s.co s.cur).task = some r → s.tm r.team = some x → arrivalReady s b = true → barrierMismatch s r.team b = false →
    completes i s fun t =>
      (stream t).run = .waiting (.barrier b) ∧ (stream t).pc = (stream s).pc ∧ t.mem = s.mem ∧
      ∃ y, t.tm r.team = some y ∧ tget y.arrived r.lcore none = some b ∧
        ∀ l, l ≠ r.lcore → tget y.arrived l none = tget x.arrived l none) ∧
  ∀ (s : State) (x : Team) (b : Barrier), s.tm s.cur = some x → x.caravan = none → roundKind x = some b → teamArrived b x = true →
    completes .barrierComplete s fun t =>
      (∃ y, t.tm s.cur = some y ∧ y.arrived = [] ∧
        y.ssnum = (if ∃ a ∈ x.arrived, a.2 = some .sstep ∨ a.2 = some .cstep then x.ssnum + 1 else x.ssnum)) ∧
      ∀ p ∈ x.cores, ∀ k, (s.sc p).run = .waiting (.barrier k) →
        (t.sc p).run = .running ∧ (t.sc p).pc = (s.sc p).retire.pc ∧ ∀ r, (t.sc p).reg r = (s.sc p).reg r

/-! ### Children, messages and conversations (R103 to R105, R299, R353 to R373) -/

/-- SPAWN of a well-formed work item, the stores of the task having been performed: with room in the pool the item is its last entry and the
status is 0; with no room and no spill queue, or a full one, the status is 2 and nothing else changes; with no room and an entry free in the spill
queue, whose memory is ordinary, the item is written to that entry, the queue's tail count is one higher, and the status is 1 (R104, R299, R300). -/
def Parts.SpawnResults : Prop :=
  ∀ (s : State) (g : Guard) (d : BitVec 6) (a : Src) (off : BitVec 22) (w : BitVec 512), acts s 6 g [a] [d] →
    ∀ ea, ea = s.rd a + off.signExtend 64 → descReadable s ea → w.toNat = rdN s.mem (lsKey s.cur ea.toNat) 64 →
    firstBad (itemChecks s (stream s).ctx.toNat w) = none → (stream s).drained = true →
    (poolRoom s (stream s).ctx.toNat = true →
      completes (.spawn g d a off) s fun t =>
        t.pool.map (·.item) = s.pool.map (·.item) ++ [w] ∧ (d ≠ 0#6 → (stream t).reg d = 0#64) ∧ regsKept (stream s) (stream t) [d] ∧
        predsKept (stream s) (stream t) [] ∧ movedOn (stream s) (stream t)) ∧
    (poolRoom s (stream s).ctx.toNat = false →
      (spillSize s (stream s).ctx.toNat = 0 ∨ spillSize s (stream s).ctx.toNat ≤ spillDepth s (stream s).ctx.toNat) →
      completes (.spawn g d a off) s (result s d 2)) ∧
    ∀ c at' key, c = (stream s).ctx.toNat → poolRoom s c = false → spillSize s c ≠ 0 → spillDepth s c < spillSize s c →
      at' = spillAt s c (spillWord s c 3) → at' % 64 = 0 → gateOpen s c = true → resolve s 0xFFFF c at' 2 = .ok key → hbmDie key ≠ none →
      isObjHome s key = false →
      completes (.spawn g d a off) s fun t =>
        rdN t.mem key 64 = w.toNat ∧ spillWord t c 3 = (spillWord s c 3 + 1) % 2 ^ 32 ∧ t.spills = s.spills ++ [c] ∧ t.pool = s.pool ∧
        (∀ k, (k < key ∨ key + 64 ≤ k) → (k < spillKey c 3 ∨ spillKey c 3 + 8 ≤ k) → memGet t.mem k = memGet s.mem k) ∧
        (d ≠ 0#6 → (stream t).reg d = 1#64) ∧ regsKept (stream s) (stream t) [d] ∧ predsKept (stream s) (stream t) [] ∧ movedOn (stream s) (stream t)

/-- MSEND of a well-formed descriptor, the stores of the task having been performed: a connection that the context may not use gives 2, one that
has failed 3; on an open one the device's room, which the spec leaves to it, decides between 1, with nothing sent, and 0, with the message on
its way to the connection; the device's own connection takes the message, which is then on its way to the context itself, with 0, and nothing else changes
(R104, R105, R431, Table 6.9). -/
def Parts.MsendResults : Prop :=
  ∀ (s : State) (g : Guard) (d : BitVec 6) (a : Src) (off : BitVec 22), acts s 6 g [a] [d] →
    ∀ ea, ea = s.rd a + off.signExtend 64 → descReadable s ea →
    firstBad (msgChecks (lsSize s.cur) [1, 2] (descWord s ea)) = none → (stream s).drained = true →
    ∀ conn mode c, conn = bitsOf (descWord s ea 0) 63 44 → mode = bitsOf (descWord s ea 0) 15 8 → c = (stream s).ctx.toNat →
    (conn = 0xF_FFFF → ∃ o : OwnMsg, o.ctx = c ∧ o.mode = mode ∧ o.op = descWord s ea 0 % 256 ∧ o.len = plen (descWord s ea) ∧
      o.data = payload s ea ∧ o.tag = BitVec.ofNat 64 (descWord s ea 1) ∧ o.ms = msgMs (descWord s ea) ∧
      (s.ecc = [] → completes (.msend g d a off) s (result { s with own := s.own ++ [o] } d 0)) ∧
      completes (.msend g d a off) s fun t =>
        t.own = s.own ++ [o] ∧ t.mem = s.mem ∧ (d ≠ 0#6 → (stream t).reg d = 0#64) ∧ regsKept (stream s) (stream t) [d] ∧
        predsKept (stream s) (stream t) [] ∧ movedOn (stream s) (stream t)) ∧
    (conn ≠ 0xF_FFFF → connStatus s c conn mode = 3 → completes (.msend g d a off) s (result s d 2)) ∧
    (conn ≠ 0xF_FFFF → connStatus s c conn mode = 1 → completes (.msend g d a off) s (result s d 3)) ∧
    (conn ≠ 0xF_FFFF → connStatus s c conn mode = 0 → connState s c conn ≠ 0 →
      completes (.msend g d a off) s fun t =>
        regsKept (stream s) (stream t) [d] ∧ predsKept (stream s) (stream t) [] ∧ movedOn (stream s) (stream t) ∧
        ((∃ u ∈ t.tx, u.ctx = c ∧ u.conn = conn ∧ u.pkt.mode = mode ∧ u.pkt.msg = (connRun s c conn).msgs ∧
            u.pkt.op = descWord s ea 0 % 256 ∧ u.pkt.tag = BitVec.ofNat 64 (descWord s ea 1) ∧ u.pkt.len = plen (descWord s ea)) ∧
          (d ≠ 0#6 → (stream t).reg d = 0#64) ∨
        t.tx = s.tx ∧ t.conns = s.conns ∧ (d ≠ 0#6 → (stream t).reg d = 1#64)))

/-- A message to the package itself arrives as any other does (R263, R431): PACKET_ARRIVAL without a packet, the one message on its way and no other
message half placed: a match entry of connection 0xF_FFFF that takes it, with room for it and a scratchpad of the context as its target, has its bytes
placed there, and its milestone's increment is on its way, and so is the sender's. The message is gone. -/
def Parts.OwnMessageArrives : Prop :=
  ∀ (s : State) (o : OwnMsg) i l q, s.own = [o] → s.rx = [] → s.conns = [] → s.ecc = [] → admits s o.ctx = true →
    connAborted s o.ctx 0xF_FFFF = false → o.mode ≤ 1 → o.op = 1 ∨ o.op = 2 → o.origin = .other →
    takeEntry s o.ctx { conn := 0xF_FFFF, op := o.op, tag := o.tag, key := 0 } = (some (i, l), s) →
    i ≠ 2 ^ 20 → bitsOf (lineWord l 7) 7 0 = 0 → o.len ≤ bitsOf (lineWord l 5) 12 0 → bitsOf (lineWord l 3) 63 56 = 1 →
    (s.cx o.ctx).residents[bitsOf (lineWord l 3) 55 48]? = some q → q < 2304 →
    completes (.packetArrival none) s fun t =>
      rdN t.mem (spKey q (bitsOf (lineWord l 3) 21 0)) o.len = o.data % 2 ^ (8 * o.len) ∧ t.own = [] ∧ t.rx = [] ∧
      (∀ k, k < spKey q (bitsOf (lineWord l 3) 21 0) ∨ spKey q (bitsOf (lineWord l 3) 21 0) + o.len ≤ k → memGet t.mem k = memGet s.mem k) ∧
      (bitsOf (lineWord l 6) 20 20 = 1 → ∃ e ∈ t.incs, e.ctx = o.ctx ∧ e.ms = bitsOf (lineWord l 6) 19 0 ∧ e.amt = 1) ∧
      (∀ m, o.ms = some m → ∃ e ∈ t.incs, e.ctx = o.ctx ∧ e.ms = m ∧ e.amt = 1) ∧ ∀ a, t.sc a = s.sc a

/-- CSEND, CSEND.A and CDELEG to a home on this package, with a descriptor that passes its checks, a conversation object allotted to the context,
no request of the task pending there and the task's stores performed: the request is last in the order of arrival; CSEND and CDELEG wait for
the verdict, CSEND.A marks its destination empty and moves on (R28, R104, R105, R358). -/
def Parts.ConversationRequests : Prop :=
  ∀ (s : State) (g : Guard) (d : BitVec 6) (a b : Src) (off : BitVec 22), acts s 6 g [a, b] [d] →
    ∀ ea, ea = s.rd a + off.signExtend 64 → descReadable s ea → (stream s).drained = true →
    ∀ n, n = descConv (descWord s ea) → allotted s (stream s).ctx.toNat .conversation n = true → sendPending s n = false →
    convProxy s n = false →
    (firstBad (msgChecks (lsSize s.cur) [3] (descWord s ea)) = none →
      (completes (.csend g a off) s fun t =>
        requested s 3 n (plen (descWord s ea)) (payload s ea) false t ∧ (stream t).run = .waiting .verdict ∧ (stream t).pc = (stream s).pc ∧
        t.mem = s.mem ∧ regsKept (stream s) (stream t) []) ∧
      completes (.csendA g d a off) s fun t =>
        requested s 3 n (plen (descWord s ea)) (payload s ea) true t ∧ (d ≠ 0#6 → (stream t).isEmpty d = true) ∧
        movedOn (stream s) (stream t) ∧ t.mem = s.mem ∧ regsKept (stream s) (stream t) [] ∧
        ∃ f : Fill, (stream t).fills = (stream s).fills ++ [f] ∧ f.verdict = true ∧ f.reg = d) ∧
    ((s.rd b).toNat < 4 → firstBad (delegChecks s (descWord s ea)) = none → convLife s n ≠ 3 →
      tget (stream s).roles (s.rd b).toNat 0 = roleReg (descRole (descWord s ea)) n →
      completes (.cdeleg g a b off) s fun t =>
        requested s 5 n (plen (descWord s ea)) (payload s ea) false t ∧ (stream t).run = .waiting .verdict ∧
        (stream t).pc = (stream s).pc ∧ t.mem = s.mem ∧ regsKept (stream s) (stream t) [])

/-- CROLE at a home on this package: 0 and the role is bound, its register naming role and conversation, where the task's endpoint holds the role and no
other task has bound it; 15 where it does not; 10 where the conversation is aborted; the instruction retires with the status (R356). -/
def Parts.RoleClaims : Prop :=
  ∀ (s : State) (g : Guard) (d : BitVec 6) (a b : Src) (off : BitVec 22), acts s 6 g [a, b] [d] →
    ∀ ea, ea = s.rd a + off.signExtend 64 → descReadable s ea → (stream s).drained = true →
    firstBad (claimChecks (lsSize s.cur) (descWord s ea)) = none → (s.rd b).toNat < 4 →
    (tget (stream s).roles (s.rd b).toNat 0).getLsbD 63 = false →
    ∀ n role, n = descConv (descWord s ea) → role = descRole (descWord s ea) → allotted s (stream s).ctx.toNat .conversation n = true →
    convCtx s n = (stream s).ctx.toNat → convProxy s n = false →
    (convLife s n = 3 → completes (.crole g d a b off) s (result s d 10)) ∧
    (convLife s n = 0 → completes (.crole g d a b off) s (result s d 15)) ∧
    (convLife s n = 1 ∨ convLife s n = 2 → mayClaim s n role = false → completes (.crole g d a b off) s (result s d 15)) ∧
    (convLife s n = 1 ∨ convLife s n = 2 → mayClaim s n role = true → s.places = [] →
      completes (.crole g d a b off) s fun t =>
        (∃ e, bindOf t n role = some e ∧ e.task = taskId s s.cur ∧ e.reg = (s.rd b).toNat ∧ e.base = pbase (descWord s ea) ∧
          e.len = plen (descWord s ea)) ∧
        tget (stream t).roles (s.rd b).toNat 0 = roleReg role n ∧ (d ≠ 0#6 → (stream t).reg d = 0#64) ∧
        regsKept (stream s) (stream t) [d] ∧ movedOn (stream s) (stream t))

/-- CSEND_VERDICT at the home: a message of the role whose turn it is, of a kind that the state has a transition for, is accepted: the
conversation takes the transition's next state, the message is held for its receiver, and the waiting CSEND retires; of a CSEND.A the register that
waits for the verdict becomes full with 0. A kind without a transition is refused: the CSEND traps OUT_OF_TURN, cause 9 with DETAIL the kind, TVAL the
conversation, of a CSEND.A the register becomes full with (DETAIL << 8) | CODE, and the conversation does not move (R28, R105, R355, R369). -/
def Parts.CsendVerdicts : Prop :=
  ∀ (s : State) (n k a : Nat) (i : ConvIn), s.cur = n → nothingBroken s → firstItem s n 0 s.convIn = some (k, i) → i.agent = some a → i.pkt.op = 3 →
    unusable s (s.sc a).ctx.toNat n (reqRole i.pkt) = none → reqBound i.pkt = true →
    (∀ tr, (stateRow (convRun s n) (convCur s n)).find? (fun t => trSnd t == reqRole i.pkt && trKind t == reqKind i.pkt) = some tr →
      roleRm (roleWord s n (trRcv tr)) = false →
      completes .csendVerdict s fun t =>
        convCur t n = trNext tr ∧ convSeq t n = (convSeq s n + 1) % 2 ^ 32 ∧ t.convIn = s.convIn.eraseIdx k ∧
        (∃ m : Placement, t.places = s.places ++ [m] ∧ m.conv = n ∧ m.role = trRcv tr ∧ m.len = i.pkt.len ∧ m.data = bytesNum i.pkt.data) ∧
        (i.later = false → (s.sc a).run = .waiting .verdict → (s.sc a).watch = none → t.sc a = (s.sc a).retire) ∧
        (∀ j, i.later = true → waitsVerdict (s.sc a) i.reg j → verdictFilled (s.sc a) (t.sc a) i.reg j 0)) ∧
    ((stateRow (convRun s n) (convCur s n)).find? (fun t => trSnd t == reqRole i.pkt && trKind t == reqKind i.pkt) = none →
      (s.sc a).th = false → (s.sc a).tvec ≠ 0#64 →
      completes .csendVerdict s fun t =>
        t.mem = s.mem ∧ t.places = s.places ∧ t.convIn = s.convIn.eraseIdx k ∧
        (i.later = false → (s.sc a).run = .waiting .verdict → t.sc a = (s.sc a).trapEntry 9 (reqKind i.pkt) (BitVec.ofNat 64 n)) ∧
        (∀ j, i.later = true → waitsVerdict (s.sc a) i.reg j →
          verdictFilled (s.sc a) (t.sc a) i.reg j (BitVec.ofNat 64 (reqKind i.pkt * 256 + 9))))

/-- CSEND_VERDICT of a CDELEG at the home: of a role that its task holds and has bound, every message accepted for it placed, the delegation is accepted:
the role's entry names the new queue, its binding ends, the role register of the task reads 0, a payload is held for the new holder, and the task
retires; of a role that the task does not speak for it traps NO_ROLE, cause 15 with DETAIL the role (R105, R358, R370). -/
def Parts.CdelegVerdicts : Prop :=
  ∀ (s : State) (n k a : Nat) (i : ConvIn), s.cur = n → nothingBroken s → firstItem s n 0 s.convIn = some (k, i) → i.agent = some a → i.pkt.op = 5 →
    i.later = false → (s.sc a).run = .waiting .verdict → unusable s (s.sc a).ctx.toNat n (reqRole i.pkt) = none → reqRole i.pkt < 16 →
    reqQueue i.pkt < 1024 → roleQuiet s n (reqRole i.pkt) = true →
    (reqBound i.pkt = true → completes .csendVerdict s fun t =>
      bitsOf (roleWord t n (reqRole i.pkt)) 25 16 = reqQueue i.pkt ∧ bindOf t n (reqRole i.pkt) = none ∧ t.convIn = s.convIn.eraseIdx k ∧
      tget (t.sc a).roles i.slot 0 = 0 ∧ (t.sc a).run = .running ∧ (t.sc a).pc = (s.sc a).retire.pc ∧ (∀ r, (t.sc a).reg r = (s.sc a).reg r) ∧
      (i.pkt.len = 0 → t.places = s.places) ∧
      (i.pkt.len ≠ 0 → ∃ m : Placement, t.places = s.places ++ [m] ∧ m.conv = n ∧ m.role = reqRole i.pkt ∧ m.len = i.pkt.len ∧
        m.data = bytesNum i.pkt.data)) ∧
    (reqBound i.pkt = false → (s.sc a).th = false → (s.sc a).tvec ≠ 0#64 → completes .csendVerdict s fun t =>
      t.mem = s.mem ∧ t.places = s.places ∧ t.convIn = s.convIn.eraseIdx k ∧
      t.sc a = (s.sc a).trapEntry 15 (reqRole i.pkt) (BitVec.ofNat 64 n))

/-- CONV_PLACEMENT: the oldest message, for a role bound at a task that is on its core, lands in that task's inbox: its delivery word first, and
DONE of the inbox semaphore is one higher; what an abort has left for the role sets the semaphore's ERR in its place (R357, R372). PARTY_LOST of a
conversation homed here that is open, or closed, which is the model's reading (log entry 69), one of whose remote roles has lost its
connection, aborts it naming the lowest such role: LIFE is 3 and LOST the role, and a message for a role that no task has bound is dropped, stated where
no collective hangs on the context; where none has, nothing changes (R371, R372). -/
def Parts.PlacementAndLoss : Prop :=
  (∀ (s : State) (m : Placement) (ms : List Placement) (b : Bind) (a : Nat), s.places = m :: ms → m.conv = s.cur →
    bindOf s s.cur m.role = some b → taskAgent s b.task = some a →
    (m.err = true → completes .convPlacement s fun t =>
      t.places = ms ∧ t.mem = s.mem ∧ (t.co a).sem b.sem = { (s.co a).sem b.sem with err := true }) ∧
    (m.err = false → completes .convPlacement s fun t =>
      t.places = ms ∧ rdN t.mem (lsKey a b.base) 8 = m.word.toNat ∧
      (∀ k, k < lsKey a b.base ∨ lsKey a b.base + 64 + m.len ≤ k → memGet t.mem k = memGet s.mem k) ∧
      (t.co a).sem b.sem = { (s.co a).sem b.sem with done := ((s.co a).sem b.sem).done + 1 })) ∧
  ∀ (s : State), nothingBroken s → firstItem s s.cur 0 s.convIn = none →
    (convLife s s.cur = 1 ∨ convLife s s.cur = 2 → convProxy s s.cur = false →
      (∀ r, failedRole s s.cur = some r → completes .partyLost s fun t =>
        t = abortConv s s.cur r (survives s s.cur) ∧
        ((∀ m ∈ s.places, m.conv = s.cur → bindOf s s.cur m.role = none) → collIn s (convCtx s s.cur) 1 = [] → s.flags = [] →
          convLife t s.cur = 3 ∧ convLost t s.cur = r ∧ ∀ m ∈ t.places, m.conv = s.cur → m.err = true)) ∧
      (failedRole s s.cur = none → completes .partyLost s fun t => t = s)) ∧
    (convLife s s.cur = 0 ∨ convLife s s.cur = 3 → (∀ e ∈ s.scal, e.2.verdicts = []) → completes .partyLost s fun t => t = s)

/-! ### Control registers (R83, R84, R109, R134, R174) -/

/-- MFCR gives the register's value (Table 6.1): the status, the trap registers, the loop registers, the context, the time in ns, the phase
number, the task's windows, and of a core its mask, ring registers and status registers; every other assigned number likewise reads as the
model's one definition of a control register says. -/
def Parts.MfcrReads : Prop :=
  ∀ (s : State) (g : Guard) (d : BitVec 6), acts s 0 g [] [d] →
    (∀ (c : BitVec 12) (v : Word), (c, v) ∈
      [(0x000#12, (stream s).status), (0x001#12, (stream s).tvec), (0x002#12, (stream s).tpc), (0x003#12, (stream s).tcause),
        (0x004#12, (stream s).tval), (0x005#12, (stream s).tstatus), (0x010#12, (stream s).lstart0), (0x011#12, (stream s).lend0),
        (0x012#12, (stream s).lcount0), (0x013#12, (stream s).lstart1), (0x014#12, (stream s).lend1), (0x015#12, (stream s).lcount1),
        (0x021#12, (stream s).ctx.setWidth 64), (0x023#12, BitVec.ofNat 64 s.ns), (0x026#12, (stream s).phnum),
        (0x050#12, tget (stream s).win 0 0), (0x05F#12, tget (stream s).win 15 0), (0x100#12, (stream s).shctx.setWidth 64)] →
      completes (.mfcr g d c) s (result s d v)) ∧
    (isCore s.cur = true → ∀ (c : BitVec 12) (v : Word), (c, v) ∈
      [(0x022#12, (s.co s.cur).capmask), (0x040#12, ((s.co s.cur).vq.base).setWidth 64), (0x041#12, ((s.co s.cur).vq.count).setWidth 64),
        (0x043#12, ((s.co s.cur).vq.tail).setWidth 64), (0x044#12, ((s.co s.cur).mq.base).setWidth 64),
        (0x048#12, ((s.co s.cur).cq.base).setWidth 64), (0x060#12, (s.co s.cur).vstatus), (0x063#12, (s.co s.cur).cqstat),
        (0x064#12, (s.co s.cur).redstat)] → completes (.mfcr g d c) s (result s d v)) ∧
    ∀ c : BitVec 12, completes (.mfcr g d c) s (result s d (readCreg s s.cur c.toNat))

/-- MTCR writes the register and moves on: a register that Table 6.1 aligns keeps its bits [2:0] zero, STATUS takes TH, LORD, LA1 and LA0 and keeps
PH, and nothing else changes; the end-of-body test of an MTCR to STATUS or to a loop register uses the values before it (R72, R84). SHCTX is written in
context 0 (R41, R112). TCAUSE takes bits [15:0] and TSTATUS TH, PH, LORD, LA1 and LA0, the reserved bits reading 0 (Tables 6.2, 6.3). On a core a 1 written to
a write-1-to-clear bit clears it and a 0 leaves it: bits [6:0] of VSTATUS, whose bit 16 takes the value written, bit 2 of MSTATUS, bit 63 of CQSTAT, bits
[1:0] of REDSTAT and bit 63 of a queue's HEAD register. A write to a register that is read only has no effect (R84). -/
def Parts.MtcrWrites : Prop :=
  ∀ (s : State) (g : Guard) (a : Src), acts s 0 g [a] [] →
    (∀ (c : BitVec 12) (x : Scalar), (c, x) ∈
      [(0x001#12, { stream s with tvec := s.rd a &&& ~~~7#64 }), (0x002#12, { stream s with tpc := s.rd a &&& ~~~7#64 }),
        (0x003#12, { stream s with tcause := s.rd a &&& 0xFFFF#64 }), (0x004#12, { stream s with tval := s.rd a }),
        (0x005#12, { stream s with tstatus := s.rd a &&& 0xC7#64 }), (0x008#12, { stream s with tscr := tput (stream s).tscr 0 (s.rd a) 0 }),
        (0x009#12, { stream s with tscr := tput (stream s).tscr 1 (s.rd a) 0 }), (0x00A#12, { stream s with tscr := tput (stream s).tscr 2 (s.rd a) 0 }), (0x00B#12, { stream s with tscr := tput (stream s).tscr 3 (s.rd a) 0 }),
        (0x050#12, { stream s with win := tput (stream s).win 0 (s.rd a) 0 }), (0x05F#12, { stream s with win := tput (stream s).win 15 (s.rd a) 0 })] →
      completes (.mtcr g a c) s (passes (s.putSc s.cur x))) ∧
    (∃ v : Word, (∀ i, i < 64 → v.getLsbD i = (if i = 7 ∨ i < 3 then (s.rd a).getLsbD i else if i = 6 then (stream s).ph else false)) ∧
      completes (.mtcr g a 0x000#12) s fun t => onlyStream s t ∧ stream t = { (stream s).retire with status := v }) ∧
    (∀ (c : BitVec 12) (x : Scalar), (c, x) ∈
      [(0x010#12, { (stream s).retire with lstart0 := s.rd a &&& ~~~7#64 }), (0x011#12, { (stream s).retire with lend0 := s.rd a &&& ~~~7#64 }),
        (0x012#12, { (stream s).retire with lcount0 := s.rd a }), (0x013#12, { (stream s).retire with lstart1 := s.rd a &&& ~~~7#64 }),
        (0x014#12, { (stream s).retire with lend1 := s.rd a &&& ~~~7#64 }), (0x015#12, { (stream s).retire with lcount1 := s.rd a })] →
      completes (.mtcr g a c) s fun t => onlyStream s t ∧ stream t = x) ∧
    ((stream s).ctx = 0#6 → completes (.mtcr g a 0x100#12) s (passes (s.putSc s.cur { stream s with shctx := (s.rd a).setWidth 6 }))) ∧
    (isCore s.cur = true →
      (∃ v : Word, (∀ i, i < 64 → v.getLsbD i = (if i < 7 then (s.co s.cur).vstatus.getLsbD i && !(s.rd a).getLsbD i else if i = 16 then (s.rd a).getLsbD 16 else false)) ∧
        completes (.mtcr g a 0x060#12) s (passes (s.upCo s.cur fun x => { x with vstatus := v }))) ∧
      completes (.mtcr g a 0x061#12) s (passes (s.upCo s.cur fun x => { x with nseen := x.nseen && !(s.rd a).getLsbD 2 })) ∧
      (∃ v : Word, (∀ i, i < 64 → v.getLsbD i = ((s.co s.cur).cqstat.getLsbD i && !(decide (i = 63) && (s.rd a).getLsbD 63))) ∧
        completes (.mtcr g a 0x063#12) s (passes (s.upCo s.cur fun x => { x with cqstat := v }))) ∧
      (∃ v : Word, (∀ i, i < 64 → v.getLsbD i = ((s.co s.cur).redstat.getLsbD i && !(decide (i < 2) && (s.rd a).getLsbD i))) ∧
        completes (.mtcr g a 0x064#12) s (passes (s.upCo s.cur fun x => { x with redstat := v }))) ∧
      ∀ (c : BitVec 12) (q : BitVec 2), (c, q) ∈ [(0x042#12, 0#2), (0x046#12, 1#2), (0x04A#12, 2#2)] →
        completes (.mtcr g a c) s (passes (s.upCo s.cur fun x => x.setQueue q { x.queue q with evt := (x.queue q).evt && !(s.rd a).getLsbD 63 }))) ∧
    ∀ c : BitVec 12, c.toNat ∈ [0x020, 0x021, 0x022, 0x023, 0x024, 0x025, 0x026, 0x030, 0x031, 0x032, 0x033, 0x043, 0x047, 0x04B] →
      completes (.mtcr g a c) s fun t => onlyStream s { t with core := s.core } ∧ (∀ k, t.co k = s.co k) ∧ stream t = (stream s).retire

/-- RING_REGISTER_WRITE: with the queue empty, a base that is a multiple of 64 at or above 0x100, or a count of 0 or a power of two from 16 to 4,096,
whose ring fits the scratchpad, is written, and HEAD and TAIL become 0; any other write, or one with the queue not empty or its engine executing a record,
traps ILLEGAL_OP, cause 1 with DETAIL 1 and TVAL the instruction word (R84, R134). MLEASE_WRITE in context 0 sets LEASE_RUN to a value from 1 to 64, and a
grant that stands keeps its own; another value traps in the same way (R174). -/
def Parts.RingAndLeaseWrites : Prop :=
  ∀ (s : State) (g : Guard) (a : Src) (q : BitVec 2), isCore s.cur = true → q ≠ 3#2 → acts s 0 g [a] [] →
    ((ringOf s q).head = (ringOf s q).tail → (ringOf s q).flight = [] →
      ((s.rd a).toNat % 64 = 0 → 0x100 ≤ (s.rd a).toNat → (s.rd a).toNat + 64 * (ringOf s q).count.toNat ≤ 0x40_0000 → (s.rd a).toNat < 2 ^ 22 →
        completes (.ringRegisterWrite g a q false) s fun t =>
          streamMoves s t ∧ t.mem = s.mem ∧ (ringOf t q).base.toNat = (s.rd a).toNat ∧ (ringOf t q).count = (ringOf s q).count ∧
          (ringOf t q).head = 0 ∧ (ringOf t q).tail = 0 ∧ ∀ r, r ≠ 3#2 → r ≠ q → ringOf t r = ringOf s r) ∧
      ((s.rd a).toNat ∈ [0, 16, 32, 64, 128, 256, 512, 1024, 2048, 4096] → (ringOf s q).base.toNat + 64 * (s.rd a).toNat ≤ 0x40_0000 →
        completes (.ringRegisterWrite g a q true) s fun t =>
          streamMoves s t ∧ t.mem = s.mem ∧ (ringOf t q).count.toNat = (s.rd a).toNat ∧ (ringOf t q).base = (ringOf s q).base ∧
          (ringOf t q).head = 0 ∧ (ringOf t q).tail = 0 ∧ ∀ r, r ≠ 3#2 → r ≠ q → ringOf t r = ringOf s r)) ∧
    (canTrap s → ∀ w, encodeScalar (.ringRegisterWrite g a q false) = some w →
      ((ringOf s q).head ≠ (ringOf s q).tail ∨ (ringOf s q).flight ≠ [] ∨ (s.rd a).toNat % 64 ≠ 0 ∨ (s.rd a).toNat < 0x100 ∨ 2 ^ 22 ≤ (s.rd a).toNat ∨
        0x40_0000 < (s.rd a).toNat + 64 * (ringOf s q).count.toNat) →
      completes (.ringRegisterWrite g a q false) s (trapped s 1 1 w)) ∧
    (canTrap s → ∀ w, encodeScalar (.ringRegisterWrite g a q true) = some w →
      ((ringOf s q).head ≠ (ringOf s q).tail ∨ (ringOf s q).flight ≠ [] ∨
        (s.rd a).toNat ∉ [0, 16, 32, 64, 128, 256, 512, 1024, 2048, 4096] ∨ 0x40_0000 < (ringOf s q).base.toNat + 64 * (s.rd a).toNat) →
      completes (.ringRegisterWrite g a q true) s (trapped s 1 1 w)) ∧
    ((stream s).ctx = 0#6 → canTrap s → ∀ w, encodeScalar (.mleaseWrite g a) = some w → (s.rd a).toNat = 0 ∨ 64 < (s.rd a).toNat →
      completes (.mleaseWrite g a) s (trapped s 1 1 w)) ∧
    ((stream s).ctx = 0#6 → 1 ≤ (s.rd a).toNat → (s.rd a).toNat ≤ 64 →
      completes (.mleaseWrite g a) s fun t => streamMoves s t ∧ t.mem = s.mem ∧ (t.qd (quadOf s.cur)).lease = s.rd a ∧
        (t.qd (quadOf s.cur)).grant = (s.qd (quadOf s.cur)).grant ∧ (t.qd (quadOf s.cur)).lim = (s.qd (quadOf s.cur)).lim)

/-- CORECAP_WRITE, LCMENT_WRITE, LEADCAS_WRITE and HBEAT_WRITE of a die's firmware core in context 0: a mask keeps only assigned classes, bits set
only while the core is HELD or SPARE (R382); a logical map entry names a SPARE core, whose zeroing starts (R383); the lease goes to its
claimant for 10 ms where it has lapsed or its holder is the one expected, and else nothing changes; the heartbeat is the time (R422). A mask with a
bit of [63:48] set or that takes bit 0 from a mapped core, a map entry with a reserved bit set, over a core that is not HELD or that names one that is no
SPARE core able to serve, and a lease with a reserved bit set or a claimant above 8 trap ILLEGAL_OP, cause 1 with DETAIL 1 and TVAL the instruction
word. A mapped core whose mask has lost bit 0 may stay without it, and a core that is being zeroed counts as neither HELD nor SPARE, which are the
model's readings (log entries 118 and 49). -/
def Parts.FirmwareWrites : Prop :=
  ∀ (s : State) (g : Guard) (a : Src) (d : Nat), s.cur = 8192 + d → d < 8 → (stream s).ctx = 0#6 → acts s 0 g [a] [] →
    (canTrap s → ∀ w, encodeScalar (.corecapWrite g a) = some w →
      (2 ^ 48 ≤ (s.rd a).toNat ∨
        (mapped s (selCore s d) = true ∧ (s.co (selCore s d)).capmask.getLsbD 0 = true ∧ (s.rd a).getLsbD 0 = false)) →
      completes (.corecapWrite g a) s (trapped s 1 1 w)) ∧
    (canTrap s → ∀ w, encodeScalar (.lcmentWrite g a) = some w →
      ((∃ b, 9 ≤ b ∧ b < 63 ∧ (s.rd a).getLsbD b = true) ∨
        (∃ q, lcmCore s d (s.di d).lcmidx.toNat = some q ∧ ((s.co q).svc ≠ .held ∨ (s.co q).zeroing = true)) ∨
        ((s.rd a).getLsbD 63 = true ∧ ∀ p, p = diePhys d ((s.rd a).toNat % 512) →
          288 ≤ (s.rd a).toNat % 512 ∨ (s.co p).svc ≠ .spare ∨ (s.co p).zeroing = true ∨ (s.co p).capmask.getLsbD 0 = false)) →
      completes (.lcmentWrite g a) s (trapped s 1 1 w)) ∧
    (canTrap s → ∀ w, encodeScalar (.leadcasWrite g a) = some w →
      ((∃ b, (b < 48 ∨ 52 ≤ b ∧ b < 56 ∨ 60 ≤ b) ∧ (s.rd a).getLsbD b = true) ∨ 8 < bitsOf (s.rd a).toNat 59 56) →
      completes (.leadcasWrite g a) s (trapped s 1 1 w)) ∧
    ((s.rd a).toNat < 2 ^ 48 → (mapped s (selCore s d) = true → (s.rd a).getLsbD 0 = true) →
      completes (.corecapWrite g a) s fun t => streamMoves s t ∧ t.mem = s.mem ∧
        (t.co (selCore s d)).capmask =
          (if (s.co (selCore s d)).svc = .held ∨ (s.co (selCore s d)).svc = .spare then s.rd a &&& 0x0000_007F_0F0F_FF7F#64
            else (s.co (selCore s d)).capmask &&& (s.rd a &&& 0x0000_007F_0F0F_FF7F#64))) ∧
    (∀ i, i < 288 → s.rd a = BitVec.ofNat 64 (2 ^ 63 + i) → lcmCore s d (s.di d).lcmidx.toNat = none →
      (s.co (diePhys d i)).svc = .spare → (s.co (diePhys d i)).zeroing = false → (s.co (diePhys d i)).capmask.getLsbD 0 = true →
      completes (.lcmentWrite g a) s fun t => streamMoves s t ∧ t.mem = s.mem ∧ lcmCore t d (s.di d).lcmidx.toNat = some (diePhys d i) ∧
        (t.co (diePhys d i)).zeroing = true) ∧
    (∀ e n, e < 16 → n ≤ 8 → s.rd a = BitVec.ofNat 64 (n * 2 ^ 56 + e * 2 ^ 48) →
      (leadFree s e = true → completes (.leadcasWrite g a) s fun t => streamMoves s t ∧ t.mem = s.mem ∧ t.leadHeld = true ∧
        t.leadHolder.toNat = n ∧ t.leadExp = BitVec.ofNat 64 (s.ns + 10_000_000)) ∧
      (leadFree s e = false → completes (.leadcasWrite g a) s (passes s))) ∧
    completes (.hbeatWrite g a) s fun t => streamMoves s t ∧ t.mem = s.mem ∧ (t.di d).hbtime = s.ns

/-! ### DONE, PROBE, PHINT, PHASE and SHOOT (R106 to R108, R111, R112) -/

/-- DONE begins its drain and waits. PROBE of length 0, or of a range whose units are all mapped, has no effect; an address that is not of the form
of R78 traps BAD_ADDRESS with DETAIL 2 and a range that leaves its die DETAIL 3. PHINT without a yield request pending restarts the watchdog and
goes on; with one it stops for its save (R106, R107, R111). -/
def Parts.DoneProbeAndPhint : Prop :=
  ∀ (s : State) (g : Guard) (a b : Src) (imm : BitVec 28),
    (acts s 0 g [] [] → completes (.doneOp g) s (waits s .drain)) ∧
    (acts s 0 g [a, b] [] →
      (s.rd b = 0#64 → completes (.probe g a b) s (passes s)) ∧
      (s.rd b ≠ 0#64 → badForm (s.rd a).toNat = false →
        ((s.rd a).toNat + (s.rd b).toNat - 1) % 2 ^ 64 / 2 ^ 56 = (s.rd a).toNat / 2 ^ 56 →
        (∀ u, (s.rd a).toNat / 65536 ≤ u → u ≤ ((s.rd a).toNat + (s.rd b).toNat - 1) / 65536 →
          unitMapped s (stream s).ctx.toNat (u * 65536) = true) →
        completes (.probe g a b) s (passes (s.putSc s.cur { stream s with probes := 0, answer := none }))) ∧
      (canTrap s → s.rd b ≠ 0#64 → badForm (s.rd a).toNat = true → completes (.probe g a b) s (trapped s 4 2 (s.rd a))) ∧
      (canTrap s → s.rd b ≠ 0#64 → badForm (s.rd a).toNat = false →
        ((s.rd a).toNat + (s.rd b).toNat - 1) % 2 ^ 64 / 2 ^ 56 ≠ (s.rd a).toNat / 2 ^ 56 →
        completes (.probe g a b) s (trapped s 4 3 (s.rd a)))) ∧
    (isCore s.cur = true → acts s 0 g [a] [] → (s.rd a + imm.signExtend 64).toNat % 64 = 0 → (s.rd a + imm.signExtend 64).toNat ≤ 0x3F_FF80 →
      (yieldPending s = false → completes (.phint g a imm) s (passes (s.putSc s.cur { stream s with wd := s.time }))) ∧
      (yieldPending s = true → completes (.phint g a imm) s fun t =>
        onlyStream s t ∧ (stream t).run = .waiting (.yield (s.rd a + imm.signExtend 64)) ∧ (stream t).pc = (stream s).retire.pc ∧
        regsKept (stream s) (stream t) []))

/-- TASK_END, once nothing of a task is outstanding, ends it: on a core its scalar stream is done and its team counts it. PAGE_REQUEST_ANSWER of a page
request that was granted: PROBE asks again from its unit on, and retires if every unit of its range is mapped; else it raises the request for the
first that is not, for one unit at most 16 times, and waits. Of one that was refused it traps PROBE_FAULT, cause 11, with TVAL the first byte of the
unit (R111, R245, R350). -/
def Parts.TaskEndAndPageAnswer : Prop :=
  (∀ (s : State) (r : TaskRef) (x : Team), isCore s.cur = true → (stream s).run = .waiting .drain → fillsDone s = true → (stream s).drained = true →
    releaseWaits s (taskId s s.cur) (stream s).ctx.toNat = false →
    (s.co s.cur).task = some r → s.tm r.team = some x → heldBy s (taskId s s.cur) = [] → s.convs = [] → r.lcore < 256 →
    (∃ l, l < x.size ∧ l ≠ r.lcore ∧ x.done.getLsbD l = false) →
    completes .taskEnd s fun t =>
      (stream t).run = .done ∧ (∀ k, (stream t).reg k = (stream s).reg k) ∧ t.mem = s.mem ∧
      ∃ y, t.tm r.team = some y ∧ ∀ l, l < 256 → y.done.getLsbD l = (if l = r.lcore then true else x.done.getLsbD l)) ∧
  ∀ (s : State) (u last : Nat), (stream s).run = .waiting (.page u last) →
    ((stream s).answer = some true →
      ((∀ v, u ≤ v → v ≤ last → unitMapped s (stream s).ctx.toNat (v * 65536) = true) →
        completes .pageRequestAnswer s (passes (s.putSc s.cur { stream s with probes := 0, answer := none }))) ∧
      ∀ k, u ≤ k → k ≤ last → (∀ v, u ≤ v → v < k → unitMapped s (stream s).ctx.toNat (v * 65536) = true) →
        unitMapped s (stream s).ctx.toNat (k * 65536) = false → (k = u → (stream s).probes < 16) → handlerEntry s 0 4 ≠ 0#64 →
        eventRoom s 0 4 = true →
        completes .pageRequestAnswer s fun t =>
          (stream t).run = .waiting (.page k last) ∧ (stream t).pc = (stream s).pc ∧ regsKept (stream s) (stream t) [] ∧ t.mem = s.mem ∧
          (stream t).probes = (if k = u then (stream s).probes else 0) + 1 ∧
          ∃ e : Ev, (t.cx 0).events = (s.cx 0).events ++ [e] ∧ e.kind = 4 ∧ e.arg = BitVec.ofNat 64 (k * 65536) ∧
            e.fctx = (stream s).ctx.toNat ∧ e.asker = some s.cur) ∧
    ((stream s).answer = some false → canTrap s →
      completes .pageRequestAnswer s
        (trapped (s.putSc s.cur { stream s with probes := 0, answer := none }) 11 0 (BitVec.ofNat 64 (u * 65536))))

/-- PHASE of a task that has declared buffer phases toggles STATUS.PH, increments PHNUM and takes a checkpoint at the next instruction; without a
declaration it traps ILLEGAL_OP with DETAIL 4 (R108, R398). SHOOT in context 0 removes every translation of the context in SHCTX that overlaps the range,
or all of them for length 0, from the first-level TLB of every core of the issuing die and from that die's memory-side TLB, page and range entries alike, and
from no other; an address whose range leaves that die traps BAD_ADDRESS, cause 4 with DETAIL 3, and TVAL the address (R112, R349). That a length of 0
looks at no address is the model's choice (log entry 106). -/
def Parts.PhaseAndShoot : Prop :=
  ∀ (s : State) (g : Guard) (a b : Src),
    (isCore s.cur = true → acts s 0 g [] [] →
      (hasPhases s s.cur = true → completes (.phase g) s fun t =>
        (stream t).ph = !(stream s).ph ∧ (stream t).phnum = (stream s).phnum + 1 ∧ (stream t).pc = (stream s).retire.pc ∧
        regsKept (stream s) (stream t) [] ∧ predsKept (stream s) (stream t) [] ∧ t.mem = s.mem ∧
        ∃ k, (t.co s.cur).ckpt = some k ∧ k.pc = (stream t).pc ∧ k.regs = (stream t).regs ∧ k.sems = (s.co s.cur).sems) ∧
      (hasPhases s s.cur = false → canTrap s → ∀ w, encodeScalar (.phase g) = some w → completes (.phase g) s (trapped s 1 4 w))) ∧
    ((stream s).ctx = 0#6 → acts s 0 g [a, b] [] →
      (s.rd b = 0#64 ∨ (s.rd a).toNat / 2 ^ 56 = agentDie s.cur ∧ ((s.rd a).toNat + (s.rd b).toNat - 1) % 2 ^ 64 / 2 ^ 56 = agentDie s.cur) →
      completes (.shoot g a b) s fun t =>
        streamMoves s t ∧ t.mem = s.mem ∧
        (∀ e, e ∈ (t.di (agentDie s.cur)).tlb ↔ e ∈ (s.di (agentDie s.cur)).tlb ∧ ¬shotAt s a b e.ctx e.unit e.unit) ∧
        (∀ e, e ∈ (t.di (agentDie s.cur)).ranges ↔ e ∈ (s.di (agentDie s.cur)).ranges ∧ ¬shotAt s a b e.ctx e.lo e.hi) ∧
        (∀ p, p / 288 = agentDie s.cur → ∀ e, e ∈ (t.co p).tlb ↔ e ∈ (s.co p).tlb ∧ ¬shotAt s a b e.ctx e.unit e.unit) ∧
        (∀ p, p / 288 ≠ agentDie s.cur → t.co p = s.co p) ∧ ∀ d, d ≠ agentDie s.cur → t.di d = s.di d) ∧
    ((stream s).ctx = 0#6 → acts s 0 g [a, b] [] → canTrap s → s.rd b ≠ 0#64 →
      (s.rd a).toNat / 2 ^ 56 ≠ agentDie s.cur ∨ ((s.rd a).toNat + (s.rd b).toNat - 1) % 2 ^ 64 / 2 ^ 56 ≠ agentDie s.cur →
      completes (.shoot g a b) s (trapped s 4 3 (s.rd a)))

/-! ### Vector records (R119 to R123, R182 to R210) -/

/-- VLD, VLD_BC, VMOV and ACCRD to a register: each active lane of D takes the element of its place in scratchpad, the one element, the lane of
A, or the accumulator entry, and D takes its descriptor's tag (R188 to R190). -/
def Parts.VectorLoadResults : Prop :=
  ∀ (s : State) (r : Rec) (c : BitVec 32), oneIssue r → r.kat = false → s.ecc = [] → r.d.base.toNat < 384 →
    (begins s 0 0x01 r c → operandsReady s r [] → spAt s r c r.a + 128 ≤ 0x40_0000 →
      completes (.vld r) s (laneResult s r c fun i =>
        (rdN s.mem (spKey s.cur (spAt s r c r.a + i * (laneBits r.d.tag.toNat / 8))) (laneBits r.d.tag.toNat / 8), 0))) ∧
    (begins s 0 0x02 r c → operandsReady s r [] → spAt s r c r.a + laneBits r.d.tag.toNat / 8 ≤ 0x40_0000 →
      completes (.vldBc r) s (laneResult s r c fun _ =>
        (rdN s.mem (spKey s.cur (spAt s r c r.a)) (laneBits r.d.tag.toNat / 8), 0))) ∧
    (begins s 0 0x04 r c → operandsReady s r [r.a] →
      completes (.vmov r) s (laneResult s r c fun i => (lane (laneBits r.d.tag.toNat) i (vreg s r.a.base.toNat), 0))) ∧
    (begins s 0 0x08 r c → operandsReady s r [] → r.d.space = 2#4 → parked (s.co s.cur) r.a.base.toNat = false →
      (r.a.tag = 0 ∨ tget (s.co s.cur).btags (accBlock r.a.base.toNat) 0 = r.a.tag) →
      completes (.accrd r) s fun t =>
        engineOnly s t ∧ accKept s t ∧ (t.co s.cur).masks = (s.co s.cur).masks ∧ started s c 0 false [] t ∧
        (t.co s.cur).vstatus = (s.co s.cur).vstatus ∧
        vregWritten s r.d.base.toNat r.d.tag 32 32 (fun i => if laneOn s r 32 i then some (accum s (r.a.base.toNat + i)) else none) t)

/-- VST, and ACCRD to scratchpad: the bytes of each active lane stand at its place, and every other byte of memory, every register and every
flag is as it was (R188, R190). -/
def Parts.VectorStoreResults : Prop :=
  ∀ (s : State) (r : Rec) (c : BitVec 32), oneIssue r → r.kat = false → s.ecc = [] → spAt s r c r.d + 128 ≤ 0x40_0000 →
    ∀ (i : Instr) (n : Nat) (f : Nat → Nat),
    ((i = .vst r ∧ n = laneCount r.a.tag.toNat ∧ (∀ k, f k = lane (1024 / n) k (vreg s r.a.base.toNat)) ∧ begins s 0 0x03 r c ∧
        operandsReady s r [r.a]) ∨
      (i = .accrd r ∧ n = 32 ∧ (∀ k, f k = accum s (r.a.base.toNat + k)) ∧ begins s 0 0x08 r c ∧ operandsReady s r [] ∧ r.d.space = 1#4 ∧
        parked (s.co s.cur) r.a.base.toNat = false ∧ (r.a.tag = 0 ∨ tget (s.co s.cur).btags (accBlock r.a.base.toNat) 0 = r.a.tag))) →
    completes i s fun t =>
      engineOnly s { t with mem := s.mem } ∧ accKept s t ∧ vregsKept s t ∧ (t.co s.cur).masks = (s.co s.cur).masks ∧
      (t.co s.cur).vstatus = (s.co s.cur).vstatus ∧ started s c 0 false [] t ∧
      (∀ k, k < n → laneOn s r n k = true → rdN t.mem (spKey s.cur (spAt s r c r.d + k * (128 / n))) (128 / n) = f k) ∧
      ∀ a, (∀ k, k < n → laneOn s r n k = true →
          a < spKey s.cur (spAt s r c r.d + k * (128 / n)) ∨ spKey s.cur (spAt s r c r.d + k * (128 / n)) + 128 / n ≤ a) →
        memGet t.mem a = memGet s.mem a

/-- ACCWR writes the active lanes of A to 32 entries and leaves the block's tag to its completion (R191); PARK writes all 32 lanes, and the
spill map's entry of the group is 0x100 + the register's tag (R192); UNPARK returns them to D under that tag and frees the group (R193). -/
def Parts.AccumulatorTransfers : Prop :=
  ∀ (s : State) (r : Rec) (c : BitVec 32), oneIssue r → r.kat = false →
    (begins s 0 0x09 r c → operandsReady s r [r.a] → parked (s.co s.cur) r.d.base.toNat = false →
      completes (.accwr r) s fun t =>
        engineOnly s t ∧ vregsKept s t ∧ (t.co s.cur).masks = (s.co s.cur).masks ∧ (t.co s.cur).vstatus = (s.co s.cur).vstatus ∧
        (t.co s.cur).spill = (s.co s.cur).spill ∧
        started s c 0 false (if (List.range 32).any (laneOn s r 32) then [(accBlock r.d.base.toNat, r.d.tag)] else []) t ∧
        ∀ e, accum t e = (if r.d.base.toNat ≤ e ∧ e < r.d.base.toNat + 32 ∧ laneOn s r 32 (e - r.d.base.toNat) = true then
          lane 32 (e - r.d.base.toNat) (vreg s r.a.base.toNat) else accum s e)) ∧
    (begins s 0 0x0A r c → operandsReady s r [r.a] → tget (s.co s.cur).spill (r.d.base.toNat / 32) 0 = 0 →
      completes (.park r) s fun t =>
        engineOnly s t ∧ vregsKept s t ∧ (t.co s.cur).masks = (s.co s.cur).masks ∧ (t.co s.cur).vstatus = (s.co s.cur).vstatus ∧
        started s c 0 false [] t ∧
        (∀ e, accum t e = (if r.d.base.toNat ≤ e ∧ e < r.d.base.toNat + 32 then lane 32 (e - r.d.base.toNat) (vreg s r.a.base.toNat)
          else accum s e)) ∧
        ∀ k, tget (t.co s.cur).spill k 0 =
          (if k = r.d.base.toNat / 32 then 0x100#9 + (vtag s r.a.base.toNat).setWidth 9 else tget (s.co s.cur).spill k 0)) ∧
    (begins s 0 0x0B r c → operandsReady s r [] → tget (s.co s.cur).spill (r.a.base.toNat / 32) 0 ≠ 0 → r.d.base.toNat < 384 →
      completes (.unpark r) s fun t =>
        engineOnly s t ∧ (t.co s.cur).masks = (s.co s.cur).masks ∧ (t.co s.cur).vstatus = (s.co s.cur).vstatus ∧
        (t.co s.cur).acc = (s.co s.cur).acc ∧ (t.co s.cur).written = (s.co s.cur).written ∧ started s c 0 false [] t ∧
        vregWritten s r.d.base.toNat ((tget (s.co s.cur).spill (r.a.base.toNat / 32) 0).setWidth 8) 32 32
          (fun i => some (accum s (r.a.base.toNat + i))) t ∧
        ∀ k, tget (t.co s.cur).spill k 0 = (if k = r.a.base.toNat / 32 then 0 else tget (s.co s.cur).spill k 0))

/-- The lane-wise arithmetic (R194 to R197), by the lanes of A, B and the old D. Floating point: each result is the exact one rounded once, as
the format's operations give it; FABS and FNEG change the sign bit alone of a number that is no NaN. Integers: sums, differences and
products wrap, or with SAT set clamp and set the SAT flag; a shift takes its amount modulo the lane width; IDOT4 adds four byte products. -/
def Parts.VectorArithmeticResults : Prop :=
  ∀ (s : State) (r : Rec) (c : BitVec 32), oneIssue r → r.kat = false → r.d.base.toNat < 384 →
    ∀ (w : Nat) (a b d : Nat → Nat), w = laneBits r.d.tag.toNat → (∀ i, a i = lane w i (vreg s r.a.base.toNat)) →
    (∀ i, b i = lane w i (vreg s r.b.base.toNat)) → (∀ i, d i = lane w i (vreg s r.d.base.toNat)) →
    (∀ (k : FpCtl) (F : Nat → Fp), k = fpCtlOf r r.d.tag.toNat → F = fpDecode k.p →
      (∀ (i : Instr) (op : Nat) (f : Nat → Nat → Fl Nat),
        (i, op, f) ∈ [(.fadd r, 0x10, fun x y => fpAdd k (F x) (F y)), (.fsub r, 0x11, fun x y => fpAdd k (F x) (F y).flip),
          (.fmul r, 0x12, fun x y => fpMul k (F x) (F y)), (.fmin r, 0x14, fun x y => fpMinMax k false (F x) (F y)),
          (.fmax r, 0x15, fun x y => fpMinMax k true (F x) (F y)), (.fdiv r, 0x18, fun x y => fpDiv k (F x) (F y))] →
        begins s 0 op r c → operandsReady s r [r.a, r.b] → completes i s (laneResult s r c fun j => f (a j) (b j))) ∧
      (∀ (i : Instr) (op : Nat) (f : Nat → Fl Nat),
        (i, op, f) ∈ [(.fsqrt r, 0x19, fun x => fpSqrt k (F x)), (.frsqrt r, 0x1A, fun x => fpRsqrt k (F x)),
          (.frcp r, 0x1B, fun x => fpDiv k (.fin false (2 ^ k.p) (-(k.p : Int))) (F x))] →
        begins s 0 op r c → operandsReady s r [r.a] → completes i s (laneResult s r c fun j => f (a j))) ∧
      (begins s 0 0x13 r c → operandsReady s r [r.a, r.b, r.d] →
        completes (.fma r) s (laneResult s r c fun j => fpFma k (F (a j)) (F (b j)) (F (d j)))) ∧
      ∀ (i : Instr) (op : Nat), (i, op) ∈ [(.fabs r, 0x16), (.fneg r, 0x17)] → begins s 0 op r c → operandsReady s r [r.a] →
        ∃ f : Nat → Fl Nat, completes i s (laneResult s r c fun j => f (a j)) ∧
          ∀ x, x < 2 ^ (k.p + 9) → (F x).isNan = false → (k.ftz = false ∨ x / 2 ^ k.p % 256 ≠ 0 ∨ x % 2 ^ k.p = 0) →
            f x = (if op = 0x16 then x % 2 ^ (k.p + 8) else (x + 2 ^ (k.p + 8)) % 2 ^ (k.p + 9), 0)) ∧
    (∀ (sg : Bool) (I : Nat → Int) (lo hi : Int), sg = decide (r.d.tag ≠ 6) → I = intOf w sg → lo = (if sg then -(2 ^ (w - 1)) else 0) →
      hi = (if sg then 2 ^ (w - 1) - 1 else 2 ^ w - 1) →
      (∀ (i : Instr) (op : Nat) (f : Int → Int → Int),
        (i, op, f) ∈ [(.iadd r, 0x20, (· + ·)), (.isub r, 0x21, (· - ·)), (.imul r, 0x2C, (· * ·))] →
        begins s 0 op r c → operandsReady s r [r.a, r.b] →
        completes i s (laneResult s r c fun j =>
          if r.mods.getLsbD 3 then
            (((max lo (min hi (f (I (a j)) (I (b j))))) % 2 ^ w).toNat,
              if lo ≤ f (I (a j)) (I (b j)) ∧ f (I (a j)) (I (b j)) ≤ hi then 0 else flSAT)
          else ((f (I (a j)) (I (b j)) % 2 ^ w).toNat, 0))) ∧
      (∀ (i : Instr) (op : Nat) (f : Nat → Nat → Nat),
        (i, op, f) ∈ [(.iand r, 0x22, (· &&& ·)), (.ior r, 0x23, (· ||| ·)), (.ixor r, 0x24, (· ^^^ ·)),
          (.ishl r, 0x25, fun x y => x * 2 ^ (y % w) % 2 ^ w), (.ishr r, 0x26, fun x y => x / 2 ^ (y % w)),
          (.isar r, 0x27, fun x y => ((I x / 2 ^ (y % w)) % 2 ^ w).toNat),
          (.imin r, 0x28, fun x y => if I x ≤ I y then x else y), (.imax r, 0x29, fun x y => if I x ≤ I y then y else x)] →
        begins s 0 op r c → operandsReady s r [r.a, r.b] → completes i s (laneResult s r c fun j => (f (a j) (b j), 0)))) ∧
    (begins s 0 0x2D r c → operandsReady s r [r.a, r.b, r.d] →
      ∀ v : Nat → Int, (∀ j, v j = intOf 32 true (d j) + ((List.range 4).map fun q =>
          intOf 8 (decide (r.a.tag ≠ 6)) (a j / 256 ^ q % 256) * intOf 8 true (b j / 256 ^ q % 256)).foldl (· + ·) 0) →
      completes (.idot4 r) s (laneResult s r c fun j =>
        if r.mods.getLsbD 3 then ((max (-(2 ^ 31)) (min (2 ^ 31 - 1) (v j)) % 2 ^ 32).toNat,
          if -(2 ^ 31) ≤ v j ∧ v j < 2 ^ 31 then 0 else flSAT)
        else ((v j % 2 ^ 32).toNat, 0)))

/-- Compares write the bits of each active lane in a mask register (R198); MASKOP combines whole masks (R200); VSEL takes A's lane where the
mask is set and B's where it is not (R199); VPERM takes the lane that B names, VSHUF interleaves or de-interleaves halves, and VBCAST gives
every active lane one lane (R208 to R210). -/
def Parts.VectorComparesAndMoves : Prop :=
  ∀ (s : State) (r : Rec) (c : BitVec 32), oneIssue r → r.kat = false →
    (∀ (n : Nat) (i : Instr) (op : Nat) (f : Nat → Nat → Bool × Word), n = laneCount r.a.tag.toNat →
      (i, op, f) ∈ [(.fcmp r, 0x30, floatCmp (fpCtlOf r r.a.tag.toNat) (r.mf 10 8)),
        (.icmp r, 0x31, fun x y => (intCmp r.a.tag.toNat (r.mf 10 8) x y, 0))] →
      begins s 0 op r c → operandsReady s r [r.a, r.b] → r.d.base.toNat ≠ 0 →
      ∀ v : Nat → Bool × Word, (∀ j, v j = f (lane (1024 / n) j (vreg s r.a.base.toNat)) (lane (1024 / n) j (vreg s r.b.base.toNat))) →
      completes i s fun t =>
        engineOnly s t ∧ accKept s t ∧ vregsKept s t ∧ started s c 0 false [] t ∧ (∀ m, m ≠ r.d.base.toNat → mreg t m = mreg s m) ∧
        (∀ j, j < 128 → (mreg t r.d.base.toNat).getLsbD j =
          (if laneOn s r n (j / (128 / n)) then (v (j / (128 / n))).1 else (mreg s r.d.base.toNat).getLsbD j)) ∧
        flagsGained s n (fun j => if laneOn s r n j then some (v j).2 else none) t) ∧
    (begins s 0 0x33 r c → operandsReady s r [] → r.d.base.toNat ≠ 0 →
      completes (.maskop r) s fun t =>
        engineOnly s t ∧ accKept s t ∧ vregsKept s t ∧ (t.co s.cur).vstatus = (s.co s.cur).vstatus ∧ started s c 0 false [] t ∧
        ∀ m, mreg t m = (if m = r.d.base.toNat then
          (let x := mreg s r.a.base.toNat
           let y := mreg s r.b.base.toNat
           if r.mf 9 8 = 0 then x &&& y else if r.mf 9 8 = 1 then x ||| y else if r.mf 9 8 = 2 then x ^^^ y else x &&& ~~~y)
          else mreg s m)) ∧
    ∀ (n w : Nat) (a b : Nat → Nat), n = laneCount r.d.tag.toNat → w = laneBits r.d.tag.toNat → r.d.base.toNat < 384 →
      (∀ j, a j = lane w j (vreg s r.a.base.toNat)) → (∀ j, b j = lane w j (vreg s r.b.base.toNat)) →
      (begins s 0 0x32 r c → operandsReady s r [r.a, r.b] →
        completes (.vsel r) s fun t =>
          engineOnly s t ∧ accKept s t ∧ (t.co s.cur).masks = (s.co s.cur).masks ∧ (t.co s.cur).vstatus = (s.co s.cur).vstatus ∧
          started s c 0 false [] t ∧ vregWritten s r.d.base.toNat r.d.tag n w (fun j => some (if laneOn s r n j then a j else b j)) t) ∧
      (begins s 0 0x50 r c → operandsReady s r [r.a, r.b] → completes (.vperm r) s (laneResult s r c fun j => (a (b j % n), 0))) ∧
      (begins s 0 0x51 r c → operandsReady s r [r.a, r.b] →
        completes (.vshuf r) s (laneResult s r c fun j =>
          ((if r.mf 9 8 = 0 then (if j % 2 = 0 then a (j / 2) else b (j / 2))
            else if r.mf 9 8 = 1 then (if j % 2 = 0 then a (n / 2 + j / 2) else b (n / 2 + j / 2))
            else if r.mf 9 8 = 2 then (if j < n / 2 then a (2 * j) else b (2 * (j - n / 2)))
            else (if j < n / 2 then a (2 * j + 1) else b (2 * (j - n / 2) + 1))), 0))) ∧
      (begins s 0 0x52 r c → operandsReady s r [r.a] → completes (.vbcast r) s (laneResult s r c fun _ => (a (r.mf 14 8), 0)))

/-- An engine's decision about the next record of its queue, none of it half made (R113, R126, R131, R135, R136, R139), of every class and operation but
JOIN: with no record, a stopped engine, an earlier record of the vector or matrix queue that has not completed, an await that is not satisfied, or no
grant for a matrix record, nothing changes; an invalid record raises the context fault RECORD_INVALID, cause 0x23, with the rule that it breaks, and
the engine stops; a class outside the mask is noted with the slot counter, and the team is suspended; an await satisfied by ERR, and a zero trip
count, start the record with no effect, with an error status in the first case. That a matrix record needs its grant in these two cases too is the model's reading (log entry
47, DEDUCED). -/
def Parts.RecordGates : Prop :=
  ∀ (s : State) (i : Instr) (k : BitVec 4) (o : BitVec 8) (r : Rec) (p cls op : Nat) (x : Core) (v : Queue),
    recParts i = some (k, o, r) → k ≠ 3#4 → p = s.cur → cls = k.toNat → op = o.toNat → x = s.co p → v = ringOf s s.curq → v.current = none →
    (x.nextSlot s.curq = none → completes i s fun t => t = s) ∧
    (x.rolling = false → v.stopped = true → completes i s fun t => t = s) ∧
    (x.rolling = false → cls ≠ 2 → v.flight ≠ [] → completes i s fun t => t = s) ∧
    ∀ c, x.nextSlot s.curq = some c → x.rolling = false → v.stopped = false → (cls ≠ 2 → v.flight = []) →
      ∀ rule, rule = ruleBroken (judgeOf s p s.curq (v.fences.contains c)) cls op r →
      (rule ≠ 0 → completes i s fun t =>
        t.mem = s.mem ∧ (∀ a, t.sc a = s.sc a) ∧ (ringOf t s.curq).stopped = true ∧ (ringOf t s.curq).flight = v.flight ∧
        (ringOf t s.curq).head = v.head ∧ holdsGrant t p = false ∧
        ∃ f : FaultRec, t.faults = s.faults ++ [f] ∧ f.cause = 0x23 ∧ f.detail = rule ∧ f.phys = p ∧ f.ctx = (s.sc p).ctx ∧
          f.typ = 1 + s.curq.toNat ∧ f.pos = c.setWidth 64) ∧
      (rule = 0 → r.awEn = true → (semOf s r.awSem.toNat).awaitOk r.thr = false → completes i s fun t => t = s) ∧
      (rule = 0 → (r.awEn = true → (semOf s r.awSem.toNat).awaitOk r.thr = true) →
        (cls = 1 → holdsGrant s p = false → completes i s fun t => t = s) ∧
        ((cls = 1 → holdsGrant s p = true) →
          (x.capmask.getLsbD (opClass cls op) = false → completes i s fun t =>
            t = suspendFor (endGrant (upQueue s p s.curq fun v => { v with fenced := some (c, opClass cls op) }) p) p (opClass cls op)) ∧
          (x.capmask.getLsbD (opClass cls op) = true →
            (r.awEn = true → (semOf s r.awSem.toNat).err = true → completes i s fun t =>
              engineOnly s t ∧ accKept s t ∧ vregsKept s t ∧ (t.co p).masks = x.masks ∧ (t.co p).vstatus = x.vstatus ∧
              started s c 0 true [] t) ∧
            ((r.awEn = true → (semOf s r.awSem.toNat).err = false) → r.zeroTrip = true → completes i s fun t =>
              engineOnly s t ∧ accKept s t ∧ vregsKept s t ∧ (t.co p).masks = x.masks ∧ (t.co p).vstatus = x.vstatus ∧
              started s c 0 false [] t))))

/-- A vector record of any nest, no reduction, performs its issues one after another, i0 fastest (R130, R185), and has then started; a known-answer
record whose signature differs from the expected one takes the mismatch path (R187, R411). -/
def Parts.IssuesInNestOrder : Prop :=
  ∀ (s : State) (i : Instr) (o : BitVec 8) (r : Rec) (c : BitVec 32) (k : VCtx) (g : Word) (s1 u : State),
    recParts i = some (0#4, o, r) → ¬(0x48 ≤ o.toNat ∧ o.toNat ≤ 0x4A) → begins s 0 o.toNat r c →
    k = { p := s.cur, op := o.toNat, r := r, ph := r.phase && (ringOf s s.curq).ph.contains c, tie := (s.co s.cur).vstatus.getLsbD 16 } →
    s1 = pushFlight s s.cur s.curq c 1 false →
    vecFull s s.cur r = true → vecStart k s1 = none → issued k (issues r) 0 s1 g u →
    completes i s fun t =>
      t = if r.kat = true ∧ g ≠ r.sig then katMismatch u s.cur s.curq (newFlight s s.cur s.curq c 1 false) (opClass 0 o.toNat)
        else endBody u s.cur s.curq c ⟨if r.kat then [] else accwrTags k u, (nest r).length⟩

/-- CVT takes the lanes of part p of the wider register (R201): an integer result of an integer wraps, or clamps and sets SAT; every pair gives
what the format's conversion gives. QUANT gives 32 bytes and one scale byte, DEQUANT takes them back (R202, R203, R152, R153). -/
def Parts.ConversionResults : Prop :=
  ∀ (s : State) (r : Rec) (c : BitVec 32), oneIssue r → r.kat = false →
    (begins s 0 0x38 r c → operandsReady s r [r.a] → r.d.base.toNat < 384 →
      ∀ (la ld p : Nat) (src : Nat → Option Nat) (f : Nat → Fl Nat), la = laneCount r.a.tag.toNat → ld = laneCount r.d.tag.toNat →
        p = r.mf 9 8 →
        (∀ j, src j = if la < ld then (if p * la ≤ j ∧ j < p * la + la then some (j - p * la) else none) else some (p * ld + j)) →
        (∀ x, f x = convert r r.a.tag.toNat r.d.tag.toNat x) →
        completes (.cvt r) s fun t =>
          engineOnly s t ∧ accKept s t ∧ (t.co s.cur).masks = (s.co s.cur).masks ∧ started s c 0 false [] t ∧
          vregWritten s r.d.base.toNat r.d.tag ld (1024 / ld)
            (fun j => if laneOn s r ld j then (src j).map fun q => (f (lane (1024 / la) q (vreg s r.a.base.toNat))).1 else none) t ∧
          flagsGained s ld
            (fun j => if laneOn s r ld j then (src j).map fun q => (f (lane (1024 / la) q (vreg s r.a.base.toNat))).2 else none) t) ∧
    (s.ecc = [] → begins s 0 0x3C r c → operandsReady s r [r.a] → (r.d.space = 2#4 → r.d.base.toNat < 384) →
      spAt s r c r.b < 0x40_0000 →
      ∀ (q : Fl (Nat × List Int)) (byte : Nat → Nat),
        q = quant32 ((List.range 32).map fun j => fpDecode 23 (lane 32 j (vreg s r.a.base.toNat))) →
        (∀ j, byte j = wrapBits 8 (q.1.2.getD j 0)) →
        (r.d.space = 2#4 → completes (.quant r) s fun t =>
          engineOnly s { t with mem := s.mem } ∧ accKept s t ∧ (t.co s.cur).masks = (s.co s.cur).masks ∧ started s c 0 false [] t ∧
          vregWritten s r.d.base.toNat 5 128 8
            (fun j => if 32 * r.mf 9 8 ≤ j ∧ j < 32 * r.mf 9 8 + 32 then some (byte (j - 32 * r.mf 9 8)) else none) t ∧
          (t.co s.cur).vstatus = (s.co s.cur).vstatus ||| q.2 ∧
          ∀ a, memGet t.mem a = if a = spKey s.cur (spAt s r c r.b) then BitVec.ofNat 8 q.1.1 else memGet s.mem a) ∧
        (r.d.space = 1#4 → spAt s r c r.d + 32 ≤ 0x40_0000 → completes (.quant r) s fun t =>
          engineOnly s { t with mem := s.mem } ∧ accKept s t ∧ vregsKept s t ∧ (t.co s.cur).masks = (s.co s.cur).masks ∧
          started s c 0 false [] t ∧ (t.co s.cur).vstatus = (s.co s.cur).vstatus ||| q.2 ∧
          ∀ a, memGet t.mem a =
            if a = spKey s.cur (spAt s r c r.b) then BitVec.ofNat 8 q.1.1
            else if spKey s.cur (spAt s r c r.d) ≤ a ∧ a < spKey s.cur (spAt s r c r.d) + 32 then
              BitVec.ofNat 8 (byte (a - spKey s.cur (spAt s r c r.d)))
            else memGet s.mem a)) ∧
    (s.ecc = [] → begins s 0 0x3D r c → operandsReady s r (if r.a.space = 2#4 then [r.a] else []) → r.d.base.toNat < 384 →
      spAt s r c r.b < 0x40_0000 → (r.a.space = 1#4 → spAt s r c r.a + 32 ≤ 0x40_0000) →
      ∀ byte : Nat → Nat, (∀ j, byte j = if r.a.space = 2#4 then lane 8 (32 * r.mf 9 8 + j) (vreg s r.a.base.toNat)
        else (memGet s.mem (spKey s.cur (spAt s r c r.a) + j)).toNat) →
      completes (.dequant r) s (laneResult s r c fun j =>
        (dequant (memGet s.mem (spKey s.cur (spAt s r c r.b))).toNat (intOf 8 true (byte j)), 0)))

/-- TRPACK packs t lanes five to a byte, each read as a trit (a lane that is none becomes the nearer of -1 and 1 and sets SAT); TRUNPACK decodes
t trits into lanes and zeroes the others, a byte above 242 giving zero trits and TI, or, where TIE was set, TRIT_INVALID (R204, R205, R150). -/
def Parts.TritResults : Prop :=
  ∀ (s : State) (r : Rec) (c : BitVec 32) (t n : Nat), oneIssue r → r.kat = false → s.ecc = [] → t = r.mf 14 8 → n = (t + 4) / 5 →
    (begins s 0 0x40 r c → operandsReady s r [r.a] → spAt s r c r.d + n ≤ 0x40_0000 →
      ∀ (x tr : Nat → Int), (∀ j, x j = intOf 8 true (lane 8 j (vreg s r.a.base.toNat))) →
        (∀ j, tr j = if j < t then max (-1) (min 1 (x j)) else 0) →
        completes (.trpack r) s fun u =>
          engineOnly s { u with mem := s.mem } ∧ accKept s u ∧ vregsKept s u ∧ (u.co s.cur).masks = (s.co s.cur).masks ∧
          started s c 0 false [] u ∧
          (u.co s.cur).vstatus = (s.co s.cur).vstatus |||
            (if (List.range t).any (fun j => decide (x j < -1) || decide (1 < x j)) then flSAT else 0) ∧
          (∀ k, k < n → ((memGet u.mem (spKey s.cur (spAt s r c r.d) + k)).toNat : Int) =
            (tr (5 * k) + 1) + 3 * (tr (5 * k + 1) + 1) + 9 * (tr (5 * k + 2) + 1) + 27 * (tr (5 * k + 3) + 1) + 81 * (tr (5 * k + 4) + 1)) ∧
          ∀ a, a < spKey s.cur (spAt s r c r.d) ∨ spKey s.cur (spAt s r c r.d) + n ≤ a → memGet u.mem a = memGet s.mem a) ∧
    (begins s 0 0x41 r c → operandsReady s r [] → spAt s r c r.a + n ≤ 0x40_0000 → r.d.base.toNat < 384 →
      ∀ (byte : Nat → Nat), (∀ k, byte k = (memGet s.mem (spKey s.cur (spAt s r c r.a) + k)).toNat) →
        (((s.co s.cur).vstatus.getLsbD 16 = false ∨ ∀ k, k < n → byte k < 243) → completes (.trunpack r) s fun u =>
          engineOnly s u ∧ accKept s u ∧ (u.co s.cur).masks = (s.co s.cur).masks ∧ started s c 0 false [] u ∧
          (u.co s.cur).vstatus = (s.co s.cur).vstatus ||| (if (List.range n).any (fun k => decide (243 ≤ byte k)) then flTI else 0) ∧
          vregWritten s r.d.base.toNat r.d.tag 128 8
            (fun j => some (if j < t ∧ byte (j / 5) < 243 then (byte (j / 5) / 3 ^ (j % 5) % 3 + 255) % 256 else 0)) u) ∧
        ((s.co s.cur).vstatus.getLsbD 16 = true → (∃ k, k < n ∧ 243 ≤ byte k) → completes (.trunpack r) s fun u =>
          (ringOf u s.curq).stopped = true ∧ (∀ m, vreg u m = vreg s m) ∧ u.mem = s.mem ∧
          ∃ f : FaultRec, u.faults = s.faults ++ [f] ∧ f.cause = 0x26 ∧ f.phys = s.cur ∧ f.pos = c.setWidth 64))

/-- RSUM, RMAX and RMIN of one group (R156, R206, R207): the tree over each issue's lanes, an inactive lane entering as the identity, and the
issues' results combined in order of i0; in a register the result is lane 0 of a value whose other lanes are zero. For integer lanes the
wrapping sum is the sum of the active lanes, and the maximum and minimum bound every active lane. -/
def Parts.ReductionResults : Prop :=
  ∀ (s : State) (r : Rec) (c : BitVec 32) (i : Instr) (op : Nat), (i, op) ∈ [(.rsum r, 0x48), (.rmax r, 0x49), (.rmin r, 0x4A)] →
    r.n1 = 1 → r.n2 = 1 → r.n3 = 1 → r.kat = false → s.ecc = [] → begins s 0 op r c → (r.d.space = 2#4 → r.d.base.toNat < 384) →
    vecFull s s.cur r = true →
    ∀ reg : Nat → Nat, (∀ j, reg j = (addrAt r.a (0, 0, 0, j)).toNat) →
    (∀ j, j < r.n0.toNat → r.a.tag = 0 ∨ vtag s (reg j) = r.a.tag) →
    ∃ v : Fl Nat,
      (∀ k : VCtx, k = ⟨s.cur, op, r, r.phase && (ringOf s s.curq).ph.contains c, (s.co s.cur).vstatus.getLsbD 16⟩ →
        redOver k s 0 ((List.range r.n0.toNat).map fun j => addrAt r.a (0, 0, 0, j)) (0, 0) = .ok v) ∧
      (r.n0 = 1 → 3 ≤ r.a.tag.toNat → r.a.tag.toNat ≤ 6 → ∀ (n w : Nat) (x : Nat → Int), n = laneCount r.a.tag.toNat → w = 1024 / n →
        (∀ j, x j = intOf w (decide (r.a.tag ≠ 6)) (lane w j (vreg s r.a.base.toNat))) →
        (op = 0x48 → r.mods.getLsbD 3 = false →
          (v.1 : Int) = ((List.range n).map fun j => if laneOn s r n j then x j else 0).foldl (· + ·) 0 % 2 ^ w) ∧
        (op = 0x49 → (∀ j, j < n → laneOn s r n j = true → x j ≤ intOf w (decide (r.a.tag ≠ 6)) v.1) ∧
          ((∃ j, j < n ∧ laneOn s r n j = true) → ∃ j, j < n ∧ laneOn s r n j = true ∧ intOf w (decide (r.a.tag ≠ 6)) v.1 = x j)) ∧
        (op = 0x4A → (∀ j, j < n → laneOn s r n j = true → intOf w (decide (r.a.tag ≠ 6)) v.1 ≤ x j) ∧
          ((∃ j, j < n ∧ laneOn s r n j = true) → ∃ j, j < n ∧ laneOn s r n j = true ∧ intOf w (decide (r.a.tag ≠ 6)) v.1 = x j))) ∧
      (r.d.space = 2#4 → completes i s fun t =>
        engineOnly s t ∧ accKept s t ∧ (t.co s.cur).masks = (s.co s.cur).masks ∧ started s c 0 false [] t ∧
        (t.co s.cur).vstatus = (s.co s.cur).vstatus ||| v.2 ∧ vreg t r.d.base.toNat = BitVec.ofNat 1024 v.1 ∧
        vtag t r.d.base.toNat = r.d.tag ∧ ∀ m, m ≠ r.d.base.toNat → vreg t m = vreg s m ∧ vtag t m = vtag s m) ∧
      (r.d.space = 1#4 → spAt s r c r.d + elemSize r.a.tag.toNat ≤ 0x40_0000 → completes i s fun t =>
        engineOnly s { t with mem := s.mem } ∧ accKept s t ∧ vregsKept s t ∧ (t.co s.cur).masks = (s.co s.cur).masks ∧
        started s c 0 false [] t ∧ (t.co s.cur).vstatus = (s.co s.cur).vstatus ||| v.2 ∧
        rdN t.mem (spKey s.cur (spAt s r c r.d)) (elemSize r.a.tag.toNat) = v.1 % 256 ^ elemSize r.a.tag.toNat ∧
        ∀ a, a < spKey s.cur (spAt s r c r.d) ∨ spKey s.cur (spAt s r c r.d) + elemSize r.a.tag.toNat ≤ a →
          memGet t.mem a = memGet s.mem a)

/-! ### Matrix records (R113 to R115, R159 to R181) -/

/-- MCFG loads the configuration block from scratchpad, if its reserved bits are zero and its addresses aligned, else raises RECORD_INVALID with rule
12 and loads nothing (R115, R178). MZERO zeroes the 32 by 64 block at D, sets its written bit and leaves the block's tag to its completion
(R180); a block with a parked group raises PARK_CONFLICT, a row
that is no multiple of 32 RECORD_INVALID with rule 12, and nothing is written. -/
def Parts.MatrixSetupResults : Prop :=
  ∀ (s : State) (r : Rec) (c : BitVec 32), oneIssue r → s.ecc = [] →
    (begins s 1 0x01 r c → spAt s r c r.a + 64 ≤ 0x40_0000 → ∀ b : BitVec 512, b.toNat = rdN s.mem (spKey s.cur (spAt s r c r.a)) 64 →
      (mcfgOk b = true → completes (.mcfg r) s fun t =>
        t = { s with core := t.core } ∧ (∀ p, p ≠ s.cur → t.co p = s.co p) ∧
        t.co s.cur = { s.co s.cur with mcfg := b, mq := (t.co s.cur).mq } ∧ started s c 0 false [] t) ∧
      (mcfgOk b = false → completes (.mcfg r) s fun t =>
        (t.co s.cur).mcfg = (s.co s.cur).mcfg ∧ t.mem = s.mem ∧ (ringOf t 1#2).stopped = true ∧
        ∃ f : FaultRec, t.faults = s.faults ++ [f] ∧ f.cause = 0x23 ∧ f.detail = 12 ∧ f.phys = s.cur ∧ f.pos = c.setWidth 64)) ∧
    (begins s 1 0x02 r c → r.d.base.toNat % 64 = 0 → r.d.base.toNat / 512 % 32 = 0 →
      (blockParked (s.co s.cur) r.d.base.toNat = false → completes (.mzero r) s fun t =>
        engineOnly s t ∧ vregsKept s t ∧ (t.co s.cur).masks = (s.co s.cur).masks ∧ (t.co s.cur).vstatus = (s.co s.cur).vstatus ∧
        (t.co s.cur).spill = (s.co s.cur).spill ∧ started s c 0 false [(accBlock r.d.base.toNat, r.d.tag)] t ∧
        (t.co s.cur).written = setBit (s.co s.cur).written (accBlock r.d.base.toNat) true ∧
        ∀ e, accum t e = if accBlock e = accBlock r.d.base.toNat then 0 else accum s e) ∧
      (blockParked (s.co s.cur) r.d.base.toNat = true → completes (.mzero r) s fun t =>
        (∀ e, accum t e = accum s e) ∧ (ringOf t 1#2).stopped = true ∧
        ∃ f : FaultRec, t.faults = s.faults ++ [f] ∧ f.cause = 0x25 ∧ f.phys = s.cur)) ∧
    (begins s 1 0x02 r c → r.d.base.toNat / 512 % 32 ≠ 0 → completes (.mzero r) s fun t =>
      (∀ e, accum t e = accum s e) ∧ (ringOf t 1#2).stopped = true ∧
      ∃ f : FaultRec, t.faults = s.faults ++ [f] ∧ f.cause = 0x23 ∧ f.detail = 12 ∧ f.phys = s.cur)

/-- MDOT_T, MDOT_S4 and MDOT_I8 of one dense block (32 rows, 64 columns, K of 32) with activations in scratchpad and no shape record: each entry
of D's 32 by 64 rectangle takes its old value plus the sum of products of weights and activations: with ISUM modulo 2^32, else scaled by the
row's and the column's E5M3 scales and rounded once (R154, R159, R165 to R169). Every other entry, every register and all memory are as they
were, and the block's tag is left to the completion. -/
def Parts.MatrixProductResults : Prop :=
  ∀ (s : State) (r : Rec) (c : BitVec 32) (i : Instr) (op bytes : Nat) (wt : Nat → Nat → Int) (cfg : MCfg) (ph : Bool)
    (A B : Nat → Nat) (x : Nat → Nat → Int),
    (i, op, bytes) ∈ [(.mdotT r, 0x10, 7), (.mdotS4 r, 0x11, 16), (.mdotI8 r, 0x12, 32)] → oneIssue r → r.kat = false → s.ecc = [] →
    s.palarm = false → begins s 1 op r c → r.mf 1 0 = 0 → r.mods.getLsbD 2 = false → r.a.space = 1#4 →
    r.d.base.toNat % 64 = 0 → r.d.base.toNat / 512 % 32 = 0 →
    (∀ q : Nat, q < 32 → 0 ≤ (r.a.base.toNat : Int) + q * r.a.s1.toInt ∧ (r.a.base.toNat : Int) + q * r.a.s1.toInt + 32 ≤ 0x40_0000) →
    cfg = mcfgOf (s.co s.cur).mcfg → cfg.shen = false → ph = (r.phase && (ringOf s 1#2).ph.contains c) →
    (∀ q, A q = recAddr s s.cur ph ((r.a.base.toNat : Int) + q * r.a.s1.toInt)) →
    (∀ k, B k = recAddr s s.cur ph ((r.b.base.toNat : Int) + k * r.b.s1.toInt)) →
    (∀ q, q < 32 → A q + 32 ≤ 0x40_0000) → (∀ k, k < 64 → B k + bytes ≤ 0x40_0000) →
    (r.mods.getLsbD 3 = false → cfg.ascale + 32 ≤ 0x40_0000 ∧ cfg.bscale + 64 ≤ 0x40_0000) →
    (s.co s.cur).spill = [] → tget (s.co s.cur).btags (accBlock r.d.base.toNat) 0 = r.d.tag →
    (op = 0x10 → (s.co s.cur).vstatus.getLsbD 16 = false) →
    (∀ q k, x q k = intOf 8 true (memGet s.mem (spKey s.cur (A q) + k)).toNat) →
    (∀ k j, wt k j =
      if op = 0x10 then
        (let b := (memGet s.mem (spKey s.cur (B k) + j / 5)).toNat
         if b < 243 then ((b / 3 ^ (j % 5) % 3 : Nat) : Int) - 1 else 0)
      else if op = 0x11 then intOf 4 true ((memGet s.mem (spKey s.cur (B k) + j / 2)).toNat / 16 ^ (j % 2) % 16)
      else intOf 8 true (memGet s.mem (spKey s.cur (B k) + j)).toNat) →
    completes i s fun t =>
      engineOnly s t ∧ vregsKept s t ∧ (t.co s.cur).masks = (s.co s.cur).masks ∧ (t.co s.cur).spill = (s.co s.cur).spill ∧
      started s c 0 false [(accBlock r.d.base.toNat, r.d.tag)] t ∧
      (∀ q k, q < 32 → k < 64 → ∀ sum, sum = ((List.range 32).map fun j => wt k j * x q j).foldl (· + ·) 0 →
        accum t (r.d.base.toNat + 512 * q + k) =
          if r.mods.getLsbD 3 then (((accum s (r.d.base.toNat + 512 * q + k) : Int) + sum) % 2 ^ 32).toNat
          else (bsupdate (accum s (r.d.base.toNat + 512 * q + k)) sum (memGet s.mem (spKey s.cur (cfg.ascale + q))).toNat
            (memGet s.mem (spKey s.cur (cfg.bscale + k))).toNat).1 % 2 ^ 32) ∧
      ∀ e, (∀ q k, q < 32 → k < 64 → e ≠ r.d.base.toNat + 512 * q + k) → accum t e = accum s e

/-! ### Completion, fences and grants (R113, R135, R136, R140, R175, R218) -/

/-- RECORD_COMPLETE: the oldest started record of a queue, its body over and with nothing outstanding, leaves the started ones, HEAD advances by one, EVT is set if the
record asks for it, its block tags are set, DONE of its raise semaphore gains one and ERR is set by an error status (R135, R136); CQSTAT takes
the first error of a copy record (R218). With something outstanding, its body not over, or nothing started, nothing changes. No rollback is under
way; a completing matrix record also ends its grant, or chains it to the next record (R113, R175). A pattern of segment 6 of a scan counts in the run
of its grant, which ends with the run (R379). -/
def Parts.RecordCompletion : Prop :=
  (∀ s : State, scanning6 (s.co s.cur) = true → holdsGrant s s.cur = true → completes (.recordComplete 1#2) s fun t =>
    t = { s with quad := t.quad } ∧ (∀ k, k ≠ quadOf s.cur → t.qd k = s.qd k) ∧
    t.qd (quadOf s.cur) = (if (s.qd (quadOf s.cur)).run < (s.qd (quadOf s.cur)).lim then
      { s.qd (quadOf s.cur) with run := (s.qd (quadOf s.cur)).run + 1 } else { s.qd (quadOf s.cur) with grant := none, run := 0 })) ∧
  ∀ (s : State) (q : BitVec 2), q ≠ 3#2 → (q = 1#2 → scanning6 (s.co s.cur) = false) →
    ((ringOf s q).flight = [] → completes (.recordComplete q) s fun t => t = s) ∧
    ∀ f fs, (ringOf s q).flight = f :: fs →
      (f.pend ≠ 0 ∨ f.made = false → completes (.recordComplete q) s fun t => t = s) ∧
      (f.pend = 0 → f.made = true → (s.co s.cur).rolling = false → completes (.recordComplete q) s fun t =>
        t.mem = s.mem ∧ (∀ a, t.sc a = s.sc a) ∧ (∀ p, p ≠ s.cur → t.co p = s.co p) ∧
        (ringOf t q).flight = fs ∧ (ringOf t q).head = (ringOf s q).head + 1 ∧ (ringOf t q).tail = (ringOf s q).tail ∧
        (ringOf t q).evt = ((ringOf s q).evt || hdrEvent f.hdr) ∧ (∀ k, k ≠ 3#2 → k ≠ q → ringOf t k = ringOf s k) ∧
        (∀ k, semOf t k = if hdrRaise f.hdr = true ∧ k = hdrSem f.hdr then
          { semOf s k with done := (semOf s k).done + 1, err := (semOf s k).err || f.err } else semOf s k) ∧
        (f.tags = [] → (t.co s.cur).btags = (s.co s.cur).btags) ∧
        (∀ b g, f.tags = [(b, g)] → ∀ k, tget (t.co s.cur).btags k 0 = if k = b then g else tget (s.co s.cur).btags k 0) ∧
        (f.stat = 0 → (t.co s.cur).cqstat = (s.co s.cur).cqstat) ∧
        (f.stat ≠ 0 → (s.co s.cur).cqstat.getLsbD 63 = true → (t.co s.cur).cqstat = (s.co s.cur).cqstat) ∧
        (f.stat ≠ 0 → (s.co s.cur).cqstat.getLsbD 63 = false →
          (t.co s.cur).cqstat = 0x8000_0000_0000_0000#64 ||| (f.stat.setWidth 64 <<< 32) ||| f.slot.setWidth 64) ∧
        (q ≠ 1#2 → t.quad = s.quad) ∧ (q = 1#2 → hdrChain f.hdr = false → holdsGrant t s.cur = false))

/-- JOIN: one that a program pushed retires at the head of its queue (R140); the fences of a QFENCE, each at the head of its queue with one number,
retire together, and while one of them does not head its queue nothing changes (R92, R140). LEASE_GRANT gives a free array to the next slot
after the last holder whose matrix queue requests it, for a run of at most LEASE_RUN as it stands then, and with none, or a held array, changes
nothing (R113, R174). RECORD_INVALID raises the context
fault RECORD_INVALID and stops the engine (R131). -/
def Parts.FencesAndGrants : Prop :=
  (∀ (s : State) (r : Rec) (c : BitVec 32) (v : Queue), v = ringOf s s.curq → s.curq ≠ 3#2 → (s.co s.cur).nextSlot s.curq = some c →
    (s.co s.cur).rolling = false → v.stopped = false → v.flight = [] → r.awEn = false → (s.co s.cur).capmask.getLsbD 38 = true →
    ruleBroken (judgeOf s s.cur s.curq (v.fences.contains c)) 3 1 r = 0 →
    (v.fences.contains c = false → completes (.join r) s fun t =>
      t = { s with core := t.core, quad := t.quad } ∧ (∀ p, p ≠ s.cur → t.co p = s.co p) ∧ accKept s t ∧ vregsKept s t ∧
      (∀ k, semOf t k = if hdrRaise (slotHeader s c) = true ∧ k = hdrSem (slotHeader s c) then
        { semOf s k with done := (semOf s k).done + 1 } else semOf s k) ∧
      ringOf t s.curq = { v with head := v.head + 1, words := [], evt := v.evt || hdrEvent (slotHeader s c) } ∧
      (∀ k, k ≠ 3#2 → k ≠ s.curq → ringOf t k = ringOf s k) ∧ (s.curq ≠ 1#2 → t.quad = s.quad)) ∧
    (v.fences.contains c = true → (∀ j, j < 3 → r.mods.getLsbD j = true → fenceAtHead s s.cur (r.n1 ++ r.n0) j = true) →
      completes (.join r) s fun t =>
        t.mem = s.mem ∧ (∀ a, t.sc a = s.sc a) ∧ ∀ k : BitVec 2, k ≠ 3#2 →
          (ringOf t k).head = (if r.mods.getLsbD k.toNat then (ringOf s k).head + 1 else (ringOf s k).head)) ∧
    (v.fences.contains c = true → ∀ j, j < 3 → r.mods.getLsbD j = true → fenceAtHead s s.cur (r.n1 ++ r.n0) j = false →
      completes (.join r) s fun t => t = s)) ∧
  (∀ s : State,
    ((s.qd s.cur).grant ≠ none → completes .leaseGrant s fun t => t = s) ∧
    ((s.qd s.cur).grant = none → (∀ k, k < 4 → requestsArray s (4 * s.cur + k) = false) → completes .leaseGrant s fun t => t = s) ∧
    ∀ n, 1 ≤ n → n ≤ 4 → (s.qd s.cur).grant = none → requestsArray s (4 * s.cur + ((s.qd s.cur).last + n) % 4) = true →
      (∀ k, 1 ≤ k → k < n → requestsArray s (4 * s.cur + ((s.qd s.cur).last + k) % 4) = false) →
      completes .leaseGrant s fun t =>
        t = { s with quad := t.quad } ∧ (∀ q, q ≠ s.cur → t.qd q = s.qd q) ∧
        t.qd s.cur = { s.qd s.cur with
          grant := some (((s.qd s.cur).last + n) % 4), run := 1, last := ((s.qd s.cur).last + n) % 4,
          lim := (s.qd s.cur).lease.toNat % 128 }) ∧
  ∀ (s : State) (w : BitVec 512) (c : BitVec 32), (s.co s.cur).nextSlot s.curq = some c → (ringOf s s.curq).stopped = false → (s.curq ≠ 2#2 → (ringOf s s.curq).flight = []) →
    completes (.recordInvalid w) s fun t =>
      t.mem = s.mem ∧ (∀ a, t.sc a = s.sc a) ∧ (ringOf t s.curq).stopped = true ∧ (ringOf t s.curq).head = (ringOf s s.curq).head ∧
      ∃ f : FaultRec, t.faults = s.faults ++ [f] ∧ f.cause = 0x23 ∧ f.phys = s.cur ∧ f.pos = c.setWidth 64 ∧
        f.detail = wordsBroken (judgeOf s s.cur s.curq ((ringOf s s.curq).fences.contains c)) w

/-! ### Copy records (R211 to R230, R302, R303, R329, R431) -/

/-- COPY, PUT and GET of one issue between scratchpads: the run at D takes the bytes of the run at A, read before anything is written; every
other byte of memory is as it was; PUT with its destination semaphore enabled adds 1 to that semaphore's DONE at the destination core
(R214, R219 to R221). FILL of one issue writes its byte over the run (R219). -/
def Parts.LocalCopyResults : Prop :=
  ∀ (s : State) (r : Rec) (c : BitVec 32) (qd da : Nat), oneIssue r → s.ecc = [] → runAt s r c r.d = .sp qd da →
    (∀ (i : Instr) (op qa aa : Nat), (i, op) ∈ [(.copy r, 0x01), (.put r, 0x10), (.get r, 0x11)] → begins s 2 op r c →
      runAt s r c r.a = .sp qa aa → completes i s fun t =>
        t = { s with mem := t.mem, core := t.core } ∧ copied s.mem t.mem (spKey qd da) (spKey qa aa) r.run ∧ started s c 0 false [] t ∧
        (op = 0x10 → r.mods.getLsbD 13 = true → raised s t qd (r.mf 12 8) 1 false) ∧
        (r.mods.getLsbD 13 = false → semsKept s t ∧ ∀ p, p ≠ s.cur → t.co p = s.co p)) ∧
    (begins s 2 0x02 r c → completes (.fill r) s fun t =>
      t = { s with mem := t.mem, core := t.core } ∧ started s c 0 false [] t ∧ semsKept s t ∧ (∀ p, p ≠ s.cur → t.co p = s.co p) ∧
      (∀ j, j < r.run → memGet t.mem (spKey qd da + j) = BitVec.ofNat 8 (r.mf 15 8)) ∧
      ∀ k, k < spKey qd da ∨ spKey qd da + r.run ≤ k → memGet t.mem k = memGet s.mem k)

/-- COPY and FILL of one issue of at most a line with a global operand, whose home is at a key that is no window's: COPY from there to the core's
scratchpad; and, while the context's gates stand open (R323) and the line is no sync object's (R315), COPY from it to there and FILL there
(R211, R215, R219, R230). -/
def Parts.GlobalCopyResults : Prop :=
  ∀ (s : State) (r : Rec) (c : BitVec 32) (ea key : Nat), oneIssue r → s.ecc = [] → r.run ≤ 64 → ea % r.run = 0 →
    isControl (ea % 2 ^ 56) = false → isDevice key = false →
    (∀ q a, begins s 2 0x01 r c → runAt s r c r.a = .glob ea → runAt s r c r.d = .sp q a →
      resolve s s.cur (s.sc s.cur).ctx.toNat ea 4 = .ok key → completes (.copy r) s fun t =>
        t = { s with mem := t.mem, core := t.core } ∧ copied s.mem t.mem (spKey q a) key r.run ∧ started s c 0 false [] t ∧ semsKept s t) ∧
    (resolve s s.cur (s.sc s.cur).ctx.toNat ea 2 = .ok key → key % 64 = ea % 64 → isObjHome s key = false →
      gateOpen s (s.sc s.cur).ctx.toNat = true → runAt s r c r.d = .glob ea →
      (∀ q a, begins s 2 0x01 r c → runAt s r c r.a = .sp q a → completes (.copy r) s fun t =>
        copied s.mem t.mem key (spKey q a) r.run ∧ started s c 0 false [] t ∧ semsKept s t ∧
        ∀ k, (t.sc k).reg = (s.sc k).reg) ∧
      (begins s 2 0x02 r c → completes (.fill r) s fun t =>
        started s c 0 false [] t ∧ semsKept s t ∧ (∀ k, (t.sc k).reg = (s.sc k).reg) ∧
        (∀ j, j < r.run → memGet t.mem (key + j) = BitVec.ofNat 8 (r.mf 15 8)) ∧
        ∀ k, k < key ∨ key + r.run ≤ k → memGet t.mem k = memGet s.mem k))

/-- PUTRED of one issue to a scratchpad combines each element of the run at D with that of A and sets REDSTAT.OVF of the destination core if one
overflowed or clamped (R222, R327 to R329). MCAST copies its run to the same address of every core that the peer mask names (R223); a mask with a bit at or above
the team's size raises RECORD_INVALID with rule 12. SEMPOST adds 1 to DONE of its semaphore for each issue, and sets ERR if it asks (R225). -/
def Parts.ReduceAndMulticast : Prop :=
  ∀ (s : State) (r : Rec) (c : BitVec 32), s.ecc = [] →
    (∀ q a qa aa e, oneIssue r → begins s 2 0x12 r c → runAt s r c r.d = .sp q a → runAt s r c r.a = .sp qa aa → e = elemSize r.d.tag.toNat →
      completes (.putred r) s fun t =>
        t = { s with mem := t.mem, core := t.core } ∧ started s c 0 false [] t ∧
        (∀ j, j < r.run / e → rdN t.mem (spKey q a + e * j) e = (combineElem r.d.tag.toNat (r.mf 7 4) (rdN s.mem (spKey q a + e * j) e)
          (rdN s.mem (spKey qa aa + e * j) e)).1 % 256 ^ e) ∧
        (∀ k, k < spKey q a ∨ spKey q a + r.run ≤ k → memGet t.mem k = memGet s.mem k) ∧
        ((t.co q).redstat.getLsbD 0 = true ↔ (s.co q).redstat.getLsbD 0 = true ∨ ∃ j, j < r.run / e ∧
          (combineElem r.d.tag.toNat (r.mf 7 4) (rdN s.mem (spKey q a + e * j) e) (rdN s.mem (spKey qa aa + e * j) e)).2 = true)) ∧
    (oneIssue r → begins s 2 0x13 r c → ∀ m, m = rdN s.mem (spKey s.cur (spAt s r c r.b)) 32 →
      (m < 2 ^ teamSize s s.cur → ∀ qa aa, runAt s r c r.a = .sp qa aa → completes (.mcast r) s fun t =>
        t = { s with mem := t.mem, core := t.core } ∧ started s c 0 false [] t ∧
        (∀ l, l < 256 → m.testBit l = true → ∀ j, j < r.run →
          memGet t.mem (spKey (teamCore s s.cur l) r.d.origin + j) = memGet s.mem (spKey qa aa + j)) ∧
        ∀ k, (∀ l, l < 256 → m.testBit l = true →
            k < spKey (teamCore s s.cur l) r.d.origin ∨ spKey (teamCore s s.cur l) r.d.origin + r.run ≤ k) →
          memGet t.mem k = memGet s.mem k) ∧
      (2 ^ teamSize s s.cur ≤ m → completes (.mcast r) s fun t =>
        t.mem = s.mem ∧ (ringOf t 2#2).stopped = true ∧
        ∃ f : FaultRec, t.faults = s.faults ++ [f] ∧ f.cause = 0x23 ∧ f.detail = 12 ∧ f.phys = s.cur)) ∧
    (begins s 2 0x18 r c → completes (.sempost r) s fun t =>
      t = { s with core := t.core } ∧ started s c 0 false [] t ∧
      raised s t (teamCore s s.cur r.d.tile) (r.d.origin % 32) (nest r).length (r.mods.getLsbD 8))

/-- APUT of one issue, its tree loaded and bound or free to be bound (R302, R332): the tree is bound to the issuing core's team; a closed tree takes
the contribution and sends nothing (R304); an open one takes it, or, where an element would be a second round ahead, the issue waits: the
record has started and none of its issues has begun. A record that R302 forbids raises RECORD_INVALID with rule 12. -/
def Parts.ApertureResults : Prop :=
  ∀ (s : State) (r : Rec) (c : BitVec 32) (x : CopyRun) (s1 s2 : State) (qa aa : Nat), oneIssue r → s.ecc = [] → begins s 2 0x14 r c →
    x = copyRun s r c → s1 = pushFlight s s.cur 2#2 c 1 false → runAt s r c r.a = .sp qa aa →
    s2 = putTree s1 x.c (aputTree r) { treeRun s1 x.c (aputTree r) with team := teamNo s1 s.cur } →
    (aputOk s1 x = false → completes (.aput r) s fun t =>
      t.mem = s.mem ∧ t.trees = s.trees ∧ ∃ f : FaultRec, t.faults = s.faults ++ [f] ∧ f.cause = 0x23 ∧ f.detail = 12 ∧ f.phys = s.cur) ∧
    (aputOk s1 x = true → treeClosed s x.c (aputTree r) = true → completes (.aput r) s fun t =>
      t = { s with core := t.core, trees := s2.trees } ∧ started s c 0 false [] t) ∧
    (aputOk s1 x = true → treeClosed s x.c (aputTree r) = false →
      ∀ u, u = contribute s2 x.c (aputTree r) (s.lcoreOf s.cur)
        (spanElems r.d.tag.toNat (r.d.origin % 4096) r.run (rdN s.mem (spKey qa aa) r.run)) →
      (∀ v, u = some v → completes (.aput r) s fun t => t = endBody v s.cur 2#2 c ⟨[], 1⟩) ∧
      (u = none → completes (.aput r) s fun t => t.mem = s.mem ∧ t.trees = s2.trees ∧ ∃ f : Flight,
        (ringOf t 2#2).flight = (ringOf s 2#2).flight ++ [f] ∧ f.slot = c ∧ f.made = false ∧ f.idx = 0))

/-- NSEND, NWRITE, NREAD and NFLUSH of one issue over a connection that may be used: the message's packets join the outgoing ones (R226 to R229), where
it carries a payload once the package's buffers have room for it (log entry 97), of NREAD also the read that waits for its reply; a connection that may not be used ends the record with its status of Table 11.8 and sends
nothing (R217); a message to the package itself arrives at once, or waits for the earlier ones of its core in ordered mode (R431). -/
def Obligations.NetworkRecordResults : Prop :=
  ∀ (s : State) (r : Rec) (c : BitVec 32) (i : Instr) (op : Nat) (n : NetDesc),
    (i, op) ∈ [(.nsend r, 0x20), (.nwrite r, 0x21), (.nread r, 0x22), (.nflush r, 0x23)] → oneIssue r → s.ecc = [] → begins s 2 op r c →
    netDesc op (netWord s r c) = some n →
    (n.conn = 0xF_FFFF → bufferRoom s r.run = true → ∀ qa aa, runAt s r c r.a = .sp qa aa → completes i s fun t =>
      t = endBody (sendOwn (copyRun s r c) n (rdN s.mem (spKey qa aa) r.run)
        ((pushFlight s s.cur 2#2 c 1 false).upFlight s.cur 2#2 c fun f =>
          { f with blk := some (rdN s.mem (spKey s.cur (spAt s r c r.b)) 64) })) s.cur 2#2 c ⟨[], 1⟩) ∧
    (n.conn ≠ 0xF_FFFF → connStatus s (stream s).ctx.toNat n.conn n.mode = 0 → outgoingDistinct s (stream s).ctx.toNat n.conn →
      (op ≤ 0x21 → bufferRoom s r.run = true → ∀ qa aa, runAt s r c r.a = .sp qa aa → completes i s fun t =>
        messageQueued s t n.kind n.mode r.run r.run (rdN s.mem (spKey qa aa) r.run) (if n.kind = 2 then n.w1 else 0) n.key
          (if op = 0x21 then n.w1 else 0) ∧ (∀ a, t.sc a = s.sc a)) ∧
      (op = 0x22 → completes i s fun t =>
        messageQueued s t 7 n.mode r.run 0 0 0 n.key n.w1 ∧ (∀ a, t.sc a = s.sc a) ∧
        ∃ q : ReadReq, t.reads = s.reads ++ [q] ∧ q.conn = n.conn ∧ q.core = s.cur ∧ q.off = spAt s r c r.d ∧ q.len = r.run ∧ q.got = 0) ∧
      (op = 0x23 → completes i s fun t =>
        (∃ tag roff, messageQueued s t 8 n.mode 0 0 0 tag n.key roff) ∧ (∀ a, t.sc a = s.sc a))) ∧
    (n.conn ≠ 0xF_FFFF → connStatus s (stream s).ctx.toNat n.conn n.mode ≠ 0 → completes i s fun t =>
      t = { s with core := t.core } ∧ (∀ p, p ≠ s.cur → t.co p = s.co p) ∧
      ∃ f : Flight, (ringOf t 2#2).flight = (ringOf s 2#2).flight ++ [f] ∧ f.slot = c ∧ f.err = true ∧ f.pend = 0 ∧ f.made = true ∧
        f.stat = BitVec.ofNat 8 (connStatus s (stream s).ctx.toNat n.conn n.mode))

/-! ### The network (R217, R248 to R269) -/

/-- PACKET_ARRIVAL: a packet that no entry claims, and one that several claim, is refused and counted (R249, R262); one that was accepted before is
acknowledged again with no other effect, one beyond the window is dropped, and in ordered mode an early one is held where the buffers have room (R251; the size of the window is log entry 12, the room log entry 97, both DESIGN CHOICE); a whole send that
matches an entry of a resident core places its bytes there, is acknowledged, and advances the entry's milestone (R234, R263 to R265). -/
def Parts.PacketArrivals : Prop :=
  ∀ (s : State) (p : Packet),
    (claims s p = [] → completes (.packetArrival (some p)) s fun t =>
      t = { s with netBad := s.netBad + 1, out := s.out ++ [answerTo p 1 0] }) ∧
    (2 ≤ (claims s p).length → completes (.packetArrival (some p)) s fun t =>
      t = { s with netAmb := s.netAmb + 1, out := s.out ++ [answerTo p 1 0] }) ∧
    ∀ c n, reaches s c n p →
      (duplicate s c n p → p.op ≠ 8 → completes (.packetArrival (some p)) s fun t => t = { s with out := s.out ++ [answerTo p 0 0] }) ∧
      (¬duplicate s c n p → ((connRun s c n).mode p.mode).rxNext + 1 + Config.rxWindow < p.psn →
        completes (.packetArrival (some p)) s fun t => t = s) ∧
      (¬duplicate s c n p → p.mode = 1 → p.op ≠ 8 → (connRun s c n).m1.rxNext ≠ p.psn →
        p.psn ≤ (connRun s c n).m1.rxNext + 1 + Config.rxWindow → bufferRoom s p.data.length = true → completes (.packetArrival (some p)) s fun t =>
          t.out = s.out ++ [answerTo p 0 0] ∧ (connRun t c n).m1.held = (connRun s c n).m1.held ++ [p] ∧ t.mem = s.mem) ∧
      ∀ i l q, quiet s c n → ¬duplicate s c n p → p.mode = 0 → p.psn = (connRun s c n).m0.rxNext → p.op = 1 ∨ p.op = 2 → p.off = 0 →
        p.data.length = p.len → takeEntry s c { conn := n, op := p.op, tag := p.tag, key := 0 } = (some (i, l), s) → i ≠ 2 ^ 20 →
        bitsOf (lineWord l 7) 7 0 = 0 → p.len ≤ bitsOf (lineWord l 5) 12 0 → bitsOf (lineWord l 3) 63 56 = 1 →
        (s.cx c).residents[bitsOf (lineWord l 3) 55 48]? = some q → c < 64 → s.ecc = [] →
        completes (.packetArrival (some p)) s fun t =>
          rdN t.mem (spKey q (bitsOf (lineWord l 3) 21 0)) p.len = bytesNum p.data ∧ t.out = s.out ++ [answerTo p 0 0] ∧ t.rx = [] ∧
          t.incs = s.incs ++ (if bitsOf (lineWord l 6) 20 20 = 1 then [⟨c, bitsOf (lineWord l 6) 19 0, 1, none, some n⟩] else [])

/-- RMA_WRITE_ARRIVAL of a whole write whose key and range an entry accepts places its bytes and is acknowledged (R254, R268); RMA_READ_ARRIVAL of
such a read queues the reply with the bytes read and is acknowledged; with no key entry both are refused. FLUSH_ARRIVAL is acknowledged
once the writes that it covers have been placed, and waits until then (R255). -/
def Parts.RmaArrivals : Prop :=
  ∀ (s : State) (p : Packet) (c n : Nat), reaches s c n p → quiet s c n → ¬duplicate s c n p → p.mode = 0 →
    p.psn = (connRun s c n).m0.rxNext → c < 64 →
    (p.op = 6 → p.off = 0 → p.data.length = p.len →
      (takeKey s c n 6 p.key p.roff.toNat p.len = (none, s) → completes (.rmaWriteArrival p) s fun t =>
        t.mem = s.mem ∧ t.out = s.out ++ [answerTo p 1 0]) ∧
      ∀ i l q, takeKey s c n 6 p.key p.roff.toNat p.len = (some (i, l), s) → i ≠ 2 ^ 20 → bitsOf (lineWord l 3) 63 56 = 1 →
        (s.cx c).residents[bitsOf (lineWord l 3) 55 48]? = some q → s.ecc = [] → completes (.rmaWriteArrival p) s fun t =>
          rdN t.mem (spKey q (bitsOf (lineWord l 3) 21 0 + p.roff.toNat)) p.len = bytesNum p.data ∧ t.out = s.out ++ [answerTo p 0 0]) ∧
    (p.op = 7 →
      (takeKey s c n 7 p.key p.roff.toNat p.len = (none, s) → completes (.rmaReadArrival p) s fun t =>
        t.mem = s.mem ∧ t.tx = s.tx ∧ t.out = s.out ++ [answerTo p 1 0]) ∧
      ∀ i l q, takeKey s c n 7 p.key p.roff.toNat p.len = (some (i, l), s) → bitsOf (lineWord l 3) 63 56 = 1 →
        (s.cx c).residents[bitsOf (lineWord l 3) 55 48]? = some q → s.ecc = [] → outgoingDistinct s c n →
        completes (.rmaReadArrival p) s fun t =>
          messageQueued s t 10 p.mode p.len p.len (rdN s.mem (spKey q (bitsOf (lineWord l 3) 21 0 + p.roff.toNat)) p.len) 0 0
            (BitVec.ofNat 64 p.msg) ∧ t.out = s.out ++ [answerTo p 0 0]) ∧
    (p.op = 8 →
      (p.roff.toNat ≤ (connRun s c n).m0.rxNext → p.tag.toNat ≤ (connRun s c n).m1.rxNext → completes (.flushArrival p) s fun t =>
        t.out = s.out ++ [answerTo p 0 0] ∧ (connRun t c n).flushes = [] ∧ t.mem = s.mem) ∧
      ((connRun s c n).m1.rxNext < p.tag.toNat → completes (.flushArrival p) s fun t =>
        t.out = s.out ∧ (connRun t c n).flushes = [p] ∧ t.mem = s.mem))

/-- ACK_RECEIVED, every packet of the connection having been sent: the packet is outstanding no longer; SRTT takes the sample unless the packet was
sent again (R252); an unmarked one counts as clean bytes and, once a window's worth is clean, widens the window by a packet up to 4 MiB, a
marked one halves the window once a flight, to a packet's payload at least (R253). An acknowledgement of no outstanding packet has no effect. -/
def Parts.Acknowledgements : Prop :=
  ∀ (s : State) (conn mode psn : Nat) (marked : Bool),
    ((∀ u ∈ s.tx, ¬(u.ctx = s.cur ∧ u.conn = conn ∧ u.pkt.mode = mode ∧ u.pkt.psn = psn ∧ u.sent = true)) →
      completes (.ackReceived conn mode psn marked) s fun t => t = s) ∧
    ∀ t0 x w mtu, t0 ∈ s.tx → t0.ctx = s.cur → t0.conn = conn → t0.pkt.mode = mode → t0.pkt.psn = psn →
      (∀ u ∈ s.tx, u.ctx = s.cur → u.conn = conn → u.sent = true ∧ (u.pkt.mode = mode → u.pkt.psn = psn → u = t0)) → s.flags = [] →
      x = connRun s s.cur conn → w = connWord s s.cur conn 4 → mtu = connMtu s s.cur conn →
      completes (.ackReceived conn mode psn marked) s fun t =>
        t.tx = s.tx.filter (fun u => !(u.isMsg s.cur conn mode t0.pkt.msg && u.pkt.psn == psn)) ∧
        (connRun t s.cur conn).inflight = x.inflight - t0.bytes ∧
        connWord t s.cur conn 5 =
          (if t0.tries = 0 then (7 * connWord s s.cur conn 5 + (s.ns - t0.sentAt)) / 8 % 2 ^ 64 else connWord s s.cur conn 5) ∧
        (marked = false → w ≤ x.clean + t0.bytes →
          connWord t s.cur conn 4 = min (w + mtu) 4_194_304 ∧ (connRun t s.cur conn).clean = 0) ∧
        (marked = false → x.clean + t0.bytes < w → connWord t s.cur conn 4 = w ∧ (connRun t s.cur conn).clean = x.clean + t0.bytes) ∧
        (marked = true → (∀ h, x.hpsn = some h → h < psn) →
          connWord t s.cur conn 4 = max mtu (w / 2) ∧ (connRun t s.cur conn).clean = 0) ∧
        (marked = true → (∃ h, x.hpsn = some h ∧ psn ≤ h) → connWord t s.cur conn 4 = w)

/-- RETRANSMIT_TIMEOUT before the timeout has no effect; after it the packet counts as sent again, with twice the timeout, at most 1 ms, and the
window halves; after 16 tries the connection fails and nothing of it is outstanding (R252, R253). NEGATIVE_ACKNOWLEDGEMENT ends the message:
its packets go, and its copy record is to end in error (R217). -/
def Parts.RetransmissionAndRefusal : Prop :=
  ∀ (s : State) (conn mode psn : Nat) (t0 : Tx), t0 ∈ s.tx → t0.ctx = s.cur → t0.conn = conn → t0.pkt.mode = mode → t0.pkt.psn = psn →
    t0.sent = true → (∀ u ∈ s.tx, u.ctx = s.cur → u.conn = conn → u.pkt.mode = mode → u.pkt.psn = psn → u = t0) →
    (s.ns < t0.sentAt + t0.rto → completes (.retransmitTimeout conn mode psn) s fun t => t = s) ∧
    (t0.sentAt + t0.rto ≤ s.ns → t0.tries < 16 → completes (.retransmitTimeout conn mode psn) s fun t =>
      t.tx = s.tx.map (fun u => if u.isMsg s.cur conn mode t0.pkt.msg = true ∧ u.pkt.psn = psn then
        { t0 with tries := t0.tries + 1, sentAt := s.ns, rto := min (2 * t0.rto) 1_000_000 } else u) ∧
      ((∀ h, (connRun s s.cur conn).hpsn = some h → h < psn) →
        connWord t s.cur conn 4 = max (connMtu s s.cur conn) (connWord s s.cur conn 4 / 2)) ∧
      ∀ a, t.sc a = s.sc a) ∧
    (t0.sentAt + t0.rto ≤ s.ns → 16 ≤ t0.tries → s.flags = [] → completes (.retransmitTimeout conn mode psn) s fun t =>
      connState t s.cur conn = 2 ∧ ∀ u ∈ t.tx, ¬(u.ctx = s.cur ∧ u.conn = conn)) ∧
    (s.flags = [] → t0.pkt.op ∈ [1, 2, 6, 7, 8] → completes (.negativeAcknowledgement conn mode psn) s fun t =>
      (∀ u ∈ t.tx, u.isMsg s.cur conn mode t0.pkt.msg = false) ∧
      ∀ q slot, t0.origin = .record q slot → ∀ f ∈ (s.co q).cq.flight, f.slot = slot →
        ∃ g ∈ (t.co q).cq.flight, g.slot = slot ∧ g.err = true)

/-! ### Milestones, handlers and drain requests (R235 to R246, R269 to R276) -/

/-- MILESTONE_INCREMENT: COUNT becomes (COUNT + v) mod 2^64; where that takes COUNT from below THRESH to THRESH or above, in a LIVE context, the
milestone's operation list starts; otherwise nothing starts (R270, R272), in a context that is not LIVE neither: its operations are discarded (R389). An increment of a
milestone that is not the context's has no effect, which R270 does not say: it is the model's reading (log entry 33, DEDUCED). One of
an ordered mode waits for those of the earlier messages (R251). -/
def Parts.MilestoneIncrements : Prop :=
  ∀ (s : State) (k c m : Nat) (v : Word) (lane conn : Option Nat) (old new thresh : Nat) (ops : List Word),
    s.incs[k]? = some ⟨c, m, v, lane, conn⟩ → m < 524288 →
    old = rdN s.mem (msKey m) 8 → thresh = rdN s.mem (msKey m + 8) 8 → new = (old + v.toNat) % 2 ^ 64 →
    ops = opList (rdN s.mem (winKey (64 * m)) 64) →
    (lane ≠ none → (∃ i ∈ s.incs.take k, i.lane = lane) → completes (.milestoneIncrement k) s fun t => t = s) ∧
    ((lane = none ∨ ∀ i ∈ s.incs.take k, i.lane ≠ lane) →
    (allotted s c .milestone m = false → completes (.milestoneIncrement k) s fun t => t = { s with incs := s.incs.eraseIdx k }) ∧
    (allotted s c .milestone m = true → ¬(old < thresh ∧ thresh ≤ new) → completes (.milestoneIncrement k) s fun t =>
      t = { s with incs := s.incs.eraseIdx k, mem := t.mem, scal := t.scal } ∧ rdN t.mem (msKey m) 8 = new ∧ memBut s t (msKey m) 8 ∧
      allRegsKept s t) ∧
    (allotted s c .milestone m = true → old < thresh → thresh ≤ new → ctxLive s c = false → collIn s c 1 = [] → completes (.milestoneIncrement k) s fun t =>
      t = { s with incs := s.incs.eraseIdx k, mem := t.mem, scal := t.scal } ∧ rdN t.mem (msKey m) 8 = new ∧ memBut s t (msKey m) 8 ∧
      allRegsKept s t) ∧
    (allotted s c .milestone m = true → old < thresh → thresh ≤ new → ctxLive s c = true → collIn s c 1 = [] → c < 64 →
      (∀ w ∈ ops, opCode w < 7) → completes (.milestoneIncrement k) s fun t =>
        rdN t.mem (msKey m) 8 = new ∧ memBut s t (msKey m) 8 ∧ allRegsKept s t ∧
        t.fired = s.fired ++ (if ops = [] then [] else [{ ctx := c, ms := m, idx := 0, ops := ops }])))

/-- LAUNCH, COPY, SEND, RAISE, MSADD and HANDLER of the subject milestone's next operation, each with a block that passes its checks (Table 14.5, R272):
the work item enters the pool, the record enters the resident core's copy queue, the message is sent, DONE of the semaphore is one higher, the
increment is on its way (none where its value is 0), the event is queued; and the list goes on. A misaligned block skips the operation with reason 1. A SEND that waits for its
connection's window, or for room in the buffers (log entry 97), holds back no other list. -/
def Parts.TriggeredOperations : Prop :=
  ∀ (s : State) (op : Nat) (f : Fired) (arg v : Nat) (l r : List Fired), nextOp s op f arg l r →
    (op = 1 → blockAt s f arg 64 v → arg % 64 = 0 → ∀ w : BitVec 512, w.toNat = v →
      (itemCtx w ≠ f.ctx → completes .launch s fun t => opDone f l r t ∧ t.pool = s.pool ∧ skipRecorded s f 3 t) ∧
      (itemCtx w = f.ctx → firstBad (itemChecks s f.ctx w) = none → taking s = true → poolRoom s f.ctx = true →
        completes .launch s fun t => opDone f l r t ∧ t.pool.map (·.item) = s.pool.map (·.item) ++ [w] ∧ t.opened = s.opened ∧ t.spills = s.spills)) ∧
    (op = 2 → blockAt s f arg 128 v → arg % 64 = 0 →
      (residentTask s f.ctx (blockWord v 8 % 256) = none → completes .triggeredCopy s fun t => opDone f l r t ∧ skipRecorded s f 4 t) ∧
      ∀ p x (w : BitVec 512), residentTask s f.ctx (blockWord v 8 % 256) = some p → x = (s.co p).cq → x.count ≠ 0 → v / 2 ^ 520 = 0 →
        w = BitVec.ofNat 512 v → w.extractLsb' 60 4 = 2#4 → wordsBroken (judgeOf s p 2 false) w = 0 → x.full = false →
        (s.co p).rolling = false → s.ecc = [] → completes .triggeredCopy s fun t =>
          opDone f l r t ∧ rdN t.mem (spKey p (x.slot x.tail)) 64 = w.toNat ∧ memBut s t (spKey p (x.slot x.tail)) 64 ∧
          (t.co p).cq.tail = x.tail + 1 ∧ (t.co p).cq.head = x.head ∧ (t.co p).cq.flight = x.flight ∧
          (t.co p).trigs = (if (s.co p).ckpt.isSome then (s.co p).trigs ++ [w] else (s.co p).trigs)) ∧
    (op = 3 → blockAt s f arg 64 v → arg % 64 = 0 → sendBlockOk (blockWord v) = true → ∀ conn mode kind data,
      conn = bitsOf (blockWord v 0) 63 44 → mode = bitsOf (blockWord v 0) 15 8 → kind = blockWord v 0 % 256 →
      (connStatus s f.ctx conn mode = 3 → completes .send s fun t => opDone f l r t ∧ t.tx = s.tx ∧ skipRecorded s f 6 t) ∧
      (connStatus s f.ctx conn mode = 0 → windowOpen s f.ctx conn (blockWord v 5) = false ∨ bufferRoom s (blockWord v 5) = false →
        ((∀ g ∈ r, ¬(g.ms = s.cur ∧ g.ops.head?.map opCode = some 3)) → completes .send s fun t => t = s) ∧
        ∀ r1 g r2 w ws, r = r1 ++ g :: r2 → g.ms = s.cur → (∀ h ∈ r1, ¬(h.ms = s.cur ∧ h.ops.head?.map opCode = some 3)) → g.ops = w :: ws →
          opCode w = 3 → opArg w % 64 ≠ 0 → (∀ u ∈ ws, opCode u < 7) → completes .send s fun t =>
            opDone g (l ++ f :: r1) r2 t ∧ skipRecorded s g 1 t) ∧
      (connStatus s f.ctx conn mode = 0 → windowOpen s f.ctx conn (blockWord v 5) = true → bufferRoom s (blockWord v 5) = true → outgoingDistinct s f.ctx conn →
        globalRead 0xFFFF f.ctx (lineFuel (blockWord v 5)) (blockWord v 4) (blockWord v 5) s = .ok (data, false, s) →
        completes .send s fun t => opDone f l r t ∧
          messageQueued s t kind mode (blockWord v 5) (blockWord v 5) data (if kind = 2 then BitVec.ofNat 64 (blockWord v 1) else 0) 0 0)) ∧
    (op = 4 → blockAt s f arg 16 v → arg % 16 = 0 →
      ∀ p, residentTask s f.ctx (blockWord v 0 % 256) = some p → blockWord v 0 / 2 ^ 17 = 0 → bitsOf (blockWord v 0) 15 13 = 0 →
        blockWord v 1 = 0 → completes .raise s fun t => opDone f l r t ∧ t = { s with core := t.core, fired := t.fired } ∧
          raised s t p (bitsOf (blockWord v 0) 12 8) 1 (bitsOf (blockWord v 0) 16 16 == 1)) ∧
    (op = 5 → blockAt s f arg 16 v → arg % 16 = 0 → blockWord v 0 < 2 ^ 20 → allotted s f.ctx .milestone (blockWord v 0) = true →
      completes .msadd s fun t => opDone f l r t ∧
        t = { s with fired := t.fired, incs := s.incs ++
          (if blockWord v 1 = 0 then [] else [⟨f.ctx, blockWord v 0, BitVec.ofNat 64 (blockWord v 1), none, none⟩]) }) ∧
    (op = 6 → blockAt s f arg 16 v → arg % 16 = 0 → blockWord v 1 = 0 →
      (handlerEntry s f.ctx 2 = 0#64 → completes .handler s fun t => opDone f l r t ∧ t.ctxs = s.ctxs ∧ memBut s t (tsKey f.ctx 4) 8) ∧
      (handlerEntry s f.ctx 2 ≠ 0#64 → eventRoom s f.ctx 2 = false → (∀ g ∈ r, ¬(g.ms = s.cur ∧ g.ops.head?.map opCode = some 6)) →
        completes .handler s fun t => t = s) ∧
      (handlerEntry s f.ctx 2 ≠ 0#64 → eventRoom s f.ctx 2 = true → completes .handler s fun t =>
        opDone f l r t ∧ t = { s with ctxs := t.ctxs, fired := t.fired } ∧
        ∃ e : Ev, (t.cx f.ctx).events = (s.cx f.ctx).events ++ [e] ∧ e.kind = 2 ∧ e.arg = BitVec.ofNat 64 (blockWord v 0) ∧ e.ptime = s.ns)) ∧
    (arg % 16 ≠ 0 → ∀ i : Instr, (i, op) ∈ [(.launch, 1), (.triggeredCopy, 2), (.send, 3), (.raise, 4), (.msadd, 5), (.handler, 6)] →
      completes i s fun t => opDone f l r t ∧ skipRecorded s f 1 t)

/-- HANDLER_START: a free thread takes the oldest event of the context whose turn it is (R240, R241): its local store holds the event block and a KIND 1
payload, s4, s5 and s62 hold KIND, ARG and 0x4000, every other register zero, the pc is the handler table's entry and TVEC entry 0 (R244), both multiples of 8 (R29, R84).
That every word of the event block that Table 13.2 does not assign is zero, and which context's turn it is (pickContext), is the model's reading (log entries 57 and 58, DEDUCED).
No other handler of the context starts until this one has begun its first instruction (R243, R245). HANDLER_WATCHDOG stops a handler beyond its limit, which counts from its first instruction, with
WATCHDOG (R246). -/
def Parts.HandlerStartsAndStops : Prop :=
  ∀ (s : State), isThread s.cur = true →
    (∀ c turn e es n, (stream s).run = .idle → pickContext s = some (c, turn) → (s.cx c).events = e :: es → e.kind < 8 → n = s.cur - 4096 →
      completes .handlerStart s fun t =>
        (stream t).run = .running ∧ (stream t).ctx.toNat = c ∧ (stream t).pc = align8 (handlerEntry s c e.kind) ∧ (stream t).tvec = align8 (handlerEntry s c 0) ∧
        (stream t).reg 62#6 = 0x4000#64 ∧ (stream t).reg 4#6 = BitVec.ofNat 64 e.kind ∧ (stream t).reg 5#6 = e.arg ∧
        (∀ r, r ∉ [4#6, 5#6, 62#6] → (stream t).reg r = 0#64) ∧ (stream t).status = 0#64 ∧
        (∀ a, a ≠ s.cur → t.sc a = s.sc a) ∧ (t.cx c).events = es ∧ t.turnCtx = turn ∧ (stream t).fresh = true ∧ handlerFresh t c = true ∧
        rdN t.mem (tlsKey n 0) 256 = wordsNat (eventWords c e) ∧
        (e.kind = 1 → rdN t.mem (tlsKey n 0x1000) (min e.len 4096) = e.data % 256 ^ min e.len 4096) ∧
        ((stream s).ctx.toNat ≠ c → ∀ o, 256 ≤ o → o < 0x4000 → ¬(e.kind = 1 ∧ 0x1000 ≤ o ∧ o < 0x1000 + min e.len 4096) →
          memGet t.mem (tlsKey n o) = 0#8) ∧
        ∀ k, k < tlsKey n 0 ∨ tlsKey n 0x4000 ≤ k → memGet t.mem k = memGet s.mem k) ∧
    ((stream s).run = .running →
      ((stream s).fresh = true → completes .handlerWatchdog s fun t => t = s) ∧
      ((stream s).fresh = false → hwdNs s (stream s).ctx.toNat < s.ns - (stream s).wd / 21 → savingCtx s (stream s).ctx.toNat = false →
        completes .handlerWatchdog s fun t =>
          t.mem = s.mem ∧ onlyStream { s with faults := t.faults, objs := t.objs } t ∧
          (∀ k, (objAt t k).holders = (objAt s k).holders ∧ (objAt t k).queue = (objAt s k).queue) ∧ (stream t).run = .halted ∧ (stream t).pc = (stream s).pc ∧
          ∃ f : FaultRec, t.faults = s.faults ++ [f] ∧ f.ctx = (stream s).ctx ∧ f.typ = 4 ∧ f.cause = 0x2C ∧ f.detail = 1 ∧
            f.phys = s.cur - 4096 ∧ f.val = (stream s).event.headD 0) ∧
      (s.ns - (stream s).wd / 21 ≤ hwdNs s (stream s).ctx.toNat → completes .handlerWatchdog s fun t => t = s))

/-- DRAINREQ_WRITE of the subject context joins its drain requests, in the order of their stores, with the messages matched until then.
DRAIN_REQUEST_DONE stores the oldest one's value to its DRAINED word once every message matched before it has been placed and counted, or has failed,
and not before (R276). -/
def Parts.DrainRequests : Prop :=
  ∀ (s : State),
    (∀ v rest, nextAct s (fun a => ∃ w, a = .drainreq s.cur w) (.drainreq s.cur v) rest → completes .drainreqWrite s fun t =>
      t = { s with acts := rest, ctxs := t.ctxs } ∧ (t.cx s.cur).drains = (s.cx s.cur).drains ++ [(v.toNat, s.rxId)] ∧
      ∀ c, c ≠ s.cur → t.cx c = s.cx c) ∧
    ∀ v n ds, (s.cx s.cur).drains = (v, n) :: ds → v < 2 ^ 64 →
      ((∀ m ∈ s.rx, m.ctx = s.cur → m.ent ≠ 2 ^ 20 → m.failed = false → n ≤ m.id) → (∀ i ∈ s.incs, i.ctx ≠ s.cur) →
        completes .drainRequestDone s fun t =>
          rdN t.mem (tsKey s.cur 6) 8 = v ∧ (t.cx s.cur).drains = ds ∧ memBut s t (tsKey s.cur 6) 8 ∧ allRegsKept s t) ∧
      ((∃ m ∈ s.rx, m.ctx = s.cur ∧ m.ent ≠ 2 ^ 20 ∧ m.failed = false ∧ m.id < n) → completes .drainRequestDone s fun t => t = s)

/-! ### The host port (R257 to R261, R421 to R425) -/

/-- HOST_RING_DOORBELL writes RTAIL; on an enabled ring a TAIL more than the ring's size beyond HEAD puts the ring into error. HOST_RING_ENABLE of a
disabled ring with a LIVE context, a size of 2^4 to 2^16 and a host connection entry that names the ring enables it with RHEAD 0, STATE 1 or, where RTAIL is more than the ring's size,
STATE 3; otherwise STATE 3 and EN 0; of an enabled ring only a write that clears EN acts. BAR0_REGISTER_WRITE writes RBASE and RSIZE of a disabled ring
and the attestation nonce (R258, R425). That clearing EN gives STATE 0, and that TAIL is checked only on an enabled ring or as one is enabled, is the model's reading
(log entry 60, DEDUCED). -/
def Parts.HostRingRegisters : Prop :=
  ∀ (s : State) (v : Word) (r : Nat), s.cur = r → r < 256 →
    completes (.hostRingDoorbell v) s (fun t =>
      ringReg t r 2 = v.toNat % 2 ^ 32 ∧ (∀ w, w ∈ [0, 1, 3] → ringReg t r w = ringReg s r w) ∧ t = { s with mem := t.mem } ∧
      ((ringEn s r = true ∧ tailOk s r (v.toNat % 2 ^ 32) = false → ringState t r = 3) ∧
       (ringEn s r = false ∨ tailOk s r (v.toNat % 2 ^ 32) = true → ringReg t r 4 = ringReg s r 4))) ∧
    (ringEn s r = false → v.getLsbD 63 = true →
      (ctxLive s (bitsOf v.toNat 19 14) = true → 4 ≤ ringReg s r 1 % 32 → ringReg s r 1 % 32 ≤ 16 →
        hostConnOk s (bitsOf v.toNat 19 14) (bitsOf v.toNat 31 20) r = true → completes (.hostRingEnable v) s fun t =>
          ringEn t r = true ∧ ringState t r = (if ringReg s r 2 % 2 ^ 32 ≤ 2 ^ (ringReg s r 1 % 32) then 1 else 3) ∧ ringReg t r 3 = 0 ∧ ringCtx t r = bitsOf v.toNat 19 14 ∧
          ringConn t r = bitsOf v.toNat 31 20 ∧ ringPasid t r = bitsOf v.toNat 51 32 ∧ memBut s t (ringKey r 3) 16) ∧
      (ctxLive s (bitsOf v.toNat 19 14) = false ∨ ringReg s r 1 % 32 < 4 ∨ 16 < ringReg s r 1 % 32 ∨
          hostConnOk s (bitsOf v.toNat 19 14) (bitsOf v.toNat 31 20) r = false → completes (.hostRingEnable v) s fun t =>
        ringEn t r = false ∧ ringState t r = 3 ∧ memBut s t (ringKey r 4) 8)) ∧
    (ringEn s r = true → completes (.hostRingEnable v) s fun t =>
      (v.getLsbD 63 = true → t = s) ∧ (v.getLsbD 63 = false → ringEn t r = false ∧ ringState t r = 0 ∧ memBut s t (ringKey r 4) 8)) ∧
    (ringEn s r = false → completes (.bar0RegisterWrite (0x1_0000 + 64 * r) v) s (fun t =>
        ringReg t r 0 = v.toNat / 4096 * 4096 ∧ memBut s t (ringKey r 0) 8) ∧
      completes (.bar0RegisterWrite (0x1_0008 + 64 * r) v) s (fun t => ringReg t r 1 = v.toNat % 32 ∧ memBut s t (ringKey r 1) 8)) ∧
    (ringEn s r = true → completes (.bar0RegisterWrite (0x1_0000 + 64 * r) v) s (fun t => t = s) ∧
      completes (.bar0RegisterWrite (0x1_0008 + 64 * r) v) s fun t => t = s) ∧
    ∀ j, j < 4 → completes (.bar0RegisterWrite (0x108 + 8 * j) v) s fun t =>
      rdN t.mem (hostKey (0x108 + 8 * j)) 8 = v.toNat ∧ memBut s t (hostKey (0x108 + 8 * j)) 8

/-- HOST_RING_FETCH completes the oldest outstanding request of the subject ring's fetcher, which is outstanding no longer (R260); with none nothing
happens, and what arrives for a ring that has stopped or is empty is discarded (R261). Translations enter the cache, and the fetcher goes on to read, or
to ask for those that are still missing (R260). A request that failed, and an entry that R259 forbids, stop the ring in error and interrupt the host; an entry for a
context that takes nothing in is passed over (log entry 60, DEDUCED); an entry with its payload elsewhere has it read (R259); a send that matches an entry of a resident
core lands there with the payload of the entry, or with the payload that was read, and HEAD advances (R259, R263 to R265). -/
def Parts.HostRingFetches : Prop :=
  ∀ (s : State) (r h : Nat) (data : Option Nat), s.cur = r → r < 256 → h = ringReg s r 3 → h < 2 ^ 32 →
    (∀ x, (∀ q ∈ s.hostReads, q.ring ≠ r) → completes (.hostRingFetch x data) s fun t => t = s) ∧
    ∀ q, s.hostReads.find? (fun q => q.ring == r) = some q →
    (∀ x, q.live = false ∨ ringEn s r = false ∨ ringState s r ≠ 1 ∨ h = ringReg s r 2 → completes (.hostRingFetch x data) s fun t =>
      t = { s with hostReads := t.hostReads, inval := t.inval, invalDone := t.invalDone } ∧
      ∀ u : HostRead, u ∈ t.hostReads ↔ u ∈ s.hostReads ∧ u.ring ≠ r) ∧
    (q.live = true → ringEn s r = true → ringState s r = 1 → h ≠ ringReg s r 2 →
      (q.trans = true → ∀ e, completes (.hostRingFetch (some e) data) s fun t =>
        (∀ g, q.pages = [g] → (q.pasid, g) ∈ t.atc) ∧ t.mem = s.mem ∧
        ∃ u : HostRead, t.hostReads = s.hostReads.filter (fun q => q.ring != r) ++ [u] ∧ u.ring = r ∧ u.entry = q.entry ∧ u.live = true ∧
          (u.trans = false → ∀ g ∈ u.pages, (u.pasid, g) ∈ t.atc) ∧ (u.trans = true → ∀ g ∈ u.pages, (u.pasid, g) ∉ t.atc)) ∧
      (∀ x, (q.trans = true ∧ x = none) ∨ (q.trans = false ∧ q.entry = none ∧ (x = none ∨ ∃ e, x = some e ∧ ringEntryOk e = false)) ∨
          (q.trans = false ∧ q.entry ≠ none ∧ data = none) → completes (.hostRingFetch x data) s fun t =>
        ringState t r = 3 ∧ t.msix = s.msix ++ [r] ∧ ringReg t r 3 = h ∧ memBut s t (ringKey r 4) 8) ∧
      (∀ e, q.trans = false → q.entry = none → ringEntryOk e = true → entryInl e = false → entryLen e ≠ 0 →
        completes (.hostRingFetch (some e) data) s fun t => t.mem = s.mem ∧
          ∃ u : HostRead, t.hostReads = s.hostReads.filter (fun q => q.ring != r) ++ [u] ∧ u.ring = r ∧ u.entry = some e ∧ u.live = true) ∧
      ∀ (e : RingEntry) (x : Option RingEntry), q.trans = false →
        (q.entry = none ∧ x = some e ∧ ringEntryOk e = true ∧ entryInl e = true) ∨ (q.entry = some e ∧ entryInl e = false ∧ data ≠ none) →
        (admits s (ringCtx s r) = false → completes (.hostRingFetch x data) s fun t =>
          ringReg t r 3 = (h + 1) % 2 ^ 32 ∧ memBut s t (ringKey r 3) 8) ∧
        ∀ i l c, admits s (ringCtx s r) = true → connAborted s (ringCtx s r) (ringConn s r) = false → s.rx = [] → s.ecc = [] →
          entryLen e ≤ 4096 → takeEntry s (ringCtx s r)
            { conn := ringConn s r, op := entryWord e 0, tag := if entryWord e 0 = 2 then BitVec.ofNat 64 (entryWord e 1) else 0, key := 0 } = (some (i, l), s) →
          i ≠ 2 ^ 20 → bitsOf (lineWord l 7) 7 0 = 0 → entryLen e ≤ bitsOf (lineWord l 5) 12 0 → bitsOf (lineWord l 3) 63 56 = 1 →
          (s.cx (ringCtx s r)).residents[bitsOf (lineWord l 3) 55 48]? = some c → c < 2304 →
          completes (.hostRingFetch x data) s fun t =>
            rdN t.mem (spKey c (bitsOf (lineWord l 3) 21 0)) (entryLen e) =
              (if entryInl e then (e.extractLsb' 256 256).toNat else data.getD 0) % 2 ^ (8 * entryLen e) ∧
            ringReg t r 3 = (h + 1) % 2 ^ 32 ∧ ringState t r = 1 ∧ t.rx = [] ∧
            t.incs = s.incs ++ (if bitsOf (lineWord l 6) 20 20 = 1 then [⟨ringCtx s r, bitsOf (lineWord l 6) 19 0, 1, some (ringCtx s r * 2 ^ 20 + ringConn s r), some (ringConn s r)⟩] else []))

/-- ATS_INVALIDATION removes a PASID's translations of the named pages from the cache; it completes at once unless a read issued with one of them is
outstanding, and then waits for it (R260). PASID_TEARDOWN stops the PASID's rings,
removes its translations, discards what its reads still bring, and starts the kill of their contexts; a write without START, or while one is under way, has no effect.
PASID_TEARDOWN_DONE ends it once those contexts are free or being zeroed and every read of the PASID has completed or is older than 10 ms, and
not before (R261). -/
def Parts.PasidTeardown : Prop :=
  ∀ (s : State),
    (∀ pasid lo hi, completes (.atsInvalidation pasid lo hi) s fun t =>
      t = { s with atc := t.atc, inval := t.inval, invalDone := t.invalDone } ∧
      (∀ e : Nat × Nat, e ∈ t.atc ↔ e ∈ s.atc ∧ ¬(e.1 = pasid ∧ lo ≤ e.2 ∧ e.2 ≤ hi)) ∧
      ((∀ q ∈ s.hostReads, ¬(q.trans = false ∧ q.pasid = pasid ∧ ∃ g ∈ q.pages, lo ≤ g ∧ g ≤ hi)) → (pasid, lo, hi) ∈ t.invalDone) ∧
      ((∃ q ∈ s.hostReads, q.trans = false ∧ q.pasid = pasid ∧ ∃ g ∈ q.pages, lo ≤ g ∧ g ≤ hi) → (pasid, lo, hi) ∈ t.inval)) ∧
    (∀ v : Word, v.getLsbD 63 = true → bitsOf (rdN s.mem pasidStat 8) 63 63 = 0 → completes (.pasidTeardown v) s fun t =>
      rdN t.mem pasidStat 8 = 2 ^ 63 + v.toNat % 2 ^ 20 ∧
      (∀ r, r < 256 → ringPasid s r = v.toNat % 2 ^ 20 → ringReg s r 4 ≠ 0 →
        ringEn t r = false ∧ ringState t r = 2 ∧ (ctxState s (ringCtx s r) = 1 ∨ ctxState s (ringCtx s r) = 2 →
          ringCtx s r ∈ t.pasidCtx ∧ ∃ f ∈ t.faults, f.ctx = BitVec.ofNat 6 (ringCtx s r) ∧ f.cause = 0x30) ∧
        (ctxState s (ringCtx s r) = 3 → ringCtx s r ∈ t.pasidCtx)) ∧
      (∀ r, r < 256 → ringPasid s r ≠ v.toNat % 2 ^ 20 → ringReg t r 4 = ringReg s r 4) ∧
      ∀ e : Nat × Nat, e ∈ t.atc ↔ e ∈ s.atc ∧ e.1 ≠ v.toNat % 2 ^ 20) ∧
    (∀ v : Word, v.getLsbD 63 = false ∨ bitsOf (rdN s.mem pasidStat 8) 63 63 = 1 → completes (.pasidTeardown v) s fun t => t = s) ∧
    (bitsOf (rdN s.mem pasidStat 8) 63 63 = 1 →
      ((∀ c ∈ s.pasidCtx, ctxState s c = 0 ∨ ctxState s c = 4) →
        (∀ q ∈ s.hostReads, q.pasid = rdN s.mem pasidStat 8 % 2 ^ 20 → q.since + 10_000_000 ≤ s.ns) → completes .pasidTeardownDone s fun t =>
        rdN t.mem pasidStat 8 = 2 ^ 62 + rdN s.mem pasidStat 8 % 2 ^ 20 ∧ t.pasidCtx = [] ∧ memBut s t pasidStat 8) ∧
      ((∃ c ∈ s.pasidCtx, ctxState s c ≠ 0 ∧ ctxState s c ≠ 4) ∨
          (∃ q ∈ s.hostReads, q.pasid = rdN s.mem pasidStat 8 % 2 ^ 20 ∧ s.ns < q.since + 10_000_000) → completes .pasidTeardownDone s fun t => t = s))

/-! ### Work items, the dispatcher and teams (R280 to R301, R392 to R397) -/

/-- WORK_ITEM_COMPLETE: where a word is named for it, the time and the status are stored there; then COUNT of the completion milestone rises by 1,
and only then a callback that the item asks for is queued as a KIND 3 event (R282, R283). An item of a context that takes nothing in disappears (R404). -/
def Parts.WorkItemCompletions : Prop :=
  ∀ (s : State) (k : Nat) (w : BitVec 512) (st : Nat) (c : Nat) (u : State), s.ended[k]? = some (w, st) → st < 256 → c = itemCtx w →
    u = (match itemCms w with | some m => increment s c m 1 | none => s) →
    (admits s c = false → completes (.workItemComplete k) s fun t => t = { s with ended := s.ended.eraseIdx k }) ∧
    (admits s c = true → itemWord w 5 = 0 →
      (wantsCallback w st = false → completes (.workItemComplete k) s fun t =>
        t = { u with ended := s.ended.eraseIdx k }) ∧
      (wantsCallback w st = true → handlerEntry u c 3 ≠ 0#64 → eventRoom u c 3 = true → completes (.workItemComplete k) s fun t =>
        t = { u with ended := s.ended.eraseIdx k, ctxs := t.ctxs } ∧
        ∃ e : Ev, (t.cx c).events = (s.cx c).events ++ [e] ∧ e.kind = 3 ∧ e.ptime = s.ns ∧
          e.arg.toNat = bitsOf (itemWord w 4) 63 32 * 2 ^ 32 + st * 2 ^ 24 + itemQueue w)) ∧
    ∀ key, admits s c = true → wantsCallback w st = false → itemWord w 5 ≠ 0 → itemWord w 5 % 8 = 0 → s.ecc = [] →
      resolve s 0xFFFF c (itemWord w 5) 2 = .ok key → isDevice key = false → key % 64 = itemWord w 5 % 64 →
      isObjHome s key = false →
      (∀ m, itemCms w = some m → m < 524288 ∧ allotted s c .milestone m = true ∧
        ¬(rdN s.mem (msKey m) 8 < rdN s.mem (msKey m + 8) 8 ∧ rdN s.mem (msKey m + 8) 8 ≤ (rdN s.mem (msKey m) 8 + 1) % 2 ^ 64)) →
      completes (.workItemComplete k) s fun t =>
        rdN t.mem key 8 = s.ns % 2 ^ 56 * 256 + st ∧ (∀ m, itemCms w = some m → rdN t.mem (msKey m) 8 = (rdN s.mem (msKey m) 8 + 1) % 2 ^ 64) ∧
        (∀ a, a < key ∨ key + 8 ≤ a → (∀ m, itemCms w = some m → a < msKey m ∨ msKey m + 8 ≤ a) → memGet t.mem a = memGet s.mem a) ∧
        allRegsKept s t ∧ t.ended = s.ended.eraseIdx k ∧ t.incs = s.incs ∧ t.fired = s.fired

/-- DISPATCH with one work item in the pool, the head of queue q: one whose deadline has passed completes with status 1 and is not placed (R291); one
that can be placed in a single team leaves the pool, VT becomes the queue's PASS, PASS rises by max(1, 2^20 / TICKETS) (R289), and its team
is formed on the chosen die and cores with every task at the kernel's entry, s62 0x40_0000 (R37, R286, R292). -/
def Parts.DispatcherChooses : Prop :=
  ∀ (s : State) (i : PoolItem) (q c : Nat), s.pool = [i] → s.spills = [] → i.head.isSome = true → q = itemQueue i.item → c = itemCtx i.item →
    ctxLive s c = true →
    (itemLate s i.item = true → completes .dispatch s fun t =>
      t.pool = [] ∧ t.ended = s.ended ++ [(i.item, 1)] ∧ t.team = s.team ∧ allRegsKept s t) ∧
    ∀ d ps, itemLate s i.item = false → i.read.status = 0 → neverFits s i.item (kdUse i.read.kdesc) = false → queueBlocked s q = false →
      placeItem s q i.item (kdUse i.read.kdesc) = some [(d, ps)] → itemTeams i.item = 1 → ps.Nodup → q ∈ s.ran → completes .dispatch s fun t =>
        t.pool = [] ∧ t.ended = s.ended ∧ t.vt = queuePass s q ∧
        queuePass t q = (queuePass s q + max 1 (2 ^ 20 / tickets s q)) % 2 ^ 64 ∧ t.teamNo = s.teamNo + 1 ∧
        (∃ x, t.tm s.teamNo = some x ∧ x.cores = ps ∧ x.die = d ∧ x.item = i.item ∧ x.size = itemTasks i.item ∧ x.ctx = BitVec.ofNat 6 c ∧
          x.done = 0 ∧ x.suspended = none ∧ x.ended = false) ∧
        ∀ l p, ps[l]? = some p → (t.co p).task = some ⟨s.teamNo, l⟩ ∧ (t.sc p).ctx = BitVec.ofNat 6 c ∧
          (t.sc p).pc = align8 (BitVec.ofNat 64 (kdWord i.read.kdesc 0 + kdWord i.read.kdesc 1)) ∧ (t.sc p).reg 62#6 = 0x40_0000#64 ∧
          (∀ r, r ≠ 62#6 → (t.sc p).reg r = 0#64) ∧ ((t.sc p).run = .running ∨ ∃ f ∈ t.faults, f.ctx = BitVec.ofNat 6 c)

/-- TEAM_MOVE of a team without a caravan that has waited for more than 20 µs moves it to a die that qualifies, and its wait starts again; before that
nothing changes (R298). PREEMPT_LIMIT_EXPIRE suspends every task of the team that has not stopped, once the limit since the request to
yield is over, and not before (R393); a matrix grant ends at the boundary of its step (R176). -/
def Parts.TeamMovesAndLimits : Prop :=
  ∀ (s : State) (x : Team), s.tm s.cur = some x →
    (∀ d t0, x.caravan = none → x.suspended = some t0 → x.resen = false → d < 8 →
      (t0 + 20_000 < s.ns → (qualify s false x.mask x.size d).isSome = true → completes (.teamMove d) s fun t =>
        t = { s with team := t.team } ∧ t.tm s.cur = some { x with die := d, suspended := some s.ns } ∧ ∀ k, k ≠ s.cur → t.tm k = s.tm k) ∧
      (s.ns ≤ t0 + 20_000 → completes (.teamMove d) s fun t => t = s)) ∧
    ∀ t0, x.yield = some t0 →
      (t0 + preemptNs s x.ctx.toNat ≤ s.ns → completes .preemptLimitExpire s fun t =>
        ∀ l p, l < x.size → x.done.getLsbD l = false → x.cores[l]? = some p → (s.sc p).run = .running →
          (t.sc p).run = .suspended ∧ (t.sc p).pc = (s.sc p).pc ∧ (t.sc p).reg = (s.sc p).reg ∧ (t.co p).vq.stopped = true ∧
          (t.co p).mq.stopped = true ∧ (t.co p).cq.stopped = true ∧ ((s.co p).mq.inStep = false → holdsGrant t p = false)) ∧
      (s.ns < t0 + preemptNs s x.ctx.toNat → completes .preemptLimitExpire s fun t => t = s)

/-- TEAM_SAVE of a team without a caravan: a team that was asked to yield and has stopped begins its save, its engines stopped (R395); one that is quiet
and drained is saved into free slots and is suspended, its cores free; with too few free slots the save is a fault where a fenced class moves the team (R392), and one
that yields waits; a team that could never be placed again is discarded as UNPLACEABLE (R296). -/
def Parts.TeamSaves : Prop :=
  ∀ (s : State) (x : Team), s.tm s.cur = some x → x.caravan = none → ctxLive s x.ctx.toNat = true → x.suspended = none →
    (x.saving = none → mayBegin s x = true → completes .teamSave s fun t =>
      t.mem = s.mem ∧ (∃ y, t.tm s.cur = some y ∧ y = { x with saving := y.saving, yield := none } ∧ y.saving = x.yield) ∧
      ∀ p ∈ x.cores, (t.co p).vq.stopped = true ∧ (t.co p).mq.stopped = true ∧ (t.co p).cq.stopped = true ∧
        ((s.co p).mq.inStep = false → holdsGrant t p = false)) ∧
    (x.saving.isSome = true → teamQuiet s x = true → teamDrained s x = true →
      (groupHopeless s [s.cur] = true → completes .teamSave s fun t =>
        t.ended = s.ended ++ [(x.item, 3)] ∧ t.tm s.cur = none ∧ ∀ p ∈ x.cores, (t.co p).task = none ∧ (t.sc p).run = .idle) ∧
      (groupHopeless s [s.cur] = false → (freeSaves s x.ctx.toNat).length < x.live.length → x.refit = false → completes .teamSave s fun t => t = s) ∧
      (groupHopeless s [s.cur] = false → (freeSaves s x.ctx.toNat).length < x.live.length → x.refit = true → completes .teamSave s fun t =>
        t.mem = s.mem ∧ t.tm s.cur = some { x with saving := none, yield := none, yieldTo := none } ∧
        ∃ f : FaultRec, t.faults = s.faults ++ [f] ∧ f.ctx = x.ctx ∧ f.cause = 0x2E) ∧
      (groupHopeless s [s.cur] = false →
        x.live.length + (if x.refit then promisedSaves s x.ctx.toNat [s.cur] else 0) ≤ (freeSaves s x.ctx.toNat).length →
        ∀ u, saveGroup x.ctx.toNat [s.cur] s = .ok u → completes .teamSave s fun t =>
          (∃ y, t.tm s.cur = some y ∧ y.suspended = some s.ns ∧ y.saving = none ∧ y.yield = none ∧ y.done = x.done ∧
            y.slots.map (·.1) = (liveCores x).map (·.1)) ∧
          ∀ p ∈ x.cores, (t.co p).task = none ∧ (t.sc p).run = .idle))

/-- TEAM_RESTORE of a suspended team with one saved task: where a placement exists and its image is VALID, the task runs again on its new core at
the saved pc, with the saved predicates and STATUS (its reserved bits zero, R4) and every scalar register that the image names (R397); with no placement nothing
changes, and a team that no die can ever take is discarded UNPLACEABLE (R296). -/
def Parts.TeamRestores : Prop :=
  ∀ (s : State) (x : Team) (t0 : Nat), s.tm s.cur = some x → x.caravan = none → x.suspended = some t0 → ctxLive s x.ctx.toNat = true →
    yieldWaits s x = false →
    (groupHopeless s [s.cur] = true → completes .teamRestore s fun t =>
      t.ended = s.ended ++ [(x.item, 3)] ∧ t.tm s.cur = none ∧ t.mem = s.mem ∧ allRegsKept s t) ∧
    (groupHopeless s [s.cur] = false → placeTeams s [x] [] = none → completes .teamRestore s fun t => t = s) ∧
    ∀ d ps k m p, groupHopeless s [s.cur] = false → placeTeams s [x] [] = some [(d, ps)] → readImages x.ctx.toNat x x.slots s = .ok ([(k, m)], s) → imageValid m = true →
      ps[k.lcore]? = some p → completes .teamRestore s fun t =>
        (∃ y, t.tm s.cur = some y ∧ y.die = d ∧ y.cores = ps ∧ y.suspended = none ∧ y.slots = [] ∧ y.done = x.done) ∧
        (t.co p).task = some ⟨s.cur, k.lcore⟩ ∧ (t.sc p).run = .running ∧ (t.sc p).ctx = x.ctx ∧
        (t.sc p).pc = align8 (BitVec.ofNat 64 (rdN m 8 8)) ∧ (t.sc p).preds = BitVec.ofNat 32 (rdN m 0x18 8) ∧
        (t.sc p).status = BitVec.ofNat 64 (rdN m 0x800 8) &&& 0xC7#64 ∧
        ∀ r : BitVec 6, r ≠ 0#6 → (imageLive m).slive.getLsbD r.toNat = true → (t.sc p).reg r = BitVec.ofNat 64 (rdN m (0x1000 + 8 * r.toNat) 8)

/-- Migration (R352). A store that sets GO in word 0 of a die's request block, whose home performs it, sets BUSY and leaves the request to be judged; while BUSY is set
the block ignores stores. MIGRATION_REQUEST judges it: a request that breaks Table 19.7 sets FAIL and is over, another goes on. MIGRATION_COMPLETE of a request for
one piece copies its bytes, gives the table word that names it its new value, drops the translations of the span from the die's TLB and
sets DONE; a WAITA on a line of the piece returns (R96). That GO clears FAIL and DONE, and that the request is checked again as it completes, is
the model's reading (log entry 83, DEDUCED). -/
def Obligations.Migrations : Prop :=
  (∀ (s : State) (d : Nat) (v : Word), d < 9 →
    (migBusy s d = false → v.getLsbD 63 = true → ∀ t, t = keyWrite s (migKey d 0) 8 v.toNat 0xFF →
      migWord t d 0 = 2 ^ 62 + v.toNat % 2 ^ 56 ∧ t.acts = s.acts ++ [.migrate d] ∧ memBut s t (migKey d 0) 8) ∧
    (migBusy s d = true → ∀ w, w < 3 → ∀ t, t = keyWrite s (migKey d w) 8 v.toNat 0xFF → ∀ k, k < 3 → migWord t d k = migWord s d k)) ∧
  (∀ (s : State) (d : Nat) (rest : List Act), nextAct s (fun a => ∃ e, a = .migrate e) (.migrate d) rest →
    (migBusy s d = false ∨ (migOk s d).isSome = true → completes .migrationRequest s fun t => t = { s with acts := rest }) ∧
    (migBusy s d = true → migOk s d = none → completes .migrationRequest s fun t =>
      t = { s with acts := rest, mem := t.mem } ∧ memBut s t (migKey d 0) 8 ∧ migWord t d 0 = 2 ^ 61 + migBase s d)) ∧
  ∀ (s : State) (d : Nat), s.cur = d →
    (migBusy s d = false → completes .migrationComplete s fun t => t = s) ∧
    (migBusy s d = true → migOk s d = none → completes .migrationComplete s fun t => migWord t d 0 = 2 ^ 61 + migBase s d ∧ memBut s t (migKey d 0) 8) ∧
    ∀ x : Piece, migBusy s d = true → migOk s d = some [x] → d < 9 → memOk s → x.slot + 8 ≤ x.new ∨ x.new + x.n ≤ x.slot →
      completes .migrationComplete s fun t =>
        (∀ j, j < x.n → memGet t.mem (physKey d x.new + j) = memGet s.mem (physKey d x.old + j)) ∧
        rdN t.mem (physKey d x.slot) 8 = x.word ∧ migWord t d 0 = 2 ^ 60 + migBase s d ∧ allRegsKept s t ∧
        (∀ a pd l hit, (s.sc a).run = .waiting (.waita pd l hit) → physKey d x.old ≤ l → l < physKey d x.old + x.n →
          (t.sc a).run = .running ∧ (pd ≠ 0#5 → (t.sc a).preds.getLsbD pd.toNat = !hit)) ∧
        ∀ e ∈ (t.di d).tlb, e ∈ (s.di d).tlb ∧ ¬(e.ctx = migCtx s d ∧ e.unit * 65536 < migBase s d + migLen s d ∧ migBase s d < (e.unit + 1) * 65536)

/-! ### Contexts (R384 to R391, R402 to R404) -/

/-- CONTEXT_CREATE of a context that is not FREE is ignored; of a FREE one that breaks a rule of R385 it sets BAD; otherwise STATE is LIVE, BAD and KCAUSE
are 0, the status block is zero (R275), and the listed resident cores are the context's, zeroed (R385). -/
def Parts.ContextCreation : Prop :=
  ∀ (s u : State) (c : Nat) (rest : List Act), nextAct s (fun a => ∃ e, a = .ctxCreate e) (.ctxCreate c) rest → u = { s with acts := rest } →
    (ctxState s c ≠ 0 → completes .contextCreate s fun t => t = u) ∧
    (ctxState s c = 0 → createOk s c = false → completes .contextCreate s fun t =>
      ctxState t c = 0 ∧ bitsOf (ctxWord t c 0) 39 39 = 1 ∧ kcause t c = kcause s c ∧ t = { u with mem := t.mem } ∧ memBut s t (ctxKey c 0) 8) ∧
    (ctxState s c = 0 → createOk s c = true → nres s c = 0 → c < 64 → completes .contextCreate s fun t =>
      ctxState t c = 1 ∧ bitsOf (ctxWord t c 0) 39 39 = 0 ∧ kcause t c = 0 ∧ t.cx c = CtxRun.reset ∧ (∀ k, k ≠ c → t.cx k = s.cx k) ∧
      t = { u with mem := t.mem, ctxs := t.ctxs, acts := rest.filter fun a => !a.isOf c } ∧ rdN t.mem (tsKey c 0) 64 = 0 ∧
      ∀ k, k < ctxKey c 0 ∨ ctxKey c 0 + 8 ≤ k → k < tsKey c 0 ∨ tsKey c 0 + 64 ≤ k → memGet t.mem k = memGet s.mem k) ∧
    ∀ ps, ctxState s c = 0 → createOk s c = true → resList u c = some (ps, u) → (∀ p ∈ ps, mayReside s p = true) → ps.Nodup → c < 64 →
      completes .contextCreate s fun t =>
        ctxState t c = 1 ∧ (t.cx c).residents = ps ∧ kcause t c = 0 ∧ bitsOf (ctxWord t c 0) 39 39 = 0 ∧
        (∀ p ∈ ps, (t.co p).resident = some (BitVec.ofNat 6 c) ∧ (t.co p).vregs = [] ∧ (t.co p).sems = [] ∧ (∀ r, (t.sc p).reg r = 0#64) ∧
          ∀ o, o < 0x40_0000 → memGet t.mem (spKey p o) = 0#8) ∧
        (∀ p, p ∉ ps → t.co p = s.co p ∧ t.sc p = s.sc p)

/-- CONTEXT_FAULT with one fault of the subject context on its way: a LIVE context halts, KCAUSE is the cause, every core and thread that runs for it
stops, and the fault is the first of the halt report (R386 to R388); a context in another state than LIVE or HALTED discards it; with no fault
on its way nothing changes. -/
def Parts.ContextHalts : Prop :=
  ∀ (s : State) (c : Nat), s.cur = c →
    ((∀ f ∈ s.faults, f.ctx.toNat ≠ c) → completes .contextFault s fun t => t = s) ∧
    ∀ f : FaultRec, s.faults = [f] → f.ctx.toNat = c →
      (ctxState s c = 1 → completes .contextFault s fun t =>
        ctxState t c = 2 ∧ kcause t c = f.cause % 65536 ∧ t.faults = [] ∧ (t.cx c).traise = s.ns ∧
        (t.cx c).first = (if f.typ = 6 then none else some f) ∧ (t.cx c).reported = false ∧
        (t.cx c).killing = (f.cause == 0x2D || f.cause == 0x2F || f.cause == 0x30) ∧
        (f.typ ≠ 6 → f ∈ (t.cx c).records) ∧ (∀ p ∈ ctxCores s c, (t.sc p).run = .halted) ∧ ∀ a ∈ ctxThreads s c, (t.sc a).run = .halted) ∧
      (ctxState s c = 2 → completes .contextFault s fun t =>
        t.mem = s.mem ∧ t.faults = [] ∧ (t.cx c).first = (s.cx c).first ∧ (t.cx c).traise = (s.cx c).traise ∧
        ((s.cx c).reported = true → (t.cx c).records = (s.cx c).records)) ∧
      (ctxState s c ≠ 1 → ctxState s c ≠ 2 → completes .contextFault s fun t => t = { s with faults := [] })

/-- HALT_REPORT of a halted context whose report is not yet written marks it written and gives the fault milestone of the context's entry, if one is
enabled, its increment, once its engines have come to the boundaries of their steps (R388); with no stop record to write, the report is its header, which holds VALID, the context, KCAUSE, no records, and the
times of the rise and of the report (R390, R391). In any other case nothing changes. -/
def Parts.HaltReports : Prop :=
  ∀ (s : State) (c : Nat), s.cur = c →
    (ctxState s c ≠ 2 ∨ (s.cx c).reported = true ∨ atBoundaries s c = false → completes .haltReport s fun t => t = s) ∧
    (ctxState s c = 2 → (s.cx c).reported = false → atBoundaries s c = true →
      completes .haltReport s (fun t =>
        (t.cx c).reported = true ∧ (t.cx c).records = (s.cx c).records ∧ (∀ k, k ≠ c → t.cx k = s.cx k) ∧ allRegsKept s t ∧
        t.incs = s.incs ++ (if bitsOf (ctxWord t c 2) 43 43 = 1 then [⟨0, bitsOf (ctxWord t c 2) 63 44, 1, none, none⟩] else [])) ∧
      ∀ key, (s.cx c).first = none → (s.cx c).records = [] → s.ecc = [] → ctxWord s c 1 % 64 = 0 → resolve s 0xFFFF c (ctxWord s c 1) 2 = .ok key →
        isDevice key = false → key % 64 = 0 → isObjHome s key = false → gateOpen s c = true → c < 64 → completes .haltReport s fun t =>
          rdN t.mem key 8 = 2 ^ 63 + c * 2 ^ 56 + kcause s c * 2 ^ 32 ∧ rdN t.mem (key + 8) 8 = (s.cx c).traise % 2 ^ 64 ∧
          rdN t.mem (key + 16) 8 = s.ns % 2 ^ 64 ∧ rdN t.mem (key + 24) 40 = 0 ∧ memBut s t key 64)

/-- TASK_WATCHDOG stops a task that has run for longer than a nonzero TWD since its first instruction, or its last PHINT or PHASE, with WATCHDOG, or with WATCHDOG_IN_SAVE while its
context is being saved; not before, not before its first instruction, and never with TWD 0; a rollback of its phase counts as the task's running (R402). SAVE_WATCHDOG stops a save that is late with WATCHDOG_IN_SAVE (R403); that
its fault is the scalar fault of the team's first core that has not executed DONE is the model's reading (log entry 72, DEDUCED). -/
def Parts.Watchdogs : Prop :=
  (∀ (s : State) (twd : Nat), isCore s.cur = true → (s.co s.cur).task.isSome = true →
    (stream s).run = .running ∨ (stream s).run = .suspended ∧ (s.co s.cur).rolling = true ∧ savingTask s s.cur = false →
    twd = ctxWord s (stream s).ctx.toNat 4 % 2 ^ 32 →
    ((stream s).fresh = false → twd ≠ 0 → twd * 1000 < s.ns - (stream s).wd / 21 → completes .taskWatchdog s fun t =>
      t.mem = s.mem ∧ onlyStream { s with faults := t.faults, objs := t.objs } t ∧
      (∀ k, (objAt t k).holders = (objAt s k).holders ∧ (objAt t k).queue = (objAt s k).queue) ∧ (stream t).run = .halted ∧ (stream t).pc = (stream s).pc ∧
      ∃ f : FaultRec, t.faults = s.faults ++ [f] ∧ f.ctx = (stream s).ctx ∧ f.typ = 0 ∧ f.phys = s.cur ∧ f.detail = 0 ∧
        f.cause = (if savingCtx s (stream s).ctx.toNat then 0x2D else 0x2C)) ∧
    ((stream s).fresh = true ∨ twd = 0 ∨ s.ns - (stream s).wd / 21 ≤ twd * 1000 → completes .taskWatchdog s fun t => t = s)) ∧
  ∀ (s : State) (x : Team) (t0 l p : Nat), s.tm s.cur = some x → saveSince x = some t0 → (liveCores x).head? = some (l, p) →
    (swdUs s x.ctx.toNat * 1000 < s.ns - t0 → completes .saveWatchdog s fun t =>
      t.mem = s.mem ∧ t.cur = s.cur ∧ (t.sc p).run = .halted ∧ (∀ a, a ≠ p → t.sc a = s.sc a) ∧
      ∃ f : FaultRec, t.faults = s.faults ++ [f] ∧ f.ctx = (s.sc p).ctx ∧ f.cause = 0x2D) ∧
    (s.ns - t0 ≤ swdUs s x.ctx.toNat * 1000 → completes .saveWatchdog s fun t => t = s)

/-- CONTEXT_KILL: a KILL store puts KILLED on its way to the controller of a LIVE context and marks a HALTED one; once the report of a context to be killed is
written and the notices of its conversations' end have left (R373), its queued work, events, firings and increments are gone, its connections
have failed (R256), its gates are closed and STATE is DRAINING (R404). CONTEXT_ZEROING goes on to ZEROING once nothing that the gates admitted is left: write-backs, replies
to copy records, arriving messages, flags and notices; not before (R323, R404), then to FREE, with every team, allotment and run-time record of the context
gone and its translation roots zero. That increments on their way are discarded with the queued work, that the context stays HALTED until the notices have left, and what
ends DRAINING, is the model's reading (log entry 73, DEDUCED). -/
def Parts.ContextEnds : Prop :=
  (∀ (s : State) (c : Nat) (rest : List Act), nextAct s (fun a => ∃ e, a = .ctxKill e) (.ctxKill c) rest →
    (ctxState s c = 1 → completes .contextKill s fun t =>
      ∃ f : FaultRec, t = { s with acts := rest, faults := s.faults ++ [f] } ∧ f.ctx = BitVec.ofNat 6 c ∧ f.cause = 0x2F) ∧
    (ctxState s c = 2 → completes .contextKill s fun t =>
      t = { s with acts := rest, ctxs := t.ctxs } ∧ t.cx c = { s.cx c with killing := true } ∧ ∀ k, k ≠ c → t.cx k = s.cx k) ∧
    (ctxState s c ≠ 1 → ctxState s c ≠ 2 → completes .contextKill s fun t => t = { s with acts := rest })) ∧
  ∀ (s : State) (c : Nat), s.cur = c → c < 64 →
    ((∀ e, .ctxKill e ∉ s.acts) →
      (ctxState s c = 2 → (s.cx c).killing = true → (s.cx c).reported = true → (s.cx c).told = true ∨ ctxConvs s c = [] →
       (noticeUnsent s c = true → completes .contextKill s fun t => ctxState t c = 2 ∧ t.pool = s.pool ∧ t.tx = s.tx ∧ admits t c = admits s c) ∧
       (noticeUnsent s c = false → completes .contextKill s fun t =>
        ctxState t c = 3 ∧ admits t c = false ∧ (∀ i ∈ t.pool, itemCtx i.item ≠ c) ∧ (∀ f ∈ t.fired, f.ctx ≠ c) ∧ (∀ i ∈ t.incs, i.ctx ≠ c) ∧
        c ∉ t.spills ∧ (∀ e ∈ t.ended, itemCtx e.1 ≠ c) ∧ (t.cx c).events = [] ∧ (t.cx c).drains = [] ∧ (t.cx c).closed = true ∧
        (∀ u ∈ t.tx, u.ctx = c → u.sent = true) ∧ ∀ n, n < 4096 → bitsOf (connWord s c n 0) 63 63 = 1 → connState t c n = 2)) ∧
      (ctxState s c ≠ 2 ∨ (s.cx c).killing = false ∨ (s.cx c).reported = false → completes .contextKill s fun t => t = s)) ∧
    (ctxState s c = 3 → ctxDrained s c = true → completes .contextZeroing s fun t =>
      ctxState t c = 4 ∧ t = { s with mem := t.mem } ∧ memBut s t (ctxKey c 0) 8) ∧
    (ctxState s c = 3 → ctxDrained s c = false → completes .contextZeroing s fun t => t = s) ∧
    (ctxState s c = 4 → completes .contextZeroing s fun t =>
      ctxState t c = 0 ∧ t.cx c = CtxRun.reset ∧ (∀ a ∈ t.allots, a.ctx ≠ c) ∧ (∀ e ∈ t.team, e.2.ctx.toNat ≠ c) ∧
      (∀ f ∈ t.faults, f.ctx.toNat ≠ c) ∧ (∀ m ∈ t.rx, m.ctx ≠ c) ∧ (∀ u ∈ t.tx, u.ctx ≠ c) ∧
      ∀ d, d < 9 → rdN t.mem (ctlKey d (16 * c)) 8 = 0) ∧
    (ctxState s c ≠ 3 → ctxState s c ≠ 4 → completes .contextZeroing s fun t => t = s)

/-! ### Service, scrubbing and firmware routines (R377 to R383, R405, R413 to R418, R422, R423) -/

/-- DRAIN, SCAN, RELEASE and RETIRE of the subject core take it out of the states that Table 22.4 gives each, and in any other state only set REJ (R378);
SCAN starts at segment 0 with RESULT 1. That a command is rejected too while the core is being zeroed is the model's reading (log entry 49, DEDUCED). -/
def Parts.ServiceCommands : Prop :=
  ∀ (s : State) (p : Nat) (x : Core), s.cur = p → x = s.co p →
    (∀ (i : Instr) (ok : Prop) (y : Core), (i, ok, y) ∈
      [(.drain, x.svc = .service ∧ residentBusy s p = false, { x with svc := .draining, rej := false }),
        (.scan, x.svc = .held ∧ x.zeroing = false, { x with svc := .scanning, rej := false, scanSeg := 0, scanRes := 1, scanFail := 0, scanSig := 0 }),
        (.release, x.svc = .held ∧ x.zeroing = false, { x with zeroing := true, rej := false }),
        (.retire, (x.svc = .held ∨ x.svc = .spare) ∧ x.zeroing = false ∧ mapped s p = false ∧ x.capmask = 0#64, { x with svc := .retired, rej := false })] →
      (ok → completes i s fun t => t = { s with core := t.core } ∧ t.co p = y ∧ ∀ q, q ≠ p → t.co q = s.co q) ∧
      (¬ok → (i = .scan → x.preClaim = false) → completes i s fun t =>
        t = { s with core := t.core } ∧ t.co p = { x with rej := true } ∧ ∀ q, q ≠ p → t.co q = s.co q)) ∧
    (¬(x.svc = .held ∧ x.zeroing = false) → x.preClaim = true → completes .scan s fun t =>
      t = { s with core := t.core } ∧ t.co p = { x with rej := true, scanSeg := 0, scanRes := 4 })

/-- DRAIN_TO_HELD zeroes a draining core that no team holds, and it is HELD; CORE_ZEROING_DONE ends a zeroing, the core SERVICE where the map names it and else
SPARE; SCAN_COMPLETE collects the failing classes of a segment and the signature of the first, and after segment 7 the core is HELD with
RESULT 2, or 3 after a failure (R378, R379, R383); segment 6 ends only under a grant of the array, and ends it. In any other state nothing
changes. -/
def Parts.ServiceTransitions : Prop :=
  ∀ (s : State) (p : Nat) (x : Core), s.cur = p → x = s.co p →
    (x.svc = .draining → x.task = none → completes .drainToHeld s fun t =>
      (t.co p).svc = .held ∧ (t.co p).vregs = [] ∧ (t.co p).sems = [] ∧ (t.co p).capmask = x.capmask ∧ t.sc p = Scalar.reset ∧
      (∀ o, o < 0x40_0000 → memGet t.mem (spKey p o) = 0#8) ∧ memBut s t (spKey p 0) 0x40_0000 ∧ ∀ q, q ≠ p → t.co q = s.co q ∧ t.sc q = s.sc q) ∧
    (x.svc ≠ .draining ∨ x.task ≠ none → completes .drainToHeld s fun t => t = s) ∧
    (x.zeroing = true → completes .coreZeroingDone s fun t =>
      (t.co p).svc = (if mapped s p then .service else .spare) ∧ (t.co p).zeroing = false ∧ (t.co p).capmask = x.capmask ∧ t.sc p = Scalar.reset ∧
      (∀ o, o < 0x40_0000 → memGet t.mem (spKey p o) = 0#8) ∧ memBut s t (spKey p 0) 0x40_0000 ∧ ∀ q, q ≠ p → t.co q = s.co q ∧ t.sc q = s.sc q) ∧
    (x.zeroing = false → completes .coreZeroingDone s fun t => t = s) ∧
    ∀ (fail : BitVec 48) (diff : Word),
      (x.svc ≠ .scanning ∨ x.scanSeg = 6#4 ∧ holdsGrant s p = false → completes (.scanComplete fail diff) s fun t => t = s) ∧
      (x.svc = .scanning → x.scanSeg ≠ 6#4 ∨ holdsGrant s p = true → completes (.scanComplete fail diff) s fun t =>
        t = { s with core := t.core, quad := t.quad } ∧ (holdsGrant t p = false) ∧ (holdsGrant s p = false → t.quad = s.quad) ∧ (∀ q, q ≠ p → t.co q = s.co q) ∧ (t.co p).scanSeg = x.scanSeg + 1 ∧
        (∀ b, b < 64 → ((t.co p).scanFail.getLsbD b = true ↔ x.scanFail.getLsbD b = true ∨
          fail.getLsbD b = true ∧ (segClasses x.scanSeg.toNat).getLsbD b = true)) ∧
        ((t.co p).scanSig = if x.scanFail = 0#64 ∧ (t.co p).scanFail ≠ 0#64 then diff else x.scanSig) ∧
        (x.scanSeg ≠ 7#4 → (t.co p).svc = .scanning ∧ (t.co p).scanRes = x.scanRes) ∧
        (x.scanSeg = 7#4 → (t.co p).svc = .held ∧ (t.co p).scanRes = (if (t.co p).scanFail = 0#64 then 2 else 3)))

/-- HBM_SCRUB of a running tile die moves on by 4 KiB where no line of the block holds an error; its write-back clears the errors of the lines that it has
corrected, but abandons, counts in SKIP and reads again a line written since (R416). SCRATCHPAD_SCRUB of a SERVICE, HELD or SPARE core clears every single-bit error of its scratchpad (R417). HBM_RETRAIN takes the
dies in order once every die is up; with the last the package is ready (R418, R421). -/
def Parts.ScrubbingAndRetraining : Prop :=
  ∀ (s : State) (d : Nat), s.cur = d →
    (d < 8 → (s.di d).started = true →
      ((s.di d).scrubbed = [] → (s.di d).scrubAgain = [] → (s.di d).scrubcfg.getLsbD 63 = true → (∀ e ∈ s.ecc, e.1 < physKey d (64 * (s.di d).scrubPos) ∨
          physKey d (64 * ((s.di d).scrubPos + 64)) ≤ e.1) → completes .hbmScrub s fun t =>
        t = { s with die := t.die } ∧ t.di d = { s.di d with scrubPos := ((s.di d).scrubPos + 64) % 2 ^ 30 } ∧ ∀ e, e ≠ d → t.di e = s.di e) ∧
      ((s.di d).scrubbed = [] → (s.di d).scrubAgain = [] → (s.di d).scrubcfg.getLsbD 63 = false → completes .hbmScrub s fun t => t = s) ∧
      ((s.di d).scrubbed ≠ [] → completes .hbmScrub s fun t =>
        t.mem = s.mem ∧ (t.di d).scrubbed = [] ∧ (∀ k, (k, false) ∈ (s.di d).scrubbed → tget t.ecc k [] = []) ∧
        (∀ k, (k, false) ∉ (s.di d).scrubbed → tget t.ecc k [] = tget s.ecc k []) ∧
        (t.di d).scrubAgain = (s.di d).scrubAgain ++ ((s.di d).scrubbed.filter (·.2)).map (·.1) ∧
        (t.di d).scrubstat.toNat % 65536 = min 65535 ((s.di d).scrubstat.toNat % 65536 + ((s.di d).scrubbed.filter (·.2)).length))) ∧
    (8 ≤ d ∨ (s.di d).started = false → completes .hbmScrub s fun t => t = s) ∧
    (isCore d = true → (s.co d).svc = .service ∨ (s.co d).svc = .held ∨ (s.co d).svc = .spare → completes .scratchpadScrub s fun t =>
      t.mem = s.mem ∧ ∀ k, k % 8 = 0 → tget t.ecc k [] =
        if spKey d 0 ≤ k ∧ k < spKey d 0x40_0000 ∧ (wordErrs s k).length = 1 then [] else tget s.ecc k []) ∧
    (isCore d = true → (s.co d).svc = .draining ∨ (s.co d).svc = .scanning ∨ (s.co d).svc = .retired →
      completes .scratchpadScrub s fun t => t = s) ∧
    (d < 8 → allUp s = true → (s.di d).hbmFull = false →
      ((∀ k, k < d → (s.di k).hbmFull = true) → completes .hbmRetrain s fun t =>
        t = { s with die := t.die, ready := t.ready } ∧ (t.di d).hbmFull = true ∧ (d = 7 → t.ready = true) ∧
        ((∃ k, k < 8 ∧ k ≠ d ∧ (s.di k).hbmFull = false) → t.ready = s.ready) ∧ ∀ e, e ≠ d → t.di e = s.di e) ∧
      ((∃ k, k < d ∧ (s.di k).hbmFull = false) → completes .hbmRetrain s fun t => t = s)) ∧
    (allUp s = false → completes .hbmRetrain s fun t => t = s)

/-- A host store of GO is judged as it is stored: while BUSY is set it is ignored, with a number that the image's table names it sets BUSY (R423).
ROUTINE_REQUEST of a running die whose firmware core is free starts the routine that the image's table names, with its arguments in the local store and
BUSY set, at its entry address; a number that the table does not name sets FAIL; while a routine runs the request is ignored (R375, R423).
HEARTBEAT_TIMEOUT resets a busy firmware core whose heartbeat is more than 10 ms old while the lead lease is held and has not lapsed: its routine ends
with FAIL; otherwise nothing changes (R422). The model's choices and readings: that the lease must not have lapsed (log entry 80, DESIGN CHOICE), that a firmware core between routines beats and
renews its lease every 2 ms (log entries 92 and 117, DESIGN CHOICE), and a routine's start registers and a refused number that leaves DONE (log entry 81, DEDUCED). -/
def Parts.FirmwareRoutines : Prop :=
  (∀ (s : State) (d w : Nat) (v : Word), d < 9 → (s.di d).started = true → w = rdN s.mem (routineKey d) 8 → v.getLsbD 63 = true →
    (bitsOf w 62 62 = 1 → completes (.bar0RegisterWrite (0x2000 + 64 * d) v) s fun t =>
      t = { s with mem := t.mem } ∧ ∀ k, memGet t.mem k = memGet s.mem k) ∧
    (bitsOf w 62 62 = 0 → (∃ e ∈ (s.di d).routines, e.1 = v.toNat % 256) → completes (.bar0RegisterWrite (0x2000 + 64 * d) v) s fun t =>
      t = { s with mem := t.mem, acts := s.acts ++ [.routine d (v.toNat % 256) (rdN s.mem (routineKey d + 8) 56)] } ∧
      rdN t.mem (routineKey d) 8 = 2 ^ 62 + (w / 256 * 256 + v.toNat % 256) % 2 ^ 60 ∧ memBut s t (routineKey d) 8)) ∧
  (∀ (s : State) (d num args : Nat) (rest : List Act), nextAct s (fun a => ∃ e n r, a = .routine e n r) (.routine d num args) rest → d < 9 →
    num < 256 → args < 2 ^ 448 →
    ((s.di d).busy = true ∨ (s.di d).started = false → completes .routineRequest s fun t => t = { s with acts := rest }) ∧
    ((s.di d).busy = false → (s.di d).started = true →
      ((∀ e ∈ (s.di d).routines, e.1 ≠ num) → completes .routineRequest s fun t =>
        t = { s with acts := rest, mem := t.mem } ∧ bitsOf (rdN t.mem (routineKey d) 8) 62 60 = 2 * bitsOf (rdN s.mem (routineKey d) 8) 62 61 + 1 ∧
        rdN t.mem (routineKey d) 8 % 2 ^ 48 = rdN s.mem (routineKey d) 8 % 2 ^ 48 / 65536 * 65536 + rdN s.mem (routineKey d) 8 % 256 ∧ memBut s t (routineKey d) 8) ∧
      ∀ e, (s.di d).routines.find? (fun x => x.1 == num) = some (num, e) → completes .routineRequest s fun t =>
        (t.sc (8192 + d)).run = .running ∧ (t.sc (8192 + d)).pc = align8 (e.setWidth 64) ∧ (t.sc (8192 + d)).tvec = align8 (handlerEntry s 0 0) ∧ (t.sc (8192 + d)).ctx = 0 ∧
        (t.sc (8192 + d)).reg 62#6 = 0x1_0000#64 ∧ (∀ r, r ≠ 62#6 → (t.sc (8192 + d)).reg r = 0#64) ∧ (t.di d).busy = true ∧
        bitsOf (rdN t.mem (routineKey d) 8) 63 60 = 4 ∧ rdN t.mem (routineKey d) 8 % 256 = num ∧ rdN t.mem (fwKey d 0) 56 = args ∧
        (∀ o, 56 ≤ o → o < 256 → memGet t.mem (fwKey d o) = 0#8) ∧ ∀ a, a ≠ 8192 + d → t.sc a = s.sc a)) ∧
  ∀ (s : State) (d : Nat), s.cur = d → d < 9 →
    (s.leadHeld = true → s.ns ≤ leadUntil s → (s.di d).started = true → (s.di d).busy = true → (s.di d).hbtime + 10_000_000 < s.ns →
      bitsOf (rdN s.mem (routineKey d) 8) 62 62 = 1 → completes .heartbeatTimeout s fun t =>
      (t.di d).busy = false ∧ (t.di d).hbtime = s.ns ∧ (t.sc (8192 + d)).run = .idle ∧ (∀ r, (t.sc (8192 + d)).reg r = 0#64) ∧
      bitsOf (rdN t.mem (routineKey d) 8) 63 60 = 1) ∧
    (s.leadHeld = false ∨ leadUntil s < s.ns ∨ (s.di d).started = false ∨ (s.di d).busy = false ∨ s.ns ≤ (s.di d).hbtime + 10_000_000 → completes .heartbeatTimeout s fun t => t = s)

/-! ### Bring-up, alarms and attestation (R418 to R428) -/

/-- RESET_RELEASE with BOOT_SRC 0 or 1 and an image that the boot ROM accepts: time starts at 0, the Crossroads die's firmware stands in its local store, every
context is FREE with BANKKEY 0xFFF but context 0, which is LIVE with HMIN 16 and HMAX 1,024 (R384, R418, R424, R428), and the Crossroads firmware core holds the lead lease, for 10 ms (R422). With another source or a
refused image only the straps are taken; a package that is not in reset, or has tripped, does nothing. PALARM is judged at once (R426). That the release of reset and the start of the Crossroads
firmware are one event at time 0, and that a refused image leaves the values of reset, is the model's reading (log entry 75, DEDUCED). -/
def Parts.ResetReleases : Prop :=
  ∀ (s : State) (boot : BitVec 2) (modId : BitVec 4) (img : Image),
    (s.inReset = false ∨ s.tripped = true → completes (.resetRelease boot modId img) s fun t => t = s) ∧
    (s.inReset = true → s.tripped = false → 2 ≤ boot.toNat ∨ imageOk s img = false → completes (.resetRelease boot modId img) s fun t =>
      t = { s with time := 0, bootSrc := boot, modId := modId }) ∧
    (s.inReset = true → s.tripped = false → boot.toNat < 2 → imageOk s img = true → completes (.resetRelease boot modId img) s fun t =>
      t = { s with time := 0, bootSrc := boot, modId := modId, inReset := false, mem := t.mem, die := t.die, palarm := t.palarm, calm := t.calm, leadHeld := true, leadHolder := 8, leadExp := 10_000_000 } ∧
      alarmJudged { t with palarm := s.palarm, calm := s.calm } t ∧ (t.di 8).started = true ∧
      (t.di 8).startAt = some 0 ∧ (t.di 8).release = img.release ∧ (∀ d, d ≠ 8 → t.di d = s.di d) ∧
      (∀ j, j < 0x1_0000 → memGet t.mem (fwKey 8 j) = img.code.getD j 0#8) ∧
      (∀ c, 0 < c → c < 64 → ctxWord t c 0 = 0xFFF * 2 ^ 16) ∧ ctxState t 0 = 1 ∧ hmin t 0 = 16 ∧ hmax t 0 = 1024)

/-- DIE_START: a tile die starts 250 µs × n after the Crossroads die, with an accepted image its firmware core, else it stays in reset; not before, not before
a die of a lower number, and not twice (R418, R424); that entry i of its map then names the core of die index i is the model's reading (log entry 78, DEDUCED). QUAD_GROUP_START: 20 µs × k after the die, and after the groups of lower numbers, the 32 cores of group k come up HELD with every class
but 24 to 27, to be scanned (R418, R419). -/
def Parts.DiesStart : Prop :=
  (∀ (s : State) (img : Image) (d t0 : Nat), s.cur = d → d < 8 → (s.di 8).startAt = some t0 →
    ((s.di d).startAt ≠ none ∨ s.ns < t0 + 250_000 * d ∨ (∃ e, e < d ∧ (s.di e).startAt = none) → completes (.dieStart img) s fun t => t = s) ∧
    ((s.di d).startAt = none → t0 + 250_000 * d ≤ s.ns → (∀ e, e < d → (s.di e).startAt ≠ none) → completes (.dieStart img) s fun t =>
      (t.di d).startAt = some s.ns ∧ (∀ e, e ≠ d → t.di e = s.di e) ∧ t = { s with mem := t.mem, die := t.die } ∧
      (imageOk s img = true → (t.di d).started = true ∧ (t.di d).release = img.release ∧ (∀ i, i < 256 → lcmCore t d i = some (288 * d + i)) ∧
        ∀ j, j < 0x1_0000 → memGet t.mem (fwKey d j) = img.code.getD j 0#8) ∧
      (imageOk s img = false → (t.di d).started = (s.di d).started ∧ t.mem = s.mem))) ∧
  ∀ (s : State) (d k t0 : Nat), s.cur = d → (s.di d).startAt = some t0 →
    (8 ≤ d ∨ 9 ≤ k ∨ (s.di d).started = false ∨ (s.di d).groups.getLsbD k = true ∨ (∃ j, j < k ∧ (s.di d).groups.getLsbD j = false) ∨ s.ns < t0 + 20_000 * k →
      completes (.quadGroupStart k) s fun t => t = s) ∧
    (d < 8 → k < 9 → (s.di d).started = true → (s.di d).groups.getLsbD k = false → (∀ j, j < k → (s.di d).groups.getLsbD j = true) → t0 + 20_000 * k ≤ s.ns →
      completes (.quadGroupStart k) s fun t =>
      t = { s with core := t.core, die := t.die } ∧ (t.di d).groups.getLsbD k = true ∧
      (∀ i, 32 * k ≤ i → i < 32 * k + 32 → t.co (288 * d + i) = { s.co (288 * d + i) with svc := .held, capmask := 0x0000_007F_000F_FF7F#64, boot := .toScan }) ∧
      (∀ p, p < 288 * d + 32 * k ∨ 288 * d + 32 * k + 32 ≤ p → t.co p = s.co p) ∧ ∀ e, e ≠ d → t.di e = s.di e)

/-- POWER_SAMPLE, PWR_ALERT and THERMAL_SENSOR, out of reset, take the sample, the pin or the sensor's reading of 95 °C or more, and PALARM follows (R426,
R427); a reading of 105 °C or more trips the module into reset. RESET_N_ASSERTED puts everything into its reset state but what the outside world
holds: the turns to come, the pin, the sensors, the fuses and the model's own free values (R428). That a trip holds the module in reset until then, and what reset keeps, is the
model's reading (log entry 76, DEDUCED); so is what PALARM makes of having no samples (log entry 79, DEDUCED). -/
def Parts.AlarmsAndReset : Prop :=
  ∀ (s : State) (w sensor deg : Nat) (on : Bool) (hot : List Nat), hot = s.hot.filter (fun x => x != sensor) →
    (s.inReset = true → completes (.powerSample w) s (fun t => t = s) ∧
      completes (.pwrAlert on) s (fun t => t = { s with pwrAlert := on })) ∧
    (s.inReset = false → completes (.powerSample w) s (alarmJudged { s with samples := ((s.ns, w) :: s.samples).take 10 }) ∧
      completes (.pwrAlert on) s (alarmJudged { s with pwrAlert := on }) ∧
      (deg < 95 → completes (.thermalSensor sensor deg) s (alarmJudged { s with hot := hot })) ∧
      (95 ≤ deg → deg < 105 → completes (.thermalSensor sensor deg) s (alarmJudged { s with hot := sensor :: hot }))) ∧
    (105 ≤ deg → completes (.thermalSensor sensor deg) s fun t =>
      t = { State.reset with sched := s.sched, free := s.free, pwrAlert := s.pwrAlert, hot := sensor :: hot, fuseKey := s.fuseKey,
                             fuseMin := s.fuseMin, tripped := true }) ∧
    completes .resetNAsserted s fun t => 
      t = { State.reset with sched := s.sched, free := s.free, pwrAlert := s.pwrAlert, hot := s.hot, fuseKey := s.fuseKey, fuseMin := s.fuseMin }

/-- ATTESTATION_REQUEST with bit 0 set, out of reset, asks for a report: ATTCTL[0] reads 1; otherwise it does nothing. The turn that completes the report
writes its 27 words and clears ATTCTL: the format and MOD_ID, the release of every die, MODSTAT, the digest of every core's mask, the nonce,
and the ECDSA signature over the digest of the words before it (R425). The byte order of the digest and of r and s in the report is the model's choice (log entry 13, DESIGN CHOICE). -/
def Parts.Attestation : Prop :=
  ∀ (s : State) (v : Word),
    (s.inReset = true ∨ v.getLsbD 0 = false → completes (.attestationRequest v) s fun t => t = s) ∧
    (s.inReset = false → v.getLsbD 0 = true → completes (.attestationRequest v) s fun t =>
      t = { s with mem := t.mem } ∧ rdN t.mem (hostKey 0x100) 8 = 1 ∧ memBut s t (hostKey 0x100) 8) ∧
    ∀ (ts : List Turn) (k : Nat), s.sched = .report :: ts → rdN s.mem (hostKey 0x100) 8 % 2 = 1 → k = Config.signNonce s.free →
      ∃ t, step s = .next t ∧ t = { s with sched := ts, mem := t.mem, free := s.free + 1 } ∧
        rdN t.mem (hostKey 0x200) 8 = 1 + s.modId.toNat * 256 ∧
        (∀ d, d < 9 → rdN t.mem (hostKey (0x208 + 8 * d)) 8 = (s.di d).release.toNat) ∧ rdN t.mem (hostKey 0x250) 8 = modstat s ∧
        numBytes 32 (rdN t.mem (hostKey 0x258) 32) = bytesBE (sha256 (wordBytes ((List.range 2304).map fun p => (s.co p).capmask))).toNat 32 ∧
        (∀ i, i < 4 → rdN t.mem (hostKey (0x278 + 8 * i)) 8 = rdN s.mem (hostKey (0x108 + 8 * i)) 8) ∧
        rdN t.mem (hostKey 0x298) 32 = ecdsaR k ∧
        rdN t.mem (hostKey 0x2B8) 32 =
          ecdsaS Config.deviceKey k (sha256 (wordBytes ((List.range 19).map fun i => BitVec.ofNat 64 (rdN t.mem (hostKey (0x200 + 8 * i)) 8)))) ∧
        rdN t.mem (hostKey 0x100) 8 = 0 ∧
        ∀ a, a < hostKey 0x100 ∨ hostKey 0x108 ≤ a → a < hostKey 0x200 ∨ hostKey 0x2D8 ≤ a → memGet t.mem a = memGet s.mem a

/-! ### Trees, time slots and collectives (R304, R331, R334, R335, R337) -/

/-- TREE_LOAD: an entry that obeys R331 is loaded as it stands, VALID 1, BAD 0, CLOSED 0 and ROUND 0, unbound and without inputs; another is not loaded,
VALID 0 and BAD 1, CLOSED as it was. TIMESLOT_LOAD: what the lines of the former load hold is acknowledged; a table that obeys R334 is loaded,
VALID 1 and BAD 0, its lines at their first turn; another is not loaded, VALID 0 and BAD 1. While an aperture contribution is landing word by word a load of a tree waits (R326). COLLECTIVE_ARM arms an entry whose conversation,
flag address and milestone obey R337, STATE 1; another gets STATE 0. -/
def Parts.TablesLoad : Prop :=
  ∀ (s u v : State) (c n : Nat) (rest : List Act), u = { s with acts := rest } → v = clearSlots u c n →
    (delivering s = true → completes .treeLoad s fun t => t = s) ∧
    (nextAct s (fun a => ∃ e i, a = .tree e i) (.tree c n) rest → delivering s = false →
      (treeOk (treeEntry s c n) = true → completes .treeLoad s fun t =>
        t = { u with mem := t.mem, trees := t.trees } ∧ (∀ k, k ≠ c * 1024 + n → tget t.trees k TreeRun.reset = tget s.trees k TreeRun.reset) ∧
        treeRun t c n = { loaded := true, entry := treeEntry s c n, team := none, nodes := [] } ∧
        bitsOf (rdN t.mem (treeKey c n 0) 8) 63 61 = 4 ∧ rdN t.mem (treeKey c n 0) 8 % 2 ^ 61 = rdN s.mem (treeKey c n 0) 8 % 2 ^ 61 ∧
        rdN t.mem (treeKey c n 2) 8 = 0 ∧ rdN t.mem (treeKey c n 1) 8 = rdN s.mem (treeKey c n 1) 8 ∧ memBut s t (treeKey c n 0) 24) ∧
      (treeOk (treeEntry s c n) = false → completes .treeLoad s fun t =>
        t = { u with mem := t.mem, trees := t.trees } ∧ (∀ k, k ≠ c * 1024 + n → tget t.trees k TreeRun.reset = tget s.trees k TreeRun.reset) ∧
        treeRun t c n = TreeRun.reset ∧ bitsOf (rdN t.mem (treeKey c n 0) 8) 63 62 = 1 ∧
        rdN t.mem (treeKey c n 0) 8 % 2 ^ 62 = rdN s.mem (treeKey c n 0) 8 % 2 ^ 62 ∧ memBut s t (treeKey c n 0) 8)) ∧
    (nextAct s (fun a => ∃ e i, a = .timeslot e i) (.timeslot c n) rest →
      (slotOk v c n = true → completes .timeslotLoad s fun t =>
        t = { v with mem := t.mem, slots := t.slots } ∧ memBut v t (slotKey c n 0) 8 ∧ bitsOf (rdN t.mem (slotKey c n 0) 8) 63 62 = 2 ∧
        (∀ k, k ≠ c * 64 + n → tget t.slots k SlotTab.reset = tget v.slots k SlotTab.reset) ∧
        slotTab t c n = { base := bitsOf (rdN s.mem (slotKey c n 0) 8) 61 0, len := bitsOf (rdN s.mem (slotKey c n 1) 8) 63 32,
                          tmo := rdN s.mem (slotKey c n 1) 8 % 2 ^ 32, lines := [],
                          srcs := slotSrcs s c n (bitsOf (rdN s.mem (slotKey c n 2) 8) 53 44) }) ∧
      (slotOk v c n = false → completes .timeslotLoad s fun t =>
        t = { v with mem := t.mem } ∧ memBut v t (slotKey c n 0) 8 ∧ bitsOf (rdN t.mem (slotKey c n 0) 8) 63 62 = 1 ∧
        slotTab t c n = SlotTab.reset) ∧
      ((∀ l ∈ (slotTab s c n).lines, l.2.held = []) → v = { u with slots := v.slots })) ∧
    (nextAct s (fun a => ∃ e i, a = .collective e i) (.collective c n) rest → ∀ ok : Prop,
      ok = (holdsRole s c (collWord s c n 0 % 65536) = true ∧ collWord s c n 1 % 8 = 0 ∧
        allotted s c .milestone (collWord s c n 2 % 2 ^ 20) = true) →
      (ok → completes .collectiveArm s fun t =>
        t = { u with mem := t.mem } ∧ memBut s t (cwinKey c (0x1B30_0000 + 64 * n)) 8 ∧ bitsOf (collWord t c n 0) 62 61 = 1 ∧
        collWord t c n 0 % 2 ^ 61 = collWord s c n 0 % 2 ^ 61) ∧
      (¬ok → completes .collectiveArm s fun t =>
        t = { u with mem := t.mem } ∧ memBut s t (cwinKey c (0x1B30_0000 + 64 * n)) 8 ∧ bitsOf (collWord t c n 0) 62 61 = 0 ∧
        collWord t c n 0 % 2 ^ 61 = collWord s c n 0 % 2 ^ 61))

/-- SLOT_TIMEOUT: a line that holds contributions while its turn has waited TMO ns skips the slot: the count of skips is one higher and the turn passes to the
next slot, the first after the last; what has come of the skipped slot's contribution is discarded with it, and what is held for the turns
that have now come is combined, or waits if there is none (R335). Before its time nothing changes. That a line that holds nothing never skips, that the timeout counts from the
first wait, and what the list of skipped slots holds after the last turn, is the model's reading (log entry 39, DEDUCED). -/
def Parts.SlotTimeouts : Prop :=
  ∀ (s : State) (line c i : Nat) (x : SlotTab) (l : SlotLine) (nt : Nat) (late rest : List Held), c = s.cur / 64 → i = s.cur % 64 → c < 64 →
    x = slotTab s c i → l = tget x.lines line SlotLine.reset → nt = (if l.turn + 1 = x.srcs.length then 0 else l.turn + 1) →
    late = l.held.filter (fun h => x.srcs.idxOf h.src == l.turn) → rest = l.held.filter (fun h => x.srcs.idxOf h.src != l.turn) →
    (l.held = [] ∨ s.ns < l.since + x.tmo → completes (.slotTimeout line) s fun t => t = s) ∧
    (l.held ≠ [] → l.since + x.tmo ≤ s.ns → completes (.slotTimeout line) s fun t =>
      ∃ u : State, u = { s with mem := u.mem, slots := u.slots } ∧ memBut s u (slotKey c i 2) 16 ∧
        rdN u.mem (slotKey c i 2) 8 = rdN s.mem (slotKey c i 2) 8 / 2 ^ 32 * 2 ^ 32 + satInc (rdN s.mem (slotKey c i 2) 8 % 2 ^ 32) 32 ∧
        rdN u.mem (slotKey c i 3) 8 = (if late.any (·.fin) then
          rdN s.mem (slotKey c i 3) 8 / 2 ^ 32 * 2 ^ 32 + satInc (rdN s.mem (slotKey c i 3) 8 % 2 ^ 32) 32 else rdN s.mem (slotKey c i 3) 8) ∧
        tget (slotTab u c i).lines line SlotLine.reset =
          { turn := nt, since := s.ns, skipped := if nt = 0 ∧ rest ≠ [] then [] else l.skipped ++ [l.turn], held := rest } ∧
        (slotTab u c i).srcs = x.srcs ∧ (slotTab u c i).tmo = x.tmo ∧
        t = slotDrain c i line (x.srcs.length + 1) (late.foldl dropHeld u) ∧
        (late = [] → (∀ h ∈ l.held, x.srcs.idxOf h.src ≠ nt) → t = u))

/-- NODE_TIMEOUT of a node of a loaded tree, (height + 1) × TMO ns after its first input and with an element not yet combined (R304): a node below the root
combines what it holds of the elements and forwards them with its mask of the cores that contributed nothing; the root delivers the round: ROUND is one
higher and the destination task's semaphore rises. With a core missing ERR is set, the tree is closed and every node is cleared (R304); with none
missing neither. Before its time, and while an aperture contribution is landing word by word (R326), nothing changes. How nodes settle and forward element by element is the model's
reading (log entry 40, DEDUCED). -/
def Parts.NodeTimeouts : Prop :=
  ∀ (s : State) (j c n : Nat) (x : TreeRun) (v : NodeRun) (t0 due k : Nat) (es : List Nat), c = s.cur / 1024 → n = s.cur % 1024 → c < 64 → j < 256 →
    x = treeRun s c n → v = x.node j → v.since = some t0 → due = t0 + (heightOf x.entry 256 j + 1) * bitsOf (treeEntWord x.entry 1) 63 32 →
    k = (treeShape x.entry).2.2 → es = (List.range k).filter (fun e => (tget v.sent e none).isNone) →
    (s.ns < due ∨ delivering s = true → completes (.nodeTimeout j) s fun t => t = s) ∧
    (due ≤ s.ns → delivering s = false → x.loaded = true → isNode x.entry j = true → v.sent.length ≠ k →
      (isRoot x.entry j = false → ∀ (w : NodeRun) (y : TreeRun),
        w = x.combine { v with missing := v.missing ||| absentMask x j k } (childrenOf x.entry j) es →
        y = { x with nodes := tput x.nodes j w NodeRun.reset } → completes (.nodeTimeout j) s fun t =>
        t = settleAll c n (settle c n 257 (parentOf x.entry j) (putTree s c n (forward y j s.ns es)))) ∧
      (isRoot x.entry j = true → v.own = [] → completes (.nodeTimeout j) s fun t =>
        bitsOf (rdN t.mem (treeKey c n 2) 8) 63 32 = (bitsOf (rdN s.mem (treeKey c n 2) 8) 63 32 + 1) % 2 ^ 32 ∧ treeClosed t c n = true ∧
        treeRun t c n = { x with nodes := [] } ∧
        ∀ tid y p d, x.team = some tid → s.tm tid = some y → y.cores[bitsOf (treeEntWord x.entry 0) 47 40]? = some p →
          d = bitsOf (treeEntWord x.entry 0) 39 35 →
          (t.co p).sem d = { (s.co p).sem d with done := ((s.co p).sem d).done + 1, err := true }) ∧
      (isRoot x.entry j = true → v.own ≠ [] → v.missing = 0 → (∀ q ∈ childrenOf x.entry j, ∃ e, e < k ∧ tget v.kids (q * 4096 + e) none ≠ none) →
        v.next = [] → (∀ e ∈ x.nodes, e.2.next = []) → completes (.nodeTimeout j) s fun t =>
        bitsOf (rdN t.mem (treeKey c n 2) 8) 63 32 = (bitsOf (rdN s.mem (treeKey c n 2) 8) 63 32 + 1) % 2 ^ 32 ∧ treeClosed t c n = treeClosed s c n ∧
        treeRun t c n = { x with nodes := [] } ∧
        ∀ tid y p d, x.team = some tid → s.tm tid = some y → y.cores[bitsOf (treeEntWord x.entry 0) 47 40]? = some p →
          d = bitsOf (treeEntWord x.entry 0) 39 35 →
          (t.co p).sem d = { (s.co p).sem d with done := ((s.co p).sem d).done + 1 }))

/-! ### Itineraries and conversation objects (R361, R364, R371, R374) -/

/-- ITINERARY_LOAD: a block that obeys R361 is loaded, VALID 1 and BAD 0, with NROLES and the valid transition words of each state as they stand; another is not loaded, VALID 0
and BAD 1; one that is in use keeps what is loaded and sets BAD. CONVERSATION_OPEN of an idle object that R364 admits opens it, at its home with
the itinerary's rows, CUR and SEQ 0 and USE one higher; another sets BAD; of an object that is not idle nothing changes. The command is taken when it is the first thing that concerns the
object, in the order of arrival (R368). -/
def Parts.ItinerariesAndOpening : Prop :=
  ∀ (s : State) (n : Nat),
    (∀ (u : State) (rest : List Act), u = { s with acts := rest } → nextAct s (fun a => ∃ e, a = .itinerary e) (.itinerary n) rest → completes .itineraryLoad s fun t =>
      t = { u with mem := t.mem, itins := t.itins } ∧ memBut s t (itinKey n 0) 8 ∧
      rdN t.mem (itinKey n 0) 8 % 2 ^ 62 = rdN s.mem (itinKey n 0) 8 % 2 ^ 62 ∧
      (rdN s.mem (itinKey n 1) 8 % 2 ^ 32 ≠ 0 → t.itins = s.itins ∧ bitsOf (rdN t.mem (itinKey n 0) 8) 63 62 = (if (s.itins.any fun e => e.1 == n) then 3 else 1)) ∧
      (rdN s.mem (itinKey n 1) 8 % 2 ^ 32 = 0 → itinOk s n = true → bitsOf (rdN t.mem (itinKey n 0) 8) 63 62 = 2 ∧
        (t.itins.any fun e => e.1 == n) = true ∧
        itinOf t n = ⟨itinRoles s n, (List.range (itinStates s n)).map fun st => (itinRow s n st).takeWhile fun w => bitsOf w 31 31 == 1⟩) ∧
      (rdN s.mem (itinKey n 1) 8 % 2 ^ 32 = 0 → itinOk s n = false → bitsOf (rdN t.mem (itinKey n 0) 8) 63 62 = 1 ∧ (t.itins.any fun e => e.1 == n) = false)) ∧
    (s.cur = n → takeCommand s n 15 = none → completes .conversationOpen s fun t => t = s) ∧
    ∀ u, s.cur = n → takeCommand s n 15 = some u → n < 65536 →
      (convLife s n ≠ 0 → completes .conversationOpen s fun t => t = u) ∧
      (convLife s n = 0 → opens s n = false → completes .conversationOpen s fun t =>
        t = { u with mem := t.mem } ∧ convLife t n = 0 ∧ bitsOf (convWord t n 0) 63 62 = 1 ∧ convCtx t n = convCtx s n ∧ memBut s t (convKey n 0) 8) ∧
      (convLife s n = 0 → opens s n = true → convProxy s n = true → completes .conversationOpen s fun t =>
        t = { u with mem := t.mem, convs := t.convs } ∧ convLife t n = 1 ∧ convCur t n = 0 ∧ convSeq t n = 0 ∧ convRun t n = ConvRun.reset ∧
        convCtx t n = convCtx s n ∧ memBut s t (convKey n 0) 8) ∧
      (convLife s n = 0 → opens s n = true → convProxy s n = false → completes .conversationOpen s fun t =>
        t = { u with mem := t.mem, convs := t.convs } ∧ convCur t n = 0 ∧ convSeq t n = 0 ∧
        convRun t n = { rows := (itinOf s (convItin s n)).rows, binds := [] } ∧ convCtx t n = convCtx s n ∧ convItin t n = convItin s n ∧
        convLife t n = (if (itinOf s (convItin s n)).rows.getD 0 [] = [] then 2 else 1) ∧
        rdN t.mem (itinKey (convItin s n) 1) 8 = (rdN s.mem (itinKey (convItin s n) 1) 8 + 1) % 2 ^ 64)

/-- CONVERSATION_KILL of an open or closed conversation at its home with no role bound and no armed collective aborts it, LIFE 3 and LOST 0xFF, and drops what
is not placed; at a proxy it sends the kill to the home (R371). CONVERSATION_FREE of a closed or aborted one with nothing unplaced, here or on its way to a holder, zeroes the object,
and the itinerary's USE is one lower; any other is left alone (R374). A command to an object is taken when it is the first thing that concerns it, in the order of arrival, and with none
there nothing changes (R368). That FREE leaves CTX, and that KILL acts on a closed conversation (LIFE 2), is the model's reading (log entry 69, DEDUCED). -/
def Parts.ConversationsEnd : Prop :=
  ∀ (s : State) (n : Nat), n < 65536 →
    (∀ op u, takeCommand s n op = some u → ∃ l i r, (dropBroken s).convIn = l ++ i :: r ∧ u = { s with convIn := l ++ r } ∧ i.pkt.op = op ∧
      itemConv (dropBroken s) i = some n ∧ ∀ j ∈ l, itemConv (dropBroken s) j ≠ some n) ∧
    (s.cur = n →
      (takeCommand s n 14 = none → completes .conversationKill s fun t => t = s) ∧
      (takeCommand s n 16 = none → completes .conversationFree s fun t => t = s) ∧
      (∀ u, takeCommand s n 14 = some u →
        (convLife s n = 0 ∨ convLife s n = 3 → completes .conversationKill s fun t => t = u) ∧
        (convLife s n = 1 ∨ convLife s n = 2 → convProxy s n = false → (convRun s n).binds = [] → collIn s (convCtx s n) 1 = [] → s.flags = [] →
          completes .conversationKill s fun t =>
            convLife t n = 3 ∧ convLost t n = 0xFF ∧ convCtx t n = convCtx s n ∧ (∀ m ∈ t.places, m.conv ≠ n) ∧ allRegsKept s t) ∧
        (convLife s n = 1 ∨ convLife s n = 2 → convProxy s n = true →
          (convUsable s (convCtx s n) (convHconn s n) = false → completes .conversationKill s fun t => t = u) ∧
          (convUsable s (convCtx s n) (convHconn s n) = true → outgoingDistinct s (convCtx s n) (convHconn s n) → completes .conversationKill s fun t =>
            messageQueued s t 9 1 0 0 0 0xFF (BitVec.ofNat 32 (convHobj s n)) 0 ∧ convLife t n = convLife s n))) ∧
      ∀ u, takeCommand s n 16 = some u →
        (convLife s n < 2 ∨ convUnplaced u n = true → completes .conversationFree s fun t => t = u) ∧
        (2 ≤ convLife s n → convUnplaced u n = false → completes .conversationFree s fun t =>
          t = { u with mem := t.mem, convs := t.convs } ∧ convWord t n 0 = convCtx s n * 2 ^ 54 ∧ (∀ w, 0 < w → w < 32 → convWord t n w = 0) ∧
          convRun t n = ConvRun.reset ∧
          rdN t.mem (itinKey (convItin s n) 1) 8 =
            (if convProxy s n then rdN s.mem (itinKey (convItin s n) 1) 8 else rdN s.mem (itinKey (convItin s n) 1) 8 - 1)))

/-! ### Encoding -/

/-- Tables 4.2 and 4.3, the encodings of the scalar opcode table: decoding the word of a well-formed scalar instruction gives the instruction
back, and a word that decodes is the word of the well-formed instruction that it decodes to: no word has two meanings. -/
def Obligations.ScalarEncodingRoundTrip : Prop :=
  (∀ (i : Instr) (w : Word), i.wellFormed = true → encodeScalar i = some w → decodeWord w = .ok i) ∧
  ∀ (w : Word) (i : Instr), decodeWord w = .ok i → i.wellFormed = true ∧ encodeScalar i = some w

/-- Tables 8.3, 8.4 and 8.10 to 8.13: decoding the 512 bits of a well-formed record gives the record back with every field, and every 512 bits
are those of the well-formed record that they decode to. -/
def Obligations.RecordEncodingRoundTrip : Prop :=
  (∀ (i : Instr) (w : BitVec 512), i.wellFormed = true → encodeRecord i = some w → decodeRecord w = i) ∧
  ∀ w : BitVec 512, (decodeRecord w).wellFormed = true ∧ encodeRecord (decodeRecord w) = some w

/-- Words that the spec writes out (Tables 4.8, 5.4, 6.11, 8.6, 12.7, 20.3 and 22.7, and the PUT record of chapter 11) decode to the instructions beside
them. -/
def Obligations.SampleDecodings : Prop :=
  let g : Guard := ⟨0, false⟩
  let r (n : BitVec 6) : Src := ⟨n, false⟩
  let zero : Desc := ⟨0, 0, 0, 0, 0, 0, 0, 0⟩
  decodeWord 0x0740_24A2_C100_0000 = .ok (.sel g 9 (r 10) (r 11) 4) ∧ decodeWord 0x1140_24A0_0000_03C8 = .ok (.extu g 9 (r 10) 8 15) ∧
  decodeWord 0x2300_0890_0FFF_FFFF = .ok (.cmpLtuImm g 2 (r 9) 0xFFFFFFF) ∧ decodeWord 0x3003_0000_0FFF_FFFC = .ok (.br ⟨1, true⟩ 0xFFFFFFC) ∧
  decodeWord 0x3240_0019_0000_0005 = .ok (.loopi g 0 100 5) ∧ decodeWord 0x46C0_00C3_C000_0018 = .ok (.stG g (r 12) (r 15) 24) ∧
  decodeWord 0x6040_0C50_0040_0000 = .ok (.pushm g 3 (r 5) 1 0) ∧ decodeWord 0x6100_0110_0140_0000 = .ok (.semadd g (r 17) 5) ∧
  decodeWord 0x6500_24C0_0000_0000 = .ok (.ldAcq g 9 (r 12) 0) ∧ decodeWord 0x70C0_5540_0000_0000 = .ok (.csendA g 21 (r 20) 0) ∧
  decodeWord 0x8000_2C00_0000_0802 = .ok (.mfcr g 11 0x802) ∧ decodeWord 0x8080_0000_0000_0007 = .ok (.trapOp g 7) ∧
  decodeRecord ((0x0000_8000_1000_0000#64 ++ 0x80#64 ++ 0x0140_4000_4000_0000#64 ++ 0x80#64 ++ 0x0001_0001_0001_0004#64 ++
      0x2102_3070_0D00_0000#64 : BitVec 384).setWidth 512) =
    .put { mods := 0x2307, awSem := 0, awEn := false, raSem := 6, raEn := true, thr := 0, kat := false, phase := false, event := false,
           low := 0, n3 := 1, n2 := 1, n1 := 1, n0 := 4, d := ⟨0x0140_4000, 4, 0, 0, 0, 0, 0, 0x80⟩, a := ⟨0x8000, 1, 0, 0, 0, 0, 0, 0x80⟩, b := zero }

/-! ### The machine's turn, and what it starts from -/

/-- The word that an agent fetches: from a line of its instruction cache that holds its pc, or from where it lies: a firmware core's in its local store,
every other agent's at the home of its pc, which must be executable (R31, R68, Table 1.1). -/
def Parts.wordAt (s : State) (a : Nat) (w : Word) : Prop :=
  (∃ l, codeLine s a = some l ∧ w = BitVec.ofNat 64 (lineBytes l.data (s.sc a).pc 8)) ∨
  codeLine s a = none ∧ ∃ k,
    (if isFw a then k = fwKey (a - 8192) ((s.sc a).pc.toNat % 0x1_0000) else resolve s a (s.sc a).ctx.toNat (s.sc a).pc.toNat 1 = .ok k) ∧
    lineUncorrectable s k = false ∧ w = BitVec.ofNat 64 (rdN s.mem k 8)

/-- A turn of an engine that runs, for which no word of an issue has been read or written ahead: of queue q of core p, limited to n issues or not. -/
def Statements.plainTurn (s : State) (p : Nat) (q : BitVec 2) (n : Option Nat) (ts : List Turn) : Prop :=
  s.sched = (match n with | none => .engine p q | some n => .some p q n) :: ts ∧ isCore p = true ∧ q ≠ 3#2 ∧ ((s.co p).queue q).early = [] ∧
  ((s.co p).queue q).landed = [] ∧ ((s.co p).queue q).stopped = false

/-- Table 4.4: when the word that a running agent fetches decodes to an instruction, a turn of its stream is exec of that instruction, and a word that
breaks its form traps ILLEGAL_OP; its fetch logs the errors of the line that it reads (R414), and with the first instruction of a task or a handler its
clocks start (R246, R402). A turn of an engine is exec of the record that its queue is
in, or else of the next one of its queue, if there is one, whose slot is read with its errors corrected or consumed (R77, R137); one that is stopped
between its issues changes nothing; a turn of an event is
exec of it; time passes, and PALARM follows it (R426). The schedule, whose turns a step takes one by one, and which agent runs while it is empty are
the model's own (log entries 1 and 2). -/
def Obligations.StepRunsDecoded : Prop :=
  (∀ (s : State) (w : Word) (i : Instr), s.sched = [] → (stream s).run = .running → Parts.wordAt s s.cur w →
    decodeWord w = .ok i → step s = exec i (noteFetch s s.cur)) ∧
  (∀ (s : State) (w : Word) (e : DecodeError), s.sched = [] → (stream s).run = .running → (stream s).fresh = false → canTrap s → s.ecc = [] →
    Parts.wordAt s s.cur w →
    decodeWord w = .error e → ∃ t, step s = .next t ∧ trapped s 1 1 w t) ∧
  (∀ s : State, s.sched = [] → (stream s).run ≠ .running → step s = .next s) ∧
  (∀ (s : State) (a : Nat) (ts : List Turn) (w : Word) (i : Instr), s.sched = .scalar a :: ts → isAgent a = true → (s.sc a).run = .running →
    Parts.wordAt s a w → decodeWord w = .ok i → step s = exec i (noteFetch { s with cur := a, sched := ts } a)) ∧
  (∀ (s : State) (a : Nat), s.ecc = [] →
    noteFetch s a = if (s.sc a).fresh then s.putSc a { s.sc a with fresh := false, start := s.time, wd := s.time } else s) ∧
  (∀ (s u : State) (p : Nat) (q : BitVec 2) (ts : List Turn) (v : Queue), v = (s.co p).queue q → u = { s with cur := p, curq := q, sched := ts } →
    Statements.plainTurn s p q none ts →
    (∀ f, v.current = some f → step s = exec (decodeRecord f.words) u) ∧
    (∀ c, v.current = none → (s.co p).nextSlot q = some c →
      (spBad s p (v.slot c) 64 = false → step s = exec (decodeRecord (Queue.record s p v c)) (spFix u p (v.slot c) 64)) ∧
      (v.words = [] → Queue.record s p v c = BitVec.ofNat 512 (rdN s.mem (spKey p (v.slot c)) 64)) ∧
      (s.ecc = [] → spBad s p (v.slot c) 64 = false ∧ spFix u p (v.slot c) 64 = u) ∧
      (spBad s p (v.slot c) 64 = true → v.stopped = false → ∃ t, step s = .next t ∧ t.mem = s.mem ∧ ((t.co p).queue q).stopped = true ∧
        ∃ f : FaultRec, t.faults = s.faults ++ [f] ∧ f.cause = 0x22 ∧ f.detail = 0 ∧ f.pos = c.setWidth 64)) ∧
    (v.current = none → (s.co p).nextSlot q = none → step s = .next u)) ∧
  (∀ (s : State) (p : Nat) (q : BitVec 2) (n : Option Nat) (ts : List Turn) (v : Queue), v = (s.co p).queue q → v.stopped = true → v.inStep = false →
    (s.co p).rolling = false → s.sched = (match n with | none => .engine p q | some n => .some p q n) :: ts → isCore p = true → q ≠ 3#2 → v.early = [] →
    v.landed = [] → s.ecc = [] → s.lim = none → step s = .next { s with cur := p, curq := q, sched := ts }) ∧
  (∀ (s t : State) (p : Nat) (q : BitVec 2) (n : Nat) (ts : List Turn) (f : Flight), Statements.plainTurn s p q (some n) ts →
    ((s.co p).queue q).current = some f → exec (decodeRecord f.words) { s with cur := p, curq := q, sched := ts, lim := some n } = .next t →
    step s = .next { t with lim := none }) ∧
  (∀ (s : State) (n : Nat) (i : Instr) (ts : List Turn), s.sched = .event n i :: ts → isFetched i = false → s.arrival = none →
    step s = exec i { s with cur := n, sched := ts }) ∧
  ∀ (s u : State) (n : Nat) (ts : List Turn), s.sched = .pass n :: ts → u = { s with time := s.time + n, sched := ts } →
    (s.inReset = true → step s = .next u) ∧ (s.inReset = false → ∃ t, step s = .next t ∧ alarmJudged u t)

/-- Every step keeps memory's canonical form: addresses strictly rising, and no byte listed that reads as an unlisted one does (log entry 4). -/
def Obligations.MemoryStaysCanonical : Prop := ∀ s t : State, memOk s → step s = .next t → memOk t

/-- What reset leaves: MODSTAT reads 0 with LEAD 15 (Table 25.2), LEASE_RUN is 16 in every quad (Table 10.7), SCRUBCFG has EN 1 and PERIOD 480 on every
die (Table 24.3), semaphores, accumulator, empty marks and masks are zero; memory is canonical, and nothing in it is listed. The zeroes of registers for
which the spec gives no reset value are the model's (log entry 3). -/
def Obligations.ResetState : Prop :=
  memOk State.reset ∧ State.reset.mem = [] ∧ modstat State.reset = 15 * 2 ^ 24 ∧
  (∀ n, (State.reset.qd n).lease.toNat = 16) ∧
  (∀ d, (State.reset.di d).scrubcfg.toNat = 2 ^ 63 + 480) ∧
  (∀ p, (State.reset.co p).svc = .spare ∧ (State.reset.co p).capmask = 0 ∧ (State.reset.co p).tlb = []) ∧
  (∀ p k, (State.reset.co p).sem k = ⟨0, 0, false⟩) ∧
  ∀ a, (State.reset.sc a).run = .idle ∧ (State.reset.sc a).status = 0 ∧ (State.reset.sc a).empty = 0 ∧ ∀ r, (State.reset.sc a).reg r = 0

/-! ### The statements that gather several of these -/

/-- Integer operations, products, quotients, saturating sums, counts and reversals: result and frame: the parts as said above. -/
def Obligations.IntegerArithmetic : Prop := Parts.IntegerOperationResults ∧ Parts.ProductsAndSaturatingSums ∧ Parts.DivisionResults ∧ Parts.CountsAndReversals

/-- Immediate operations, bit fields, extensions: result and frame: the parts as said above. -/
def Obligations.ImmediatesAndFields : Prop := Parts.ImmediateResults ∧ Parts.FieldAndExtensionResults

/-- Compares, predicate operations, MFP and MTP: result and frame: the parts as said above. -/
def Obligations.ComparesAndPredicates : Prop := Parts.CompareResults ∧ Parts.PredicateOperations

/-- Empty sources trap or stall by their policy bit, empty destinations stall: the parts as said above. -/
def Obligations.EmptyOperands : Prop := Parts.EmptySourcePolicy ∧ Parts.EmptyDestinationStalls

/-- Unassigned opcodes, the wrong kind of core and missing privilege trap ILLEGAL_OP: the parts as said above. -/
def Obligations.IllegalOperations : Prop := Parts.UnassignedOpcodeTraps ∧ Parts.WrongKindOfCoreTraps ∧ Parts.PrivilegedOutsideContextZeroTraps

/-- Scratchpad loads and stores, and the accesses that trap: the parts as said above. -/
def Obligations.LocalAccesses : Prop := Parts.LocalLoadResults ∧ Parts.LocalStoreResults ∧ Parts.AccessTraps

/-- Global loads and acquire loads: issue, the value that arrives, and the context faults of global accesses: the parts as said above. -/
def Obligations.GlobalLoads : Prop := Parts.GlobalLoadIssues ∧ Parts.GlobalLoadFillArrives ∧ Parts.AcquireLoad ∧ Parts.GlobalAccessFaults

/-- Global stores enter the cache, and a write-back performs the dirty bytes at the home: the parts as said above. -/
def Obligations.GlobalStores : Prop := Parts.GlobalStoreResults ∧ Parts.WritebackPerforms

/-- PUSH, PUSHM, RTAIL and QFENCE: what a queue accepts and refuses: the parts as said above. -/
def Obligations.RecordQueues : Prop := Parts.PushesAccept ∧ Parts.PushRefusesBadRecords ∧ Parts.PushmTraps ∧ Parts.RtailAccepts ∧ Parts.QfenceWritesFences

/-- PAUSE, WAITA and the barriers: waiting and what ends it: the parts as said above. -/
def Obligations.WaitingAndBarriers : Prop := Parts.PauseAndMonitoredWait ∧ Parts.BarrierArrivalAndCompletion

/-- Sync objects: acquire, grant and release: the parts as said above. -/
def Obligations.AcquireAndRelease : Prop := Parts.AcquireAndGrant ∧ Parts.ReleaseResults

/-- SPAWN and MSEND: what enters the dispatcher and the network: the parts as said above. -/
def Obligations.SpawnAndMsend : Prop := Parts.SpawnResults ∧ Parts.MsendResults ∧ Parts.OwnMessageArrives

/-- CSEND, CROLE and CDELEG: their requests, and the binding of a role: the parts as said above. -/
def Obligations.ConversationInstructions : Prop := Parts.ConversationRequests ∧ Parts.RoleClaims

/-- Conversations: verdicts of the home, placement at a role, loss of a party: the parts as said above. -/
def Obligations.VerdictsAndPlacement : Prop := Parts.CsendVerdicts ∧ Parts.CdelegVerdicts ∧ Parts.PlacementAndLoss

/-- MFCR and MTCR of the control registers: the parts as said above. -/
def Obligations.ControlRegisters : Prop := Parts.MfcrReads ∧ Parts.MtcrWrites

/-- MTCR to ring registers, MLEASE and the firmware registers with rows of their own: the parts as said above. -/
def Obligations.RingLeaseAndFirmwareWrites : Prop := Parts.RingAndLeaseWrites ∧ Parts.FirmwareWrites

/-- DONE, PROBE, PHINT, PHASE and SHOOT, the end of a task and the answer to a page request: the parts as said above. -/
def Obligations.TaskEndingProbesAndPhases : Prop := Parts.DoneProbeAndPhint ∧ Parts.TaskEndAndPageAnswer ∧ Parts.PhaseAndShoot

/-- VLD, VST and the accumulator transfers: result and frame: the parts as said above. -/
def Obligations.VectorMemoryAndAccumulator : Prop := Parts.VectorLoadResults ∧ Parts.VectorStoreResults ∧ Parts.AccumulatorTransfers

/-- Vector arithmetic, compares, masks and moves: lanes, flags and frame: the parts as said above. -/
def Obligations.VectorCompute : Prop := Parts.VectorArithmeticResults ∧ Parts.VectorComparesAndMoves

/-- What holds a record back, and the order of its issues: the parts as said above. -/
def Obligations.RecordGatesAndOrder : Prop := Parts.RecordGates ∧ Parts.IssuesInNestOrder

/-- Conversions, trits, reductions and permutations: the parts as said above. -/
def Obligations.ConversionsAndReductions : Prop := Parts.ConversionResults ∧ Parts.TritResults ∧ Parts.ReductionResults

/-- MCFG, MZERO and the matrix products: accumulator and frame: the parts as said above. -/
def Obligations.MatrixOperations : Prop := Parts.MatrixSetupResults ∧ Parts.MatrixProductResults

/-- Completion of records, fences, and the grant of the matrix array: the parts as said above. -/
def Obligations.CompletionAndGrants : Prop := Parts.RecordCompletion ∧ Parts.FencesAndGrants

/-- COPY, FILL, PUT and GET: bytes copied, and every other byte as it was: the parts as said above. -/
def Obligations.CopyRecords : Prop := Parts.LocalCopyResults ∧ Parts.GlobalCopyResults

/-- PUTRED, MCAST, APUT, SEMPOST and the combine tree: the parts as said above. -/
def Obligations.ReductionsAndMulticast : Prop := Parts.ReduceAndMulticast ∧ Parts.ApertureResults

/-- Packets, remote writes, remote reads and flushes that arrive: the parts as said above. -/
def Obligations.Arrivals : Prop := Parts.PacketArrivals ∧ Parts.RmaArrivals

/-- Acknowledgements, retransmission and refusal on a connection: the parts as said above. -/
def Obligations.DeliveryAndRetransmission : Prop := Parts.Acknowledgements ∧ Parts.RetransmissionAndRefusal

/-- Milestone increments and the operations that they fire: the parts as said above. -/
def Obligations.MilestonesAndOperations : Prop := Parts.MilestoneIncrements ∧ Parts.TriggeredOperations

/-- Handlers start and stop, and drain requests end: the parts as said above. -/
def Obligations.HandlersAndDrains : Prop := Parts.HandlerStartsAndStops ∧ Parts.DrainRequests

/-- The host port: ring registers, ring entries, and the teardown of a PASID: the parts as said above. -/
def Obligations.HostPort : Prop := Parts.HostRingRegisters ∧ Parts.HostRingFetches ∧ Parts.PasidTeardown

/-- Work items: completion, and which queue the dispatcher serves: the parts as said above. -/
def Obligations.WorkItems : Prop := Parts.WorkItemCompletions ∧ Parts.DispatcherChooses

/-- Teams: limits, moves, saves and restores: the parts as said above. -/
def Obligations.Teams : Prop := Parts.TeamMovesAndLimits ∧ Parts.TeamSaves ∧ Parts.TeamRestores

/-- Contexts: creation, the halt line, and the halt report: the parts as said above. -/
def Obligations.ContextCreationAndHalt : Prop := Parts.ContextCreation ∧ Parts.ContextHalts ∧ Parts.HaltReports

/-- Watchdogs, and the kill and zeroing of a context: the parts as said above. -/
def Obligations.WatchdogsAndContextEnd : Prop := Parts.Watchdogs ∧ Parts.ContextEnds

/-- Commands to cores and the states of their service: the parts as said above. -/
def Obligations.CoreService : Prop := Parts.ServiceCommands ∧ Parts.ServiceTransitions

/-- Scrubbing, retraining, and firmware routines: the parts as said above. -/
def Obligations.ScrubbingAndRoutines : Prop := Parts.ScrubbingAndRetraining ∧ Parts.FirmwareRoutines

/-- The release of reset, and the start of dies and quad groups: the parts as said above. -/
def Obligations.BringUp : Prop := Parts.ResetReleases ∧ Parts.DiesStart

/-- Power and thermal alarms, reset, and the attestation report: the parts as said above. -/
def Obligations.AlarmsAndAttestation : Prop := Parts.AlarmsAndReset ∧ Parts.Attestation

/-- Trees, time-slot tables and collectives: loading and timeouts: the parts as said above. -/
def Obligations.TablesAndTimeouts : Prop := Parts.TablesLoad ∧ Parts.SlotTimeouts ∧ Parts.NodeTimeouts

/-- Itineraries, and conversations that open and end: the parts as said above. -/
def Obligations.ItinerariesAndConversations : Prop := Parts.ItinerariesAndOpening ∧ Parts.ConversationsEnd
end

