-- ==== Sys2Proof/Laws/Exec.lean ====
section
/-! SUPPORT. Which meaning each instruction has: one equation for each constructor, so that no proof unfolds the dispatch. -/
namespace Sys2Proof.Machine

@[simp] theorem exec_nop (g : Guard) (s : State) : exec (.nop g) s = execNop g s := rfl
@[simp] theorem exec_add (g : Guard) (d : BitVec 6) (a b : Src) (s : State) : exec (.add g d a b) s = execAdd g d a b s := rfl
@[simp] theorem exec_sub (g : Guard) (d : BitVec 6) (a b : Src) (s : State) : exec (.sub g d a b) s = execSub g d a b s := rfl
@[simp] theorem exec_and (g : Guard) (d : BitVec 6) (a b : Src) (s : State) : exec (.and g d a b) s = execAnd g d a b s := rfl
@[simp] theorem exec_or (g : Guard) (d : BitVec 6) (a b : Src) (s : State) : exec (.or g d a b) s = execOr g d a b s := rfl
@[simp] theorem exec_xor (g : Guard) (d : BitVec 6) (a b : Src) (s : State) : exec (.xor g d a b) s = execXor g d a b s := rfl
@[simp] theorem exec_andn (g : Guard) (d : BitVec 6) (a b : Src) (s : State) : exec (.andn g d a b) s = execAndn g d a b s := rfl
@[simp] theorem exec_shl (g : Guard) (d : BitVec 6) (a b : Src) (s : State) : exec (.shl g d a b) s = execShl g d a b s := rfl
@[simp] theorem exec_shr (g : Guard) (d : BitVec 6) (a b : Src) (s : State) : exec (.shr g d a b) s = execShr g d a b s := rfl
@[simp] theorem exec_sar (g : Guard) (d : BitVec 6) (a b : Src) (s : State) : exec (.sar g d a b) s = execSar g d a b s := rfl
@[simp] theorem exec_min (g : Guard) (d : BitVec 6) (a b : Src) (s : State) : exec (.min g d a b) s = execMin g d a b s := rfl
@[simp] theorem exec_max (g : Guard) (d : BitVec 6) (a b : Src) (s : State) : exec (.max g d a b) s = execMax g d a b s := rfl
@[simp] theorem exec_minu (g : Guard) (d : BitVec 6) (a b : Src) (s : State) : exec (.minu g d a b) s = execMinu g d a b s := rfl
@[simp] theorem exec_maxu (g : Guard) (d : BitVec 6) (a b : Src) (s : State) : exec (.maxu g d a b) s = execMaxu g d a b s := rfl
@[simp] theorem exec_sel (g : Guard) (d : BitVec 6) (a b : Src) (p : BitVec 5) (s : State) : exec (.sel g d a b p) s = execSel g d a b p s := rfl
@[simp] theorem exec_mul (g : Guard) (d : BitVec 6) (a b : Src) (s : State) : exec (.mul g d a b) s = execMul g d a b s := rfl
@[simp] theorem exec_mulh (g : Guard) (d : BitVec 6) (a b : Src) (s : State) : exec (.mulh g d a b) s = execMulh g d a b s := rfl
@[simp] theorem exec_mulhu (g : Guard) (d : BitVec 6) (a b : Src) (s : State) : exec (.mulhu g d a b) s = execMulhu g d a b s := rfl
@[simp] theorem exec_div (g : Guard) (d : BitVec 6) (a b : Src) (s : State) : exec (.div g d a b) s = execDiv g d a b s := rfl
@[simp] theorem exec_divu (g : Guard) (d : BitVec 6) (a b : Src) (s : State) : exec (.divu g d a b) s = execDivu g d a b s := rfl
@[simp] theorem exec_rem (g : Guard) (d : BitVec 6) (a b : Src) (s : State) : exec (.rem g d a b) s = execRem g d a b s := rfl
@[simp] theorem exec_remu (g : Guard) (d : BitVec 6) (a b : Src) (s : State) : exec (.remu g d a b) s = execRemu g d a b s := rfl
@[simp] theorem exec_adds (g : Guard) (d : BitVec 6) (a b : Src) (s : State) : exec (.adds g d a b) s = execAdds g d a b s := rfl
@[simp] theorem exec_subs (g : Guard) (d : BitVec 6) (a b : Src) (s : State) : exec (.subs g d a b) s = execSubs g d a b s := rfl
@[simp] theorem exec_addus (g : Guard) (d : BitVec 6) (a b : Src) (s : State) : exec (.addus g d a b) s = execAddus g d a b s := rfl
@[simp] theorem exec_subus (g : Guard) (d : BitVec 6) (a b : Src) (s : State) : exec (.subus g d a b) s = execSubus g d a b s := rfl
@[simp] theorem exec_clz (g : Guard) (d : BitVec 6) (a : Src) (s : State) : exec (.clz g d a) s = execClz g d a s := rfl
@[simp] theorem exec_ctz (g : Guard) (d : BitVec 6) (a : Src) (s : State) : exec (.ctz g d a) s = execCtz g d a s := rfl
@[simp] theorem exec_popc (g : Guard) (d : BitVec 6) (a : Src) (s : State) : exec (.popc g d a) s = execPopc g d a s := rfl
@[simp] theorem exec_brev (g : Guard) (d : BitVec 6) (a : Src) (s : State) : exec (.brev g d a) s = execBrev g d a s := rfl
@[simp] theorem exec_bswap (g : Guard) (d : BitVec 6) (a : Src) (s : State) : exec (.bswap g d a) s = execBswap g d a s := rfl
@[simp] theorem exec_addImm (g : Guard) (d : BitVec 6) (a : Src) (imm : BitVec 28) (s : State) : exec (.addImm g d a imm) s = execAddImm g d a imm s := rfl
@[simp] theorem exec_andImm (g : Guard) (d : BitVec 6) (a : Src) (imm : BitVec 28) (s : State) : exec (.andImm g d a imm) s = execAndImm g d a imm s := rfl
@[simp] theorem exec_orImm (g : Guard) (d : BitVec 6) (a : Src) (imm : BitVec 28) (s : State) : exec (.orImm g d a imm) s = execOrImm g d a imm s := rfl
@[simp] theorem exec_xorImm (g : Guard) (d : BitVec 6) (a : Src) (imm : BitVec 28) (s : State) : exec (.xorImm g d a imm) s = execXorImm g d a imm s := rfl
@[simp] theorem exec_shlImm (g : Guard) (d : BitVec 6) (a : Src) (k : BitVec 6) (s : State) : exec (.shlImm g d a k) s = execShlImm g d a k s := rfl
@[simp] theorem exec_shrImm (g : Guard) (d : BitVec 6) (a : Src) (k : BitVec 6) (s : State) : exec (.shrImm g d a k) s = execShrImm g d a k s := rfl
@[simp] theorem exec_sarImm (g : Guard) (d : BitVec 6) (a : Src) (k : BitVec 6) (s : State) : exec (.sarImm g d a k) s = execSarImm g d a k s := rfl
@[simp] theorem exec_li (g : Guard) (d : BitVec 6) (imm : BitVec 28) (s : State) : exec (.li g d imm) s = execLi g d imm s := rfl
@[simp] theorem exec_lsi (g : Guard) (d : BitVec 6) (a : Src) (imm : BitVec 28) (s : State) : exec (.lsi g d a imm) s = execLsi g d a imm s := rfl
@[simp] theorem exec_adr (g : Guard) (d : BitVec 6) (imm : BitVec 28) (s : State) : exec (.adr g d imm) s = execAdr g d imm s := rfl
@[simp] theorem exec_extu (g : Guard) (d : BitVec 6) (a : Src) (pos len1 : BitVec 6) (s : State) : exec (.extu g d a pos len1) s = execExtu g d a pos len1 s := rfl
@[simp] theorem exec_exts (g : Guard) (d : BitVec 6) (a : Src) (pos len1 : BitVec 6) (s : State) : exec (.exts g d a pos len1) s = execExts g d a pos len1 s := rfl
@[simp] theorem exec_ins (g : Guard) (d : BitVec 6) (a : Src) (pos len1 : BitVec 6) (s : State) : exec (.ins g d a pos len1) s = execIns g d a pos len1 s := rfl
@[simp] theorem exec_sxt (g : Guard) (d : BitVec 6) (a : Src) (w : BitVec 2) (s : State) : exec (.sxt g d a w) s = execSxt g d a w s := rfl
@[simp] theorem exec_zxt (g : Guard) (d : BitVec 6) (a : Src) (w : BitVec 2) (s : State) : exec (.zxt g d a w) s = execZxt g d a w s := rfl
@[simp] theorem exec_cmpEq (g : Guard) (pd : BitVec 5) (a b : Src) (s : State) : exec (.cmpEq g pd a b) s = execCmpEq g pd a b s := rfl
@[simp] theorem exec_cmpNe (g : Guard) (pd : BitVec 5) (a b : Src) (s : State) : exec (.cmpNe g pd a b) s = execCmpNe g pd a b s := rfl
@[simp] theorem exec_cmpLt (g : Guard) (pd : BitVec 5) (a b : Src) (s : State) : exec (.cmpLt g pd a b) s = execCmpLt g pd a b s := rfl
@[simp] theorem exec_cmpLe (g : Guard) (pd : BitVec 5) (a b : Src) (s : State) : exec (.cmpLe g pd a b) s = execCmpLe g pd a b s := rfl
@[simp] theorem exec_cmpLtu (g : Guard) (pd : BitVec 5) (a b : Src) (s : State) : exec (.cmpLtu g pd a b) s = execCmpLtu g pd a b s := rfl
@[simp] theorem exec_cmpLeu (g : Guard) (pd : BitVec 5) (a b : Src) (s : State) : exec (.cmpLeu g pd a b) s = execCmpLeu g pd a b s := rfl
@[simp] theorem exec_cmpEqImm (g : Guard) (pd : BitVec 5) (a : Src) (imm : BitVec 28) (s : State) : exec (.cmpEqImm g pd a imm) s = execCmpEqImm g pd a imm s := rfl
@[simp] theorem exec_cmpNeImm (g : Guard) (pd : BitVec 5) (a : Src) (imm : BitVec 28) (s : State) : exec (.cmpNeImm g pd a imm) s = execCmpNeImm g pd a imm s := rfl
@[simp] theorem exec_cmpLtImm (g : Guard) (pd : BitVec 5) (a : Src) (imm : BitVec 28) (s : State) : exec (.cmpLtImm g pd a imm) s = execCmpLtImm g pd a imm s := rfl
@[simp] theorem exec_cmpLeImm (g : Guard) (pd : BitVec 5) (a : Src) (imm : BitVec 28) (s : State) : exec (.cmpLeImm g pd a imm) s = execCmpLeImm g pd a imm s := rfl
@[simp] theorem exec_cmpLtuImm (g : Guard) (pd : BitVec 5) (a : Src) (imm : BitVec 28) (s : State) : exec (.cmpLtuImm g pd a imm) s = execCmpLtuImm g pd a imm s := rfl
@[simp] theorem exec_cmpLeuImm (g : Guard) (pd : BitVec 5) (a : Src) (imm : BitVec 28) (s : State) : exec (.cmpLeuImm g pd a imm) s = execCmpLeuImm g pd a imm s := rfl
@[simp] theorem exec_pand (g : Guard) (pd pa pb : BitVec 5) (s : State) : exec (.pand g pd pa pb) s = execPand g pd pa pb s := rfl
@[simp] theorem exec_por (g : Guard) (pd pa pb : BitVec 5) (s : State) : exec (.por g pd pa pb) s = execPor g pd pa pb s := rfl
@[simp] theorem exec_pxor (g : Guard) (pd pa pb : BitVec 5) (s : State) : exec (.pxor g pd pa pb) s = execPxor g pd pa pb s := rfl
@[simp] theorem exec_pandn (g : Guard) (pd pa pb : BitVec 5) (s : State) : exec (.pandn g pd pa pb) s = execPandn g pd pa pb s := rfl
@[simp] theorem exec_mfp (g : Guard) (d : BitVec 6) (s : State) : exec (.mfp g d) s = execMfp g d s := rfl
@[simp] theorem exec_mtp (g : Guard) (a : Src) (s : State) : exec (.mtp g a) s = execMtp g a s := rfl
@[simp] theorem exec_br (g : Guard) (imm : BitVec 28) (s : State) : exec (.br g imm) s = execBr g imm s := rfl
@[simp] theorem exec_call (g : Guard) (imm : BitVec 28) (s : State) : exec (.call g imm) s = execCall g imm s := rfl
@[simp] theorem exec_jr (g : Guard) (a : Src) (s : State) : exec (.jr g a) s = execJr g a s := rfl
@[simp] theorem exec_callr (g : Guard) (a : Src) (s : State) : exec (.callr g a) s = execCallr g a s := rfl
@[simp] theorem exec_loop (g : Guard) (n : BitVec 1) (a : Src) (imm : BitVec 28) (s : State) : exec (.loop g n a imm) s = execLoop g n a imm s := rfl
@[simp] theorem exec_loopi (g : Guard) (n : BitVec 1) (cnt : BitVec 12) (imm : BitVec 28) (s : State) : exec (.loopi g n cnt imm) s = execLoopi g n cnt imm s := rfl
@[simp] theorem exec_lpclr (g : Guard) (n : BitVec 1) (s : State) : exec (.lpclr g n) s = execLpclr g n s := rfl
@[simp] theorem exec_ldSB (g : Guard) (d : BitVec 6) (a : Src) (imm : BitVec 28) (s : State) : exec (.ldSB g d a imm) s = execLdSB g d a imm s := rfl
@[simp] theorem exec_ldSBu (g : Guard) (d : BitVec 6) (a : Src) (imm : BitVec 28) (s : State) : exec (.ldSBu g d a imm) s = execLdSBu g d a imm s := rfl
@[simp] theorem exec_ldSH (g : Guard) (d : BitVec 6) (a : Src) (imm : BitVec 28) (s : State) : exec (.ldSH g d a imm) s = execLdSH g d a imm s := rfl
@[simp] theorem exec_ldSHu (g : Guard) (d : BitVec 6) (a : Src) (imm : BitVec 28) (s : State) : exec (.ldSHu g d a imm) s = execLdSHu g d a imm s := rfl
@[simp] theorem exec_ldSW (g : Guard) (d : BitVec 6) (a : Src) (imm : BitVec 28) (s : State) : exec (.ldSW g d a imm) s = execLdSW g d a imm s := rfl
@[simp] theorem exec_ldSWu (g : Guard) (d : BitVec 6) (a : Src) (imm : BitVec 28) (s : State) : exec (.ldSWu g d a imm) s = execLdSWu g d a imm s := rfl
@[simp] theorem exec_ldS (g : Guard) (d : BitVec 6) (a : Src) (imm : BitVec 28) (s : State) : exec (.ldS g d a imm) s = execLdS g d a imm s := rfl
@[simp] theorem exec_stSB (g : Guard) (a b : Src) (imm : BitVec 28) (s : State) : exec (.stSB g a b imm) s = execStSB g a b imm s := rfl
@[simp] theorem exec_stSH (g : Guard) (a b : Src) (imm : BitVec 28) (s : State) : exec (.stSH g a b imm) s = execStSH g a b imm s := rfl
@[simp] theorem exec_stSW (g : Guard) (a b : Src) (imm : BitVec 28) (s : State) : exec (.stSW g a b imm) s = execStSW g a b imm s := rfl
@[simp] theorem exec_stS (g : Guard) (a b : Src) (imm : BitVec 28) (s : State) : exec (.stS g a b imm) s = execStS g a b imm s := rfl
@[simp] theorem exec_ldGB (g : Guard) (d : BitVec 6) (a : Src) (imm : BitVec 28) (s : State) : exec (.ldGB g d a imm) s = execLdGB g d a imm s := rfl
@[simp] theorem exec_ldGBu (g : Guard) (d : BitVec 6) (a : Src) (imm : BitVec 28) (s : State) : exec (.ldGBu g d a imm) s = execLdGBu g d a imm s := rfl
@[simp] theorem exec_ldGH (g : Guard) (d : BitVec 6) (a : Src) (imm : BitVec 28) (s : State) : exec (.ldGH g d a imm) s = execLdGH g d a imm s := rfl
@[simp] theorem exec_ldGHu (g : Guard) (d : BitVec 6) (a : Src) (imm : BitVec 28) (s : State) : exec (.ldGHu g d a imm) s = execLdGHu g d a imm s := rfl
@[simp] theorem exec_ldGW (g : Guard) (d : BitVec 6) (a : Src) (imm : BitVec 28) (s : State) : exec (.ldGW g d a imm) s = execLdGW g d a imm s := rfl
@[simp] theorem exec_ldGWu (g : Guard) (d : BitVec 6) (a : Src) (imm : BitVec 28) (s : State) : exec (.ldGWu g d a imm) s = execLdGWu g d a imm s := rfl
@[simp] theorem exec_ldG (g : Guard) (d : BitVec 6) (a : Src) (imm : BitVec 28) (s : State) : exec (.ldG g d a imm) s = execLdG g d a imm s := rfl
@[simp] theorem exec_stGB (g : Guard) (a b : Src) (imm : BitVec 28) (s : State) : exec (.stGB g a b imm) s = execStGB g a b imm s := rfl
@[simp] theorem exec_stGH (g : Guard) (a b : Src) (imm : BitVec 28) (s : State) : exec (.stGH g a b imm) s = execStGH g a b imm s := rfl
@[simp] theorem exec_stGW (g : Guard) (a b : Src) (imm : BitVec 28) (s : State) : exec (.stGW g a b imm) s = execStGW g a b imm s := rfl
@[simp] theorem exec_stG (g : Guard) (a b : Src) (imm : BitVec 28) (s : State) : exec (.stG g a b imm) s = execStG g a b imm s := rfl
@[simp] theorem exec_globalLoadFill (k : Nat) (s : State) : exec (.globalLoadFill k) s = execGlobalLoadFill k s := rfl
@[simp] theorem exec_writebackPerform (k : Nat) (s : State) : exec (.writebackPerform k) s = execWritebackPerform k s := rfl
@[simp] theorem exec_push (g : Guard) (pd : BitVec 5) (a : Src) (q : BitVec 2) (s : State) : exec (.push g pd a q) s = execPush g pd a q s := rfl
@[simp] theorem exec_pushm (g : Guard) (pd : BitVec 5) (a : Src) (q : BitVec 2) (off : BitVec 22) (s : State) : exec (.pushm g pd a q off) s = execPushm g pd a q off s := rfl
@[simp] theorem exec_rtail (g : Guard) (a : Src) (q : BitVec 2) (s : State) : exec (.rtail g a q) s = execRtail g a q s := rfl
@[simp] theorem exec_qfence (g : Guard) (mask : BitVec 3) (s : State) : exec (.qfence g mask) s = execQfence g mask s := rfl
@[simp] theorem exec_semadd (g : Guard) (a : Src) (k : BitVec 5) (s : State) : exec (.semadd g a k) s = execSemadd g a k s := rfl
@[simp] theorem exec_semwait (g : Guard) (a : Src) (k : BitVec 5) (s : State) : exec (.semwait g a k) s = execSemwait g a k s := rfl
@[simp] theorem exec_waitb (g : Guard) (k : BitVec 5) (t : BitVec 22) (s : State) : exec (.waitb g k t) s = execWaitb g k t s := rfl
@[simp] theorem exec_semrdDone (g : Guard) (d : BitVec 6) (k : BitVec 5) (s : State) : exec (.semrdDone g d k) s = execSemrdDone g d k s := rfl
@[simp] theorem exec_semrdPend (g : Guard) (d : BitVec 6) (k : BitVec 5) (s : State) : exec (.semrdPend g d k) s = execSemrdPend g d k s := rfl
@[simp] theorem exec_pause (g : Guard) (n : BitVec 22) (s : State) : exec (.pause g n) s = execPause g n s := rfl
@[simp] theorem exec_waita (g : Guard) (pd : BitVec 5) (a : Src) (off : BitVec 22) (s : State) : exec (.waita g pd a off) s = execWaita g pd a off s := rfl
@[simp] theorem exec_waitaReturn (lost : Bool) (s : State) : exec (.waitaReturn lost) s = execWaitaReturn lost s := rfl
@[simp] theorem exec_acqX (g : Guard) (a : Src) (s : State) : exec (.acqX g a) s = execAcqX g a s := rfl
@[simp] theorem exec_acqS (g : Guard) (a : Src) (s : State) : exec (.acqS g a) s = execAcqS g a s := rfl
@[simp] theorem exec_rel (g : Guard) (a : Src) (s : State) : exec (.rel g a) s = execRel g a s := rfl
@[simp] theorem exec_relSet (g : Guard) (a b : Src) (s : State) : exec (.relSet g a b) s = execRelSet g a b s := rfl
@[simp] theorem exec_ldAcq (g : Guard) (d : BitVec 6) (a : Src) (off : BitVec 22) (s : State) : exec (.ldAcq g d a off) s = execLdAcq g d a off s := rfl
@[simp] theorem exec_acquireLoadFill (k : Nat) (s : State) : exec (.acquireLoadFill k) s = execAcquireLoadFill k s := rfl
@[simp] theorem exec_tbar (g : Guard) (s : State) : exec (.tbar g) s = execTbar g s := rfl
@[simp] theorem exec_sstep (g : Guard) (s : State) : exec (.sstep g) s = execSstep g s := rfl
@[simp] theorem exec_cbar (g : Guard) (s : State) : exec (.cbar g) s = execCbar g s := rfl
@[simp] theorem exec_cstep (g : Guard) (s : State) : exec (.cstep g) s = execCstep g s := rfl
@[simp] theorem exec_spawn (g : Guard) (d : BitVec 6) (a : Src) (off : BitVec 22) (s : State) : exec (.spawn g d a off) s = execSpawn g d a off s := rfl
@[simp] theorem exec_msend (g : Guard) (d : BitVec 6) (a : Src) (off : BitVec 22) (s : State) : exec (.msend g d a off) s = execMsend g d a off s := rfl
@[simp] theorem exec_csend (g : Guard) (a : Src) (off : BitVec 22) (s : State) : exec (.csend g a off) s = execCsend g a off s := rfl
@[simp] theorem exec_csendA (g : Guard) (d : BitVec 6) (a : Src) (off : BitVec 22) (s : State) : exec (.csendA g d a off) s = execCsendA g d a off s := rfl
@[simp] theorem exec_crole (g : Guard) (d : BitVec 6) (a b : Src) (off : BitVec 22) (s : State) : exec (.crole g d a b off) s = execCrole g d a b off s := rfl
@[simp] theorem exec_cdeleg (g : Guard) (a b : Src) (off : BitVec 22) (s : State) : exec (.cdeleg g a b off) s = execCdeleg g a b off s := rfl
@[simp] theorem exec_mfcr (g : Guard) (d : BitVec 6) (c : BitVec 12) (s : State) : exec (.mfcr g d c) s = execMfcr g d c s := rfl
@[simp] theorem exec_mtcr (g : Guard) (a : Src) (c : BitVec 12) (s : State) : exec (.mtcr g a c) s = execMtcr g a c s := rfl
@[simp] theorem exec_ringRegisterWrite (g : Guard) (a : Src) (q : BitVec 2) (count : Bool) (s : State) : exec (.ringRegisterWrite g a q count) s = execRingRegisterWrite g a q count s := rfl
@[simp] theorem exec_mleaseWrite (g : Guard) (a : Src) (s : State) : exec (.mleaseWrite g a) s = execMleaseWrite g a s := rfl
@[simp] theorem exec_trapOp (g : Guard) (code : BitVec 16) (s : State) : exec (.trapOp g code) s = execTrapOp g code s := rfl
@[simp] theorem exec_brk (g : Guard) (s : State) : exec (.brk g) s = execBrk g s := rfl
@[simp] theorem exec_eret (g : Guard) (s : State) : exec (.eret g) s = execEret g s := rfl
@[simp] theorem exec_doneOp (g : Guard) (s : State) : exec (.doneOp g) s = execDoneOp g s := rfl
@[simp] theorem exec_probe (g : Guard) (a b : Src) (s : State) : exec (.probe g a b) s = execProbe g a b s := rfl
@[simp] theorem exec_phint (g : Guard) (a : Src) (imm : BitVec 28) (s : State) : exec (.phint g a imm) s = execPhint g a imm s := rfl
@[simp] theorem exec_phase (g : Guard) (s : State) : exec (.phase g) s = execPhase g s := rfl
@[simp] theorem exec_shoot (g : Guard) (a b : Src) (s : State) : exec (.shoot g a b) s = execShoot g a b s := rfl
@[simp] theorem exec_vld (r : Rec) (s : State) : exec (.vld r) s = execVld r s := rfl
@[simp] theorem exec_vldBc (r : Rec) (s : State) : exec (.vldBc r) s = execVldBc r s := rfl
@[simp] theorem exec_vst (r : Rec) (s : State) : exec (.vst r) s = execVst r s := rfl
@[simp] theorem exec_vmov (r : Rec) (s : State) : exec (.vmov r) s = execVmov r s := rfl
@[simp] theorem exec_accrd (r : Rec) (s : State) : exec (.accrd r) s = execAccrd r s := rfl
@[simp] theorem exec_accwr (r : Rec) (s : State) : exec (.accwr r) s = execAccwr r s := rfl
@[simp] theorem exec_park (r : Rec) (s : State) : exec (.park r) s = execPark r s := rfl
@[simp] theorem exec_unpark (r : Rec) (s : State) : exec (.unpark r) s = execUnpark r s := rfl
@[simp] theorem exec_fadd (r : Rec) (s : State) : exec (.fadd r) s = execFadd r s := rfl
@[simp] theorem exec_fsub (r : Rec) (s : State) : exec (.fsub r) s = execFsub r s := rfl
@[simp] theorem exec_fmul (r : Rec) (s : State) : exec (.fmul r) s = execFmul r s := rfl
@[simp] theorem exec_fma (r : Rec) (s : State) : exec (.fma r) s = execFma r s := rfl
@[simp] theorem exec_fmin (r : Rec) (s : State) : exec (.fmin r) s = execFmin r s := rfl
@[simp] theorem exec_fmax (r : Rec) (s : State) : exec (.fmax r) s = execFmax r s := rfl
@[simp] theorem exec_fabs (r : Rec) (s : State) : exec (.fabs r) s = execFabs r s := rfl
@[simp] theorem exec_fneg (r : Rec) (s : State) : exec (.fneg r) s = execFneg r s := rfl
@[simp] theorem exec_fdiv (r : Rec) (s : State) : exec (.fdiv r) s = execFdiv r s := rfl
@[simp] theorem exec_fsqrt (r : Rec) (s : State) : exec (.fsqrt r) s = execFsqrt r s := rfl
@[simp] theorem exec_frsqrt (r : Rec) (s : State) : exec (.frsqrt r) s = execFrsqrt r s := rfl
@[simp] theorem exec_frcp (r : Rec) (s : State) : exec (.frcp r) s = execFrcp r s := rfl
@[simp] theorem exec_iadd (r : Rec) (s : State) : exec (.iadd r) s = execIadd r s := rfl
@[simp] theorem exec_isub (r : Rec) (s : State) : exec (.isub r) s = execIsub r s := rfl
@[simp] theorem exec_iand (r : Rec) (s : State) : exec (.iand r) s = execIand r s := rfl
@[simp] theorem exec_ior (r : Rec) (s : State) : exec (.ior r) s = execIor r s := rfl
@[simp] theorem exec_ixor (r : Rec) (s : State) : exec (.ixor r) s = execIxor r s := rfl
@[simp] theorem exec_ishl (r : Rec) (s : State) : exec (.ishl r) s = execIshl r s := rfl
@[simp] theorem exec_ishr (r : Rec) (s : State) : exec (.ishr r) s = execIshr r s := rfl
@[simp] theorem exec_isar (r : Rec) (s : State) : exec (.isar r) s = execIsar r s := rfl
@[simp] theorem exec_imin (r : Rec) (s : State) : exec (.imin r) s = execImin r s := rfl
@[simp] theorem exec_imax (r : Rec) (s : State) : exec (.imax r) s = execImax r s := rfl
@[simp] theorem exec_imul (r : Rec) (s : State) : exec (.imul r) s = execImul r s := rfl
@[simp] theorem exec_idot4 (r : Rec) (s : State) : exec (.idot4 r) s = execIdot4 r s := rfl
@[simp] theorem exec_fcmp (r : Rec) (s : State) : exec (.fcmp r) s = execFcmp r s := rfl
@[simp] theorem exec_icmp (r : Rec) (s : State) : exec (.icmp r) s = execIcmp r s := rfl
@[simp] theorem exec_vsel (r : Rec) (s : State) : exec (.vsel r) s = execVsel r s := rfl
@[simp] theorem exec_maskop (r : Rec) (s : State) : exec (.maskop r) s = execMaskop r s := rfl
@[simp] theorem exec_cvt (r : Rec) (s : State) : exec (.cvt r) s = execCvt r s := rfl
@[simp] theorem exec_quant (r : Rec) (s : State) : exec (.quant r) s = execQuant r s := rfl
@[simp] theorem exec_dequant (r : Rec) (s : State) : exec (.dequant r) s = execDequant r s := rfl
@[simp] theorem exec_trpack (r : Rec) (s : State) : exec (.trpack r) s = execTrpack r s := rfl
@[simp] theorem exec_trunpack (r : Rec) (s : State) : exec (.trunpack r) s = execTrunpack r s := rfl
@[simp] theorem exec_rsum (r : Rec) (s : State) : exec (.rsum r) s = execRsum r s := rfl
@[simp] theorem exec_rmax (r : Rec) (s : State) : exec (.rmax r) s = execRmax r s := rfl
@[simp] theorem exec_rmin (r : Rec) (s : State) : exec (.rmin r) s = execRmin r s := rfl
@[simp] theorem exec_vperm (r : Rec) (s : State) : exec (.vperm r) s = execVperm r s := rfl
@[simp] theorem exec_vshuf (r : Rec) (s : State) : exec (.vshuf r) s = execVshuf r s := rfl
@[simp] theorem exec_vbcast (r : Rec) (s : State) : exec (.vbcast r) s = execVbcast r s := rfl
@[simp] theorem exec_mcfg (r : Rec) (s : State) : exec (.mcfg r) s = execMcfg r s := rfl
@[simp] theorem exec_mzero (r : Rec) (s : State) : exec (.mzero r) s = execMzero r s := rfl
@[simp] theorem exec_mdotT (r : Rec) (s : State) : exec (.mdotT r) s = execMdotT r s := rfl
@[simp] theorem exec_mdotS4 (r : Rec) (s : State) : exec (.mdotS4 r) s = execMdotS4 r s := rfl
@[simp] theorem exec_mdotI8 (r : Rec) (s : State) : exec (.mdotI8 r) s = execMdotI8 r s := rfl
@[simp] theorem exec_copy (r : Rec) (s : State) : exec (.copy r) s = execCopy r s := rfl
@[simp] theorem exec_fill (r : Rec) (s : State) : exec (.fill r) s = execFill r s := rfl
@[simp] theorem exec_put (r : Rec) (s : State) : exec (.put r) s = execPut r s := rfl
@[simp] theorem exec_get (r : Rec) (s : State) : exec (.get r) s = execGet r s := rfl
@[simp] theorem exec_putred (r : Rec) (s : State) : exec (.putred r) s = execPutred r s := rfl
@[simp] theorem exec_mcast (r : Rec) (s : State) : exec (.mcast r) s = execMcast r s := rfl
@[simp] theorem exec_aput (r : Rec) (s : State) : exec (.aput r) s = execAput r s := rfl
@[simp] theorem exec_nodeTimeout (j : Nat) (s : State) : exec (.nodeTimeout j) s = execNodeTimeout j s := rfl
@[simp] theorem exec_sempost (r : Rec) (s : State) : exec (.sempost r) s = execSempost r s := rfl
@[simp] theorem exec_nsend (r : Rec) (s : State) : exec (.nsend r) s = execNsend r s := rfl
@[simp] theorem exec_nwrite (r : Rec) (s : State) : exec (.nwrite r) s = execNwrite r s := rfl
@[simp] theorem exec_nread (r : Rec) (s : State) : exec (.nread r) s = execNread r s := rfl
@[simp] theorem exec_nflush (r : Rec) (s : State) : exec (.nflush r) s = execNflush r s := rfl
@[simp] theorem exec_join (r : Rec) (s : State) : exec (.join r) s = execJoin r s := rfl
@[simp] theorem exec_recordComplete (q : BitVec 2) (s : State) : exec (.recordComplete q) s = execRecordComplete q s := rfl
@[simp] theorem exec_packetArrival (p : Option Packet) (s : State) : exec (.packetArrival p) s = execPacketArrival p s := rfl
@[simp] theorem exec_rmaWriteArrival (p : Packet) (s : State) : exec (.rmaWriteArrival p) s = execRmaWriteArrival p s := rfl
@[simp] theorem exec_rmaReadArrival (p : Packet) (s : State) : exec (.rmaReadArrival p) s = execRmaReadArrival p s := rfl
@[simp] theorem exec_flushArrival (p : Packet) (s : State) : exec (.flushArrival p) s = execFlushArrival p s := rfl
@[simp] theorem exec_ackReceived (conn mode psn : Nat) (marked : Bool) (s : State) : exec (.ackReceived conn mode psn marked) s = execAckReceived conn mode psn marked s := rfl
@[simp] theorem exec_retransmitTimeout (conn mode psn : Nat) (s : State) : exec (.retransmitTimeout conn mode psn) s = execRetransmitTimeout conn mode psn s := rfl
@[simp] theorem exec_milestoneIncrement (k : Nat) (s : State) : exec (.milestoneIncrement k) s = execMilestoneIncrement k s := rfl
@[simp] theorem exec_hostRingDoorbell (v : Word) (s : State) : exec (.hostRingDoorbell v) s = execHostRingDoorbell v s := rfl
@[simp] theorem exec_hostRingEnable (v : Word) (s : State) : exec (.hostRingEnable v) s = execHostRingEnable v s := rfl
@[simp] theorem exec_hostRingFetch (entry : Option RingEntry) (data : Option Nat) (s : State) : exec (.hostRingFetch entry data) s = execHostRingFetch entry data s := rfl
@[simp] theorem exec_atsInvalidation (pasid lo hi : Nat) (s : State) : exec (.atsInvalidation pasid lo hi) s = execAtsInvalidation pasid lo hi s := rfl
@[simp] theorem exec_pasidTeardown (v : Word) (s : State) : exec (.pasidTeardown v) s = execPasidTeardown v s := rfl
@[simp] theorem exec_bar0RegisterWrite (off : Nat) (v : Word) (s : State) : exec (.bar0RegisterWrite off v) s = execBar0RegisterWrite off v s := rfl
@[simp] theorem exec_workItemComplete (k : Nat) (s : State) : exec (.workItemComplete k) s = execWorkItemComplete k s := rfl
@[simp] theorem exec_teamMove (d : Nat) (s : State) : exec (.teamMove d) s = execTeamMove d s := rfl
@[simp] theorem exec_slotTimeout (line : Nat) (s : State) : exec (.slotTimeout line) s = execSlotTimeout line s := rfl
@[simp] theorem exec_scanComplete (fail : BitVec 48) (diff : Word) (s : State) : exec (.scanComplete fail diff) s = execScanComplete fail diff s := rfl
@[simp] theorem exec_corecapWrite (g : Guard) (a : Src) (s : State) : exec (.corecapWrite g a) s = execCorecapWrite g a s := rfl
@[simp] theorem exec_lcmentWrite (g : Guard) (a : Src) (s : State) : exec (.lcmentWrite g a) s = execLcmentWrite g a s := rfl
@[simp] theorem exec_leadcasWrite (g : Guard) (a : Src) (s : State) : exec (.leadcasWrite g a) s = execLeadcasWrite g a s := rfl
@[simp] theorem exec_hbeatWrite (g : Guard) (a : Src) (s : State) : exec (.hbeatWrite g a) s = execHbeatWrite g a s := rfl
@[simp] theorem exec_attestationRequest (v : Word) (s : State) : exec (.attestationRequest v) s = execAttestationRequest v s := rfl
@[simp] theorem exec_resetRelease (boot : BitVec 2) (modId : BitVec 4) (img : Image) (s : State) : exec (.resetRelease boot modId img) s = execResetRelease boot modId img s := rfl
@[simp] theorem exec_dieStart (img : Image) (s : State) : exec (.dieStart img) s = execDieStart img s := rfl
@[simp] theorem exec_quadGroupStart (k : Nat) (s : State) : exec (.quadGroupStart k) s = execQuadGroupStart k s := rfl
@[simp] theorem exec_powerSample (w : Nat) (s : State) : exec (.powerSample w) s = execPowerSample w s := rfl
@[simp] theorem exec_pwrAlert (on : Bool) (s : State) : exec (.pwrAlert on) s = execPwrAlert on s := rfl
@[simp] theorem exec_thermalSensor (sensor deg : Nat) (s : State) : exec (.thermalSensor sensor deg) s = execThermalSensor sensor deg s := rfl
@[simp] theorem exec_unassignedOpcode (w : Word) (s : State) : exec (.unassignedOpcode w) s = execUnassignedOpcode w s := rfl
@[simp] theorem exec_recordInvalid (w : BitVec 512) (s : State) : exec (.recordInvalid w) s = execRecordInvalid w s := rfl
@[simp] theorem exec_negativeAcknowledgement (conn mode psn : Nat) (s : State) : exec (.negativeAcknowledgement conn mode psn) s = execNegativeAcknowledgement conn mode psn s := rfl
@[simp] theorem exec_semwaitComplete (s : State) : exec .semwaitComplete s = execSemwaitComplete s := rfl
@[simp] theorem exec_waitbComplete (s : State) : exec .waitbComplete s = execWaitbComplete s := rfl
@[simp] theorem exec_pauseExpire (s : State) : exec .pauseExpire s = execPauseExpire s := rfl
@[simp] theorem exec_acqGrant (s : State) : exec .acqGrant s = execAcqGrant s := rfl
@[simp] theorem exec_barrierComplete (s : State) : exec .barrierComplete s = execBarrierComplete s := rfl
@[simp] theorem exec_csendVerdict (s : State) : exec .csendVerdict s = execCsendVerdict s := rfl
@[simp] theorem exec_convPlacement (s : State) : exec .convPlacement s = execConvPlacement s := rfl
@[simp] theorem exec_taskEnd (s : State) : exec .taskEnd s = execTaskEnd s := rfl
@[simp] theorem exec_pageRequestAnswer (s : State) : exec .pageRequestAnswer s = execPageRequestAnswer s := rfl
@[simp] theorem exec_leaseGrant (s : State) : exec .leaseGrant s = execLeaseGrant s := rfl
@[simp] theorem exec_launch (s : State) : exec .launch s = execLaunch s := rfl
@[simp] theorem exec_triggeredCopy (s : State) : exec .triggeredCopy s = execTriggeredCopy s := rfl
@[simp] theorem exec_send (s : State) : exec .send s = execSend s := rfl
@[simp] theorem exec_raise (s : State) : exec .raise s = execRaise s := rfl
@[simp] theorem exec_msadd (s : State) : exec .msadd s = execMsadd s := rfl
@[simp] theorem exec_handler (s : State) : exec .handler s = execHandler s := rfl
@[simp] theorem exec_handlerStart (s : State) : exec .handlerStart s = execHandlerStart s := rfl
@[simp] theorem exec_handlerWatchdog (s : State) : exec .handlerWatchdog s = execHandlerWatchdog s := rfl
@[simp] theorem exec_drainreqWrite (s : State) : exec .drainreqWrite s = execDrainreqWrite s := rfl
@[simp] theorem exec_drainRequestDone (s : State) : exec .drainRequestDone s = execDrainRequestDone s := rfl
@[simp] theorem exec_pasidTeardownDone (s : State) : exec .pasidTeardownDone s = execPasidTeardownDone s := rfl
@[simp] theorem exec_dispatch (s : State) : exec .dispatch s = execDispatch s := rfl
@[simp] theorem exec_preemptLimitExpire (s : State) : exec .preemptLimitExpire s = execPreemptLimitExpire s := rfl
@[simp] theorem exec_teamSave (s : State) : exec .teamSave s = execTeamSave s := rfl
@[simp] theorem exec_teamRestore (s : State) : exec .teamRestore s = execTeamRestore s := rfl
@[simp] theorem exec_treeLoad (s : State) : exec .treeLoad s = execTreeLoad s := rfl
@[simp] theorem exec_timeslotLoad (s : State) : exec .timeslotLoad s = execTimeslotLoad s := rfl
@[simp] theorem exec_collectiveArm (s : State) : exec .collectiveArm s = execCollectiveArm s := rfl
@[simp] theorem exec_itineraryLoad (s : State) : exec .itineraryLoad s = execItineraryLoad s := rfl
@[simp] theorem exec_conversationOpen (s : State) : exec .conversationOpen s = execConversationOpen s := rfl
@[simp] theorem exec_conversationKill (s : State) : exec .conversationKill s = execConversationKill s := rfl
@[simp] theorem exec_partyLost (s : State) : exec .partyLost s = execPartyLost s := rfl
@[simp] theorem exec_conversationFree (s : State) : exec .conversationFree s = execConversationFree s := rfl
@[simp] theorem exec_migrationRequest (s : State) : exec .migrationRequest s = execMigrationRequest s := rfl
@[simp] theorem exec_migrationComplete (s : State) : exec .migrationComplete s = execMigrationComplete s := rfl
@[simp] theorem exec_contextCreate (s : State) : exec .contextCreate s = execContextCreate s := rfl
@[simp] theorem exec_contextFault (s : State) : exec .contextFault s = execContextFault s := rfl
@[simp] theorem exec_haltReport (s : State) : exec .haltReport s = execHaltReport s := rfl
@[simp] theorem exec_taskWatchdog (s : State) : exec .taskWatchdog s = execTaskWatchdog s := rfl
@[simp] theorem exec_saveWatchdog (s : State) : exec .saveWatchdog s = execSaveWatchdog s := rfl
@[simp] theorem exec_contextKill (s : State) : exec .contextKill s = execContextKill s := rfl
@[simp] theorem exec_contextZeroing (s : State) : exec .contextZeroing s = execContextZeroing s := rfl
@[simp] theorem exec_drain (s : State) : exec .drain s = execDrain s := rfl
@[simp] theorem exec_drainToHeld (s : State) : exec .drainToHeld s = execDrainToHeld s := rfl
@[simp] theorem exec_scan (s : State) : exec .scan s = execScan s := rfl
@[simp] theorem exec_release (s : State) : exec .release s = execRelease s := rfl
@[simp] theorem exec_retire (s : State) : exec .retire s = execRetire s := rfl
@[simp] theorem exec_heartbeatTimeout (s : State) : exec .heartbeatTimeout s = execHeartbeatTimeout s := rfl
@[simp] theorem exec_routineRequest (s : State) : exec .routineRequest s = execRoutineRequest s := rfl
@[simp] theorem exec_hbmScrub (s : State) : exec .hbmScrub s = execHbmScrub s := rfl
@[simp] theorem exec_scratchpadScrub (s : State) : exec .scratchpadScrub s = execScratchpadScrub s := rfl
@[simp] theorem exec_hbmRetrain (s : State) : exec .hbmRetrain s = execHbmRetrain s := rfl
@[simp] theorem exec_coreZeroingDone (s : State) : exec .coreZeroingDone s = execCoreZeroingDone s := rfl
@[simp] theorem exec_resetNAsserted (s : State) : exec .resetNAsserted s = execResetNAsserted s := rfl

end Sys2Proof.Machine
end

