-- ==== Sys2Proof/Laws/Table.lean ====
section
/-! SUPPORT. Laws of sparse tables and of memory: what is read after a write, and the canonical form. -/
namespace Sys2Proof.Machine

/-! ### Tables -/

theorem tget_tdel {α : Type} (t : Tbl α) (k j : Nat) (d : α) : tget (tdel t k) j d = if j = k then d else tget t j d := by
  induction t with
  | nil => simp [tdel, tget]
  | cons e t ih =>
    obtain ⟨k', v⟩ := e
    by_cases h : k' = k
    · subst h; by_cases hj : j = k' <;> simp_all [tdel, tget]; intro h; exact absurd h.symm hj
    · by_cases hj : k' = j
      · subst hj; simp_all [tdel, tget]
      · simp_all [tdel, tget]

theorem tget_tins {α : Type} (t : Tbl α) (k j : Nat) (v d : α) : tget (tins t k v) j d = if j = k then v else tget t j d := by
  induction t with
  | nil => by_cases h : k = j <;> simp [tins, tget, h]; intro h'; exact absurd h'.symm h
  | cons e t ih =>
    obtain ⟨k', v'⟩ := e
    unfold tins
    split
    · by_cases h : k = j <;> simp [tget, h]
      intro h'; exact absurd h'.symm h
    · split
      · rename_i h; subst h
        by_cases h : k = j <;> simp [tget, h]
        intro h'; exact absurd h'.symm h
      · by_cases h : k' = j
        · subst h; simp [tget]; omega
        · simp [tget, h, ih]

/-- What a table holds after one entry has been given. -/
@[simp] theorem tget_tput {α : Type} [DecidableEq α] (t : Tbl α) (k j : Nat) (v d : α) :
    tget (tput t k v d) j d = if j = k then v else tget t j d := by
  unfold tput
  split
  · rename_i h; rw [tget_tdel, h]
  · exact tget_tins t k j v d

/-! ### Bytes -/

@[simp] theorem memGet_nil (k : Nat) : memGet [] k = 0#8 := rfl

/-- A byte reads as it was last written, and a write leaves every other byte alone. -/
@[simp] theorem memGet_memPut (m : Memory) (k j : Nat) (v : Byte) : memGet (memPut m k v) j = if j = k then v else memGet m j := by
  simp [memGet, memPut]

/-- A write of n bytes leaves every byte outside them alone. -/
theorem memGet_wrN_out (m : Memory) (k n v j : Nat) (h : j < k ∨ k + n ≤ j) : memGet (wrN m k n v) j = memGet m j := by
  induction n generalizing m k v with
  | zero => rfl
  | succ n ih =>
    rw [wrN, ih _ _ _ (by omega), memGet_memPut, if_neg (by omega)]

/-- The bytes of a write. -/
theorem memGet_wrN_in (m : Memory) (k n v j : Nat) (h : j < n) : memGet (wrN m k n v) (k + j) = BitVec.ofNat 8 (v / 256 ^ j % 256) := by
  induction n generalizing m k v j with
  | zero => omega
  | succ n ih =>
    rw [wrN]
    cases j with
    | zero => rw [memGet_wrN_out _ _ _ _ _ (by omega)]; simp
    | succ j =>
      have := ih (memPut m k (BitVec.ofNat 8 (v % 256))) (k + 1) (v / 256) j (by omega)
      rw [show k + (j + 1) = k + 1 + j by omega, this, Nat.div_div_eq_div_mul, Nat.pow_succ, Nat.mul_comm]

/-- Reading back the bytes of a write gives its low bytes. -/
theorem rdN_wrN (m : Memory) (k n v : Nat) : rdN (wrN m k n v) k n = v % 256 ^ n := by
  have key : ∀ n i v, (∀ j, j < n → memGet (wrN m k (i + n) v) (k + i + j) = BitVec.ofNat 8 (v / 256 ^ (i + j) % 256)) →
      rdN (wrN m k (i + n) v) (k + i) n = v / 256 ^ i % 256 ^ n := by
    intro n
    induction n with
    | zero => intro i v _; simp [rdN, Nat.mod_one]
    | succ n ih =>
      intro i v h
      have h0 := h 0 (by omega)
      have hs := ih (i + 1) v (fun j hj => by
        have := h (j + 1) (by omega)
        rw [show i + 1 + n = i + (n + 1) by omega, show k + (i + 1) + j = k + i + (j + 1) by omega,
          show i + 1 + j = i + (j + 1) by omega]; exact this)
      rw [show i + (n + 1) = i + 1 + n by omega] at h0 ⊢
      rw [rdN, show k + i + 1 = k + (i + 1) by omega, hs, show k + i = k + i + 0 by omega, h0]
      have e : v / 256 ^ (i + 1) = v / 256 ^ i / 256 := by rw [Nat.pow_succ, Nat.div_div_eq_div_mul]
      rw [e, Nat.pow_succ 256 n, Nat.mul_comm (256 ^ n) 256, Nat.mod_mul]
      simp
  have := key n 0 v (fun j hj => by simpa using memGet_wrN_in m k n v j hj)
  simpa using this

/-- Reading n bytes is not changed by a write that does not meet them. -/
theorem rdN_wrN_out (m : Memory) (k n v j l : Nat) (h : j + l ≤ k ∨ k + n ≤ j) : rdN (wrN m k n v) j l = rdN m j l := by
  induction l generalizing j with
  | zero => rfl
  | succ l ih =>
    rw [rdN, rdN, memGet_wrN_out _ _ _ _ _ (by omega), ih _ (by omega)]

/-- Masked writes leave every byte outside alone. -/
theorem memGet_wrMasked_out (m : Memory) (k n v mask j : Nat) (h : j < k ∨ k + n ≤ j) : memGet (wrMasked m k n v mask) j = memGet m j := by
  induction n generalizing m k v mask with
  | zero => rfl
  | succ n ih =>
    rw [wrMasked, ih _ _ _ _ (by omega)]
    split
    · rw [memGet_memPut, if_neg (by omega)]
    · rfl

/-! ### The canonical form -/

theorem memWfFrom_mono (a b : Nat) (m : Memory) (h : a ≤ b) (hw : memWfFrom b m = true) : memWfFrom a m = true := by
  cases m with
  | nil => rfl
  | cons e m => obtain ⟨k, v⟩ := e; simp_all [memWfFrom]; omega

theorem memWfFrom_tdel (lo : Nat) (m : Memory) (k : Nat) (hw : memWfFrom lo m = true) : memWfFrom lo (tdel m k) = true := by
  induction m generalizing lo with
  | nil => rfl
  | cons e m ih =>
    obtain ⟨k', v⟩ := e
    simp only [memWfFrom, Bool.and_eq_true, decide_eq_true_eq] at hw
    unfold tdel
    split
    · exact ih lo (memWfFrom_mono _ _ _ (by omega) hw.2)
    · simp [memWfFrom, hw.1.1, hw.1.2, ih _ hw.2]

theorem memWfFrom_tins (lo : Nat) (m : Memory) (k : Nat) (v : Byte) (hk : lo ≤ k) (hv : v ≠ 0#8) (hw : memWfFrom lo m = true) :
    memWfFrom lo (tins m k v) = true := by
  induction m generalizing lo with
  | nil => simp [tins, memWfFrom, hk, hv]
  | cons e m ih =>
    obtain ⟨k', v'⟩ := e
    simp only [memWfFrom, Bool.and_eq_true, decide_eq_true_eq] at hw
    unfold tins
    split
    · rename_i h
      simp [memWfFrom, hk, hv, hw.1.2, hw.2]; omega
    · split
      · rename_i h; subst h; simp [memWfFrom, hk, hv, hw.2]
      · simp [memWfFrom, hw.1.1, hw.1.2, ih (k' + 1) (by omega) hw.2]

/-- Writing a byte keeps the canonical form. -/
@[simp] theorem memPut_wf (m : Memory) (k : Nat) (v : Byte) (h : m.wf = true) : (memPut m k v).wf = true := by
  unfold memPut tput Memory.wf
  split
  · exact memWfFrom_tdel _ _ _ h
  · exact memWfFrom_tins _ _ _ _ (by omega) (by assumption) h

/-- Writing bytes keeps the canonical form. -/
@[simp] theorem wrN_wf (m : Memory) (k n v : Nat) (h : m.wf = true) : (wrN m k n v).wf = true := by
  induction n generalizing m k v with
  | zero => exact h
  | succ n ih => exact ih _ _ _ (memPut_wf _ _ _ h)

/-- A masked write keeps the canonical form. -/
@[simp] theorem wrMasked_wf (m : Memory) (k n v mask : Nat) (h : m.wf = true) : (wrMasked m k n v mask).wf = true := by
  induction n generalizing m k v mask with
  | zero => exact h
  | succ n ih => unfold wrMasked; split <;> exact ih _ _ _ _ (by simp [h])

/-- Copying bytes keeps the canonical form. -/
@[simp] theorem cpN_wf (src m : Memory) (d a n : Nat) (h : m.wf = true) : (cpN src m d a n).wf = true := by
  induction n generalizing m d a with
  | zero => exact h
  | succ n ih => exact ih _ _ _ (memPut_wf _ _ _ h)

theorem memWfFrom_filter (lo : Nat) (m : Memory) (p : Host.Cell → Bool) (hw : memWfFrom lo m = true) : memWfFrom lo (m.filter p) = true := by
  induction m generalizing lo with
  | nil => rfl
  | cons e m ih =>
    obtain ⟨k, v⟩ := e
    simp only [memWfFrom, Bool.and_eq_true, decide_eq_true_eq] at hw
    rw [List.filter_cons]
    split
    · simp [memWfFrom, hw.1.1, hw.1.2, ih _ hw.2]
    · exact ih lo (memWfFrom_mono _ _ _ (by omega) hw.2)

/-- Leaving cells out keeps the canonical form. -/
@[simp] theorem filter_wf (m : Memory) (p : Host.Cell → Bool) (h : m.wf = true) : (Memory.wf (m.filter p)) = true := memWfFrom_filter 0 m p h

/-- Zeroing keeps the canonical form. -/
@[simp] theorem zeroRange_wf (m : Memory) (lo hi : Nat) (h : m.wf = true) : (zeroRange m lo hi).wf = true := memWfFrom_filter 0 m _ h

/-- A zeroed byte reads zero. -/
theorem memGet_zeroRange (m : Memory) (lo hi j : Nat) :
    memGet (zeroRange m lo hi) j = if lo ≤ j ∧ j < hi then 0#8 else memGet m j := by
  unfold memGet zeroRange
  induction m with
  | nil => simp [tget]
  | cons e m ih =>
    obtain ⟨k, v⟩ := e
    by_cases hr : lo ≤ k ∧ k < hi
    · rw [List.filter_cons_of_neg (by simp [hr]), ih]
      by_cases hk : k = j
      · subst hk; simp [hr]
      · simp [tget, hk]
    · rw [List.filter_cons_of_pos (by simp; omega)]
      by_cases hk : k = j
      · subst hk; simp [tget, hr]
      · simp only [tget, hk, if_false]; exact ih

end Sys2Proof.Machine
end

