-- ==== Sys2Proof/Laws/State.lean ====
section
/-! SUPPORT. One lemma for each field of State and each of its updates: what an update leaves, true by definition, and what it gives. -/
namespace Sys2Proof.Machine

/-! ### putSc -/

@[simp] theorem putSc_time (s : State) (a : Nat) (x : Scalar) : (s.putSc a x).time = s.time := rfl
@[simp] theorem putSc_cur (s : State) (a : Nat) (x : Scalar) : (s.putSc a x).cur = s.cur := rfl
@[simp] theorem putSc_curq (s : State) (a : Nat) (x : Scalar) : (s.putSc a x).curq = s.curq := rfl
@[simp] theorem putSc_lim (s : State) (a : Nat) (x : Scalar) : (s.putSc a x).lim = s.lim := rfl
@[simp] theorem putSc_arrival (s : State) (a : Nat) (x : Scalar) : (s.putSc a x).arrival = s.arrival := rfl
@[simp] theorem putSc_sched (s : State) (a : Nat) (x : Scalar) : (s.putSc a x).sched = s.sched := rfl
@[simp] theorem putSc_core (s : State) (a : Nat) (x : Scalar) : (s.putSc a x).core = s.core := rfl
@[simp] theorem putSc_quad (s : State) (a : Nat) (x : Scalar) : (s.putSc a x).quad = s.quad := rfl
@[simp] theorem putSc_die (s : State) (a : Nat) (x : Scalar) : (s.putSc a x).die = s.die := rfl
@[simp] theorem putSc_mem (s : State) (a : Nat) (x : Scalar) : (s.putSc a x).mem = s.mem := rfl
@[simp] theorem putSc_ecc (s : State) (a : Nat) (x : Scalar) : (s.putSc a x).ecc = s.ecc := rfl
@[simp] theorem putSc_objs (s : State) (a : Nat) (x : Scalar) : (s.putSc a x).objs = s.objs := rfl
@[simp] theorem putSc_team (s : State) (a : Nat) (x : Scalar) : (s.putSc a x).team = s.team := rfl
@[simp] theorem putSc_ctxs (s : State) (a : Nat) (x : Scalar) : (s.putSc a x).ctxs = s.ctxs := rfl
@[simp] theorem putSc_faults (s : State) (a : Nat) (x : Scalar) : (s.putSc a x).faults = s.faults := rfl
@[simp] theorem putSc_tx (s : State) (a : Nat) (x : Scalar) : (s.putSc a x).tx = s.tx := rfl
@[simp] theorem putSc_reads (s : State) (a : Nat) (x : Scalar) : (s.putSc a x).reads = s.reads := rfl
@[simp] theorem putSc_conns (s : State) (a : Nat) (x : Scalar) : (s.putSc a x).conns = s.conns := rfl
@[simp] theorem putSc_out (s : State) (a : Nat) (x : Scalar) : (s.putSc a x).out = s.out := rfl
@[simp] theorem putSc_netBad (s : State) (a : Nat) (x : Scalar) : (s.putSc a x).netBad = s.netBad := rfl
@[simp] theorem putSc_netAmb (s : State) (a : Nat) (x : Scalar) : (s.putSc a x).netAmb = s.netAmb := rfl
@[simp] theorem putSc_fired (s : State) (a : Nat) (x : Scalar) : (s.putSc a x).fired = s.fired := rfl
@[simp] theorem putSc_convIn (s : State) (a : Nat) (x : Scalar) : (s.putSc a x).convIn = s.convIn := rfl
@[simp] theorem putSc_places (s : State) (a : Nat) (x : Scalar) : (s.putSc a x).places = s.places := rfl
@[simp] theorem putSc_flags (s : State) (a : Nat) (x : Scalar) : (s.putSc a x).flags = s.flags := rfl
@[simp] theorem putSc_acts (s : State) (a : Nat) (x : Scalar) : (s.putSc a x).acts = s.acts := rfl
@[simp] theorem putSc_trees (s : State) (a : Nat) (x : Scalar) : (s.putSc a x).trees = s.trees := rfl
@[simp] theorem putSc_slots (s : State) (a : Nat) (x : Scalar) : (s.putSc a x).slots = s.slots := rfl
@[simp] theorem putSc_rx (s : State) (a : Nat) (x : Scalar) : (s.putSc a x).rx = s.rx := rfl
@[simp] theorem putSc_rxId (s : State) (a : Nat) (x : Scalar) : (s.putSc a x).rxId = s.rxId := rfl
@[simp] theorem putSc_incs (s : State) (a : Nat) (x : Scalar) : (s.putSc a x).incs = s.incs := rfl
@[simp] theorem putSc_own (s : State) (a : Nat) (x : Scalar) : (s.putSc a x).own = s.own := rfl
@[simp] theorem putSc_allots (s : State) (a : Nat) (x : Scalar) : (s.putSc a x).allots = s.allots := rfl
@[simp] theorem putSc_turnCtx (s : State) (a : Nat) (x : Scalar) : (s.putSc a x).turnCtx = s.turnCtx := rfl
@[simp] theorem putSc_pool (s : State) (a : Nat) (x : Scalar) : (s.putSc a x).pool = s.pool := rfl
@[simp] theorem putSc_spills (s : State) (a : Nat) (x : Scalar) : (s.putSc a x).spills = s.spills := rfl
@[simp] theorem putSc_vt (s : State) (a : Nat) (x : Scalar) : (s.putSc a x).vt = s.vt := rfl
@[simp] theorem putSc_ran (s : State) (a : Nat) (x : Scalar) : (s.putSc a x).ran = s.ran := rfl
@[simp] theorem putSc_ended (s : State) (a : Nat) (x : Scalar) : (s.putSc a x).ended = s.ended := rfl
@[simp] theorem putSc_teamNo (s : State) (a : Nat) (x : Scalar) : (s.putSc a x).teamNo = s.teamNo := rfl
@[simp] theorem putSc_opened (s : State) (a : Nat) (x : Scalar) : (s.putSc a x).opened = s.opened := rfl
@[simp] theorem putSc_itins (s : State) (a : Nat) (x : Scalar) : (s.putSc a x).itins = s.itins := rfl
@[simp] theorem putSc_convs (s : State) (a : Nat) (x : Scalar) : (s.putSc a x).convs = s.convs := rfl
@[simp] theorem putSc_atc (s : State) (a : Nat) (x : Scalar) : (s.putSc a x).atc = s.atc := rfl
@[simp] theorem putSc_hostReads (s : State) (a : Nat) (x : Scalar) : (s.putSc a x).hostReads = s.hostReads := rfl
@[simp] theorem putSc_inval (s : State) (a : Nat) (x : Scalar) : (s.putSc a x).inval = s.inval := rfl
@[simp] theorem putSc_invalDone (s : State) (a : Nat) (x : Scalar) : (s.putSc a x).invalDone = s.invalDone := rfl
@[simp] theorem putSc_pasidCtx (s : State) (a : Nat) (x : Scalar) : (s.putSc a x).pasidCtx = s.pasidCtx := rfl
@[simp] theorem putSc_msix (s : State) (a : Nat) (x : Scalar) : (s.putSc a x).msix = s.msix := rfl
@[simp] theorem putSc_inReset (s : State) (a : Nat) (x : Scalar) : (s.putSc a x).inReset = s.inReset := rfl
@[simp] theorem putSc_tripped (s : State) (a : Nat) (x : Scalar) : (s.putSc a x).tripped = s.tripped := rfl
@[simp] theorem putSc_bootSrc (s : State) (a : Nat) (x : Scalar) : (s.putSc a x).bootSrc = s.bootSrc := rfl
@[simp] theorem putSc_modId (s : State) (a : Nat) (x : Scalar) : (s.putSc a x).modId = s.modId := rfl
@[simp] theorem putSc_ready (s : State) (a : Nat) (x : Scalar) : (s.putSc a x).ready = s.ready := rfl
@[simp] theorem putSc_samples (s : State) (a : Nat) (x : Scalar) : (s.putSc a x).samples = s.samples := rfl
@[simp] theorem putSc_pwrAlert (s : State) (a : Nat) (x : Scalar) : (s.putSc a x).pwrAlert = s.pwrAlert := rfl
@[simp] theorem putSc_hot (s : State) (a : Nat) (x : Scalar) : (s.putSc a x).hot = s.hot := rfl
@[simp] theorem putSc_palarm (s : State) (a : Nat) (x : Scalar) : (s.putSc a x).palarm = s.palarm := rfl
@[simp] theorem putSc_calm (s : State) (a : Nat) (x : Scalar) : (s.putSc a x).calm = s.calm := rfl
@[simp] theorem putSc_fuseKey (s : State) (a : Nat) (x : Scalar) : (s.putSc a x).fuseKey = s.fuseKey := rfl
@[simp] theorem putSc_fuseMin (s : State) (a : Nat) (x : Scalar) : (s.putSc a x).fuseMin = s.fuseMin := rfl
@[simp] theorem putSc_free (s : State) (a : Nat) (x : Scalar) : (s.putSc a x).free = s.free := rfl
@[simp] theorem putSc_leadHeld (s : State) (a : Nat) (x : Scalar) : (s.putSc a x).leadHeld = s.leadHeld := rfl
@[simp] theorem putSc_leadHolder (s : State) (a : Nat) (x : Scalar) : (s.putSc a x).leadHolder = s.leadHolder := rfl
@[simp] theorem putSc_leadExp (s : State) (a : Nat) (x : Scalar) : (s.putSc a x).leadExp = s.leadExp := rfl
@[simp] theorem putSc_co (s : State) (a : Nat) (x : Scalar) (i : Nat) : (s.putSc a x).co i = s.co i := rfl
@[simp] theorem putSc_qd (s : State) (a : Nat) (x : Scalar) (i : Nat) : (s.putSc a x).qd i = s.qd i := rfl
@[simp] theorem putSc_di (s : State) (a : Nat) (x : Scalar) (i : Nat) : (s.putSc a x).di i = s.di i := rfl
@[simp] theorem putSc_cx (s : State) (a : Nat) (x : Scalar) (i : Nat) : (s.putSc a x).cx i = s.cx i := rfl
@[simp] theorem putSc_tm (s : State) (a : Nat) (x : Scalar) (i : Nat) : (s.putSc a x).tm i = s.tm i := rfl
@[simp] theorem putSc_ns (s : State) (a : Nat) (x : Scalar) : (s.putSc a x).ns = s.ns := rfl
@[simp] theorem putSc_get (s : State) (a : Nat) (x : Scalar) (i : Nat) : (s.putSc a x).sc i = if i = a then x else s.sc i := by
  simp [State.sc, State.putSc]

/-! ### putCo -/

@[simp] theorem putCo_time (s : State) (p : Nat) (x : Core) : (s.putCo p x).time = s.time := rfl
@[simp] theorem putCo_cur (s : State) (p : Nat) (x : Core) : (s.putCo p x).cur = s.cur := rfl
@[simp] theorem putCo_curq (s : State) (p : Nat) (x : Core) : (s.putCo p x).curq = s.curq := rfl
@[simp] theorem putCo_lim (s : State) (p : Nat) (x : Core) : (s.putCo p x).lim = s.lim := rfl
@[simp] theorem putCo_arrival (s : State) (p : Nat) (x : Core) : (s.putCo p x).arrival = s.arrival := rfl
@[simp] theorem putCo_sched (s : State) (p : Nat) (x : Core) : (s.putCo p x).sched = s.sched := rfl
@[simp] theorem putCo_scal (s : State) (p : Nat) (x : Core) : (s.putCo p x).scal = s.scal := rfl
@[simp] theorem putCo_quad (s : State) (p : Nat) (x : Core) : (s.putCo p x).quad = s.quad := rfl
@[simp] theorem putCo_die (s : State) (p : Nat) (x : Core) : (s.putCo p x).die = s.die := rfl
@[simp] theorem putCo_mem (s : State) (p : Nat) (x : Core) : (s.putCo p x).mem = s.mem := rfl
@[simp] theorem putCo_ecc (s : State) (p : Nat) (x : Core) : (s.putCo p x).ecc = s.ecc := rfl
@[simp] theorem putCo_objs (s : State) (p : Nat) (x : Core) : (s.putCo p x).objs = s.objs := rfl
@[simp] theorem putCo_team (s : State) (p : Nat) (x : Core) : (s.putCo p x).team = s.team := rfl
@[simp] theorem putCo_ctxs (s : State) (p : Nat) (x : Core) : (s.putCo p x).ctxs = s.ctxs := rfl
@[simp] theorem putCo_faults (s : State) (p : Nat) (x : Core) : (s.putCo p x).faults = s.faults := rfl
@[simp] theorem putCo_tx (s : State) (p : Nat) (x : Core) : (s.putCo p x).tx = s.tx := rfl
@[simp] theorem putCo_reads (s : State) (p : Nat) (x : Core) : (s.putCo p x).reads = s.reads := rfl
@[simp] theorem putCo_conns (s : State) (p : Nat) (x : Core) : (s.putCo p x).conns = s.conns := rfl
@[simp] theorem putCo_out (s : State) (p : Nat) (x : Core) : (s.putCo p x).out = s.out := rfl
@[simp] theorem putCo_netBad (s : State) (p : Nat) (x : Core) : (s.putCo p x).netBad = s.netBad := rfl
@[simp] theorem putCo_netAmb (s : State) (p : Nat) (x : Core) : (s.putCo p x).netAmb = s.netAmb := rfl
@[simp] theorem putCo_fired (s : State) (p : Nat) (x : Core) : (s.putCo p x).fired = s.fired := rfl
@[simp] theorem putCo_convIn (s : State) (p : Nat) (x : Core) : (s.putCo p x).convIn = s.convIn := rfl
@[simp] theorem putCo_places (s : State) (p : Nat) (x : Core) : (s.putCo p x).places = s.places := rfl
@[simp] theorem putCo_flags (s : State) (p : Nat) (x : Core) : (s.putCo p x).flags = s.flags := rfl
@[simp] theorem putCo_acts (s : State) (p : Nat) (x : Core) : (s.putCo p x).acts = s.acts := rfl
@[simp] theorem putCo_trees (s : State) (p : Nat) (x : Core) : (s.putCo p x).trees = s.trees := rfl
@[simp] theorem putCo_slots (s : State) (p : Nat) (x : Core) : (s.putCo p x).slots = s.slots := rfl
@[simp] theorem putCo_rx (s : State) (p : Nat) (x : Core) : (s.putCo p x).rx = s.rx := rfl
@[simp] theorem putCo_rxId (s : State) (p : Nat) (x : Core) : (s.putCo p x).rxId = s.rxId := rfl
@[simp] theorem putCo_incs (s : State) (p : Nat) (x : Core) : (s.putCo p x).incs = s.incs := rfl
@[simp] theorem putCo_own (s : State) (p : Nat) (x : Core) : (s.putCo p x).own = s.own := rfl
@[simp] theorem putCo_allots (s : State) (p : Nat) (x : Core) : (s.putCo p x).allots = s.allots := rfl
@[simp] theorem putCo_turnCtx (s : State) (p : Nat) (x : Core) : (s.putCo p x).turnCtx = s.turnCtx := rfl
@[simp] theorem putCo_pool (s : State) (p : Nat) (x : Core) : (s.putCo p x).pool = s.pool := rfl
@[simp] theorem putCo_spills (s : State) (p : Nat) (x : Core) : (s.putCo p x).spills = s.spills := rfl
@[simp] theorem putCo_vt (s : State) (p : Nat) (x : Core) : (s.putCo p x).vt = s.vt := rfl
@[simp] theorem putCo_ran (s : State) (p : Nat) (x : Core) : (s.putCo p x).ran = s.ran := rfl
@[simp] theorem putCo_ended (s : State) (p : Nat) (x : Core) : (s.putCo p x).ended = s.ended := rfl
@[simp] theorem putCo_teamNo (s : State) (p : Nat) (x : Core) : (s.putCo p x).teamNo = s.teamNo := rfl
@[simp] theorem putCo_opened (s : State) (p : Nat) (x : Core) : (s.putCo p x).opened = s.opened := rfl
@[simp] theorem putCo_itins (s : State) (p : Nat) (x : Core) : (s.putCo p x).itins = s.itins := rfl
@[simp] theorem putCo_convs (s : State) (p : Nat) (x : Core) : (s.putCo p x).convs = s.convs := rfl
@[simp] theorem putCo_atc (s : State) (p : Nat) (x : Core) : (s.putCo p x).atc = s.atc := rfl
@[simp] theorem putCo_hostReads (s : State) (p : Nat) (x : Core) : (s.putCo p x).hostReads = s.hostReads := rfl
@[simp] theorem putCo_inval (s : State) (p : Nat) (x : Core) : (s.putCo p x).inval = s.inval := rfl
@[simp] theorem putCo_invalDone (s : State) (p : Nat) (x : Core) : (s.putCo p x).invalDone = s.invalDone := rfl
@[simp] theorem putCo_pasidCtx (s : State) (p : Nat) (x : Core) : (s.putCo p x).pasidCtx = s.pasidCtx := rfl
@[simp] theorem putCo_msix (s : State) (p : Nat) (x : Core) : (s.putCo p x).msix = s.msix := rfl
@[simp] theorem putCo_inReset (s : State) (p : Nat) (x : Core) : (s.putCo p x).inReset = s.inReset := rfl
@[simp] theorem putCo_tripped (s : State) (p : Nat) (x : Core) : (s.putCo p x).tripped = s.tripped := rfl
@[simp] theorem putCo_bootSrc (s : State) (p : Nat) (x : Core) : (s.putCo p x).bootSrc = s.bootSrc := rfl
@[simp] theorem putCo_modId (s : State) (p : Nat) (x : Core) : (s.putCo p x).modId = s.modId := rfl
@[simp] theorem putCo_ready (s : State) (p : Nat) (x : Core) : (s.putCo p x).ready = s.ready := rfl
@[simp] theorem putCo_samples (s : State) (p : Nat) (x : Core) : (s.putCo p x).samples = s.samples := rfl
@[simp] theorem putCo_pwrAlert (s : State) (p : Nat) (x : Core) : (s.putCo p x).pwrAlert = s.pwrAlert := rfl
@[simp] theorem putCo_hot (s : State) (p : Nat) (x : Core) : (s.putCo p x).hot = s.hot := rfl
@[simp] theorem putCo_palarm (s : State) (p : Nat) (x : Core) : (s.putCo p x).palarm = s.palarm := rfl
@[simp] theorem putCo_calm (s : State) (p : Nat) (x : Core) : (s.putCo p x).calm = s.calm := rfl
@[simp] theorem putCo_fuseKey (s : State) (p : Nat) (x : Core) : (s.putCo p x).fuseKey = s.fuseKey := rfl
@[simp] theorem putCo_fuseMin (s : State) (p : Nat) (x : Core) : (s.putCo p x).fuseMin = s.fuseMin := rfl
@[simp] theorem putCo_free (s : State) (p : Nat) (x : Core) : (s.putCo p x).free = s.free := rfl
@[simp] theorem putCo_leadHeld (s : State) (p : Nat) (x : Core) : (s.putCo p x).leadHeld = s.leadHeld := rfl
@[simp] theorem putCo_leadHolder (s : State) (p : Nat) (x : Core) : (s.putCo p x).leadHolder = s.leadHolder := rfl
@[simp] theorem putCo_leadExp (s : State) (p : Nat) (x : Core) : (s.putCo p x).leadExp = s.leadExp := rfl
@[simp] theorem putCo_sc (s : State) (p : Nat) (x : Core) (i : Nat) : (s.putCo p x).sc i = s.sc i := rfl
@[simp] theorem putCo_qd (s : State) (p : Nat) (x : Core) (i : Nat) : (s.putCo p x).qd i = s.qd i := rfl
@[simp] theorem putCo_di (s : State) (p : Nat) (x : Core) (i : Nat) : (s.putCo p x).di i = s.di i := rfl
@[simp] theorem putCo_cx (s : State) (p : Nat) (x : Core) (i : Nat) : (s.putCo p x).cx i = s.cx i := rfl
@[simp] theorem putCo_tm (s : State) (p : Nat) (x : Core) (i : Nat) : (s.putCo p x).tm i = s.tm i := rfl
@[simp] theorem putCo_ns (s : State) (p : Nat) (x : Core) : (s.putCo p x).ns = s.ns := rfl
@[simp] theorem putCo_get (s : State) (p : Nat) (x : Core) (i : Nat) : (s.putCo p x).co i = if i = p then x else s.co i := by
  simp [State.co, State.putCo]

/-! ### putQd -/

@[simp] theorem putQd_time (s : State) (q : Nat) (x : Quad) : (s.putQd q x).time = s.time := rfl
@[simp] theorem putQd_cur (s : State) (q : Nat) (x : Quad) : (s.putQd q x).cur = s.cur := rfl
@[simp] theorem putQd_curq (s : State) (q : Nat) (x : Quad) : (s.putQd q x).curq = s.curq := rfl
@[simp] theorem putQd_lim (s : State) (q : Nat) (x : Quad) : (s.putQd q x).lim = s.lim := rfl
@[simp] theorem putQd_arrival (s : State) (q : Nat) (x : Quad) : (s.putQd q x).arrival = s.arrival := rfl
@[simp] theorem putQd_sched (s : State) (q : Nat) (x : Quad) : (s.putQd q x).sched = s.sched := rfl
@[simp] theorem putQd_scal (s : State) (q : Nat) (x : Quad) : (s.putQd q x).scal = s.scal := rfl
@[simp] theorem putQd_core (s : State) (q : Nat) (x : Quad) : (s.putQd q x).core = s.core := rfl
@[simp] theorem putQd_die (s : State) (q : Nat) (x : Quad) : (s.putQd q x).die = s.die := rfl
@[simp] theorem putQd_mem (s : State) (q : Nat) (x : Quad) : (s.putQd q x).mem = s.mem := rfl
@[simp] theorem putQd_ecc (s : State) (q : Nat) (x : Quad) : (s.putQd q x).ecc = s.ecc := rfl
@[simp] theorem putQd_objs (s : State) (q : Nat) (x : Quad) : (s.putQd q x).objs = s.objs := rfl
@[simp] theorem putQd_team (s : State) (q : Nat) (x : Quad) : (s.putQd q x).team = s.team := rfl
@[simp] theorem putQd_ctxs (s : State) (q : Nat) (x : Quad) : (s.putQd q x).ctxs = s.ctxs := rfl
@[simp] theorem putQd_faults (s : State) (q : Nat) (x : Quad) : (s.putQd q x).faults = s.faults := rfl
@[simp] theorem putQd_tx (s : State) (q : Nat) (x : Quad) : (s.putQd q x).tx = s.tx := rfl
@[simp] theorem putQd_reads (s : State) (q : Nat) (x : Quad) : (s.putQd q x).reads = s.reads := rfl
@[simp] theorem putQd_conns (s : State) (q : Nat) (x : Quad) : (s.putQd q x).conns = s.conns := rfl
@[simp] theorem putQd_out (s : State) (q : Nat) (x : Quad) : (s.putQd q x).out = s.out := rfl
@[simp] theorem putQd_netBad (s : State) (q : Nat) (x : Quad) : (s.putQd q x).netBad = s.netBad := rfl
@[simp] theorem putQd_netAmb (s : State) (q : Nat) (x : Quad) : (s.putQd q x).netAmb = s.netAmb := rfl
@[simp] theorem putQd_fired (s : State) (q : Nat) (x : Quad) : (s.putQd q x).fired = s.fired := rfl
@[simp] theorem putQd_convIn (s : State) (q : Nat) (x : Quad) : (s.putQd q x).convIn = s.convIn := rfl
@[simp] theorem putQd_places (s : State) (q : Nat) (x : Quad) : (s.putQd q x).places = s.places := rfl
@[simp] theorem putQd_flags (s : State) (q : Nat) (x : Quad) : (s.putQd q x).flags = s.flags := rfl
@[simp] theorem putQd_acts (s : State) (q : Nat) (x : Quad) : (s.putQd q x).acts = s.acts := rfl
@[simp] theorem putQd_trees (s : State) (q : Nat) (x : Quad) : (s.putQd q x).trees = s.trees := rfl
@[simp] theorem putQd_slots (s : State) (q : Nat) (x : Quad) : (s.putQd q x).slots = s.slots := rfl
@[simp] theorem putQd_rx (s : State) (q : Nat) (x : Quad) : (s.putQd q x).rx = s.rx := rfl
@[simp] theorem putQd_rxId (s : State) (q : Nat) (x : Quad) : (s.putQd q x).rxId = s.rxId := rfl
@[simp] theorem putQd_incs (s : State) (q : Nat) (x : Quad) : (s.putQd q x).incs = s.incs := rfl
@[simp] theorem putQd_own (s : State) (q : Nat) (x : Quad) : (s.putQd q x).own = s.own := rfl
@[simp] theorem putQd_allots (s : State) (q : Nat) (x : Quad) : (s.putQd q x).allots = s.allots := rfl
@[simp] theorem putQd_turnCtx (s : State) (q : Nat) (x : Quad) : (s.putQd q x).turnCtx = s.turnCtx := rfl
@[simp] theorem putQd_pool (s : State) (q : Nat) (x : Quad) : (s.putQd q x).pool = s.pool := rfl
@[simp] theorem putQd_spills (s : State) (q : Nat) (x : Quad) : (s.putQd q x).spills = s.spills := rfl
@[simp] theorem putQd_vt (s : State) (q : Nat) (x : Quad) : (s.putQd q x).vt = s.vt := rfl
@[simp] theorem putQd_ran (s : State) (q : Nat) (x : Quad) : (s.putQd q x).ran = s.ran := rfl
@[simp] theorem putQd_ended (s : State) (q : Nat) (x : Quad) : (s.putQd q x).ended = s.ended := rfl
@[simp] theorem putQd_teamNo (s : State) (q : Nat) (x : Quad) : (s.putQd q x).teamNo = s.teamNo := rfl
@[simp] theorem putQd_opened (s : State) (q : Nat) (x : Quad) : (s.putQd q x).opened = s.opened := rfl
@[simp] theorem putQd_itins (s : State) (q : Nat) (x : Quad) : (s.putQd q x).itins = s.itins := rfl
@[simp] theorem putQd_convs (s : State) (q : Nat) (x : Quad) : (s.putQd q x).convs = s.convs := rfl
@[simp] theorem putQd_atc (s : State) (q : Nat) (x : Quad) : (s.putQd q x).atc = s.atc := rfl
@[simp] theorem putQd_hostReads (s : State) (q : Nat) (x : Quad) : (s.putQd q x).hostReads = s.hostReads := rfl
@[simp] theorem putQd_inval (s : State) (q : Nat) (x : Quad) : (s.putQd q x).inval = s.inval := rfl
@[simp] theorem putQd_invalDone (s : State) (q : Nat) (x : Quad) : (s.putQd q x).invalDone = s.invalDone := rfl
@[simp] theorem putQd_pasidCtx (s : State) (q : Nat) (x : Quad) : (s.putQd q x).pasidCtx = s.pasidCtx := rfl
@[simp] theorem putQd_msix (s : State) (q : Nat) (x : Quad) : (s.putQd q x).msix = s.msix := rfl
@[simp] theorem putQd_inReset (s : State) (q : Nat) (x : Quad) : (s.putQd q x).inReset = s.inReset := rfl
@[simp] theorem putQd_tripped (s : State) (q : Nat) (x : Quad) : (s.putQd q x).tripped = s.tripped := rfl
@[simp] theorem putQd_bootSrc (s : State) (q : Nat) (x : Quad) : (s.putQd q x).bootSrc = s.bootSrc := rfl
@[simp] theorem putQd_modId (s : State) (q : Nat) (x : Quad) : (s.putQd q x).modId = s.modId := rfl
@[simp] theorem putQd_ready (s : State) (q : Nat) (x : Quad) : (s.putQd q x).ready = s.ready := rfl
@[simp] theorem putQd_samples (s : State) (q : Nat) (x : Quad) : (s.putQd q x).samples = s.samples := rfl
@[simp] theorem putQd_pwrAlert (s : State) (q : Nat) (x : Quad) : (s.putQd q x).pwrAlert = s.pwrAlert := rfl
@[simp] theorem putQd_hot (s : State) (q : Nat) (x : Quad) : (s.putQd q x).hot = s.hot := rfl
@[simp] theorem putQd_palarm (s : State) (q : Nat) (x : Quad) : (s.putQd q x).palarm = s.palarm := rfl
@[simp] theorem putQd_calm (s : State) (q : Nat) (x : Quad) : (s.putQd q x).calm = s.calm := rfl
@[simp] theorem putQd_fuseKey (s : State) (q : Nat) (x : Quad) : (s.putQd q x).fuseKey = s.fuseKey := rfl
@[simp] theorem putQd_fuseMin (s : State) (q : Nat) (x : Quad) : (s.putQd q x).fuseMin = s.fuseMin := rfl
@[simp] theorem putQd_free (s : State) (q : Nat) (x : Quad) : (s.putQd q x).free = s.free := rfl
@[simp] theorem putQd_leadHeld (s : State) (q : Nat) (x : Quad) : (s.putQd q x).leadHeld = s.leadHeld := rfl
@[simp] theorem putQd_leadHolder (s : State) (q : Nat) (x : Quad) : (s.putQd q x).leadHolder = s.leadHolder := rfl
@[simp] theorem putQd_leadExp (s : State) (q : Nat) (x : Quad) : (s.putQd q x).leadExp = s.leadExp := rfl
@[simp] theorem putQd_sc (s : State) (q : Nat) (x : Quad) (i : Nat) : (s.putQd q x).sc i = s.sc i := rfl
@[simp] theorem putQd_co (s : State) (q : Nat) (x : Quad) (i : Nat) : (s.putQd q x).co i = s.co i := rfl
@[simp] theorem putQd_di (s : State) (q : Nat) (x : Quad) (i : Nat) : (s.putQd q x).di i = s.di i := rfl
@[simp] theorem putQd_cx (s : State) (q : Nat) (x : Quad) (i : Nat) : (s.putQd q x).cx i = s.cx i := rfl
@[simp] theorem putQd_tm (s : State) (q : Nat) (x : Quad) (i : Nat) : (s.putQd q x).tm i = s.tm i := rfl
@[simp] theorem putQd_ns (s : State) (q : Nat) (x : Quad) : (s.putQd q x).ns = s.ns := rfl
@[simp] theorem putQd_get (s : State) (q : Nat) (x : Quad) (i : Nat) : (s.putQd q x).qd i = if i = q then x else s.qd i := by
  simp [State.qd, State.putQd]

/-! ### putDi -/

@[simp] theorem putDi_time (s : State) (d : Nat) (x : Die) : (s.putDi d x).time = s.time := rfl
@[simp] theorem putDi_cur (s : State) (d : Nat) (x : Die) : (s.putDi d x).cur = s.cur := rfl
@[simp] theorem putDi_curq (s : State) (d : Nat) (x : Die) : (s.putDi d x).curq = s.curq := rfl
@[simp] theorem putDi_lim (s : State) (d : Nat) (x : Die) : (s.putDi d x).lim = s.lim := rfl
@[simp] theorem putDi_arrival (s : State) (d : Nat) (x : Die) : (s.putDi d x).arrival = s.arrival := rfl
@[simp] theorem putDi_sched (s : State) (d : Nat) (x : Die) : (s.putDi d x).sched = s.sched := rfl
@[simp] theorem putDi_scal (s : State) (d : Nat) (x : Die) : (s.putDi d x).scal = s.scal := rfl
@[simp] theorem putDi_core (s : State) (d : Nat) (x : Die) : (s.putDi d x).core = s.core := rfl
@[simp] theorem putDi_quad (s : State) (d : Nat) (x : Die) : (s.putDi d x).quad = s.quad := rfl
@[simp] theorem putDi_mem (s : State) (d : Nat) (x : Die) : (s.putDi d x).mem = s.mem := rfl
@[simp] theorem putDi_ecc (s : State) (d : Nat) (x : Die) : (s.putDi d x).ecc = s.ecc := rfl
@[simp] theorem putDi_objs (s : State) (d : Nat) (x : Die) : (s.putDi d x).objs = s.objs := rfl
@[simp] theorem putDi_team (s : State) (d : Nat) (x : Die) : (s.putDi d x).team = s.team := rfl
@[simp] theorem putDi_ctxs (s : State) (d : Nat) (x : Die) : (s.putDi d x).ctxs = s.ctxs := rfl
@[simp] theorem putDi_faults (s : State) (d : Nat) (x : Die) : (s.putDi d x).faults = s.faults := rfl
@[simp] theorem putDi_tx (s : State) (d : Nat) (x : Die) : (s.putDi d x).tx = s.tx := rfl
@[simp] theorem putDi_reads (s : State) (d : Nat) (x : Die) : (s.putDi d x).reads = s.reads := rfl
@[simp] theorem putDi_conns (s : State) (d : Nat) (x : Die) : (s.putDi d x).conns = s.conns := rfl
@[simp] theorem putDi_out (s : State) (d : Nat) (x : Die) : (s.putDi d x).out = s.out := rfl
@[simp] theorem putDi_netBad (s : State) (d : Nat) (x : Die) : (s.putDi d x).netBad = s.netBad := rfl
@[simp] theorem putDi_netAmb (s : State) (d : Nat) (x : Die) : (s.putDi d x).netAmb = s.netAmb := rfl
@[simp] theorem putDi_fired (s : State) (d : Nat) (x : Die) : (s.putDi d x).fired = s.fired := rfl
@[simp] theorem putDi_convIn (s : State) (d : Nat) (x : Die) : (s.putDi d x).convIn = s.convIn := rfl
@[simp] theorem putDi_places (s : State) (d : Nat) (x : Die) : (s.putDi d x).places = s.places := rfl
@[simp] theorem putDi_flags (s : State) (d : Nat) (x : Die) : (s.putDi d x).flags = s.flags := rfl
@[simp] theorem putDi_acts (s : State) (d : Nat) (x : Die) : (s.putDi d x).acts = s.acts := rfl
@[simp] theorem putDi_trees (s : State) (d : Nat) (x : Die) : (s.putDi d x).trees = s.trees := rfl
@[simp] theorem putDi_slots (s : State) (d : Nat) (x : Die) : (s.putDi d x).slots = s.slots := rfl
@[simp] theorem putDi_rx (s : State) (d : Nat) (x : Die) : (s.putDi d x).rx = s.rx := rfl
@[simp] theorem putDi_rxId (s : State) (d : Nat) (x : Die) : (s.putDi d x).rxId = s.rxId := rfl
@[simp] theorem putDi_incs (s : State) (d : Nat) (x : Die) : (s.putDi d x).incs = s.incs := rfl
@[simp] theorem putDi_own (s : State) (d : Nat) (x : Die) : (s.putDi d x).own = s.own := rfl
@[simp] theorem putDi_allots (s : State) (d : Nat) (x : Die) : (s.putDi d x).allots = s.allots := rfl
@[simp] theorem putDi_turnCtx (s : State) (d : Nat) (x : Die) : (s.putDi d x).turnCtx = s.turnCtx := rfl
@[simp] theorem putDi_pool (s : State) (d : Nat) (x : Die) : (s.putDi d x).pool = s.pool := rfl
@[simp] theorem putDi_spills (s : State) (d : Nat) (x : Die) : (s.putDi d x).spills = s.spills := rfl
@[simp] theorem putDi_vt (s : State) (d : Nat) (x : Die) : (s.putDi d x).vt = s.vt := rfl
@[simp] theorem putDi_ran (s : State) (d : Nat) (x : Die) : (s.putDi d x).ran = s.ran := rfl
@[simp] theorem putDi_ended (s : State) (d : Nat) (x : Die) : (s.putDi d x).ended = s.ended := rfl
@[simp] theorem putDi_teamNo (s : State) (d : Nat) (x : Die) : (s.putDi d x).teamNo = s.teamNo := rfl
@[simp] theorem putDi_opened (s : State) (d : Nat) (x : Die) : (s.putDi d x).opened = s.opened := rfl
@[simp] theorem putDi_itins (s : State) (d : Nat) (x : Die) : (s.putDi d x).itins = s.itins := rfl
@[simp] theorem putDi_convs (s : State) (d : Nat) (x : Die) : (s.putDi d x).convs = s.convs := rfl
@[simp] theorem putDi_atc (s : State) (d : Nat) (x : Die) : (s.putDi d x).atc = s.atc := rfl
@[simp] theorem putDi_hostReads (s : State) (d : Nat) (x : Die) : (s.putDi d x).hostReads = s.hostReads := rfl
@[simp] theorem putDi_inval (s : State) (d : Nat) (x : Die) : (s.putDi d x).inval = s.inval := rfl
@[simp] theorem putDi_invalDone (s : State) (d : Nat) (x : Die) : (s.putDi d x).invalDone = s.invalDone := rfl
@[simp] theorem putDi_pasidCtx (s : State) (d : Nat) (x : Die) : (s.putDi d x).pasidCtx = s.pasidCtx := rfl
@[simp] theorem putDi_msix (s : State) (d : Nat) (x : Die) : (s.putDi d x).msix = s.msix := rfl
@[simp] theorem putDi_inReset (s : State) (d : Nat) (x : Die) : (s.putDi d x).inReset = s.inReset := rfl
@[simp] theorem putDi_tripped (s : State) (d : Nat) (x : Die) : (s.putDi d x).tripped = s.tripped := rfl
@[simp] theorem putDi_bootSrc (s : State) (d : Nat) (x : Die) : (s.putDi d x).bootSrc = s.bootSrc := rfl
@[simp] theorem putDi_modId (s : State) (d : Nat) (x : Die) : (s.putDi d x).modId = s.modId := rfl
@[simp] theorem putDi_ready (s : State) (d : Nat) (x : Die) : (s.putDi d x).ready = s.ready := rfl
@[simp] theorem putDi_samples (s : State) (d : Nat) (x : Die) : (s.putDi d x).samples = s.samples := rfl
@[simp] theorem putDi_pwrAlert (s : State) (d : Nat) (x : Die) : (s.putDi d x).pwrAlert = s.pwrAlert := rfl
@[simp] theorem putDi_hot (s : State) (d : Nat) (x : Die) : (s.putDi d x).hot = s.hot := rfl
@[simp] theorem putDi_palarm (s : State) (d : Nat) (x : Die) : (s.putDi d x).palarm = s.palarm := rfl
@[simp] theorem putDi_calm (s : State) (d : Nat) (x : Die) : (s.putDi d x).calm = s.calm := rfl
@[simp] theorem putDi_fuseKey (s : State) (d : Nat) (x : Die) : (s.putDi d x).fuseKey = s.fuseKey := rfl
@[simp] theorem putDi_fuseMin (s : State) (d : Nat) (x : Die) : (s.putDi d x).fuseMin = s.fuseMin := rfl
@[simp] theorem putDi_free (s : State) (d : Nat) (x : Die) : (s.putDi d x).free = s.free := rfl
@[simp] theorem putDi_leadHeld (s : State) (d : Nat) (x : Die) : (s.putDi d x).leadHeld = s.leadHeld := rfl
@[simp] theorem putDi_leadHolder (s : State) (d : Nat) (x : Die) : (s.putDi d x).leadHolder = s.leadHolder := rfl
@[simp] theorem putDi_leadExp (s : State) (d : Nat) (x : Die) : (s.putDi d x).leadExp = s.leadExp := rfl
@[simp] theorem putDi_sc (s : State) (d : Nat) (x : Die) (i : Nat) : (s.putDi d x).sc i = s.sc i := rfl
@[simp] theorem putDi_co (s : State) (d : Nat) (x : Die) (i : Nat) : (s.putDi d x).co i = s.co i := rfl
@[simp] theorem putDi_qd (s : State) (d : Nat) (x : Die) (i : Nat) : (s.putDi d x).qd i = s.qd i := rfl
@[simp] theorem putDi_cx (s : State) (d : Nat) (x : Die) (i : Nat) : (s.putDi d x).cx i = s.cx i := rfl
@[simp] theorem putDi_tm (s : State) (d : Nat) (x : Die) (i : Nat) : (s.putDi d x).tm i = s.tm i := rfl
@[simp] theorem putDi_ns (s : State) (d : Nat) (x : Die) : (s.putDi d x).ns = s.ns := rfl
@[simp] theorem putDi_get (s : State) (d : Nat) (x : Die) (i : Nat) : (s.putDi d x).di i = if i = d then x else s.di i := by
  simp [State.di, State.putDi]

/-! ### putCx -/

@[simp] theorem putCx_time (s : State) (c : Nat) (x : CtxRun) : (s.putCx c x).time = s.time := rfl
@[simp] theorem putCx_cur (s : State) (c : Nat) (x : CtxRun) : (s.putCx c x).cur = s.cur := rfl
@[simp] theorem putCx_curq (s : State) (c : Nat) (x : CtxRun) : (s.putCx c x).curq = s.curq := rfl
@[simp] theorem putCx_lim (s : State) (c : Nat) (x : CtxRun) : (s.putCx c x).lim = s.lim := rfl
@[simp] theorem putCx_arrival (s : State) (c : Nat) (x : CtxRun) : (s.putCx c x).arrival = s.arrival := rfl
@[simp] theorem putCx_sched (s : State) (c : Nat) (x : CtxRun) : (s.putCx c x).sched = s.sched := rfl
@[simp] theorem putCx_scal (s : State) (c : Nat) (x : CtxRun) : (s.putCx c x).scal = s.scal := rfl
@[simp] theorem putCx_core (s : State) (c : Nat) (x : CtxRun) : (s.putCx c x).core = s.core := rfl
@[simp] theorem putCx_quad (s : State) (c : Nat) (x : CtxRun) : (s.putCx c x).quad = s.quad := rfl
@[simp] theorem putCx_die (s : State) (c : Nat) (x : CtxRun) : (s.putCx c x).die = s.die := rfl
@[simp] theorem putCx_mem (s : State) (c : Nat) (x : CtxRun) : (s.putCx c x).mem = s.mem := rfl
@[simp] theorem putCx_ecc (s : State) (c : Nat) (x : CtxRun) : (s.putCx c x).ecc = s.ecc := rfl
@[simp] theorem putCx_objs (s : State) (c : Nat) (x : CtxRun) : (s.putCx c x).objs = s.objs := rfl
@[simp] theorem putCx_team (s : State) (c : Nat) (x : CtxRun) : (s.putCx c x).team = s.team := rfl
@[simp] theorem putCx_faults (s : State) (c : Nat) (x : CtxRun) : (s.putCx c x).faults = s.faults := rfl
@[simp] theorem putCx_tx (s : State) (c : Nat) (x : CtxRun) : (s.putCx c x).tx = s.tx := rfl
@[simp] theorem putCx_reads (s : State) (c : Nat) (x : CtxRun) : (s.putCx c x).reads = s.reads := rfl
@[simp] theorem putCx_conns (s : State) (c : Nat) (x : CtxRun) : (s.putCx c x).conns = s.conns := rfl
@[simp] theorem putCx_out (s : State) (c : Nat) (x : CtxRun) : (s.putCx c x).out = s.out := rfl
@[simp] theorem putCx_netBad (s : State) (c : Nat) (x : CtxRun) : (s.putCx c x).netBad = s.netBad := rfl
@[simp] theorem putCx_netAmb (s : State) (c : Nat) (x : CtxRun) : (s.putCx c x).netAmb = s.netAmb := rfl
@[simp] theorem putCx_fired (s : State) (c : Nat) (x : CtxRun) : (s.putCx c x).fired = s.fired := rfl
@[simp] theorem putCx_convIn (s : State) (c : Nat) (x : CtxRun) : (s.putCx c x).convIn = s.convIn := rfl
@[simp] theorem putCx_places (s : State) (c : Nat) (x : CtxRun) : (s.putCx c x).places = s.places := rfl
@[simp] theorem putCx_flags (s : State) (c : Nat) (x : CtxRun) : (s.putCx c x).flags = s.flags := rfl
@[simp] theorem putCx_acts (s : State) (c : Nat) (x : CtxRun) : (s.putCx c x).acts = s.acts := rfl
@[simp] theorem putCx_trees (s : State) (c : Nat) (x : CtxRun) : (s.putCx c x).trees = s.trees := rfl
@[simp] theorem putCx_slots (s : State) (c : Nat) (x : CtxRun) : (s.putCx c x).slots = s.slots := rfl
@[simp] theorem putCx_rx (s : State) (c : Nat) (x : CtxRun) : (s.putCx c x).rx = s.rx := rfl
@[simp] theorem putCx_rxId (s : State) (c : Nat) (x : CtxRun) : (s.putCx c x).rxId = s.rxId := rfl
@[simp] theorem putCx_incs (s : State) (c : Nat) (x : CtxRun) : (s.putCx c x).incs = s.incs := rfl
@[simp] theorem putCx_own (s : State) (c : Nat) (x : CtxRun) : (s.putCx c x).own = s.own := rfl
@[simp] theorem putCx_allots (s : State) (c : Nat) (x : CtxRun) : (s.putCx c x).allots = s.allots := rfl
@[simp] theorem putCx_turnCtx (s : State) (c : Nat) (x : CtxRun) : (s.putCx c x).turnCtx = s.turnCtx := rfl
@[simp] theorem putCx_pool (s : State) (c : Nat) (x : CtxRun) : (s.putCx c x).pool = s.pool := rfl
@[simp] theorem putCx_spills (s : State) (c : Nat) (x : CtxRun) : (s.putCx c x).spills = s.spills := rfl
@[simp] theorem putCx_vt (s : State) (c : Nat) (x : CtxRun) : (s.putCx c x).vt = s.vt := rfl
@[simp] theorem putCx_ran (s : State) (c : Nat) (x : CtxRun) : (s.putCx c x).ran = s.ran := rfl
@[simp] theorem putCx_ended (s : State) (c : Nat) (x : CtxRun) : (s.putCx c x).ended = s.ended := rfl
@[simp] theorem putCx_teamNo (s : State) (c : Nat) (x : CtxRun) : (s.putCx c x).teamNo = s.teamNo := rfl
@[simp] theorem putCx_opened (s : State) (c : Nat) (x : CtxRun) : (s.putCx c x).opened = s.opened := rfl
@[simp] theorem putCx_itins (s : State) (c : Nat) (x : CtxRun) : (s.putCx c x).itins = s.itins := rfl
@[simp] theorem putCx_convs (s : State) (c : Nat) (x : CtxRun) : (s.putCx c x).convs = s.convs := rfl
@[simp] theorem putCx_atc (s : State) (c : Nat) (x : CtxRun) : (s.putCx c x).atc = s.atc := rfl
@[simp] theorem putCx_hostReads (s : State) (c : Nat) (x : CtxRun) : (s.putCx c x).hostReads = s.hostReads := rfl
@[simp] theorem putCx_inval (s : State) (c : Nat) (x : CtxRun) : (s.putCx c x).inval = s.inval := rfl
@[simp] theorem putCx_invalDone (s : State) (c : Nat) (x : CtxRun) : (s.putCx c x).invalDone = s.invalDone := rfl
@[simp] theorem putCx_pasidCtx (s : State) (c : Nat) (x : CtxRun) : (s.putCx c x).pasidCtx = s.pasidCtx := rfl
@[simp] theorem putCx_msix (s : State) (c : Nat) (x : CtxRun) : (s.putCx c x).msix = s.msix := rfl
@[simp] theorem putCx_inReset (s : State) (c : Nat) (x : CtxRun) : (s.putCx c x).inReset = s.inReset := rfl
@[simp] theorem putCx_tripped (s : State) (c : Nat) (x : CtxRun) : (s.putCx c x).tripped = s.tripped := rfl
@[simp] theorem putCx_bootSrc (s : State) (c : Nat) (x : CtxRun) : (s.putCx c x).bootSrc = s.bootSrc := rfl
@[simp] theorem putCx_modId (s : State) (c : Nat) (x : CtxRun) : (s.putCx c x).modId = s.modId := rfl
@[simp] theorem putCx_ready (s : State) (c : Nat) (x : CtxRun) : (s.putCx c x).ready = s.ready := rfl
@[simp] theorem putCx_samples (s : State) (c : Nat) (x : CtxRun) : (s.putCx c x).samples = s.samples := rfl
@[simp] theorem putCx_pwrAlert (s : State) (c : Nat) (x : CtxRun) : (s.putCx c x).pwrAlert = s.pwrAlert := rfl
@[simp] theorem putCx_hot (s : State) (c : Nat) (x : CtxRun) : (s.putCx c x).hot = s.hot := rfl
@[simp] theorem putCx_palarm (s : State) (c : Nat) (x : CtxRun) : (s.putCx c x).palarm = s.palarm := rfl
@[simp] theorem putCx_calm (s : State) (c : Nat) (x : CtxRun) : (s.putCx c x).calm = s.calm := rfl
@[simp] theorem putCx_fuseKey (s : State) (c : Nat) (x : CtxRun) : (s.putCx c x).fuseKey = s.fuseKey := rfl
@[simp] theorem putCx_fuseMin (s : State) (c : Nat) (x : CtxRun) : (s.putCx c x).fuseMin = s.fuseMin := rfl
@[simp] theorem putCx_free (s : State) (c : Nat) (x : CtxRun) : (s.putCx c x).free = s.free := rfl
@[simp] theorem putCx_leadHeld (s : State) (c : Nat) (x : CtxRun) : (s.putCx c x).leadHeld = s.leadHeld := rfl
@[simp] theorem putCx_leadHolder (s : State) (c : Nat) (x : CtxRun) : (s.putCx c x).leadHolder = s.leadHolder := rfl
@[simp] theorem putCx_leadExp (s : State) (c : Nat) (x : CtxRun) : (s.putCx c x).leadExp = s.leadExp := rfl
@[simp] theorem putCx_sc (s : State) (c : Nat) (x : CtxRun) (i : Nat) : (s.putCx c x).sc i = s.sc i := rfl
@[simp] theorem putCx_co (s : State) (c : Nat) (x : CtxRun) (i : Nat) : (s.putCx c x).co i = s.co i := rfl
@[simp] theorem putCx_qd (s : State) (c : Nat) (x : CtxRun) (i : Nat) : (s.putCx c x).qd i = s.qd i := rfl
@[simp] theorem putCx_di (s : State) (c : Nat) (x : CtxRun) (i : Nat) : (s.putCx c x).di i = s.di i := rfl
@[simp] theorem putCx_tm (s : State) (c : Nat) (x : CtxRun) (i : Nat) : (s.putCx c x).tm i = s.tm i := rfl
@[simp] theorem putCx_ns (s : State) (c : Nat) (x : CtxRun) : (s.putCx c x).ns = s.ns := rfl
@[simp] theorem putCx_get (s : State) (c : Nat) (x : CtxRun) (i : Nat) : (s.putCx c x).cx i = if i = c then x else s.cx i := by
  simp [State.cx, State.putCx]

/-! ### putTm -/

@[simp] theorem putTm_time (s : State) (t : Nat) (x : Team) : (s.putTm t x).time = s.time := rfl
@[simp] theorem putTm_cur (s : State) (t : Nat) (x : Team) : (s.putTm t x).cur = s.cur := rfl
@[simp] theorem putTm_curq (s : State) (t : Nat) (x : Team) : (s.putTm t x).curq = s.curq := rfl
@[simp] theorem putTm_lim (s : State) (t : Nat) (x : Team) : (s.putTm t x).lim = s.lim := rfl
@[simp] theorem putTm_arrival (s : State) (t : Nat) (x : Team) : (s.putTm t x).arrival = s.arrival := rfl
@[simp] theorem putTm_sched (s : State) (t : Nat) (x : Team) : (s.putTm t x).sched = s.sched := rfl
@[simp] theorem putTm_scal (s : State) (t : Nat) (x : Team) : (s.putTm t x).scal = s.scal := rfl
@[simp] theorem putTm_core (s : State) (t : Nat) (x : Team) : (s.putTm t x).core = s.core := rfl
@[simp] theorem putTm_quad (s : State) (t : Nat) (x : Team) : (s.putTm t x).quad = s.quad := rfl
@[simp] theorem putTm_die (s : State) (t : Nat) (x : Team) : (s.putTm t x).die = s.die := rfl
@[simp] theorem putTm_mem (s : State) (t : Nat) (x : Team) : (s.putTm t x).mem = s.mem := rfl
@[simp] theorem putTm_ecc (s : State) (t : Nat) (x : Team) : (s.putTm t x).ecc = s.ecc := rfl
@[simp] theorem putTm_objs (s : State) (t : Nat) (x : Team) : (s.putTm t x).objs = s.objs := rfl
@[simp] theorem putTm_ctxs (s : State) (t : Nat) (x : Team) : (s.putTm t x).ctxs = s.ctxs := rfl
@[simp] theorem putTm_faults (s : State) (t : Nat) (x : Team) : (s.putTm t x).faults = s.faults := rfl
@[simp] theorem putTm_tx (s : State) (t : Nat) (x : Team) : (s.putTm t x).tx = s.tx := rfl
@[simp] theorem putTm_reads (s : State) (t : Nat) (x : Team) : (s.putTm t x).reads = s.reads := rfl
@[simp] theorem putTm_conns (s : State) (t : Nat) (x : Team) : (s.putTm t x).conns = s.conns := rfl
@[simp] theorem putTm_out (s : State) (t : Nat) (x : Team) : (s.putTm t x).out = s.out := rfl
@[simp] theorem putTm_netBad (s : State) (t : Nat) (x : Team) : (s.putTm t x).netBad = s.netBad := rfl
@[simp] theorem putTm_netAmb (s : State) (t : Nat) (x : Team) : (s.putTm t x).netAmb = s.netAmb := rfl
@[simp] theorem putTm_fired (s : State) (t : Nat) (x : Team) : (s.putTm t x).fired = s.fired := rfl
@[simp] theorem putTm_convIn (s : State) (t : Nat) (x : Team) : (s.putTm t x).convIn = s.convIn := rfl
@[simp] theorem putTm_places (s : State) (t : Nat) (x : Team) : (s.putTm t x).places = s.places := rfl
@[simp] theorem putTm_flags (s : State) (t : Nat) (x : Team) : (s.putTm t x).flags = s.flags := rfl
@[simp] theorem putTm_acts (s : State) (t : Nat) (x : Team) : (s.putTm t x).acts = s.acts := rfl
@[simp] theorem putTm_trees (s : State) (t : Nat) (x : Team) : (s.putTm t x).trees = s.trees := rfl
@[simp] theorem putTm_slots (s : State) (t : Nat) (x : Team) : (s.putTm t x).slots = s.slots := rfl
@[simp] theorem putTm_rx (s : State) (t : Nat) (x : Team) : (s.putTm t x).rx = s.rx := rfl
@[simp] theorem putTm_rxId (s : State) (t : Nat) (x : Team) : (s.putTm t x).rxId = s.rxId := rfl
@[simp] theorem putTm_incs (s : State) (t : Nat) (x : Team) : (s.putTm t x).incs = s.incs := rfl
@[simp] theorem putTm_own (s : State) (t : Nat) (x : Team) : (s.putTm t x).own = s.own := rfl
@[simp] theorem putTm_allots (s : State) (t : Nat) (x : Team) : (s.putTm t x).allots = s.allots := rfl
@[simp] theorem putTm_turnCtx (s : State) (t : Nat) (x : Team) : (s.putTm t x).turnCtx = s.turnCtx := rfl
@[simp] theorem putTm_pool (s : State) (t : Nat) (x : Team) : (s.putTm t x).pool = s.pool := rfl
@[simp] theorem putTm_spills (s : State) (t : Nat) (x : Team) : (s.putTm t x).spills = s.spills := rfl
@[simp] theorem putTm_vt (s : State) (t : Nat) (x : Team) : (s.putTm t x).vt = s.vt := rfl
@[simp] theorem putTm_ran (s : State) (t : Nat) (x : Team) : (s.putTm t x).ran = s.ran := rfl
@[simp] theorem putTm_ended (s : State) (t : Nat) (x : Team) : (s.putTm t x).ended = s.ended := rfl
@[simp] theorem putTm_teamNo (s : State) (t : Nat) (x : Team) : (s.putTm t x).teamNo = s.teamNo := rfl
@[simp] theorem putTm_opened (s : State) (t : Nat) (x : Team) : (s.putTm t x).opened = s.opened := rfl
@[simp] theorem putTm_itins (s : State) (t : Nat) (x : Team) : (s.putTm t x).itins = s.itins := rfl
@[simp] theorem putTm_convs (s : State) (t : Nat) (x : Team) : (s.putTm t x).convs = s.convs := rfl
@[simp] theorem putTm_atc (s : State) (t : Nat) (x : Team) : (s.putTm t x).atc = s.atc := rfl
@[simp] theorem putTm_hostReads (s : State) (t : Nat) (x : Team) : (s.putTm t x).hostReads = s.hostReads := rfl
@[simp] theorem putTm_inval (s : State) (t : Nat) (x : Team) : (s.putTm t x).inval = s.inval := rfl
@[simp] theorem putTm_invalDone (s : State) (t : Nat) (x : Team) : (s.putTm t x).invalDone = s.invalDone := rfl
@[simp] theorem putTm_pasidCtx (s : State) (t : Nat) (x : Team) : (s.putTm t x).pasidCtx = s.pasidCtx := rfl
@[simp] theorem putTm_msix (s : State) (t : Nat) (x : Team) : (s.putTm t x).msix = s.msix := rfl
@[simp] theorem putTm_inReset (s : State) (t : Nat) (x : Team) : (s.putTm t x).inReset = s.inReset := rfl
@[simp] theorem putTm_tripped (s : State) (t : Nat) (x : Team) : (s.putTm t x).tripped = s.tripped := rfl
@[simp] theorem putTm_bootSrc (s : State) (t : Nat) (x : Team) : (s.putTm t x).bootSrc = s.bootSrc := rfl
@[simp] theorem putTm_modId (s : State) (t : Nat) (x : Team) : (s.putTm t x).modId = s.modId := rfl
@[simp] theorem putTm_ready (s : State) (t : Nat) (x : Team) : (s.putTm t x).ready = s.ready := rfl
@[simp] theorem putTm_samples (s : State) (t : Nat) (x : Team) : (s.putTm t x).samples = s.samples := rfl
@[simp] theorem putTm_pwrAlert (s : State) (t : Nat) (x : Team) : (s.putTm t x).pwrAlert = s.pwrAlert := rfl
@[simp] theorem putTm_hot (s : State) (t : Nat) (x : Team) : (s.putTm t x).hot = s.hot := rfl
@[simp] theorem putTm_palarm (s : State) (t : Nat) (x : Team) : (s.putTm t x).palarm = s.palarm := rfl
@[simp] theorem putTm_calm (s : State) (t : Nat) (x : Team) : (s.putTm t x).calm = s.calm := rfl
@[simp] theorem putTm_fuseKey (s : State) (t : Nat) (x : Team) : (s.putTm t x).fuseKey = s.fuseKey := rfl
@[simp] theorem putTm_fuseMin (s : State) (t : Nat) (x : Team) : (s.putTm t x).fuseMin = s.fuseMin := rfl
@[simp] theorem putTm_free (s : State) (t : Nat) (x : Team) : (s.putTm t x).free = s.free := rfl
@[simp] theorem putTm_leadHeld (s : State) (t : Nat) (x : Team) : (s.putTm t x).leadHeld = s.leadHeld := rfl
@[simp] theorem putTm_leadHolder (s : State) (t : Nat) (x : Team) : (s.putTm t x).leadHolder = s.leadHolder := rfl
@[simp] theorem putTm_leadExp (s : State) (t : Nat) (x : Team) : (s.putTm t x).leadExp = s.leadExp := rfl
@[simp] theorem putTm_sc (s : State) (t : Nat) (x : Team) (i : Nat) : (s.putTm t x).sc i = s.sc i := rfl
@[simp] theorem putTm_co (s : State) (t : Nat) (x : Team) (i : Nat) : (s.putTm t x).co i = s.co i := rfl
@[simp] theorem putTm_qd (s : State) (t : Nat) (x : Team) (i : Nat) : (s.putTm t x).qd i = s.qd i := rfl
@[simp] theorem putTm_di (s : State) (t : Nat) (x : Team) (i : Nat) : (s.putTm t x).di i = s.di i := rfl
@[simp] theorem putTm_cx (s : State) (t : Nat) (x : Team) (i : Nat) : (s.putTm t x).cx i = s.cx i := rfl
@[simp] theorem putTm_ns (s : State) (t : Nat) (x : Team) : (s.putTm t x).ns = s.ns := rfl

/-! ### putMem -/

@[simp] theorem putMem_time (s : State) (m : Memory) : (s.putMem m).time = s.time := rfl
@[simp] theorem putMem_cur (s : State) (m : Memory) : (s.putMem m).cur = s.cur := rfl
@[simp] theorem putMem_curq (s : State) (m : Memory) : (s.putMem m).curq = s.curq := rfl
@[simp] theorem putMem_lim (s : State) (m : Memory) : (s.putMem m).lim = s.lim := rfl
@[simp] theorem putMem_arrival (s : State) (m : Memory) : (s.putMem m).arrival = s.arrival := rfl
@[simp] theorem putMem_sched (s : State) (m : Memory) : (s.putMem m).sched = s.sched := rfl
@[simp] theorem putMem_scal (s : State) (m : Memory) : (s.putMem m).scal = s.scal := rfl
@[simp] theorem putMem_core (s : State) (m : Memory) : (s.putMem m).core = s.core := rfl
@[simp] theorem putMem_quad (s : State) (m : Memory) : (s.putMem m).quad = s.quad := rfl
@[simp] theorem putMem_die (s : State) (m : Memory) : (s.putMem m).die = s.die := rfl
@[simp] theorem putMem_ecc (s : State) (m : Memory) : (s.putMem m).ecc = s.ecc := rfl
@[simp] theorem putMem_objs (s : State) (m : Memory) : (s.putMem m).objs = s.objs := rfl
@[simp] theorem putMem_team (s : State) (m : Memory) : (s.putMem m).team = s.team := rfl
@[simp] theorem putMem_ctxs (s : State) (m : Memory) : (s.putMem m).ctxs = s.ctxs := rfl
@[simp] theorem putMem_faults (s : State) (m : Memory) : (s.putMem m).faults = s.faults := rfl
@[simp] theorem putMem_tx (s : State) (m : Memory) : (s.putMem m).tx = s.tx := rfl
@[simp] theorem putMem_reads (s : State) (m : Memory) : (s.putMem m).reads = s.reads := rfl
@[simp] theorem putMem_conns (s : State) (m : Memory) : (s.putMem m).conns = s.conns := rfl
@[simp] theorem putMem_out (s : State) (m : Memory) : (s.putMem m).out = s.out := rfl
@[simp] theorem putMem_netBad (s : State) (m : Memory) : (s.putMem m).netBad = s.netBad := rfl
@[simp] theorem putMem_netAmb (s : State) (m : Memory) : (s.putMem m).netAmb = s.netAmb := rfl
@[simp] theorem putMem_fired (s : State) (m : Memory) : (s.putMem m).fired = s.fired := rfl
@[simp] theorem putMem_convIn (s : State) (m : Memory) : (s.putMem m).convIn = s.convIn := rfl
@[simp] theorem putMem_places (s : State) (m : Memory) : (s.putMem m).places = s.places := rfl
@[simp] theorem putMem_flags (s : State) (m : Memory) : (s.putMem m).flags = s.flags := rfl
@[simp] theorem putMem_acts (s : State) (m : Memory) : (s.putMem m).acts = s.acts := rfl
@[simp] theorem putMem_trees (s : State) (m : Memory) : (s.putMem m).trees = s.trees := rfl
@[simp] theorem putMem_slots (s : State) (m : Memory) : (s.putMem m).slots = s.slots := rfl
@[simp] theorem putMem_rx (s : State) (m : Memory) : (s.putMem m).rx = s.rx := rfl
@[simp] theorem putMem_rxId (s : State) (m : Memory) : (s.putMem m).rxId = s.rxId := rfl
@[simp] theorem putMem_incs (s : State) (m : Memory) : (s.putMem m).incs = s.incs := rfl
@[simp] theorem putMem_own (s : State) (m : Memory) : (s.putMem m).own = s.own := rfl
@[simp] theorem putMem_allots (s : State) (m : Memory) : (s.putMem m).allots = s.allots := rfl
@[simp] theorem putMem_turnCtx (s : State) (m : Memory) : (s.putMem m).turnCtx = s.turnCtx := rfl
@[simp] theorem putMem_pool (s : State) (m : Memory) : (s.putMem m).pool = s.pool := rfl
@[simp] theorem putMem_spills (s : State) (m : Memory) : (s.putMem m).spills = s.spills := rfl
@[simp] theorem putMem_vt (s : State) (m : Memory) : (s.putMem m).vt = s.vt := rfl
@[simp] theorem putMem_ran (s : State) (m : Memory) : (s.putMem m).ran = s.ran := rfl
@[simp] theorem putMem_ended (s : State) (m : Memory) : (s.putMem m).ended = s.ended := rfl
@[simp] theorem putMem_teamNo (s : State) (m : Memory) : (s.putMem m).teamNo = s.teamNo := rfl
@[simp] theorem putMem_opened (s : State) (m : Memory) : (s.putMem m).opened = s.opened := rfl
@[simp] theorem putMem_itins (s : State) (m : Memory) : (s.putMem m).itins = s.itins := rfl
@[simp] theorem putMem_convs (s : State) (m : Memory) : (s.putMem m).convs = s.convs := rfl
@[simp] theorem putMem_atc (s : State) (m : Memory) : (s.putMem m).atc = s.atc := rfl
@[simp] theorem putMem_hostReads (s : State) (m : Memory) : (s.putMem m).hostReads = s.hostReads := rfl
@[simp] theorem putMem_inval (s : State) (m : Memory) : (s.putMem m).inval = s.inval := rfl
@[simp] theorem putMem_invalDone (s : State) (m : Memory) : (s.putMem m).invalDone = s.invalDone := rfl
@[simp] theorem putMem_pasidCtx (s : State) (m : Memory) : (s.putMem m).pasidCtx = s.pasidCtx := rfl
@[simp] theorem putMem_msix (s : State) (m : Memory) : (s.putMem m).msix = s.msix := rfl
@[simp] theorem putMem_inReset (s : State) (m : Memory) : (s.putMem m).inReset = s.inReset := rfl
@[simp] theorem putMem_tripped (s : State) (m : Memory) : (s.putMem m).tripped = s.tripped := rfl
@[simp] theorem putMem_bootSrc (s : State) (m : Memory) : (s.putMem m).bootSrc = s.bootSrc := rfl
@[simp] theorem putMem_modId (s : State) (m : Memory) : (s.putMem m).modId = s.modId := rfl
@[simp] theorem putMem_ready (s : State) (m : Memory) : (s.putMem m).ready = s.ready := rfl
@[simp] theorem putMem_samples (s : State) (m : Memory) : (s.putMem m).samples = s.samples := rfl
@[simp] theorem putMem_pwrAlert (s : State) (m : Memory) : (s.putMem m).pwrAlert = s.pwrAlert := rfl
@[simp] theorem putMem_hot (s : State) (m : Memory) : (s.putMem m).hot = s.hot := rfl
@[simp] theorem putMem_palarm (s : State) (m : Memory) : (s.putMem m).palarm = s.palarm := rfl
@[simp] theorem putMem_calm (s : State) (m : Memory) : (s.putMem m).calm = s.calm := rfl
@[simp] theorem putMem_fuseKey (s : State) (m : Memory) : (s.putMem m).fuseKey = s.fuseKey := rfl
@[simp] theorem putMem_fuseMin (s : State) (m : Memory) : (s.putMem m).fuseMin = s.fuseMin := rfl
@[simp] theorem putMem_free (s : State) (m : Memory) : (s.putMem m).free = s.free := rfl
@[simp] theorem putMem_leadHeld (s : State) (m : Memory) : (s.putMem m).leadHeld = s.leadHeld := rfl
@[simp] theorem putMem_leadHolder (s : State) (m : Memory) : (s.putMem m).leadHolder = s.leadHolder := rfl
@[simp] theorem putMem_leadExp (s : State) (m : Memory) : (s.putMem m).leadExp = s.leadExp := rfl
@[simp] theorem putMem_sc (s : State) (m : Memory) (i : Nat) : (s.putMem m).sc i = s.sc i := rfl
@[simp] theorem putMem_co (s : State) (m : Memory) (i : Nat) : (s.putMem m).co i = s.co i := rfl
@[simp] theorem putMem_qd (s : State) (m : Memory) (i : Nat) : (s.putMem m).qd i = s.qd i := rfl
@[simp] theorem putMem_di (s : State) (m : Memory) (i : Nat) : (s.putMem m).di i = s.di i := rfl
@[simp] theorem putMem_cx (s : State) (m : Memory) (i : Nat) : (s.putMem m).cx i = s.cx i := rfl
@[simp] theorem putMem_tm (s : State) (m : Memory) (i : Nat) : (s.putMem m).tm i = s.tm i := rfl
@[simp] theorem putMem_ns (s : State) (m : Memory) : (s.putMem m).ns = s.ns := rfl
@[simp] theorem putMem_mem (s : State) (m : Memory) : (s.putMem m).mem = m := rfl

/-! ### The current agent -/

@[simp] theorem upSc_time (s : State) (f : Scalar → Scalar) : (s.upSc f).time = s.time := rfl
@[simp] theorem upSc_cur (s : State) (f : Scalar → Scalar) : (s.upSc f).cur = s.cur := rfl
@[simp] theorem upSc_curq (s : State) (f : Scalar → Scalar) : (s.upSc f).curq = s.curq := rfl
@[simp] theorem upSc_lim (s : State) (f : Scalar → Scalar) : (s.upSc f).lim = s.lim := rfl
@[simp] theorem upSc_arrival (s : State) (f : Scalar → Scalar) : (s.upSc f).arrival = s.arrival := rfl
@[simp] theorem upSc_sched (s : State) (f : Scalar → Scalar) : (s.upSc f).sched = s.sched := rfl
@[simp] theorem upSc_core (s : State) (f : Scalar → Scalar) : (s.upSc f).core = s.core := rfl
@[simp] theorem upSc_quad (s : State) (f : Scalar → Scalar) : (s.upSc f).quad = s.quad := rfl
@[simp] theorem upSc_die (s : State) (f : Scalar → Scalar) : (s.upSc f).die = s.die := rfl
@[simp] theorem upSc_mem (s : State) (f : Scalar → Scalar) : (s.upSc f).mem = s.mem := rfl
@[simp] theorem upSc_ecc (s : State) (f : Scalar → Scalar) : (s.upSc f).ecc = s.ecc := rfl
@[simp] theorem upSc_objs (s : State) (f : Scalar → Scalar) : (s.upSc f).objs = s.objs := rfl
@[simp] theorem upSc_team (s : State) (f : Scalar → Scalar) : (s.upSc f).team = s.team := rfl
@[simp] theorem upSc_ctxs (s : State) (f : Scalar → Scalar) : (s.upSc f).ctxs = s.ctxs := rfl
@[simp] theorem upSc_faults (s : State) (f : Scalar → Scalar) : (s.upSc f).faults = s.faults := rfl
@[simp] theorem upSc_tx (s : State) (f : Scalar → Scalar) : (s.upSc f).tx = s.tx := rfl
@[simp] theorem upSc_reads (s : State) (f : Scalar → Scalar) : (s.upSc f).reads = s.reads := rfl
@[simp] theorem upSc_conns (s : State) (f : Scalar → Scalar) : (s.upSc f).conns = s.conns := rfl
@[simp] theorem upSc_out (s : State) (f : Scalar → Scalar) : (s.upSc f).out = s.out := rfl
@[simp] theorem upSc_netBad (s : State) (f : Scalar → Scalar) : (s.upSc f).netBad = s.netBad := rfl
@[simp] theorem upSc_netAmb (s : State) (f : Scalar → Scalar) : (s.upSc f).netAmb = s.netAmb := rfl
@[simp] theorem upSc_fired (s : State) (f : Scalar → Scalar) : (s.upSc f).fired = s.fired := rfl
@[simp] theorem upSc_convIn (s : State) (f : Scalar → Scalar) : (s.upSc f).convIn = s.convIn := rfl
@[simp] theorem upSc_places (s : State) (f : Scalar → Scalar) : (s.upSc f).places = s.places := rfl
@[simp] theorem upSc_flags (s : State) (f : Scalar → Scalar) : (s.upSc f).flags = s.flags := rfl
@[simp] theorem upSc_acts (s : State) (f : Scalar → Scalar) : (s.upSc f).acts = s.acts := rfl
@[simp] theorem upSc_trees (s : State) (f : Scalar → Scalar) : (s.upSc f).trees = s.trees := rfl
@[simp] theorem upSc_slots (s : State) (f : Scalar → Scalar) : (s.upSc f).slots = s.slots := rfl
@[simp] theorem upSc_rx (s : State) (f : Scalar → Scalar) : (s.upSc f).rx = s.rx := rfl
@[simp] theorem upSc_rxId (s : State) (f : Scalar → Scalar) : (s.upSc f).rxId = s.rxId := rfl
@[simp] theorem upSc_incs (s : State) (f : Scalar → Scalar) : (s.upSc f).incs = s.incs := rfl
@[simp] theorem upSc_own (s : State) (f : Scalar → Scalar) : (s.upSc f).own = s.own := rfl
@[simp] theorem upSc_allots (s : State) (f : Scalar → Scalar) : (s.upSc f).allots = s.allots := rfl
@[simp] theorem upSc_turnCtx (s : State) (f : Scalar → Scalar) : (s.upSc f).turnCtx = s.turnCtx := rfl
@[simp] theorem upSc_pool (s : State) (f : Scalar → Scalar) : (s.upSc f).pool = s.pool := rfl
@[simp] theorem upSc_spills (s : State) (f : Scalar → Scalar) : (s.upSc f).spills = s.spills := rfl
@[simp] theorem upSc_vt (s : State) (f : Scalar → Scalar) : (s.upSc f).vt = s.vt := rfl
@[simp] theorem upSc_ran (s : State) (f : Scalar → Scalar) : (s.upSc f).ran = s.ran := rfl
@[simp] theorem upSc_ended (s : State) (f : Scalar → Scalar) : (s.upSc f).ended = s.ended := rfl
@[simp] theorem upSc_teamNo (s : State) (f : Scalar → Scalar) : (s.upSc f).teamNo = s.teamNo := rfl
@[simp] theorem upSc_opened (s : State) (f : Scalar → Scalar) : (s.upSc f).opened = s.opened := rfl
@[simp] theorem upSc_itins (s : State) (f : Scalar → Scalar) : (s.upSc f).itins = s.itins := rfl
@[simp] theorem upSc_convs (s : State) (f : Scalar → Scalar) : (s.upSc f).convs = s.convs := rfl
@[simp] theorem upSc_atc (s : State) (f : Scalar → Scalar) : (s.upSc f).atc = s.atc := rfl
@[simp] theorem upSc_hostReads (s : State) (f : Scalar → Scalar) : (s.upSc f).hostReads = s.hostReads := rfl
@[simp] theorem upSc_inval (s : State) (f : Scalar → Scalar) : (s.upSc f).inval = s.inval := rfl
@[simp] theorem upSc_invalDone (s : State) (f : Scalar → Scalar) : (s.upSc f).invalDone = s.invalDone := rfl
@[simp] theorem upSc_pasidCtx (s : State) (f : Scalar → Scalar) : (s.upSc f).pasidCtx = s.pasidCtx := rfl
@[simp] theorem upSc_msix (s : State) (f : Scalar → Scalar) : (s.upSc f).msix = s.msix := rfl
@[simp] theorem upSc_inReset (s : State) (f : Scalar → Scalar) : (s.upSc f).inReset = s.inReset := rfl
@[simp] theorem upSc_tripped (s : State) (f : Scalar → Scalar) : (s.upSc f).tripped = s.tripped := rfl
@[simp] theorem upSc_bootSrc (s : State) (f : Scalar → Scalar) : (s.upSc f).bootSrc = s.bootSrc := rfl
@[simp] theorem upSc_modId (s : State) (f : Scalar → Scalar) : (s.upSc f).modId = s.modId := rfl
@[simp] theorem upSc_ready (s : State) (f : Scalar → Scalar) : (s.upSc f).ready = s.ready := rfl
@[simp] theorem upSc_samples (s : State) (f : Scalar → Scalar) : (s.upSc f).samples = s.samples := rfl
@[simp] theorem upSc_pwrAlert (s : State) (f : Scalar → Scalar) : (s.upSc f).pwrAlert = s.pwrAlert := rfl
@[simp] theorem upSc_hot (s : State) (f : Scalar → Scalar) : (s.upSc f).hot = s.hot := rfl
@[simp] theorem upSc_palarm (s : State) (f : Scalar → Scalar) : (s.upSc f).palarm = s.palarm := rfl
@[simp] theorem upSc_calm (s : State) (f : Scalar → Scalar) : (s.upSc f).calm = s.calm := rfl
@[simp] theorem upSc_fuseKey (s : State) (f : Scalar → Scalar) : (s.upSc f).fuseKey = s.fuseKey := rfl
@[simp] theorem upSc_fuseMin (s : State) (f : Scalar → Scalar) : (s.upSc f).fuseMin = s.fuseMin := rfl
@[simp] theorem upSc_free (s : State) (f : Scalar → Scalar) : (s.upSc f).free = s.free := rfl
@[simp] theorem upSc_leadHeld (s : State) (f : Scalar → Scalar) : (s.upSc f).leadHeld = s.leadHeld := rfl
@[simp] theorem upSc_leadHolder (s : State) (f : Scalar → Scalar) : (s.upSc f).leadHolder = s.leadHolder := rfl
@[simp] theorem upSc_leadExp (s : State) (f : Scalar → Scalar) : (s.upSc f).leadExp = s.leadExp := rfl
@[simp] theorem upSc_co (s : State) (f : Scalar → Scalar) (i : Nat) : (s.upSc f).co i = s.co i := rfl
@[simp] theorem upSc_qd (s : State) (f : Scalar → Scalar) (i : Nat) : (s.upSc f).qd i = s.qd i := rfl
@[simp] theorem upSc_di (s : State) (f : Scalar → Scalar) (i : Nat) : (s.upSc f).di i = s.di i := rfl
@[simp] theorem upSc_cx (s : State) (f : Scalar → Scalar) (i : Nat) : (s.upSc f).cx i = s.cx i := rfl
@[simp] theorem upSc_tm (s : State) (f : Scalar → Scalar) (i : Nat) : (s.upSc f).tm i = s.tm i := rfl
@[simp] theorem upSc_ns (s : State) (f : Scalar → Scalar) : (s.upSc f).ns = s.ns := rfl
@[simp] theorem upSc_get (s : State) (f : Scalar → Scalar) (i : Nat) : (s.upSc f).sc i = if i = s.cur then f (s.sc s.cur) else s.sc i := by
  simp [State.upSc]

/-! ### A core -/

@[simp] theorem upCo_time (s : State) (p : Nat) (f : Core → Core) : (s.upCo p f).time = s.time := rfl
@[simp] theorem upCo_cur (s : State) (p : Nat) (f : Core → Core) : (s.upCo p f).cur = s.cur := rfl
@[simp] theorem upCo_curq (s : State) (p : Nat) (f : Core → Core) : (s.upCo p f).curq = s.curq := rfl
@[simp] theorem upCo_lim (s : State) (p : Nat) (f : Core → Core) : (s.upCo p f).lim = s.lim := rfl
@[simp] theorem upCo_arrival (s : State) (p : Nat) (f : Core → Core) : (s.upCo p f).arrival = s.arrival := rfl
@[simp] theorem upCo_sched (s : State) (p : Nat) (f : Core → Core) : (s.upCo p f).sched = s.sched := rfl
@[simp] theorem upCo_scal (s : State) (p : Nat) (f : Core → Core) : (s.upCo p f).scal = s.scal := rfl
@[simp] theorem upCo_quad (s : State) (p : Nat) (f : Core → Core) : (s.upCo p f).quad = s.quad := rfl
@[simp] theorem upCo_die (s : State) (p : Nat) (f : Core → Core) : (s.upCo p f).die = s.die := rfl
@[simp] theorem upCo_mem (s : State) (p : Nat) (f : Core → Core) : (s.upCo p f).mem = s.mem := rfl
@[simp] theorem upCo_ecc (s : State) (p : Nat) (f : Core → Core) : (s.upCo p f).ecc = s.ecc := rfl
@[simp] theorem upCo_objs (s : State) (p : Nat) (f : Core → Core) : (s.upCo p f).objs = s.objs := rfl
@[simp] theorem upCo_team (s : State) (p : Nat) (f : Core → Core) : (s.upCo p f).team = s.team := rfl
@[simp] theorem upCo_ctxs (s : State) (p : Nat) (f : Core → Core) : (s.upCo p f).ctxs = s.ctxs := rfl
@[simp] theorem upCo_faults (s : State) (p : Nat) (f : Core → Core) : (s.upCo p f).faults = s.faults := rfl
@[simp] theorem upCo_tx (s : State) (p : Nat) (f : Core → Core) : (s.upCo p f).tx = s.tx := rfl
@[simp] theorem upCo_reads (s : State) (p : Nat) (f : Core → Core) : (s.upCo p f).reads = s.reads := rfl
@[simp] theorem upCo_conns (s : State) (p : Nat) (f : Core → Core) : (s.upCo p f).conns = s.conns := rfl
@[simp] theorem upCo_out (s : State) (p : Nat) (f : Core → Core) : (s.upCo p f).out = s.out := rfl
@[simp] theorem upCo_netBad (s : State) (p : Nat) (f : Core → Core) : (s.upCo p f).netBad = s.netBad := rfl
@[simp] theorem upCo_netAmb (s : State) (p : Nat) (f : Core → Core) : (s.upCo p f).netAmb = s.netAmb := rfl
@[simp] theorem upCo_fired (s : State) (p : Nat) (f : Core → Core) : (s.upCo p f).fired = s.fired := rfl
@[simp] theorem upCo_convIn (s : State) (p : Nat) (f : Core → Core) : (s.upCo p f).convIn = s.convIn := rfl
@[simp] theorem upCo_places (s : State) (p : Nat) (f : Core → Core) : (s.upCo p f).places = s.places := rfl
@[simp] theorem upCo_flags (s : State) (p : Nat) (f : Core → Core) : (s.upCo p f).flags = s.flags := rfl
@[simp] theorem upCo_acts (s : State) (p : Nat) (f : Core → Core) : (s.upCo p f).acts = s.acts := rfl
@[simp] theorem upCo_trees (s : State) (p : Nat) (f : Core → Core) : (s.upCo p f).trees = s.trees := rfl
@[simp] theorem upCo_slots (s : State) (p : Nat) (f : Core → Core) : (s.upCo p f).slots = s.slots := rfl
@[simp] theorem upCo_rx (s : State) (p : Nat) (f : Core → Core) : (s.upCo p f).rx = s.rx := rfl
@[simp] theorem upCo_rxId (s : State) (p : Nat) (f : Core → Core) : (s.upCo p f).rxId = s.rxId := rfl
@[simp] theorem upCo_incs (s : State) (p : Nat) (f : Core → Core) : (s.upCo p f).incs = s.incs := rfl
@[simp] theorem upCo_own (s : State) (p : Nat) (f : Core → Core) : (s.upCo p f).own = s.own := rfl
@[simp] theorem upCo_allots (s : State) (p : Nat) (f : Core → Core) : (s.upCo p f).allots = s.allots := rfl
@[simp] theorem upCo_turnCtx (s : State) (p : Nat) (f : Core → Core) : (s.upCo p f).turnCtx = s.turnCtx := rfl
@[simp] theorem upCo_pool (s : State) (p : Nat) (f : Core → Core) : (s.upCo p f).pool = s.pool := rfl
@[simp] theorem upCo_spills (s : State) (p : Nat) (f : Core → Core) : (s.upCo p f).spills = s.spills := rfl
@[simp] theorem upCo_vt (s : State) (p : Nat) (f : Core → Core) : (s.upCo p f).vt = s.vt := rfl
@[simp] theorem upCo_ran (s : State) (p : Nat) (f : Core → Core) : (s.upCo p f).ran = s.ran := rfl
@[simp] theorem upCo_ended (s : State) (p : Nat) (f : Core → Core) : (s.upCo p f).ended = s.ended := rfl
@[simp] theorem upCo_teamNo (s : State) (p : Nat) (f : Core → Core) : (s.upCo p f).teamNo = s.teamNo := rfl
@[simp] theorem upCo_opened (s : State) (p : Nat) (f : Core → Core) : (s.upCo p f).opened = s.opened := rfl
@[simp] theorem upCo_itins (s : State) (p : Nat) (f : Core → Core) : (s.upCo p f).itins = s.itins := rfl
@[simp] theorem upCo_convs (s : State) (p : Nat) (f : Core → Core) : (s.upCo p f).convs = s.convs := rfl
@[simp] theorem upCo_atc (s : State) (p : Nat) (f : Core → Core) : (s.upCo p f).atc = s.atc := rfl
@[simp] theorem upCo_hostReads (s : State) (p : Nat) (f : Core → Core) : (s.upCo p f).hostReads = s.hostReads := rfl
@[simp] theorem upCo_inval (s : State) (p : Nat) (f : Core → Core) : (s.upCo p f).inval = s.inval := rfl
@[simp] theorem upCo_invalDone (s : State) (p : Nat) (f : Core → Core) : (s.upCo p f).invalDone = s.invalDone := rfl
@[simp] theorem upCo_pasidCtx (s : State) (p : Nat) (f : Core → Core) : (s.upCo p f).pasidCtx = s.pasidCtx := rfl
@[simp] theorem upCo_msix (s : State) (p : Nat) (f : Core → Core) : (s.upCo p f).msix = s.msix := rfl
@[simp] theorem upCo_inReset (s : State) (p : Nat) (f : Core → Core) : (s.upCo p f).inReset = s.inReset := rfl
@[simp] theorem upCo_tripped (s : State) (p : Nat) (f : Core → Core) : (s.upCo p f).tripped = s.tripped := rfl
@[simp] theorem upCo_bootSrc (s : State) (p : Nat) (f : Core → Core) : (s.upCo p f).bootSrc = s.bootSrc := rfl
@[simp] theorem upCo_modId (s : State) (p : Nat) (f : Core → Core) : (s.upCo p f).modId = s.modId := rfl
@[simp] theorem upCo_ready (s : State) (p : Nat) (f : Core → Core) : (s.upCo p f).ready = s.ready := rfl
@[simp] theorem upCo_samples (s : State) (p : Nat) (f : Core → Core) : (s.upCo p f).samples = s.samples := rfl
@[simp] theorem upCo_pwrAlert (s : State) (p : Nat) (f : Core → Core) : (s.upCo p f).pwrAlert = s.pwrAlert := rfl
@[simp] theorem upCo_hot (s : State) (p : Nat) (f : Core → Core) : (s.upCo p f).hot = s.hot := rfl
@[simp] theorem upCo_palarm (s : State) (p : Nat) (f : Core → Core) : (s.upCo p f).palarm = s.palarm := rfl
@[simp] theorem upCo_calm (s : State) (p : Nat) (f : Core → Core) : (s.upCo p f).calm = s.calm := rfl
@[simp] theorem upCo_fuseKey (s : State) (p : Nat) (f : Core → Core) : (s.upCo p f).fuseKey = s.fuseKey := rfl
@[simp] theorem upCo_fuseMin (s : State) (p : Nat) (f : Core → Core) : (s.upCo p f).fuseMin = s.fuseMin := rfl
@[simp] theorem upCo_free (s : State) (p : Nat) (f : Core → Core) : (s.upCo p f).free = s.free := rfl
@[simp] theorem upCo_leadHeld (s : State) (p : Nat) (f : Core → Core) : (s.upCo p f).leadHeld = s.leadHeld := rfl
@[simp] theorem upCo_leadHolder (s : State) (p : Nat) (f : Core → Core) : (s.upCo p f).leadHolder = s.leadHolder := rfl
@[simp] theorem upCo_leadExp (s : State) (p : Nat) (f : Core → Core) : (s.upCo p f).leadExp = s.leadExp := rfl
@[simp] theorem upCo_sc (s : State) (p : Nat) (f : Core → Core) (i : Nat) : (s.upCo p f).sc i = s.sc i := rfl
@[simp] theorem upCo_qd (s : State) (p : Nat) (f : Core → Core) (i : Nat) : (s.upCo p f).qd i = s.qd i := rfl
@[simp] theorem upCo_di (s : State) (p : Nat) (f : Core → Core) (i : Nat) : (s.upCo p f).di i = s.di i := rfl
@[simp] theorem upCo_cx (s : State) (p : Nat) (f : Core → Core) (i : Nat) : (s.upCo p f).cx i = s.cx i := rfl
@[simp] theorem upCo_tm (s : State) (p : Nat) (f : Core → Core) (i : Nat) : (s.upCo p f).tm i = s.tm i := rfl
@[simp] theorem upCo_ns (s : State) (p : Nat) (f : Core → Core) : (s.upCo p f).ns = s.ns := rfl
@[simp] theorem upCo_get (s : State) (p : Nat) (f : Core → Core) (i : Nat) : (s.upCo p f).co i = if i = p then f (s.co p) else s.co i := by
  simp [State.upCo]

end Sys2Proof.Machine
end

