-- ==== Sys2Proof/Laws/Ops.lean ====
section
/-! SUPPORT. What each shared operation of a scalar stream can do, said once: the checks before the effect, results, retirement and traps. -/
namespace Sys2Proof.Machine
open Safety

/-! ### Bits and registers -/

/-- A word with one bit given: that bit, and every other bit as it was. -/
theorem getLsbD_setBit {n : Nat} (w : BitVec n) (i j : Nat) (b : Bool) (hi : i < n) :
    (setBit w i b).getLsbD j = if j = i then b else w.getLsbD j := by
  unfold setBit
  by_cases hj : j < n
  · cases b <;> by_cases h : j = i <;> simp_all <;> omega
  · have h1 : j ≠ i := by omega
    rw [if_neg h1, BitVec.getLsbD_of_ge _ _ (by omega), BitVec.getLsbD_of_ge w _ (by omega)]

theorem reg_eq (x : Scalar) (r : BitVec 6) : x.reg r = if r = 0#6 then 0#64 else tget x.regs r.toNat 0#64 := rfl

/-- s0 reads zero (R33). -/
@[simp] theorem reg_zero (x : Scalar) : x.reg 0#6 = 0#64 := rfl

/-- p0 reads true (R33). -/
@[simp] theorem pred_zero (x : Scalar) : x.pred 0#5 = true := rfl

/-- A register that is written reads what was written, unless it is s0; every other register is as it was. -/
theorem reg_setReg (x : Scalar) (d r : BitVec 6) (v : Word) :
    (x.setReg d v).reg r = if r = 0#6 then 0#64 else if r = d then v else x.reg r := by
  unfold Scalar.setReg Scalar.reg
  by_cases hd : d = 0#6
  · subst hd; by_cases hr : r = 0#6 <;> simp [hr]
  · by_cases hr : r = 0#6
    · simp [hr]
    · simp [hd, hr, BitVec.toNat_inj]

/-- The same for a predicate. -/
theorem pred_setPred (x : Scalar) (d r : BitVec 5) (v : Bool) :
    (x.setPred d v).pred r = if r = 0#5 then true else if r = d then v else x.pred r := by
  unfold Scalar.setPred Scalar.pred
  by_cases hd : d = 0#5
  · subst hd; by_cases hr : r = 0#5 <;> simp [hr]
  · by_cases hr : r = 0#5
    · simp [hr]
    · simp only [hd, hr, if_false]
      rw [getLsbD_setBit _ _ _ _ (by omega)]
      simp [BitVec.toNat_inj]

@[simp] theorem pred_setReg (x : Scalar) (d : BitVec 6) (v : Word) (p : BitVec 5) : (x.setReg d v).pred p = x.pred p := by
  unfold Scalar.setReg; by_cases h : d = 0#6 <;> (simp only [h, if_true, if_false]; try rfl)

@[simp] theorem reg_setPred (x : Scalar) (p : BitVec 5) (v : Bool) (r : BitVec 6) : (x.setPred p v).reg r = x.reg r := by
  unfold Scalar.setPred; by_cases h : p = 0#5 <;> (simp only [h, if_true, if_false]; try rfl)

/-! ### Retirement -/

/-- What a retirement leaves. -/
theorem retire_eq (x : Scalar) : x.retire = { x with
    pc := x.retire.pc, run := .running, status := x.retire.status, lcount0 := x.retire.lcount0, lcount1 := x.retire.lcount1 } := by
  simp only [Scalar.retire, Scalar.retireTo, endOfBody, loopEnd0, loopEnd1]
  repeat' split
  all_goals simp_all
  all_goals grind

theorem loopEnd0_regs (x : Scalar) (rg : Tbl Word) (pr : BitVec 32) :
    loopEnd0 { x with regs := rg, preds := pr } = ((loopEnd0 x).1, { (loopEnd0 x).2 with regs := rg, preds := pr }) := by
  by_cases h : (x.status.getLsbD 0 && x.pc == x.lend0) = true <;> by_cases h2 : 1 < x.lcount0.toNat <;>
    simp only [loopEnd0, Scalar.la0, h, h2, if_true, if_false]
  all_goals rfl

theorem loopEnd1_regs (x : Scalar) (rg : Tbl Word) (pr : BitVec 32) :
    loopEnd1 { x with regs := rg, preds := pr } = ((loopEnd1 x).1, { (loopEnd1 x).2 with regs := rg, preds := pr }) := by
  by_cases h : (x.status.getLsbD 1 && x.pc == x.lend1) = true <;> by_cases h2 : 1 < x.lcount1.toNat <;>
    simp only [loopEnd1, Scalar.la1, h, h2, if_true, if_false]
  all_goals rfl

/-- A retirement depends only on the pc, STATUS and the loop registers. -/
theorem retire_regs (x : Scalar) (rg : Tbl Word) (pr : BitVec 32) :
    ({ x with regs := rg, preds := pr } : Scalar).retire = { x.retire with regs := rg, preds := pr } := by
  have h0 := loopEnd0_regs x rg pr
  have h1 := loopEnd1_regs x rg pr
  simp only [Scalar.retire, Scalar.retireTo, endOfBody, h0, h1]
  have hl : ({ x with regs := rg, preds := pr } : Scalar).lord = x.lord := rfl
  rw [hl]
  cases x.lord <;> simp only [Bool.false_eq_true, if_false, if_true]
  · rcases h : loopEnd0 x with ⟨_ | n, y⟩
    · simp only [loopEnd1_regs y rg pr]
    · rfl
  · rcases h : loopEnd1 x with ⟨_ | n, y⟩
    · simp only [loopEnd0_regs y rg pr]
    · rfl

/-- Retirement of a stream whose registers and predicates have just been given. -/
theorem moved_retire (x y : Scalar) (h : y = { x with regs := y.regs, preds := y.preds }) :
    restKept x y.retire ∧ movedOn x y.retire ∧ (∀ r, y.retire.reg r = y.reg r) ∧ ∀ p, y.retire.pred p = y.pred p := by
  have e : y.retire = { x.retire with regs := y.regs, preds := y.preds } := by rw [← retire_regs x y.regs y.preds, ← h]
  have e2 := retire_eq x
  refine ⟨?_, ?_, ?_, ?_⟩
  · unfold restKept; rw [e]; rw [e2]
  · rw [e]; exact ⟨rfl, rfl, rfl, rfl, rfl⟩
  · intro r; rw [e]; rfl
  · intro r; rw [e]; rfl

/-! ### The current agent's stream -/

@[simp] theorem stream_eq (s : State) : stream s = s.sc s.cur := rfl

/-- A change of the current agent's stream changes nothing else. -/
theorem onlyStream_upSc (s : State) (f : Scalar → Scalar) : onlyStream s (s.upSc f) := by
  refine ⟨rfl, fun a ha => ?_⟩
  simp [State.upSc, ha]

theorem stream_upSc (s : State) (f : Scalar → Scalar) : stream (s.upSc f) = f (stream s) := by
  simp [State.upSc, stream]

theorem upSc_upSc (s : State) (f h : Scalar → Scalar) : stream ((s.upSc f).upSc h) = h (f (stream s)) := by
  rw [stream_upSc, stream_upSc]

theorem onlyStream_trans {s t u : State} (h1 : onlyStream s t) (h2 : onlyStream t u) : onlyStream s u := by
  obtain ⟨e1, k1⟩ := h1; obtain ⟨e2, k2⟩ := h2
  have hc : t.cur = s.cur := by rw [e1]
  refine ⟨?_, fun a ha => ?_⟩
  · rw [e2, e1]
  · rw [k2 a (by rw [hc]; exact ha), k1 a ha]

/-! ### The checks before the effect -/

theorem srcsReady_full (x : Scalar) (srcs : List Src) (h : ∀ a ∈ srcs, x.isEmpty a.r = false) : srcsReady x srcs = .full := by
  induction srcs with
  | nil => rfl
  | cons a as ih => simp [srcsReady, h a, ih fun b hb => h b (List.mem_cons_of_mem _ hb)]

/-- An instruction that acts has its effect. -/
theorem issue_acts {s : State} {cls : Nat} {g : Guard} {srcs : List Src} {dst : Option (BitVec 6)} (body : State → State)
    (h : acts s cls g srcs dst.toList) : issue cls g srcs dst s body = .next (body s) := by
  obtain ⟨h1, h2, h3, h4⟩ := h
  have hc : s.hasClass cls = true := by unfold State.hasClass; split <;> simp_all
  have hg : s.guardOk g = true := by simpa [State.guardOk] using h2
  have hd : dst.any (s.sc s.cur).isEmpty = false := by cases dst <;> simp_all
  simp [issue, hc, hg, show srcsReady (s.sc s.cur) srcs = .full from srcsReady_full _ _ h3, hd]

/-- An instruction whose guard fails retires with no other effect (R32). -/
theorem issue_guard {s : State} {cls : Nat} {g : Guard} (srcs : List Src) (dst : Option (BitVec 6)) (body : State → State)
    (hc : s.hasClass cls = true) (hg : s.guardOk g = false) : issue cls g srcs dst s body = .next s.retire := by
  simp [issue, hc, hg]

/-! ### Results -/

/-- What a result leaves. -/
theorem result_spec (s : State) (d : BitVec 6) (v : Word) : result s d v (s.result d v) := by
  have hs : stream (s.result d v) = ((stream s).setReg d v).retire := upSc_upSc s _ _
  have hy : (stream s).setReg d v = { stream s with regs := ((stream s).setReg d v).regs, preds := ((stream s).setReg d v).preds } := by
    unfold Scalar.setReg; split <;> rfl
  obtain ⟨m1, m2, m3, m4⟩ := moved_retire _ _ hy
  refine ⟨onlyStream_trans (onlyStream_upSc s _) (onlyStream_upSc _ _), ?_, rfl, ?_, ?_, ?_, ?_⟩
  · intro h; rw [hs, m3, reg_setReg]; simp [h]
  · intro r hr; rw [hs, m3, reg_setReg]
    by_cases h0 : r = 0#6
    · subst h0; simp
    · simp at hr; simp [h0, hr]
  · intro p _; rw [hs, m4, pred_setReg]
  · rw [hs]; exact m1
  · rw [hs]; exact m2

/-- What a predicate result leaves. -/
theorem resultP_spec (s : State) (p : BitVec 5) (v : Bool) : resultP s p (v = true) (s.resultP p v) := by
  have hs : stream (s.resultP p v) = ((stream s).setPred p v).retire := upSc_upSc s _ _
  have hy : (stream s).setPred p v = { stream s with regs := ((stream s).setPred p v).regs, preds := ((stream s).setPred p v).preds } := by
    unfold Scalar.setPred; split <;> rfl
  obtain ⟨m1, m2, m3, m4⟩ := moved_retire _ _ hy
  refine ⟨onlyStream_trans (onlyStream_upSc s _) (onlyStream_upSc _ _), ?_, rfl, ?_, ?_, ?_, ?_⟩
  · intro h; rw [hs, m4, pred_setPred]; simp [h]
  · intro r _; rw [hs, m3, reg_setPred]
  · intro q hq; rw [hs, m4, pred_setPred]
    by_cases h0 : q = 0#5
    · subst h0; simp
    · simp at hq; simp [h0, hq]
  · rw [hs]; exact m1
  · rw [hs]; exact m2

/-- What a retirement alone leaves. -/
theorem passes_retire (s : State) : passes s s.retire := by
  have hs : stream s.retire = (stream s).retire := stream_upSc s _
  obtain ⟨m1, m2, m3, m4⟩ := moved_retire (stream s) (stream s) rfl
  exact ⟨onlyStream_upSc s _, fun r _ => by rw [hs, m3], fun p _ => by rw [hs, m4], by rw [hs]; exact m1, by rw [hs]; exact m2⟩

/-- A result that an instruction gives when it acts. -/
theorem completes_result {i : Instr} {s : State} {cls : Nat} {g : Guard} {srcs : List Src} {d : BitVec 6} {f : State → Word}
    (e : exec i s = issue cls g srcs (some d) s fun s => s.result d (f s)) (h : acts s cls g srcs [d]) :
    completes i s (result s d (f s)) :=
  ⟨_, e.trans (issue_acts _ h), result_spec s d (f s)⟩

/-- A predicate result that an instruction gives when it acts. -/
theorem completes_resultP {i : Instr} {s : State} {cls : Nat} {g : Guard} {srcs : List Src} {p : BitVec 5} {f : State → Bool}
    (e : exec i s = issue cls g srcs none s fun s => s.resultP p (f s)) (h : acts s cls g srcs []) :
    completes i s (resultP s p (f s = true)) :=
  ⟨_, e.trans (issue_acts (dst := none) _ h), resultP_spec s p (f s)⟩

/-! ### Traps -/

/-- A precise trap that can be taken enters the handler (R20, R85). -/
theorem trapped_trap (s : State) (code detail : Nat) (tval : Word) (hc : code ≠ 2) (h : canTrap s) :
    trapped s code detail tval (s.trap code detail tval) := by
  obtain ⟨h1, h2⟩ := h
  have e : s.trap code detail tval = s.upSc fun x => x.trapEntry code detail tval := by
    simp only [stream] at h1 h2
    simp [State.trap, h1, h2, hc, State.upSc]
  rw [e]
  refine ⟨onlyStream_upSc s _, ?_, ?_⟩
  · rw [stream_upSc]; simp [Scalar.trapEntry, Nat.mul_comm, Nat.add_comm]
  · intro i hi
    rw [stream_upSc]
    simp only [Scalar.trapEntry]
    rw [getLsbD_setBit _ _ _ _ (by omega), getLsbD_setBit _ _ _ _ (by omega), getLsbD_setBit _ _ _ _ (by omega)]
    by_cases h7 : i = 7
    · subst h7; simp
    · by_cases hi0 : i = 0
      · subst hi0; simp
      · by_cases hi1 : i = 1
        · subst hi1; simp
        · have : ¬ i < 2 := by omega
          simp [h7, hi0, hi1, this]

end Sys2Proof.Machine
end

