-- ==== Sys2Proof/Tests/Slice0.lean ====
section
/-! SUPPORT. Tests: what WellFormed refuses, words written out from the spec, single steps, and for each statement a state and operands that meet its
hypotheses. -/
namespace Sys2Proof.Tests
set_option Elab.async false
open Machine Safety

/-! ### Small states -/

/-- Core 0 runs a task of context 0 at address 0. -/
def core0 : State := State.reset.runCore0
/-- With a trap vector. -/
def coreT : State := core0.upSc fun x => { x with tvec := 0x100 }
/-- With a register given. -/
def withReg (s : State) (r : BitVec 6) (v : Word) : State := s.upSc fun x => x.setReg r v
/-- The guard that every instruction without one has. -/
def g0 : Guard := ⟨0, false⟩
/-- A source whose empty-policy bit is clear. -/
def rs (r : BitVec 6) : Src := ⟨r, false⟩

/-- Thread 0 runs, in context 3. -/
def thread0 : State :=
  let s := { State.reset with cur := 4096 }
  s.upSc fun x => { x with run := .running, ctx := 3, tvec := 0x100 }

/-- A team of one on core 0. -/
def team0 : Team :=
  { ctx := 0, die := 0, queue := 0, item := 0, kdesc := 0, size := 1, cores := [0], mask := 1, resen := false, caravan := none, cidx := 0, cteams := 1,
    done := 0, arrived := [], ssnum := 0, yield := none, yieldTo := none, suspended := none, saving := none, refit := false, slots := [], kept := [], ended := false }
/-- Core 0's task belongs to team 5. -/
def inTeam (s : State) (x : Team) : State := (s.upCo 0 fun y => { y with task := some ⟨5, 0⟩ }).putTm 5 x

/-! ### Hypotheses that can be met: scalar instructions -/

theorem test_hyp_scalar : acts core0 0 g0 [rs 1, rs 2] [3] ∧ acts core0 1 g0 [rs 1, rs 2] [3] ∧ acts core0 4 g0 [rs 1, rs 2] [3] ∧
    acts core0 3 g0 [rs 1] [3] ∧ acts core0 0 g0 [rs 1] [3] ∧ acts core0 0 g0 [] [3] ∧ acts core0 0 g0 [rs 1, rs 2] [] ∧ acts core0 0 g0 [rs 1] [] ∧
    acts core0 0 g0 [] [] ∧ (63 : BitVec 6).toNat + ((0 : BitVec 6).toNat + 1) ≤ 64 ∧ (0 : BitVec 6).toNat + ((63 : BitVec 6).toNat + 1) ≤ 64 ∧
    (2#2 : BitVec 2) ≠ 3#2 := by
  unfold acts; and_intros <;> decide +kernel

theorem test_hyp_division : (acts (withReg core0 2 3) 2 g0 [rs 1, rs 2] [3] ∧ (withReg core0 2 3).rd (rs 2) ≠ 0#64) ∧
    acts coreT 2 g0 [rs 1, rs 2] [3] ∧ coreT.rd (rs 2) = 0#64 ∧ canTrap coreT := by
  unfold acts canTrap; and_intros <;> decide +kernel

/-- A loop of core 0 that ends at its pc with n passes counted. -/
def loop0 (n : Word) : State := core0.upSc fun x => { x with status := 1, lcount0 := n }

theorem test_hyp_endOfBody : (acts (loop0 2) 0 g0 [] [] ∧ returns (stream (loop0 2)) false) ∧
    (acts (loop0 1) 0 g0 [] [] ∧ fallsThrough (stream (loop0 1)) false) ∧ (acts (loop0 0) 0 g0 [] [] ∧ fallsThrough (stream (loop0 0)) false) ∧
    (acts core0 0 g0 [] [] ∧ ∀ n, ¬returns (stream core0) n ∧ ¬fallsThrough (stream core0) n) := by
  unfold acts returns fallsThrough ends; and_intros <;> decide +kernel

theorem test_hyp_transfers : acts core0 0 g0 [] [] ∧ acts core0 0 g0 [] [63#6] ∧ (acts (withReg core0 5 64) 0 g0 [rs 5] [63#6] ∧
    ((withReg core0 5 64).rd (rs 5)).toNat % 8 = 0) ∧ (acts (withReg coreT 5 7) 0 g0 [rs 5] [63#6] ∧
    ((withReg coreT 5 7).rd (rs 5)).toNat % 8 ≠ 0 ∧ canTrap (withReg coreT 5 7)) := by
  unfold acts canTrap; and_intros <;> decide +kernel

theorem test_hyp_loopSetup :
    (∃ a : Src, Instr.loop g0 1 (rs 5) 3 = .loop g0 1 a 3 ∧ (7 : Word) = (withReg core0 5 7).rd a ∧ acts (withReg core0 5 7) 0 g0 [a] []) ∧
    ∃ c : BitVec 12, Instr.loopi g0 0 0 3 = .loopi g0 0 c 3 ∧ (0 : Word) = c.setWidth 64 ∧ acts core0 0 g0 [] [] := by
  refine ⟨⟨rs 5, rfl, ?_⟩, ⟨0, rfl, ?_⟩⟩ <;> unfold acts <;> decide +kernel

theorem test_hyp_loopClear : acts core0 0 g0 [] [] ∧ (0x3280_0000_0000_0001 : Word).extractLsb' 54 10 = 0x0CA#10 ∧
    (0x3280_0000_0000_0001 : Word).extractLsb' 0 42 ≠ 0 := by
  unfold acts; and_intros <;> decide +kernel

theorem test_hyp_failedGuard : guardOf (.add ⟨1, false⟩ 3 (rs 1) (rs 2)) = some ⟨1, false⟩ ∧ classOf (.add ⟨1, false⟩ 3 (rs 1) (rs 2)) = some 0 ∧
    allowedOn (.add ⟨1, false⟩ 3 (rs 1) (rs 2)) core0 ∧ core0.hasClass 0 = true ∧ (stream core0).pred 1 = false := by
  refine ⟨by decide, by decide, ?_, by decide +kernel, by decide +kernel⟩
  simp [allowedOn, coreOnly, threadOnly, privileged, encodeFields, baseFields]

/-- Core 0 with class 1 fenced, alone and in a team. -/
def fenced : State := coreT.upCo 0 fun x => { x with capmask := 0xFFFD }
theorem test_hyp_fencedClass : classOf (.mul g0 3 (rs 1) (rs 2)) = some 1 ∧ guardOf (.mul g0 3 (rs 1) (rs 2)) = some g0 ∧
    (∀ s, allowedOn (.mul g0 3 (rs 1) (rs 2)) s) ∧ isCore fenced.cur = true ∧ (fenced.co fenced.cur).capmask.getLsbD 1 = false ∧ canTrap fenced ∧
    (stream fenced).run = .running ∧ (fenced.co fenced.cur).task = none ∧ canTrap (inTeam fenced team0) ∧
    ((inTeam fenced team0).co 0).capmask.getLsbD 1 = false ∧ ((inTeam fenced team0).co 0).task = some ⟨5, 0⟩ ∧
    (inTeam fenced team0).tm 5 = some team0 ∧ team0.caravan = none ∧ 0 ∈ team0.cores := by
  refine ⟨by decide, by decide, fun s => ?_, ?_⟩
  · simp [allowedOn, coreOnly, threadOnly, privileged, encodeFields, baseFields]
  · unfold canTrap; and_intros <;> decide +kernel

/-- s1 of core 0 is empty. -/
def empty1 : State := coreT.upSc fun x => x.markEmpty 1

theorem test_hyp_emptyOperands : (∀ tr, guardOf (.add g0 1 (rs 2) ⟨1, tr⟩) = some g0 ∧ classOf (.add g0 1 (rs 2) ⟨1, tr⟩) = some 0 ∧
      allowedOn (.add g0 1 (rs 2) ⟨1, tr⟩) empty1 ∧ srcsOf (.add g0 1 (rs 2) ⟨1, tr⟩) = [rs 2] ++ ⟨1, tr⟩ :: [] ∧ dstOf (.add g0 1 (rs 2) ⟨1, tr⟩) = 1) ∧
    empty1.hasClass 0 = true ∧ (stream empty1).pred g0.p ≠ g0.neg ∧ (∀ b ∈ [rs 2], (stream empty1).isEmpty b.r = false) ∧
    (stream empty1).isEmpty 1 = true ∧ canTrap empty1 := by
  refine ⟨fun tr => ⟨rfl, rfl, ?_, rfl, rfl⟩, ?_⟩
  · simp [allowedOn, coreOnly, threadOnly, privileged, encodeFields, baseFields]
  · unfold canTrap; and_intros <;> decide +kernel

theorem test_hyp_traps : acts coreT 0 g0 [] [] ∧ canTrap coreT ∧ isFw core0.cur = false ∧ (stream core0).tvec = 0#64 ∧
    (stream (coreT.upSc fun x => { x with status := 0x80 })).th = true ∧
    ¬((stream coreT).tstatus.getLsbD 0 = true ∧ (stream coreT).pc = (stream coreT).lend0) ∧
    ¬((stream coreT).tstatus.getLsbD 1 = true ∧ (stream coreT).pc = (stream coreT).lend1) := by
  unfold acts canTrap; and_intros <;> decide +kernel

theorem test_hyp_illegal : canTrap coreT ∧ (encodeScalar (.waita g0 1 (rs 2) 0)).isSome = true ∧ isCore coreT.cur = true ∧ canTrap thread0 ∧
    (encodeScalar (.tbar g0)).isSome = true ∧ coreOnly (.tbar g0) ∧ isCore thread0.cur = false ∧ (encodeScalar (.mleaseWrite g0 (rs 1))).isSome = true ∧
    privileged (.mleaseWrite g0 (rs 1)) ∧ (stream thread0).ctx ≠ 0#6 := by
  refine ⟨by unfold canTrap; decide +kernel, by decide, by decide +kernel, by unfold canTrap; decide +kernel, by decide, ⟨_, rfl, by decide⟩,
    by decide +kernel, by decide, ⟨_, rfl, by decide⟩, by decide +kernel⟩
/-! ### Memory -/

/-- s1 of core 0 holds an address. -/
def at1 (ea : Word) : State := withReg coreT 1 ea

theorem test_hyp_localAccess : acts (at1 0x3F_FFF8) 0 g0 [rs 1] [3] ∧ acts (at1 0x3F_FFF8) 0 g0 [rs 1, rs 2] [] ∧
    (at1 0x3F_FFF8).rd (rs 1) + (0 : BitVec 28).signExtend 64 = 0x3F_FFF8 ∧ (0x3F_FFF8 : Word).toNat % 8 = 0 ∧
    (0x3F_FFF8 : Word).toNat + 8 ≤ lsSize (at1 0x3F_FFF8).cur ∧ localBad (at1 0x3F_FFF8) 0x3F_FFF8 8 = false ∧ (at1 0x3F_FFF8).ecc = [] := by
  unfold acts; and_intros <;> decide +kernel

theorem test_hyp_accessTraps : acts (at1 0x3F_FFFA) 0 g0 [rs 1, rs 2] [3] ∧ canTrap (at1 0x3F_FFFA) ∧ (0x3F_FFFA : Word).toNat % 4 ≠ 0 ∧
    acts (at1 0x40_0000) 0 g0 [rs 1, rs 2] [3] ∧ canTrap (at1 0x40_0000) ∧ lsSize (at1 0x40_0000).cur < (0x40_0000 : Word).toNat + 1 := by
  unfold acts canTrap; and_intros <;> decide +kernel

theorem test_hyp_globalLoad : acts (at1 0x40) 0 g0 [rs 1] [3] ∧ badForm 0x40 = false ∧ isControl (0x40 % 2 ^ 56) = false ∧
    (stream (at1 0x40)).acquiring = false ∧ (stream (at1 0x40)).fetching (tagOf 0x40) = false ∧ slotsFull (at1 0x40) 0 = false := by
  unfold acts; and_intros <;> decide +kernel

/-- Core 0 waits for a load of 8 bytes at 0x40 to s3. -/
def filling (acq : Bool) (v : Option Word) : State :=
  coreT.upSc fun x => { x with empty := 8, fills := [{ reg := 3, ea := 0x40, w := 8, sext := false, acq := acq, val := v, verdict := false }] }

theorem test_hyp_globalFill : ((stream (filling false (some 7))).fills[0]?).map (fun f => (f.acq, f.verdict, f.val)) = some (false, false, some 7) ∧
    ((stream (filling false none)).fills[0]?).map (fun f => (f.acq, f.val, f.w)) = some (false, none, 8) ∧
    (stream (filling false none)).line (tagOf 0x40) = none ∧ (stream (filling false none)).wbPending (tagOf 0x40) = false ∧
    resolve (filling false none) 0 0 0x40 4 = .ok 0x40 ∧
    ((stream (filling true (some 7))).fills[0]?).map (fun f => (f.acq, f.verdict, f.val)) = some (true, false, some 7) ∧
    acqRegions (filling true (some 7)) 0 0x40 = none ∧ gateOpen (filling false none) 0 = true ∧ isDevice 0x40 = false ∧ lineUncorrectable (filling false none) 0x40 = false := by
  and_intros <;> decide +kernel

/-- An address in the control space of die 0. -/
def ctlEa : Word := 0x00FF_0000_0000_1008

theorem test_hyp_globalStore : acts (at1 0x40) 0 g0 [rs 1, rs 2] [] ∧ isControl (0x40 % 2 ^ 56) = false ∧ badForm ctlEa.toNat = false ∧
    acts (at1 ctlEa) 0 g0 [rs 1, rs 2] [] ∧ (stream (at1 ctlEa)).acquiring = false ∧ isControl (ctlEa.toNat % 2 ^ 56) = true ∧
    (homeWrite (at1 ctlEa) 0 0 ctlEa.toNat 8 5 0xFF 2).isOk = true := by
  unfold acts; and_intros <;> decide +kernel

/-- A write-back of the second byte of line 1 is on its way. -/
def writingBack : State := coreT.upSc fun x => { x with wb := [{ ctx := 0, tag := 1, data := 0x3412, mask := 2 }] }

theorem test_hyp_writeback : ((stream writingBack).wb[0]?).isSome = true ∧ resolve writingBack 0 0 (tagAddr 1 + firstByte 2 0 64) 2 = .ok 0x41 ∧
    isObjHome writingBack 0x40 = false ∧ gateOpen writingBack 0 = true ∧ isDevice 0x41 = false ∧ isDevice (0x41 - firstByte 2 0 64) = false ∧
    lineUncorrectable writingBack 0x40 = false := by
  and_intros <;> decide +kernel

theorem test_hyp_acquireLoad : acts (at1 0x40) 5 g0 [rs 1] [3] ∧ (stream (at1 0x40)).acquiring = false ∧
    ((stream (filling true none)).fills[0]?).map (fun f => (f.acq, f.val)) = some (true, none) ∧ resolve (filling true none) 0 0 0x40 4 = .ok 0x40 ∧ gateOpen (filling true none) 0 = true ∧
    acqRegions (noteRead (filling true none) 0x40) 0 0x40 = none ∧ acqRegions (filling true none) 0 0x40 = none := by
  unfold acts; and_intros <;> decide +kernel

/-! ### Queues, semaphores and waiting -/

/-- Core 0's queues have rings of 16 slots, n of them in use. -/
def rings (n : BitVec 32) : State :=
  let v : Queue := { Queue.reset with base := 0x100, count := 16, tail := n }
  coreT.upCo 0 fun x => { x with vq := v, mq := { v with base := 0x500 }, cq := { v with base := 0x900 } }
/-- A VMOV of v2 to v1 in eight words. -/
def movWords : List Word := [0x0040_0000_0000_0000, 0x0001_0001_0001_0001, 0, 0x0000_0001_2000_0000, 0, 0x0000_0002_2000_0000, 0, 0]
/-- s1 to s8 hold it. -/
def movRegs (s : State) : State := s.upSc fun x => { x with regs := (List.range 8).zipWith (fun i w => (i + 1, w)) movWords }
/-- Its 512 bits. -/
def movBits : BitVec 512 := 0x0000_0002_2000_0000_0000_0000_0000_0000_0000_0001_2000_0000_0000_0000_0000_0000_0001_0001_0001_0001_0040_0000_0000_0000

theorem test_hyp_push : (acts (movRegs (rings 0)) 5 g0 ((List.range 8).map fun k => { rs 1 with r := (rs 1).r + BitVec.ofNat 6 k }) [] ∧
      isCore (movRegs (rings 0)).cur = true ∧ (movRegs (rings 0)).ecc = []) ∧
    (∀ k, k < 8 → ∀ j, j < 64 → movBits.getLsbD (64 * k + j) = ((stream (movRegs (rings 0))).reg ((rs 1).r + BitVec.ofNat 6 k)).getLsbD j) ∧
    (ringOf (movRegs (rings 0)) 0).count ≠ 0 ∧ wordsBroken (judgeOf (movRegs (rings 0)) 0 0 false) movBits = 0 ∧
    (ringOf (movRegs (rings 0)) 0).fillLevel ≠ (ringOf (movRegs (rings 0)) 0).count.toNat ∧
    (ringOf (movRegs (rings 16)) 0).fillLevel = (ringOf (movRegs (rings 16)) 0).count.toNat := by
  unfold acts; and_intros <;> decide +kernel

theorem test_hyp_pushm : acts (withReg (rings 0) 1 0x3F_FFC0) 5 g0 [rs 1] [] ∧
    ((withReg (rings 0) 1 0x3F_FFC0).rd (rs 1) + (0 : BitVec 22).signExtend 64).toNat % 64 = 0 ∧
    ((withReg (rings 0) 1 0x3F_FFC0).rd (rs 1) + (0 : BitVec 22).signExtend 64).toNat ≤ 0x3F_FFC0 := by
  unfold acts; and_intros <;> decide +kernel

theorem test_hyp_pushRefuses : canTrap (rings 0) ∧ wordsBroken (judgeOf (rings 0) 0 0 false) 0 ≠ 0 ∧ (ringOf core0 0).count = 0 ∧
    (∀ k, k < 8 → ∀ j, j < 64 → (0 : BitVec 512).getLsbD (64 * k + j) = ((stream (rings 0)).reg ((rs 1).r + BitVec.ofNat 6 k)).getLsbD j) := by
  unfold canTrap; and_intros <;> decide +kernel

theorem test_hyp_rtail : acts (withReg (rings 3) 1 13) 5 g0 [rs 1] [] ∧ (ringOf (withReg (rings 3) 1 13) 0).fillLevel ≤ 16 ∧
    ((withReg (rings 3) 1 13).rd (rs 1)).toNat ≤ 16 - (ringOf (withReg (rings 3) 1 13) 0).fillLevel ∧ canTrap (withReg (rings 3) 1 14) ∧
    16 - (ringOf (withReg (rings 3) 1 14) 0).fillLevel < ((withReg (rings 3) 1 14).rd (rs 1)).toNat ∧
    16 < ((withReg (rings 3) 1 17).rd (rs 1)).toNat := by
  unfold acts canTrap; and_intros <;> decide +kernel

theorem test_hyp_qfence : acts (rings 15) 5 g0 [] [] ∧ (∀ j, j < 3 → (5#3).getLsbD j = true → (ringOf (rings 15) (BitVec.ofNat 2 j)).count ≠ 0) ∧
    (∀ j, j < 3 → (5#3).getLsbD j = true → (ringOf (rings 15) (BitVec.ofNat 2 j)).fillLevel ≠ (ringOf (rings 15) (BitVec.ofNat 2 j)).count.toNat) ∧
    (5#3).getLsbD 0 = true ∧ (ringOf (rings 16) 0).fillLevel = (ringOf (rings 16) 0).count.toNat := by
  unfold acts; and_intros <;> decide +kernel

/-- Semaphore 2 of core 0 has PEND p and DONE d, and the stream is in a run state. -/
def semState (p d : BitVec 32) (r : Run) : State := (coreT.upCo 0 fun x => x.setSem 2 ⟨p, d, false⟩).upSc fun x => { x with run := r }

theorem test_hyp_semaphores : isCore (semState 5 3 .running).cur = true ∧ acts (semState 5 3 .running) 5 g0 [rs 1] [3] ∧
    acts (semState 5 3 .running) 5 g0 [] [] ∧ 0 ≤ ((semOf (semState 5 3 .running) 2).done - (0 : BitVec 32)).toInt ∧
    ((semOf (semState 5 3 .running) 2).done - (4 : BitVec 32)).toInt < 0 ∧ (semOf (semState 5 3 .running) 2).err = false ∧
    ((semOf (semState 5 3 .running) 2).pend - (semOf (semState 5 3 .running) 2).done).toInt < (3 : BitVec 22).toNat ∧
    ((2 : BitVec 22).toNat : Int) ≤ ((semOf (semState 5 3 .running) 2).pend - (semOf (semState 5 3 .running) 2).done).toInt ∧
    (stream (semState 5 3 (.waiting (.sem 2 3)))).run = .waiting (.sem 2 3) ∧ (stream (semState 5 3 (.waiting (.waitb 2 3)))).run = .waiting (.waitb 2 3) := by
  unfold acts; and_intros <;> decide +kernel

/-- Thread 0 with a run state and a watch line, at addresses that its die maps. -/
def watching (r : Run) (w : Option (Nat × Bool)) : State :=
  let s := thread0.upSc fun x => { x with run := r, watch := w }
  s.putDi 8 { s.di 8 with tlb := [{ ctx := 3, unit := 0x4000, base := 0, rights := 7 }] }

/-- Every monitor is in use. -/
def crowded : State :=
  let s := watching .running none
  { s with scal := s.scal ++ (List.range 4096).map fun i => (10000 + i, { Scalar.reset with run := .waiting (.waita 1 0 false) }) }

theorem test_hyp_pause : acts core0 5 g0 [] [] ∧ (0 : BitVec 22) = 0#22 ∧ (0x3F_FFFF : BitVec 22) ≠ 0#22 ∧
    (stream (core0.upSc fun x => { x with run := .waiting (.pause 0) })).run = .waiting (.pause 0) ∧ 0 ≤ core0.time := by
  unfold acts; and_intros <;> decide +kernel

theorem test_hyp_waita : isCore (watching .running none).cur = false ∧ acts (withReg (watching .running none) 1 0x0800_0000_4000_0048) 5 g0 [rs 1] [] ∧
    (resolve (withReg (watching .running none) 1 0x0800_0000_4000_0048) 4096 3 0x0800_0000_4000_0048 4).toOption = some (physKey 8 0x48) ∧
    (stream (watching .running (some (physKey 8 0x40, true)))).watch = some (physKey 8 0x48 - physKey 8 0x48 % 64, true) ∧
    monitors (watching .running none) < 4096 ∧ 4096 ≤ monitors crowded ∧ (stream crowded).watch = none ∧
    (stream (watching (.waiting (.waita 1 (physKey 8 0x40) true)) none)).run = .waiting (.waita 1 (physKey 8 0x40) true) ∧
    (stream (watching (.waiting (.waita 1 (physKey 8 0x40) false)) none)).run = .waiting (.waita 1 (physKey 8 0x40) false) := by
  unfold acts; and_intros <;> decide +kernel
/-! ### Sync objects, barriers, messages and conversations -/

/-- Words of memory given, by key. -/
def withWords (s : State) (l : List (Nat × Nat)) : State := l.foldl (fun s e => s.put64 e.1 e.2) s
/-- Context 0 has a sync object at 0x40, whose address s1 of core 0 holds; its holders and requests. -/
def objState (h q : List (Nat × Bool)) : State :=
  { withWords (at1 0x40) [(cwinKey 0 0x1F00_0000, 2 ^ 63 + 0x40)] with objs := [(0x40, { ObjRun.reset with holders := h, queue := q })] }

/-- Task 7 holds the object shared, cores 0 and 1 ask for it, and there are requests. -/
def sharedAcq (q : List (Nat × Bool)) : State :=
  let s := (objState [(7, false)] q).upSc fun x => { x with run := .waiting (.acq 0x40 false) }
  s.putSc 1 { Scalar.reset with run := .waiting (.acq 0x40 false) }

theorem test_hyp_acquire : acts (objState [] []) 5 g0 [rs 1] [] ∧ ((objState [] []).rd (rs 1)).toNat % 64 = 0 ∧
    objEntry (objState [] []) 0 0x40 ≠ none ∧ resolve (objState [] []) 0 0 0x40 6 = .ok 0x40 ∧ holds (objState [] []) 0x40 = false ∧
    (objAt (objState [] [(0, true)]) 0x40).queue.head? = some (0, true) ∧ (objAt (objState [] [(0, true)]) 0x40).holders = [] ∧
    (stream ((objState [] [(0, true)]).upSc fun x => { x with run := .waiting (.acq 0x40 true) })).run = .waiting (.acq 0x40 true) ∧
    (∀ h ∈ (objAt (sharedAcq [(0, false), (1, false), (2, true)]) 0x40).holders, h.2 = false) ∧
    (objAt (sharedAcq [(0, false), (1, false), (2, true)]) 0x40).queue = (0, false) :: ([(1, false)] ++ [(2, true)]) ∧
    ((sharedAcq []).sc 0).run = .waiting (.acq 0x40 false) ∧ ((sharedAcq []).sc 1).run = .waiting (.acq 0x40 false) := by
  unfold acts; and_intros <;> decide +kernel

/-- A dirty line stands in core 0's cache. -/
def dirtyLine (s : State) : State := s.upSc fun x => { x with dc := [(0, [{ ctx := 0, tag := 0, data := 0, valid := 1, dirty := 1 }])] }

theorem test_hyp_release : acts (objState [(0, true)] []) 5 g0 [rs 1, rs 2] [] ∧ holds (objState [(0, true)] []) 0x40 = true ∧
    (stream (objState [(0, true)] [])).drained = true ∧ objRemote (objState [(0, true)] []) 0x40 = false ∧ (objAt (objState [(0, true)] []) 0x40).waits.lookup 0 = none ∧
    (stream (dirtyLine (objState [(0, true)] []))).drained = false ∧ holds (dirtyLine (objState [(0, true)] [])) 0x40 = true ∧
    canTrap (objState [(0, true)] []) ∧ canTrap (objState [] []) ∧ holds (objState [] []) 0x40 = false := by
  unfold acts canTrap; and_intros <;> decide +kernel

/-- Team 5's turn, its core at a barrier. -/
def atBarrier : State :=
  let s := (inTeam coreT { team0 with arrived := [(0, some .sstep)] }).upSc fun x => { x with run := .waiting (.barrier .sstep) }
  { s with cur := 5 }

theorem test_hyp_barriers : acts (inTeam coreT team0) 5 g0 [] [] ∧ isCore (inTeam coreT team0).cur = true ∧
    ((inTeam coreT team0).co 0).task = some ⟨5, 0⟩ ∧ (inTeam coreT team0).tm 5 = some team0 ∧
    arrivalReady (inTeam coreT team0) .sstep = true ∧ barrierMismatch (inTeam coreT team0) 5 .sstep = false ∧
    ((atBarrier.tm atBarrier.cur).map fun x => (x.caravan, roundKind x, teamArrived .sstep x)) = some (none, some .sstep, true) ∧
    (atBarrier.sc 0).run = .waiting (.barrier .sstep) := by
  unfold acts; and_intros <;> decide +kernel

/-- A descriptor of eight words at 0x40 of core 0's scratchpad, whose address s1 holds. -/
def descState (s : State) (l : List Nat) : State := withWords (withReg s 1 0x40) (l.zipIdx.map fun e => (spKey 0 (0x40 + 8 * e.2), e.1))
/-- Queue 0 is context 0's. -/
def queue0 (s : State) : State := withWords s [(queueKey 0 0, 2 ^ 63 + 1)]

theorem test_hyp_spawn : acts (queue0 (descState coreT [])) 6 g0 [rs 1] [3] ∧ descReadable (queue0 (descState coreT [])) 0x40 ∧
    (0 : BitVec 512).toNat = rdN (queue0 (descState coreT [])).mem (lsKey 0 0x40) 64 ∧
    firstBad (itemChecks (queue0 (descState coreT [])) 0 0) = none ∧ (stream (queue0 (descState coreT []))).drained = true ∧
    poolRoom (queue0 (descState coreT [])) 0 = true ∧ poolRoom { queue0 (descState coreT []) with spills := [0] } 0 = false ∧
    spillSize { queue0 (descState coreT []) with spills := [0] } 0 = 0 := by
  unfold acts descReadable; and_intros <;> decide +kernel

/-- Connection n of context 0 is valid in both modes, in a STATE. -/
def connIn (s : State) (n st : Nat) : State := withWords s [(connKey 0 n 0, 7 * 2 ^ 61), (connKey 0 n 6, st)]

theorem test_hyp_msend :
    (∀ w0 ∈ [1 + 0xF_FFFF * 2 ^ 44, 1 + 5 * 2 ^ 44], acts (descState coreT [w0]) 6 g0 [rs 1] [3] ∧ descReadable (descState coreT [w0]) 0x40 ∧
      firstBad (msgChecks (lsSize 0) [1, 2] (descWord (descState coreT [w0]) 0x40)) = none ∧ (stream (descState coreT [w0])).drained = true) ∧
    bitsOf (descWord (descState coreT [1 + 5 * 2 ^ 44]) 0x40 0) 63 44 = 5 ∧ connStatus (descState coreT [1 + 5 * 2 ^ 44]) 0 5 0 = 3 ∧
    connStatus (connIn (descState coreT [1 + 5 * 2 ^ 44]) 5 2) 0 5 0 = 1 ∧ connStatus (connIn (descState coreT [1 + 5 * 2 ^ 44]) 5 1) 0 5 0 = 0 ∧
    connState (connIn (descState coreT [1 + 5 * 2 ^ 44]) 5 1) 0 5 ≠ 0 := by
  unfold acts descReadable; and_intros <;> decide +kernel

/-- Conversation 3 of context 0, LIFE l, whose role 2 is held by queue 0, where core 0's team comes from; a descriptor at 0x40. -/
def convState (life : Nat) (desc : List Nat) : State :=
  let s := inTeam (queue0 (descState coreT desc)) team0
  { withWords s [(convKey 3 0, life * 2 ^ 60), (convKey 3 6, 2 ^ 63)] with allots := [⟨0, .conversation, 0, 16⟩] }
/-- Words 0 to 4 of a descriptor: a send, a claim with an inbox of 128 bytes, a delegation to queue 0, of role 2 of conversation 3. -/
def sendDesc : List Nat := [3, 0, 0, 0, 3 + 2 * 2 ^ 24]
def claimDesc : List Nat := [4, 0, 0x1000, 128, 3 + 2 * 2 ^ 24]
def delegDesc : List Nat := [5, 0, 0, 0, 3 + 2 * 2 ^ 24]

theorem test_hyp_conversations : acts (convState 1 sendDesc) 6 g0 [rs 1, rs 2] [3] ∧ descReadable (convState 1 sendDesc) 0x40 ∧
    (stream (convState 1 sendDesc)).drained = true ∧ descConv (descWord (convState 1 sendDesc) 0x40) = 3 ∧
    allotted (convState 1 sendDesc) 0 .conversation 3 = true ∧ sendPending (convState 1 sendDesc) 3 = false ∧ convProxy (convState 1 sendDesc) 3 = false ∧
    firstBad (msgChecks (lsSize 0) [3] (descWord (convState 1 sendDesc) 0x40)) = none ∧
    ((convState 1 delegDesc).rd (rs 2)).toNat < 4 ∧ firstBad (delegChecks (convState 1 delegDesc) (descWord (convState 1 delegDesc) 0x40)) = none ∧
    convLife (convState 1 delegDesc) 3 ≠ 3 ∧
    tget (stream ((convState 1 delegDesc).upSc fun x => { x with roles := [(0, roleReg 2 3)] })).roles 0 0 = roleReg 2 3 := by
  unfold acts descReadable; and_intros <;> decide +kernel

theorem test_hyp_roleClaims : acts (convState 1 claimDesc) 6 g0 [rs 1, rs 2] [3] ∧ descReadable (convState 1 claimDesc) 0x40 ∧
    firstBad (claimChecks (lsSize 0) (descWord (convState 1 claimDesc) 0x40)) = none ∧ descRole (descWord (convState 1 claimDesc) 0x40) = 2 ∧
    (tget (stream (convState 1 claimDesc)).roles 0 0).getLsbD 63 = false ∧ convCtx (convState 1 claimDesc) 3 = 0 ∧
    convLife (convState 0 claimDesc) 3 = 0 ∧ convLife (convState 1 claimDesc) 3 = 1 ∧ convLife (convState 2 claimDesc) 3 = 2 ∧
    convLife (convState 3 claimDesc) 3 = 3 ∧ mayClaim (convState 1 claimDesc) 3 2 = true ∧ mayClaim (convState 1 claimDesc) 3 1 = false ∧
    (convState 1 claimDesc).places = [] := by
  unfold acts descReadable; and_intros <;> decide +kernel

/-- Core 0's send of a kind in role 2 awaits its verdict; state 0 of the conversation has one transition, of kind 9, from role 2 to role 4. -/
def judged (kind : Nat) : State :=
  let s := (convState 1 []).upSc fun x => { x with run := .waiting .verdict }
  { s with cur := 3, convs := [(3, ⟨[[2 ^ 31 + 2 * 2 ^ 24 + 4 * 2 ^ 20 + 9 * 2 ^ 12]], []⟩)],
           convIn := [{ agent := some 0, later := false, reg := 0, slot := 0, ms := none, ctx := 0, conn := 0, pkt := convPacket 3 3 (reqTag 2 kind 0 true) 0 0 }] }

theorem test_hyp_verdicts : (∀ k ∈ [8, 9], (firstItem (judged k) 3 0 (judged k).convIn).map (fun e => (e.1, e.2.agent, e.2.pkt.op, e.2.later)) =
      some (0, some 0, 3, false) ∧ ((judged k).sc 0).run = .waiting .verdict ∧ unusable (judged k) ((judged k).sc 0).ctx.toNat 3 2 = none ∧
      reqBound (convPacket 3 3 (reqTag 2 k 0 true) 0 0) = true) ∧
    (stateRow (convRun (judged 9) 3) (convCur (judged 9) 3)).find? (fun t => trSnd t == 2 && trKind t == 9) = some (2 ^ 31 + 2 * 2 ^ 24 + 4 * 2 ^ 20 + 9 * 2 ^ 12) ∧
    roleRm (roleWord (judged 9) 3 4) = false ∧
    (stateRow (convRun (judged 8) 3) (convCur (judged 8) 3)).find? (fun t => trSnd t == 2 && trKind t == 8) = none ∧
    ((judged 8).sc 0).th = false ∧ ((judged 8).sc 0).tvec ≠ 0#64 := by
  and_intros <;> decide +kernel

/-- Role 2 of conversation 3 is bound by core 0's task, and a message for it is held. -/
def placing : State :=
  { convState 1 [] with cur := 3, convs := [(3, ⟨[], [⟨2, 5 * 256, 0, 0x1000, 128, 4⟩]⟩)], places := [⟨3, 2, 7, 0, 0, false⟩] }

theorem test_hyp_placement : placing.places = [⟨3, 2, 7, 0, 0, false⟩] ∧ bindOf placing 3 2 = some ⟨2, 5 * 256, 0, 0x1000, 128, 4⟩ ∧
    taskAgent placing (5 * 256) = some 0 ∧ firstItem placing 3 0 placing.convIn = none ∧ convLife placing 3 = 1 ∧ convProxy placing 3 = false ∧
    failedRole placing 3 = none ∧ failedRole (connIn (withWords placing [(convKey 3 7, 3 * 2 ^ 62 + 5 * 2 ^ 32)]) 5 2) 3 = some 3 ∧
    convLife { convState 0 [] with cur := 3 } 3 = 0 := by
  and_intros <;> decide +kernel
/-! ### Control registers, DONE, PROBE, PHINT, PHASE, SHOOT -/

/-- The firmware core of die 0 runs; core 0 has a mask, and s1 a value. -/
def fw0 (v : Word) : State :=
  let s := ({ State.reset with cur := 8192 }.upSc fun x => { x with run := .running, tvec := 0x100 }).upCo 0 fun x => { x with capmask := 1 }
  withReg s 1 v

theorem test_hyp_controlRegisters : acts core0 0 g0 [] [3] ∧ isCore core0.cur = true ∧ acts core0 0 g0 [rs 1] [] ∧ (stream core0).ctx = 0#6 := by
  unfold acts; and_intros <;> decide +kernel

theorem test_hyp_ringWrites : acts (withReg (rings 0) 1 0x3F_FC00) 0 g0 [rs 1] [] ∧ (ringOf (rings 0) 0).head = (ringOf (rings 0) 0).tail ∧
    (ringOf (rings 0) 0).flight = [] ∧ 0x3F_FC00 % 64 = 0 ∧ 0x3F_FC00 + 64 * (ringOf (rings 0) 0).count.toNat ≤ 0x40_0000 ∧
    (ringOf (rings 0) 0).base.toNat + 64 * 4096 ≤ 0x40_0000 ∧ (ringOf (rings 1) 0).head ≠ (ringOf (rings 1) 0).tail ∧ canTrap (rings 1) ∧
    (stream (withReg core0 1 64)).ctx = 0#6 ∧ ((withReg core0 1 64).rd (rs 1)).toNat ≤ 64 ∧ (ringOf (rings 0) 0).count ≠ 0 := by
  unfold acts canTrap; and_intros <;> decide +kernel

theorem test_hyp_firmwareWrites : acts (fw0 0xFFFF) 0 g0 [rs 1] [] ∧ (fw0 0).cur = 8192 + 0 ∧ (stream (fw0 0)).ctx = 0#6 ∧
    ((fw0 0xFFFF).rd (rs 1)).toNat < 2 ^ 48 ∧ mapped (fw0 0xFFFF) (selCore (fw0 0xFFFF) 0) = false ∧
    (fw0 (BitVec.ofNat 64 (2 ^ 63))).rd (rs 1) = BitVec.ofNat 64 (2 ^ 63 + 0) ∧ lcmCore (fw0 0) 0 ((fw0 0).di 0).lcmidx.toNat = none ∧
    ((fw0 0).co (diePhys 0 0)).svc = .spare ∧ ((fw0 0).co (diePhys 0 0)).zeroing = false ∧ ((fw0 0).co (diePhys 0 0)).capmask.getLsbD 0 = true ∧
    (fw0 (BitVec.ofNat 64 (8 * 2 ^ 56 + 15 * 2 ^ 48))).rd (rs 1) = BitVec.ofNat 64 (8 * 2 ^ 56 + 15 * 2 ^ 48) ∧
    leadFree (fw0 (BitVec.ofNat 64 (8 * 2 ^ 56 + 15 * 2 ^ 48))) 15 = true ∧ leadFree (fw0 (BitVec.ofNat 64 (8 * 2 ^ 56))) 0 = false := by
  unfold acts; and_intros <;> decide +kernel

/-- s1 and s2 of core 0 hold an address and a length. -/
def probing (ea n : Word) : State := withReg (at1 ea) 2 n

theorem test_hyp_probe : acts (probing 0x40 0) 0 g0 [] [] ∧ acts (probing 0x40 0) 0 g0 [rs 1, rs 2] [] ∧ (probing 0x40 0).rd (rs 2) = 0#64 ∧
    badForm 0x0800_0000_1800_0000 = false ∧
    (0x0800_0000_1800_0000 + 8 - 1) % 2 ^ 64 / 2 ^ 56 = 0x0800_0000_1800_0000 / 2 ^ 56 ∧
    (0x0800_0000_1800_0000 + 8 - 1) / 65536 = 0x0800_0000_1800_0000 / 65536 ∧
    unitMapped (probing 0x0800_0000_1800_0000 8) 0 (0x0800_0000_1800_0000 / 65536 * 65536) = true ∧
    badForm 0x0900_0000_0000_0000 = true ∧ canTrap (probing 0x0900_0000_0000_0000 8) ∧ badForm 0x00FF_FFFF_FFFF_FFFF = false ∧
    (0x00FF_FFFF_FFFF_FFFF + 2 - 1) % 2 ^ 64 / 2 ^ 56 ≠ 0x00FF_FFFF_FFFF_FFFF / 2 ^ 56 := by
  unfold acts canTrap; and_intros <;> decide +kernel

theorem test_hyp_phint : acts (at1 0x3F_FF80) 0 g0 [rs 1] [] ∧ ((at1 0x3F_FF80).rd (rs 1) + (0 : BitVec 28).signExtend 64).toNat ≤ 0x3F_FF80 ∧
    yieldPending (at1 0x3F_FF80) = false ∧ yieldPending (inTeam (at1 0x3F_FF80) { team0 with yield := some 0 }) = true := by
  unfold acts; and_intros <;> decide +kernel

/-- Core 0, of a team of two, waits for its drain. -/
def ending : State := (inTeam coreT { team0 with size := 2, cores := [0, 1] }).upSc fun x => { x with run := .waiting .drain }

theorem test_hyp_taskEnd : isCore ending.cur = true ∧ (stream ending).run = .waiting .drain ∧ fillsDone ending = true ∧ (stream ending).drained = true ∧
    releaseWaits ending (taskId ending 0) 0 = false ∧ (ending.co 0).task = some ⟨5, 0⟩ ∧ (ending.tm 5).map (fun x => (x.size, x.done)) = some (2, 0) ∧
    heldBy ending (taskId ending 0) = [] ∧ ending.convs = [] := by
  and_intros <;> decide +kernel

/-- Core 0 has an answer to its request for a unit; context 0 has a handler of page requests. -/
def paged (u last : Nat) (yes : Bool) (n : Nat) : State :=
  (withWords coreT [(cwinKey 0 0x1800_0020, 0x100)]).upSc fun x => { x with run := .waiting (.page u last), answer := some yes, probes := n }
/-- A unit of the context's own table space, which is mapped, and one that is not. -/
def mappedUnit : Nat := 0x0800_0000_1800_0000 / 65536
def otherUnit : Nat := 0x0800_0000_4000_0000 / 65536

theorem test_hyp_pageAnswer : (stream (paged 1 1 false 0)).run = .waiting (.page 1 1) ∧ (stream (paged 1 1 false 0)).answer = some false ∧
    canTrap (paged 1 1 false 0) ∧ (stream (paged mappedUnit mappedUnit true 1)).answer = some true ∧
    unitMapped (paged mappedUnit mappedUnit true 1) 0 (mappedUnit * 65536) = true ∧ (stream (paged otherUnit otherUnit true 15)).answer = some true ∧
    unitMapped (paged otherUnit otherUnit true 15) 0 (otherUnit * 65536) = false ∧ (stream (paged otherUnit otherUnit true 15)).probes < 16 ∧
    handlerEntry (paged otherUnit otherUnit true 15) 0 4 ≠ 0#64 ∧ eventRoom (paged otherUnit otherUnit true 15) 0 4 = true := by
  unfold canTrap; and_intros <;> decide +kernel

/-- Core 0's task declares one buffer pair of halves of 64 bytes. -/
def phased : State := inTeam coreT { team0 with kdesc := BitVec.ofNat 1024 ((2 ^ 44 + 0x2000 * 2 ^ 22 + 0x1000) * 2 ^ 384) }

theorem test_hyp_phase : acts phased 0 g0 [] [] ∧ hasPhases phased 0 = true ∧ hasPhases coreT 0 = false ∧ canTrap coreT ∧
    (encodeScalar (.phase g0)).isSome = true := by
  unfold acts canTrap; and_intros <;> decide +kernel

theorem test_hyp_shoot : (stream (fw0 0)).ctx = 0#6 ∧ acts (fw0 0) 0 g0 [rs 1, rs 2] [] ∧ (fw0 0).rd (rs 2) = 0#64 ∧
    0xFFFF / 2 ^ 56 = agentDie (fw0 0).cur ∧ (0xFFFF + 1 - 1) % 2 ^ 64 / 2 ^ 56 = agentDie (fw0 0).cur := by
  unfold acts; and_intros <;> decide +kernel

/-! ### Vector records -/

/-- No operand. -/
def noOp : Desc := ⟨0, 0, 0, 0, 0, 0, 0, 0⟩
/-- An operand: its space, base and tag, without strides. -/
def at' (space : BitVec 4) (base : BitVec 32) (tag : BitVec 8) : Desc := { noOp with space := space, base := base, tag := tag }
/-- A vector register. -/
def vr (base : BitVec 32) (tag : BitVec 8) : Desc := at' 2 base tag
/-- A scratchpad address. -/
def sp (base : BitVec 32) (tag : BitVec 8) : Desc := at' 1 base tag
/-- The accumulator from entry 32 on. -/
def ac (tag : BitVec 8) : Desc := at' 3 32 tag
/-- A record of one issue. -/
def one (d a b : Desc) (mods : BitVec 16) : Rec := ⟨mods, 0, false, 0, false, 0, false, false, false, 0, 1, 1, 1, 1, d, a, b⟩

/-- Core 0's queues hold a record each, queue q is the one of the turn, and the registers v1 to v9 have tags. -/
def eng (q : BitVec 2) : State :=
  { (rings 1).upCo 0 fun x => { x with
      vtags := [(1, 1), (2, 1), (3, 1), (4, 3), (5, 3), (6, 3), (7, 5), (8, 5), (9, 5)], vregs := [(2, 0x4000_0000_3F80_0000), (3, 0x3F80_0000), (5, 7)] }
    with curq := q }

theorem test_hyp_vectorLoad : (eng 0).ecc = [] ∧
    (let r := one (vr 1 1) (sp 0x1000 1) noOp 0
     oneIssue r ∧ r.kat = false ∧ r.d.base.toNat < 384 ∧ begins (eng 0) 0 0x01 r 0 ∧ operandsReady (eng 0) r [] ∧
      spAt (eng 0) r 0 r.a + 128 ≤ 0x40_0000 ∧ begins (eng 0) 0 0x02 r 0 ∧ spAt (eng 0) r 0 r.a + laneBits r.d.tag.toNat / 8 ≤ 0x40_0000) ∧
    (let r := one (vr 1 1) (vr 2 1) noOp 0
     oneIssue r ∧ begins (eng 0) 0 0x04 r 0 ∧ operandsReady (eng 0) r [r.a]) ∧
    (let r := one (vr 1 1) (ac 0) noOp 0
     { r with d := vr 4 0 } = one (vr 4 0) (ac 0) noOp 0) ∧
    (let r := one (vr 1 1) (ac 1) noOp 0
     let s := (eng 0).upCo 0 fun x => { x with btags := [(0, 1)] }
     oneIssue r ∧ begins s 0 0x08 r 0 ∧ operandsReady s r [] ∧ r.d.space = 2#4 ∧ parked (s.co s.cur) r.a.base.toNat = false ∧
      tget (s.co s.cur).btags (accBlock r.a.base.toNat) 0 = r.a.tag) := by
  unfold oneIssue begins operandsReady; and_intros <;> decide +kernel

theorem test_hyp_vectorStore : (eng 0).ecc = [] ∧
    (let r := one (sp 0x1000 1) (vr 2 1) noOp 0
     oneIssue r ∧ r.kat = false ∧ spAt (eng 0) r 0 r.d + 128 ≤ 0x40_0000 ∧ begins (eng 0) 0 0x03 r 0 ∧ operandsReady (eng 0) r [r.a]) ∧
    (let r := one (sp 0x1000 0) (ac 0) noOp 0
     oneIssue r ∧ r.kat = false ∧ spAt (eng 0) r 0 r.d + 128 ≤ 0x40_0000 ∧ begins (eng 0) 0 0x08 r 0 ∧ operandsReady (eng 0) r [] ∧
      r.d.space = 1#4 ∧ parked ((eng 0).co (eng 0).cur) r.a.base.toNat = false ∧ r.a.tag = 0) := by
  unfold oneIssue begins operandsReady; and_intros <;> decide +kernel

/-- Group 1 of the accumulator is parked with a register of tag 1. -/
def parkedEng : State := (eng 0).upCo 0 fun x => { x with spill := [(1, 0x101)] }

theorem test_hyp_accumulatorTransfers :
    (let r := one (ac 1) (vr 2 1) noOp 0
     oneIssue r ∧ r.kat = false ∧ begins (eng 0) 0 0x09 r 0 ∧ operandsReady (eng 0) r [r.a] ∧
      parked ((eng 0).co (eng 0).cur) r.d.base.toNat = false) ∧
    (let r := one (ac 0) (vr 2 0) noOp 0
     oneIssue r ∧ r.kat = false ∧ begins (eng 0) 0 0x0A r 0 ∧ operandsReady (eng 0) r [r.a] ∧
      tget ((eng 0).co (eng 0).cur).spill (r.d.base.toNat / 32) 0 = 0) ∧
    (let r := one (vr 2 0) (ac 0) noOp 0
     oneIssue r ∧ r.kat = false ∧ begins parkedEng 0 0x0B r 0 ∧ operandsReady parkedEng r [] ∧
      tget (parkedEng.co parkedEng.cur).spill (r.a.base.toNat / 32) 0 ≠ 0 ∧ r.d.base.toNat < 384) := by
  unfold oneIssue begins operandsReady; and_intros <;> decide +kernel

/-- Operands of the lane operations. -/
def fl3 : Rec := one (vr 1 1) (vr 2 1) (vr 3 1) 0
def fl2 : Rec := one (vr 1 1) (vr 2 1) noOp 0
def in3 : Rec := one (vr 4 3) (vr 5 3) (vr 6 3) 8
def bw3 : Rec := one (vr 4 3) (vr 5 3) (vr 6 3) 0

theorem test_hyp_vectorFloat : (oneIssue fl3 ∧ oneIssue fl2 ∧ fl3.kat = false ∧ fl2.kat = false ∧ fl3.d.base.toNat < 384) ∧
    (∀ op ∈ [0x10, 0x11, 0x12, 0x13, 0x14, 0x15, 0x18], begins (eng 0) 0 op fl3 0) ∧
    (∀ op ∈ [0x16, 0x17, 0x19, 0x1A, 0x1B], begins (eng 0) 0 op fl2 0) ∧
    operandsReady (eng 0) fl3 [fl3.a, fl3.b, fl3.d] ∧ operandsReady (eng 0) fl2 [fl2.a] ∧
    (∃ x, x < 2 ^ ((fpCtlOf fl2 fl2.d.tag.toNat).p + 9) ∧ (fpDecode (fpCtlOf fl2 fl2.d.tag.toNat).p x).isNan = false ∧
      (fpCtlOf fl2 fl2.d.tag.toNat).ftz = false) := by
  unfold oneIssue begins operandsReady
  and_intros <;> first | decide +kernel | exact ⟨0, by decide +kernel⟩

theorem test_hyp_vectorInteger : (oneIssue in3 ∧ oneIssue bw3 ∧ in3.kat = false ∧ bw3.kat = false ∧ in3.d.base.toNat < 384) ∧
    (∀ op ∈ [0x20, 0x21, 0x2C], begins (eng 0) 0 op in3 0) ∧
    (∀ op ∈ [0x22, 0x23, 0x24, 0x25, 0x26, 0x27, 0x28, 0x29], begins (eng 0) 0 op bw3 0) ∧
    operandsReady (eng 0) in3 [in3.a, in3.b] ∧ operandsReady (eng 0) bw3 [bw3.a, bw3.b] ∧
    (let r := one (vr 4 3) (vr 7 5) (vr 8 5) 0
     oneIssue r ∧ begins (eng 0) 0 0x2D r 0 ∧ operandsReady (eng 0) r [r.a, r.b, r.d]) := by
  unfold oneIssue begins operandsReady; and_intros <;> decide +kernel

theorem test_hyp_vectorCompares :
    (let r := one (at' 7 1 0) (vr 2 1) (vr 3 1) 0x100
     oneIssue r ∧ r.kat = false ∧ begins (eng 0) 0 0x30 r 0 ∧ operandsReady (eng 0) r [r.a, r.b] ∧ r.d.base.toNat ≠ 0) ∧
    (let r := one (at' 7 1 0) (vr 5 3) (vr 6 3) 0x500
     oneIssue r ∧ r.kat = false ∧ begins (eng 0) 0 0x31 r 0 ∧ operandsReady (eng 0) r [r.a, r.b] ∧ r.d.base.toNat ≠ 0) ∧
    (let r := one (at' 7 1 0) (at' 7 2 0) (at' 7 0 0) 0x300
     oneIssue r ∧ r.kat = false ∧ begins (eng 0) 0 0x33 r 0 ∧ r.d.base.toNat ≠ 0) ∧
    (let r := one (vr 1 1) (vr 2 1) (vr 3 1) 0
     oneIssue r ∧ r.kat = false ∧ r.d.base.toNat < 384 ∧ begins (eng 0) 0 0x32 r 0 ∧ operandsReady (eng 0) r [r.a, r.b]) ∧
    (let r := one (vr 1 1) (vr 2 1) (vr 5 3) 0
     oneIssue r ∧ r.kat = false ∧ begins (eng 0) 0 0x50 r 0 ∧ operandsReady (eng 0) r [r.a, r.b]) ∧
    (let r := one (vr 1 1) (vr 2 1) (vr 3 1) 0x300
     oneIssue r ∧ r.kat = false ∧ begins (eng 0) 0 0x51 r 0 ∧ operandsReady (eng 0) r [r.a, r.b]) ∧
    (let r := one (vr 1 1) (vr 2 1) noOp 0x1F00
     oneIssue r ∧ r.kat = false ∧ begins (eng 0) 0 0x52 r 0 ∧ operandsReady (eng 0) r [r.a]) := by
  unfold oneIssue begins operandsReady; and_intros <;> decide +kernel

theorem test_hyp_conversions : (eng 0).ecc = [] ∧
    (let r := one (vr 4 3) (vr 2 1) noOp 0
     oneIssue r ∧ r.kat = false ∧ begins (eng 0) 0 0x38 r 0 ∧ operandsReady (eng 0) r [r.a] ∧ r.d.base.toNat < 384) ∧
    (let r := one (vr 7 5) (vr 2 1) (sp 0x1000 7) 0x300
     oneIssue r ∧ r.kat = false ∧ begins (eng 0) 0 0x3C r 0 ∧ operandsReady (eng 0) r [r.a] ∧ r.d.base.toNat < 384 ∧
      spAt (eng 0) r 0 r.b < 0x40_0000 ∧ r.d.space = 2#4) ∧
    (let r := one (sp 0x100 5) (vr 2 1) (sp 0x1000 7) 0
     oneIssue r ∧ r.kat = false ∧ begins (eng 0) 0 0x3C r 0 ∧ operandsReady (eng 0) r [r.a] ∧ r.d.base.toNat < 384 ∧
      spAt (eng 0) r 0 r.b < 0x40_0000 ∧ r.d.space = 1#4 ∧ spAt (eng 0) r 0 r.d + 32 ≤ 0x40_0000) ∧
    (let r := one (vr 1 1) (vr 7 5) (sp 0x1000 7) 0
     oneIssue r ∧ r.kat = false ∧ begins (eng 0) 0 0x3D r 0 ∧ operandsReady (eng 0) r [r.a] ∧ r.d.base.toNat < 384 ∧ r.a.space = 2#4 ∧
      spAt (eng 0) r 0 r.b < 0x40_0000) ∧
    (let r := one (vr 1 1) (sp 0x100 5) (sp 0x1000 7) 0
     oneIssue r ∧ r.kat = false ∧ begins (eng 0) 0 0x3D r 0 ∧ operandsReady (eng 0) r [] ∧ r.d.base.toNat < 384 ∧ r.a.space = 1#4 ∧
      spAt (eng 0) r 0 r.b < 0x40_0000 ∧ spAt (eng 0) r 0 r.a + 32 ≤ 0x40_0000) := by
  unfold oneIssue begins operandsReady; and_intros <;> decide +kernel

/-- TIE is set and a byte at 0x1000 is none that packs trits. -/
def tiedEng : State := { (eng 0).upCo 0 fun x => { x with vstatus := 0x1_0000 } with mem := wrN [] (spKey 0 0x1000) 1 243 }

theorem test_hyp_trits : (eng 0).ecc = [] ∧ tiedEng.ecc = [] ∧
    (let r := one (sp 0x1000 8) (vr 7 5) noOp 0x7800
     oneIssue r ∧ r.kat = false ∧ r.mf 14 8 = 120 ∧ begins (eng 0) 0 0x40 r 0 ∧ operandsReady (eng 0) r [r.a] ∧ spAt (eng 0) r 0 r.d + 24 ≤ 0x40_0000) ∧
    (let r := one (vr 7 5) (sp 0x1000 8) noOp 0x7800
     oneIssue r ∧ r.kat = false ∧ r.mf 14 8 = 120 ∧ r.d.base.toNat < 384 ∧ begins (eng 0) 0 0x41 r 0 ∧ operandsReady (eng 0) r [] ∧
      spAt (eng 0) r 0 r.a + 24 ≤ 0x40_0000 ∧ ((eng 0).co (eng 0).cur).vstatus.getLsbD 16 = false ∧
      begins tiedEng 0 0x41 r 0 ∧ operandsReady tiedEng r [] ∧ spAt tiedEng r 0 r.a + 24 ≤ 0x40_0000 ∧
      (tiedEng.co tiedEng.cur).vstatus.getLsbD 16 = true ∧ 243 ≤ (memGet tiedEng.mem (spKey tiedEng.cur (spAt tiedEng r 0 r.a) + 0)).toNat) := by
  unfold oneIssue begins operandsReady; and_intros <;> decide +kernel

/-- A reduction of a register to a register, and of two registers to scratchpad. -/
def red1 : Rec := one (vr 4 3) (vr 5 3) noOp 0
def red2 : Rec := { one (sp 0x1000 3) { vr 5 3 with s0 := 1 } noOp 0 with n0 := 2 }

theorem test_hyp_reductions : (eng 0).ecc = [] ∧ (red1.n1 = 1 ∧ red1.n2 = 1 ∧ red1.n3 = 1 ∧ red1.kat = false) ∧
    (red2.n1 = 1 ∧ red2.n2 = 1 ∧ red2.n3 = 1 ∧ red2.kat = false) ∧
    (∀ op ∈ [0x48, 0x49, 0x4A], begins (eng 0) 0 op red1 0) ∧ (∀ op ∈ [0x48, 0x49, 0x4A], begins (eng 0) 0 op red2 0) ∧
    (∀ r ∈ [red1, red2], vecFull (eng 0) (eng 0).cur r = true) ∧
    (∀ r ∈ [red1, red2], ∀ j, j < r.n0.toNat → vtag (eng 0) (addrAt r.a (0, 0, 0, j)).toNat = r.a.tag) ∧
    red1.n0 = 1 ∧ red1.d.space = 2#4 ∧ red1.d.base.toNat < 384 ∧ red2.d.space = 1#4 ∧
    spAt (eng 0) red2 0 red2.d + elemSize red2.a.tag.toNat ≤ 0x40_0000 := by
  unfold begins; and_intros <;> decide +kernel

/-! ### Gates, the matrix array and completion -/

/-- A VMOV. -/
def mov : Rec := one (vr 1 1) (vr 2 1) noOp 0
/-- A VMOV that awaits DONE 1 of semaphore 2. -/
def movAwait : Rec := { mov with awEn := true, awSem := 2, thr := 1 }
/-- An MZERO of block 0. -/
def zero0 : Rec := one (at' 3 0 1) noOp noOp 0
/-- The gates of a record: its slot is the next, its queue runs, and no record of it is half made. -/
def gates (s : State) (c : BitVec 32) : Prop :=
  (s.co s.cur).nextSlot s.curq = some c ∧ (s.co s.cur).rolling = false ∧ (ringOf s s.curq).stopped = false ∧
  (ringOf s s.curq).current = none ∧ (ringOf s s.curq).flight = []
/-- The rule that a record breaks. -/
def broken (s : State) (c : BitVec 32) (cls op : Nat) (r : Rec) : Nat :=
  ruleBroken (judgeOf s s.cur s.curq ((ringOf s s.curq).fences.contains c)) cls op r
/-- Semaphore 2 has ERR. -/
def errEng : State := (eng 0).upCo 0 fun x => x.setSem 2 ⟨0, 0, true⟩
/-- Every class is fenced. -/
def fencedEng : State := (eng 0).upCo 0 fun x => { x with capmask := 0 }
/-- Core 0 holds its quad's array. -/
def granted0 : State := (eng 1).putQd 0 { (eng 1).qd 0 with grant := some 0 }

theorem test_hyp_recordGates : recParts (.vmov mov) = some (0, 4, mov) ∧ recParts (.mzero zero0) = some (1, 2, zero0) ∧
    ((rings 0).co (rings 0).cur).nextSlot (rings 0).curq = none ∧ gates (eng 0) 0 ∧ gates (eng 1) 0 ∧ gates errEng 0 ∧ gates fencedEng 0 ∧
    (let s := (eng 0).upCo 0 fun x => { x with vq := { x.vq with stopped := true } }
     (s.co s.cur).rolling = false ∧ (ringOf s s.curq).stopped = true ∧ (ringOf s s.curq).current = none) ∧
    (let s := (eng 0).upCo 0 fun x => { x with vq := { x.vq with flight := [{ newFlight (eng 0) 0 0 5 0 false with made := true }] } }
     (ringOf s s.curq).flight ≠ [] ∧ (ringOf s s.curq).current = none) ∧
    broken (eng 0) 0 0 4 { mov with low := 1 } = 4 ∧ broken (eng 0) 0 0 4 mov = 0 ∧ broken (eng 0) 0 0 4 movAwait = 0 ∧
    broken (eng 1) 0 1 2 zero0 = 0 ∧ (semOf (eng 0) movAwait.awSem.toNat).awaitOk movAwait.thr = false ∧ movAwait.awEn = true ∧
    holdsGrant (eng 1) 0 = false ∧ zero0.awEn = false ∧ (fencedEng.co fencedEng.cur).capmask.getLsbD (opClass 0 4) = false ∧
    broken fencedEng 0 0 4 mov = 0 ∧ broken errEng 0 0 4 movAwait = 0 ∧ (semOf errEng movAwait.awSem.toNat).awaitOk movAwait.thr = true ∧
    (semOf errEng movAwait.awSem.toNat).err = true ∧ (errEng.co errEng.cur).capmask.getLsbD (opClass 0 4) = true ∧
    broken (eng 0) 0 0 4 { mov with n0 := 0 } = 0 ∧ ({ mov with n0 := 0 } : Rec).zeroTrip = true ∧
    ((eng 0).co (eng 0).cur).capmask.getLsbD (opClass 0 4) = true ∧ mov.awEn = false ∧ holdsGrant granted0 0 = true := by
  unfold gates; and_intros <;> decide +kernel

theorem test_hyp_issues : ∃ (k : VCtx) (g : Word) (s1 u : State), recParts (.vmov mov) = some (0, 4, mov) ∧ begins (eng 0) 0 4 mov 0 ∧
    k = { p := (eng 0).cur, op := 4, r := mov, ph := mov.phase && (ringOf (eng 0) (eng 0).curq).ph.contains 0,
          tie := ((eng 0).co (eng 0).cur).vstatus.getLsbD 16 } ∧
    s1 = pushFlight (eng 0) (eng 0).cur (eng 0).curq 0 1 false ∧ vecFull (eng 0) (eng 0).cur mov = true ∧
    vecStart k s1 = none ∧ issued k (issues mov) 0 s1 g u := by
  have h : (vecIssue ⟨0, 4, mov, false, false⟩ 0 (0, 0, 0, 0) (pushFlight (eng 0) 0 0 0 1 false)).toOption.isSome = true := by decide +kernel
  cases e : vecIssue ⟨0, 4, mov, false, false⟩ 0 (0, 0, 0, 0) (pushFlight (eng 0) 0 0 0 1 false) with
  | error x => rw [e] at h; cases h
  | ok o =>
    let v := vecApply ⟨0, 4, mov, false, false⟩ o 0 (vecFix ⟨0, 4, mov, false, false⟩ (0, 0, 0, 0) (pushFlight (eng 0) 0 0 0 1 false))
    refine ⟨⟨0, 4, mov, false, false⟩, v.1, pushFlight (eng 0) 0 0 0 1 false, v.2, by decide +kernel, by unfold begins; and_intros <;> decide +kernel,
      rfl, rfl, by decide +kernel, by decide +kernel, ?_⟩
    rw [show issues mov = [(0, 0, 0, 0, 0)] from by decide +kernel]
    exact ⟨o, e, rfl, rfl⟩

/-- An MCFG of the block at 0x1000. -/
def cfgRec : Rec := one noOp (sp 0x1000 0) noOp 0
/-- With a reserved bit in the block. -/
def badCfg : State := { granted0 with mem := wrN [] (spKey 0 0x1028) 1 1 }

theorem test_hyp_matrixSetup : oneIssue cfgRec ∧ granted0.ecc = [] ∧ badCfg.ecc = [] ∧ begins granted0 1 0x01 cfgRec 0 ∧ begins badCfg 1 0x01 cfgRec 0 ∧
    spAt granted0 cfgRec 0 cfgRec.a + 64 ≤ 0x40_0000 ∧
    mcfgOk (BitVec.ofNat 512 (rdN granted0.mem (spKey granted0.cur (spAt granted0 cfgRec 0 cfgRec.a)) 64)) = true ∧
    mcfgOk (BitVec.ofNat 512 (rdN badCfg.mem (spKey badCfg.cur (spAt badCfg cfgRec 0 cfgRec.a)) 64)) = false ∧
    oneIssue zero0 ∧ begins granted0 1 0x02 zero0 0 ∧ zero0.d.base.toNat % 64 = 0 ∧ zero0.d.base.toNat / 512 % 32 = 0 ∧
    blockParked (granted0.co granted0.cur) zero0.d.base.toNat = false ∧
    (let s := granted0.upCo 0 fun x => { x with spill := [(1, 0x101)] }
     begins s 1 0x02 zero0 0 ∧ blockParked (s.co s.cur) zero0.d.base.toNat = true) ∧
    (let r := one (at' 3 512 1) noOp noOp 0
     oneIssue r ∧ begins granted0 1 0x02 r 0 ∧ r.d.base.toNat / 512 % 32 ≠ 0) := by
  unfold oneIssue begins; and_intros <;> decide +kernel

/-- An MDOT of one block: activations at 0x2000 in rows of 32 bytes, weights at 0x4000, with or without ISUM. -/
def dot (isum : Bool) (bTag : BitVec 8) (col : BitVec 20) : Rec :=
  one (at' 3 0 (if isum then 3 else 1)) { sp 0x2000 5 with s1 := 32 } { sp 0x4000 bTag with s1 := col } (if isum then 8 else 0)
/-- The array is core 0's, and block 0 has a tag. -/
def dotState (isum : Bool) : State := granted0.upCo 0 fun x => { x with btags := [(0, if isum then 3 else 1)] }

theorem test_hyp_matrixProducts : ∀ isum : Bool,
    (∀ e ∈ [(0x10, dot isum 8 7), (0x11, dot isum 9 16), (0x12, dot isum 5 32)], begins (dotState isum) 1 e.1 e.2 0) ∧
    (∀ r ∈ [dot isum 8 7, dot isum 9 16, dot isum 5 32], oneIssue r ∧ r.kat = false ∧ r.mf 1 0 = 0 ∧ r.mods.getLsbD 2 = false ∧ r.a.space = 1#4 ∧
      r.d.base.toNat % 64 = 0 ∧ r.d.base.toNat / 512 % 32 = 0 ∧
      (∀ q : Nat, q < 32 → 0 ≤ (r.a.base.toNat : Int) + q * r.a.s1.toInt ∧ (r.a.base.toNat : Int) + q * r.a.s1.toInt + 32 ≤ 0x40_0000) ∧
      (∀ q : Nat, q < 32 → recAddr (dotState isum) 0 false ((r.a.base.toNat : Int) + q * r.a.s1.toInt) + 32 ≤ 0x40_0000) ∧
      (∀ k : Nat, k < 64 → recAddr (dotState isum) 0 false ((r.b.base.toNat : Int) + k * r.b.s1.toInt) + 32 ≤ 0x40_0000) ∧
      tget ((dotState isum).co (dotState isum).cur).btags (accBlock r.d.base.toNat) 0 = r.d.tag) ∧
    (dotState isum).ecc = [] ∧ (dotState isum).palarm = false ∧ (mcfgOf ((dotState isum).co (dotState isum).cur).mcfg).shen = false ∧
    (mcfgOf ((dotState isum).co (dotState isum).cur).mcfg).ascale + 32 ≤ 0x40_0000 ∧
    (mcfgOf ((dotState isum).co (dotState isum).cur).mcfg).bscale + 64 ≤ 0x40_0000 ∧
    ((dotState isum).co (dotState isum).cur).spill = [] ∧ ((dotState isum).co (dotState isum).cur).vstatus.getLsbD 16 = false := by
  intro isum; unfold oneIssue begins; cases isum <;> and_intros <;> decide +kernel

/-- A started record of core 0's queue 2. -/
def flying (pend : Nat) (stat : BitVec 8) (tags : List (Nat × BitVec 8)) : State :=
  (eng 2).upCo 0 fun x => { x with cq := { x.cq with flight := [{ newFlight (eng 2) 0 2 0 pend true with hdr := 2 ^ 24 + 32, made := true, stat := stat, tags := tags }] } }

/-- A pattern of segment 6 of a scan runs on core 0, which holds the array. -/
def scan6 : State := granted0.upCo 0 fun x => { x with svc := .scanning, scanSeg := 6 }

theorem test_hyp_completion : scanning6 (scan6.co scan6.cur) = true ∧ holdsGrant scan6 0 = true ∧ scanning6 (core0.co 0) = false ∧
    ((ringOf (flying 0 3 []) 2).flight.head?).map (·.made) = some true ∧ (ringOf (eng 0) 0).flight = [] ∧
    ((ringOf (flying 1 0 []) 2).flight.head?).map (·.pend) = some 1 ∧ ((ringOf (flying 0 3 []) 2).flight.head?).map (·.pend) = some 0 ∧
    ((flying 0 3 []).co (flying 0 3 []).cur).rolling = false ∧ ((flying 0 3 []).co (flying 0 3 []).cur).cqstat.getLsbD 63 = false ∧
    ((ringOf (flying 0 0 [(3, 1)]) 2).flight.head?).map (·.tags) = some [(3, 1)] := by
  and_intros <;> decide +kernel

/-- A JOIN of a mask. -/
def joinOf (m : BitVec 16) : Rec := one noOp noOp noOp m
/-- Fences of number 1 stand in queues 0 and, if asked, 2. -/
def fencedTo (both : Bool) : State :=
  let s := (eng 0).upCo 0 fun x => { x with vq := { x.vq with fences := [0] }, cq := if both then { x.cq with fences := [0] } else { x.cq with tail := 0 } }
  { s with mem := wrN (wrN [] (spKey 0 0x100) 64 (fenceRecord 5 1).toNat) (spKey 0 0x900) 64 (fenceRecord 5 1).toNat }
/-- The JOIN of the fences. -/
def fenceJoin : Rec := splitRec (fenceRecord 5 1)
/-- Core 1, alone of quad 0, has an MZERO at the head of its matrix queue. -/
def asking : State :=
  let s := ({ State.reset with mem := wrN [] (spKey 1 0x500) 64 (joinRec 1 2 zero0).toNat, cur := 0 } : State)
  s.upCo 1 fun x => { x with mq := { Queue.reset with base := 0x500, count := 16, tail := 1 } }

theorem test_hyp_grants : (granted0.qd granted0.cur).grant ≠ none ∧ (asking.qd asking.cur).grant = none ∧ (core0.qd core0.cur).grant = none ∧
    (∀ k, k < 4 → requestsArray core0 (4 * core0.cur + k) = false) ∧
    requestsArray asking (4 * asking.cur + ((asking.qd asking.cur).last + 2) % 4) = true ∧
    requestsArray asking (4 * asking.cur + ((asking.qd asking.cur).last + 1) % 4) = false ∧
    ((eng 0).co (eng 0).cur).nextSlot (eng 0).curq = some 0 ∧ (ringOf (eng 0) (eng 0).curq).stopped = false := by
  and_intros <;> decide +kernel

theorem test_hyp_fences : (eng 0).curq ≠ 3#2 ∧ gates (eng 0) 0 ∧ (ringOf (eng 0) 0).flight = [] ∧ (joinOf 1).awEn = false ∧
    ((eng 0).co (eng 0).cur).capmask.getLsbD 38 = true ∧ broken (eng 0) 0 3 1 { joinOf 1 with n1 := 0, n2 := 0, n3 := 0 } = 0 ∧
    (ringOf (eng 0) 0).fences.contains 0 = false ∧
    gates (fencedTo true) 0 ∧ (ringOf (fencedTo true) 0).fences.contains 0 = true ∧ broken (fencedTo true) 0 3 1 fenceJoin = 0 ∧ fenceJoin.awEn = false ∧
    (∀ j, j < 3 → fenceJoin.mods.getLsbD j = true → fenceAtHead (fencedTo true) 0 (fenceJoin.n1 ++ fenceJoin.n0) j = true) ∧
    gates (fencedTo false) 0 ∧ (ringOf (fencedTo false) 0).fences.contains 0 = true ∧ broken (fencedTo false) 0 3 1 fenceJoin = 0 ∧
    fenceJoin.mods.getLsbD 2 = true ∧ fenceAtHead (fencedTo false) 0 (fenceJoin.n1 ++ fenceJoin.n0) 2 = false := by
  unfold gates; and_intros <;> decide +kernel

/-! ### Copy records -/

/-- Core 0's copy queue is the one of the turn. -/
def cp : State := eng 2
/-- A run of 64 bytes. -/
def run64 (d a : Desc) : Rec := one d a noOp 6
/-- An address of core 0's tile, and a global one. -/
def tile (base : BitVec 32) : Desc := at' 4 base 0
def glob (base : BitVec 32) : Desc := at' 5 base 0

theorem test_hyp_localCopies : cp.ecc = [] ∧
    (∀ e ∈ [(0x01, run64 (sp 0x1000 0) (sp 0x2000 0)), (0x10, run64 (tile 0x1000) (sp 0x2000 0)), (0x10, one (tile 0x1000) (sp 0x2000 0) noOp 0x2106),
        (0x11, run64 (sp 0x1000 0) (tile 0x2000)), (0x02, one (sp 0x1000 0) noOp noOp 0xAB06)],
      begins cp 2 e.1 e.2 0 ∧ runAt cp e.2 0 e.2.d = .sp 0 0x1000 ∧ (e.1 ≠ 0x02 → runAt cp e.2 0 e.2.a = .sp 0 0x2000)) ∧
    (∀ r ∈ [run64 (sp 0x1000 0) (sp 0x2000 0), run64 (tile 0x1000) (sp 0x2000 0), one (tile 0x1000) (sp 0x2000 0) noOp 0x2106,
        run64 (sp 0x1000 0) (tile 0x2000), one (sp 0x1000 0) noOp noOp 0xAB06], oneIssue r) ∧
    (one (tile 0x1000) (sp 0x2000 0) noOp 0x2106).mods.getLsbD 13 = true ∧ (run64 (tile 0x1000) (sp 0x2000 0)).mods.getLsbD 13 = false := by
  unfold oneIssue begins; and_intros <;> decide +kernel

theorem test_hyp_globalCopies : cp.ecc = [] ∧ 0x40 % 64 = 0 ∧ isControl (0x40 % 2 ^ 56) = false ∧ resolve cp cp.cur (cp.sc cp.cur).ctx.toNat 0x40 4 = .ok 0x40 ∧
    resolve cp cp.cur (cp.sc cp.cur).ctx.toNat 0x40 2 = .ok 0x40 ∧ isDevice 0x40 = false ∧
    isObjHome cp 0x40 = false ∧ gateOpen cp (cp.sc cp.cur).ctx.toNat = true ∧
    (let r := run64 (sp 0x1000 0) (glob 0x40)
     oneIssue r ∧ r.run ≤ 64 ∧ begins cp 2 0x01 r 0 ∧ runAt cp r 0 r.a = .glob 0x40 ∧ runAt cp r 0 r.d = .sp 0 0x1000) ∧
    (let r := run64 (glob 0x40) (sp 0x1000 0)
     oneIssue r ∧ r.run ≤ 64 ∧ begins cp 2 0x01 r 0 ∧ runAt cp r 0 r.d = .glob 0x40 ∧ runAt cp r 0 r.a = .sp 0 0x1000) ∧
    (let r := one (glob 0x40) noOp noOp 0xAB06
     oneIssue r ∧ r.run ≤ 64 ∧ begins cp 2 0x02 r 0 ∧ runAt cp r 0 r.d = .glob 0x40) := by
  unfold oneIssue begins; and_intros <;> decide +kernel

/-- The word at 0x3000 of core 0's scratchpad names core 1. -/
def mask1 : State := { cp with mem := wrN [] (spKey 0 0x3000) 1 2 }

theorem test_hyp_reduceAndMulticast : cp.ecc = [] ∧ mask1.ecc = [] ∧
    (let r := one { tile 0x1000 with tag := 1 } (sp 0x2000 1) noOp 6
     oneIssue r ∧ begins cp 2 0x12 r 0 ∧ runAt cp r 0 r.d = .sp 0 0x1000 ∧ runAt cp r 0 r.a = .sp 0 0x2000) ∧
    (let r := one (tile 0x1000) (sp 0x2000 0) (sp 0x3000 0) 6
     oneIssue r ∧ begins cp 2 0x13 r 0 ∧ rdN cp.mem (spKey cp.cur (spAt cp r 0 r.b)) 32 < 2 ^ teamSize cp cp.cur ∧
      runAt cp r 0 r.a = .sp 0 0x2000 ∧ begins mask1 2 0x13 r 0 ∧
      2 ^ teamSize mask1 mask1.cur ≤ rdN mask1.mem (spKey mask1.cur (spAt mask1 r 0 r.b)) 32) ∧
    begins cp 2 0x18 { one { tile 5 with s0 := 1 } noOp noOp 0x100 with n0 := 2 } 0 := by
  unfold oneIssue begins; and_intros <;> decide +kernel

/-- An APUT of 64 bytes to tree 0. -/
def toTree : Rec := one (at' 6 0 1) (sp 0x1000 1) noOp 6
/-- Core 0's team may use tree 0, which sums 16 elements of float32 at its one node, and is closed or open. -/
def treeState (closed : Bool) (x : NodeRun) : State :=
  let w := [2 ^ 63 + (if closed then 2 ^ 61 else 0) + 2 ^ 48, 64, 0, 0, 0, 0, 0, 0, 3 * 2 ^ 16]
  putTree (withWords (inTeam cp team0) [(treeKey 0 0 0, w.getD 0 0)]) 0 0 { loaded := true, entry := w, team := none, nodes := [(0, x)] }
/-- The state in which it contributes. -/
def treeBound (s : State) : State :=
  let s1 := pushFlight s s.cur 2 0 1 false
  putTree s1 0 0 { treeRun s1 0 0 with team := teamNo s1 s.cur }
/-- What it contributes. -/
def treeGives (s : State) : Option State :=
  contribute (treeBound s) 0 0 (s.lcoreOf s.cur)
    (spanElems toTree.d.tag.toNat (toTree.d.origin % 4096) toTree.run (rdN s.mem (spKey 0 0x1000) toTree.run))
/-- A node that waits for another core, and one whose next round is taken. -/
def busyNode : NodeRun := { NodeRun.reset with own := [(0, some 1)], next := [(0, some 1)] }

theorem test_hyp_aperture : oneIssue toTree ∧ aputTree toTree = 0 ∧
    (∀ s ∈ [treeState true .reset, treeState false .reset, treeState false busyNode],
      s.ecc = [] ∧ begins s 2 0x14 toTree 0 ∧ runAt s toTree 0 toTree.a = .sp 0 0x1000 ∧
      aputOk (pushFlight s s.cur 2 0 1 false) (copyRun s toTree 0) = true) ∧
    treeClosed (treeState true .reset) 0 0 = true ∧ treeClosed (treeState false .reset) 0 0 = false ∧
    (treeGives (treeState false .reset)).isSome = true ∧ treeClosed (treeState false busyNode) 0 0 = false ∧
    (treeGives (treeState false busyNode)).isSome = false ∧ begins cp 2 0x14 toTree 0 ∧
    aputOk (pushFlight cp cp.cur 2 0 1 false) (copyRun cp toTree 0) = false := by
  unfold oneIssue begins; and_intros <;> decide +kernel

/-- A network record with a descriptor whose word 0 is given, over connection 5 in a STATE. -/
def netRec : Rec := one noOp (sp 0x2000 0) (sp 0x1000 0) 6
def netRead : Rec := one (sp 0x2000 0) noOp (sp 0x1000 0) 6
def netFlush : Rec := one noOp noOp (sp 0x1000 0) 0
def netState (w0 st : Nat) : State := connIn (withWords cp [(spKey 0 0x1000, w0)]) 5 st
/-- The connection that its descriptor names, for an operation. -/
def netConn (op : Nat) (r : Rec) (s : State) : Option Nat := (netDesc op (netWord s r 0)).map (·.conn)

theorem test_hyp_networkRecords : (oneIssue netRec ∧ oneIssue netRead ∧ oneIssue netFlush) ∧
    (∀ st ∈ [1, 2], ∀ e ∈ [(1, 0x20, netRec), (2, 0x20, netRec), (6, 0x21, netRec), (7, 0x22, netRead), (8, 0x23, netFlush)],
      (netState (e.1 + 5 * 2 ^ 44) st).ecc = [] ∧ begins (netState (e.1 + 5 * 2 ^ 44) st) 2 e.2.1 e.2.2 0 ∧
      netConn e.2.1 e.2.2 (netState (e.1 + 5 * 2 ^ 44) st) = some 5) ∧
    (∀ e ∈ [1, 2, 6, 7, 8], connStatus (netState (e + 5 * 2 ^ 44) 1) 0 5 0 = 0 ∧ connStatus (netState (e + 5 * 2 ^ 44) 2) 0 5 0 = 1 ∧
      (netState (e + 5 * 2 ^ 44) 1).tx = []) ∧
    runAt (netState 1 1) netRec 0 netRec.a = .sp 0 0x2000 ∧ netRec.run = 64 ∧ bufferRoom (netState 1 1) 64 = true ∧
    (let s := netState (1 + 0xF_FFFF * 2 ^ 44) 1
     begins s 2 0x20 netRec 0 ∧ netConn 0x20 netRec s = some 0xF_FFFF ∧ runAt s netRec 0 netRec.a = .sp 0 0x2000) := by
  unfold oneIssue begins; and_intros <;> decide +kernel

/-! ### The network -/

/-- A packet of an operation to connection 5. -/
def pkt (op mode psn : Nat) : Packet :=
  { peerHi := 0x11, peerLo := 0x22, job := 7, mode := mode, op := op, psn := psn, msg := 0, off := 0, len := 4, tag := 0, key := 9, roff := 8, ecn := false,
    sec := false, data := [1, 2, 3, 4] }
/-- Context 3 is live, with core 1 its resident core 0, and its connection 5 is valid. -/
def live3 : State :=
  let s := withWords { State.reset with cur := 3 } [(ctxKey 3 0, 2 ^ 61), (connKey 3 5 0, 7 * 2 ^ 61), (connKey 3 5 1, 0x11), (connKey 3 5 2, 0x22),
    (connKey 3 5 3, 7), (connKey 3 5 4, 8192)]
  s.putCx 3 { s.cx 3 with residents := [1] }
/-- Another valid connection with the same peer. -/
def twice3 : State := withWords live3 [(connKey 3 6 0, 7 * 2 ^ 61), (connKey 3 6 1, 0x11), (connKey 3 6 2, 0x22), (connKey 3 6 3, 7)]
/-- Both modes of the connection have taken packets 0 to 9. -/
def taken3 : State :=
  putConn live3 3 5 { connRun live3 3 5 with m0 := { ModeRun.reset with rxNext := 10 }, m1 := { ModeRun.reset with rxNext := 10 } }
/-- A match entry of an operation that lands at 0x1000 of resident core 0. -/
def entry3 (op : Nat) : State :=
  let k := winKey (64 * 0x80009)
  withWords live3 [(k, 2 ^ 63 + 3 * 2 ^ 56 + 5 * 2 ^ 36 + op * 2 ^ 28), (k + 8, if op = 1 then 0 else 9), (k + 16, if op = 1 then 0 else 64),
    (k + 24, 2 ^ 56 + 0x1000), (k + 40, if op = 1 then 64 else 0), (k + 48, 2 ^ 20 + 7)]
/-- The place that an entry gives. -/
def placed (e : Option (Nat × BitVec 512)) : Option (Nat × Nat × Nat × Nat × Nat) :=
  e.map fun e => (e.1, bitsOf (lineWord e.2 7) 7 0, bitsOf (lineWord e.2 5) 12 0, bitsOf (lineWord e.2 3) 63 56, bitsOf (lineWord e.2 3) 55 48)

/-- A packet beyond the window of the connection. -/
def early : Packet := pkt 1 0 (12 + Config.rxWindow)

theorem test_hyp_packets : claims State.reset (pkt 1 0 0) = [] ∧ (claims twice3 (pkt 1 0 0)).length = 2 ∧ reaches live3 3 5 (pkt 1 0 0) ∧
    reaches taken3 3 5 (pkt 1 0 3) ∧ duplicate taken3 3 5 (pkt 1 0 3) ∧
    reaches taken3 3 5 (pkt 1 1 11) ∧ ¬duplicate taken3 3 5 (pkt 1 1 11) ∧ (connRun taken3 3 5).m1.rxNext ≠ 11 ∧ bufferRoom taken3 4 = true := by
  unfold reaches duplicate; and_intros <;> decide +kernel

theorem test_hyp_window : reaches taken3 3 5 early ∧ ¬duplicate taken3 3 5 early ∧
    ((connRun taken3 3 5).mode early.mode).rxNext + 1 + Config.rxWindow < early.psn ∧ 11 ≤ (connRun taken3 3 5).m1.rxNext + 1 + Config.rxWindow := by
  have h0 : (connRun taken3 3 5).m0 = { ModeRun.reset with rxNext := 10 } := by decide +kernel
  have h1 : (connRun taken3 3 5).m1.rxNext = 10 := by decide +kernel
  have hm : (connRun taken3 3 5).mode early.mode = { ModeRun.reset with rxNext := 10 } := h0
  refine ⟨by unfold reaches; and_intros <;> decide +kernel, ?_, ?_, by omega⟩
  · unfold duplicate; rw [hm]; simp [ModeRun.reset, early, pkt]; omega
  · rw [hm]; simp [early, pkt]

theorem test_hyp_sends : reaches (entry3 1) 3 5 (pkt 1 0 0) ∧ quiet (entry3 1) 3 5 ∧ ¬duplicate (entry3 1) 3 5 (pkt 1 0 0) ∧
    (pkt 1 0 0).psn = (connRun (entry3 1) 3 5).m0.rxNext ∧ (pkt 1 0 0).data.length = (pkt 1 0 0).len ∧
    placed (takeEntry (entry3 1) 3 { conn := 5, op := 1, tag := 0, key := 0 }).1 = some (0x80009, 0, 64, 1, 0) ∧
    (takeEntry (entry3 1) 3 { conn := 5, op := 1, tag := 0, key := 0 }).2 = entry3 1 ∧ ((entry3 1).cx 3).residents[0]? = some 1 ∧ (entry3 1).ecc = [] := by
  unfold reaches quiet duplicate; and_intros <;> decide +kernel

theorem test_hyp_rma : (∀ op ∈ [6, 7], ∀ s ∈ [live3, entry3 op], reaches s 3 5 (pkt op 0 0) ∧ quiet s 3 5 ∧ ¬duplicate s 3 5 (pkt op 0 0) ∧
      (pkt op 0 0).psn = (connRun s 3 5).m0.rxNext ∧ s.ecc = [] ∧ s.tx = []) ∧
    (∀ op ∈ [6, 7], (takeKey live3 3 5 op 9 8 4 = (none, live3)) ∧
      placed (takeKey (entry3 op) 3 5 op 9 8 4).1 = some (0x80009, 0, 0, 1, 0) ∧ (takeKey (entry3 op) 3 5 op 9 8 4).2 = entry3 op) ∧
    reaches taken3 3 5 (pkt 8 0 10) ∧ quiet taken3 3 5 ∧ ¬duplicate taken3 3 5 (pkt 8 0 10) ∧ (pkt 8 0 10).roff.toNat ≤ (connRun taken3 3 5).m0.rxNext ∧
    (pkt 8 0 10).tag.toNat ≤ (connRun taken3 3 5).m1.rxNext ∧ reaches taken3 3 5 { pkt 8 0 10 with tag := 20 } ∧
    (connRun taken3 3 5).m1.rxNext < ({ pkt 8 0 10 with tag := 20 } : Packet).tag.toNat := by
  unfold reaches quiet duplicate; and_intros <;> decide +kernel

/-- A packet that connection 5 has sent n times more. -/
def tx0 (n : Nat) : Tx := { ctx := 3, conn := 5, pkt := pkt 1 0 4, origin := .record 0 0, ms := none, sent := true, tries := n, sentAt := 0, rto := 100 }
/-- It is outstanding at a time. -/
def sent3 (n time : Nat) : State := { live3 with tx := [tx0 n], time := 21 * time }
/-- The window was halved for packet 7. -/
def halved3 : State := putConn (sent3 0 50) 3 5 { connRun (sent3 0 50) 3 5 with hpsn := some 7 }

theorem test_hyp_outgoing : live3.tx = [] ∧ (∀ s ∈ [sent3 0 50, halved3, sent3 3 150, sent3 16 150], ∃ t0 ∈ s.tx, t0.ctx = s.cur ∧ t0.conn = 5 ∧
      t0.pkt.mode = 0 ∧ t0.pkt.psn = 4 ∧ t0.sent = true ∧ s.flags = [] ∧ t0.pkt.op ∈ [1, 2, 6, 7, 8] ∧
      ∀ u ∈ s.tx, u.ctx = s.cur → u.conn = 5 → u.sent = true ∧ (u.pkt.mode = 0 → u.pkt.psn = 4 → u = t0)) ∧
    connWord (sent3 0 50) 3 5 4 = 8192 ∧ (connRun (sent3 0 50) 3 5).clean + (tx0 0).bytes < 8192 ∧
    (let s := putConn (sent3 0 50) 3 5 { connRun (sent3 0 50) 3 5 with clean := 8192 }
     connWord s 3 5 4 ≤ (connRun s 3 5).clean + (tx0 0).bytes) ∧
    (connRun (sent3 0 50) 3 5).hpsn = none ∧ (connRun halved3 3 5).hpsn = some 7 ∧
    (sent3 0 50).ns < (tx0 0).sentAt + (tx0 0).rto ∧ (tx0 3).sentAt + (tx0 3).rto ≤ (sent3 3 150).ns ∧ (tx0 3).tries < 16 ∧
    (tx0 16).sentAt + (tx0 16).rto ≤ (sent3 16 150).ns ∧ 16 ≤ (tx0 16).tries := by
  and_intros <;> decide +kernel

/-! ### Milestones, handlers and drain requests -/

/-- Milestone 7 of context 3 has COUNT n and THRESH 3, its line holds an MSADD, and an increment of 1 is on its way. -/
def counting (n : Nat) (mine : Bool) : State :=
  { withWords live3 [(msKey 7, n), (msKey 7 + 8, 3), (winKey (64 * 7), 5 * 2 ^ 60 + 0x40)] with
    incs := [⟨3, 7, 1, none, none⟩], allots := if mine then [{ ctx := 3, kind := .milestone, lo := 0, hi := 16 }] else [] }

theorem test_hyp_increments : (counting 2 true).incs[0]? = some ⟨3, 7, 1, none, none⟩ ∧ allotted (counting 2 false) 3 .milestone 7 = false ∧
    allotted (counting 0 true) 3 .milestone 7 = true ∧ ¬(rdN (counting 0 true).mem (msKey 7) 8 < 3 ∧ 3 ≤ 1) ∧
    rdN (counting 2 true).mem (msKey 7) 8 = 2 ∧ rdN (counting 2 true).mem (msKey 7 + 8) 8 = 3 ∧ ctxLive (counting 2 true) 3 = true ∧
    collIn (counting 2 true) 3 1 = [] ∧ rdN (counting 2 true).mem (winKey (64 * 7)) 64 = 5 * 2 ^ 60 + 0x40 ∧
    opList (5 * 2 ^ 60 + 0x40) = [0x5000_0000_0000_0040] ∧ opCode 0x5000_0000_0000_0040 < 7 ∧
    (let s := { counting 2 true with incs := [⟨3, 7, 1, some 5, some 5⟩, ⟨3, 7, 1, some 5, some 5⟩] }
     s.incs[1]? = some ⟨3, 7, 1, some 5, some 5⟩ ∧ ∃ i ∈ s.incs.take 1, i.lane = some 5) := by
  and_intros <;> decide +kernel

/-- A fired list of one operation whose block is at 0x40. -/
def fired1 (op arg : Nat) : Fired := { ctx := 3, ms := 7, idx := 0, ops := [BitVec.ofNat 64 (op * 2 ^ 60 + arg)] }
/-- Milestone 7 has fired it; the block's words are given; a task of context 3 runs on resident core 0, which is core 1. -/
def fires (op arg : Nat) (l : List Nat) : State :=
  let s := withWords (counting 0 true) (l.zipIdx.map fun e => (0x40 + 8 * e.2, e.1))
  let s := withWords s [(queueKey 0 0, 2 ^ 63 + 3 * 2 ^ 54 + 1), (cwinKey 3 0x1800_0010, 0x100), (connKey 3 5 6, 1)]
  let s := (s.upCo 1 fun x => { x.ready with task := some ⟨5, 0⟩, cq := { Queue.reset with base := 0x900, count := 16 } }).putTm 5 { team0 with ctx := 3, cores := [1] }
  { s.putDi 0 { s.di 0 with tlb := [{ ctx := 3, unit := 0, base := 0, rights := 7 }] } with cur := 7, fired := [fired1 op arg], opened := true }
/-- The block as its operation reads it. -/
def block (s : State) (n : Nat) : Option Nat :=
  match globalRead 0xFFFF 3 (lineFuel n) 0x40 n s with | .ok (v, false, t) => if t = s then some v else none | _ => none
/-- Its words. -/
def blockIs (s : State) (n : Nat) (l : List Nat) : Bool := (block s n).any fun v => (List.range l.length).all fun j => blockWord v j == l.getD j 0

theorem test_hyp_nextOp : (∀ op ∈ [1, 2, 3, 4, 5, 6], ∀ arg ∈ [0x40, 0x41],
    (fires op arg []).fired = [] ++ fired1 op arg :: [] ∧ (fired1 op arg).ms = (fires op arg []).cur ∧
    ((fired1 op arg).ops.head?).map opCode = some op ∧ ((fired1 op arg).ops.head?).map opArg = some arg ∧ (fired1 op arg).ops.length = 1) ∧ 0x41 % 16 ≠ 0 := by
  and_intros <;> decide +kernel

theorem test_hyp_launch : block (fires 1 0x40 [3 * 2 ^ 48]) 64 = some (3 * 2 ^ 48) ∧ itemCtx (BitVec.ofNat 512 (3 * 2 ^ 48)) = 3 ∧
    firstBad (itemChecks (fires 1 0x40 [3 * 2 ^ 48]) 3 (BitVec.ofNat 512 (3 * 2 ^ 48))) = none ∧ taking (fires 1 0x40 [3 * 2 ^ 48]) = true ∧
    poolRoom (fires 1 0x40 [3 * 2 ^ 48]) 3 = true ∧ block (fires 1 0x40 [0]) 64 = some 0 ∧ itemCtx 0 ≠ 3 := by
  and_intros <;> decide +kernel

/-- The words of a FILL. -/
def fillWords : List Nat :=
  (List.range 8).map fun j => (joinRec 2 2 (one (sp 0x1000 0) noOp noOp 0xAB06)).toNat / 2 ^ (64 * j) % 2 ^ 64

theorem test_hyp_triggeredCopy :
    (let s := fires 2 0x40 fillWords
     let w := joinRec 2 2 (one (sp 0x1000 0) noOp noOp 0xAB06)
     block s 128 = some w.toNat ∧ residentTask s 3 0 = some 1 ∧ (s.co 1).cq.count ≠ 0 ∧ w.extractLsb' 60 4 = 2#4 ∧
      wordsBroken (judgeOf s 1 2 false) w = 0 ∧ (s.co 1).cq.full = false ∧ (s.co 1).rolling = false ∧ s.ecc = []) ∧
    (let s := fires 2 0x40 (fillWords ++ [9])
     blockIs s 128 (fillWords ++ [9]) = true ∧ residentTask s 3 9 = none) := by
  and_intros <;> decide +kernel

/-- The window of connection 5 is closed, and a second list of the milestone has a SEND with a misaligned block. -/
def closed3 : State :=
  let s := fires 3 0x40 [1 + 5 * 2 ^ 44, 0, 0, 0, 0x80, 4, 0, 0]
  putConn { s with fired := [fired1 3 0x40, fired1 3 0x41] } 3 5 { connRun s 3 5 with inflight := 8192 }

theorem test_hyp_send : (blockIs closed3 64 [1 + 5 * 2 ^ 44, 0, 0, 0, 0x80, 4, 0, 0] = true ∧ connStatus closed3 3 5 0 = 0 ∧ windowOpen closed3 3 5 4 = false ∧
      closed3.fired = [] ++ fired1 3 0x40 :: ([] ++ fired1 3 0x41 :: []) ∧ opArg (BitVec.ofNat 64 (3 * 2 ^ 60 + 0x41)) % 64 ≠ 0) ∧
    bufferRoom (fires 3 0x40 []) 4 = true ∧ (∀ n ∈ [5, 8], blockIs (fires 3 0x40 [1 + n * 2 ^ 44, 0, 0, 0, 0x80, 4, 0, 0]) 64 [1 + n * 2 ^ 44, 0, 0, 0, 0x80, 4, 0, 0] = true ∧
      sendBlockOk (fun j => [1 + n * 2 ^ 44, 0, 0, 0, 0x80, 4, 0, 0].getD j 0) = true) ∧
    connStatus (fires 3 0x40 []) 3 5 0 = 0 ∧ connStatus (fires 3 0x40 []) 3 8 0 = 3 ∧ windowOpen (fires 3 0x40 []) 3 5 4 = true ∧
    (fires 3 0x40 []).tx = [] ∧ ((globalRead 0xFFFF 3 (lineFuel 4) 0x80 4 (fires 3 0x40 [])).toOption).map (fun e => (e.1, e.2.1)) = some (0, false) := by
  and_intros <;> decide +kernel

/-- The event queue of context 3 is full. -/
def crowd3 : State :=
  let s := fires 6 0x40 [9]
  s.putCx 3 { s.cx 3 with events := List.replicate 1024 { kind := 2, arg := 0, tag := 0, len := 0, ptime := 0, fctx := 0, data := 0, asker := none } }

theorem test_hyp_smallOps : blockIs (fires 4 0x40 [2 ^ 16 + 2 * 2 ^ 8]) 16 [2 ^ 16 + 2 * 2 ^ 8, 0] = true ∧
    residentTask (fires 4 0x40 [2 ^ 16 + 2 * 2 ^ 8]) 3 0 = some 1 ∧ blockIs (fires 5 0x40 [7, 1]) 16 [7, 1] = true ∧
    allotted (fires 5 0x40 [7, 1]) 3 .milestone 7 = true ∧ blockIs (fires 6 0x40 [9]) 16 [9, 0] = true ∧ handlerEntry (fires 6 0x40 [9]) 3 2 ≠ 0#64 ∧
    eventRoom (fires 6 0x40 [9]) 3 2 = true ∧ blockIs crowd3 16 [9, 0] = true ∧ handlerEntry crowd3 3 2 ≠ 0#64 ∧ eventRoom crowd3 3 2 = false ∧
    (let s := withWords (fires 6 0x40 [9]) [(cwinKey 3 0x1800_0010, 0)]
     blockIs s 16 [9, 0] = true ∧ handlerEntry s 3 2 = 0#64) := by
  and_intros <;> decide +kernel

/-- Thread 0 is free, and context 3 has an event. -/
def waiting3 : State :=
  let s := withWords { live3 with cur := 4096 } [(ctxKey 3 6, 2 ^ 42)]
  s.putCx 3 { s.cx 3 with events := [{ kind := 1, arg := 7, tag := 0, len := 8, ptime := 0, fctx := 0, data := 5, asker := none }] }
/-- Thread 0 has run for a time in ns. -/
def running3 (n : Nat) : State := { thread0 with time := 21 * n }

theorem test_hyp_handlers : isThread waiting3.cur = true ∧ (stream waiting3).run = .idle ∧ pickContext waiting3 = some (3, 4) ∧
    ((waiting3.cx 3).events.head?).map (fun e => decide (e.kind < 8)) = some true ∧ (stream waiting3).ctx.toNat ≠ 3 ∧
    isThread (running3 100_001).cur = true ∧ (stream (running3 100_001)).run = .running ∧
    hwdNs (running3 100_001) (stream (running3 100_001)).ctx.toNat < (running3 100_001).ns - (stream (running3 100_001)).wd / 21 ∧
    savingCtx (running3 100_001) (stream (running3 100_001)).ctx.toNat = false ∧
    (running3 100_000).ns - (stream (running3 100_000)).wd / 21 ≤ hwdNs (running3 100_000) (stream (running3 100_000)).ctx.toNat := by
  and_intros <;> decide +kernel

/-- A message matched before the drain request. -/
def early3 : RxMsg :=
  { id := 0, ctx := 3, conn := 5, mode := 0, op := 1, msg := 0, ent := 0x80009, line := 0, len := 4, got := 0, left := 4, failed := false, tag := 0, buf := 0, lane := none, ovf := false }
/-- A drain request of context 3 waits. -/
def draining3 (rx : List RxMsg) : State := { live3.putCx 3 { live3.cx 3 with drains := [(5, 1)] } with rx := rx }

theorem test_hyp_drains : ({ live3 with acts := [.drainreq 3 5] } : State).acts = [] ++ .drainreq 3 5 :: [] ∧ live3.cur = 3 ∧
    ((draining3 []).cx 3).drains = [(5, 1)] ∧ (∀ m ∈ (draining3 []).rx, m.ctx = 3 → m.ent ≠ 2 ^ 20 → m.failed = false → 1 ≤ m.id) ∧
    (∀ i ∈ (draining3 []).incs, i.ctx ≠ 3) ∧ ((draining3 [early3]).cx 3).drains = [(5, 1)] ∧
    (∃ m ∈ (draining3 [early3]).rx, m.ctx = 3 ∧ m.ent ≠ 2 ^ 20 ∧ m.failed = false ∧ m.id < 1) := by
  and_intros <;> decide +kernel

/-! ### The host port -/

/-- RCFG of a ring of context c, connection 5 and PASID 9, with EN and STATE as a number of three bits. -/
def rcfg (en c : Nat) : Nat := en * 2 ^ 61 + 9 * 2 ^ 32 + 5 * 2 ^ 20 + c * 2 ^ 14
/-- Ring 4 has a size of 2^log, TAIL, HEAD 0 and RCFG; connection 5 of context 3 is its connection. -/
def ring4 (log tail cfg : Nat) (s : State) : State :=
  { withWords s [(connKey 3 5 0, 15 * 2 ^ 60 + 4), (ringKey 4 1, log), (ringKey 4 2, tail), (ringKey 4 4, cfg)] with cur := 4 }

theorem test_hyp_ringRegisters : (ring4 4 0 0 live3).cur = 4 ∧
    ringEn (ring4 4 0 (rcfg 5 3) live3) 4 = true ∧ tailOk (ring4 4 0 (rcfg 5 3) live3) 4 (17 % 2 ^ 32) = false ∧
    tailOk (ring4 4 0 (rcfg 5 3) live3) 4 (16 % 2 ^ 32) = true ∧ ringEn (ring4 4 0 0 live3) 4 = false ∧
    (BitVec.ofNat 64 (rcfg 4 3)).getLsbD 63 = true ∧ bitsOf (rcfg 4 3) 19 14 = 3 ∧ bitsOf (rcfg 4 3) 31 20 = 5 ∧
    ctxLive (ring4 4 0 0 live3) 3 = true ∧ ringReg (ring4 4 0 0 live3) 4 1 % 32 = 4 ∧ hostConnOk (ring4 4 0 0 live3) 3 5 4 = true ∧
    ringReg (ring4 3 0 0 live3) 4 1 % 32 < 4 ∧ ringEn (ring4 3 0 0 live3) 4 = false ∧ (0 : Word).getLsbD 63 = false := by
  and_intros <;> decide +kernel

/-- A ring entry of an inline send of 4 bytes. -/
def inline4 : RingEntry := BitVec.ofNat 512 (1 + (2 ^ 63 + 4) * 2 ^ 192 + 0x0403_0201 * 2 ^ 256)
/-- A match entry for it in context 3. -/
def landing3 : State :=
  let k := winKey (64 * 0x80009)
  withWords live3 [(k, 2 ^ 63 + 3 * 2 ^ 56 + 5 * 2 ^ 36 + 2 ^ 28), (k + 24, 2 ^ 56 + 0x1000), (k + 40, 64), (k + 48, 2 ^ 20 + 7)]

/-- A ring's outstanding request: for a translation or not, for its entry or the payload of one. -/
def asked4 (trans : Bool) (e : Option RingEntry) (s : State) : State := { s with hostReads := [⟨4, 9, [7], 0, trans, e, true⟩] }
/-- A ring entry of a send of 4 bytes that lie elsewhere. -/
def apart4 : RingEntry := BitVec.ofNat 512 (1 + 0x7000 * 2 ^ 128 + 4 * 2 ^ 192)

theorem test_hyp_ringReads : (∀ q ∈ (ring4 4 0 0 live3).hostReads, q.ring ≠ 4) ∧
    (asked4 true none (ring4 4 1 (rcfg 5 3) landing3)).hostReads.find? (fun q => q.ring == 4) = some ⟨4, 9, [7], 0, true, none, true⟩ ∧
    (asked4 false none (ring4 4 1 (rcfg 5 3) landing3)).hostReads.find? (fun q => q.ring == 4) = some ⟨4, 9, [7], 0, false, none, true⟩ ∧
    (asked4 false (some apart4) (ring4 4 1 (rcfg 5 3) landing3)).hostReads.find? (fun q => q.ring == 4) =
      some ⟨4, 9, [7], 0, false, some apart4, true⟩ ∧
    ringEntryOk apart4 = true ∧ entryInl apart4 = false ∧ entryLen apart4 = 4 ∧ entryWord apart4 0 = 1 ∧ entryLen apart4 ≤ 4096 := by
  and_intros <;> decide +kernel

theorem test_hyp_ringFetch : ringEn (ring4 4 0 0 live3) 4 = false ∧ ringState (ring4 4 0 (rcfg 4 3) live3) 4 ≠ 1 ∧
    ringReg (ring4 4 0 (rcfg 5 3) live3) 4 3 = ringReg (ring4 4 0 (rcfg 5 3) live3) 4 2 ∧
    ringEntryOk inline4 = true ∧ entryInl inline4 = true ∧ ringEntryOk 0 = false ∧
    (∀ c ∈ [2, 3], ringEn (ring4 4 1 (rcfg 5 c) landing3) 4 = true ∧ ringState (ring4 4 1 (rcfg 5 c) landing3) 4 = 1 ∧
      ringReg (ring4 4 1 (rcfg 5 c) landing3) 4 3 = 0 ∧ ringReg (ring4 4 1 (rcfg 5 c) landing3) 4 2 = 1 ∧
      ringCtx (ring4 4 1 (rcfg 5 c) landing3) 4 = c) ∧
    admits (ring4 4 1 (rcfg 5 2) landing3) 2 = false ∧
    (let s := asked4 false none (ring4 4 1 (rcfg 5 3) landing3)
     admits s 3 = true ∧ ringConn s 4 = 5 ∧ connAborted s 3 5 = false ∧ s.rx = [] ∧ s.ecc = [] ∧ (s.cx 3).residents[0]? = some 1 ∧
      (takeEntry s 3 { conn := 5, op := entryWord inline4 0, tag := 0, key := 0 }).2 = s ∧
      ((takeEntry s 3 { conn := 5, op := entryWord inline4 0, tag := 0, key := 0 }).1).map
        (fun e => (e.1, bitsOf (lineWord e.2 7) 7 0, bitsOf (lineWord e.2 5) 12 0, bitsOf (lineWord e.2 3) 63 56, bitsOf (lineWord e.2 3) 55 48)) =
        some (0x80009, 0, 64, 1, 0) ∧ entryWord inline4 0 = 1 ∧ entryLen inline4 = 4) := by
  and_intros <;> decide +kernel

/-- A teardown of PASID 9 is under way, and waits for a context. -/
def tearing (c : Nat) : State := { withWords live3 [(pasidStat, 2 ^ 63 + 9)] with pasidCtx := [c] }

theorem test_hyp_pasid : (BitVec.ofNat 64 (2 ^ 63 + 9)).getLsbD 63 = true ∧ bitsOf (rdN (ring4 4 0 (rcfg 5 3) live3).mem pasidStat 8) 63 63 = 0 ∧
    ringPasid (ring4 4 0 (rcfg 5 3) live3) 4 = (2 ^ 63 + 9) % 2 ^ 20 ∧ ringReg (ring4 4 0 (rcfg 5 3) live3) 4 4 ≠ 0 ∧
    ctxState (ring4 4 0 (rcfg 5 3) live3) 3 = 1 ∧
    (let s := { tearing 4 with hostReads := [⟨4, 9, [7], 0, false, none, true⟩] }
     (∃ q ∈ s.hostReads, q.trans = false ∧ q.pasid = 9 ∧ ∃ g ∈ q.pages, 7 ≤ g ∧ g ≤ 8) ∧
      (∃ q ∈ s.hostReads, q.pasid = rdN s.mem pasidStat 8 % 2 ^ 20 ∧ s.ns < q.since + 10_000_000) ∧
      ∀ q ∈ s.hostReads, q.pasid = rdN s.mem pasidStat 8 % 2 ^ 20 → q.since + 10_000_000 ≤ ({ s with time := 21 * 10_000_000 } : State).ns) ∧
    (∀ q ∈ (tearing 4).hostReads, ¬(q.trans = false ∧ q.pasid = 9 ∧ ∃ g ∈ q.pages, 7 ≤ g ∧ g ≤ 8)) ∧ (0 : Word).getLsbD 63 = false ∧ bitsOf (rdN (tearing 3).mem pasidStat 8) 63 63 = 1 ∧
    (∀ c ∈ (tearing 4).pasidCtx, ctxState (tearing 4) c = 0) ∧ (∃ c ∈ (tearing 3).pasidCtx, ctxState (tearing 3) c ≠ 0 ∧ ctxState (tearing 3) c ≠ 4) := by
  and_intros <;> decide +kernel

/-! ### Work items, teams and migrations -/

/-- A work item of context 3 and queue 0, with words 4 and 5. -/
def item3 (w4 w5 : Nat) : BitVec 512 := BitVec.ofNat 512 (3 * 2 ^ 48 + w4 * 2 ^ 256 + w5 * 2 ^ 320)
/-- It has completed with status 0; context 3 has a handler for callbacks, and its address 0x40 lies on die 0. -/
def over3 (w4 w5 : Nat) : State :=
  let s := withWords { live3 with ended := [(item3 w4 w5, 0)] } [(cwinKey 3 0x1800_0018, 0x100)]
  s.putDi 0 { s.di 0 with tlb := [{ ctx := 3, unit := 0, base := 0, rights := 7 }] }

theorem test_hyp_workItems : (∀ e ∈ [(0, 0), (0x200, 0), (0, 0x40)], (over3 e.1 e.2).ended[0]? = some (item3 e.1 e.2, 0) ∧ itemCtx (item3 e.1 e.2) = 3 ∧
      admits (over3 e.1 e.2) 3 = true ∧ itemWord (item3 e.1 e.2) 5 = e.2) ∧
    admits { State.reset with ended := [(item3 0 0, 0)] } 3 = false ∧ wantsCallback (item3 0 0) 0 = false ∧ wantsCallback (item3 0x200 0) 0 = true ∧
    handlerEntry (over3 0x200 0) 3 3 ≠ 0#64 ∧ eventRoom (over3 0x200 0) 3 3 = true ∧ wantsCallback (item3 0 0x40) 0 = false ∧
    (over3 0 0x40).ecc = [] ∧ resolve (over3 0 0x40) 0xFFFF 3 0x40 2 = .ok 0x40 ∧ isDevice 0x40 = false ∧
    isObjHome (over3 0 0x40) 0x40 = false ∧
    (let w := item3 0 0x40 ||| BitVec.ofNat 512 (2 ^ 20 + 7)
     let s := { over3 0 0x40 with ended := [(w, 0)], allots := [⟨3, .milestone, 0, 16⟩] }
     itemCms w = some 7 ∧ allotted s 3 .milestone 7 = true ∧
      ¬(rdN s.mem (msKey 7) 8 < rdN s.mem (msKey 7 + 8) 8 ∧ rdN s.mem (msKey 7 + 8) 8 ≤ (rdN s.mem (msKey 7) 8 + 1) % 2 ^ 64)) := by
  and_intros <;> decide +kernel

/-- A kernel at 0x400 that uses class 0. -/
def kernel0 : BitVec 1024 := BitVec.ofNat 1024 (0x400 + 2 ^ 128)
/-- A work item with a DEADLINE. -/
def due (n : Nat) : BitVec 512 := BitVec.ofNat 512 (3 * 2 ^ 48 + n * 2 ^ 192)
/-- Die 0 has core 0 in its map, queue 0 is context 3's, and the pool holds one item, whose kernel has been read. -/
def pool3 (w : BitVec 512) : State :=
  let s := withWords live3 [(queueKey 0 0, 2 ^ 63 + 3 * 2 ^ 54 + 1)]
  let s := s.upCo 0 Core.ready
  let s := s.putDi 0 { s.di 0 with lcm := [(0, 0x200)] }
  { s with pool := [{ item := w, reserved := false, head := some ⟨0, kernel0⟩ }], ran := [0], time := 21 * 50 }

theorem test_hyp_pool : ∀ w, (pool3 w).pool = [{ item := w, reserved := false, head := some ⟨0, kernel0⟩ }] ∧ (pool3 w).spills = [] :=
  fun _ => ⟨rfl, rfl⟩

theorem test_hyp_dispatch : (∀ n ∈ [7, 0], itemQueue (due n) = 0 ∧ itemCtx (due n) = 3 ∧ ctxLive (pool3 (due n)) 3 = true) ∧
    itemLate (pool3 (due 7)) (due 7) = true ∧ itemLate (pool3 (due 0)) (due 0) = false ∧ neverFits (pool3 (due 0)) (due 0) (kdUse kernel0) = false ∧
    queueBlocked (pool3 (due 0)) 0 = false ∧ placeItem (pool3 (due 0)) 0 (due 0) (kdUse kernel0) = some [(0, [0])] ∧ itemTeams (due 0) = 1 ∧
    0 ∈ (pool3 (due 0)).ran := by
  and_intros <;> decide +kernel

/-- Team 5 of context 3, whose one task has run on core 0; die 0 maps core 0 and the save slots of context 3, and has one slot for it. -/
def team3 (x : Team) (r : Run) (nsave time : Nat) : State :=
  let s := withWords { live3 with cur := 5, time := 21 * time } [(ctxKey 3 4, nsave * 2 ^ 48)]
  let s := s.putDi 0 { s.di 0 with lcm := [(0, 0x200)], tlb := (List.range 128).map fun i => { ctx := 3, unit := i, base := 65536 * i, rights := 7 } }
  let s := (s.upCo 0 fun y => { y.ready with task := if x.suspended.isSome then none else some ⟨5, 0⟩ }).putTm 5 { x with ctx := 3 }
  s.putSc 0 { s.sc 0 with run := r, ctx := 3 }

theorem test_hyp_teamMoves :
    (∀ time ∈ [20_000, 20_001], ((team3 { team0 with suspended := some 0 } .idle 1 time).tm 5).map (fun x => (x.caravan, x.suspended, x.resen)) =
      some (none, some 0, false)) ∧
    (qualify (team3 { team0 with suspended := some 0 } .idle 1 20_001) false 1 1 0).isSome = true ∧
    (team3 { team0 with suspended := some 0 } .idle 1 20_000).ns = 20_000 ∧
    ((team3 { team0 with yield := some 0 } .running 1 50_000).tm 5).map (·.yield) = some (some 0) ∧
    preemptNs (team3 { team0 with yield := some 0 } .running 1 50_000) 3 = 50_000 ∧
    ((team3 { team0 with yield := some 0 } .running 1 50_000).sc 0).run = .running ∧
    (team3 { team0 with yield := some 0 } .running 1 49_999).ns < 0 + preemptNs (team3 { team0 with yield := some 0 } .running 1 49_999) 3 := by
  and_intros <;> decide +kernel

/-- A team whose save is under way. -/
def saving0 : Team := { team0 with saving := some 0 }

theorem test_hyp_saves : ctxLive (team3 saving0 (.waiting (.yield 0x40)) 1 0) 3 = true ∧
    mayBegin (team3 { team0 with yield := some 0 } .suspended 1 0) { team0 with yield := some 0, ctx := 3 } = true ∧
    (∀ s ∈ [team3 saving0 (.waiting (.yield 0x40)) 1 0, team3 saving0 (.waiting (.yield 0x40)) 0 0], s.tm s.cur = some { saving0 with ctx := 3 } ∧
      teamQuiet s { saving0 with ctx := 3 } = true ∧ teamDrained s { saving0 with ctx := 3 } = true ∧ groupHopeless s [s.cur] = false) ∧
    groupHopeless (team3 { saving0 with resen := true, refit := true } .suspended 1 0) [5] = true ∧
    (freeSaves (team3 saving0 (.waiting (.yield 0x40)) 0 0) 3).length < ({ saving0 with ctx := 3 } : Team).live.length ∧ saving0.refit = false ∧
    (let s := team3 { saving0 with refit := true } (.waiting (.yield 0x40)) 0 0
     s.tm s.cur = some { saving0 with ctx := 3, refit := true } ∧ groupHopeless s [s.cur] = false ∧
      (freeSaves s 3).length < ({ saving0 with ctx := 3, refit := true } : Team).live.length) ∧
    ({ saving0 with ctx := 3 } : Team).live.length + 0 ≤ (freeSaves (team3 saving0 (.waiting (.yield 0x40)) 1 0) 3).length := by
  and_intros <;> decide +kernel

theorem test_hyp_saveGroup : (saveGroup 3 [5] (team3 saving0 (.waiting (.yield 0x40)) 1 0)).toOption.isSome = true := by decide +kernel

/-- A task that has been saved in slot 0, and its team. -/
def kept0 : Kept := { lcore := 0, wd := 0, ckpt := none, rolls := 0, trigs := [], undone := [], rolling := false, rerun := [], ph := [], fences := [], flights := [] }
def asleep0 : Team := { team0 with suspended := some 0, slots := [(0, 0)], kept := [kept0], kdesc := kernel0 }
/-- Its image is VALID. -/
def asleep3 : State := withWords (team3 asleep0 .idle 1 0) [(0, 2 ^ 63)]

theorem test_hyp_restores : asleep3.tm asleep3.cur = some { asleep0 with ctx := 3 } ∧ ctxLive asleep3 3 = true ∧
    yieldWaits asleep3 { asleep0 with ctx := 3 } = false ∧ placeTeams asleep3 [{ asleep0 with ctx := 3 }] [] = some [(0, [0])] ∧
    ((readImages 3 { asleep0 with ctx := 3 } [(0, 0)] asleep3).toOption).map (fun l => l.1.map fun e => (e.1.lcore, imageValid e.2)) = some [(0, true)] ∧
    (let s := asleep3.upCo 0 fun x => { x with svc := .held }
     s.tm s.cur = some { asleep0 with ctx := 3 } ∧ placeTeams s [{ asleep0 with ctx := 3 }] [] = none ∧ groupHopeless s [5] = false) ∧
    groupHopeless asleep3 [5] = false ∧ ((readImages 3 { asleep0 with ctx := 3 } [(0, 0)] asleep3).toOption).map (fun l => decide (l.2 = asleep3)) = some true ∧
    groupHopeless (team3 { asleep0 with resen := true, refit := true } .idle 1 0) [5] = true := by
  and_intros <;> decide +kernel

/-- Die 0 has a range of one unit of context 3 at 0x20_0000, and a request to move it to 0x30_0000 in a state of BUSY, FAIL and DONE. -/
def moving (flags : Nat) (new : Nat) : State :=
  withWords { live3 with cur := 0, acts := [.migrate 0] } [(ctlKey 0 48, 2 ^ 63 + 0x4000), (0x4000, 2 ^ 63 + 1), (0x4020, 2 ^ 63 + 7 * 2 ^ 60 + 0x20_0000),
    (0x4028, 0x20_0000), (0x4030, 0x10_0000), (migKey 0 0, flags * 2 ^ 60 + 0x20_0000), (migKey 0 1, 3 * 2 ^ 48 + 0x1_0000), (migKey 0 2, new)]

theorem test_hyp_migrations : (moving 0 0x30_0000).acts = [] ++ .migrate 0 :: [] ∧ migBusy (moving 4 0x30_0000) 0 = true ∧ migBusy (moving 0 0x30_0000) 0 = false ∧
    (0x8000_0000_0020_0000#64 : Word).getLsbD 63 = true ∧ (moving 4 0x30_0001).acts = [] ++ .migrate 0 :: [] ∧
    migOk (moving 4 0x30_0001) 0 = none ∧ migBusy (moving 4 0x30_0001) 0 = true ∧
    migOk (moving 4 0x30_0000) 0 = some [{ old := 0x10_0000, new := 0x30_0000, n := 0x1_0000, slot := 0x4030, word := 0x30_0000 }] ∧
    memOk (moving 4 0x30_0000) ∧ (0x4030 : Nat) + 8 ≤ 0x30_0000 ∧
    (let s := (moving 4 0x30_0000).putSc 4096 { Scalar.reset with ctx := 3, run := .waiting (.waita 1 (physKey 0 0x10_0040) false) }
     (s.sc 4096).run = .waiting (.waita 1 (physKey 0 0x10_0040) false) ∧ physKey 0 0x10_0000 ≤ physKey 0 0x10_0040 ∧
      physKey 0 0x10_0040 < physKey 0 0x10_0000 + 0x1_0000) := by
  unfold memOk; and_intros <;> decide +kernel

/-! ### Contexts -/

/-- Context 3's entry has a STATE, HMIN h and n resident cores; its list at 0x40 names cores 1 and 2, which are in service; a CREATE store waits. -/
def creating (st h n : Nat) : State :=
  let s := withWords { State.reset with acts := [.ctxCreate 3] } [(ctxKey 3 0, st * 2 ^ 61), (ctxKey 3 2, 4096), (ctxKey 3 6, h * 2 ^ 53 + 2 ^ 42),
    (ctxKey 3 7, 0x40), (ctxKey 3 8, n), (0x40, 1 + 2 * 2 ^ 16)]
  let s := (s.upCo 1 Core.ready).upCo 2 Core.ready
  s.putDi 0 { s.di 0 with tlb := [{ ctx := 0, unit := 0, base := 0, rights := 7 }] }

theorem test_hyp_creation : (creating 1 1 0).acts = [] ++ .ctxCreate 3 :: [] ∧ ctxState (creating 1 1 0) 3 ≠ 0 ∧ ctxState (creating 0 0 0) 3 = 0 ∧
    createOk (creating 0 0 0) 3 = false ∧ createOk (creating 0 1 0) 3 = true ∧ nres (creating 0 1 0) 3 = 0 ∧ createOk (creating 0 1 2) 3 = true ∧
    resList { creating 0 1 2 with acts := [] } 3 = some ([1, 2], { creating 0 1 2 with acts := [] }) ∧
    (∀ p ∈ [1, 2], mayReside (creating 0 1 2) p = true) ∧ [1, 2].Nodup := by
  and_intros <;> decide +kernel

/-- A fault of context 3. -/
def fault3 : FaultRec :=
  { ctx := 3, typ := 0, phys := 0, lcore := 0, cause := 0x22, detail := 0, pos := 0, stat := 0, val := 0, aux := 0, idx := 0, tstop := 0, out := 0 }
/-- Context 3 has a STATE, and faults are on their way; its report is to stand at 0x40. -/
def halted3 (st : Nat) (fs : List FaultRec) : State :=
  let s := withWords { State.reset with cur := 3, faults := fs } [(ctxKey 3 0, st * 2 ^ 61), (ctxKey 3 1, 0x40)]
  s.putDi 0 { s.di 0 with tlb := [{ ctx := 3, unit := 0, base := 0, rights := 7 }] }

theorem test_hyp_halts : (halted3 1 []).cur = 3 ∧ (halted3 1 []).faults = [] ∧ (∀ st ∈ [0, 1, 2], (halted3 st [fault3]).faults = [fault3] ∧
      ctxState (halted3 st [fault3]) 3 = st) ∧ fault3.ctx.toNat = 3 ∧ ((halted3 2 []).cx 3).reported = false ∧ ctxState (halted3 1 []) 3 ≠ 2 ∧
    ((halted3 2 []).cx 3).first = none ∧ ((halted3 2 []).cx 3).records = [] ∧ (halted3 2 []).ecc = [] ∧ ctxWord (halted3 2 []) 3 1 % 64 = 0 ∧
    resolve (halted3 2 []) 0xFFFF 3 (ctxWord (halted3 2 []) 3 1) 2 = .ok 0x40 ∧ isDevice 0x40 = false ∧
    isObjHome (halted3 2 []) 0x40 = false ∧ gateOpen (halted3 2 []) 3 = true := by
  and_intros <;> decide +kernel

/-- Core 0 runs a task, with TWD 7 or none, at a time. -/
def watched (twd time : Nat) : State := { withWords (inTeam core0 team0) [(ctxKey 0 4, twd)] with time := 21 * time }
/-- A team whose save began at 0, at a time; its context has SWD 500 μs. -/
def saveLate (time : Nat) : State :=
  let s := ({ State.reset with cur := 5, time := 21 * time }.putTm 5 { team0 with saving := some 0 })
  s.upCo 0 fun x => { x with task := some ⟨5, 0⟩ }

theorem test_hyp_watchdogs : (∀ e ∈ [(7, 7001), (7, 7000), (0, 7001)], isCore (watched e.1 e.2).cur = true ∧ (stream (watched e.1 e.2)).run = .running ∧
      ((watched e.1 e.2).co (watched e.1 e.2).cur).task.isSome = true ∧ e.1 = ctxWord (watched e.1 e.2) (stream (watched e.1 e.2)).ctx.toNat 4 % 2 ^ 32 ∧
      (watched e.1 e.2).ns - (stream (watched e.1 e.2)).wd / 21 = e.2) ∧
    (saveLate 500_001).tm (saveLate 500_001).cur = some { team0 with saving := some 0 } ∧ saveSince { team0 with saving := some 0 } = some 0 ∧
    (liveCores { team0 with saving := some 0 }).head? = some (0, 0) ∧ swdUs (saveLate 500_001) 0 * 1000 < (saveLate 500_001).ns - 0 ∧
    (saveLate 500_000).ns - 0 ≤ swdUs (saveLate 500_000) 0 * 1000 := by
  and_intros <;> decide +kernel

/-- A halted context to be killed whose report is written. -/
def doomed3 : State := (halted3 2 []).putCx 3 { (halted3 2 []).cx 3 with killing := true, reported := true }

theorem test_hyp_kills : (∀ st ∈ [0, 1, 2, 3, 4], ({ halted3 st [] with acts := [.ctxKill 3] } : State).acts = [] ++ .ctxKill 3 :: [] ∧
      ctxState { halted3 st [] with acts := [.ctxKill 3] } 3 = st ∧ (halted3 st []).cur = 3 ∧ ctxState (halted3 st []) 3 = st) ∧ doomed3.cur = 3 ∧
    doomed3.acts = [] ∧ ctxState doomed3 3 = 2 ∧ (doomed3.cx 3).killing = true ∧ (doomed3.cx 3).reported = true ∧
    ((halted3 2 []).cx 3).killing = false ∧ ctxConvs doomed3 3 = [] ∧ noticeUnsent doomed3 3 = false ∧
    (let s := { doomed3.putCx 3 { doomed3.cx 3 with told := true } with tx := [{ tx0 0 with pkt := { (tx0 0).pkt with op := 9 }, sent := false }] }
     (s.cx 3).told = true ∧ noticeUnsent s 3 = true ∧ ctxState s 3 = 2) ∧
    ctxDrained (halted3 3 []) 3 = true ∧
    (let s := (halted3 3 []).putSc 1 { Scalar.reset with ctx := 3, wb := [{ ctx := 3, tag := 1, data := 0, mask := 1 }] }
     ctxState s 3 = 3 ∧ ctxDrained s 3 = false) := by
  and_intros <;> decide +kernel

/-! ### Service, scrubbing and firmware -/

/-- Core 0 in a service state. -/
def svcState (v : Svc) (zeroing claim : Bool) : State :=
  let s := ({ State.reset with cur := 0 } : State)
  s.upCo 0 fun x => { x with svc := v, zeroing := zeroing, preClaim := claim, scanSeg := 7 }

theorem test_hyp_serviceCommands : (∀ v ∈ [Svc.service, .held, .spare], (svcState v false false).cur = 0 ∧ ((svcState v false false).co 0).svc = v ∧
      ((svcState v false false).co 0).zeroing = false ∧ residentBusy (svcState v false false) 0 = false ∧ mapped (svcState v false false) 0 = false ∧
      ((svcState v false false).co 0).capmask = 0#64 ∧ ((svcState v false false).co 0).preClaim = false) ∧
    ((svcState .retired false true).co 0).svc = .retired ∧ ((svcState .retired false true).co 0).preClaim = true ∧
    ((svcState .retired false false).co 0).svc = .retired ∧ ((svcState .retired false false).co 0).preClaim = false := by
  and_intros <;> decide +kernel

theorem test_hyp_serviceTransitions : ((svcState .draining false false).co 0).svc = .draining ∧ ((svcState .draining false false).co 0).task = none ∧
    ((svcState .held false false).co 0).svc ≠ .draining ∧ ((svcState .held true false).co 0).zeroing = true ∧
    ((svcState .held false false).co 0).zeroing = false ∧ ((svcState .held false false).co 0).svc ≠ .scanning ∧
    ((svcState .scanning false false).co 0).svc = .scanning ∧ ((svcState .scanning false false).co 0).scanSeg = 7#4 ∧ holdsGrant (svcState .scanning false false) 0 = false ∧
    (let s := (svcState .scanning false false).upCo 0 fun x => { x with scanSeg := 6 }
     (s.co 0).svc = .scanning ∧ (s.co 0).scanSeg = 6#4 ∧ holdsGrant s 0 = false ∧ holdsGrant (s.putQd 0 { s.qd 0 with grant := some 0 }) 0 = true) ∧
    ((svcState .scanning false false).upCo 0 fun x => { x with scanSeg := 0 }).cur = 0 ∧
    (((svcState .scanning false false).upCo 0 fun x => { x with scanSeg := 0 }).co 0).scanSeg ≠ 7#4 := by
  and_intros <;> decide +kernel

/-- A die. -/
def dieState (d : Nat) (f : Die → Die) : State := { State.reset.putDi d (f (State.reset.di d)) with cur := d }
/-- Every tile die is up, and the stacks below n run at full speed. -/
def upState (n d : Nat) : State :=
  (List.range 8).foldl (fun s i => (s.upCo (288 * i) Core.ready).putDi i { s.di i with lcm := [(0, 0x200)], started := true, hbmFull := decide (i < n) })
    { State.reset with cur := d }

theorem test_hyp_scrubbing :
    (let s := dieState 0 fun x => { x with started := true }
     s.cur = 0 ∧ (s.di 0).started = true ∧ (s.di 0).scrubbed = [] ∧ (s.di 0).scrubAgain = [] ∧ (s.di 0).scrubcfg.getLsbD 63 = true ∧ s.ecc = []) ∧
    (let s := dieState 0 fun x => { x with started := true, scrubcfg := 0 }
     (s.di 0).started = true ∧ (s.di 0).scrubbed = [] ∧ (s.di 0).scrubAgain = [] ∧ (s.di 0).scrubcfg.getLsbD 63 = false) ∧
    (let s := dieState 0 fun x => { x with started := true, scrubbed := [(0x40, false), (0x80, true)] }
     (s.di 0).started = true ∧ (s.di 0).scrubbed ≠ []) ∧
    ((dieState 0 id).di 0).started = false ∧ isCore (svcState .held false false).cur = true ∧ ((svcState .draining false false).co 0).svc = .draining ∧
    allUp (upState 7 7) = true ∧ ((upState 7 7).di 7).hbmFull = false ∧ (∀ k, k < 7 → ((upState 7 7).di k).hbmFull = true) ∧
    allUp (upState 0 7) = true ∧ ((upState 0 7).di 7).hbmFull = false ∧ ((upState 0 7).di 0).hbmFull = false ∧ allUp State.reset = false := by
  and_intros <;> decide +kernel

/-- Die 8's firmware core, busy or free, has a routine of number 2, and a request for a number waits. -/
def routine8 (busy : Bool) (num hb time : Nat) : State :=
  let s := dieState 8 fun x => { x with started := true, busy := busy, routines := [(2, 0x200)], hbtime := hb }
  { withWords s [(routineKey 8, if busy then 2 ^ 62 else 0)] with acts := [.routine 8 num 0], leadHeld := true, leadExp := 20_000_000, time := 21 * time }

theorem test_hyp_routines : (∀ e ∈ [(true, 2), (false, 2), (false, 3)], (routine8 e.1 e.2 0 0).acts = [] ++ .routine 8 e.2 0 :: [] ∧
      ((routine8 e.1 e.2 0 0).di 8).busy = e.1 ∧ ((routine8 e.1 e.2 0 0).di 8).started = true ∧
      bitsOf (rdN (routine8 e.1 e.2 0 0).mem (routineKey 8) 8) 62 62 = (if e.1 then 1 else 0)) ∧ (0x8000_0000_0000_0002 : Word).getLsbD 63 = true ∧
    ((routine8 false 2 0 0).di 8).routines.find? (fun x => x.1 == 2) = some (2, 0x200) ∧ (∃ e ∈ ((routine8 false 2 0 0).di 8).routines, e.1 = 2) ∧
    (∀ e ∈ ((routine8 false 3 0 0).di 8).routines, e.1 ≠ 3) ∧ (routine8 true 2 0 10_000_001).cur = 8 ∧ (routine8 true 2 0 10_000_001).leadHeld = true ∧
    (routine8 true 2 0 10_000_001).ns ≤ (routine8 true 2 0 10_000_001).leadExp.toNat ∧
    ((routine8 true 2 0 10_000_001).di 8).hbtime + 10_000_000 < (routine8 true 2 0 10_000_001).ns ∧
    (routine8 true 2 0 10_000_000).ns ≤ ((routine8 true 2 0 10_000_000).di 8).hbtime + 10_000_000 := by
  and_intros <;> decide +kernel
/-! ### Bring-up, tables and conversation objects -/

/-- The public key of the private key 1 is P-256's base point; this image without code carries its signature with the secret number 1. -/
def image0 : Image :=
  { keyX := 0x6B17D1F2_E12C4247_F8BCE6E5_63A440F2_77037D81_2DEB33A0_F4A13945_D898C296,
    keyY := 0x4FE342E2_FE1A7F9B_8EE7EB4A_7C0F9E16_2BCE3357_6B315ECE_CBB64068_37BF51F5,
    sigR := 0x6B17D1F2_E12C4247_F8BCE6E5_63A440F2_77037D81_2DEB33A0_F4A13945_D898C296,
    sigS := 0x0181FAC7_31424575_DB37FF46_42EEDC09_70DC8AAD_FD867A15_4F5C9565_F87E32E0, release := 5, code := [], routines := [] }
/-- Another image with that signature. -/
def forged : Image := { image0 with release := 6 }
/-- The die's fuses hold the digest of that key, and the lowest release. -/
def fused (low : Word) : State :=
  { State.reset with fuseKey := some 0xD875DB7D_EF232236_AEC738C6_B0BB3E80_142F5D0F_D8F4DF24_FED6EEF5_CBB50D9F, fuseMin := some low }

theorem test_hyp_images : imageOk (fused 5) image0 = true ∧ imageOk (fused 5) forged = false ∧ imageOk (fused 6) image0 = false := by
  and_intros <;> decide +kernel

theorem test_hyp_reset : State.reset.inReset = true ∧ State.reset.tripped = false ∧ (1#2).toNat < 2 ∧ 2 ≤ (2#2).toNat ∧
    ({ State.reset with inReset := false } : State).inReset = false ∧ (1 : Word).getLsbD 0 = true ∧ (0 : Word).getLsbD 0 = false := by
  and_intros <;> decide +kernel

/-- The Crossroads die has started, tile die 0 has or has not, and tile die 1 is the subject. -/
def bringing (first n : Option Nat) (groups : BitVec 9) (time : Nat) : State :=
  let s := State.reset.putDi 8 { State.reset.di 8 with startAt := some 0 }
  let s := s.putDi 0 { s.di 0 with startAt := first }
  { s.putDi 1 { s.di 1 with startAt := n, started := n.isSome, groups := groups } with cur := 1, time := 21 * time }

theorem test_hyp_dies : (∀ e ∈ [(none, none, 250_000), (some 0, none, 249_999), (some 0, none, 250_000), (some 0, some 0, 250_000)],
      (bringing e.1 e.2.1 0 e.2.2).cur = 1 ∧ ((bringing e.1 e.2.1 0 e.2.2).di 8).startAt = some 0) ∧
    (∃ e, e < 1 ∧ ((bringing none none 0 250_000).di e).startAt = none) ∧ (∀ e, e < 1 → ((bringing (some 0) none 0 250_000).di e).startAt ≠ none) ∧
    (bringing (some 0) none 0 249_999).ns < 0 + 250_000 * 1 ∧ 0 + 250_000 * 1 ≤ (bringing (some 0) none 0 250_000).ns ∧
    ((bringing (some 0) none 0 250_000).di 1).startAt = none ∧ ((bringing none (some 0) 3 40_000).di 1).startAt = some 0 ∧
    ((bringing none (some 0) 3 40_000).di 1).started = true ∧ ((bringing none (some 0) 3 40_000).di 1).groups.getLsbD 2 = false ∧
    (∀ j, j < 2 → ((bringing none (some 0) 3 40_000).di 1).groups.getLsbD j = true) ∧ 0 + 20_000 * 2 ≤ (bringing none (some 0) 3 40_000).ns ∧
    (bringing none (some 0) 3 39_999).ns < 0 + 20_000 * 2 ∧ ((bringing none (some 0) 4 40_000).di 1).groups.getLsbD 2 = true ∧
    (∃ j, j < 2 ∧ ((bringing none (some 0) 1 40_000).di 1).groups.getLsbD j = false) := by
  and_intros <;> decide +kernel

/-- A tree of one node, in the table of the live context 3; its FORMAT is float32, or none. -/
def loading (fmt : Nat) : State :=
  withWords { live3 with acts := [.tree 3 2, .timeslot 3 1, .collective 3 0, .itinerary 4] }
    [(treeKey 3 2 0, 2 ^ 63 + fmt * 2 ^ 48), (treeKey 3 2 1, 1000 * 2 ^ 32 + 64), (treeKey 3 2 8, 3 * 2 ^ 16)]
/-- A time-slot table of one source over a line at base b. -/
def slotting (b : Nat) : State :=
  withWords { live3 with acts := [.timeslot 3 1] } [(slotKey 3 1 0, 2 ^ 63 + b), (slotKey 3 1 1, 64 * 2 ^ 32 + 1000), (slotKey 3 1 2, 2 ^ 44),
    (slotKey 3 1 8, 5)]

theorem test_hyp_tables : ({ loading 1 with acts := [.tree 3 2] } : State).acts = [] ++ .tree 3 2 :: [] ∧ treeOk (treeEntry (loading 1) 3 2) = true ∧
    treeOk (treeEntry (loading 7) 3 2) = false ∧ (slotting 0x40).acts = [] ++ .timeslot 3 1 :: [] ∧
    slotOk (clearSlots { slotting 0x40 with acts := [] } 3 1) 3 1 = true ∧ slotOk (clearSlots { slotting 0x41 with acts := [] } 3 1) 3 1 = false ∧
    (slotTab (slotting 0x40) 3 1).lines = [] ∧ delivering (loading 1) = false := by
  and_intros <;> decide +kernel

/-- Itinerary 4 has one transition: role 0 sends to role 1 a message of kind 1, and state 0 follows; its USE is given. -/
def itin4 (use kind : Nat) : State :=
  withWords { live3 with acts := [.itinerary 4] } [(itinKey 4 0, 2 ^ 63 + 2 * 2 ^ 16 + 1), (itinKey 4 1, use),
    (itinKey 4 8, 2 ^ 31 + 2 ^ 20 + kind * 2 ^ 12)]
/-- Object 9 of context 3: LIFE, whether it is a proxy, ITIN 4, and roles 0 and 1 assigned to queue 0, which is context 3's. -/
def conv9 (life : Nat) (proxy : Bool) : State :=
  let s := withWords { live3 with itins := [(4, ⟨2, [[2 ^ 31 + 2 ^ 20 + 2 ^ 12]]⟩)], allots := [⟨3, .itinerary, 0, 8⟩, ⟨3, .conversation, 0, 16⟩, ⟨3, .milestone, 0, 8⟩] }
    [(convKey 9 0, life * 2 ^ 60 + 3 * 2 ^ 54 + 4 * 2 ^ 40), (convKey 9 1, if proxy then 2 ^ 63 + 5 else 0), (convKey 9 4, 2 ^ 63), (convKey 9 5, 2 ^ 63),
     (itinKey 4 0, 2 ^ 63 + 2 * 2 ^ 16 + 1), (queueKey 0 0, 2 ^ 63 + 3 * 2 ^ 54 + 1)]
  s.putCx 3 (s.cx 3)

theorem test_hyp_itineraries : (itin4 0 1).acts = [] ++ .itinerary 4 :: [] ∧ rdN (itin4 3 1).mem (itinKey 4 1) 8 % 2 ^ 32 ≠ 0 ∧
    rdN (itin4 0 1).mem (itinKey 4 1) 8 % 2 ^ 32 = 0 ∧ itinOk (itin4 0 1) 4 = true ∧ itinOk (itin4 0 0) 4 = false := by
  and_intros <;> decide +kernel

/-- A command to object 9 that has arrived: 14 to kill, 15 to open, 16 to free. -/
def told9 (op : Nat) (s : State) : State := { s with cur := 9, convIn := [commandItem s (op, 9)] }

theorem test_hyp_commands : (∀ op ∈ [14, 15, 16], ∀ s ∈ [conv9 0 false, conv9 1 true, conv9 2 false, conv9 3 false],
      takeCommand (told9 op s) 9 op = some { told9 op s with convIn := [] } ∧ takeCommand { s with cur := 9 } 9 op = none) ∧
    takeCommand (told9 15 (conv9 1 false)) 9 15 = some { told9 15 (conv9 1 false) with convIn := [] } := by
  and_intros <;> decide +kernel

theorem test_hyp_opening : convLife (conv9 1 false) 9 ≠ 0 ∧
    convLife (conv9 0 false) 9 = 0 ∧ opens (conv9 0 false) 9 = true ∧ convProxy (conv9 0 false) 9 = false ∧ opens (conv9 0 true) 9 = true ∧
    convLife (conv9 0 true) 9 = 0 ∧ convProxy (conv9 0 true) 9 = true ∧ opens { conv9 0 false with itins := [] } 9 = false ∧
    convLife { conv9 0 false with itins := [] } 9 = 0 := by
  and_intros <;> decide +kernel

theorem test_hyp_ends : convLife (conv9 3 false) 9 = 3 ∧
    convLife (conv9 2 false) 9 = 2 ∧ convProxy (conv9 2 false) 9 = false ∧ (convRun (conv9 2 false) 9).binds = [] ∧ convCtx (conv9 2 false) 9 = 3 ∧
    collIn (conv9 2 false) 3 1 = [] ∧ (conv9 2 false).flags = [] ∧ convLife (conv9 1 true) 9 = 1 ∧ convProxy (conv9 1 true) 9 = true ∧
    convHconn (conv9 1 true) 9 = 5 ∧ connStatus (conv9 1 true) 3 5 1 = 0 ∧ (conv9 1 true).tx = [] ∧
    connStatus (withWords (conv9 1 true) [(connKey 3 5 6, 2)]) 3 5 1 = 1 ∧ convLife (withWords (conv9 1 true) [(connKey 3 5 6, 2)]) 9 = 1 ∧
    convUnplaced (conv9 2 false) 9 = false ∧ convUnplaced { conv9 2 false with places := [⟨9, 1, 7, 0, 0, false⟩] } 9 = true ∧ convLife (conv9 1 false) 9 < 2 := by
  and_intros <;> decide +kernel

theorem test_hyp_collectives :
    (let s := withWords { conv9 1 false with acts := [.collective 3 0] } [(cwinKey 3 0x1B30_0000, 2 ^ 63 + 9), (cwinKey 3 0x1B30_0008, 0x40),
      (cwinKey 3 0x1B30_0010, 7)]
     s.acts = [] ++ .collective 3 0 :: [] ∧ holdsRole s 3 (collWord s 3 0 0 % 65536) = true ∧ collWord s 3 0 1 % 8 = 0 ∧
      allotted s 3 .milestone (collWord s 3 0 2 % 2 ^ 20) = true) ∧
    holdsRole { live3 with acts := [.collective 3 0] } 3 (collWord live3 3 0 0 % 65536) = false := by
  and_intros <;> decide +kernel

/-- Table 1 of context 3 has three sources; its line at 0 holds contributions, and a time in ns has passed. -/
def held0 (src : Nat) : Held := { src := src, ea := 0x40, n := 4, v := 1, fmt := 1, op := 0, ref := none, msg := none, total := 4, fin := true }
def slotWait (h : List Held) (time : Nat) : State :=
  { live3 with cur := 3 * 64 + 1, time := 21 * time,
               slots := [(3 * 64 + 1, { base := 0x40, len := 64, tmo := 1000, srcs := [5, 6, 7], lines := [(0, { turn := 0, since := 0, skipped := [], held := h })] })] }
/-- The entry of tree 2: node 0 the root, node 1 its child, TMO 1,000. -/
def entry2 : List Nat := [2 ^ 63 + 2 ^ 48, 1000 * 2 ^ 32 + 64, 0, 0, 0, 0, 0, 0, 2 ^ 48 + 3 * 2 ^ 16]
/-- Tree 2 of context 3, bound to a team of cores 1 and 2; a node's inputs, and a time. -/
def nodeWait (j : Nat) (v : NodeRun) (time : Nat) : State :=
  (putTree { live3 with cur := 3 * 1024 + 2, time := 21 * time } 3 2
    { loaded := true, entry := entry2, team := some 5, nodes := [(j, v)] }).putTm 5 { team0 with ctx := 3, size := 2, cores := [1, 2] }
/-- Nodes that have had an input: of their own, of child 1, of both. -/
def ownOnly : NodeRun := { NodeRun.reset with since := some 0, own := [(0, some 1)] }
def kidOnly : NodeRun := { NodeRun.reset with since := some 0, kids := [(4096, some 1)] }
def someOf : NodeRun := { ownOnly with kids := [(4096 + 1, some 1)] }

theorem test_hyp_slotTimeouts : (tget (slotTab (slotWait [] 1000) 3 1).lines 0 SlotLine.reset).held = [] ∧
    (∀ h ∈ [[held0 7], [held0 6, held0 5]], (tget (slotTab (slotWait h 1000) 3 1).lines 0 SlotLine.reset).held ≠ [] ∧
      (tget (slotTab (slotWait h 1000) 3 1).lines 0 SlotLine.reset).since + 1000 ≤ (slotWait h 1000).ns) ∧
    [held0 7].filter (fun h => [5, 6, 7].idxOf h.src == 0) = [] ∧ (∀ h ∈ [held0 7], [5, 6, 7].idxOf h.src ≠ 1) ∧
    [held0 6, held0 5].filter (fun h => [5, 6, 7].idxOf h.src == 0) = [held0 5] ∧
    (slotWait [held0 6] 999).ns < (tget (slotTab (slotWait [held0 6] 999) 3 1).lines 0 SlotLine.reset).since + 1000 := by
  and_intros <;> decide +kernel

theorem test_hyp_nodeTimeouts : treeOk (entry2 ++ List.replicate 127 0) = true ∧ heightOf entry2 256 0 = 1 ∧ heightOf entry2 256 1 = 0 ∧
    bitsOf (treeEntWord entry2 1) 63 32 = 1000 ∧ (treeShape entry2).2.2 = 16 ∧ isNode entry2 1 = true ∧ isRoot entry2 1 = false ∧ isNode entry2 0 = true ∧
    isRoot entry2 0 = true ∧ childrenOf entry2 0 = [1] ∧
    (∀ e ∈ [(1, ownOnly, 1000), (0, kidOnly, 2000), (0, someOf, 2000)],
      ((treeRun (nodeWait e.1 e.2.1 e.2.2) 3 2).node e.1) = e.2.1 ∧ e.2.1.since = some 0 ∧ (nodeWait e.1 e.2.1 e.2.2).ns = e.2.2 ∧
      (treeRun (nodeWait e.1 e.2.1 e.2.2) 3 2).loaded = true ∧ (treeRun (nodeWait e.1 e.2.1 e.2.2) 3 2).entry = entry2 ∧ e.2.1.sent.length ≠ 16 ∧
      (nodeWait e.1 e.2.1 (e.2.2 - 1)).ns < e.2.2) ∧
    kidOnly.own = [] ∧ someOf.own ≠ [] ∧ someOf.missing = 0 ∧ someOf.next = [] ∧
    (∀ q ∈ childrenOf entry2 0, ∃ e, e < 16 ∧ tget someOf.kids (q * 4096 + e) none ≠ none) ∧
    (treeRun (nodeWait 0 someOf 2000) 3 2).team = some 5 ∧ (nodeWait 0 someOf 2000).tm 5 = some { team0 with ctx := 3, size := 2, cores := [1, 2] } := by
  and_intros <;> decide +kernel
/-! ### Decoding: a word for every constructor, written out by Tables 4.1, 4.6 and 4.7 -/

/-- Guard p5 negated. -/
def gN : Guard := ⟨5, true⟩
/-- A source whose empty-policy bit is set. -/
def rt (r : BitVec 6) : Src := ⟨r, true⟩
/-- What words decode to. -/
def dec (ws : List Word) : List (Option Instr) := ws.map fun w => (decodeWord w).toOption

/-- Integer arithmetic and logic (0x001 to 0x01D). -/
theorem test_decode_integer :
    dec [
      0x004B_0000_0000_0000, 0x0400_24AA_D000_0000, 0x044B_24AA_D000_0000, 0x0480_24AA_D000_0000, 0x04C0_24AA_D000_0000, 0x050B_24AA_D000_0000,
      0x0540_24AA_D000_0000, 0x0580_24AA_D000_0000, 0x05CB_24AA_D000_0000, 0x0600_24AA_D000_0000, 0x0640_24AA_D000_0000, 0x068B_24AA_D000_0000,
      0x06C0_24AA_D000_0000, 0x0700_24AA_D000_0000, 0x0740_24AA_E540_0000] = [
      some (.nop gN), some (.add g0 9 (rs 10) (rt 43)), some (.sub gN 9 (rs 10) (rt 43)), some (.and g0 9 (rs 10) (rt 43)),
      some (.or g0 9 (rs 10) (rt 43)), some (.xor gN 9 (rs 10) (rt 43)), some (.andn g0 9 (rs 10) (rt 43)), some (.shl g0 9 (rs 10) (rt 43)),
      some (.shr gN 9 (rs 10) (rt 43)), some (.sar g0 9 (rs 10) (rt 43)), some (.min g0 9 (rs 10) (rt 43)), some (.max gN 9 (rs 10) (rt 43)),
      some (.minu g0 9 (rs 10) (rt 43)), some (.maxu g0 9 (rs 10) (rt 43)), some (.sel g0 9 (rt 10) (rs 43) 21)] := by decide +kernel

/-- Immediates and constants (0x020 to 0x029). -/
theorem test_decode_immediate :
    dec [
      0x0800_8520_2FFF_FFFD, 0x0840_8520_2FFF_FFFC, 0x088B_8520_2FFF_FFFB, 0x08C0_8520_2FFF_FFFA, 0x0900_8520_0000_003D, 0x0940_8520_0000_003E,
      0x0980_8520_0000_003F, 0x09C0_8400_0FFF_FFF8, 0x0A00_8620_0800_0001, 0x0A40_8400_07FF_FFF8] = [
      some (.addImm g0 33 (rt 18) (-3)), some (.andImm g0 33 (rt 18) (-4)), some (.orImm gN 33 (rt 18) (-5)), some (.xorImm g0 33 (rt 18) (-6)),
      some (.shlImm g0 33 (rs 18) 61), some (.shrImm g0 33 (rs 18) 62), some (.sarImm g0 33 (rs 18) 63), some (.li g0 33 (-8)),
      some (.lsi g0 33 (rs 34) 0x8000001), some (.adr g0 33 0x7FFFFF8)] := by decide +kernel

/-- Multiplication, division and saturation (0x030 to 0x03B). -/
theorem test_decode_multiplyDivideSaturate :
    dec [
      0x0C00_24AA_D000_0000, 0x0C4B_24AA_D000_0000, 0x0C80_24AA_D000_0000, 0x0D00_24AA_D000_0000, 0x0D4B_24AA_D000_0000, 0x0D80_24AA_D000_0000,
      0x0DC0_24AA_D000_0000, 0x0E0B_24AA_D000_0000, 0x0E40_24AA_D000_0000, 0x0E80_24AA_D000_0000, 0x0ECB_24AA_D000_0000] = [
      some (.mul g0 9 (rs 10) (rt 43)), some (.mulh gN 9 (rs 10) (rt 43)), some (.mulhu g0 9 (rs 10) (rt 43)), some (.div g0 9 (rs 10) (rt 43)),
      some (.divu gN 9 (rs 10) (rt 43)), some (.rem g0 9 (rs 10) (rt 43)), some (.remu g0 9 (rs 10) (rt 43)), some (.adds gN 9 (rs 10) (rt 43)),
      some (.subs g0 9 (rs 10) (rt 43)), some (.addus g0 9 (rs 10) (rt 43)), some (.subus gN 9 (rs 10) (rt 43))] := by decide +kernel

/-- Bit counts, reversals, bit fields and extension (0x040 to 0x049). -/
theorem test_decode_bitsAndExtension :
    dec [
      0x1000_F050_2000_0000, 0x1040_F050_2000_0000, 0x1080_F050_2000_0000, 0x10C0_F050_2000_0000, 0x110B_F050_2000_0000, 0x1140_F050_0000_0FC0,
      0x1180_F050_0000_003F, 0x11C0_F050_0000_02D4, 0x1200_F050_0000_0002, 0x1240_F050_0000_0001] = [
      some (.clz g0 60 (rt 5)), some (.ctz g0 60 (rt 5)), some (.popc g0 60 (rt 5)), some (.brev g0 60 (rt 5)), some (.bswap gN 60 (rt 5)),
      some (.extu g0 60 (rs 5) 0 63), some (.exts g0 60 (rs 5) 63 0), some (.ins g0 60 (rs 5) 20 11), some (.sxt g0 60 (rs 5) 2),
      some (.zxt g0 60 (rs 5) 1)] := by decide +kernel

/-- Compares and predicates (0x080 to 0x099). -/
theorem test_decode_compareAndPredicates :
    dec [
      0x2000_7C1F_A000_0000, 0x2040_7C1F_A000_0000, 0x2080_7C1F_A000_0000, 0x20CB_7C1F_A000_0000, 0x2100_7C1F_A000_0000, 0x2140_7C1F_A000_0000,
      0x2200_7C10_0FFF_FFFF, 0x2240_7C10_0FFF_FFFE, 0x2280_7C10_0FFF_FFFD, 0x22C0_7C10_0FFF_FFFC, 0x2300_7C10_0FFF_FFFB, 0x2340_7C10_0FFF_FFFA,
      0x2400_0427_C000_0000, 0x2440_0427_C000_0000, 0x2480_0427_C000_0000, 0x24C0_0427_C000_0000, 0x2600_4400_0000_0000, 0x2640_0110_0000_0000] = [
      some (.cmpEq g0 31 (rt 1) (rs 62)), some (.cmpNe g0 31 (rt 1) (rs 62)), some (.cmpLt g0 31 (rt 1) (rs 62)),
      some (.cmpLe gN 31 (rt 1) (rs 62)), some (.cmpLtu g0 31 (rt 1) (rs 62)), some (.cmpLeu g0 31 (rt 1) (rs 62)),
      some (.cmpEqImm g0 31 (rs 1) (-1)), some (.cmpNeImm g0 31 (rs 1) (-2)), some (.cmpLtImm g0 31 (rs 1) (-3)),
      some (.cmpLeImm g0 31 (rs 1) (-4)), some (.cmpLtuImm g0 31 (rs 1) (-5)), some (.cmpLeuImm g0 31 (rs 1) (-6)), some (.pand g0 1 2 31),
      some (.por g0 1 2 31), some (.pxor g0 1 2 31), some (.pandn g0 1 2 31), some (.mfp g0 17), some (.mtp g0 (rs 17))] := by decide +kernel

/-- Branches and loops (0x0C0 to 0x0CA). -/
theorem test_decode_control :
    dec [
      0x300B_0000_0FFF_FFFC, 0x3040_0000_07FF_FFFF, 0x3080_03F0_2000_0000, 0x30C0_0140_0000_0000, 0x3200_04D0_0000_0002, 0x3240_07FF_C000_0003,
      0x3280_0400_0000_0000] = [
      some (.br gN (-4)), some (.call g0 0x7FFFFFF), some (.jr g0 (rt 63)), some (.callr g0 (rs 20)), some (.loop g0 1 (rs 13) 2),
      some (.loopi g0 1 4095 3), some (.lpclr g0 1)] := by decide +kernel

/-- Scratchpad loads and stores (0x100 to 0x10B). -/
theorem test_decode_scratchpad :
    dec [
      0x4000_3920_0FFF_FFFF, 0x4040_3920_0FFF_FFF7, 0x4080_3920_0FFF_FFEF, 0x40C0_3920_0FFF_FFE7, 0x4100_3920_0FFF_FFDF, 0x414B_3920_0FFF_FFD7,
      0x4180_3920_0FFF_FFCF, 0x4200_0123_9000_0000, 0x4240_0123_9000_0008, 0x4280_0123_9000_0010, 0x42C0_0123_9000_0018] = [
      some (.ldSB g0 14 (rs 18) (-1)), some (.ldSBu g0 14 (rs 18) (-9)), some (.ldSH g0 14 (rs 18) (-17)), some (.ldSHu g0 14 (rs 18) (-25)),
      some (.ldSW g0 14 (rs 18) (-33)), some (.ldSWu gN 14 (rs 18) (-41)), some (.ldS g0 14 (rs 18) (-49)), some (.stSB g0 (rs 18) (rt 14) 0),
      some (.stSH g0 (rs 18) (rt 14) 8), some (.stSW g0 (rs 18) (rt 14) 16), some (.stS g0 (rs 18) (rt 14) 24)] := by decide +kernel

/-- Global loads and stores (0x110 to 0x11B). -/
theorem test_decode_global :
    dec [
      0x4400_3920_0FFF_FFFF, 0x4440_3920_0FFF_FFF7, 0x4480_3920_0FFF_FFEF, 0x44C0_3920_0FFF_FFE7, 0x4500_3920_0FFF_FFDF, 0x454B_3920_0FFF_FFD7,
      0x4580_3920_0FFF_FFCF, 0x4600_0123_9000_0000, 0x4640_0123_9000_0008, 0x4680_0123_9000_0010, 0x46C0_0123_9000_0018] = [
      some (.ldGB g0 14 (rs 18) (-1)), some (.ldGBu g0 14 (rs 18) (-9)), some (.ldGH g0 14 (rs 18) (-17)), some (.ldGHu g0 14 (rs 18) (-25)),
      some (.ldGW g0 14 (rs 18) (-33)), some (.ldGWu gN 14 (rs 18) (-41)), some (.ldG g0 14 (rs 18) (-49)), some (.stGB g0 (rs 18) (rt 14) 0),
      some (.stGH g0 (rs 18) (rt 14) 8), some (.stGW g0 (rs 18) (rt 14) 16), some (.stG g0 (rs 18) (rt 14) 24)] := by decide +kernel

/-- Engine issue, semaphores, PAUSE and WAITA (0x180 to 0x189). -/
theorem test_decode_enginesAndSemaphores :
    dec [
      0x6000_0F80_0080_0000, 0x604B_7C50_007F_FFC0, 0x6080_0060_0000_0000, 0x60C0_0000_0000_0007, 0x6100_0110_27C0_0000, 0x6140_0110_0140_0000,
      0x6180_0000_00FF_FFFF, 0x61C0_2000_0240_0000, 0x61C0_2000_0240_0001, 0x6200_0000_0000_0834, 0x6240_08C0_0000_0008] = [
      some (.push g0 3 (rs 56) 2), some (.pushm gN 31 (rs 5) 1 (-64)), some (.rtail g0 (rs 6) 0), some (.qfence g0 7),
      some (.semadd g0 (rt 17) 31), some (.semwait g0 (rs 17) 5), some (.waitb g0 3 0x3FFFFF), some (.semrdDone g0 8 9), some (.semrdPend g0 8 9),
      some (.pause g0 0x834), some (.waita g0 2 (rs 12) 8)] := by decide +kernel

/-- Sync objects, LD.ACQ and barriers (0x190 to 0x19B). -/
theorem test_decode_syncAndBarriers :
    dec [
      0x6400_0140_0000_0000, 0x644B_0140_2000_0000, 0x6480_0140_0000_0000, 0x64C0_0145_5000_0000, 0x6500_24C0_003F_FFF8, 0x6600_0000_0000_0000,
      0x6640_0000_0000_0000, 0x6680_0000_0000_0000, 0x66CB_0000_0000_0000] = [
      some (.acqX g0 (rs 20)), some (.acqS gN (rt 20)), some (.rel g0 (rs 20)), some (.relSet g0 (rs 20) (rt 21)), some (.ldAcq g0 9 (rs 12) (-8)),
      some (.tbar g0), some (.sstep g0), some (.cbar g0), some (.cstep gN)] := by decide +kernel

/-- SPAWN, messages and conversations (0x1C0 to 0x1C5). -/
theorem test_decode_messages :
    dec [
      0x7000_2540_0000_0040, 0x7040_2540_003F_FFC0, 0x7080_0140_0000_0040, 0x70C0_5540_0000_0000, 0x7100_2940_D000_0008, 0x714B_0140_C000_0100] = [
      some (.spawn g0 9 (rs 20) 64), some (.msend g0 9 (rs 20) (-64)), some (.csend g0 (rs 20) 64), some (.csendA g0 21 (rs 20) 0),
      some (.crole g0 10 (rs 20) (rt 3) 8), some (.cdeleg gN (rs 20) (rs 3) 0x100)] := by decide +kernel

/-- System instructions (0x200 to 0x210), MTCR with each register whose write is a row of its own among them. -/
theorem test_decode_system :
    dec [
      0x8000_2C00_0000_0802, 0x8040_0140_0000_0001, 0x8040_0140_0000_0048, 0x8040_0140_0000_0041, 0x8040_0140_0000_004B, 0x8040_0140_0000_0062,
      0x8040_0140_0000_0801, 0x8040_0140_0000_0809, 0x8040_0140_0000_0820, 0x8040_0140_2000_0822, 0x808B_0000_0000_FFFF, 0x80C0_0000_0000_0000,
      0x8100_0000_0000_0000, 0x8140_0000_0000_0000, 0x8200_0092_9000_0000, 0x8240_0090_0FFF_FFF0, 0x8280_0000_0000_0000, 0x8400_0092_8000_0000] = [
      some (.mfcr g0 11 0x802), some (.mtcr g0 (rs 20) 1), some (.ringRegisterWrite g0 (rs 20) 2 false),
      some (.ringRegisterWrite g0 (rs 20) 0 true), some (.mtcr g0 (rs 20) 0x04B), some (.mleaseWrite g0 (rs 20)), some (.corecapWrite g0 (rs 20)),
      some (.lcmentWrite g0 (rs 20)), some (.leadcasWrite g0 (rs 20)), some (.hbeatWrite g0 (rt 20)), some (.trapOp gN 0xFFFF), some (.brk g0),
      some (.eret g0), some (.doneOp g0), some (.probe g0 (rs 9) (rt 10)), some (.phint g0 (rs 9) (-16)), some (.phase g0),
      some (.shoot g0 (rs 9) (rs 10))] := by decide +kernel

/-- Words that break R31, R32, R42, R83 or a limit of Table 4.7 are refused. -/
theorem test_decode_refuses :
    dec [
      0x0401_24A2_C000_0000, 0x0400_2402_E000_0000, 0x0400_24A2_C000_0001, 0x0800_24A0_4000_0000, 0x0900_24A0_0000_0040, 0x1140_24A0_0000_0FC1,
      0x1200_24A0_0000_0003, 0x0740_24A2_C020_0000, 0x2000_80A2_C000_0000, 0x2400_0610_8000_0000, 0x3200_08D0_0000_0006, 0x3200_04D0_0000_0001,
      0x3240_0010_0FFF_FFFD, 0x6000_0F90_0000_0000, 0x6000_0C80_00C0_0000, 0x60C0_0000_0000_0000, 0x6180_0000_00C0_0000, 0x6100_0110_0800_0000,
      0x61C0_2000_0240_0002, 0x8000_2C00_0000_0006, 0x8040_0140_0000_1000, 0x8080_0000_0001_0000, 0x8140_0400_0000_0000, 0x0040_0000_0000_0001] = List.replicate 24 none := by decide +kernel

/-- Opcodes at the edges of the gaps of Table 4.6 are unassigned. -/
theorem test_decode_unassigned :
    [0x000, 0x002, 0x00F, 0x01E, 0x02A, 0x033, 0x03C, 0x04A, 0x086, 0x08E, 0x094, 0x09A, 0x0C4, 0x0CB, 0x107, 0x10C, 0x117, 0x11C, 0x18A, 0x195, 0x19C, 0x1C6, 0x206, 0x20B, 0x211, 0x3FF].all
      (fun o => decodeWord (BitVec.ofNat 64 (o * 2 ^ 54)) == .ok (.unassignedOpcode (BitVec.ofNat 64 (o * 2 ^ 54)))) = true := by decide +kernel

/-! ### Records: every operation of Tables 8.10 to 8.13, and the records that the spec writes out -/

/-- A record with modifiers 0x2307 and nothing else. -/
def recMods : Rec := ⟨0x2307, 0, false, 0, false, 0, false, false, false, 0, 0, 0, 0, 0, ⟨0, 0, 0, 0, 0, 0, 0, 0⟩, ⟨0, 0, 0, 0, 0, 0, 0, 0⟩, ⟨0, 0, 0, 0, 0, 0, 0, 0⟩⟩
/-- The record with class field c, operation code o and modifiers 0x2307 (Table 8.3). -/
def recOf (c o : Nat) : Instr := decodeRecord (BitVec.ofNat 512 (c * 2 ^ 60 + o * 2 ^ 52 + 0x2307 * 2 ^ 36))

/-- Table 8.10. -/
theorem test_decode_vector :
    [0x01, 0x02, 0x03, 0x04, 0x08, 0x09, 0x0A, 0x0B, 0x10, 0x11, 0x12, 0x13, 0x14, 0x15, 0x16, 0x17, 0x18, 0x19, 0x1A, 0x1B, 0x20, 0x21, 0x22,
      0x23, 0x24, 0x25, 0x26, 0x27, 0x28, 0x29, 0x2C, 0x2D, 0x30, 0x31, 0x32, 0x33, 0x38, 0x3C, 0x3D, 0x40, 0x41, 0x48, 0x49, 0x4A, 0x50, 0x51, 0x52].map (recOf 0) = [
      .vld recMods, .vldBc recMods, .vst recMods, .vmov recMods, .accrd recMods, .accwr recMods, .park recMods, .unpark recMods, .fadd recMods,
      .fsub recMods, .fmul recMods, .fma recMods, .fmin recMods, .fmax recMods, .fabs recMods, .fneg recMods, .fdiv recMods, .fsqrt recMods,
      .frsqrt recMods, .frcp recMods, .iadd recMods, .isub recMods, .iand recMods, .ior recMods, .ixor recMods, .ishl recMods, .ishr recMods,
      .isar recMods, .imin recMods, .imax recMods, .imul recMods, .idot4 recMods, .fcmp recMods, .icmp recMods, .vsel recMods, .maskop recMods,
      .cvt recMods, .quant recMods, .dequant recMods, .trpack recMods, .trunpack recMods, .rsum recMods, .rmax recMods, .rmin recMods,
      .vperm recMods, .vshuf recMods, .vbcast recMods] := by decide +kernel

/-- Table 8.11. -/
theorem test_decode_matrix :
    [0x01, 0x02, 0x10, 0x11, 0x12].map (recOf 1) = [
      .mcfg recMods, .mzero recMods, .mdotT recMods, .mdotS4 recMods, .mdotI8 recMods] := by decide +kernel

/-- Table 8.12. -/
theorem test_decode_copy :
    [0x01, 0x02, 0x10, 0x11, 0x12, 0x13, 0x14, 0x18, 0x20, 0x21, 0x22, 0x23].map (recOf 2) = [
      .copy recMods, .fill recMods, .put recMods, .get recMods, .putred recMods, .mcast recMods, .aput recMods, .sempost recMods, .nsend recMods,
      .nwrite recMods, .nread recMods, .nflush recMods] := by decide +kernel

/-- Table 8.13. -/
theorem test_decode_fence :
    [0x01].map (recOf 3) = [
      .join recMods] := by decide +kernel

/-- The VST record of Table 8.6. -/
theorem test_decode_vst :
    decodeRecord ((0x0000_0008_2010_0000#64 ++ 0x0020_0001#64 ++ 0x0000_4000_1010_0000#64 ++ 0x1000_0080#64 ++ 0x0001_0001_0003_0002#64 ++
        0x0030_0001_C900_0100#64 : BitVec 384).setWidth 512) =
      .vst { mods := 0, awSem := 3, awEn := true, raSem := 4, raEn := true, thr := 1, kat := false, phase := false, event := false, low := 0,
             n3 := 1, n2 := 1, n1 := 3, n0 := 2, d := ⟨0x4000, 1, 1, 0, 0, 0, 0x100, 0x80⟩, a := ⟨8, 2, 1, 0, 0, 0, 2, 1⟩,
             b := ⟨0, 0, 0, 0, 0, 0, 0, 0⟩ } := by decide +kernel

/-- Unassigned classes and operation codes at the edges of Tables 8.10 to 8.13 are RECORD_INVALID. -/
theorem test_decode_recordInvalid :
    [(0, 0x00), (0, 0x05), (0, 0x0C), (0, 0x1C), (0, 0x2A), (0, 0x2E), (0, 0x34), (0, 0x39), (0, 0x3E), (0, 0x42), (0, 0x4B), (0, 0x53), (1, 0x00),
     (1, 0x03), (1, 0x13), (2, 0x00), (2, 0x03), (2, 0x15), (2, 0x19), (2, 0x24), (3, 0x00), (3, 0x02), (4, 0x01), (15, 0x01)].all
      (fun p => match recOf p.1 p.2 with | .recordInvalid _ => true | _ => false) = true := by decide +kernel

/-! ### What WellFormed refuses: one term for each check -/

theorem test_illFormed :
    ([.nop ⟨0, true⟩, .add g0 1 ⟨0, true⟩ (rs 2), .add g0 1 (rs 2) ⟨0, true⟩, .extu g0 1 (rs 2) 1 63, .exts g0 1 (rs 2) 63 1, .ins g0 1 (rs 2) 32 32,
      .sxt g0 1 (rs 2) 3, .zxt g0 1 (rs 2) 3, .loop g0 0 (rs 2) 1, .loopi g0 0 5 (-3), .push g0 1 (rs 57) 0, .push g0 1 (rs 8) 3, .pushm g0 1 (rs 8) 3 0,
      .rtail g0 (rs 8) 3, .qfence g0 0, .waitb g0 3 0, .mfcr g0 1 0x006, .mtcr g0 (rs 1) 0x006, .mtcr g0 (rs 1) 0x062, .ringRegisterWrite g0 (rs 1) 3 true,
      .unassignedOpcode 0x0400_0000_0000_0000, .recordInvalid (BitVec.ofNat 512 0x0010_0000_0000_0000)] : List Instr).all (fun i => !i.wellFormed) = true := by
  decide +kernel

/-! ### Single steps; the numbers are the spec's, or worked out by hand from its entries -/

/-- What an instruction leaves in register 3 of core 0, whose s1 and s2 hold the values given and s3 holds 7. -/
def s3After (i : Instr) (a b : Word) : Option Word :=
  match exec i (withReg (withReg (withReg core0 1 a) 2 b) 3 7) with
  | .next t => some ((t.sc 0).reg 3)
  | _ => none
/-- What it leaves in predicate 3. -/
def p3After (i : Instr) (a b : Word) : Option Bool :=
  match exec i (withReg (withReg core0 1 a) 2 b) with
  | .next t => some ((t.sc 0).pred 3)
  | _ => none

/-- R55: sums and differences wrap, a shift uses six bits, and the minimum is signed where it says so. -/
theorem test_step_integer :
    s3After (.add g0 3 (rs 1) (rs 2)) 0xFFFF_FFFF_FFFF_FFFF 2 = some 1 ∧ s3After (.sub g0 3 (rs 1) (rs 2)) 1 2 = some 0xFFFF_FFFF_FFFF_FFFF ∧
    s3After (.and g0 3 (rs 1) (rs 2)) 0xC 0xA = some 8 ∧ s3After (.or g0 3 (rs 1) (rs 2)) 0xC 0xA = some 0xE ∧
    s3After (.xor g0 3 (rs 1) (rs 2)) 0xC 0xA = some 6 ∧ s3After (.andn g0 3 (rs 1) (rs 2)) 0xC 0xA = some 4 ∧
    s3After (.shl g0 3 (rs 1) (rs 2)) 3 65 = some 6 ∧ s3After (.shr g0 3 (rs 1) (rs 2)) 0x8000_0000_0000_0000 63 = some 1 ∧
    s3After (.sar g0 3 (rs 1) (rs 2)) 0x8000_0000_0000_0000 63 = some 0xFFFF_FFFF_FFFF_FFFF ∧ s3After (.min g0 3 (rs 1) (rs 2)) (-1) 1 = some (-1) ∧
    s3After (.max g0 3 (rs 1) (rs 2)) (-1) 1 = some 1 ∧ s3After (.minu g0 3 (rs 1) (rs 2)) (-1) 1 = some 1 ∧
    s3After (.maxu g0 3 (rs 1) (rs 2)) (-1) 1 = some (-1) ∧ s3After (.sel g0 3 (rs 1) (rs 2) 0) 5 6 = some 5 ∧
    s3After (.sel g0 3 (rs 1) (rs 2) 4) 5 6 = some 6 := by and_intros <;> decide +kernel

/-- R55 and R58, with the examples that stand beside them, and the clamps of R55. -/
theorem test_step_multiplyDivideSaturate :
    s3After (.mul g0 3 (rs 1) (rs 2)) (-3) 5 = some (-15) ∧ s3After (.mulh g0 3 (rs 1) (rs 2)) (-3) 5 = some 0xFFFF_FFFF_FFFF_FFFF ∧
    s3After (.mulhu g0 3 (rs 1) (rs 2)) (-3) 5 = some 4 ∧ s3After (.div g0 3 (rs 1) (rs 2)) (-7) 2 = some (-3) ∧
    s3After (.rem g0 3 (rs 1) (rs 2)) (-7) 2 = some (-1) ∧ s3After (.div g0 3 (rs 1) (rs 2)) 0x8000_0000_0000_0000 (-1) = some 0x8000_0000_0000_0000 ∧
    s3After (.rem g0 3 (rs 1) (rs 2)) 0x8000_0000_0000_0000 (-1) = some 0 ∧ s3After (.divu g0 3 (rs 1) (rs 2)) (-7) 2 = some 0x7FFF_FFFF_FFFF_FFFC ∧
    s3After (.remu g0 3 (rs 1) (rs 2)) (-7) 2 = some 1 ∧ s3After (.adds g0 3 (rs 1) (rs 2)) 0x7FFF_FFFF_FFFF_FFFF 1 = some 0x7FFF_FFFF_FFFF_FFFF ∧
    s3After (.subs g0 3 (rs 1) (rs 2)) 0x8000_0000_0000_0000 1 = some 0x8000_0000_0000_0000 ∧
    s3After (.addus g0 3 (rs 1) (rs 2)) (-1) 1 = some (-1) ∧ s3After (.subus g0 3 (rs 1) (rs 2)) 1 2 = some 0 := by and_intros <;> decide +kernel

/-- R57, R60 and R61. -/
theorem test_step_bits :
    s3After (.clz g0 3 (rs 1)) 0 0 = some 64 ∧ s3After (.ctz g0 3 (rs 1)) 0x50 0 = some 4 ∧ s3After (.popc g0 3 (rs 1)) 0xF0F 0 = some 8 ∧
    s3After (.brev g0 3 (rs 1)) 1 0 = some 0x8000_0000_0000_0000 ∧ s3After (.bswap g0 3 (rs 1)) 0x0123_4567_89AB_CDEF 0 = some 0xEFCD_AB89_6745_2301 ∧
    s3After (.extu g0 3 (rs 1) 8 15) 0x12_F456_78 0 = some 0xF456 ∧ s3After (.exts g0 3 (rs 1) 8 15) 0x12_F456_78 0 = some 0xFFFF_FFFF_FFFF_F456 ∧
    s3After (.ins g0 3 (rs 1) 4 7) 0xABC 0 = some 0xBC7 ∧ s3After (.sxt g0 3 (rs 1) 1) 0x18000 0 = some 0xFFFF_FFFF_FFFF_8000 ∧
    s3After (.zxt g0 3 (rs 1) 0) 0x1FF 0 = some 0xFF := by and_intros <;> decide +kernel

/-- R59: immediates sign-extend, LSI appends 28 bits, ADR adds to the pc. -/
theorem test_step_immediate :
    s3After (.addImm g0 3 (rs 1) (-1)) 0 0 = some (-1) ∧ s3After (.andImm g0 3 (rs 1) (-2)) 5 0 = some 4 ∧ s3After (.orImm g0 3 (rs 1) 2) 5 0 = some 7 ∧
    s3After (.xorImm g0 3 (rs 1) (-1)) 0 0 = some (-1) ∧ s3After (.shlImm g0 3 (rs 1) 63) 3 0 = some 0x8000_0000_0000_0000 ∧
    s3After (.shrImm g0 3 (rs 1) 4) (-1) 0 = some 0x0FFF_FFFF_FFFF_FFFF ∧ s3After (.sarImm g0 3 (rs 1) 4) (-16) 0 = some (-1) ∧
    s3After (.li g0 3 (-8)) 0 0 = some (-8) ∧ s3After (.lsi g0 3 (rs 1) 0x9AB_CDEF) 0x1_2345_678 0 = some 0x0123_4567_89AB_CDEF ∧
    s3After (.adr g0 3 (-8)) 0 0 = some (-8) := by and_intros <;> decide +kernel

/-- R62: each compare at a pair that tells it from its neighbours. -/
theorem test_step_compare :
    p3After (.cmpEq g0 3 (rs 1) (rs 2)) 5 5 = some true ∧ p3After (.cmpNe g0 3 (rs 1) (rs 2)) 5 5 = some false ∧
    p3After (.cmpLt g0 3 (rs 1) (rs 2)) (-1) 0 = some true ∧ p3After (.cmpLe g0 3 (rs 1) (rs 2)) 5 5 = some true ∧
    p3After (.cmpLtu g0 3 (rs 1) (rs 2)) (-1) 0 = some false ∧ p3After (.cmpLeu g0 3 (rs 1) (rs 2)) 1 (-1) = some true ∧
    p3After (.cmpLtImm g0 3 (rs 1) (-1)) (-2) 0 = some true ∧ p3After (.cmpLtuImm g0 3 (rs 1) (-1)) 7 0 = some true ∧
    p3After (.cmpLtuImm g0 3 (rs 1) (-1)) (-1) 0 = some false ∧ p3After (.cmpLeuImm g0 3 (rs 1) 4) 5 0 = some false := by and_intros <;> decide +kernel

/-- The pc, the register s63 and the loop registers after one step at address 0x40. -/
def flowAfter (i : Instr) (a : Word) : Option (Word × Word × Word × Word) :=
  match exec i ((withReg core0 1 a).upSc fun x => { x with pc := 0x40 }) with
  | .next t => some ((t.sc 0).pc, (t.sc 0).reg 63, (t.sc 0).lend0, (t.sc 0).lcount0)
  | _ => none

/-- R65, R66 and R71. -/
theorem test_step_flow :
    flowAfter (.br g0 (-4)) 0 = some (0x20, 0, 0, 0) ∧ flowAfter (.call g0 3) 0 = some (0x58, 0x48, 0, 0) ∧ flowAfter (.jr g0 (rs 1)) 0x80 = some (0x80, 0, 0, 0) ∧
    flowAfter (.callr g0 (rs 1)) 0x80 = some (0x80, 0x48, 0, 0) ∧ flowAfter (.loop g0 0 (rs 1) 6) 0 = some (0x70, 0, 0x68, 0) ∧
    flowAfter (.loop g0 0 (rs 1) 6) 9 = some (0x48, 0, 0x68, 9) ∧ flowAfter (.loopi g0 0 0 6) 0 = some (0x70, 0, 0x68, 0) := by
  and_intros <;> decide +kernel

/-- R75: a scratchpad holds its bytes low one first, and its last byte is 0x3F_FFFF. -/
theorem test_step_scratchpad :
    (match exec (.stSH g0 (rs 1) (rs 2) (-1)) (withReg (withReg core0 1 0x201) 2 0x8182) with
      | .next t => some (rdN t.mem (spKey 0 0x200) 1, rdN t.mem (spKey 0 0x201) 1, rdN t.mem (spKey 0 0x202) 1)
      | _ => none) = some (0x82, 0x81, 0) ∧
    (match exec (.ldSB g0 3 (rs 1) 0) (withReg { core0 with mem := wrN core0.mem (spKey 0 0x3F_FFFF) 1 0x80 } 1 0x3F_FFFF) with
      | .next t => some ((t.sc 0).reg 3)
      | _ => none) = some 0xFFFF_FFFF_FFFF_FF80 := by and_intros <;> decide +kernel

/-- R58, R20 and R22: a division by zero at 0x40 saves the pc and the dividend, and goes to the trap vector. -/
theorem test_step_divZero :
    (match exec (.div g0 3 (rs 1) (rs 2)) ((withReg coreT 1 9).upSc fun x => { x with pc := 0x40 }) with
      | .next t => some ((t.sc 0).pc, (t.sc 0).tpc, (t.sc 0).tval, (t.sc 0).reg 3)
      | _ => none) = some (0x100, 0x40, 9, 0) := by decide +kernel

/-- R48 and R150: the trits of 0xDD, 0x79 and 0xF2. -/
theorem test_trits :
    t5dec 0xDD = [1, 0, -1, 1, 1] ∧ t5dec 0x79 = [0, 0, 0, 0, 0] ∧ t5dec 0xF2 = [1, 1, 1, 1, 1] ∧ t5enc [1, 0, -1, 1, 1] = 0xDD := by decide +kernel

/-! ### Hypotheses of the statements about encodings, turns, reset and registers -/

theorem test_hyp_encoding : (Instr.add g0 9 (rs 8) (rt 7)).wellFormed = true ∧ (encodeScalar (.add g0 9 (rs 8) (rt 7))).isSome = true ∧
    (decodeWord 0x0400_2481_E000_0000).toOption = some (.add g0 9 (rt 8) (rs 7)) ∧ (Instr.vld recMods).wellFormed = true ∧
    (encodeRecord (.vld recMods)).isSome = true := by and_intros <;> decide +kernel

/-- An ADD at core 0's pc, and a word that breaks its form. -/
def fetchAdd : State := coreT.withFetchWord 64 0x0400_2481_E000_0000
def fetchBad : State := coreT.withFetchWord 64 0x0400_2481_E000_0001
/-- An ADD in firmware core 0's local store. -/
def fwAdd : State :=
  let s := { State.reset with cur := 8192, mem := wrN [] (fwKey 0 0) 8 0x0400_2481_E000_0000 }
  s.upSc fun x => { x with run := .running }

/-- Core 0 is in its instruction cache's line of that ADD. -/
def cachedAdd : State :=
  fetchAdd.upCo 0 fun x => { x with icache := [{ ctx := 0, tag := 0, data := 0x0400_2481_E000_0000 }] }

theorem test_hyp_turns : fetchAdd.sched = [] ∧ (stream fetchAdd).run = .running ∧ Parts.wordAt fetchAdd fetchAdd.cur 0x0400_2481_E000_0000 ∧
    (decodeWord 0x0400_2481_E000_0000).toOption = some (.add g0 9 (rt 8) (rs 7)) ∧ fetchBad.sched = [] ∧ (stream fetchBad).run = .running ∧
    canTrap fetchBad ∧ fetchBad.ecc = [] ∧ Parts.wordAt fetchBad fetchBad.cur 0x0400_2481_E000_0001 ∧
    (decodeWord 0x0400_2481_E000_0001).toOption = none ∧ State.reset.sched = [] ∧ (stream State.reset).run ≠ .running := by
  unfold canTrap
  refine ⟨?_, ?_, .inr ⟨?_, 0, ?_, ?_, ?_⟩, ?_, ?_, ?_, ?_, ?_, .inr ⟨?_, 0, ?_, ?_, ?_⟩, ?_, ?_, ?_⟩ <;> decide +kernel

theorem test_hyp_scheduled : isAgent 0 = true ∧ (fetchAdd.sc 0).run = .running ∧ Parts.wordAt cachedAdd 0 0x0400_2481_E000_0000 ∧ isAgent 8192 = true ∧
    (fwAdd.sc 8192).run = .running ∧ Parts.wordAt fwAdd 8192 0x0400_2481_E000_0000 ∧ isFetched .dispatch = false ∧ State.reset.arrival = none ∧
    State.reset.inReset = true ∧ ({ State.reset with inReset := false } : State).inReset = false := by
  refine ⟨?_, ?_, .inl ⟨_, rfl, ?_⟩, ?_, ?_, .inr ⟨?_, fwKey 0 0, ?_, ?_, ?_⟩, ?_, ?_, ?_, ?_⟩ <;> decide +kernel

/-- A VMOV of core 0 has made none of its issues; its slot holds a word with two errors. -/
def midway : State := (eng 0).upCo 0 fun x => { x with vq := { x.vq with flight := [{ newFlight (eng 0) 0 0 0 1 false with made := false }] } }
def badSlot : State := { eng 0 with ecc := [(spKey 0 0x108, [3, 5])] }

theorem test_hyp_engineTurns : (∀ s ∈ [eng 0, badSlot, midway, rings 0], isCore 0 = true ∧ (0#2) ≠ 3#2 ∧ (s.co 0).vq.early = [] ∧ (s.co 0).vq.landed = []) ∧
    (eng 0).ecc = [] ∧ (midway.co 0).vq.current.isSome = true ∧ (eng 0).co 0 = badSlot.co 0 ∧ ((eng 0).co 0).vq.current = none ∧
    ((eng 0).co 0).nextSlot 0 = some 0 ∧ ((eng 0).co 0).vq.words = [] ∧ spBad badSlot 0 ((badSlot.co 0).vq.slot 0) 64 = true ∧
    (badSlot.co 0).vq.stopped = false ∧ ((rings 0).co 0).vq.current = none ∧ ((rings 0).co 0).nextSlot 0 = none := by
  and_intros <;> decide +kernel

/-- FIPS 180-4's example of SHA-256, of the three bytes "abc". -/
theorem test_sha256 : sha256 [0x61, 0x62, 0x63] = 0xBA7816BF_8F01CFEA_414140DE_5DAE2223_B00361A3_96177A9C_B410FF61_F20015AD := by decide +kernel

theorem test_hyp_report : (let s := withWords { State.reset with sched := [.report] } [(hostKey 0x100, 1)]
    s.sched = .report :: [] ∧ rdN s.mem (hostKey 0x100) 8 % 2 = 1) := by and_intros <;> decide +kernel

theorem test_hyp_canonical : memOk State.reset ∧ (match step State.reset with | .next t => some t.time | _ => none) = some 0 := by
  unfold memOk
  and_intros <;> decide +kernel

theorem test_hyp_registers : (1 : BitVec 6) ≠ 0 ∧ (1 : BitVec 5) ≠ 0 := by decide +kernel

/-! ### Further clauses of the statements: hypotheses that can be met -/

/-- In context 3. -/
def ofCtx3 (s : State) : State := s.upSc fun x => { x with ctx := 3 }

theorem test_hyp_globalFaults : isFw (at1 0).cur = false ∧ badForm 0x0900_0000_0000_0000 = true ∧
    acts (at1 0x0900_0000_0000_0000) 0 g0 [rs 1, rs 2] [3] ∧ acts (at1 0x0900_0000_0000_0000) 5 g0 [rs 1] [3] ∧
    (0x0900_0000_0000_0000 : Word).toNat % 8 = 0 ∧ acts (ofCtx3 (at1 ctlEa)) 0 g0 [rs 1, rs 2] [3] ∧ badForm ctlEa.toNat = false ∧
    isControl (ctlEa.toNat % 2 ^ 56) = true ∧ ctlEa.toNat % 8 = 0 ∧ (stream (ofCtx3 (at1 ctlEa))).ctx ≠ 0#6 ∧
    (stream (ofCtx3 (at1 ctlEa))).acquiring = false ∧ (stream (ofCtx3 (at1 ctlEa))).fetching (tagOf ctlEa) = false ∧
    gateOpen (ofCtx3 (at1 ctlEa)) (stream (ofCtx3 (at1 ctlEa))).ctx.toNat = true := by
  unfold acts; and_intros <;> decide +kernel

/-- Core 0 of context 3, which maps nothing, waits for a load at 0x40. -/
def unmapped (acq : Bool) : State := (filling acq none).upSc fun x => { x with ctx := 3 }
/-- A write-back of context 3 is on its way. -/
def unmappedWb : State := coreT.upSc fun x => { x with wb := [{ ctx := 3, tag := 1, data := 0x3412, mask := 2 }] }

theorem test_hyp_globalFillFaults : (∀ acq, ((stream (unmapped acq)).fills[0]?).map (fun f => (f.acq, f.verdict, f.val)) = some (acq, false, none) ∧
      (match resolve (unmapped acq) 0 3 0x40 4 with | .error e => some e | _ => none) = some 0x20 ∧ gateOpen (unmapped acq) 3 = true ∧
      (unmapped acq).ecc = [] ∧ (stream (unmapped acq)).wbPending (tagOf 0x40) = false) ∧ isControl (0x40 % 2 ^ 56) = false ∧
    ((stream unmappedWb).wb[0]?).isSome = true ∧ (stream unmappedWb).wb.take 0 = [] ∧ gateOpen unmappedWb 3 = true ∧ unmappedWb.ecc = [] ∧
    (match resolve unmappedWb 0 3 (tagAddr 1 + firstByte 2 0 64) 2 with | .error e => some e | _ => none) = some 0x20 ∧
    (let s := coreT.upSc fun x => { x with ctx := 3 }
     s.sched = [] ∧ (stream s).run = .running ∧ (stream s).fresh = false ∧ isFw s.cur = false ∧ s.ecc = [] ∧ codeLine s s.cur = none ∧
      (match resolve s s.cur 3 (stream s).pc.toNat 1 with | .error e => some e | _ => none) = some 0x20) := by
  and_intros <;> decide +kernel

/-- The word that RTAIL takes first has two errors. -/
def spoilt : State := { withReg (rings 3) 1 1 with ecc := [(spKey 0 (0x100 + 64 * 3), [3, 5])] }

theorem test_hyp_queueTraps : (∀ ea ∈ [0x1001, 0x40_0000, 0x1000], acts (withReg (rings 0) 1 (BitVec.ofNat 64 ea)) 5 g0 [rs 1] [] ∧ canTrap (withReg (rings 0) 1 (BitVec.ofNat 64 ea))) ∧
    (0x1001 : Word).toNat % 64 ≠ 0 ∧ (0x40_0000 : Word).toNat % 64 = 0 ∧ 0x3F_FFC0 < (0x40_0000 : Word).toNat ∧ (0x1000 : Word).toNat % 64 = 0 ∧
    (0 : BitVec 512).toNat = rdN (rings 0).mem (spKey 0 0x1000) 64 ∧ wordsBroken (judgeOf (withReg (rings 0) 1 0x1000) 0 0 false) 0 ≠ 0 ∧
    acts coreT 5 g0 [rs 1] [] ∧ (ringOf coreT 0).count = 0 ∧ acts coreT 5 g0 [] [] ∧ canTrap coreT ∧ (5#3).getLsbD 0 = true ∧
    acts spoilt 5 g0 [rs 1] [] ∧ (spoilt.rd (rs 1)).toNat ≤ 16 - (ringOf spoilt 0).fillLevel ∧ (0 : Nat) < (spoilt.rd (rs 1)).toNat ∧
    spBad spoilt 0 ((ringOf spoilt 0).slot ((ringOf spoilt 0).tail + BitVec.ofNat 32 0)) 8 = true ∧
    (∀ j, j < 3 → ∀ k, k < 3 → j ≠ k →
      (ringOf (rings 15) (BitVec.ofNat 2 j)).slot (ringOf (rings 15) (BitVec.ofNat 2 j)).tail + 64 ≤
        (ringOf (rings 15) (BitVec.ofNat 2 k)).slot (ringOf (rings 15) (BitVec.ofNat 2 k)).tail ∨
      (ringOf (rings 15) (BitVec.ofNat 2 k)).slot (ringOf (rings 15) (BitVec.ofNat 2 k)).tail + 64 ≤
        (ringOf (rings 15) (BitVec.ofNat 2 j)).slot (ringOf (rings 15) (BitVec.ofNat 2 j)).tail) := by
  unfold acts canTrap; and_intros <;> decide +kernel

/-- The pool is full; context 0 has a spill queue of 10 lines with 3 in it, at address 0x4_0000. -/
def spilling : State :=
  (fun s => s.putDi 0 { s.di 0 with tlb := [{ ctx := 0, unit := 4, base := 0x4_0000, rights := 7 }] }) <| withWords { queue0 (descState coreT []) with spills := [0] }
    [(spillKey 0 0, 0x4_0000), (spillKey 0 1, 10), (spillKey 0 2, 3), (spillKey 0 3, 5)]

theorem test_hyp_spill : acts spilling 6 g0 [rs 1] [3] ∧ descReadable spilling 0x40 ∧ firstBad (itemChecks spilling 0 0) = none ∧
    (stream spilling).drained = true ∧ poolRoom spilling 0 = false ∧ spillSize spilling 0 ≠ 0 ∧ spillDepth spilling 0 < spillSize spilling 0 ∧
    spillAt spilling 0 (spillWord spilling 0 3) % 64 = 0 ∧ gateOpen spilling 0 = true ∧
    (match resolve spilling 0xFFFF 0 (spillAt spilling 0 (spillWord spilling 0 3)) 2 with
      | .ok k => some (decide (hbmDie k ≠ none), isObjHome spilling k) | _ => none) = some (true, false) := by
  unfold acts descReadable; and_intros <;> decide +kernel

/-- A message of context 3 to its own package, of n bytes, for the match entry of its connection. -/
def own3 (op mode n : Nat) : State :=
  let k := winKey (64 * 0x80009)
  { withWords live3 [(k, 2 ^ 63 + 3 * 2 ^ 56 + 0xF_FFFF * 2 ^ 36 + op * 2 ^ 28), (k + 24, 2 ^ 56 + 0x1000), (k + 40, 64), (k + 48, 2 ^ 20 + 7)] with
    own := [⟨3, 0, mode, op, n, 0xA7A6_A504_0302_01, 0, .other, some 8⟩] }

theorem test_hyp_ownMessages : ∀ e ∈ [(1, 0, 4), (2, 1, 7), (1, 1, 0)],
    let s := own3 e.1 e.2.1 e.2.2
    s.rx = [] ∧ s.conns = [] ∧ s.ecc = [] ∧ admits s 3 = true ∧ connAborted s 3 0xF_FFFF = false ∧ s.own.map (fun o => (o.mode, o.op, o.len, o.ms)) = [(e.2.1, e.1, e.2.2, some 8)] ∧
    (takeEntry s 3 { conn := 0xF_FFFF, op := e.1, tag := 0, key := 0 }).2 = s ∧
    placed (takeEntry s 3 { conn := 0xF_FFFF, op := e.1, tag := 0, key := 0 }).1 = some (0x80009, 0, 64, 1, 0) ∧ (s.cx 3).residents[0]? = some 1 := by
  intro e he; fin_cases he <;> and_intros <;> decide +kernel

/-- The send was a CSEND.A, to register 3. -/
def laterSend (kind : Nat) : State :=
  let s : State := { judged kind with convIn := (judged kind).convIn.map fun i => { i with later := true, reg := 3 } }
  s.putSc 0 { s.sc 0 with run := .running, fills := [{ reg := 3, ea := 0, w := 8, sext := false, acq := false, val := none, verdict := true }] }
/-- Core 0's delegation to queue 6 with four bytes awaits its verdict: of role 2, which it has bound, or of role 1. -/
def delegated (bound : Bool) : State :=
  let s := judged 9
  { s with convIn := s.convIn.map fun i => { i with
      pkt := { i.pkt with op := 5, len := 4, data := [1, 2, 3, 4], tag := reqTag (if bound then 2 else 1) 5 6 bound } } }

theorem test_hyp_laterVerdicts : (∀ k ∈ [8, 9], (firstItem (laterSend k) 3 0 (laterSend k).convIn).map (fun e => (e.1, e.2.agent, e.2.pkt.op, e.2.later)) =
      some (0, some 0, 3, true) ∧ (((laterSend k).sc 0).fills[0]?).map (fun f => (f.verdict, f.reg, f.val)) = some (true, 3, none)) ∧
    nothingBroken (laterSend 9) ∧ nothingBroken (judged 8) := by
  unfold nothingBroken; and_intros <;> decide +kernel

theorem test_hyp_delegations : (∀ b ∈ [true, false], (firstItem (delegated b) 3 0 (delegated b).convIn).map
      (fun e => (e.1, e.2.agent, e.2.pkt.op, reqBound e.2.pkt, reqQueue e.2.pkt)) = some (0, some 0, 5, b, 6) ∧ ((delegated b).sc 0).run = .waiting .verdict) ∧
    nothingBroken (delegated true) ∧ nothingBroken (delegated false) ∧ (∀ r ∈ [1, 2], unusable (delegated true) 0 3 r = none ∧
      unusable (delegated false) 0 3 r = none ∧ roleQuiet (delegated true) 3 r = true ∧ roleQuiet (delegated false) 3 r = true) ∧
    ((delegated false).sc 0).th = false ∧ ((delegated false).sc 0).tvec ≠ 0#64 := by
  unfold nothingBroken; and_intros <;> decide +kernel

theorem test_hyp_lossClauses :
    (let s := { placing with places := [⟨3, 2, 7, 0, 0, true⟩] }
     bindOf s 3 2 = some ⟨2, 5 * 256, 0, 0x1000, 128, 4⟩ ∧ taskAgent s (5 * 256) = some 0) ∧
    (let s := { connIn (withWords (convState 2 []) [(convKey 3 7, 3 * 2 ^ 62 + 5 * 2 ^ 32)]) 5 2 with cur := 3 }
     nothingBroken s ∧ firstItem s 3 0 s.convIn = none ∧ convLife s 3 = 2 ∧ convProxy s 3 = false ∧ failedRole s 3 = some 3 ∧ s.places = [] ∧
      collIn s (convCtx s 3) 1 = [] ∧ s.flags = []) ∧
    (let s := { convState 3 [] with cur := 3 }
     nothingBroken s ∧ firstItem s 3 0 s.convIn = none ∧ convLife s 3 = 3 ∧ ∀ e ∈ s.scal, e.2.verdicts = []) := by
  unfold nothingBroken; and_intros <;> decide +kernel

theorem test_hyp_refusedWrites : (∀ v ∈ [0x1001, 0x40, 0x40_0000, 0x3F_FC40, 17], acts (withReg (rings 0) 1 (BitVec.ofNat 64 v)) 0 g0 [rs 1] [] ∧
      canTrap (withReg (rings 0) 1 (BitVec.ofNat 64 v))) ∧
    (0x1001 : Word).toNat % 64 ≠ 0 ∧ (0x40 : Word).toNat < 0x100 ∧ 2 ^ 22 ≤ (0x40_0000 : Word).toNat ∧ (ringOf (rings 0) 0).count = 16 ∧
    0x40_0000 < (0x3F_FC40 : Word).toNat + 64 * 16 ∧ (17 : Word).toNat ∉ [0, 16, 32, 64, 128, 256, 512, 1024, 2048, 4096] ∧
    (ringOf (rings 0) 0).head = (ringOf (rings 0) 0).tail ∧
    (let s := (rings 0).upCo 0 fun x => { x with vq := { x.vq with base := 0x3F_FF00 } }
     acts (withReg s 1 16) 0 g0 [rs 1] [] ∧ 0x40_0000 < (ringOf s 0).base.toNat + 64 * 16) ∧
    (encodeScalar (.ringRegisterWrite g0 (rs 1) 0 false)).isSome = true ∧ (encodeScalar (.ringRegisterWrite g0 (rs 1) 0 true)).isSome = true ∧
    (encodeScalar (.mleaseWrite g0 (rs 1))).isSome = true ∧ (stream coreT).ctx = 0#6 ∧ (∀ v ∈ [0, 65], acts (withReg coreT 1 (BitVec.ofNat 64 v)) 0 g0 [rs 1] []) ∧
    64 < (65 : Word).toNat := by
  unfold acts canTrap; and_intros <;> decide +kernel

theorem test_hyp_refusedFirmwareWrites : (∀ v ∈ [2 ^ 48, 2 ^ 9, 2 ^ 63 + 288, 2 ^ 63 + 1, 1, 9 * 2 ^ 56], acts (fw0 (BitVec.ofNat 64 v)) 0 g0 [rs 1] [] ∧
      canTrap (fw0 (BitVec.ofNat 64 v))) ∧
    2 ^ 48 ≤ (2 ^ 48 : Word).toNat ∧ (9 ≤ 9 ∧ 9 < 63 ∧ (2 ^ 9 : Word).getLsbD 9 = true) ∧ (2 ^ 63 + 288 : Word).getLsbD 63 = true ∧
    288 ≤ (2 ^ 63 + 288 : Word).toNat % 512 ∧ ((fw0 0).co (diePhys 0 1)).capmask.getLsbD 0 = false ∧ (0 < 48 ∧ (1 : Word).getLsbD 0 = true) ∧
    8 < bitsOf (9 * 2 ^ 56 : Word).toNat 59 56 ∧ (encodeScalar (.corecapWrite g0 (rs 1))).isSome = true ∧
    (encodeScalar (.lcmentWrite g0 (rs 1))).isSome = true ∧ (encodeScalar (.leadcasWrite g0 (rs 1))).isSome = true ∧
    (let s := (fw0 0).putDi 0 { (fw0 0).di 0 with lcm := [(0, 0x200)] }
     acts s 0 g0 [rs 1] [] ∧ mapped s (selCore s 0) = true ∧ (s.co (selCore s 0)).capmask.getLsbD 0 = true ∧ (s.rd (rs 1)).getLsbD 0 = false ∧
      lcmCore s 0 (s.di 0).lcmidx.toNat = some 0 ∧ (s.co 0).svc ≠ .held) := by
  unfold acts canTrap; and_intros <;> decide +kernel

theorem test_hyp_shootTraps : (let s := withReg (withReg coreT 1 0x0100_0000_0000_0000) 2 1
    (stream s).ctx = 0#6 ∧ acts s 0 g0 [rs 1, rs 2] [] ∧ canTrap s ∧ s.rd (rs 2) ≠ 0#64 ∧ (s.rd (rs 1)).toNat / 2 ^ 56 ≠ agentDie s.cur) := by
  unfold acts canTrap; and_intros <;> decide +kernel

/-- An engine of core 0's team, which is of context 3, is within a step. -/
def inside3 (st : Nat) : State :=
  ((halted3 st []).upCo 0 fun x => { x with task := some ⟨5, 0⟩, mq := { x.mq with landed := [(0, 0)] } }).putTm 5 { team0 with ctx := 3 }

/-- An APUT of core 0 whose delivery is landing. -/
def deliver0 : State :=
  coreT.upCo 0 fun x => { x with cq := { Queue.reset with base := 0x900, count := 16, tail := 1, landed := [(0, 0)], flight := [{ newFlight (eng 2) 0 2 0 1 false with hdr := 0x2140_0000_0000_0000 }] } }

theorem test_hyp_boundaries : ctxState (inside3 2) 3 = 2 ∧ atBoundaries (inside3 2) 3 = false ∧ atBoundaries (halted3 2 []) 3 = true ∧
    delivering deliver0 = true ∧ delivering State.reset = false := by
  and_intros <;> decide +kernel

theorem test_hyp_clocks : ((watched 7 7001).upSc fun x => { x with fresh := true }).cur = (watched 7 7001).cur ∧
    (let s := ((watched 7 7001).upSc fun x => { x with run := .suspended }).upCo 0 fun x => { x with rolling := true }
     isCore s.cur = true ∧ (s.co s.cur).task.isSome = true ∧ (stream s).run = .suspended ∧ (s.co s.cur).rolling = true ∧ savingTask s s.cur = false ∧
      (stream s).fresh = false ∧ 7 * 1000 < s.ns - (stream s).wd / 21) ∧
    (stream (watched 7 7001)).fresh = false ∧ (stream (running3 100_001)).fresh = false ∧
    (stream ((running3 5).upSc fun x => { x with fresh := true })).fresh = true ∧ (stream ((running3 5).upSc fun x => { x with fresh := true })).run = .running := by
  and_intros <;> decide +kernel

theorem test_hyp_moreMilestones :
    (let s := withWords (counting 2 true) [(ctxKey 3 0, 2 ^ 62)]
     allotted s 3 .milestone 7 = true ∧ ctxLive s 3 = false ∧ collIn s 3 1 = [] ∧ rdN s.mem (msKey 7) 8 = 2 ∧ rdN s.mem (msKey 7 + 8) 8 = 3) ∧
    blockIs (fires 5 0x40 [7, 0]) 16 [7, 0] = true ∧ allotted (fires 5 0x40 [7, 0]) 3 .milestone 7 = true := by
  and_intros <;> decide +kernel

end Sys2Proof.Tests
end

section
/-! A division by a divisor of zero (R22, R58): one lemma for the four forms, which share `divBody`. -/
namespace Sys2Proof.Machine
open Safety

/-- A division whose divisor is zero has the trap as its whole effect: cause 5, with the dividend in TVAL. -/
theorem divBody_of_zero {s : State} {b : Src} (d : BitVec 6) (a : Src) (f : Word → Word → Word) (hb : s.rd b = 0#64) :
    divBody d a b f s = s.trap 5 0 (s.rd a) := if_pos hb

/-- Trap entry is of the trap registers, STATUS and the pc alone, so every register reads as before it. -/
theorem reg_of_trapped {s t : State} {code detail : Nat} {tval : Word} (h : trapped s code detail tval t) (r : BitVec 6) :
    (stream t).reg r = (stream s).reg r := by
  obtain ⟨-, hstream, -⟩ := h
  rw [hstream]
  rfl

/-- Any instruction that acts as a division traps DIV_ZERO on a zero divisor, whatever its quotient or remainder `f`. -/
theorem completes_trapped_of_div_zero {i : Instr} {s : State} {g : Guard} {d : BitVec 6} {a b : Src} {f : Word → Word → Word}
    (e : exec i s = issue 2 g [a, b] (some d) s (divBody d a b f)) (ha : acts s 2 g [a, b] [d]) (hb : s.rd b = 0#64)
    (ht : canTrap s) : completes i s (trapped s 5 0 (s.rd a)) := by
  have hnext : exec i s = .next (s.trap 5 0 (s.rd a)) := by
    rw [e, issue_acts _ ha, divBody_of_zero d a f hb]
  exact ⟨_, hnext, trapped_trap s 5 0 (s.rd a) (by decide) ht⟩

/-- Settles O3: the four forms differ only in `f`, which a zero divisor never reaches. -/
theorem divisionByZeroTraps : Obligations.DivisionByZeroTraps := by
  intro s g d a b ha hb ht
  refine ⟨?_, completes_trapped_of_div_zero (exec_divu g d a b s) ha hb ht,
    completes_trapped_of_div_zero (exec_rem g d a b s) ha hb ht,
    completes_trapped_of_div_zero (exec_remu g d a b s) ha hb ht⟩
  obtain ⟨t, hnext, htrap⟩ := completes_trapped_of_div_zero (exec_div g d a b s) ha hb ht
  exact ⟨t, hnext, htrap, reg_of_trapped htrap⟩

end Sys2Proof.Machine
end

section
/-! The registers and predicates of a scalar stream (R33, R34): what a read gives after each of the four updates. -/
namespace Sys2Proof.Machine

/-- s0 is always full (R33). -/
@[simp] theorem isEmpty_zero (x : Scalar) : x.isEmpty 0#6 = false := rfl

/-- s0 discards writes (R33). -/
@[simp] theorem setReg_zero (x : Scalar) (v : Word) : x.setReg 0#6 v = x := rfl

/-- s0 discards values that arrive (R33). -/
@[simp] theorem fillReg_zero (x : Scalar) (v : Word) : x.fillReg 0#6 v = x := rfl

/-- s0 discards marks (R33). -/
@[simp] theorem markEmpty_zero (x : Scalar) : x.markEmpty 0#6 = x := rfl

/-- p0 discards writes (R33). -/
@[simp] theorem setPred_zero (x : Scalar) (b : Bool) : x.setPred 0#5 b = x := rfl

/-- A write leaves every empty mark as it was. -/
@[simp] theorem isEmpty_setReg (x : Scalar) (r q : BitVec 6) (v : Word) : (x.setReg r v).isEmpty q = x.isEmpty q := by
  unfold Scalar.setReg
  split <;> rfl

/-- A value that arrives reads as a written one: only the mark tells the two apart. -/
@[simp] theorem reg_fillReg (x : Scalar) (r q : BitVec 6) (v : Word) : (x.fillReg r v).reg q = (x.setReg r v).reg q := by
  unfold Scalar.fillReg
  split
  · next h => rw [h, setReg_zero]
  · rfl

/-- A mark that is given to one register other than s0, set or cleared, leaves the others as they were. -/
theorem isEmpty_setBit (x : Scalar) {r : BitVec 6} (hr : r ≠ 0#6) (q : BitVec 6) (b : Bool) :
    ({ x with empty := setBit x.empty r.toNat b } : Scalar).isEmpty q = if q = r then b else x.isEmpty q := by
  by_cases hq : q = 0#6
  · subst hq
    rw [isEmpty_zero, isEmpty_zero, if_neg hr.symm]
  · have bits := getLsbD_setBit x.empty r.toNat q.toNat b r.isLt
    simpa [Scalar.isEmpty, hq, BitVec.toNat_inj] using bits

/-- A register other than s0 is empty from a mark on. -/
theorem isEmpty_markEmpty (x : Scalar) {r : BitVec 6} (hr : r ≠ 0#6) (q : BitVec 6) :
    (x.markEmpty r).isEmpty q = if q = r then true else x.isEmpty q := by
  rw [Scalar.markEmpty, if_neg hr, isEmpty_setBit x hr]

/-- A register is full once its value arrives. -/
theorem isEmpty_fillReg (x : Scalar) {r : BitVec 6} (hr : r ≠ 0#6) (v : Word) (q : BitVec 6) :
    (x.fillReg r v).isEmpty q = if q = r then false else x.isEmpty q := by
  have hempty : x.empty = (x.setReg r v).empty := by rw [Scalar.setReg, if_neg hr]
  rw [Scalar.fillReg, if_neg hr, hempty, isEmpty_setBit _ hr, isEmpty_setReg]

/-- `reg_setReg` for a register other than s0: s0 needs no case of its own. -/
theorem reg_setReg_of_ne (x : Scalar) {r : BitVec 6} (hr : r ≠ 0#6) (v : Word) (q : BitVec 6) :
    (x.setReg r v).reg q = if q = r then v else x.reg q := by
  rw [reg_setReg]
  by_cases hq : q = 0#6
  · subst hq
    rw [if_pos rfl, if_neg hr.symm, reg_zero]
  · rw [if_neg hq]

/-- `pred_setPred` for a predicate other than p0: p0 needs no case of its own. -/
theorem pred_setPred_of_ne (x : Scalar) {p : BitVec 5} (hp : p ≠ 0#5) (b : Bool) (q : BitVec 5) :
    (x.setPred p b).pred q = if q = p then b else x.pred q := by
  rw [pred_setPred]
  by_cases hq : q = 0#5
  · subst hq
    rw [if_pos rfl, if_neg hp.symm, pred_zero]
  · rw [if_neg hq]

/-- Settles O1: s0 and p0 by the laws of number zero, every other register and predicate by the read after each update. -/
theorem registersAndPredicates : Obligations.RegistersAndPredicates := by
  intro x
  refine ⟨⟨reg_zero x, isEmpty_zero x, pred_zero x⟩, ?_, ?_, ?_⟩
  · intro v b
    exact ⟨setReg_zero x v, fillReg_zero x v, markEmpty_zero x, setPred_zero x b⟩
  · intro r v hr
    refine ⟨reg_setReg_of_ne x hr v, ?_, fun q => isEmpty_setReg x r q v, isEmpty_markEmpty x hr, isEmpty_fillReg x hr v⟩
    intro q
    rw [reg_fillReg, reg_setReg_of_ne x hr]
  · intro p b hp
    exact pred_setPred_of_ne x hp b

end Sys2Proof.Machine
end

section
/-! LPCLR (R73): its effect is one STATUS bit, and its word has nothing below the destination field. -/
namespace Sys2Proof.Machine
open Safety

/-- The bits below the destination field are the fields that Table 4.1 puts there. -/
theorem low42_eq_fields (w : Word) : w.extractLsb' 0 (6 + (6 + (1 + (1 + 28)))) =
    ((splitWord w).a ++ ((splitWord w).b ++ (BitVec.ofBool (splitWord w).p1 ++ (BitVec.ofBool (splitWord w).p2 ++ (splitWord w).imm)))) := by
  unfold splitWord
  ext j hj
  simp only [BitVec.getElem_append, BitVec.getElem_extractLsb', BitVec.getElem_ofBool]
  split_ifs
  all_goals exact congrArg w.getLsbD (by omega)

/-- An instruction comes only of fields that pass the check of its format. -/
theorem check_of_okIf {f : Fields} {c : Bool} {i j : Instr} (h : okIf f c i = .ok j) : c = true := by
  unfold okIf at h
  split at h
  · next hc => exact hc
  · cases h

/-- A word with LPCLR's opcode and a guard in range decodes as LPCLR, or not at all. -/
theorem decodeFields_op_lpclr {f : Fields} (hop : f.op = 0x0CA#10) (hg : f.guard.wf = true) : decodeFields f =
    okIf f (f.d1 && f.a == 0#6 && f.b == 0#6 && !f.p1 && !f.p2 && f.imm == 0#28) (.lpclr f.guard (f.d.setWidth 1)) := by
  simp [decodeFields, decGroup3, hop, hg]

/-- A word with LPCLR's opcode is an instruction only if its fields [41:0] are zero. -/
theorem low42_of_decode_lpclr {w : Word} {i : Instr} (hop : w.extractLsb' 54 10 = 0x0CA#10) (h : decodeWord w = .ok i) :
    w.extractLsb' 0 42 = 0 := by
  have hfields : decodeFields (splitWord w) = .ok i := by
    rw [decodeWord, hop, if_pos (by decide)] at h
    exact h
  cases hg : (splitWord w).guard.wf with
  | false => simp [decodeFields, hg] at hfields
  | true =>
    rw [decodeFields_op_lpclr hop hg] at hfields
    have hcheck := check_of_okIf hfields
    simp only [Bool.and_eq_true, beq_iff_eq, Bool.not_eq_true'] at hcheck
    obtain ⟨⟨⟨⟨⟨-, ha⟩, hb⟩, hp1⟩, hp2⟩, himm⟩ := hcheck
    rw [low42_eq_fields, ha, hb, hp1, hp2, himm]
    rfl

/-- LPCLR clears its set's active bit and retires. -/
theorem exec_lpclr_acts {s : State} {g : Guard} (n : BitVec 1) (ha : acts s 0 g [] []) : exec (.lpclr g n) s =
    .next (s.putSc s.cur { stream s with status := setBit (stream s).status n.toNat false }).retire := by
  rw [exec_lpclr, execLpclr, issue_acts (dst := none) _ ha]
  rfl

/-- Settles O9: the effect by the law of one given bit, the word by contraposition of `low42_of_decode_lpclr`. -/
theorem loopClear : Obligations.LoopClear := by
  refine ⟨?_, fun g n => ⟨rfl, rfl⟩, ?_⟩
  · intro s g n ha
    refine ⟨{ stream s with status := setBit (stream s).status n.toNat false }, rfl, ?_, _, exec_lpclr_acts n ha, passes_retire _⟩
    exact fun j _ => getLsbD_setBit _ n.toNat j false (by omega)
  · intro w hop hlow
    cases hdec : decodeWord w with
    | error e => exact ⟨e, rfl⟩
    | ok i => exact absurd (low42_of_decode_lpclr hop hdec) hlow

end Sys2Proof.Machine
end

section
/-! TRAP and BREAK (R110): the trap is the effect of the instruction itself, so it is taken once steps 3 to 6 of Table 4.4 let it act. -/
namespace Sys2Proof.Machine
open Safety

/-- An instruction whose own effect is a precise trap takes it when it acts and the trap can be taken, unless it is cause 2, which suspends
the team of a core (R295). -/
theorem completes_trapped_of_issue {i : Instr} {s : State} {cls : Nat} {g : Guard} {srcs : List Src} {dst : Option (BitVec 6)}
    {code detail : Nat} {tval : Word} (e : exec i s = issue cls g srcs dst s fun s => s.trap code detail tval) (hc : code ≠ 2)
    (ha : acts s cls g srcs dst.toList) (ht : canTrap s) : completes i s (trapped s code detail tval) := by
  have hnext : exec i s = .next (s.trap code detail tval) := by rw [e, issue_acts _ ha]
  exact ⟨_, hnext, trapped_trap s code detail tval hc ht⟩

/-- TRAP is an instruction of class 0 whose effect is cause 13 with its code in TVAL. -/
theorem exec_trapOp_eq_issue (g : Guard) (code : BitVec 16) (s : State) :
    exec (.trapOp g code) s = issue 0 g [] none s fun s => s.trap 13 0 (code.setWidth 64) := by
  rw [exec_trapOp, execTrapOp]

/-- BREAK is an instruction of class 0 whose effect is cause 12 with a TVAL of zero. -/
theorem exec_brk_eq_issue (g : Guard) (s : State) : exec (.brk g) s = issue 0 g [] none s fun s => s.trap 12 0 0 := by
  rw [exec_brk, execBrk]

/-- Settles O13: both traps by `completes_trapped_of_issue`, class and opcode by the fields that encode the two instructions. -/
theorem softwareTraps : Obligations.SoftwareTraps := by
  refine ⟨?_, fun g code => ⟨⟨rfl, rfl⟩, rfl, rfl⟩⟩
  intro s g code ha ht
  constructor
  · exact completes_trapped_of_issue (exec_trapOp_eq_issue g code s) (by decide) ha ht
  · exact completes_trapped_of_issue (exec_brk_eq_issue g s) (by decide) ha ht

end Sys2Proof.Machine
end

section
/-! The scalar words (Tables 4.1 to 4.7): joining and splitting fields, then decoding and encoding by fields.
From here on the text is elaborated one declaration after another, as the tests are: in parallel its threads reserve more memory than the check allows. -/
namespace Sys2Proof
set_option Elab.async false

/-- Bit j of a field that is put at bit k of a word of N bits. -/
theorem getLsbD_place {n N : Nat} (x : BitVec n) (k j : Nat) (hj : j < N) :
    ((x.setWidth N) <<< k).getLsbD j = (decide (k ≤ j) && x.getLsbD (j - k)) := by
  simp only [BitVec.getLsbD_shiftLeft, BitVec.getLsbD_setWidth]
  by_cases h : k ≤ j
  · simp [hj, h, show ¬ j < k by omega]; omega
  · simp [h, show j < k by omega]

/-- A field of n bits put at bit k is read back there. -/
theorem extractLsb'_place_same {n N k : Nat} (x : BitVec n) (h : k + n ≤ N) : ((x.setWidth N) <<< k).extractLsb' k n = x := by
  ext j hj
  rw [BitVec.getElem_extractLsb', getLsbD_place x k _ (by omega)]
  simp [BitVec.getLsbD_eq_getElem hj]

/-- What is put at bit k leaves the bits below k zero. -/
theorem extractLsb'_place_above {n N k i m : Nat} (x : BitVec n) (h : i + m ≤ k) : ((x.setWidth N) <<< k).extractLsb' i m = 0#m := by
  ext j hj
  simp
  omega

/-- What is put at bit k leaves the bits from k + n on zero. -/
theorem extractLsb'_place_below {n N k i m : Nat} (x : BitVec n) (h : k + n ≤ i) : ((x.setWidth N) <<< k).extractLsb' i m = 0#m := by
  ext j hj
  simp only [BitVec.getElem_extractLsb', BitVec.getLsbD_shiftLeft, BitVec.getLsbD_setWidth, BitVec.getElem_zero]
  rw [BitVec.getLsbD_of_ge x _ (by omega)]
  simp

/-- The bits that a field of w at bit k covers. -/
theorem getLsbD_place_extract {N : Nat} (w : BitVec N) (k n j : Nat) (hj : j < N) :
    (((w.extractLsb' k n).setWidth N) <<< k).getLsbD j = (decide (k ≤ j ∧ j < k + n) && w.getLsbD j) := by
  rw [getLsbD_place _ _ _ hj, BitVec.getLsbD_extractLsb']
  by_cases h : k ≤ j
  · rw [Nat.add_sub_cancel' h]
    simp [h, Nat.sub_lt_iff_lt_add h, Nat.add_comm]
  · simp [h]

/-- One bit of w, as a field at its place. -/
theorem getLsbD_place_ofBool {N : Nat} (w : BitVec N) (k j : Nat) (hj : j < N) :
    (((BitVec.ofBool (w.getLsbD k)).setWidth N) <<< k).getLsbD j = (decide (j = k) && w.getLsbD j) := by
  rw [getLsbD_place _ _ _ hj, BitVec.getLsbD_ofBool]
  by_cases h : j = k
  · simp [h]
  · by_cases hk : k ≤ j
    · simp [h, show ¬ j - k = 0 by omega]
    · simp [h, hk]

/-- A field at bit 0. -/
theorem setWidth_eq_place_zero {n N : Nat} (x : BitVec n) : x.setWidth N = (x.setWidth N) <<< 0 := by
  simp

theorem splitWord_joinWord (f : Fields) : splitWord (joinWord f) = f := by
  unfold joinWord splitWord
  rw [setWidth_eq_place_zero f.imm]
  simp only [BitVec.extractLsb'_or, extractLsb'_place_same, extractLsb'_place_above, extractLsb'_place_below, Nat.reduceAdd, Nat.reduceLeDiff,
    BitVec.or_zero, BitVec.zero_or]
  simp

theorem joinWord_splitWord (w : Word) : joinWord (splitWord w) = w := by
  apply BitVec.eq_of_getLsbD_eq
  intro j hj
  unfold joinWord splitWord
  rw [setWidth_eq_place_zero (w.extractLsb' 0 28)]
  simp only [BitVec.getLsbD_or, getLsbD_place_extract, getLsbD_place_ofBool, hj]
  cases w.getLsbD j with
  | false => simp
  | true => simp; omega

/-! ### Fields that the decoder cuts shorter -/

/-- A field whose upper bits are zero is its lower part, extended. -/
theorem setWidth_setWidth_of_high_zero {n : Nat} (m : Nat) (x : BitVec n) (h : ∀ j, m ≤ j → x.getLsbD j = false) :
    (x.setWidth m).setWidth n = x := by
  ext j hj
  simp only [BitVec.getElem_setWidth, BitVec.getLsbD_setWidth]
  by_cases hm : j < m
  · simp [hm, BitVec.getLsbD_eq_getElem hj]
  · rw [BitVec.getLsbD_eq_getElem hj |>.symm.trans (h j (by omega))]
    simp [hm]

/-- Upper bits that read as zero, bit by bit. -/
theorem getLsbD_of_extractLsb'_zero {n m k : Nat} {x : BitVec n} (h : x.extractLsb' m k = 0#k) (hn : n ≤ m + k) :
    ∀ j, m ≤ j → x.getLsbD j = false := by
  intro j hj
  by_cases hjn : j < n
  · have := congrArg (·.getLsbD (j - m)) h
    simpa [show j - m < k by omega, show m + (j - m) = j by omega] using this
  · exact BitVec.getLsbD_of_ge x j (by omega)

/-- A field of six bits whose top bit is zero. -/
theorem setWidth_five_of_top_zero {x : BitVec 6} (h : x.getLsbD 5 = false) : (x.setWidth 5).setWidth 6 = x := by
  refine setWidth_setWidth_of_high_zero 5 x fun j hj => ?_
  by_cases h5 : j = 5
  · exact h5 ▸ h
  · exact BitVec.getLsbD_of_ge x j (by omega)

/-- A field whose bits from m on are zero. -/
theorem setWidth_of_extractLsb'_zero {n m : Nat} {x : BitVec n} (h : x.extractLsb' m (n - m) = 0#(n - m)) : (x.setWidth m).setWidth n = x :=
  setWidth_setWidth_of_high_zero m x (getLsbD_of_extractLsb'_zero h (by omega))

/-- The immediate field of X format is its unit and its immediate. -/
theorem unitImm_unit_off (x : BitVec 28) : unitImm (x.extractLsb' 22 6) (x.setWidth 22) = x := by
  apply BitVec.eq_of_getLsbD_eq
  intro j hj
  simp only [unitImm, BitVec.getLsbD_or, getLsbD_place_extract x 22 6 j hj, BitVec.getLsbD_setWidth, hj]
  cases x.getLsbD j with
  | false => simp
  | true => simp; omega

/-- The immediate field of EXTU, EXTS and INS is its length and its position. -/
theorem lenPos_extract {x : BitVec 28} (h : x.extractLsb' 12 16 = 0#16) : lenPos (x.extractLsb' 6 6) (x.extractLsb' 0 6) = x := by
  have hhigh := getLsbD_of_extractLsb'_zero h (by decide)
  apply BitVec.eq_of_getLsbD_eq
  intro j hj
  unfold lenPos
  rw [setWidth_eq_place_zero (x.extractLsb' 0 6)]
  simp only [BitVec.getLsbD_or, getLsbD_place_extract _ _ _ _ hj]
  by_cases h12 : 12 ≤ j
  · simp [hhigh j h12]
  · cases x.getLsbD j with
    | false => simp
    | true => simp; omega

/-- What decoding may answer for fields f: nothing, or a well-formed instruction whose fields are f. -/
def DecodesTo (f : Fields) (r : Except DecodeError Instr) : Prop := ∀ i, r = .ok i → i.wellFormed = true ∧ encodeFields i = some f

theorem decodesTo_error (f : Fields) (e : DecodeError) : DecodesTo f (.error e) := by
  intro i h
  cases h

theorem decodesTo_okIf {f : Fields} {c : Bool} {i : Instr} (h : c = true → i.wellFormed = true ∧ encodeFields i = some f) :
    DecodesTo f (okIf f c i) := by
  intro j hj
  unfold okIf at hj
  split at hj
  · next hc => 
    cases hj
    exact h hc
  · cases hj

theorem decodesTo_ite {f : Fields} {c : Prop} [Decidable c] {a b : Except DecodeError Instr} (ha : c → DecodesTo f a) (hb : ¬ c → DecodesTo f b) :
    DecodesTo f (if c then a else b) := by
  split
  · next h => exact ha h
  · next h => exact hb h


/-- X format with an immediate of zero. -/
theorem unitImm_zero_off {x : BitVec 28} (ho : x.setWidth 22 = 0#22) : unitImm (x.extractLsb' 22 6) 0#22 = x := by
  rw [← ho, unitImm_unit_off]

/-- X format with a unit of zero. -/
theorem unitImm_zero_unit {x : BitVec 28} (hu : x.extractLsb' 22 6 = 0#6) : unitImm 0#6 (x.setWidth 22) = x := by
  rw [← hu, unitImm_unit_off]

/-- The count of LOOPI is the two source fields. -/
theorem extractLsb'_append_fields (a b : BitVec 6) : (a ++ b).extractLsb' 6 6 = a ∧ (a ++ b).extractLsb' 0 6 = b := by
  constructor
  · ext j hj
    simp only [BitVec.getElem_extractLsb', BitVec.getLsbD_append]
    simp [BitVec.getLsbD_eq_getElem hj]
  · ext j hj
    simp only [BitVec.getElem_extractLsb', BitVec.getLsbD_append]
    simp [hj]

theorem decodesTo_decSemrd {f : Fields} (hg : f.guard.wf = true) (hop : f.op = 0x187#10) : DecodesTo f (decSemrd f) := by
  obtain ⟨op, gp, gn, d, a, b, p1, p2, imm⟩ := f
  unfold decSemrd
  refine decodesTo_ite (fun h => decodesTo_okIf fun hc => ?_) fun _ => decodesTo_okIf fun hc => ?_
  all_goals
    simp only [Fields.unit5, Fields.unit, Fields.off, Bool.and_eq_true, beq_iff_eq, Bool.not_eq_true'] at *
    refine ⟨hg, congrArg some ?_⟩
    simp only [baseFields, Fields.guard, Fields.sem, Fields.unit, hop, hc, setWidth_five_of_top_zero]
  · rw [unitImm_zero_off h]
  · rw [← hc.2, unitImm_unit_off]

/-- The six register numbers of q_BASE and q_COUNT (R133). -/
theorem ring_creg_cases {c : BitVec 12} (hrow : cregOwnRow c.toNat = true) (h1 : c ≠ 0x062#12) (h2 : c ≠ 0x801#12) (h3 : c ≠ 0x809#12)
    (h4 : c ≠ 0x820#12) (h5 : c ≠ 0x822#12) : c = 0x40#12 ∨ c = 0x41#12 ∨ c = 0x44#12 ∨ c = 0x45#12 ∨ c = 0x48#12 ∨ c = 0x49#12 := by
  simp only [cregOwnRow, Bool.or_eq_true, Bool.and_eq_true, decide_eq_true_eq, beq_iff_eq] at hrow
  bv_omega

/-- The register number of a ring register is what its queue and its kind give (R133). -/
theorem ringImm_creg {c : BitVec 12} (h : c = 0x40#12 ∨ c = 0x41#12 ∨ c = 0x44#12 ∨ c = 0x45#12 ∨ c = 0x48#12 ∨ c = 0x49#12) :
    c.extractLsb' 2 2 ≠ 3#2 ∧ ringImm (c.extractLsb' 2 2) (c.getLsbD 0) = c.setWidth 28 := by
  rcases h with rfl | rfl | rfl | rfl | rfl | rfl <;> decide

theorem decodesTo_decMtcr {f : Fields} (hg : f.guard.wf = true) (hop : f.op = 0x201#10) : DecodesTo f (decMtcr f) := by
  unfold decMtcr
  refine decodesTo_ite (fun _ => decodesTo_error _ _) fun hc => ?_
  simp only [Fields.cregOk, Bool.and_eq_true, Bool.not_eq_true', Bool.not_eq_false, beq_iff_eq] at hc
  obtain ⟨⟨⟨⟨hsrc, hd⟩, hb⟩, hp2⟩, himm, hassigned⟩ := hc
  have hcreg : f.creg.setWidth 28 = f.imm := setWidth_of_extractLsb'_zero himm
  have hfields (c : BitVec 28) (hi : c = f.imm) : { baseFields 0x201#10 f.guard with a := f.src1.r, p1 := f.src1.trap, imm := c } = f := by
    obtain ⟨op, gp, gn, d, a, b, p1, p2, imm⟩ := f
    simp only at hop hd hb hp2 hi
    simp only [baseFields, Fields.guard, Fields.src1, hop, hd, hb, hp2, hi]
  have hrow (c : BitVec 12) (i : Instr) (hwf : i.wellFormed = true)
      (hi : encodeFields i = some { baseFields 0x201#10 f.guard with a := f.src1.r, p1 := f.src1.trap, imm := c.setWidth 28 })
      (h : (f.creg == c) = true) : DecodesTo f (.ok i) := by
    intro j hj
    cases hj
    rw [beq_iff_eq] at h
    exact ⟨hwf, hi.trans (congrArg some (hfields _ (h ▸ hcreg)))⟩
  have hwf : (f.guard.wf && f.src1.wf) = true := by rw [hg, hsrc, Bool.and_self]
  refine decodesTo_ite (hrow 0x062#12 (.mleaseWrite _ _) hwf rfl) fun h1 => ?_
  refine decodesTo_ite (hrow 0x801#12 (.corecapWrite _ _) hwf rfl) fun h2 => ?_
  refine decodesTo_ite (hrow 0x809#12 (.lcmentWrite _ _) hwf rfl) fun h3 => ?_
  refine decodesTo_ite (hrow 0x820#12 (.leadcasWrite _ _) hwf rfl) fun h4 => ?_
  refine decodesTo_ite (hrow 0x822#12 (.hbeatWrite _ _) hwf rfl) fun h5 => ?_
  rw [beq_iff_eq] at h1 h2 h3 h4 h5
  refine decodesTo_ite (fun hown => ?_) fun hown => ?_
  · obtain ⟨hq, hring⟩ := ringImm_creg (ring_creg_cases hown h1 h2 h3 h4 h5)
    intro j hj
    cases hj
    refine ⟨?_, congrArg some (hfields _ (hring.trans hcreg))⟩
    simp only [Instr.wellFormed, hwf, hq, ne_eq, not_false_iff, decide_true, Bool.and_self]
  · refine hrow f.creg _ ?_ rfl (beq_self_eq_true _)
    simp only [Instr.wellFormed, cregPlain, hwf, hassigned, hown, Bool.and_self, Bool.not_false]

set_option linter.unusedSimpArgs false in
theorem decodesTo_decodeFields (f : Fields) : DecodesTo f (decodeFields f) := by
  unfold decodeFields decGroup0 decGroup1 decGroup2 decGroup3 decGroup4 decGroup5 decGroup6 decGroup7 decGroup8 decGroup9
  refine decodesTo_ite (fun _ => decodesTo_error _ _) fun hg => ?_
  repeat' with_reducible refine decodesTo_ite (fun h => ?_) fun _ => ?_
  all_goals try exact decodesTo_error _ _
  all_goals try exact decodesTo_decSemrd (by simpa using hg) (by simpa using h)
  all_goals try exact decodesTo_decMtcr (by simpa using hg) (by simpa using h)
  all_goals
    refine decodesTo_okIf fun hc => ?_
    obtain ⟨op, gp, gn, d, a, b, p1, p2, imm⟩ := f
    simp only [Fields.guard, Bool.not_eq_true', Bool.not_eq_true, Bool.not_eq_false] at hg
    simp only [Fields.d5, Fields.a5, Fields.b5, Fields.d1, Fields.unit5, Fields.unitQ, Fields.unit, Fields.off, Fields.src1, Fields.src2, Fields.cregOk, Fields.creg, Fields.queue, 
     Bool.and_eq_true, beq_iff_eq, Bool.not_eq_true', decide_eq_true_eq] at h hc
    refine ⟨?_, congrArg some ?_⟩
    · simp only [Instr.wellFormed, Fields.guard, Fields.src1, Fields.src2, Fields.pd, Fields.sem, Fields.off, Fields.unit, Fields.queue, Fields.creg, hg, hc,
       Bool.and_true, Bool.and_self, decide_true, ne_eq, not_false_iff]
    · simp only [baseFields, Fields.guard, Fields.src1, Fields.src2, Fields.pd, Fields.sem, Fields.off, Fields.unit, Fields.queue, Fields.creg, hg, hc, h,
        setWidth_five_of_top_zero, unitImm_unit_off, unitImm_zero_off, unitImm_zero_unit, lenPos_extract, setWidth_of_extractLsb'_zero, extractLsb'_append_fields, Nat.reduceSub]
    

/-! ### Fields that the encoder extends -/

/-- The bits that an extension adds are zero. -/
theorem extractLsb'_setWidth_high {n N m k : Nat} (x : BitVec n) (h : n ≤ m) : (x.setWidth N).extractLsb' m k = 0#k := by
  ext j hj
  simp only [BitVec.getElem_extractLsb', BitVec.getLsbD_setWidth, BitVec.getLsbD_of_ge x (m + j) (by omega), Bool.and_false, BitVec.getElem_zero]

/-- A bit that an extension adds is zero. -/
theorem getLsbD_setWidth_high {n N m : Nat} (x : BitVec n) (h : n ≤ m) : (x.setWidth N).getLsbD m = false := by
  rw [BitVec.getLsbD_setWidth, BitVec.getLsbD_of_ge x m h, Bool.and_false]

theorem unit_unitImm (u : BitVec 6) (o : BitVec 22) : (unitImm u o).extractLsb' 22 6 = u := by
  rw [unitImm, BitVec.extractLsb'_or, extractLsb'_place_same u (by decide), extractLsb'_setWidth_high o (by decide), BitVec.or_zero]

theorem off_unitImm (u : BitVec 6) (o : BitVec 22) : (unitImm u o).setWidth 22 = o := by
  ext j hj
  simp [unitImm]

theorem pos_lenPos (l p : BitVec 6) : (lenPos l p).extractLsb' 0 6 = p := by
  rw [lenPos, setWidth_eq_place_zero p, BitVec.extractLsb'_or, extractLsb'_place_above l (by decide), extractLsb'_place_same p (by decide), BitVec.zero_or]

theorem len_lenPos (l p : BitVec 6) : (lenPos l p).extractLsb' 6 6 = l := by
  rw [lenPos, BitVec.extractLsb'_or, extractLsb'_place_same l (by decide), extractLsb'_setWidth_high p (by decide), BitVec.or_zero]

theorem high_lenPos (l p : BitVec 6) : (lenPos l p).extractLsb' 12 16 = 0#16 := by
  rw [lenPos, BitVec.extractLsb'_or, extractLsb'_place_below l (by decide), extractLsb'_setWidth_high p (by decide), BitVec.or_zero]

/-- The count of LOOPI, from the two source fields. -/
theorem append_extractLsb'_fields (c : BitVec 12) : c.extractLsb' 6 6 ++ c.extractLsb' 0 6 = c := by
  apply BitVec.eq_of_getLsbD_eq
  intro j hj
  simp only [BitVec.getLsbD_append, BitVec.getLsbD_extractLsb']
  by_cases h : j < 6
  · simp [h]
  · simp [h, show j - 6 < 6 by omega, show 6 + (j - 6) = j by omega]

/-- The control register number that an MTCR's fields hold. -/
theorem creg_mtcrFields (g : Guard) (a : Src) (c : BitVec 12) :
    Fields.creg { baseFields 0x201#10 g with a := a.r, p1 := a.trap, imm := c.setWidth 28 } = c := by
  simp [Fields.creg]

/-- An MTCR's fields pass the checks of its format when its register is assigned. -/
theorem decMtcr_checks {g : Guard} {a : Src} {c : BitVec 12} {f : Fields}
    (hf : f = { baseFields 0x201#10 g with a := a.r, p1 := a.trap, imm := c.setWidth 28 }) (ha : a.wf = true) (hc : cregAssigned c.toNat = true) :
    f.guard = g ∧ f.src1 = a ∧ f.creg = c ∧ (f.src1.wf && f.d == 0#6 && f.b == 0#6 && !f.p2 && f.cregOk) = true := by
  subst hf
  refine ⟨rfl, rfl, creg_mtcrFields g a c, ?_⟩
  unfold Fields.cregOk
  rw [creg_mtcrFields, hc]
  simp [ha, baseFields, Fields.src1, extractLsb'_setWidth_high]

/-- Decoding an MTCR goes by the register's number alone, once its checks are passed. -/
theorem decodeFields_mtcr {g : Guard} {a : Src} (c : BitVec 12) (hwf : g.wf = true ∧ a.wf = true) (hc : cregAssigned c.toNat = true) :
    decodeFields { baseFields 0x201#10 g with a := a.r, p1 := a.trap, imm := c.setWidth 28 } =
      if c == 0x062#12 then .ok (.mleaseWrite g a) else if c == 0x801#12 then .ok (.corecapWrite g a)
      else if c == 0x809#12 then .ok (.lcmentWrite g a) else if c == 0x820#12 then .ok (.leadcasWrite g a)
      else if c == 0x822#12 then .ok (.hbeatWrite g a)
      else if cregOwnRow c.toNat then .ok (.ringRegisterWrite g a (c.extractLsb' 2 2) (c.getLsbD 0)) else .ok (.mtcr g a c) := by
  generalize hf : { baseFields 0x201#10 g with a := a.r, p1 := a.trap, imm := c.setWidth 28 } = f
  obtain ⟨hguard, hsrc, hcreg, hchecks⟩ := decMtcr_checks hf.symm hwf.2 hc
  have hop : f.op = 0x201#10 := by rw [← hf]; rfl
  have hgroup : decodeFields f = decMtcr f := by simp [decodeFields, decGroup9, hguard, hwf.1, hop]
  rw [hgroup, decMtcr, hchecks, hguard, hsrc, hcreg]
  rfl

/-- The ring registers' numbers are assigned, and give back queue and kind (R133). -/
theorem ring_creg (q : BitVec 2) (count : Bool) (hq : q ≠ 3#2) : ∃ c : BitVec 12, ringImm q count = c.setWidth 28 ∧ cregAssigned c.toNat = true ∧
    cregOwnRow c.toNat = true ∧ c ≠ 0x062#12 ∧ c ≠ 0x801#12 ∧ c ≠ 0x809#12 ∧ c ≠ 0x820#12 ∧ c ≠ 0x822#12 ∧
    c.extractLsb' 2 2 = q ∧ c.getLsbD 0 = count := by
  refine ⟨(ringImm q count).setWidth 12, ?_⟩
  revert q count
  decide

/-- A plain register is none of those whose MTCR is a row of its own. -/
theorem not_ownRow_of_plain {c : BitVec 12} (h : cregPlain c.toNat = true) : cregAssigned c.toNat = true ∧ cregOwnRow c.toNat = false ∧
    c ≠ 0x062#12 ∧ c ≠ 0x801#12 ∧ c ≠ 0x809#12 ∧ c ≠ 0x820#12 ∧ c ≠ 0x822#12 := by
  simp only [cregPlain, Bool.and_eq_true, Bool.not_eq_true'] at h
  refine ⟨h.1, h.2, ?_, ?_, ?_, ?_, ?_⟩ <;> rintro rfl <;> exact absurd h.2 (by decide)

set_option linter.unusedSimpArgs false in
theorem decodeFields_encodeFields {i : Instr} {f : Fields} (hwf : i.wellFormed = true) (h : encodeFields i = some f) :
   opAssigned f.op.toNat = true ∧ decodeFields f = .ok i := by
  cases i
  all_goals cases h
  case mleaseWrite g a => exact ⟨rfl, decodeFields_mtcr 0x062#12 ((Bool.and_eq_true_iff).mp hwf) (by decide)⟩
  case corecapWrite g a => exact ⟨rfl, decodeFields_mtcr 0x801#12 ((Bool.and_eq_true_iff).mp hwf) (by decide)⟩
  case lcmentWrite g a => exact ⟨rfl, decodeFields_mtcr 0x809#12 ((Bool.and_eq_true_iff).mp hwf) (by decide)⟩
  case leadcasWrite g a => exact ⟨rfl, decodeFields_mtcr 0x820#12 ((Bool.and_eq_true_iff).mp hwf) (by decide)⟩
  case hbeatWrite g a => exact ⟨rfl, decodeFields_mtcr 0x822#12 ((Bool.and_eq_true_iff).mp hwf) (by decide)⟩
  case mtcr g a c =>
    simp only [Instr.wellFormed, Bool.and_eq_true] at hwf
    obtain ⟨hassigned, hown, h1, h2, h3, h4, h5⟩ := not_ownRow_of_plain hwf.2
    refine ⟨rfl, (decodeFields_mtcr c hwf.1 hassigned).trans ?_⟩
    simp [hown, h1, h2, h3, h4, h5]
  case ringRegisterWrite g a q count =>
    simp only [Instr.wellFormed, Bool.and_eq_true, decide_eq_true_eq] at hwf
    obtain ⟨c, hc, hassigned, hown, h1, h2, h3, h4, h5, hqueue, hcount⟩ := ring_creg q count hwf.2
    refine ⟨rfl, ?_⟩
    rw [hc, decodeFields_mtcr c hwf.1 hassigned, hqueue, hcount]
    simp [hown, h1, h2, h3, h4, h5]
  all_goals
    refine ⟨rfl, ?_⟩
    simp only [Instr.wellFormed, Bool.and_eq_true, decide_eq_true_eq] at hwf
    simp [baseFields, decodeFields, decGroup0, decGroup1, decGroup2, decGroup3, decGroup4, decGroup5, decGroup6, decGroup7, decGroup8, decGroup9, decSemrd,
     Fields.d5, Fields.a5, Fields.b5, Fields.d1, Fields.unit5, Fields.unitQ, Fields.unit, Fields.off, Fields.src1, Fields.src2, Fields.cregOk, Fields.creg, Fields.queue, Fields.guard,
     Fields.pd, Fields.sem, hwf, okIf, unit_unitImm, off_unitImm, pos_lenPos, len_lenPos, high_lenPos, extractLsb'_setWidth_high, getLsbD_setWidth_high, append_extractLsb'_fields]

/-- Settles O55: the fields determine the word, and decoding and encoding agree on the fields. -/
theorem scalarEncodingRoundTrip : Obligations.ScalarEncodingRoundTrip := by
  constructor
  · intro i w hwf h
    unfold encodeScalar at h
    split at h
    · cases h
      have hop : opAssigned (w.extractLsb' 54 10).toNat = false := (Bool.not_eq_eq_eq_not).mp hwf
      rw [decodeWord, hop]
      rfl
    · obtain ⟨f, hf, rfl⟩ := Option.map_eq_some_iff.mp h
      obtain ⟨hop, hdec⟩ := decodeFields_encodeFields hwf hf
      have hsplit := splitWord_joinWord f
      have hopw : (joinWord f).extractLsb' 54 10 = f.op := congrArg Fields.op hsplit
      rw [decodeWord, hopw, if_pos hop, hsplit, hdec]
  · intro w i h
    unfold decodeWord at h
    split at h
    · obtain ⟨hwf, hf⟩ := decodesTo_decodeFields (splitWord w) i h
      refine ⟨hwf, ?_⟩
      unfold encodeScalar
      split
      · cases hf
      · rw [hf, Option.map_some, joinWord_splitWord]
    · next hop =>
      cases h
      exact ⟨congrArg not (Bool.eq_false_of_not_eq_true hop), rfl⟩

end Sys2Proof
end

section
/-! The records (Tables 8.3, 8.4 and 8.10 to 8.13): joining and splitting their 512 bits, and the table of operations read both ways. -/
namespace Sys2Proof
set_option Elab.async false

theorem splitDesc_joinDesc (d : Desc) : splitDesc (joinDesc d) = d := by
  unfold joinDesc splitDesc
  rw [setWidth_eq_place_zero d.s0]
  simp only [BitVec.extractLsb'_or, extractLsb'_place_same, extractLsb'_place_above, extractLsb'_place_below, Nat.reduceAdd, Nat.reduceLeDiff,
    BitVec.or_zero, BitVec.zero_or]

theorem joinDesc_splitDesc (w : BitVec 128) : joinDesc (splitDesc w) = w := by
  apply BitVec.eq_of_getLsbD_eq
  intro j hj
  unfold joinDesc splitDesc
  rw [setWidth_eq_place_zero (w.extractLsb' 0 20)]
  simp only [BitVec.getLsbD_or, getLsbD_place_extract, hj]
  cases w.getLsbD j with
  | false => simp
  | true => simp; omega

theorem fields_joinRec (c : BitVec 4) (o : BitVec 8) (r : Rec) : (joinRec c o r).extractLsb' 60 4 = c ∧ (joinRec c o r).extractLsb' 52 8 = o := by
  unfold joinRec
  rw [setWidth_eq_place_zero r.low]
  simp only [BitVec.extractLsb'_or, extractLsb'_place_same, extractLsb'_place_above, extractLsb'_place_below, Nat.reduceAdd, Nat.reduceLeDiff,
    BitVec.or_zero, BitVec.zero_or, and_self]

theorem splitRec_joinRec (c : BitVec 4) (o : BitVec 8) (r : Rec) : splitRec (joinRec c o r) = r := by
  unfold joinRec splitRec
  rw [setWidth_eq_place_zero r.low]
  simp only [BitVec.extractLsb'_or, extractLsb'_place_same, extractLsb'_place_above, extractLsb'_place_below, Nat.reduceAdd, Nat.reduceLeDiff,
    BitVec.or_zero, BitVec.zero_or, splitDesc_joinDesc]
  simp

theorem joinRec_splitRec (w : BitVec 512) : joinRec (w.extractLsb' 60 4) (w.extractLsb' 52 8) (splitRec w) = w := by
  apply BitVec.eq_of_getLsbD_eq
  intro j hj
  unfold joinRec splitRec
  simp only [joinDesc_splitDesc]
  rw [setWidth_eq_place_zero (w.extractLsb' 0 5)]
  simp only [BitVec.getLsbD_or, getLsbD_place_extract, getLsbD_place_ofBool, hj]
  cases w.getLsbD j with
  | false => simp
  | true => simp; omega

/-- What the table of operations may answer for class c and code o: an operation whose parts are these where Tables 8.10 to 8.13 assign one,
and else nothing. -/
def NamesOp (c : BitVec 4) (o : BitVec 8) (r : Rec) (x : Option Instr) : Prop :=
  match x with
  | some i => recParts i = some (c, o, r) ∧ i.wellFormed = true ∧ recAssigned c.toNat o.toNat = true
  | none => recAssigned c.toNat o.toNat = false

theorem namesOp_ite {c : BitVec 4} {o : BitVec 8} {r : Rec} {p : Prop} [Decidable p] {x y : Option Instr} (hx : p → NamesOp c o r x)
    (hy : ¬ p → NamesOp c o r y) : NamesOp c o r (if p then x else y) := by
  split
  · next h => exact hx h
  · next h => exact hy h

/-- An entry of the table, at its class and its code. -/
theorem namesOp_some {c : BitVec 4} {o : BitVec 8} {r : Rec} {i : Instr} (c' : BitVec 4) (o' : BitVec 8) (hi : recParts i = some (c', o', r))
    (hwf : i.wellFormed = true)
    (has : recAssigned c'.toNat o'.toNat = true) (hc : (c == c') = true) (ho : (o == o') = true) : NamesOp c o r (some i) := by
  rw [beq_iff_eq] at hc ho
  exact ⟨hc ▸ ho ▸ hi, hwf, hc ▸ ho ▸ has⟩

/-- A class from 4 on names no engine. -/
theorem recAssigned_of_class_ge {n : Nat} (m : Nat) (h : 4 ≤ n) : recAssigned n m = false := by
  obtain ⟨k, rfl⟩ := Nat.exists_eq_add_of_le' h
  rfl

theorem namesOp_recInstr (c : BitVec 4) (o : BitVec 8) (r : Rec) : NamesOp c o r (recInstr c o r) := by
  unfold recInstr
  refine namesOp_ite (fun hc => ?_) fun hc0 => namesOp_ite (fun hc => ?_) fun hc1 => namesOp_ite (fun hc => ?_) fun hc2 =>
    namesOp_ite (fun hc => ?_) fun hc3 => recAssigned_of_class_ge _ ?_
  case refine_5 =>
    rw [beq_iff_eq] at hc0 hc1 hc2 hc3
    bv_omega
  all_goals
    repeat' with_reducible refine namesOp_ite (fun ho => namesOp_some _ _ rfl rfl rfl hc ho) fun _ => ?_
    unfold NamesOp
    rw [beq_iff_eq] at hc
    simp only [hc, recAssigned, BitVec.reduceToNat, beq_iff_eq, Bool.or_eq_false_iff, Bool.and_eq_false_iff, decide_eq_false_iff_not, beq_eq_false_iff_ne] at *
    bv_omega

theorem recInstr_of_recParts {i : Instr} {c : BitVec 4} {o : BitVec 8} {r : Rec} (h : recParts i = some (c, o, r)) : recInstr c o r = some i := by
  cases i
  all_goals cases h
  all_goals rfl

theorem recInstr_eq_none {c : BitVec 4} {o : BitVec 8} (r : Rec) (h : recAssigned c.toNat o.toNat = false) : recInstr c o r = none := by
  have hnames := namesOp_recInstr c o r
  cases hrec : recInstr c o r with
  | none => rfl
  | some i =>
    rw [hrec] at hnames
    obtain ⟨-, -, hassigned⟩ := hnames
    exact absurd (h.symm.trans hassigned) Bool.false_ne_true

/-- An operation of the table is encoded from its parts. -/
theorem encodeRecord_of_recParts {i : Instr} {p : BitVec 4 × BitVec 8 × Rec} (h : recParts i = some p) :
    encodeRecord i = some (joinRec p.1 p.2.1 p.2.2) := by
  unfold encodeRecord
  split
  · cases h
  · rw [h, Option.map_some]

/-- Settles O56: the 512 bits determine class, code and record, and the table of operations reads the same both ways. -/
theorem recordEncodingRoundTrip : Obligations.RecordEncodingRoundTrip := by
  constructor
  · intro i w hwf h
    unfold encodeRecord at h
    split at h
    · cases h
      have hnone := recInstr_eq_none (splitRec w) ((Bool.not_eq_eq_eq_not).mp hwf)
      rw [decodeRecord, hnone, Option.getD_none]
    · obtain ⟨⟨c, o, r⟩, hparts, rfl⟩ := Option.map_eq_some_iff.mp h
      obtain ⟨hc, ho⟩ := fields_joinRec c o r
      rw [decodeRecord, hc, ho, splitRec_joinRec, recInstr_of_recParts hparts, Option.getD_some]
  · intro w
    have hnames := namesOp_recInstr (w.extractLsb' 60 4) (w.extractLsb' 52 8) (splitRec w)
    unfold decodeRecord
    cases hrec : recInstr (w.extractLsb' 60 4) (w.extractLsb' 52 8) (splitRec w) with
    | none =>
      rw [hrec] at hnames
      exact ⟨congrArg not hnames, rfl⟩
    | some i =>
      rw [hrec] at hnames
      obtain ⟨hparts, hwf, -⟩ := hnames
      exact ⟨hwf, (encodeRecord_of_recParts hparts).trans (congrArg some (joinRec_splitRec w))⟩

end Sys2Proof
end

section
/-! The words that the spec writes out, and the state after reset: closed facts, by evaluation. -/

namespace Sys2Proof
set_option Elab.async false

/-- Settles O59: each word is closed, so its decoding is evaluated. -/
theorem sampleDecodings : Obligations.SampleDecodings := by
  refine ⟨?_, ?_, ?_, ?_, ?_, ?_, ?_, ?_, ?_, ?_, ?_, ?_, ?_⟩
  all_goals rfl

namespace Machine

/-- A stream that has no register listed reads every register as zero. -/
theorem reg_of_regs_nil {s : Scalar} (h : s.regs = []) (r : BitVec 6) : s.reg r = 0 := by
  unfold Scalar.reg
  rw [h]
  split <;> rfl

/-- Settles O60: nothing is listed after reset, so each core, quad, die and stream reads as the reset value of its kind. -/
theorem resetState : Obligations.ResetState := by
  refine ⟨?_, ?_, ?_, fun n => ?_, fun d => ?_, fun p => ⟨?_, ?_, ?_⟩, fun p k => ?_, fun a => ⟨?_, ?_, ?_, fun r => reg_of_regs_nil rfl r⟩⟩
  all_goals rfl

end Machine
end Sys2Proof
end

section
/-! What leaves memory as it is: of each operation of the state that writes no byte, that the memory is the one before. -/
namespace Sys2Proof.Machine
set_option Elab.async false

/-- A fold whose steps leave memory alone leaves it alone. -/
theorem foldl_mem {α : Type} {g : State → α → State} (h : ∀ s a, (g s a).mem = s.mem) (l : List α) (s : State) : (l.foldl g s).mem = s.mem := by
  induction l generalizing s with
  | nil => rfl
  | cons a l ih => rw [List.foldl_cons, ih, h]

@[simp] theorem State_putSc_mem (s : State) (a : ℕ) (x : Scalar) : (State.putSc s a x).mem = s.mem := rfl

@[simp] theorem State_putCo_mem (s : State) (p : ℕ) (x : Core) : (State.putCo s p x).mem = s.mem := rfl

@[simp] theorem State_putQd_mem (s : State) (q : ℕ) (x : Quad) : (State.putQd s q x).mem = s.mem := rfl

@[simp] theorem State_putDi_mem (s : State) (d : ℕ) (x : Die) : (State.putDi s d x).mem = s.mem := rfl

@[simp] theorem State_putCx_mem (s : State) (c : ℕ) (x : CtxRun) : (State.putCx s c x).mem = s.mem := rfl

@[simp] theorem State_putTm_mem (s : State) (t : ℕ) (x : Team) : (State.putTm s t x).mem = s.mem := rfl

@[simp] theorem State_upSc_mem (s : State) (f : Scalar → Scalar) : (State.upSc s f).mem = s.mem := rfl

@[simp] theorem State_upCo_mem (s : State) (p : ℕ) (f : Core → Core) : (State.upCo s p f).mem = s.mem := rfl

@[simp] theorem State_upTm_mem (s : State) (t : ℕ) (f : Team → Team) : (State.upTm s t f).mem = s.mem := by
  simp only [State.upTm]
  repeat' split
  all_goals simp_all

@[simp] theorem State_wr_mem (s : State) (r : BitVec 6) (v : Word) : (State.wr s r v).mem = s.mem := rfl

@[simp] theorem State_wrp_mem (s : State) (p : BitVec 5) (v : Bool) : (State.wrp s p v).mem = s.mem := rfl

@[simp] theorem State_retire_mem (s : State) : (State.retire s).mem = s.mem := rfl

@[simp] theorem State_scalarFault_mem (s : State) (cause : ℕ) (detail : ℕ) (val : Word) : (State.scalarFault s cause detail val).mem = s.mem := rfl

@[simp] theorem logHbm_mem (s : State) (d : ℕ) (line : ℕ) (ue : Bool) : (logHbm s d line ue).mem = s.mem := rfl

@[simp] theorem noteRead_mem (s : State) (k : ℕ) : (noteRead s k).mem = s.mem := by
  simp only [noteRead]
  repeat' split
  all_goals simp_all

@[simp] theorem State_memFault_mem (s : State) (c : ℕ) (die : ℕ) (core : ℕ) (cause : ℕ) (detail : ℕ) (val : Word) : (State.memFault s c die core cause detail val).mem = s.mem := rfl

@[simp] theorem noteWrite_mem (s : State) (key : ℕ) : (noteWrite s key).mem = s.mem := rfl

@[simp] theorem noteRange_mem (s : State) (lo : ℕ) (hi : ℕ) : (noteRange s lo hi).mem = s.mem := rfl

theorem asAgent_mem (s : State) (a : Nat) (f : State → State) : (asAgent s a f).mem = (f { s with cur := a }).mem := rfl

@[simp] theorem dropWaits_mem (s : State) (a : ℕ) : (dropWaits s a).mem = s.mem := rfl

@[simp] theorem leaveBarrier_mem (s : State) (p : ℕ) : (leaveBarrier s p).mem = s.mem := by
  simp only [leaveBarrier]
  repeat' split
  all_goals simp_all

@[simp] theorem leavePages_mem (s : State) (a : ℕ) : (leavePages s a).mem = s.mem := rfl

@[simp] theorem endGrant_mem (s : State) (p : ℕ) : (endGrant s p).mem = s.mem := by
  simp only [endGrant]
  repeat' split
  all_goals simp_all

@[simp] theorem stopGrant_mem (s : State) (p : ℕ) : (stopGrant s p).mem = s.mem := by
  simp only [stopGrant]
  repeat' split
  all_goals simp_all

@[simp] theorem State_result_mem (s : State) (d : BitVec 6) (v : Word) : (State.result s d v).mem = s.mem := rfl

@[simp] theorem State_resultP_mem (s : State) (p : BitVec 5) (v : Bool) : (State.resultP s p v).mem = s.mem := rfl

@[simp] theorem noteXlat_mem (s : State) (req c ea need : Nat) : (noteXlat s req c ea need).mem = s.mem := by
  unfold noteXlat
  dsimp only
  split
  · rfl
  · exact foldl_mem noteRead_mem _ _

@[simp] theorem noteAccess_mem (s : State) (req : ℕ) (c : ℕ) (ea : ℕ) (need : ℕ) (key : ℕ) : (noteAccess s req c ea need key).mem = s.mem := by
  simp [noteAccess]

@[simp] theorem noteReads_mem (s : State) (lo : ℕ) (hi : ℕ) : (noteReads s lo hi).mem = s.mem := by
  simp only [noteReads]
  apply foldl_mem
  intro s a
  repeat' split
  all_goals simp_all

@[simp] theorem noteRegions_mem (s : State) (c obj : Nat) : (noteRegions s c obj).mem = s.mem := by
  have hline (s : State) (ea : Nat) :
      (match resolve s 0xFFFF c ea 4 with | .ok key => noteAccess s 0xFFFF c ea 4 key | .error _ => s).mem = s.mem := by
    split
    · exact noteAccess_mem ..
    · rfl
  unfold noteRegions
  dsimp only
  split
  · rfl
  split
  · rfl
  split
  · rfl
  · exact foldl_mem hline _ _

@[simp] theorem State_ask_mem (s : State) (acts : List Act) : (State.ask s acts).mem = s.mem := rfl

@[simp] theorem clearEcc_mem (s : State) (key : ℕ) : (clearEcc s key).mem = s.mem := rfl

theorem homeRead_mem {s : State} {req c ea n need : Nat} {r : Nat × Bool × State} (h : homeRead s req c ea n need = .ok r) : r.2.2.mem = s.mem := by
  unfold homeRead at h
  split at h
  · cases h
  · cases h
  · cases h
    exact noteAccess_mem ..

theorem globalRead_mem {req c k ea n : Nat} {s : State} {r : Nat × Bool × State} (h : globalRead req c k ea n s = .ok r) : r.2.2.mem = s.mem := by
  induction k generalizing ea n s r with
  | zero =>
    cases h
    rfl
  | succ k ih =>
    unfold globalRead at h
    split at h
    · cases h
      rfl
    dsimp only at h
    split at h
    · cases h
    next hread =>
      split at h
      · cases h
      next hrest =>
        cases h
        exact (ih hrest).trans (homeRead_mem hread)

@[simp] theorem evictLine_mem (a : ℕ) (tag : BitVec 58) (s : State) : (evictLine a tag s).mem = s.mem := rfl

@[simp] theorem finishAcq_mem (k : ℕ) (f : Fill) (v : Word) (s : State) : (finishAcq k f v s).mem = s.mem := by
  simp only [finishAcq]
  repeat' split
  all_goals simp_all

@[simp] theorem raiseBy_mem (s : State) (q : ℕ) (p : ℕ) (qu : ℕ) (slot : BitVec 32) (k : ℕ) (err : Bool) : (raiseBy s q p qu slot k err).mem = s.mem := rfl

@[simp] theorem firstInstr_mem (s : State) (a : ℕ) : (firstInstr s a).mem = s.mem := by
  simp only [firstInstr]
  repeat' split
  all_goals simp_all

@[simp] theorem noteFetch_mem (s : State) (a : ℕ) : (noteFetch s a).mem = s.mem := by
  simp only [noteFetch]
  repeat' split
  all_goals simp_all

@[simp] theorem codeFill_mem (a : ℕ) (s : State) : (codeFill a s).mem = s.mem := by
  simp only [codeFill]
  repeat' split
  all_goals simp_all

@[simp] theorem pushEvent_mem (s : State) (c : ℕ) (e : Ev) : (pushEvent s c e).mem = s.mem := rfl

@[simp] theorem fixWord_mem (p : ℕ) (s : State) (k : ℕ) : (fixWord p s k).mem = s.mem := by
  simp only [fixWord]
  repeat' split
  all_goals simp_all

@[simp] theorem spFix_mem (s : State) (p a n : Nat) : (spFix s p a n).mem = s.mem := by
  unfold spFix
  split
  · rfl
  · exact foldl_mem (fixWord_mem p) _ _

@[simp] theorem spFresh_mem (s : State) (p : ℕ) (a : ℕ) (n : ℕ) : (spFresh s p a n).mem = s.mem := by
  simp only [spFresh]
  repeat' split
  all_goals simp_all

theorem runIssues_mem {f : Nat → Nat × Nat × Nat × Nat → State → Except EngErr State} {P : Memory → Prop}
    (hf : ∀ j i s t, f j i s = .ok t → P s.mem → P t.mem) {es : List (Nat × Nat × Nat × Nat × Nat)} {s : State} (hs : P s.mem) :
    (∀ t, runIssues f es s = .ok t → P t.mem) ∧ ∀ e, runIssues f es s = .error e → P e.2.mem := by
  induction es generalizing s with
  | nil =>
    refine ⟨fun t h => ?_, fun e h => ?_⟩
    · cases h
      exact hs
    · cases h
  | cons i es ih =>
    unfold runIssues
    split
    · refine ⟨fun t h => ?_, fun e h => ?_⟩
      · cases h
      · cases h
        exact hs
    next t hstep => exact ih (hf _ _ _ _ hstep hs)

@[simp] theorem State_upFlight_mem (s : State) (p : ℕ) (q : BitVec 2) (slot : BitVec 32) (g : Flight → Flight) : (State.upFlight s p q slot g).mem = s.mem := rfl

@[simp] theorem State_engineFault_mem (s : State) (p : ℕ) (q : BitVec 2) (slot : BitVec 32) (cause : ℕ) (detail : ℕ) (val : Word) (idx : ℕ) : (State.engineFault s p q slot cause detail val idx).mem = s.mem := rfl

@[simp] theorem flightDone_mem (s : State) (p : ℕ) (q : BitVec 2) (slot : BitVec 32) (err : Bool) (stat : BitVec 8) : (flightDone s p q slot err stat).mem = s.mem := rfl

@[simp] theorem dropHeldOf_mem (s : State) (id : ℕ) : (dropHeldOf s id).mem = s.mem := rfl

@[simp] theorem State_keepHeld_mem (s : State) (keep : ℕ → Held → Bool) : (State.keepHeld s keep).mem = s.mem := rfl

@[simp] theorem State_mapHeld_mem (s : State) (f : Held → Held) : (State.mapHeld s f).mem = s.mem := rfl

@[simp] theorem putLine_mem (s : State) (c : ℕ) (i : ℕ) (line : ℕ) (l : SlotLine) : (putLine s c i line l).mem = s.mem := rfl

theorem takeAct_mem {α : Type} {f : Act → Option α} {s : State} {r : α × State} (h : takeAct f s = some r) : r.2.mem = s.mem := by
  unfold takeAct at h
  split at h
  · cases h
  · obtain ⟨a, -, rfl⟩ := Option.map_eq_some_iff.mp h
    rfl

@[simp] theorem putTree_mem (s : State) (c : ℕ) (t : ℕ) (x : TreeRun) : (putTree s c t x).mem = s.mem := rfl

@[simp] theorem unbindTrees_mem (s : State) (tid : ℕ) : (unbindTrees s tid).mem = s.mem := by
  simp only [unbindTrees]
  apply foldl_mem
  intro s a
  repeat' split
  all_goals simp_all

@[simp] theorem keepRefused_mem (s : State) (m : RxMsg) (n : ℕ) : (keepRefused s m n).mem = s.mem := by
  simp only [keepRefused]
  repeat' split
  all_goals simp_all

@[simp] theorem State_wait_mem (s : State) (w : Wait) : (State.wait s w).mem = s.mem := rfl

@[simp] theorem releaseMember_mem (s : State) (t : Team) (p : Nat) : (releaseMember s t p).mem = s.mem := by
  unfold releaseMember
  dsimp only
  split
  · rw [State_putSc_mem]
    split
    · exact noteRegions_mem ..
    · exact noteRegions_mem ..
    · rfl
  · rfl

@[simp] theorem finishRound_mem (s : State) (tid : Nat) : (finishRound s tid).mem = s.mem := by
  unfold finishRound
  split
  · rfl
  · exact foldl_mem (fun s p => releaseMember_mem ..) _ _

@[simp] theorem putConn_mem (s : State) (c : ℕ) (n : ℕ) (x : ConnRun) : (putConn s c n x).mem = s.mem := rfl

@[simp] theorem incMs_mem (s : State) (c : ℕ) (m : Option ℕ) : (incMs s c m).mem = s.mem := by
  simp only [incMs]
  repeat' split
  all_goals simp_all

@[simp] theorem sendToSelf_mem (s : State) (o : OwnMsg) : (sendToSelf s o).mem = s.mem := rfl

@[simp] theorem ownFirst_mem (i : ℕ) (s : State) : (ownFirst i s).mem = s.mem := by
  simp only [ownFirst]
  repeat' split
  all_goals simp_all

@[simp] theorem reply_mem (s : State) (p : Packet) (kind : ℕ) (code : ℕ) : (reply s p kind code).mem = s.mem := rfl

@[simp] theorem refusePacket_mem (s : State) (p : Packet) : (refusePacket s p).mem = s.mem := rfl

@[simp] theorem deliverFlush_mem (s : State) (c : ℕ) (n : ℕ) (p : Packet) : (deliverFlush s c n p).2.mem = s.mem := rfl

@[simp] theorem deliverConv_mem (s : State) (c : ℕ) (n : ℕ) (p : Packet) : (deliverConv s c n p).mem = s.mem := by
  simp only [deliverConv]
  repeat' split
  all_goals simp_all

@[simp] theorem takeNext_mem (s : State) (c : ℕ) (n : ℕ) : (takeNext s c n).mem = s.mem := rfl

@[simp] theorem settleFlushes_mem (s : State) (c : ℕ) (n : ℕ) : (settleFlushes s c n).mem = s.mem := by
  simp only [settleFlushes]
  apply foldl_mem
  intro s a
  repeat' split
  all_goals simp_all

@[simp] theorem dropArrivals_mem (s : State) (c : ℕ) (serves : ℕ → Bool) : (dropArrivals s c serves).mem = s.mem := by
  simp only [dropArrivals]
  apply foldl_mem
  intro s a
  repeat' split
  all_goals simp_all

theorem readGlobal_mem {x : CopyRun} {idx k n ea : Nat} {s : State} {r : List (Nat × Bool) × State} (h : readGlobal x idx k n ea s = .ok r) :
    r.2.mem = s.mem := by
  induction n generalizing ea s r with
  | zero =>
    cases h
    rfl
  | succ n ih =>
    unfold readGlobal at h
    split at h
    · cases h
    split at h
    · cases h
    next hread =>
      split at h
      · cases h
      next hrest =>
        cases h
        exact (ih hrest).trans (homeRead_mem hread)

theorem readRun_mem {x : CopyRun} {idx : Nat} {place : Place} {s : State} {r : List (Nat × Bool) × State} (h : readRun x idx place s = .ok r) :
    r.2.mem = s.mem := by
  unfold readRun at h
  split at h
  · split at h
    · cases h
    · cases h
      exact spFix_mem ..
  · exact readGlobal_mem h

/-- A change of the error codes alone. -/
theorem mem_with_ecc (s : State) (e : Tbl (List Nat)) : ({ s with ecc := e } : State).mem = s.mem := rfl

@[simp] theorem poisonSp_mem (s : State) (q a n : Nat) : (poisonSp s q a n).mem = s.mem := by
  unfold poisonSp
  exact mem_with_ecc s _

@[simp] theorem poisonLine_mem (s : State) (req : ℕ) (c : ℕ) (ea : ℕ) : (poisonLine s req c ea).mem = s.mem := by
  simp only [poisonLine]
  repeat' split
  all_goals simp_all

@[simp] theorem raiseDests_mem (x : CopyRun) (qs : List Nat) (s : State) : (raiseDests x qs s).mem = s.mem := by
  unfold raiseDests
  split
  · exact foldl_mem (fun s q => raiseBy_mem ..) _ _
  · rfl

@[simp] theorem addPart_mem (s : State) (x : CopyRun) : (addPart s x).mem = s.mem := rfl

theorem blockOf_mem {x : CopyRun} {n : Nat} {s : State} {r : Nat × State} (h : blockOf x n s = .ok r) : r.2.mem = s.mem := by
  unfold blockOf at h
  split at h
  · cases h
    rfl
  · dsimp only at h
    split at h
    · cases h
    · cases h
      simp

@[simp] theorem sendOwn_mem (x : CopyRun) (n : NetDesc) (v : ℕ) (s : State) : (sendOwn x n v s).mem = s.mem := rfl

@[simp] theorem addFlags_mem (s : State) (p : ℕ) (fl : Word) : (addFlags s p fl).mem = s.mem := rfl

@[simp] theorem vecFix_mem (k : VCtx) (i : ℕ × ℕ × ℕ × ℕ) (s : State) : (vecFix k i s).mem = s.mem := by
  simp only [vecFix]
  repeat' split
  all_goals simp_all

theorem mdotRows_mem {k : VCtx} {c : MCfg} {s : State} {r : List (Nat × Nat) × State} (h : mdotRows k c s = .ok r) : r.2.mem = s.mem := by
  unfold mdotRows at h
  dsimp only at h
  split at h
  · cases h
    rfl
  split at h
  · cases h
  split at h
  · cases h
  split at h
  · cases h
  split at h
  · cases h
  split at h
  · cases h
  · cases h
    exact spFix_mem ..

@[simp] theorem stepFix_mem (m : MCtx) (kept : Tbl Nat) (kb : Nat) (es : List (Nat × Nat × Nat)) (s : State) :
    (stepFix m kept kb es s).mem = s.mem := by
  unfold stepFix
  split
  · rfl
  · exact foldl_mem (fun s e => spFix_mem ..) _ _

@[simp] theorem stepWrite_mem (m : MCtx) (es : List (ℕ × ℕ × ℕ)) (fl : Word) (s : State) : (stepWrite m es fl s).mem = s.mem := by
  simp only [stepWrite]
  repeat' split
  all_goals simp_all

@[simp] theorem stepSeen_mem (m : MCtx) (x : Part) (s : State) : (stepSeen m x s).mem = s.mem := by
  simp only [stepSeen]
  repeat' split
  all_goals simp_all

@[simp] theorem wildEntries_mem (x : Part) (es : List (ℕ × ℕ × ℕ)) (s : State) : (wildEntries x es s).2.mem = s.mem := by
  simp only [wildEntries]
  repeat' split
  all_goals simp_all

theorem runBlocks_mem (m : MCtx) (bs : List MBlock) (x : Part) (s : State) :
    (∀ r, runBlocks m bs x s = .ok r → r.2.mem = s.mem) ∧ ∀ e, runBlocks m bs x s = .error e → e.2.mem = s.mem := by
  induction bs generalizing x s with
  | nil =>
    refine ⟨fun r h => ?_, fun e h => ?_⟩
    · cases h
      rfl
    · cases h
  | cons b bs ih =>
    unfold runBlocks
    dsimp only
    split
    · refine ⟨fun r h => ?_, fun e h => ?_⟩
      · cases h
      · cases h
        exact stepSeen_mem ..
    · refine ⟨fun r h => ((ih _ _).1 r h).trans ?_, fun e h => ((ih _ _).2 e h).trans ?_⟩ <;> simp

@[simp] theorem acceptSlot_mem (s : State) (p : ℕ) (q : BitVec 2) (fence : Bool) : (acceptSlot s p q fence).mem = s.mem := rfl

@[simp] theorem endGrantOf_mem (q : BitVec 2) (s : State) (p : ℕ) : (endGrantOf q s p).mem = s.mem := by
  simp only [endGrantOf]
  repeat' split
  all_goals simp_all

@[simp] theorem chainTest_mem (s : State) (p : ℕ) (h : Word) : (chainTest s p h).mem = s.mem := by
  simp only [chainTest]
  repeat' split
  all_goals simp_all

@[simp] theorem patternDone_mem (s : State) (p : ℕ) : (patternDone s p).mem = s.mem := by
  simp only [patternDone]
  repeat' split
  all_goals simp_all

@[simp] theorem takeCheckpoint_mem (s : State) (p : ℕ) (pc : Word) : (takeCheckpoint s p pc).mem = s.mem := rfl

@[simp] theorem orphan_mem (s : State) (p : ℕ) (drop : BitVec 32 → Bool) : (orphan s p drop).mem = s.mem := rfl

@[simp] theorem dropPends_mem (s : State) (p : Nat) (q : BitVec 2) (n : Nat) (c : BitVec 32) : (dropPends s p q n c).mem = s.mem := by
  induction n generalizing s c with
  | zero => rfl
  | succ n ih =>
    unfold dropPends
    dsimp only
    rw [ih]
    split
    · rfl
    · rfl

@[simp] theorem cutQueue_mem (s : State) (p : ℕ) (q : BitVec 2) (c : BitVec 32) : (cutQueue s p q c).mem = s.mem := by
  simp [cutQueue]

@[simp] theorem discardPhase_mem (s : State) (p : Nat) (k : Checkpoint) : (discardPhase s p k).mem = s.mem := by
  unfold discardPhase
  extract_lets cutTo c2 s1 s2
  have h : s2.mem = s.mem := by simp only [s2, s1, cutQueue_mem, orphan_mem]
  split
  · rw [endGrant_mem, h]
  · exact h

@[simp] theorem upQueue_mem (s : State) (p : ℕ) (q : BitVec 2) (f : Queue → Queue) : (upQueue s p q f).mem = s.mem := rfl

@[simp] theorem passOver_mem (s : State) (p : ℕ) (q : BitVec 2) (f : Flight) : (passOver s p q f).mem = s.mem := by
  simp only [passOver]
  repeat' split
  all_goals simp_all

@[simp] theorem pushFlight_mem (s : State) (p : ℕ) (q : BitVec 2) (slot : BitVec 32) (pend : ℕ) (err : Bool) : (pushFlight s p q slot pend err).mem = s.mem := by
  simp only [pushFlight]
  repeat' split
  all_goals simp_all

@[simp] theorem endBody_mem (s : State) (p : ℕ) (q : BitVec 2) (slot : BitVec 32) (l : Left) : (endBody s p q slot l).mem = s.mem := rfl

@[simp] theorem begunTo_mem (s : State) (p : ℕ) (q : BitVec 2) (slot : BitVec 32) (idx : ℕ) : (begunTo s p q slot idx).mem = s.mem := rfl

@[simp] theorem noteConsumed_mem (s : State) (p : ℕ) (detail : ℕ) (val : Word) : (noteConsumed s p detail val).mem = s.mem := by
  simp only [noteConsumed]
  repeat' split
  all_goals simp_all

@[simp] theorem slotFault_mem (s : State) (p : ℕ) (q : BitVec 2) : (slotFault s p q).mem = s.mem := by
  simp only [slotFault]
  repeat' split
  all_goals simp_all

@[simp] theorem slotFix_mem (s : State) (p : ℕ) (q : BitVec 2) : (slotFix s p q).mem = s.mem := by
  simp only [slotFix]
  repeat' split
  all_goals simp_all

@[simp] theorem noteUp_mem (s : State) : (noteUp s).mem = s.mem := rfl

@[simp] theorem setEntry_mem (s : State) (d : ℕ) (e : ℕ) (v : BitVec 10) : (setEntry s d e v).mem = s.mem := rfl

@[simp] theorem rejectCmd_mem (s : State) (p : ℕ) : (rejectCmd s p).mem = s.mem := rfl

@[simp] theorem cmdDrain_mem (s : State) (p : ℕ) : (cmdDrain s p).mem = s.mem := by
  simp only [cmdDrain]
  repeat' split
  all_goals simp_all

@[simp] theorem cmdScan_mem (s : State) (p : ℕ) : (cmdScan s p).mem = s.mem := by
  simp only [cmdScan]
  repeat' split
  all_goals simp_all

@[simp] theorem cmdRelease_mem (s : State) (p : ℕ) : (cmdRelease s p).mem = s.mem := by
  simp only [cmdRelease]
  repeat' split
  all_goals simp_all

@[simp] theorem cmdRetire_mem (s : State) (p : ℕ) : (cmdRetire s p).mem = s.mem := by
  simp only [cmdRetire]
  repeat' split
  all_goals simp_all

@[simp] theorem coreCommand_mem (s : State) (p : ℕ) (cmd : ℕ) : (coreCommand s p cmd).mem = s.mem := by
  simp only [coreCommand]
  repeat' split
  all_goals simp_all

theorem onTileFw_mem {s : State} {body : Nat → State} (h : ∀ d, (body d).mem = s.mem) : (onTileFw s body).mem = s.mem := by
  unfold onTileFw
  split
  · exact h _
  · rfl

@[simp] theorem writeCreg_mem (c : ℕ) (v : Word) (s : State) : (writeCreg c v s).mem = s.mem := by
  simp only [writeCreg]
  repeat' split
  all_goals simp_all

@[simp] theorem restartWatchdog_mem (s : State) : (restartWatchdog s).mem = s.mem := rfl

@[simp] theorem phaseBody_mem (s : State) : (phaseBody s).mem = s.mem := rfl

@[simp] theorem shootDie_mem (s : State) (d : ℕ) (c : ℕ) (off : ℕ) (n : ℕ) : (shootDie s d c off n).mem = s.mem := rfl

@[simp] theorem localFix_mem (s : State) (ea : ℕ) (w : ℕ) : (localFix s ea w).mem = s.mem := by
  simp only [localFix]
  repeat' split
  all_goals simp_all

theorem whenDrained_mem {P : Memory → Prop} {s : State} {body : State → State} (hs : P s.mem) (h : P (body s).mem) : P (whenDrained s body).mem := by
  unfold whenDrained
  split
  · exact h
  · exact hs

@[simp] theorem headRead_mem (s : State) (w : BitVec 512) : (headRead s w).2.mem = s.mem := by
  unfold headRead
  dsimp only
  split
  · rfl
  split
  · rfl
  next hread =>
    have h := globalRead_mem hread
    split
    · exact h
    split
    · exact h
    split
    · exact h
    · exact h

@[simp] theorem readHeads_mem (is : List PoolItem) (seen : List Nat) (s : State) : (readHeads is seen s).2.mem = s.mem := by
  induction is generalizing seen s with
  | nil => rfl
  | cons i is ih =>
    unfold readHeads
    dsimp only
    split
    · exact ih ..
    · exact (ih ..).trans (headRead_mem ..)

@[simp] theorem refreshHeads_mem (s : State) : (refreshHeads s).mem = s.mem := by
  simp [refreshHeads]

@[simp] theorem watchdogFault_mem (s : State) (detail : ℕ) (val : Word) : (watchdogFault s detail val).mem = s.mem := by
  simp only [watchdogFault]
  repeat' split
  all_goals simp_all

@[simp] theorem forgetReads_mem (s : State) (r : ℕ) : (forgetReads s r).mem = s.mem := rfl

@[simp] theorem askHost_mem (s : State) (r : ℕ) (e : Option RingEntry) : (askHost s r e).mem = s.mem := rfl

@[simp] theorem hostReadTurn_mem (r : ℕ) (s : State) : (hostReadTurn r s).mem = s.mem := by
  simp only [hostReadTurn]
  repeat' split
  all_goals simp_all

@[simp] theorem settleInval_mem (s : State) : (settleInval s).mem = s.mem := rfl

@[simp] theorem readDone_mem (s : State) (r : ℕ) : (readDone s r).mem = s.mem := rfl

@[simp] theorem ctxCause_mem (s : State) (c : ℕ) (cause : ℕ) : (ctxCause s c cause).mem = s.mem := rfl

@[simp] theorem scrubLines_mem (s : State) (d : ℕ) (bad : List ℕ) : (scrubLines s d bad).mem = s.mem := by
  simp only [scrubLines]
  apply foldl_mem
  intro s a
  repeat' split
  all_goals simp_all

@[simp] theorem scrubRead_mem (s : State) (d : ℕ) : (scrubRead s d).mem = s.mem := by
  simp [scrubRead]

@[simp] theorem countSkip_mem (s : State) (d : ℕ) : (countSkip s d).mem = s.mem := rfl

@[simp] theorem scrubWrite_mem (d : ℕ) (s : State) (k : ℕ × Bool) : (scrubWrite d s k).mem = s.mem := by
  simp only [scrubWrite]
  repeat' split
  all_goals simp_all

@[simp] theorem judgeAlarm_mem (s : State) : (judgeAlarm s).mem = s.mem := by
  simp only [judgeAlarm]
  repeat' split
  all_goals simp_all

@[simp] theorem judgeUnlessReset_mem (s : State) : (judgeUnlessReset s).mem = s.mem := by
  simp only [judgeUnlessReset]
  repeat' split
  all_goals simp_all

@[simp] theorem bringUpMap_mem (s : State) (d : Nat) : (bringUpMap s d).mem = s.mem := by
  unfold bringUpMap
  exact foldl_mem (fun s i => setEntry_mem ..) _ _

@[simp] theorem bringUpCore_mem (d : ℕ) (s : State) (i : ℕ) : (bringUpCore d s i).mem = s.mem := rfl

@[simp] theorem replaceFailed_mem (s : State) (p : ℕ) : (replaceFailed s p).mem = s.mem := by
  simp only [replaceFailed]
  repeat' split
  all_goals simp_all

@[simp] theorem gainArray_mem (p : ℕ) (s : State) : (gainArray p s).mem = s.mem := by
  simp only [gainArray]
  repeat' split
  all_goals simp_all

@[simp] theorem bringUpTurn_mem (p : ℕ) (s : State) : (bringUpTurn p s).mem = s.mem := by
  simp only [bringUpTurn]
  repeat' split
  all_goals simp_all

@[simp] theorem putConv_mem (s : State) (n : ℕ) (x : ConvRun) : (putConv s n x).mem = s.mem := rfl

@[simp] theorem freeCore_mem (s : State) (p : ℕ) : (freeCore s p).mem = s.mem := rfl

@[simp] theorem finishTeam_mem (s : State) (tid : Nat) : (finishTeam s tid).mem = s.mem := by
  have hfree (t : Team) (s : State) : (t.cores.foldl freeCore s).mem = s.mem := foldl_mem freeCore_mem _ _
  unfold finishTeam
  dsimp only
  split
  · rfl
  split
  · rfl
  split
  · simp [hfree]
  · simp [hfree]

@[simp] theorem answerPage_mem (s : State) (t : ℕ) : (answerPage s t).mem = s.mem := by
  simp only [answerPage]
  repeat' split
  all_goals simp_all

@[simp] theorem yielded_mem (s : State) (q : ℕ) : (yielded s q).mem = s.mem := rfl

@[simp] theorem without_mem (s : State) (g : List ℕ) : (without s g).mem = s.mem := rfl

@[simp] theorem askYield_mem (s : State) (q : Nat) : (askYield s q).mem = s.mem := by
  unfold askYield
  split
  · rfl
  split
  · rfl
  · exact foldl_mem (fun s t => State_upTm_mem ..) _ _

@[simp] theorem askYields_mem (s : State) : (askYields s).mem = s.mem := by
  simp only [askYields]
  apply foldl_mem
  intro s a
  repeat' split
  all_goals simp_all

@[simp] theorem spFixSpans_mem (s : State) (p : ℕ) (spans : List (ℕ × ℕ)) : (spFixSpans s p spans).mem = s.mem := by
  simp only [spFixSpans]
  apply foldl_mem
  intro s a
  repeat' split
  all_goals simp_all

@[simp] theorem beginSave_mem (s : State) (tid : Nat) : (beginSave s tid).mem = s.mem := by
  have hstop (s : State) (p : Nat) : (stopGrant (s.upCo p fun x => x.stopEngines true) p).mem = s.mem := by simp
  unfold beginSave
  split
  · rfl
  split
  · rfl
  · exact foldl_mem hstop _ _

@[simp] theorem sleepTeam_mem (s : State) (tid : Nat) (ks : List Nat) : (sleepTeam s tid ks).mem = s.mem := by
  unfold sleepTeam
  split
  · rfl
  · exact foldl_mem freeCore_mem _ _

@[simp] theorem dieFault_mem (s : State) (c : ℕ) (cause : ℕ) : (dieFault s c cause).mem = s.mem := rfl

@[simp] theorem abandonSave_mem (s : State) (g : List ℕ) : (abandonSave s g).mem = s.mem := by
  simp only [abandonSave]
  apply foldl_mem
  intro s a
  repeat' split
  all_goals simp_all

@[simp] theorem flushGroup_mem (s : State) (g : List Nat) : (flushGroup s g).mem = s.mem := by
  have hteam (s : State) (t : Team) : ((liveCores t).foldl (fun s e => s.putSc e.2 ((s.sc e.2).flushAll [])) s).mem = s.mem :=
    foldl_mem (fun s e => State_putSc_mem ..) _ _
  unfold flushGroup
  exact foldl_mem hteam _ _

@[simp] theorem fillVerdict_mem (s : State) (a : ℕ) (reg : BitVec 6) (v : Word) : (fillVerdict s a reg v).mem = s.mem := by
  simp only [fillVerdict]
  repeat' split
  all_goals simp_all

@[simp] theorem clearRole_mem (s : State) (a : ℕ) (slot : ℕ) : (clearRole s a slot).mem = s.mem := rfl

@[simp] theorem bindErr_mem (n : ℕ) (s : State) (b : Bind) : (bindErr n s b).mem = s.mem := by
  simp only [bindErr]
  repeat' split
  all_goals simp_all

@[simp] theorem dropBroken_mem (s : State) : (dropBroken s).mem = s.mem := rfl

@[simp] theorem afterSend_mem (later : Option (BitVec 6)) (s : State) : (afterSend later s).mem = s.mem := by
  simp only [afterSend]
  repeat' split
  all_goals simp_all

theorem takeCommand_mem {s : State} {n op : Nat} {t : State} (h : takeCommand s n op = some t) : t.mem = s.mem := by
  unfold takeCommand at h
  dsimp only at h
  split at h
  · cases h
  split at h
  · cases h
    exact dropBroken_mem s
  · cases h

@[simp] theorem dropSaves_mem (s : State) (c : ℕ) : (dropSaves s c).mem = s.mem := rfl

@[simp] theorem lateFaults_mem (s : State) (c : ℕ) (fs : List FaultRec) : (lateFaults s c fs).mem = s.mem := rfl

@[simp] theorem bumpFms_mem (s : State) (c : ℕ) : (bumpFms s c).mem = s.mem := by
  simp only [bumpFms]
  repeat' split
  all_goals simp_all

@[simp] theorem stopEnds_mem (s : State) (p : ℕ) (q : BitVec 2) : (stopEnds s p q).mem = s.mem := by
  simp only [stopEnds]
  repeat' split
  all_goals simp_all

@[simp] theorem acceptN_mem (q : BitVec 2) (n : Nat) (s : State) : (acceptN q n s).mem = s.mem := by
  induction n generalizing s with
  | zero => rfl
  | succ n ih => exact (ih _).trans (acceptSlot_mem ..)

@[simp] theorem State_jump_mem (s : State) (t : Word) : (State.jump s t).mem = s.mem := rfl

@[simp] theorem loopBody_mem (n : BitVec 1) (cnt : Word) (imm : BitVec 28) (s : State) : (loopBody n cnt imm s).mem = s.mem := by
  simp only [loopBody]
  repeat' split
  all_goals simp_all

@[simp] theorem loseMonitor_mem (src n : Nat) (s : State) (a : Nat) : (loseMonitor src n s a).mem = s.mem := by
  unfold loseMonitor
  split
  · split
    · rw [asAgent_mem, State_resultP_mem]
    · rfl
  · rfl

@[simp] theorem noteWords_mem (ws : List (ℕ × ℕ)) (s : State) : (noteWords ws s).mem = s.mem := by
  simp only [noteWords]
  apply foldl_mem
  intro s a
  repeat' split
  all_goals simp_all

@[simp] theorem landCode_mem (key : ℕ) (run : State → Out) (s : State) : (landCode key run s).mem = s.mem := by
  simp only [landCode]
  repeat' split
  all_goals simp_all

@[simp] theorem rests_mem (p : ℕ) (q : BitVec 2) (v : Queue) (t : State) : (rests p q v t).mem = t.mem := by
  simp only [rests]
  repeat' split
  all_goals simp_all

@[simp] theorem readAhead_mem (p : ℕ) (q : BitVec 2) (key : ℕ) (s : State) : (readAhead p q key s).mem = s.mem := by
  simp only [readAhead]
  repeat' split
  all_goals simp_all

@[simp] theorem reorder_mem (p : ℕ) (js : List ℕ) (s : State) : (reorder p js s).mem = s.mem := by
  simp only [reorder]
  repeat' split
  all_goals simp_all

@[simp] theorem tlbFill_mem (d : ℕ) (p : Option ℕ) (c : ℕ) (unit : ℕ) (s : State) : (tlbFill d p c unit s).mem = s.mem := by
  simp only [tlbFill]
  repeat' split
  all_goals simp_all

@[simp] theorem tlbDrop_mem (d : ℕ) (p : Option ℕ) (range : Bool) (s : State) : (tlbDrop d p range s).mem = s.mem := by
  simp only [tlbDrop]
  repeat' split
  all_goals simp_all

@[simp] theorem upsetTurn_mem (key : ℕ) (pos : List ℕ) (s : State) : (upsetTurn key pos s).mem = s.mem := rfl

end Sys2Proof.Machine
end

section
/-! Canonical memory: each operation of the state keeps memory in canonical form, so each instruction, event and turn does. -/
namespace Sys2Proof.Machine
set_option Elab.async false

/-- An outcome that goes on does so with memory in canonical form. -/
def NextWf (o : Out) : Prop := ∀ t, o = .next t → t.mem.wf = true

@[simp] theorem nextWf_next (t : State) : NextWf (.next t) ↔ t.mem.wf = true := by
  refine ⟨fun h => h t rfl, fun h u hu => ?_⟩
  cases hu
  exact h

@[simp] theorem nextWf_fault (r : Fault) : NextWf (.fault r) := fun t h => by cases h

@[simp] theorem nextWf_refused (r : Refusal) : NextWf (.refused r) := fun t h => by cases h

/-- A fold whose steps keep the canonical form keeps it. -/
theorem foldl_wf {α : Type} {g : State → α → State} (hg : ∀ s a, s.mem.wf = true → (g s a).mem.wf = true) {l : List α} {s : State}
    (h : s.mem.wf = true) : (l.foldl g s).mem.wf = true := by
  induction l generalizing s with
  | nil => exact h
  | cons a l ih => exact ih (hg _ _ h)

theorem homeRead_wf {s t : State} {req c ea n need v : Nat} {bad : Bool} (h : homeRead s req c ea n need = .ok (v, bad, t)) (hs : s.mem.wf = true) :
    t.mem.wf = true := by
  rw [show t.mem = s.mem from homeRead_mem h, hs]

theorem globalRead_wf {s t : State} {req c k ea n v : Nat} {bad : Bool} (h : globalRead req c k ea n s = .ok (v, bad, t)) (hs : s.mem.wf = true) :
    t.mem.wf = true := by
  rw [show t.mem = s.mem from globalRead_mem h, hs]

theorem takeAct_wf {α : Type} {f : Act → Option α} {s t : State} {r : α} (h : takeAct f s = some (r, t)) (hs : s.mem.wf = true) : t.mem.wf = true := by
  rw [show t.mem = s.mem from takeAct_mem h, hs]

theorem readGlobal_wf {x : CopyRun} {idx k n ea : Nat} {s t : State} {l : List (Nat × Bool)} (h : readGlobal x idx k n ea s = .ok (l, t))
    (hs : s.mem.wf = true) : t.mem.wf = true := by
  rw [show t.mem = s.mem from readGlobal_mem h, hs]

theorem readRun_wf {x : CopyRun} {idx : Nat} {place : Place} {s t : State} {l : List (Nat × Bool)} (h : readRun x idx place s = .ok (l, t))
    (hs : s.mem.wf = true) : t.mem.wf = true := by
  rw [show t.mem = s.mem from readRun_mem h, hs]

theorem blockOf_wf {x : CopyRun} {n v : Nat} {s t : State} (h : blockOf x n s = .ok (v, t)) (hs : s.mem.wf = true) : t.mem.wf = true := by
  rw [show t.mem = s.mem from blockOf_mem h, hs]

theorem mdotRows_wf {k : VCtx} {c : MCfg} {s t : State} {l : List (Nat × Nat)} (h : mdotRows k c s = .ok (l, t)) (hs : s.mem.wf = true) :
    t.mem.wf = true := by
  rw [show t.mem = s.mem from mdotRows_mem h, hs]

theorem takeCommand_wf {s t : State} {n op : Nat} (h : takeCommand s n op = some t) (hs : s.mem.wf = true) : t.mem.wf = true := by
  rw [takeCommand_mem h, hs]

theorem asAgent_wf {s : State} {a : Nat} {f : State → State} (h : (f { s with cur := a }).mem.wf = true) : (asAgent s a f).mem.wf = true := h

theorem onTileFw_wf {s : State} {body : Nat → State} (hs : s.mem.wf = true) (h : ∀ d, (body d).mem.wf = true) : (onTileFw s body).mem.wf = true := by
  unfold onTileFw
  split
  · exact h _
  · rwa [State_retire_mem]

theorem whenDrained_wf {s : State} {body : State → State} (hs : s.mem.wf = true) (h : (body s).mem.wf = true) : (whenDrained s body).mem.wf = true :=
  whenDrained_mem (P := fun m => m.wf = true) hs h

/-! Canonical form of tables of cells: what the images of saved tasks are made of. -/

/-- The canonical form as a sorted list of bytes that are not zero. -/
theorem memWfFrom_iff (lo : Nat) (m : Memory) :
    memWfFrom lo m = true ↔ (∀ e ∈ m, lo ≤ e.1 ∧ e.2 ≠ 0#8) ∧ m.Pairwise fun a b => a.1 < b.1 := by
  induction m generalizing lo with
  | nil => simp [memWfFrom]
  | cons e m ih =>
    simp only [memWfFrom, Bool.and_eq_true, decide_eq_true_eq, ih, List.mem_cons, forall_eq_or_imp, List.pairwise_cons]
    constructor
    · rintro ⟨⟨hk, hv⟩, hm, hp⟩
      exact ⟨⟨⟨hk, hv⟩, fun a ha => ⟨by have := (hm a ha).1; omega, (hm a ha).2⟩⟩, fun a ha => (hm a ha).1, hp⟩
    · rintro ⟨⟨⟨hk, hv⟩, hm⟩, hlt, hp⟩
      exact ⟨⟨hk, hv⟩, fun a ha => ⟨hlt a ha, (hm a ha).2⟩, hp⟩

theorem wf_iff (m : Memory) : m.wf = true ↔ (∀ e ∈ m, e.2 ≠ 0#8) ∧ m.Pairwise fun a b => a.1 < b.1 := by
  simp [Memory.wf, memWfFrom_iff]

/-- Moving cells to other addresses keeps the form where the order of the addresses is kept. -/
theorem map_key_wf {m : Memory} {f : Nat → Nat} (h : m.wf = true) (hf : ∀ a ∈ m, ∀ b ∈ m, a.1 < b.1 → f a.1 < f b.1) :
    Memory.wf (m.map fun e => (f e.1, e.2)) = true := by
  obtain ⟨hv, hp⟩ := (wf_iff m).mp h
  refine (wf_iff _).mpr ⟨fun e he => ?_, List.pairwise_map.mpr ?_⟩
  · obtain ⟨a, ha, rfl⟩ := List.mem_map.mp he
    exact hv a ha
  · exact hp.imp_of_mem fun {a b} ha hb hlt => hf a ha b hb hlt

theorem map_add_wf {m : Memory} (k : Nat) (h : m.wf = true) : Memory.wf (m.map fun e => (e.1 + k, e.2)) = true :=
  map_key_wf (f := (· + k)) h fun _ _ _ _ hlt => Nat.add_lt_add_right hlt k

theorem putCells_wf {m cells : Memory} {lo hi : Nat} (hlh : lo ≤ hi) (hm : m.wf = true) (hc : cells.wf = true)
    (hin : ∀ e ∈ cells, lo ≤ e.1 ∧ e.1 < hi) : (putCells m lo hi cells).wf = true := by
  obtain ⟨hmv, hmp⟩ := (wf_iff m).mp hm
  obtain ⟨hcv, hcp⟩ := (wf_iff cells).mp hc
  unfold putCells
  rw [wf_iff]
  refine ⟨fun e he => ?_, ?_⟩
  · simp only [List.mem_append, List.mem_filter] at he
    obtain (⟨hl, -⟩ | hl) | ⟨hl, -⟩ := he
    · exact hmv e hl
    · exact hcv e hl
    · exact hmv e hl
  · simp only [List.pairwise_append, List.mem_append, List.mem_filter, decide_eq_true_eq]
    refine ⟨⟨hmp.filter _, hcp, fun a ha b hb => ?_⟩, hmp.filter _, fun a ha b hb => ?_⟩
    · exact Nat.lt_of_lt_of_le ha.2 (hin b hb).1
    · obtain ha | ha := ha
      · exact Nat.lt_of_lt_of_le ha.2 (hlh.trans hb.2)
      · exact Nat.lt_of_lt_of_le (hin a ha).2 hb.2

theorem cellsOf_wf {m : Memory} (lo hi at' : Nat) (h : m.wf = true) : (cellsOf m lo hi at').wf = true := by
  unfold cellsOf
  refine map_key_wf (f := fun k => k - lo + at') (filter_wf m _ h) fun a ha b hb hlt => ?_
  simp only [List.mem_filter, Bool.and_eq_true, decide_eq_true_eq] at ha hb
  omega

theorem numCells_wf (at' n v : Nat) : (numCells at' n v).wf = true := wrN_wf _ _ _ _ rfl

/-- A fold of memory whose steps keep the canonical form keeps it. -/
theorem foldl_memory_wf {α : Type} {g : Memory → α → Memory} (hg : ∀ m a, m.wf = true → (g m a).wf = true) {l : List α} {m : Memory}
    (h : m.wf = true) : (l.foldl g m).wf = true := by
  induction l generalizing m with
  | nil => exact h
  | cons a l ih => exact ih (hg _ _ h)

theorem partCells_wf (ps : List (Nat × Nat × Nat)) : (partCells ps).wf = true :=
  foldl_memory_wf (fun _ _ h => wrN_wf _ _ _ _ h) rfl

theorem forall_mem_regions_map {α : Type} {l : List α} {a n : α → Nat} {m : α → Memory} (h : ∀ x, (m x).wf = true) :
    ∀ r ∈ l.map fun x => (a x, n x, m x), r.2.2.wf = true :=
  List.forall_mem_map.mpr fun x _ => h x

theorem forall_mem_region {a n : Nat} {m : Memory} (h : m.wf = true) : ∀ r ∈ [(a, n, m)], r.2.2.wf = true :=
  List.forall_mem_cons.mpr ⟨h, fun _ he => absurd he List.not_mem_nil⟩

theorem forall_mem_regions_pair {a n b k : Nat} {m m' : Memory} (h : m.wf = true) (h' : m'.wf = true) :
    ∀ r ∈ [(a, n, m), (b, k, m')], r.2.2.wf = true :=
  List.forall_mem_cons.mpr ⟨h, forall_mem_region h'⟩

/-- Every region of a task's image is canonical: its bytes are written one by one. -/
theorem imageRegions_wf (s : State) (p lcore : Nat) (l : Live) : ∀ r ∈ imageRegions s p lcore l, r.2.2.wf = true := by
  unfold imageRegions
  dsimp only
  simp only [List.forall_mem_append]
  refine ⟨⟨⟨⟨⟨⟨⟨?_, ?_⟩, ?_⟩, ?_⟩, ?_⟩, ?_⟩, ?_⟩, ?_⟩
  · exact forall_mem_region (partCells_wf _)
  · split
    · exact forall_mem_region (partCells_wf _)
    · exact forall_mem_regions_map fun _ => numCells_wf _ _ _
  · exact forall_mem_region (partCells_wf _)
  · exact forall_mem_regions_map fun _ => numCells_wf _ _ _
  · exact forall_mem_region rfl
  · exact forall_mem_regions_map fun _ => partCells_wf _
  · exact forall_mem_regions_map fun _ => partCells_wf _
  · exact forall_mem_regions_pair rfl rfl

theorem imageScratch_wf {s : State} {p : Nat} {l : Live} {r : Nat × Nat × Memory} (h : s.mem.wf = true) (hr : r ∈ imageScratch s p l) :
    r.2.2.wf = true := by
  obtain ⟨e, -, rfl⟩ := List.mem_map.mp hr
  exact cellsOf_wf _ _ _ h

theorem tins_wf {m : Memory} {k : Nat} {v : Byte} (hv : v ≠ 0#8) (h : m.wf = true) : Memory.wf (tins m k v) = true :=
  memWfFrom_tins _ _ _ _ (Nat.zero_le k) hv h

/-- Cells that are not zero, put one by one. -/
theorem foldl_tins_wf {cells m : Memory} (hc : ∀ e ∈ cells, e.2 ≠ 0#8) (h : m.wf = true) :
    Memory.wf (cells.foldl (fun m e => tins m e.1 e.2) m) = true := by
  induction cells generalizing m with
  | nil => exact h
  | cons e cells ih => exact ih (fun a ha => hc a (List.mem_cons_of_mem _ ha)) (tins_wf (hc e List.mem_cons_self) h)

theorem cellsOf_ne_zero {m : Memory} {lo hi at' : Nat} (h : m.wf = true) : ∀ e ∈ cellsOf m lo hi at', e.2 ≠ 0#8 :=
  ((wf_iff _).mp (cellsOf_wf lo hi at' h)).1

theorem getRange_ok {c k ea n at' : Nat} {s t : State} {m : Memory} (hs : s.mem.wf = true) (h : getRange c k ea n at' s = .ok (m, t)) :
    t.mem.wf = true ∧ ∀ e ∈ m, e.2 ≠ 0#8 := by
  induction k generalizing ea n at' s t m with
  | zero =>
    cases h
    exact ⟨hs, fun _ he => absurd he List.not_mem_nil⟩
  | succ k ih =>
    unfold getRange at h
    dsimp only at h
    split at h
    · cases h
      exact ⟨hs, fun _ he => absurd he List.not_mem_nil⟩
    split at h
    · cases h
    split at h
    · cases h
    split at h
    · cases h
    rename_i hrest
    cases h
    obtain ⟨ht, hm⟩ := ih (by simpa using hs) hrest
    refine ⟨ht, fun e he => ?_⟩
    obtain he | he := List.mem_append.mp he
    · exact cellsOf_ne_zero (by simpa using hs) e he
    · exact hm e he

theorem getRange_error {c k ea n at' : Nat} {s : State} {e : HomeFail} (hs : s.mem.wf = true) (h : getRange c k ea n at' s = .error e) :
    e.st.mem.wf = true := by
  induction k generalizing ea n at' s with
  | zero => cases h
  | succ k ih =>
    unfold getRange at h
    dsimp only at h
    split at h
    · cases h
    split at h
    · cases h
      simpa using hs
    split at h
    · cases h
      simpa using hs
    split at h
    · rename_i hrest
      cases h
      exact ih (by simpa using hs) hrest
    · cases h

theorem readRegions_ok {c at' : Nat} {rs : List (Nat × Nat)} {s t : State} {m m' : Memory} (hs : s.mem.wf = true) (hm : m.wf = true)
    (h : readRegions c at' rs m s = .ok (m', t)) : m'.wf = true ∧ t.mem.wf = true := by
  induction rs generalizing s m with
  | nil =>
    cases h
    exact ⟨hm, hs⟩
  | cons r rs ih =>
    unfold readRegions at h
    split at h
    · cases h
    rename_i hget
    obtain ⟨ht, hc⟩ := getRange_ok hs hget
    exact ih ht (foldl_tins_wf hc hm) h

theorem readRegions_error {c at' : Nat} {rs : List (Nat × Nat)} {s : State} {m : Memory} {e : HomeFail} (hs : s.mem.wf = true)
    (h : readRegions c at' rs m s = .error e) : e.st.mem.wf = true := by
  induction rs generalizing s m with
  | nil => cases h
  | cons r rs ih =>
    unfold readRegions at h
    split at h
    · rename_i hget
      cases h
      exact getRange_error hs hget
    · rename_i hget
      exact ih (getRange_ok hs hget).1 h

theorem readImage_ok {c at' : Nat} {k : Kept} {s t : State} {m : Memory} (hs : s.mem.wf = true) (h : readImage c at' k s = .ok (m, t)) :
    m.wf = true ∧ t.mem.wf = true := by
  unfold readImage at h
  split at h
  · cases h
  rename_i hfirst
  obtain ⟨hm, ht⟩ := readRegions_ok hs rfl hfirst
  split at h
  · cases h
    exact ⟨hm, ht⟩
  split at h
  · cases h
  rename_i hsecond
  obtain ⟨hm, ht⟩ := readRegions_ok ht rfl hsecond
  exact readRegions_ok ht hm h

theorem readImage_error {c at' : Nat} {k : Kept} {s : State} {e : HomeFail} (hs : s.mem.wf = true) (h : readImage c at' k s = .error e) :
    e.st.mem.wf = true := by
  unfold readImage at h
  split at h
  · rename_i hfirst
    cases h
    exact readRegions_error hs hfirst
  rename_i hfirst
  obtain ⟨-, ht⟩ := readRegions_ok hs rfl hfirst
  split at h
  · cases h
  split at h
  · rename_i hsecond
    cases h
    exact readRegions_error ht hsecond
  rename_i hsecond
  exact readRegions_error (readRegions_ok ht rfl hsecond).2 h

theorem readImages_ok {c : Nat} {t : Team} {l : List (Nat × Nat)} {s u : State} {r : List (Kept × Memory)} (hs : s.mem.wf = true)
    (h : readImages c t l s = .ok (r, u)) : (∀ e ∈ r, e.2.wf = true) ∧ u.mem.wf = true := by
  induction l generalizing s r with
  | nil =>
    cases h
    exact ⟨fun _ he => absurd he List.not_mem_nil, hs⟩
  | cons e l ih =>
    unfold readImages at h
    split at h
    · exact ih hs h
    split at h
    · cases h
    rename_i himg
    obtain ⟨hm, ht⟩ := readImage_ok hs himg
    split at h
    · cases h
    rename_i hrest
    cases h
    obtain ⟨hr, hu⟩ := ih ht hrest
    exact ⟨List.forall_mem_cons.mpr ⟨hm, hr⟩, hu⟩

theorem readImages_error {c : Nat} {t : Team} {l : List (Nat × Nat)} {s : State} {x : HomeFail} (hs : s.mem.wf = true)
    (h : readImages c t l s = .error x) : x.st.mem.wf = true := by
  induction l generalizing s with
  | nil => cases h
  | cons e l ih =>
    unfold readImages at h
    split at h
    · exact ih hs h
    split at h
    · rename_i himg
      cases h
      exact readImage_error hs himg
    rename_i himg
    split at h
    · rename_i hrest
      cases h
      exact ih (readImage_ok hs himg).2 hrest
    · cases h

theorem groupImages_ok {ts : List Team} {s u : State} {r : List (List (Kept × Memory))} (hs : s.mem.wf = true)
    (h : groupImages ts s = .ok (r, u)) : (∀ l ∈ r, ∀ e ∈ l, e.2.wf = true) ∧ u.mem.wf = true := by
  induction ts generalizing s r with
  | nil =>
    cases h
    exact ⟨fun _ he => absurd he List.not_mem_nil, hs⟩
  | cons t ts ih =>
    unfold groupImages at h
    split at h
    · cases h
    rename_i hfirst
    obtain ⟨hr, ht⟩ := readImages_ok hs hfirst
    cases hrest : groupImages ts _ with
    | error e =>
      rw [hrest] at h
      cases h
    | ok x =>
      rw [hrest] at h
      cases h
      obtain ⟨hl, hu⟩ := ih ht hrest
      exact ⟨List.forall_mem_cons.mpr ⟨hr, hl⟩, hu⟩

theorem groupImages_error {ts : List Team} {s : State} {e : HomeFail} (hs : s.mem.wf = true) (h : groupImages ts s = .error e) :
    e.st.mem.wf = true := by
  induction ts generalizing s with
  | nil => cases h
  | cons t ts ih =>
    unfold groupImages at h
    split at h
    · rename_i hfirst
      cases h
      exact readImages_error hs hfirst
    rename_i hfirst
    cases hrest : groupImages ts _ with
    | error e =>
      rw [hrest] at h
      cases h
      exact ih (readImages_ok hs hfirst).2 hrest
    | ok x =>
      rw [hrest] at h
      cases h

theorem ite_wf {c : Prop} [Decidable c] {a b : State} (ha : a.mem.wf = true) (hb : b.mem.wf = true) : (if c then a else b).mem.wf = true := by
  split
  · exact ha
  · exact hb

theorem foldl_mem_wf {α : Type} {g : State → α → State} {l : List α} (hg : ∀ s, ∀ a ∈ l, s.mem.wf = true → (g s a).mem.wf = true) {s : State}
    (h : s.mem.wf = true) : (l.foldl g s).mem.wf = true := by
  induction l generalizing s with
  | nil => exact h
  | cons a l ih => exact ih (fun s b hb => hg s b (List.mem_cons_of_mem a hb)) (hg s a List.mem_cons_self h)


theorem State_putMem_wf {s : State} {m : Memory} (h : m.wf = true) : (s.putMem m).mem.wf = true := h

@[simp] theorem State_zeroKeys_wf (s : State) (lo : ℕ) (hi : ℕ) (hwf : s.mem.wf = true) : (State.zeroKeys s lo hi).mem.wf = true := by
  simp [State.zeroKeys, hwf]

@[simp] theorem State_put64_wf (s : State) (key : ℕ) (v : ℕ) (hwf : s.mem.wf = true) : (State.put64 s key v).mem.wf = true := by
  simp [State.put64, hwf]

@[simp] theorem homeWord_wf (s : State) (c : ℕ) (ea : Word) (key : ℕ) (v : ℕ) (hwf : s.mem.wf = true) : (homeWord s c ea key v).mem.wf = true := by
  unfold homeWord
  grind -ring -linarith [State_memFault_mem, noteRead_mem, State_put64_wf]

@[simp] theorem putObj_wf (s : State) (c : ℕ) (ea : Word) (key : ℕ) (o : ObjRun) (remote : Bool) (hwf : s.mem.wf = true) : (putObj s c ea key o remote).mem.wf = true := by
  simp [putObj, hwf]

@[simp] theorem leaveQueues_wf (s : State) (a : ℕ) (obj : Word) (hwf : s.mem.wf = true) : (leaveQueues s a obj).mem.wf = true := by
  unfold leaveQueues
  grind -ring -linarith [putObj_wf, foldl_wf]

/-- An agent that does not wait withdraws nothing but its waits for releases. -/
theorem withdraw_of_not_waiting {s : State} {a : Nat} (h : ∀ w, ((dropWaits s a).sc a).run ≠ .waiting w) : withdraw s a = dropWaits s a := by
  unfold withdraw
  cases hr : ((dropWaits s a).sc a).run with
  | waiting w => exact absurd hr (h w)
  | _ => simp only [hr]

@[simp] theorem withdraw_wf (s : State) (a : Nat) (hwf : s.mem.wf = true) : (withdraw s a).mem.wf = true := by
  have h : (dropWaits s a).mem.wf = true := by rwa [dropWaits_mem]
  cases hr : ((dropWaits s a).sc a).run with
  | waiting w =>
    cases w <;> simp [withdraw, hr, leaveQueues_wf _ _ _ h, hwf]
  | _ => rwa [withdraw_of_not_waiting (by simp [hr])]

@[simp] theorem State_routineFail_wf (s : State) (cause : ℕ) (hwf : s.mem.wf = true) : (State.routineFail s cause).mem.wf = true := by
  simp [State.routineFail, hwf]

@[simp] theorem State_ctxFault_wf (s : State) (cause : ℕ) (detail : ℕ) (val : Word) (hwf : s.mem.wf = true) : (State.ctxFault s cause detail val).mem.wf = true := by
  unfold State.ctxFault
  grind -ring -linarith [State_scalarFault_mem, State_routineFail_wf]

@[simp] theorem State_stopCore_wf (s : State) (r : Run) (p : ℕ) (hwf : s.mem.wf = true) : (State.stopCore s r p).mem.wf = true := by
  simp [State.stopCore, hwf]

@[simp] theorem State_stopCores_wf (s : State) (r : Run) (ps : List ℕ) (hwf : s.mem.wf = true) : (State.stopCores s r ps).mem.wf = true := by
  unfold State.stopCores
  grind -ring -linarith [State_stopCore_wf, foldl_wf]

@[simp] theorem State_suspendOne_wf (s : State) (t : ℕ) (cls : ℕ) (hwf : s.mem.wf = true) : (State.suspendOne s t cls).mem.wf = true := by
  unfold State.suspendOne
  grind -ring -linarith [State_stopCores_wf, State_upTm_mem]

@[simp] theorem State_suspendTeam_wf (s : State) (t : ℕ) (cls : ℕ) (hwf : s.mem.wf = true) : (State.suspendTeam s t cls).mem.wf = true := by
  unfold State.suspendTeam
  grind -ring -linarith [State_suspendOne_wf, foldl_wf]

@[simp] theorem State_trap_wf (s : State) (code : ℕ) (detail : ℕ) (tval : Word) (hwf : s.mem.wf = true) : (State.trap s code detail tval).mem.wf = true := by
  unfold State.trap
  grind -ring -linarith [State_ctxFault_wf, State_suspendTeam_wf, State_putSc_mem]

@[simp] theorem State_illegal_wf (s : State) (i : Instr) (detail : ℕ) (hwf : s.mem.wf = true) : (State.illegal s i detail).mem.wf = true := by
  simp [State.illegal, hwf]

/-- The checks of Table 4.4 keep the canonical form if the effect does. -/
theorem nextWf_issue {cls : Nat} {g : Guard} {srcs : List Src} {dst : Option (BitVec 6)} {s : State} {body : State → State}
    (h : s.mem.wf = true) (hbody : (body s).mem.wf = true) : NextWf (issue cls g srcs dst s body) := by
  unfold issue
  rw [nextWf_next]
  split
  · exact State_trap_wf _ _ _ _ h
  split
  · rwa [State_retire_mem]
  split
  · exact State_trap_wf _ _ _ _ h
  · exact h
  split
  · exact h
  · exact hbody

theorem nextWf_issueCore {i : Instr} {cls : Nat} {g : Guard} {srcs : List Src} {dst : Option (BitVec 6)} {s : State} {body : State → State}
    (h : s.mem.wf = true) (hbody : (body s).mem.wf = true) : NextWf (issueCore i cls g srcs dst s body) := by
  unfold issueCore
  split
  · exact nextWf_issue h hbody
  · simp [h]

theorem nextWf_issueThread {i : Instr} {cls : Nat} {g : Guard} {srcs : List Src} {dst : Option (BitVec 6)} {s : State} {body : State → State}
    (h : s.mem.wf = true) (hbody : (body s).mem.wf = true) : NextWf (issueThread i cls g srcs dst s body) := by
  unfold issueThread
  split
  · simp [h]
  · exact nextWf_issue h hbody

theorem nextWf_issuePriv {i : Instr} {cls : Nat} {g : Guard} {srcs : List Src} {dst : Option (BitVec 6)} {s : State} {body : State → State}
    (h : s.mem.wf = true) (hbody : (body s).mem.wf = true) : NextWf (issuePriv i cls g srcs dst s body) := by
  unfold issuePriv
  split
  · exact nextWf_issue h hbody
  · simp [h]

@[simp] theorem devWrite_wf (s : State) (key : ℕ) (a1 : ℕ) (a2 : ℕ) (a3 : ℕ) (hwf : s.mem.wf = true) : (devWrite s key a1 a2 a3).mem.wf = true := by
  induction a1 generalizing s key a2 a3 with
  | zero => grind -ring -linarith [devWrite]
  | succ k ih =>
    unfold devWrite
    grind -ring -linarith [State_ask_mem, State_put64_wf]

@[simp] theorem keyWrite_wf (s : State) (key : ℕ) (n : ℕ) (v : ℕ) (mask : ℕ) (hwf : s.mem.wf = true) : (keyWrite s key n v mask).mem.wf = true := by
  unfold keyWrite
  grind -ring -linarith [noteWrite_mem, devWrite_wf, wrMasked_wf]

@[simp] theorem devLine_wf (s : State) (req : ℕ) (c : ℕ) (ea : ℕ) (v : ℕ) (mask : ℕ) (need : ℕ) (a1 : ℕ) (hwf : s.mem.wf = true) : (devLine s req c ea v mask need a1).mem.wf = true := by
  induction a1 generalizing s req c ea v mask need with
  | zero => grind -ring -linarith [devLine]
  | succ k ih =>
    unfold devLine
    grind -ring -linarith [devWrite_wf]

theorem homeWrite_ok_wf (s : State) (req : ℕ) (c : ℕ) (ea : ℕ) (n : ℕ) (v : ℕ) (mask : ℕ) (need : ℕ) (hwf : s.mem.wf = true) {u : State} (hr : homeWrite s req c ea n v mask need = .ok u) : u.mem.wf = true := by
  unfold homeWrite at hr
  grind -ring -linarith [noteWrite_mem, noteRead_mem, keyWrite_wf, devLine_wf, noteXlat_mem, clearEcc_mem]

theorem homeWrite_err_wf (s : State) (req : ℕ) (c : ℕ) (ea : ℕ) (n : ℕ) (v : ℕ) (mask : ℕ) (need : ℕ) (hwf : s.mem.wf = true) {e : HomeFail} (hr : homeWrite s req c ea n v mask need = .error e) : e.st.mem.wf = true := by
  unfold homeWrite at hr
  grind -ring -linarith [noteWrite_mem, noteRead_mem, keyWrite_wf, devLine_wf, noteXlat_mem, clearEcc_mem]

theorem globalWrite_ok_wf (req : ℕ) (c : ℕ) (a1 : ℕ) (a2 : ℕ) (a3 : ℕ) (a4 : ℕ) (a5 : State) (hwf : a5.mem.wf = true) {u : State} (hr : globalWrite req c a1 a2 a3 a4 a5 = .ok u) : u.mem.wf = true := by
  induction a1 generalizing req c a2 a3 a4 a5 u with
  | zero => grind -ring -linarith [globalWrite]
  | succ k ih =>
    unfold globalWrite at hr
    grind -ring -linarith [homeWrite_ok_wf, homeWrite_err_wf]

theorem globalWrite_err_wf (req : ℕ) (c : ℕ) (a1 : ℕ) (a2 : ℕ) (a3 : ℕ) (a4 : ℕ) (a5 : State) (hwf : a5.mem.wf = true) {e : HomeFail} (hr : globalWrite req c a1 a2 a3 a4 a5 = .error e) : e.st.mem.wf = true := by
  induction a1 generalizing req c a2 a3 a4 a5 e with
  | zero => grind -ring -linarith [globalWrite]
  | succ k ih =>
    unfold globalWrite at hr
    grind -ring -linarith [homeWrite_ok_wf, homeWrite_err_wf]

@[simp] theorem loadGlobal_wf (w : ℕ) (sx : Bool) (d : BitVec 6) (ea : Word) (s : State) (hwf : s.mem.wf = true) : (loadGlobal w sx d ea s).mem.wf = true := by
  unfold loadGlobal
  grind -ring -linarith [State_ctxFault_wf, State_retire_mem, State_putSc_mem, State_trap_wf]

@[simp] theorem fillFromHome_wf (k : ℕ) (f : Fill) (s : State) (hwf : s.mem.wf = true) : (fillFromHome k f s).mem.wf = true := by
  unfold fillFromHome
  grind -ring -linarith [noteAccess_mem, State_ctxFault_wf, homeRead_wf, State_putSc_mem, noteXlat_mem]

@[simp] theorem execGlobalLoadFill_wf (k : ℕ) (s : State) (hwf : s.mem.wf = true) : NextWf (execGlobalLoadFill k s) := by
  unfold execGlobalLoadFill
  grind -ring -linarith [fillFromHome_wf, State_putSc_mem, nextWf_next]

@[simp] theorem storeGlobal_wf (w : ℕ) (ea : Word) (v : Word) (s : State) (hwf : s.mem.wf = true) : (storeGlobal w ea v s).mem.wf = true := by
  unfold storeGlobal
  grind -ring -linarith [State_ctxFault_wf, State_retire_mem, State_putSc_mem, homeWrite_ok_wf, homeWrite_err_wf, State_trap_wf]

@[simp] theorem performWb_wf (s : State) (w : WriteBack) (hwf : s.mem.wf = true) : (performWb s w).mem.wf = true := by
  unfold performWb
  grind -ring -linarith [State_memFault_mem, homeWrite_ok_wf, homeWrite_err_wf, State_routineFail_wf]

@[simp] theorem execWritebackPerform_wf (k : ℕ) (s : State) (hwf : s.mem.wf = true) : NextWf (execWritebackPerform k s) := by
  unfold execWritebackPerform
  grind -ring -linarith [performWb_wf, State_putSc_mem, nextWf_next]

@[simp] theorem issueAcq_wf (d : BitVec 6) (ea : Word) (s : State) (hwf : s.mem.wf = true) : (issueAcq d ea s).mem.wf = true := by
  unfold issueAcq
  grind -ring -linarith [State_ctxFault_wf, State_retire_mem, State_putSc_mem, State_trap_wf]

@[simp] theorem execLdAcq_wf (g : Guard) (d : BitVec 6) (a : Src) (off : BitVec 22) (s : State) (hwf : s.mem.wf = true) : NextWf (execLdAcq g d a off s) := by
  unfold execLdAcq
  grind -ring -linarith [nextWf_issue, issueAcq_wf, nextWf_next]

@[simp] theorem readAcq_wf (k : ℕ) (f : Fill) (s : State) (hwf : s.mem.wf = true) : (readAcq k f s).mem.wf = true := by
  unfold readAcq
  grind -ring -linarith [State_ctxFault_wf, finishAcq_mem, homeRead_wf, State_putSc_mem, noteXlat_mem, noteRegions_mem]

@[simp] theorem execAcquireLoadFill_wf (k : ℕ) (s : State) (hwf : s.mem.wf = true) : NextWf (execAcquireLoadFill k s) := by
  unfold execAcquireLoadFill
  grind -ring -linarith [finishAcq_mem, readAcq_wf, nextWf_next]

@[simp] theorem execLdGB_wf (g : Guard) (d : BitVec 6) (a : Src) (imm : BitVec 28) (s : State) (hwf : s.mem.wf = true) : NextWf (execLdGB g d a imm s) := by
  unfold execLdGB
  grind -ring -linarith [loadGlobal_wf, nextWf_issue, nextWf_next]

@[simp] theorem execLdGBu_wf (g : Guard) (d : BitVec 6) (a : Src) (imm : BitVec 28) (s : State) (hwf : s.mem.wf = true) : NextWf (execLdGBu g d a imm s) := by
  unfold execLdGBu
  grind -ring -linarith [loadGlobal_wf, nextWf_issue, nextWf_next]

@[simp] theorem execLdGH_wf (g : Guard) (d : BitVec 6) (a : Src) (imm : BitVec 28) (s : State) (hwf : s.mem.wf = true) : NextWf (execLdGH g d a imm s) := by
  unfold execLdGH
  grind -ring -linarith [loadGlobal_wf, nextWf_issue, nextWf_next]

@[simp] theorem execLdGHu_wf (g : Guard) (d : BitVec 6) (a : Src) (imm : BitVec 28) (s : State) (hwf : s.mem.wf = true) : NextWf (execLdGHu g d a imm s) := by
  unfold execLdGHu
  grind -ring -linarith [loadGlobal_wf, nextWf_issue, nextWf_next]

@[simp] theorem execLdGW_wf (g : Guard) (d : BitVec 6) (a : Src) (imm : BitVec 28) (s : State) (hwf : s.mem.wf = true) : NextWf (execLdGW g d a imm s) := by
  unfold execLdGW
  grind -ring -linarith [loadGlobal_wf, nextWf_issue, nextWf_next]

@[simp] theorem execLdGWu_wf (g : Guard) (d : BitVec 6) (a : Src) (imm : BitVec 28) (s : State) (hwf : s.mem.wf = true) : NextWf (execLdGWu g d a imm s) := by
  unfold execLdGWu
  grind -ring -linarith [loadGlobal_wf, nextWf_issue, nextWf_next]

@[simp] theorem execLdG_wf (g : Guard) (d : BitVec 6) (a : Src) (imm : BitVec 28) (s : State) (hwf : s.mem.wf = true) : NextWf (execLdG g d a imm s) := by
  unfold execLdG
  grind -ring -linarith [loadGlobal_wf, nextWf_issue, nextWf_next]

@[simp] theorem execStGB_wf (g : Guard) (a : Src) (b : Src) (imm : BitVec 28) (s : State) (hwf : s.mem.wf = true) : NextWf (execStGB g a b imm s) := by
  unfold execStGB
  grind -ring -linarith [nextWf_issue, storeGlobal_wf, nextWf_next]

@[simp] theorem execStGH_wf (g : Guard) (a : Src) (b : Src) (imm : BitVec 28) (s : State) (hwf : s.mem.wf = true) : NextWf (execStGH g a b imm s) := by
  unfold execStGH
  grind -ring -linarith [nextWf_issue, storeGlobal_wf, nextWf_next]

@[simp] theorem execStGW_wf (g : Guard) (a : Src) (b : Src) (imm : BitVec 28) (s : State) (hwf : s.mem.wf = true) : NextWf (execStGW g a b imm s) := by
  unfold execStGW
  grind -ring -linarith [nextWf_issue, storeGlobal_wf, nextWf_next]

@[simp] theorem execStG_wf (g : Guard) (a : Src) (b : Src) (imm : BitVec 28) (s : State) (hwf : s.mem.wf = true) : NextWf (execStG g a b imm s) := by
  unfold execStG
  grind -ring -linarith [nextWf_issue, storeGlobal_wf, nextWf_next]

@[simp] theorem setCtxState_wf (s : State) (c : ℕ) (v : ℕ) (hwf : s.mem.wf = true) : (setCtxState s c v).mem.wf = true := by
  simp [setCtxState, hwf]

@[simp] theorem tsRecord_wf (s : State) (c : ℕ) (w : ℕ) (ent : ℕ) (hwf : s.mem.wf = true) : (tsRecord s c w ent).mem.wf = true := by
  simp [tsRecord, hwf]

@[simp] theorem tsSkip_wf (s : State) (c : ℕ) (ms : ℕ) (idx : ℕ) (why : ℕ) (hwf : s.mem.wf = true) : (tsSkip s c ms idx why).mem.wf = true := by
  simp [tsSkip, hwf]

@[simp] theorem tsDrop_wf (s : State) (c : ℕ) (hwf : s.mem.wf = true) : (tsDrop s c).mem.wf = true := by
  simp [tsDrop, hwf]

@[simp] theorem tsEvSkip_wf (s : State) (c : ℕ) (hwf : s.mem.wf = true) : (tsEvSkip s c).mem.wf = true := by
  simp [tsEvSkip, hwf]

@[simp] theorem spWrite_wf (s : State) (p : ℕ) (a : ℕ) (n : ℕ) (v : ℕ) (hwf : s.mem.wf = true) : (spWrite s p a n v).mem.wf = true := by
  simp [spWrite, hwf]

theorem combineRun_wf {tag op e k n v : Nat} {m : Memory} {o : Bool} (h : m.wf = true) : (combineRun tag op e m k n v o).1.wf = true := by
  induction n generalizing m k v o with
  | zero =>
    unfold combineRun
    exact h
  | succ n ih =>
    unfold combineRun
    exact ih (wrN_wf _ _ _ _ h)

@[simp] theorem combineSp_wf (s : State) (p a n v tag op : Nat) (hwf : s.mem.wf = true) : (combineSp s p a n v tag op).mem.wf = true := by
  unfold combineSp
  dsimp only
  split
  · exact combineRun_wf hwf
  · exact combineRun_wf hwf

theorem combineHome_ok_wf (s : State) (req : ℕ) (c : ℕ) (ea : ℕ) (n : ℕ) (v : ℕ) (tag : ℕ) (op : ℕ) (hwf : s.mem.wf = true) {u : State} {bo : Bool} (hr : combineHome s req c ea n v tag op = .ok (u, bo)) : u.mem.wf = true := by
  unfold combineHome at hr
  grind -ring -linarith [noteAccess_mem, keyWrite_wf, noteXlat_mem, clearEcc_mem]

theorem combineHome_err_wf (s : State) (req : ℕ) (c : ℕ) (ea : ℕ) (n : ℕ) (v : ℕ) (tag : ℕ) (op : ℕ) (hwf : s.mem.wf = true) {e : HomeFail} (hr : combineHome s req c ea n v tag op = .error e) : e.st.mem.wf = true := by
  unfold combineHome at hr
  grind -ring -linarith [noteAccess_mem, keyWrite_wf, noteXlat_mem, clearEcc_mem]

theorem combineSpan_ok_wf {s : State} {req c ea n v tag op : Nat} {u : State} {bo : Bool} (hwf : s.mem.wf = true)
    (hr : combineSpan s req c ea n v tag op = .ok (u, bo)) : u.mem.wf = true := by
  unfold combineSpan at hr
  split at hr
  · exact combineHome_ok_wf _ _ _ _ _ _ _ _ hwf hr
  split at hr
  · cases hr
  rename_i hread
  have ht := globalRead_wf hread hwf
  split at hr
  · cases hr
  dsimp only at hr
  cases hw : globalWrite req c 3 ea n (combineElem tag op _ v).1 _ with
  | error e =>
    rw [hw] at hr
    cases hr
  | ok w =>
    rw [hw] at hr
    cases hr
    exact globalWrite_ok_wf _ _ _ _ _ _ _ ht hw

theorem combineSpan_err_wf {s : State} {req c ea n v tag op : Nat} {e : HomeFail} (hwf : s.mem.wf = true)
    (hr : combineSpan s req c ea n v tag op = .error e) : e.st.mem.wf = true := by
  unfold combineSpan at hr
  split at hr
  · exact combineHome_err_wf _ _ _ _ _ _ _ _ hwf hr
  split at hr
  · cases hr
    exact hwf
  rename_i hread
  have ht := globalRead_wf hread hwf
  split at hr
  · cases hr
    exact ht
  dsimp only at hr
  cases hw : globalWrite req c 3 ea n (combineElem tag op _ v).1 _ with
  | error e =>
    rw [hw] at hr
    cases hr
    exact globalWrite_err_wf _ _ _ _ _ _ _ ht hw
  | ok w =>
    rw [hw] at hr
    cases hr

@[simp] theorem countField_wf (s : State) (key : ℕ) (lo : ℕ) (bits : ℕ) (hwf : s.mem.wf = true) : (countField s key lo bits).mem.wf = true := by
  simp [countField, hwf]

@[simp] theorem syncInflight_wf (s : State) (c : ℕ) (hwf : s.mem.wf = true) : (syncInflight s c).mem.wf = true := by
  unfold syncInflight
  grind -ring -linarith [State_put64_wf]

@[simp] theorem finishMsgs_wf (a1 : ℕ) (a2 : State) (hwf : a2.mem.wf = true) : (finishMsgs a1 a2).mem.wf = true := by
  induction a1 generalizing a2 with
  | zero => grind -ring -linarith [finishMsgs]
  | succ k ih =>
    unfold finishMsgs
    grind -ring -linarith [syncInflight_wf, pushEvent_mem]

@[simp] theorem msgPiece_wf (s : State) (id : ℕ) (hwf : s.mem.wf = true) : (msgPiece s id).mem.wf = true := by
  simp [msgPiece, hwf]

@[simp] theorem landFail_wf (s : State) (id : ℕ) (hwf : s.mem.wf = true) : (landFail s id).mem.wf = true := by
  unfold landFail
  grind -ring -linarith [dropHeldOf_mem, tsRecord_wf, syncInflight_wf]

@[simp] theorem landOverflow_wf (s : State) (id : ℕ) (hwf : s.mem.wf = true) : (landOverflow s id).mem.wf = true := by
  unfold landOverflow
  grind -ring -linarith [State_put64_wf]

@[simp] theorem combineHeld_wf (s : State) (c : ℕ) (h : Held) (hwf : s.mem.wf = true) : (combineHeld s c h).mem.wf = true := by
  unfold combineHeld
  grind -ring -linarith [flightDone_mem, State_upCo_mem, msgPiece_wf, landFail_wf, State_memFault_mem, combineSpan_ok_wf, combineSpan_err_wf, landOverflow_wf]

@[simp] theorem dropHeld_wf (s : State) (h : Held) (hwf : s.mem.wf = true) : (dropHeld s h).mem.wf = true := by
  unfold dropHeld
  grind -ring -linarith [flightDone_mem, msgPiece_wf]

@[simp] theorem slotDrain_wf (c : ℕ) (i : ℕ) (line : ℕ) (a1 : ℕ) (a2 : State) (hwf : a2.mem.wf = true) : (slotDrain c i line a1 a2).mem.wf = true := by
  induction a1 generalizing c i line a2 with
  | zero => grind -ring -linarith [slotDrain]
  | succ k ih =>
    unfold slotDrain
    grind -ring -linarith [putLine_mem, combineHeld_wf, foldl_wf]

@[simp] theorem slotArrive_wf (s : State) (c : ℕ) (i : ℕ) (h : Held) (hwf : s.mem.wf = true) : (slotArrive s c i h).mem.wf = true := by
  unfold slotArrive
  grind -ring -linarith [dropHeld_wf, putLine_mem, slotDrain_wf, countField_wf]

@[simp] theorem execSlotTimeout_wf (line : ℕ) (s : State) (hwf : s.mem.wf = true) : NextWf (execSlotTimeout line s) := by
  unfold execSlotTimeout
  grind -ring -linarith [dropHeld_wf, putLine_mem, slotDrain_wf, countField_wf, foldl_wf, nextWf_next]

@[simp] theorem clearSlots_wf (s : State) (c : ℕ) (i : ℕ) (hwf : s.mem.wf = true) : (clearSlots s c i).mem.wf = true := by
  unfold clearSlots
  grind -ring -linarith [dropHeld_wf, foldl_wf]

@[simp] theorem execTimeslotLoad_wf (s : State) (hwf : s.mem.wf = true) : NextWf (execTimeslotLoad s) := by
  unfold execTimeslotLoad
  grind -ring -linarith [takeAct_wf, State_put64_wf, clearSlots_wf, nextWf_next]

@[simp] theorem execTreeLoad_wf (s : State) (hwf : s.mem.wf = true) : NextWf (execTreeLoad s) := by
  unfold execTreeLoad
  grind -ring -linarith [takeAct_wf, State_put64_wf, putTree_mem, nextWf_next]

@[simp] theorem closeTree_wf (s : State) (c : ℕ) (t : ℕ) (hwf : s.mem.wf = true) : (closeTree s c t).mem.wf = true := by
  unfold closeTree
  grind -ring -linarith [State_put64_wf]

@[simp] theorem deliverTree_wf (s : State) (c : ℕ) (t : ℕ) (root : NodeRun) (hwf : s.mem.wf = true) : (deliverTree s c t root).mem.wf = true := by
  unfold deliverTree
  grind -ring -linarith [State_upCo_mem, spWrite_wf, closeTree_wf, State_put64_wf, putTree_mem]

@[simp] theorem settle_wf (c : ℕ) (t : ℕ) (a1 : ℕ) (a2 : ℕ) (a3 : State) (hwf : a3.mem.wf = true) : (settle c t a1 a2 a3).mem.wf = true := by
  induction a1 generalizing c t a2 a3 with
  | zero => grind -ring -linarith [settle]
  | succ k ih =>
    unfold settle
    grind -ring -linarith [deliverTree_wf, putTree_mem]

@[simp] theorem settleAll_wf (c : ℕ) (t : ℕ) (s : State) (hwf : s.mem.wf = true) : (settleAll c t s).mem.wf = true := by
  unfold settleAll
  grind -ring -linarith [settle_wf, foldl_wf]

theorem contribute_some_wf (s : State) (c : ℕ) (t : ℕ) (j : ℕ) (es : List (ℕ × ℕ)) (hwf : s.mem.wf = true) {u : State} (hr : contribute s c t j es = some u) : u.mem.wf = true := by
  unfold contribute at hr
  grind -ring -linarith [settle_wf, settleAll_wf, putTree_mem, foldl_wf]

@[simp] theorem execNodeTimeout_wf (j : ℕ) (s : State) (hwf : s.mem.wf = true) : NextWf (execNodeTimeout j s) := by
  unfold execNodeTimeout
  grind -ring -linarith [settle_wf, settleAll_wf, deliverTree_wf, putTree_mem, nextWf_next]

@[simp] theorem suspendTrees_wf (s : State) (tid : ℕ) (hwf : s.mem.wf = true) : (suspendTrees s tid).mem.wf = true := by
  unfold suspendTrees
  grind -ring -linarith [State_upCo_mem, closeTree_wf, foldl_wf]

@[simp] theorem takeEntry_snd_wf (s : State) (c : ℕ) (q : Query) (hwf : s.mem.wf = true) : (takeEntry s c q).2.mem.wf = true := by
  unfold takeEntry
  grind -ring -linarith [State_put64_wf, tsRecord_wf, foldl_wf]

theorem takeEntry_pair_wf (s : State) (c : ℕ) (q : Query) (hwf : s.mem.wf = true) {ra : Option (ℕ × BitVec 512)} {u : State} (hr : takeEntry s c q = (ra, u)) : u.mem.wf = true := by
  unfold takeEntry at hr
  grind -ring -linarith [State_put64_wf, tsRecord_wf, foldl_wf]

theorem landReduce_ok_wf (m : RxMsg) (tag : ℕ) (op : ℕ) (a1 : ℕ) (a2 : ℕ) (a3 : ℕ) (a4 : ℕ) (a5 : State) (hwf : a5.mem.wf = true) {u : State} (hr : landReduce m tag op a1 a2 a3 a4 a5 = .ok u) : u.mem.wf = true := by
  induction a1 generalizing m tag op a2 a3 a4 a5 u with
  | zero => grind -ring -linarith [landReduce]
  | succ k ih =>
    unfold landReduce at hr
    grind -ring -linarith [slotArrive_wf, combineHeld_wf, noteXlat_mem]

theorem landReduce_err_wf (m : RxMsg) (tag : ℕ) (op : ℕ) (a1 : ℕ) (a2 : ℕ) (a3 : ℕ) (a4 : ℕ) (a5 : State) (hwf : a5.mem.wf = true) {e : HomeFail} (hr : landReduce m tag op a1 a2 a3 a4 a5 = .error e) : e.st.mem.wf = true := by
  induction a1 generalizing m tag op a2 a3 a4 a5 e with
  | zero => grind -ring -linarith [landReduce]
  | succ k ih =>
    unfold landReduce at hr
    grind -ring -linarith [slotArrive_wf, combineHeld_wf, noteXlat_mem]

theorem landBytes_ok_wf (m : RxMsg) (off : ℕ) (n : ℕ) (v : ℕ) (roff : ℕ) (s : State) (hwf : s.mem.wf = true) {u : State} (hr : landBytes m off n v roff s = .ok u) : u.mem.wf = true := by
  unfold landBytes at hr
  grind -ring -linarith [combineRun_wf, combineSp_wf, spWrite_wf, spFix_mem, State_memFault_mem, landReduce_ok_wf, landReduce_err_wf, globalWrite_ok_wf, globalWrite_err_wf]

theorem landBytes_err_wf (m : RxMsg) (off : ℕ) (n : ℕ) (v : ℕ) (roff : ℕ) (s : State) (hwf : s.mem.wf = true) {e : HomeFail} (hr : landBytes m off n v roff s = .error e) : e.st.mem.wf = true := by
  unfold landBytes at hr
  grind -ring -linarith [combineRun_wf, combineSp_wf, spWrite_wf, spFix_mem, State_memFault_mem, landReduce_ok_wf, landReduce_err_wf, globalWrite_ok_wf, globalWrite_err_wf]

@[simp] theorem placeBytes_snd_wf (s : State) (m : RxMsg) (off : ℕ) (n : ℕ) (v : ℕ) (roff : ℕ) (hwf : s.mem.wf = true) : (placeBytes s m off n v roff).2.mem.wf = true := by
  unfold placeBytes
  grind -ring -linarith [landFail_wf, State_memFault_mem, landBytes_ok_wf, landBytes_err_wf, finishMsgs_wf]

theorem placeBytes_pair_wf (s : State) (m : RxMsg) (off : ℕ) (n : ℕ) (v : ℕ) (roff : ℕ) (hwf : s.mem.wf = true) {ra : Fate} {u : State} (hr : placeBytes s m off n v roff = (ra, u)) : u.mem.wf = true := by
  unfold placeBytes at hr
  grind -ring -linarith [landFail_wf, State_memFault_mem, landBytes_ok_wf, landBytes_err_wf, finishMsgs_wf]

theorem startMessage_enter_snd_wf (s : State) (m : RxMsg) (hwf : s.mem.wf = true) : (startMessage.enter s m).2.mem.wf = true := by
  unfold startMessage.enter
  grind -ring -linarith [tsRecord_wf, syncInflight_wf]

@[simp] theorem startMessage_snd_wf (s : State) (c conn mode : Nat) (lane : Option Nat) (op msg len first : Nat) (tag : Word) (hwf : s.mem.wf = true) :
    (startMessage s c conn mode lane op msg len first tag).2.mem.wf = true := by
  have ht := takeEntry_snd_wf s c { conn := conn, op := op, tag := tag, key := 0 } hwf
  unfold startMessage
  extract_lets r t new
  clear_value new
  have ht : t.mem.wf = true := ht
  clear_value t
  split
  · extract_lets m
    split
    · split
      · simpa using ht
      · exact startMessage_enter_snd_wf _ _ ht
    · exact startMessage_enter_snd_wf _ _ ht
  split
  · simpa using ht
  split
  · exact tsDrop_wf _ _ ht
  · exact startMessage_enter_snd_wf _ _ ht

theorem startMessage_pair_wf {s : State} {c conn mode : Nat} {lane : Option Nat} {op msg len first : Nat} {tag : Word} {ra : Except Fate RxMsg} {u : State}
    (hwf : s.mem.wf = true) (hr : startMessage s c conn mode lane op msg len first tag = (ra, u)) : u.mem.wf = true := by
  have h := startMessage_snd_wf s c conn mode lane op msg len first tag hwf
  rwa [hr] at h

@[simp] theorem arriveWhole_snd_wf (s : State) (c : ℕ) (conn : ℕ) (mode : ℕ) (lane : Option ℕ) (op : ℕ) (len : ℕ) (v : ℕ) (tag : Word) (hwf : s.mem.wf = true) : (arriveWhole s c conn mode lane op len v tag).2.mem.wf = true := by
  unfold arriveWhole
  grind -ring -linarith [startMessage_enter_snd_wf, startMessage_snd_wf, startMessage_pair_wf, placeBytes_snd_wf, placeBytes_pair_wf]

theorem arriveWhole_pair_wf (s : State) (c : ℕ) (conn : ℕ) (mode : ℕ) (lane : Option ℕ) (op : ℕ) (len : ℕ) (v : ℕ) (tag : Word) (hwf : s.mem.wf = true) {ra : Fate} {u : State} (hr : arriveWhole s c conn mode lane op len v tag = (ra, u)) : u.mem.wf = true := by
  unfold arriveWhole at hr
  grind -ring -linarith [startMessage_enter_snd_wf, startMessage_snd_wf, startMessage_pair_wf, placeBytes_snd_wf, placeBytes_pair_wf]

@[simp] theorem takeKey_snd_wf (s : State) (c : ℕ) (conn : ℕ) (op : ℕ) (key : BitVec 32) (off : ℕ) (len : ℕ) (hwf : s.mem.wf = true) : (takeKey s c conn op key off len).2.mem.wf = true := by
  unfold takeKey
  grind -ring -linarith [takeEntry_snd_wf, takeEntry_pair_wf]

theorem takeKey_pair_wf (s : State) (c : ℕ) (conn : ℕ) (op : ℕ) (key : BitVec 32) (off : ℕ) (len : ℕ) (hwf : s.mem.wf = true) {ra : Option (ℕ × BitVec 512)} {u : State} (hr : takeKey s c conn op key off len = (ra, u)) : u.mem.wf = true := by
  unfold takeKey at hr
  grind -ring -linarith [takeEntry_snd_wf, takeEntry_pair_wf]

@[simp] theorem markRemote_wf (s : State) (c : ℕ) (ea : ℕ) (n : ℕ) (hwf : s.mem.wf = true) : (markRemote s c ea n).mem.wf = true := by
  unfold markRemote
  grind -ring -linarith [homeWord_wf, foldl_wf]

@[simp] theorem serveRead_snd_wf (s : State) (c : ℕ) (l : BitVec 512) (off : ℕ) (len : ℕ) (hwf : s.mem.wf = true) : (serveRead s c l off len).2.mem.wf = true := by
  unfold serveRead
  grind -ring -linarith [spFix_mem, markRemote_wf, globalRead_wf]

theorem serveRead_pair_wf (s : State) (c : ℕ) (l : BitVec 512) (off : ℕ) (len : ℕ) (hwf : s.mem.wf = true) {ra : Option ℕ} {u : State} (hr : serveRead s c l off len = (ra, u)) : u.mem.wf = true := by
  unfold serveRead at hr
  grind -ring -linarith [spFix_mem, markRemote_wf, globalRead_wf]

@[simp] theorem execSemadd_wf (g : Guard) (a : Src) (k : BitVec 5) (s : State) (hwf : s.mem.wf = true) : NextWf (execSemadd g a k s) := by
  unfold execSemadd
  grind -ring -linarith [State_retire_mem, State_upCo_mem, nextWf_issueCore, nextWf_next]

@[simp] theorem execSemwait_wf (g : Guard) (a : Src) (k : BitVec 5) (s : State) (hwf : s.mem.wf = true) : NextWf (execSemwait g a k s) := by
  unfold execSemwait
  grind -ring -linarith [State_retire_mem, nextWf_issueCore, State_wait_mem, nextWf_next]

@[simp] theorem execSemwaitComplete_wf (s : State) (hwf : s.mem.wf = true) : NextWf (execSemwaitComplete s) := by
  unfold execSemwaitComplete
  grind -ring -linarith [State_retire_mem, nextWf_next]

@[simp] theorem execWaitb_wf (g : Guard) (k : BitVec 5) (t : BitVec 22) (s : State) (hwf : s.mem.wf = true) : NextWf (execWaitb g k t s) := by
  unfold execWaitb
  grind -ring -linarith [State_retire_mem, nextWf_issueCore, State_wait_mem, nextWf_next]

@[simp] theorem execWaitbComplete_wf (s : State) (hwf : s.mem.wf = true) : NextWf (execWaitbComplete s) := by
  unfold execWaitbComplete
  grind -ring -linarith [State_retire_mem, nextWf_next]

@[simp] theorem execSemrdDone_wf (g : Guard) (d : BitVec 6) (k : BitVec 5) (s : State) (hwf : s.mem.wf = true) : NextWf (execSemrdDone g d k s) := by
  unfold execSemrdDone
  grind -ring -linarith [nextWf_issueCore, State_result_mem, nextWf_next]

@[simp] theorem execSemrdPend_wf (g : Guard) (d : BitVec 6) (k : BitVec 5) (s : State) (hwf : s.mem.wf = true) : NextWf (execSemrdPend g d k s) := by
  unfold execSemrdPend
  grind -ring -linarith [nextWf_issueCore, State_result_mem, nextWf_next]

@[simp] theorem execPause_wf (g : Guard) (n : BitVec 22) (s : State) (hwf : s.mem.wf = true) : NextWf (execPause g n s) := by
  unfold execPause
  grind -ring -linarith [State_retire_mem, nextWf_issue, State_wait_mem, nextWf_next]

@[simp] theorem execPauseExpire_wf (s : State) (hwf : s.mem.wf = true) : NextWf (execPauseExpire s) := by
  unfold execPauseExpire
  grind -ring -linarith [State_retire_mem, nextWf_next]

@[simp] theorem waitaBody_wf (pd : BitVec 5) (ea : Word) (s : State) (hwf : s.mem.wf = true) : (waitaBody pd ea s).mem.wf = true := by
  unfold waitaBody
  grind -ring -linarith [State_ctxFault_wf, State_wait_mem, noteXlat_mem, State_resultP_mem, State_trap_wf]

@[simp] theorem execWaita_wf (g : Guard) (pd : BitVec 5) (a : Src) (off : BitVec 22) (s : State) (hwf : s.mem.wf = true) : NextWf (execWaita g pd a off s) := by
  unfold execWaita
  grind -ring -linarith [nextWf_issueThread, waitaBody_wf, nextWf_next]

@[simp] theorem execWaitaReturn_wf (lost : Bool) (s : State) (hwf : s.mem.wf = true) : NextWf (execWaitaReturn lost s) := by
  unfold execWaitaReturn
  grind -ring -linarith [State_resultP_mem, nextWf_next]

theorem withObject_wf {obj : Word} {s : State} {body : Nat → State} (h : s.mem.wf = true) (hbody : ∀ key, (body key).mem.wf = true) :
    (withObject obj s body).mem.wf = true := by
  unfold withObject
  grind -ring -linarith [State_trap_wf, State_ctxFault_wf, noteXlat_mem]

@[simp] theorem acqBody_wf (excl : Bool) (obj : Word) (s : State) (hwf : s.mem.wf = true) : (acqBody excl obj s).mem.wf = true := by
  unfold acqBody
  grind -ring -linarith [withObject_wf, putObj_wf, State_wait_mem, State_trap_wf]

@[simp] theorem execAcqX_wf (g : Guard) (a : Src) (s : State) (hwf : s.mem.wf = true) : NextWf (execAcqX g a s) := by
  unfold execAcqX
  grind -ring -linarith [acqBody_wf, nextWf_issue, nextWf_next]

@[simp] theorem execAcqS_wf (g : Guard) (a : Src) (s : State) (hwf : s.mem.wf = true) : NextWf (execAcqS g a s) := by
  unfold execAcqS
  grind -ring -linarith [acqBody_wf, nextWf_issue, nextWf_next]

@[simp] theorem grantHead_wf (key : ℕ) (obj : Word) (excl : Bool) (s : State) (hwf : s.mem.wf = true) : (grantHead key obj excl s).mem.wf = true := by
  simp [grantHead, hwf]

@[simp] theorem grantShared_wf (key : ℕ) (a1 : ℕ) (a2 : State) (hwf : a2.mem.wf = true) : (grantShared key a1 a2).mem.wf = true := by
  induction a1 generalizing key a2 with
  | zero => grind -ring -linarith [grantShared]
  | succ k ih =>
    unfold grantShared
    grind -ring -linarith [asAgent_wf, grantHead_wf]

@[simp] theorem grant_wf (obj : Word) (excl : Bool) (s : State) (hwf : s.mem.wf = true) : (grant obj excl s).mem.wf = true := by
  unfold grant
  grind -ring -linarith [State_ctxFault_wf, grantShared_wf, grantHead_wf, noteXlat_mem]

@[simp] theorem execAcqGrant_wf (s : State) (hwf : s.mem.wf = true) : NextWf (execAcqGrant s) := by
  unfold execAcqGrant
  grind -ring -linarith [grant_wf, nextWf_next]

@[simp] theorem arrive_wf (b : Barrier) (s : State) (hwf : s.mem.wf = true) : (arrive b s).mem.wf = true := by
  unfold arrive
  grind -ring -linarith [State_ctxFault_wf, State_retire_mem, State_upSc_mem, State_wait_mem, State_upTm_mem]

@[simp] theorem execTbar_wf (g : Guard) (s : State) (hwf : s.mem.wf = true) : NextWf (execTbar g s) := by
  unfold execTbar
  grind -ring -linarith [nextWf_issueCore, arrive_wf, nextWf_next]

@[simp] theorem execSstep_wf (g : Guard) (s : State) (hwf : s.mem.wf = true) : NextWf (execSstep g s) := by
  unfold execSstep
  grind -ring -linarith [nextWf_issueCore, arrive_wf, nextWf_next]

@[simp] theorem execCbar_wf (g : Guard) (s : State) (hwf : s.mem.wf = true) : NextWf (execCbar g s) := by
  unfold execCbar
  grind -ring -linarith [nextWf_issueCore, arrive_wf, nextWf_next]

@[simp] theorem execCstep_wf (g : Guard) (s : State) (hwf : s.mem.wf = true) : NextWf (execCstep g s) := by
  unfold execCstep
  grind -ring -linarith [nextWf_issueCore, arrive_wf, nextWf_next]

@[simp] theorem execBarrierComplete_wf (s : State) (hwf : s.mem.wf = true) : NextWf (execBarrierComplete s) := by
  unfold execBarrierComplete
  grind -ring -linarith [finishRound_mem, foldl_wf, nextWf_next]

@[simp] theorem setConnState_wf (s : State) (c : ℕ) (n : ℕ) (v : ℕ) (hwf : s.mem.wf = true) : (setConnState s c n v).mem.wf = true := by
  simp [setConnState, hwf]

@[simp] theorem openConn_wf (s : State) (c : ℕ) (n : ℕ) (hwf : s.mem.wf = true) : (openConn s c n).mem.wf = true := by
  simp [openConn, hwf]

@[simp] theorem writeConnWord_wf (s : State) (c : ℕ) (n : ℕ) (w : ℕ) (v : ℕ) (hwf : s.mem.wf = true) : (writeConnWord s c n w v).mem.wf = true := by
  unfold writeConnWord
  grind -ring -linarith [State_put64_wf, openConn_wf]

@[simp] theorem endPart_wf (s : State) (c : ℕ) (o : Origin) (st : ℕ) (hwf : s.mem.wf = true) : (endPart s c o st).mem.wf = true := by
  unfold endPart
  grind -ring -linarith [flightDone_mem, tsSkip_wf]

@[simp] theorem markPart_wf (s : State) (c : ℕ) (o : Origin) (st : ℕ) (hwf : s.mem.wf = true) : (markPart s c o st).mem.wf = true := by
  unfold markPart
  grind -ring -linarith [State_upCo_mem, endPart_wf]

@[simp] theorem messageLeft_wf (s : State) (t : Tx) (hwf : s.mem.wf = true) : (messageLeft s t).mem.wf = true := by
  unfold messageLeft
  grind -ring -linarith [endPart_wf, incMs_mem]

@[simp] theorem sendOne_wf (s : State) (t : Tx) (hwf : s.mem.wf = true) : (sendOne s t).mem.wf = true := by
  unfold sendOne
  grind -ring -linarith [messageLeft_wf, putConn_mem]

@[simp] theorem pump_wf (c : ℕ) (n : ℕ) (a1 : ℕ) (a2 : State) (hwf : a2.mem.wf = true) : (pump c n a1 a2).mem.wf = true := by
  induction a1 generalizing c n a2 with
  | zero => grind -ring -linarith [pump]
  | succ k ih =>
    unfold pump
    grind -ring -linarith [sendOne_wf]

@[simp] theorem pumpAll_wf (s : State) (c : ℕ) (n : ℕ) (hwf : s.mem.wf = true) : (pumpAll s c n).mem.wf = true := by
  simp [pumpAll, hwf]

@[simp] theorem halve_wf (s : State) (c : ℕ) (n : ℕ) (psn : ℕ) (hwf : s.mem.wf = true) : (halve s c n psn).mem.wf = true := by
  unfold halve
  grind -ring -linarith [State_put64_wf, putConn_mem]

@[simp] theorem sendMessage_snd_wf (s : State) (m : OutMsg) (hwf : s.mem.wf = true) : (sendMessage s m).2.mem.wf = true := by
  unfold sendMessage
  grind -ring -linarith [pumpAll_wf, openConn_wf, putConn_mem]

theorem sendMessage_pair_wf (s : State) (m : OutMsg) (hwf : s.mem.wf = true) {ra : ℕ} {u : State} (hr : sendMessage s m = (ra, u)) : u.mem.wf = true := by
  unfold sendMessage at hr
  grind -ring -linarith [pumpAll_wf, openConn_wf, putConn_mem]

@[simp] theorem failMessage_wf (s : State) (c : ℕ) (n : ℕ) (mode : ℕ) (msg : ℕ) (st : ℕ) (hwf : s.mem.wf = true) : (failMessage s c n mode msg st).mem.wf = true := by
  unfold failMessage
  grind -ring -linarith [markPart_wf, endPart_wf, putConn_mem]

@[simp] theorem cancelRecord_wf (p : ℕ) (slot : BitVec 32) (st : ℕ) (a1 : ℕ) (a2 : State) (hwf : a2.mem.wf = true) : (cancelRecord p slot st a1 a2).mem.wf = true := by
  induction a1 generalizing p slot st a2 with
  | zero => grind -ring -linarith [cancelRecord]
  | succ k ih =>
    unfold cancelRecord
    grind -ring -linarith [failMessage_wf, pumpAll_wf]

@[simp] theorem failWith_wf (s : State) (c : ℕ) (n : ℕ) (mode : ℕ) (msg : ℕ) (st : ℕ) (hwf : s.mem.wf = true) : (failWith s c n mode msg st).mem.wf = true := by
  unfold failWith
  grind -ring -linarith [failMessage_wf, cancelRecord_wf]

@[simp] theorem failAll_wf (c : ℕ) (n : ℕ) (st : ℕ) (want : ℕ → Bool) (a1 : ℕ) (a2 : State) (hwf : a2.mem.wf = true) : (failAll c n st want a1 a2).mem.wf = true := by
  induction a1 generalizing c n st want a2 with
  | zero => grind -ring -linarith [failAll]
  | succ k ih =>
    unfold failAll
    grind -ring -linarith [failMessage_wf]

@[simp] theorem failReads_wf (s : State) (c : ℕ) (n : ℕ) (st : ℕ) (hwf : s.mem.wf = true) : (failReads s c n st).mem.wf = true := by
  unfold failReads
  grind -ring -linarith [endPart_wf, foldl_wf]

@[simp] theorem endConn_wf (s : State) (c : ℕ) (n : ℕ) (st : ℕ) (want : ℕ → Bool) (hwf : s.mem.wf = true) : (endConn s c n st want).mem.wf = true := by
  simp [endConn, hwf]

@[simp] theorem connFail_wf (s : State) (c : ℕ) (n : ℕ) (hwf : s.mem.wf = true) : (connFail s c n).mem.wf = true := by
  simp [connFail, hwf]

@[simp] theorem ownArrives_wf (s : State) (o : OwnMsg) (hwf : s.mem.wf = true) : (ownArrives s o).mem.wf = true := by
  unfold ownArrives
  grind -ring -linarith [endPart_wf, incMs_mem, arriveWhole_snd_wf, arriveWhole_pair_wf]

@[simp] theorem flushConn_snd_wf (s : State) (c : ℕ) (n : ℕ) (hwf : s.mem.wf = true) : (flushConn s c n).2.mem.wf = true := by
  simp [flushConn, hwf]

theorem flushConn_pair_wf (s : State) (c : ℕ) (n : ℕ) (hwf : s.mem.wf = true) {ra : (ℕ × ℕ × ℕ)} {u : State} (hr : flushConn s c n = (ra, u)) : u.mem.wf = true := by
  unfold flushConn at hr
  grind -ring -linarith [sendMessage_snd_wf, sendMessage_pair_wf]

@[simp] theorem flushAll_snd_wf (s : State) (c : ℕ) (a1 : List ℕ) (hwf : s.mem.wf = true) : (flushAll s c a1).2.mem.wf = true := by
  induction a1 generalizing s c with
  | nil => grind -ring -linarith [flushAll]
  | cons y ys ih =>
    unfold flushAll
    grind -ring -linarith [flushConn_snd_wf, flushConn_pair_wf]

theorem flushAll_pair_wf (s : State) (c : ℕ) (a1 : List ℕ) (hwf : s.mem.wf = true) {ra : List (ℕ × ℕ × ℕ)} {u : State} (hr : flushAll s c a1 = (ra, u)) : u.mem.wf = true := by
  induction a1 generalizing s c ra u with
  | nil => grind -ring -linarith [flushAll]
  | cons y ys ih =>
    unfold flushAll at hr
    grind -ring -linarith [flushConn_snd_wf, flushConn_pair_wf]

@[simp] theorem queueFlag_wf (s : State) (c : ℕ) (i : ℕ) (st : ℕ) (hwf : s.mem.wf = true) : (queueFlag s c i st).mem.wf = true := by
  unfold queueFlag
  grind -ring -linarith [flushAll_snd_wf, flushAll_pair_wf]

@[simp] theorem writeFlag_wf (s : State) (f : FlagWrite) (hwf : s.mem.wf = true) : (writeFlag s f).mem.wf = true := by
  unfold writeFlag
  grind -ring -linarith [State_memFault_mem, homeWord_wf, globalWrite_ok_wf, globalWrite_err_wf]

@[simp] theorem settleFlags_wf (s : State) (hwf : s.mem.wf = true) : (settleFlags s).mem.wf = true := by
  unfold settleFlags
  grind -ring -linarith [writeFlag_wf, foldl_wf]

@[simp] theorem messageAcked_wf (s : State) (t : Tx) (hwf : s.mem.wf = true) : (messageAcked s t).mem.wf = true := by
  unfold messageAcked
  grind -ring -linarith [endPart_wf, incMs_mem]

@[simp] theorem execAckReceived_wf (conn : ℕ) (mode : ℕ) (psn : ℕ) (marked : Bool) (s : State) (hwf : s.mem.wf = true) : NextWf (execAckReceived conn mode psn marked s) := by
  unfold execAckReceived
  grind -ring -linarith [messageAcked_wf, State_put64_wf, pumpAll_wf, halve_wf, putConn_mem, settleFlags_wf, nextWf_next]

@[simp] theorem execNegativeAcknowledgement_wf (conn : ℕ) (mode : ℕ) (psn : ℕ) (s : State) (hwf : s.mem.wf = true) : NextWf (execNegativeAcknowledgement conn mode psn s) := by
  unfold execNegativeAcknowledgement
  grind -ring -linarith [failWith_wf, pumpAll_wf, settleFlags_wf, nextWf_next]

@[simp] theorem execRetransmitTimeout_wf (conn : ℕ) (mode : ℕ) (psn : ℕ) (s : State) (hwf : s.mem.wf = true) : NextWf (execRetransmitTimeout conn mode psn s) := by
  unfold execRetransmitTimeout
  grind -ring -linarith [connFail_wf, halve_wf, settleFlags_wf, nextWf_next]

@[simp] theorem deliverSend_snd_wf (s : State) (c : ℕ) (n : ℕ) (p : Packet) (hwf : s.mem.wf = true) : (deliverSend s c n p).2.mem.wf = true := by
  unfold deliverSend
  grind -ring -linarith [startMessage_enter_snd_wf, startMessage_snd_wf, startMessage_pair_wf, placeBytes_snd_wf, placeBytes_pair_wf]

theorem deliverSend_pair_wf (s : State) (c : ℕ) (n : ℕ) (p : Packet) (hwf : s.mem.wf = true) {ra : Fate} {u : State} (hr : deliverSend s c n p = (ra, u)) : u.mem.wf = true := by
  unfold deliverSend at hr
  grind -ring -linarith [startMessage_enter_snd_wf, startMessage_snd_wf, startMessage_pair_wf, placeBytes_snd_wf, placeBytes_pair_wf]

@[simp] theorem deliverWrite_snd_wf (s : State) (c : ℕ) (n : ℕ) (p : Packet) (hwf : s.mem.wf = true) : (deliverWrite s c n p).2.mem.wf = true := by
  unfold deliverWrite
  grind -ring -linarith [keepRefused_mem, takeKey_snd_wf, takeKey_pair_wf, placeBytes_snd_wf, placeBytes_pair_wf, syncInflight_wf]

theorem deliverWrite_pair_wf (s : State) (c : ℕ) (n : ℕ) (p : Packet) (hwf : s.mem.wf = true) {ra : Fate} {u : State} (hr : deliverWrite s c n p = (ra, u)) : u.mem.wf = true := by
  unfold deliverWrite at hr
  grind -ring -linarith [keepRefused_mem, takeKey_snd_wf, takeKey_pair_wf, placeBytes_snd_wf, placeBytes_pair_wf, syncInflight_wf]

@[simp] theorem deliverRead_snd_wf (s : State) (c : ℕ) (n : ℕ) (p : Packet) (hwf : s.mem.wf = true) : (deliverRead s c n p).2.mem.wf = true := by
  unfold deliverRead
  grind -ring -linarith [takeKey_snd_wf, takeKey_pair_wf, serveRead_snd_wf, serveRead_pair_wf, sendMessage_snd_wf, sendMessage_pair_wf]

theorem deliverRead_pair_wf (s : State) (c : ℕ) (n : ℕ) (p : Packet) (hwf : s.mem.wf = true) {ra : Fate} {u : State} (hr : deliverRead s c n p = (ra, u)) : u.mem.wf = true := by
  unfold deliverRead at hr
  grind -ring -linarith [takeKey_snd_wf, takeKey_pair_wf, serveRead_snd_wf, serveRead_pair_wf, sendMessage_snd_wf, sendMessage_pair_wf]

@[simp] theorem deliverReply_snd_wf (s : State) (c : ℕ) (n : ℕ) (p : Packet) (hwf : s.mem.wf = true) : (deliverReply s c n p).2.mem.wf = true := by
  unfold deliverReply
  grind -ring -linarith [spWrite_wf, endPart_wf, incMs_mem]

theorem deliverReply_pair_wf (s : State) (c : ℕ) (n : ℕ) (p : Packet) (hwf : s.mem.wf = true) {ra : Fate} {u : State} (hr : deliverReply s c n p = (ra, u)) : u.mem.wf = true := by
  unfold deliverReply at hr
  grind -ring -linarith [spWrite_wf, endPart_wf, incMs_mem]

@[simp] theorem deliver_snd_wf (s : State) (c : ℕ) (n : ℕ) (p : Packet) (hwf : s.mem.wf = true) : (deliver s c n p).2.mem.wf = true := by
  unfold deliver
  grind -ring -linarith [deliverConv_mem, deliverReply_snd_wf, deliverReply_pair_wf, deliverRead_snd_wf, deliverRead_pair_wf, deliverFlush_mem, deliverWrite_snd_wf, deliverWrite_pair_wf, deliverSend_snd_wf, deliverSend_pair_wf]

theorem deliver_pair_wf (s : State) (c : ℕ) (n : ℕ) (p : Packet) (hwf : s.mem.wf = true) {ra : Fate} {u : State} (hr : deliver s c n p = (ra, u)) : u.mem.wf = true := by
  unfold deliver at hr
  grind -ring -linarith [deliverConv_mem, deliverReply_snd_wf, deliverReply_pair_wf, deliverRead_snd_wf, deliverRead_pair_wf, deliverFlush_mem, deliverWrite_snd_wf, deliverWrite_pair_wf, deliverSend_snd_wf, deliverSend_pair_wf]

@[simp] theorem deliverHeld_snd_wf (s : State) (c : ℕ) (n : ℕ) (p : Packet) (hwf : s.mem.wf = true) : (deliverHeld s c n p).2.mem.wf = true := by
  unfold deliverHeld
  grind -ring -linarith [deliver_snd_wf, deliver_pair_wf]

theorem deliverHeld_pair_wf (s : State) (c : ℕ) (n : ℕ) (p : Packet) (hwf : s.mem.wf = true) {ra : Fate} {u : State} (hr : deliverHeld s c n p = (ra, u)) : u.mem.wf = true := by
  unfold deliverHeld at hr
  grind -ring -linarith [deliver_snd_wf, deliver_pair_wf]

@[simp] theorem releaseHeld_wf (c : ℕ) (n : ℕ) (a1 : ℕ) (a2 : State) (hwf : a2.mem.wf = true) : (releaseHeld c n a1 a2).mem.wf = true := by
  induction a1 generalizing c n a2 with
  | zero => grind -ring -linarith [releaseHeld]
  | succ k ih =>
    unfold releaseHeld
    grind -ring -linarith [takeNext_mem, reply_mem, deliverHeld_snd_wf, deliverHeld_pair_wf]

@[simp] theorem settleConn_wf (s : State) (c : ℕ) (n : ℕ) (hwf : s.mem.wf = true) : (settleConn s c n).mem.wf = true := by
  simp [settleConn, hwf]

@[simp] theorem acceptPacket_wf (s : State) (c : ℕ) (n : ℕ) (p : Packet) (hwf : s.mem.wf = true) : (acceptPacket s c n p).mem.wf = true := by
  unfold acceptPacket
  grind -ring -linarith [settleConn_wf, takeNext_mem, deliver_snd_wf, deliver_pair_wf, putConn_mem, reply_mem]

@[simp] theorem passPacket_wf (s : State) (c : ℕ) (n : ℕ) (p : Packet) (hwf : s.mem.wf = true) : (passPacket s c n p).mem.wf = true := by
  unfold passPacket
  grind -ring -linarith [settleConn_wf, putConn_mem]

@[simp] theorem netArrive_wf (p : Packet) (s : State) (hwf : s.mem.wf = true) : (netArrive p s).mem.wf = true := by
  unfold netArrive
  grind -ring -linarith [acceptPacket_wf, refusePacket_mem, passPacket_wf, reply_mem]

@[simp] theorem releaseOwn_wf (a1 : ℕ) (a2 : State) (hwf : a2.mem.wf = true) : (releaseOwn a1 a2).mem.wf = true := by
  induction a1 generalizing a2 with
  | zero => grind -ring -linarith [releaseOwn]
  | succ k ih =>
    unfold releaseOwn
    grind -ring -linarith [ownArrives_wf]

@[simp] theorem resumeRx_wf (s : State) (hwf : s.mem.wf = true) : (resumeRx s).mem.wf = true := by
  unfold resumeRx
  grind -ring -linarith [settleConn_wf, releaseOwn_wf, foldl_wf]

@[simp] theorem execPacketArrival_wf (p : Option Packet) (s : State) (hwf : s.mem.wf = true) : NextWf (execPacketArrival p s) := by
  unfold execPacketArrival
  grind -ring -linarith [netArrive_wf, resumeRx_wf, nextWf_next]

@[simp] theorem execRmaWriteArrival_wf (p : Packet) (s : State) (hwf : s.mem.wf = true) : NextWf (execRmaWriteArrival p s) := by
  simp [execRmaWriteArrival, hwf]

@[simp] theorem execRmaReadArrival_wf (p : Packet) (s : State) (hwf : s.mem.wf = true) : NextWf (execRmaReadArrival p s) := by
  simp [execRmaReadArrival, hwf]

@[simp] theorem execFlushArrival_wf (p : Packet) (s : State) (hwf : s.mem.wf = true) : NextWf (execFlushArrival p s) := by
  simp [execFlushArrival, hwf]

@[simp] theorem writeRunSp_wf (q : ℕ) (k : ℕ) (a1 : List (ℕ × Bool)) (a2 : ℕ) (a3 : State) (hwf : a3.mem.wf = true) : (writeRunSp q k a1 a2 a3).mem.wf = true := by
  induction a1 generalizing q k a2 a3 with
  | nil => grind -ring -linarith [writeRunSp]
  | cons y ys ih =>
    unfold writeRunSp
    grind -ring -linarith [spWrite_wf, poisonSp_mem]

theorem writeGlobal_ok_wf (x : CopyRun) (idx : ℕ) (k : ℕ) (a1 : List (ℕ × Bool)) (a2 : ℕ) (a3 : State) (hwf : a3.mem.wf = true) {u : State} (hr : writeGlobal x idx k a1 a2 a3 = .ok u) : u.mem.wf = true := by
  induction a1 generalizing x idx k a2 a3 u with
  | nil => grind -ring -linarith [writeGlobal]
  | cons y ys ih =>
    unfold writeGlobal at hr
    grind -ring -linarith [poisonLine_mem, homeWrite_ok_wf, homeWrite_err_wf]

theorem writeRun_ok_wf (x : CopyRun) (idx : ℕ) (at' : Place) (ps : List (ℕ × Bool)) (s : State) (hwf : s.mem.wf = true) {u : State} (hr : writeRun x idx at' ps s = .ok u) : u.mem.wf = true := by
  unfold writeRun at hr
  grind -ring -linarith [writeGlobal_ok_wf, writeRunSp_wf]

@[simp] theorem failFlight_wf (s : State) (x : CopyRun) (st : ℕ) (hwf : s.mem.wf = true) : (failFlight s x st).mem.wf = true := by
  simp [failFlight, hwf]

theorem moveIssue_ok_wf {x : CopyRun} {idx : Nat} {i : Nat × Nat × Nat × Nat} {s u : State} (hwf : s.mem.wf = true)
    (hr : moveIssue x idx i s = .ok u) : u.mem.wf = true := by
  unfold moveIssue at hr
  split at hr
  · cases hr
  rename_i hread
  exact writeRun_ok_wf _ _ _ _ _ (readRun_wf hread hwf) hr

theorem fillIssue_ok_wf (x : CopyRun) (idx : ℕ) (i : ℕ × ℕ × ℕ × ℕ) (s : State) (hwf : s.mem.wf = true) {u : State} (hr : fillIssue x idx i s = .ok u) : u.mem.wf = true := by
  unfold fillIssue at hr
  grind -ring -linarith [writeRun_ok_wf]

theorem reduceGlobal_ok_wf (x : CopyRun) (idx : ℕ) (k : ℕ) (tag : ℕ) (op : ℕ) (a1 : List (ℕ × Bool)) (a2 : ℕ) (a3 : State) (hwf : a3.mem.wf = true) {u : State} (hr : reduceGlobal x idx k tag op a1 a2 a3 = .ok u) : u.mem.wf = true := by
  induction a1 generalizing x idx k tag op a2 a3 u with
  | nil => grind -ring -linarith [reduceGlobal]
  | cons y ys ih =>
    unfold reduceGlobal at hr
    grind -ring -linarith [slotArrive_wf, combineHeld_wf, addPart_mem]

theorem putredIssue_ok_wf {x : CopyRun} {idx : Nat} {i : Nat × Nat × Nat × Nat} {s u : State} (hwf : s.mem.wf = true)
    (hr : putredIssue x idx i s = .ok u) : u.mem.wf = true := by
  unfold putredIssue at hr
  split at hr
  · cases hr
  rename_i hread
  have ht := readRun_wf hread hwf
  dsimp only at hr
  split at hr
  · split at hr
    · cases hr
    · cases hr
      exact combineSp_wf _ _ _ _ _ _ _ (by rwa [spFix_mem])
  · split at hr
    · cases hr
    · exact reduceGlobal_ok_wf _ _ _ _ _ _ _ _ ht hr

theorem mcastIssue_ok_wf (x : CopyRun) (js : List ℕ) (idx : ℕ) (i : ℕ × ℕ × ℕ × ℕ) (s : State) (hwf : s.mem.wf = true) {u : State} (hr : mcastIssue x js idx i s = .ok u) : u.mem.wf = true := by
  unfold mcastIssue at hr
  grind -ring -linarith [readRun_wf, writeRunSp_wf, foldl_wf]

theorem aputIssue_ok_wf {x : CopyRun} {idx : Nat} {i : Nat × Nat × Nat × Nat} {s u : State} (hwf : s.mem.wf = true)
    (hr : aputIssue x idx i s = .ok u) : u.mem.wf = true := by
  unfold aputIssue at hr
  split at hr
  · cases hr
  rename_i hread
  have ht := readRun_wf hread hwf
  dsimp only at hr
  split at hr
  · cases hr
    exact ht
  split at hr
  · rename_i hc
    cases hr
    exact contribute_some_wf _ _ _ _ _ ht hc
  · cases hr

theorem netIssue_ok_wf (x : CopyRun) (op : ℕ) (n : NetDesc) (idx : ℕ) (i : ℕ × ℕ × ℕ × ℕ) (s : State) (hwf : s.mem.wf = true) {u : State} (hr : netIssue x op n idx i s = .ok u) : u.mem.wf = true := by
  unfold netIssue at hr
  grind -ring -linarith [readRun_wf, addPart_mem, sendMessage_snd_wf, sendMessage_pair_wf, sendOwn_mem]

@[simp] theorem sendFlush_wf (x : CopyRun) (n : NetDesc) (s : State) (hwf : s.mem.wf = true) : (sendFlush x n s).mem.wf = true := by
  simp [sendFlush, hwf]

@[simp] theorem spWriteMasked_wf (s : State) (p : ℕ) (a : ℕ) (n : ℕ) (v : ℕ) (mask : ℕ) (hwf : s.mem.wf = true) : (spWriteMasked s p a n v mask).mem.wf = true := by
  unfold spWriteMasked
  grind -ring -linarith [spWrite_wf, wrMasked_wf, filter_wf]

@[simp] theorem applyWr_wf (p : ℕ) (s : State) (w : Wr) (hwf : s.mem.wf = true) : (applyWr p s w).mem.wf = true := by
  unfold applyWr
  grind -ring -linarith [State_upCo_mem, spWriteMasked_wf]

@[simp] theorem vecApply_snd_wf (k : VCtx) (o : VOut) (sig : Word) (s : State) (hwf : s.mem.wf = true) : (vecApply k o sig s).2.mem.wf = true := by
  unfold vecApply
  grind -ring -linarith [applyWr_wf, addFlags_mem, foldl_wf]

theorem vecApply_pair_wf (k : VCtx) (o : VOut) (sig : Word) (s : State) (hwf : s.mem.wf = true) {ra : Word} {u : State} (hr : vecApply k o sig s = (ra, u)) : u.mem.wf = true := by
  unfold vecApply at hr
  grind -ring -linarith [applyWr_wf, addFlags_mem, foldl_wf]

theorem runVec_ok_wf (k : VCtx) (a1 : List (ℕ × ℕ × ℕ × ℕ × ℕ)) (a2 : Part) (a3 : State) (hwf : a3.mem.wf = true) {ra : Part} {u : State} (hr : runVec k a1 a2 a3 = .ok (ra, u)) : u.mem.wf = true := by
  induction a1 generalizing k a2 a3 ra u with
  | nil => grind -ring -linarith [runVec]
  | cons y ys ih =>
    unfold runVec at hr
    grind -ring -linarith [vecFix_mem, vecApply_snd_wf, vecApply_pair_wf]

theorem runVec_err_wf (k : VCtx) (a1 : List (ℕ × ℕ × ℕ × ℕ × ℕ)) (a2 : Part) (a3 : State) (hwf : a3.mem.wf = true) {ra : EngErr} {u : State} (hr : runVec k a1 a2 a3 = .error (ra, u)) : u.mem.wf = true := by
  induction a1 generalizing k a2 a3 ra u with
  | nil => grind -ring -linarith [runVec]
  | cons y ys ih =>
    unfold runVec at hr
    grind -ring -linarith [vecFix_mem, vecApply_snd_wf, vecApply_pair_wf]

@[simp] theorem acceptRecord_wf (s : State) (p : ℕ) (q : BitVec 2) (w : BitVec 512) (fence : Bool) (hwf : s.mem.wf = true) : (acceptRecord s p q w fence).mem.wf = true := by
  simp [acceptRecord, hwf]

@[simp] theorem execLeaseGrant_wf (s : State) (hwf : s.mem.wf = true) : NextWf (execLeaseGrant s) := by
  unfold execLeaseGrant
  grind -ring -linarith [State_putQd_mem, nextWf_next]

@[simp] theorem finishRoll_wf (s : State) (p : ℕ) (hwf : s.mem.wf = true) : (finishRoll s p).mem.wf = true := by
  unfold finishRoll
  grind -ring -linarith [State_upCo_mem, acceptRecord_wf, State_putSc_mem, State_putCo_mem, foldl_wf]

@[simp] theorem completeHead_wf (s : State) (p : ℕ) (q : BitVec 2) (hwf : s.mem.wf = true) : (completeHead s p q).mem.wf = true := by
  unfold completeHead
  grind -ring -linarith [finishRoll_wf, State_putCo_mem, chainTest_mem, raiseBy_mem]

@[simp] theorem execRecordComplete_wf (q : BitVec 2) (s : State) (hwf : s.mem.wf = true) : NextWf (execRecordComplete q s) := by
  unfold execRecordComplete
  grind -ring -linarith [completeHead_wf, patternDone_mem, nextWf_next]

@[simp] theorem rollBack_wf (s : State) (p : ℕ) (k : Checkpoint) (hwf : s.mem.wf = true) : (rollBack s p k).mem.wf = true := by
  simp [rollBack, hwf]

theorem consume_wf {s : State} {p : Nat} {inPhase : Bool} {detail : Nat} {fault : State → Nat → State} (h : s.mem.wf = true)
    (hfault : ∀ d, (fault s d).mem.wf = true) : (consume s p inPhase detail fault).mem.wf = true := by
  unfold consume
  grind -ring -linarith [rollBack_wf]

@[simp] theorem suspendFor_wf (s : State) (p : ℕ) (cls : ℕ) (hwf : s.mem.wf = true) : (suspendFor s p cls).mem.wf = true := by
  unfold suspendFor
  grind -ring -linarith [State_suspendTeam_wf]

@[simp] theorem katMismatch_wf (s : State) (p : ℕ) (q : BitVec 2) (f : Flight) (cls : ℕ) (hwf : s.mem.wf = true) : (katMismatch s p q f cls).mem.wf = true := by
  unfold katMismatch
  grind -ring -linarith [State_upCo_mem, discardPhase_mem, suspendFor_wf, endGrantOf_mem, passOver_mem, State_engineFault_mem, rollBack_wf]

/-- What a record's body leaves is in canonical form. -/
def EffWf : Eff → Prop
  | .done _ t => t.mem.wf = true
  | .err _ t => t.mem.wf = true

@[simp] theorem effWf_done (l : Left) (t : State) : EffWf (.done l t) ↔ t.mem.wf = true := Iff.rfl

@[simp] theorem effWf_err (e : EngErr) (t : State) : EffWf (.err e t) ↔ t.mem.wf = true := Iff.rfl

theorem effWf_runFrom {f : Nat → Nat × Nat × Nat × Nat → State → Except EngErr State} {js : List Nat} {r : Rec} {pos : Nat} {s : State}
    (hwf : s.mem.wf = true) (hf : ∀ j i s t, f j i s = .ok t → s.mem.wf = true → t.mem.wf = true) : EffWf (runFrom f js r pos s) := by
  unfold runFrom
  dsimp only
  obtain ⟨hok, herr⟩ := runIssues_mem (P := fun m => m.wf = true) hf (es := inTurn s ((issuesBy js r).drop pos)) hwf
  split
  · rename_i e
    exact herr _ e
  · rename_i e
    exact herr _ e
  · rename_i t e
    split
    · exact hok t e
    · exact hok t e

theorem effWf_thenRaise {x : CopyRun} {qs : State → List Nat} {e : Eff} (h : EffWf e) : EffWf (thenRaise x qs e) := by
  unfold thenRaise
  split
  · rwa [effWf_done, raiseDests_mem]
  · exact h

theorem effWf_partOver {p : Nat} {q : BitVec 2} {f : Flight} {r : Rec} {n total : Nat} {left : Bool} {tags : List (Nat × BitVec 8)} {x : Part}
    {s : State} (hwf : s.mem.wf = true) : EffWf (partOver p q f r n total left tags x s) := by
  unfold partOver
  split
  · exact hwf
  split
  · exact hwf
  · exact hwf

theorem effWf_moveEffect (x : CopyRun) (pos : Nat) {s : State} (hwf : s.mem.wf = true) : EffWf (moveEffect x pos s) := by
  unfold moveEffect
  split
  · exact hwf
  · exact effWf_thenRaise (effWf_runFrom hwf fun _ _ _ _ hr h => moveIssue_ok_wf h hr)

theorem effWf_fillEffect (x : CopyRun) (pos : Nat) {s : State} (hwf : s.mem.wf = true) : EffWf (fillEffect x pos s) := by
  unfold fillEffect
  split
  · exact hwf
  · exact effWf_runFrom hwf fun _ _ _ _ hr h => fillIssue_ok_wf _ _ _ _ h hr

theorem effWf_putredEffect (x : CopyRun) (pos : Nat) {s : State} (hwf : s.mem.wf = true) : EffWf (putredEffect x pos s) := by
  unfold putredEffect
  split
  · exact hwf
  · exact effWf_thenRaise (effWf_runFrom hwf fun _ _ _ _ hr h => putredIssue_ok_wf h hr)

theorem effWf_mcastEffect (x : CopyRun) (pos : Nat) {s : State} (hwf : s.mem.wf = true) : EffWf (mcastEffect x pos s) := by
  unfold mcastEffect
  split
  · exact hwf
  rename_i hblock
  have ht := blockOf_wf hblock hwf
  split
  · exact ht
  dsimp only
  split
  · exact ht
  · exact effWf_thenRaise (effWf_runFrom ht fun _ _ _ _ hr h => mcastIssue_ok_wf _ _ _ _ _ h hr)

theorem effWf_aputEffect (x : CopyRun) (pos : Nat) {s : State} (hwf : s.mem.wf = true) : EffWf (aputEffect x pos s) := by
  unfold aputEffect
  split
  · exact hwf
  · exact effWf_runFrom (by split <;> simp [hwf]) fun _ _ _ _ hr h => aputIssue_ok_wf h hr

theorem effWf_sempostEffect (x : CopyRun) (pos : Nat) {s : State} (hwf : s.mem.wf = true) : EffWf (sempostEffect x pos s) := by
  refine effWf_runFrom hwf fun _ _ s t hr h => ?_
  cases hr
  rwa [raiseBy_mem]

theorem effWf_netEffect (x : CopyRun) (op pos : Nat) {s : State} (hwf : s.mem.wf = true) : EffWf (netEffect x op pos s) := by
  unfold netEffect
  split
  · exact hwf
  rename_i hblock
  have ht := blockOf_wf hblock hwf
  split
  · exact ht
  extract_lets st
  split
  · exact ht
  split
  · exact (effWf_done _ _).mpr (sendFlush_wf _ _ _ ht)
  · exact effWf_runFrom ht fun _ _ _ _ hr h => netIssue_ok_wf _ _ _ _ _ _ h hr

theorem effWf_copyEffect (x : CopyRun) (op pos : Nat) {s : State} (hwf : s.mem.wf = true) : EffWf (copyEffect x op pos s) := by
  unfold copyEffect
  split
  · exact effWf_fillEffect _ _ hwf
  split
  · exact effWf_putredEffect _ _ hwf
  split
  · exact effWf_mcastEffect _ _ hwf
  split
  · exact effWf_aputEffect _ _ hwf
  split
  · exact effWf_sempostEffect _ _ hwf
  split
  · exact effWf_netEffect _ _ _ hwf
  · exact effWf_moveEffect _ _ hwf

theorem effWf_vecEffect (p op : Nat) (f : Flight) (ph : Bool) (r : Rec) {s : State} (hwf : s.mem.wf = true) : EffWf (vecEffect p op f ph r s) := by
  unfold vecEffect
  dsimp only
  split
  · exact hwf
  split
  · rename_i e
    exact runVec_err_wf _ _ _ _ hwf e
  · rename_i e
    exact effWf_partOver (runVec_ok_wf _ _ _ _ hwf e)

theorem effWf_mcfgEffect (p : Nat) (ph : Bool) (r : Rec) {s : State} (hwf : s.mem.wf = true) : EffWf (mcfgEffect p ph r s) := by
  unfold mcfgEffect
  dsimp only
  split
  · exact hwf
  split
  · simpa using hwf
  · exact hwf

theorem effWf_mzeroEffect (p : Nat) (r : Rec) {s : State} (hwf : s.mem.wf = true) : EffWf (mzeroEffect p r s) := by
  unfold mzeroEffect
  dsimp only
  split
  · exact hwf
  split
  · exact hwf
  · exact hwf

theorem effWf_mdotBody (m : MCtx) (f : Flight) (x : Part) {s : State} (hwf : s.mem.wf = true) : EffWf (mdotBody m f x s) := by
  unfold mdotBody
  dsimp only
  obtain ⟨hok, herr⟩ := runBlocks_mem m (inTurn s (mdotLeft m f.idx x)) x s
  split
  · rename_i e h
    rw [effWf_err, herr e h, hwf]
  · rename_i h
    exact effWf_partOver ((congrArg Memory.wf (hok _ h)).trans hwf)

theorem effWf_mdotResume (m : MCtx) (f : Flight) {s : State} (hwf : s.mem.wf = true) : EffWf (mdotResume m f s) := by
  unfold mdotResume
  split
  · exact effWf_mdotBody _ _ _ hwf
  split
  · exact hwf
  · exact effWf_mdotBody _ _ _ hwf
  · rename_i h
    exact effWf_mdotBody _ _ _ (mdotRows_wf h hwf)

theorem effWf_mdotEffect (p op : Nat) (f : Flight) (ph : Bool) (r : Rec) {s : State} (hwf : s.mem.wf = true) : EffWf (mdotEffect p op f ph r s) := by
  unfold mdotEffect
  split
  · exact effWf_mdotResume _ _ hwf
  split
  · exact hwf
  rename_i h
  have ht := mdotRows_wf h hwf
  dsimp only
  split
  · exact ht
  split
  · exact ht
  · exact effWf_mdotBody _ _ _ (by rwa [State_upFlight_mem])

theorem effWf_matEffect (p op : Nat) (f : Flight) (ph : Bool) (r : Rec) {s : State} (hwf : s.mem.wf = true) : EffWf (matEffect p op f ph r s) := by
  unfold matEffect
  split
  · exact effWf_mcfgEffect _ _ _ hwf
  split
  · exact effWf_mzeroEffect _ _ hwf
  · exact effWf_mdotEffect _ _ _ _ _ hwf

theorem effWf_bodyOf (p : Nat) (f : Flight) (cls op : Nat) (r : Rec) (ph : Bool) {s : State} (hwf : s.mem.wf = true) :
    EffWf (bodyOf s p f cls op r ph) := by
  unfold bodyOf
  split
  · exact effWf_vecEffect _ _ _ _ _ hwf
  split
  · exact effWf_matEffect _ _ _ _ _ hwf
  · exact effWf_copyEffect _ _ _ hwf

@[simp] theorem runRecord_wf (s : State) (p : Nat) (q : BitVec 2) (f : Flight) (cls op : Nat) (r : Rec) (hwf : s.mem.wf = true) :
    (runRecord s p q f cls op r).mem.wf = true := by
  unfold runRecord
  dsimp only
  split
  · exact hwf
  have hbody := effWf_bodyOf p f cls op r (r.phase && ((s.co p).queue q).ph.contains f.slot) hwf
  split
  · rename_i h
    rw [h] at hbody
    simpa using hbody
  rename_i e t h
  rw [h] at hbody
  have ht : t.mem.wf = true := hbody
  cases e with
  | wait n => simpa using ht
  | fault cause detail val n => simpa using ht
  | consumed detail val n => exact consume_wf (by simpa using ht) fun d => by simpa using ht
  | kat => exact katMismatch_wf _ _ _ _ _ ht

@[simp] theorem fenceOff_wf (s : State) (p : ℕ) (q : BitVec 2) (slot : BitVec 32) (cls : ℕ) (hwf : s.mem.wf = true) : (fenceOff s p q slot cls).mem.wf = true := by
  simp [fenceOff, hwf]

@[simp] theorem beginRecord_wf (s : State) (p : Nat) (q : BitVec 2) (slot : BitVec 32) (cls op : Nat) (r : Rec) (hwf : s.mem.wf = true) :
    (beginRecord s p q slot cls op r).mem.wf = true :=
  runRecord_wf _ _ _ _ _ _ _ (by rwa [pushFlight_mem])

@[simp] theorem startRecord_wf (cls op : Nat) (r : Rec) (s : State) (hwf : s.mem.wf = true) : (startRecord cls op r s).mem.wf = true := by
  unfold startRecord
  extract_lets p q x v
  split
  · split
    · exact hwf
    · exact runRecord_wf _ _ _ _ _ _ _ hwf
  · exact hwf
  extract_lets rule again
  repeat' split
  all_goals simp [hwf, beginRecord_wf]

@[simp] theorem execRecordInvalid_wf (w : BitVec 512) (s : State) (hwf : s.mem.wf = true) : NextWf (execRecordInvalid w s) := by
  unfold execRecordInvalid
  grind -ring -linarith [endGrantOf_mem, State_engineFault_mem, nextWf_next]

@[simp] theorem retireFence_wf (s : State) (p : ℕ) (q : BitVec 2) (err : Bool) (hwf : s.mem.wf = true) : (retireFence s p q err).mem.wf = true := by
  simp [retireFence, hwf]

@[simp] theorem startJoin_wf (r : Rec) (s : State) (hwf : s.mem.wf = true) : (startJoin r s).mem.wf = true := by
  unfold startJoin
  extract_lets p q x v num
  split
  · exact hwf
  extract_lets fence rule group
  repeat' with_reducible refine ite_wf ?_ ?_
  all_goals try with_reducible exact hwf
  · simpa using hwf
  · exact fenceOff_wf _ _ _ _ _ hwf
  · exact retireFence_wf _ _ _ _ hwf
  · exact foldl_wf (fun s j h => retireFence_wf _ _ _ _ h) hwf

@[simp] theorem execJoin_wf (r : Rec) (s : State) (hwf : s.mem.wf = true) : NextWf (execJoin r s) := by
  simp [execJoin, hwf]

@[simp] theorem zeroCore_wf (s : State) (p : ℕ) (hwf : s.mem.wf = true) : (zeroCore s p).mem.wf = true := by
  simp [zeroCore, hwf]

@[simp] theorem execDrain_wf (s : State) (hwf : s.mem.wf = true) : NextWf (execDrain s) := by
  simp [execDrain, hwf]

@[simp] theorem execScan_wf (s : State) (hwf : s.mem.wf = true) : NextWf (execScan s) := by
  simp [execScan, hwf]

@[simp] theorem execRelease_wf (s : State) (hwf : s.mem.wf = true) : NextWf (execRelease s) := by
  simp [execRelease, hwf]

@[simp] theorem execRetire_wf (s : State) (hwf : s.mem.wf = true) : NextWf (execRetire s) := by
  simp [execRetire, hwf]

@[simp] theorem execDrainToHeld_wf (s : State) (hwf : s.mem.wf = true) : NextWf (execDrainToHeld s) := by
  unfold execDrainToHeld
  grind -ring -linarith [State_upCo_mem, zeroCore_wf, nextWf_next]

@[simp] theorem execCoreZeroingDone_wf (s : State) (hwf : s.mem.wf = true) : NextWf (execCoreZeroingDone s) := by
  unfold execCoreZeroingDone
  grind -ring -linarith [State_upCo_mem, noteUp_mem, zeroCore_wf, nextWf_next]

@[simp] theorem execScanComplete_wf (fail : BitVec 48) (diff : Word) (s : State) (hwf : s.mem.wf = true) : NextWf (execScanComplete fail diff s) := by
  unfold execScanComplete
  grind -ring -linarith [State_upCo_mem, endGrant_mem, nextWf_next]

theorem checked_wf {i : Instr} {bad : Bool} {s : State} {f : State → State} (h : s.mem.wf = true) (hf : (f s).mem.wf = true) :
    (checked i bad s f).mem.wf = true := by
  unfold checked
  split
  · exact State_illegal_wf _ _ _ h
  · rwa [State_retire_mem]

@[simp] theorem writeDieReg_wf (i : Instr) (d c : Nat) (v : Word) (s : State) (hwf : s.mem.wf = true) : (writeDieReg i d c v s).mem.wf = true := by
  unfold writeDieReg
  extract_lets p
  repeat' with_reducible refine ite_wf ?_ ?_
  all_goals try with_reducible refine checked_wf hwf ?_
  all_goals try with_reducible refine ite_wf ?_ ?_
  all_goals simp [hwf]

@[simp] theorem writeFirmware_wf (i : Instr) (c : ℕ) (v : Word) (s : State) (hwf : s.mem.wf = true) : (writeFirmware i c v s).mem.wf = true := by
  unfold writeFirmware
  grind -ring -linarith [State_retire_mem, onTileFw_wf, writeDieReg_wf]

@[simp] theorem corecapBody_wf (i : Instr) (d : ℕ) (v : Word) (s : State) (hwf : s.mem.wf = true) : (corecapBody i d v s).mem.wf = true := by
  unfold corecapBody
  grind -ring -linarith [State_retire_mem, State_upCo_mem, State_illegal_wf]

@[simp] theorem execCorecapWrite_wf (g : Guard) (a : Src) (s : State) (hwf : s.mem.wf = true) : NextWf (execCorecapWrite g a s) := by
  unfold execCorecapWrite
  grind -ring -linarith [nextWf_issuePriv, onTileFw_wf, corecapBody_wf, nextWf_next]

@[simp] theorem lcmentBody_wf (i : Instr) (d : ℕ) (v : Word) (s : State) (hwf : s.mem.wf = true) : (lcmentBody i d v s).mem.wf = true := by
  unfold lcmentBody
  grind -ring -linarith [State_retire_mem, State_upCo_mem, noteUp_mem, setEntry_mem, State_illegal_wf]

@[simp] theorem execLcmentWrite_wf (g : Guard) (a : Src) (s : State) (hwf : s.mem.wf = true) : NextWf (execLcmentWrite g a s) := by
  unfold execLcmentWrite
  grind -ring -linarith [nextWf_issuePriv, lcmentBody_wf, onTileFw_wf, nextWf_next]

@[simp] theorem leadcasBody_wf (i : Instr) (v : Word) (s : State) (hwf : s.mem.wf = true) : (leadcasBody i v s).mem.wf = true := by
  unfold leadcasBody
  grind -ring -linarith [State_retire_mem, State_illegal_wf]

@[simp] theorem execLeadcasWrite_wf (g : Guard) (a : Src) (s : State) (hwf : s.mem.wf = true) : NextWf (execLeadcasWrite g a s) := by
  unfold execLeadcasWrite
  grind -ring -linarith [nextWf_issuePriv, State_retire_mem, leadcasBody_wf, nextWf_next]

@[simp] theorem execHbeatWrite_wf (g : Guard) (a : Src) (s : State) (hwf : s.mem.wf = true) : NextWf (execHbeatWrite g a s) := by
  unfold execHbeatWrite
  grind -ring -linarith [nextWf_issuePriv, State_retire_mem, State_putDi_mem, nextWf_next]

@[simp] theorem execMfcr_wf (g : Guard) (d : BitVec 6) (c : BitVec 12) (s : State) (hwf : s.mem.wf = true) : NextWf (execMfcr g d c s) := by
  unfold execMfcr
  grind -ring -linarith [nextWf_issue, State_result_mem, nextWf_next]

@[simp] theorem execMtcr_wf (g : Guard) (a : Src) (c : BitVec 12) (s : State) (hwf : s.mem.wf = true) : NextWf (execMtcr g a c s) := by
  unfold execMtcr
  grind -ring -linarith [nextWf_issuePriv, writeCreg_mem, State_retire_mem, State_upSc_mem, nextWf_issue, writeFirmware_wf, nextWf_next]

@[simp] theorem ringWrite_wf (i : Instr) (q : BitVec 2) (count : Bool) (v : Word) (s : State) (hwf : s.mem.wf = true) : (ringWrite i q count v s).mem.wf = true := by
  unfold ringWrite
  grind -ring -linarith [State_retire_mem, State_upCo_mem, State_illegal_wf]

@[simp] theorem execRingRegisterWrite_wf (g : Guard) (a : Src) (q : BitVec 2) (count : Bool) (s : State) (hwf : s.mem.wf = true) : NextWf (execRingRegisterWrite g a q count s) := by
  unfold execRingRegisterWrite
  grind -ring -linarith [nextWf_issue, ringWrite_wf, nextWf_next]

@[simp] theorem mleaseBody_wf (i : Instr) (v : Word) (s : State) (hwf : s.mem.wf = true) : (mleaseBody i v s).mem.wf = true := by
  unfold mleaseBody
  grind -ring -linarith [State_retire_mem, State_putQd_mem, State_illegal_wf]

@[simp] theorem execMleaseWrite_wf (g : Guard) (a : Src) (s : State) (hwf : s.mem.wf = true) : NextWf (execMleaseWrite g a s) := by
  unfold execMleaseWrite
  grind -ring -linarith [nextWf_issuePriv, mleaseBody_wf, nextWf_next]

@[simp] theorem execDoneOp_wf (g : Guard) (s : State) (hwf : s.mem.wf = true) : NextWf (execDoneOp g s) := by
  unfold execDoneOp
  grind -ring -linarith [nextWf_issue, State_wait_mem, nextWf_next]

@[simp] theorem raisePage_wf (u : ℕ) (last : ℕ) (n : ℕ) (s : State) (hwf : s.mem.wf = true) : (raisePage u last n s).mem.wf = true := by
  unfold raisePage
  grind -ring -linarith [State_upSc_mem, pushEvent_mem, State_trap_wf]

@[simp] theorem probeFrom_wf (u : ℕ) (last : ℕ) (n : ℕ) (s : State) (hwf : s.mem.wf = true) : (probeFrom u last n s).mem.wf = true := by
  unfold probeFrom
  grind -ring -linarith [State_retire_mem, State_upSc_mem, raisePage_wf]

@[simp] theorem probeBody_wf (a : Word) (b : Word) (s : State) (hwf : s.mem.wf = true) : (probeBody a b s).mem.wf = true := by
  unfold probeBody
  grind -ring -linarith [State_retire_mem, probeFrom_wf, State_trap_wf]

@[simp] theorem execProbe_wf (g : Guard) (a : Src) (b : Src) (s : State) (hwf : s.mem.wf = true) : NextWf (execProbe g a b s) := by
  unfold execProbe
  grind -ring -linarith [nextWf_issue, probeBody_wf, nextWf_next]

@[simp] theorem execPageRequestAnswer_wf (s : State) (hwf : s.mem.wf = true) : NextWf (execPageRequestAnswer s) := by
  unfold execPageRequestAnswer
  grind -ring -linarith [State_upSc_mem, probeFrom_wf, State_trap_wf, nextWf_next]

@[simp] theorem phintBody_wf (ea : Word) (s : State) (hwf : s.mem.wf = true) : (phintBody ea s).mem.wf = true := by
  unfold phintBody
  grind -ring -linarith [State_retire_mem, State_upSc_mem, State_wait_mem, restartWatchdog_mem, State_trap_wf]

@[simp] theorem execPhint_wf (g : Guard) (a : Src) (imm : BitVec 28) (s : State) (hwf : s.mem.wf = true) : NextWf (execPhint g a imm s) := by
  unfold execPhint
  grind -ring -linarith [nextWf_issueCore, phintBody_wf, nextWf_next]

@[simp] theorem execPhase_wf (g : Guard) (s : State) (hwf : s.mem.wf = true) : NextWf (execPhase g s) := by
  unfold execPhase
  grind -ring -linarith [nextWf_issueCore, phaseBody_mem, State_illegal_wf, nextWf_next]

@[simp] theorem shootBody_wf (a : Word) (b : Word) (s : State) (hwf : s.mem.wf = true) : (shootBody a b s).mem.wf = true := by
  unfold shootBody
  grind -ring -linarith [State_retire_mem, shootDie_mem, State_trap_wf]

@[simp] theorem execShoot_wf (g : Guard) (a : Src) (b : Src) (s : State) (hwf : s.mem.wf = true) : NextWf (execShoot g a b s) := by
  unfold execShoot
  grind -ring -linarith [nextWf_issuePriv, shootBody_wf, nextWf_next]

@[simp] theorem consumeLocal_wf (s : State) (ea : Word) (w : ℕ) (hwf : s.mem.wf = true) : (consumeLocal s ea w).mem.wf = true := by
  unfold consumeLocal
  grind -ring -linarith [State_ctxFault_wf, consume_wf]

@[simp] theorem loadLocal_wf (w : ℕ) (sx : Bool) (d : BitVec 6) (ea : Word) (s : State) (hwf : s.mem.wf = true) : (loadLocal w sx d ea s).mem.wf = true := by
  unfold loadLocal
  grind -ring -linarith [State_result_mem, consumeLocal_wf, localFix_mem, State_trap_wf]

@[simp] theorem storeBytes_wf (s : State) (ea : ℕ) (w : ℕ) (v : ℕ) (hwf : s.mem.wf = true) : (storeBytes s ea w v).mem.wf = true := by
  unfold storeBytes
  grind -ring -linarith [spFresh_mem, wrN_wf]

@[simp] theorem storeLocal_wf (w : ℕ) (ea : Word) (v : Word) (s : State) (hwf : s.mem.wf = true) : (storeLocal w ea v s).mem.wf = true := by
  unfold storeLocal
  grind -ring -linarith [State_retire_mem, consumeLocal_wf, localFix_mem, storeBytes_wf, State_trap_wf]

@[simp] theorem execLdSB_wf (g : Guard) (d : BitVec 6) (a : Src) (imm : BitVec 28) (s : State) (hwf : s.mem.wf = true) : NextWf (execLdSB g d a imm s) := by
  unfold execLdSB
  grind -ring -linarith [loadLocal_wf, nextWf_issue, nextWf_next]

@[simp] theorem execLdSBu_wf (g : Guard) (d : BitVec 6) (a : Src) (imm : BitVec 28) (s : State) (hwf : s.mem.wf = true) : NextWf (execLdSBu g d a imm s) := by
  unfold execLdSBu
  grind -ring -linarith [loadLocal_wf, nextWf_issue, nextWf_next]

@[simp] theorem execLdSH_wf (g : Guard) (d : BitVec 6) (a : Src) (imm : BitVec 28) (s : State) (hwf : s.mem.wf = true) : NextWf (execLdSH g d a imm s) := by
  unfold execLdSH
  grind -ring -linarith [loadLocal_wf, nextWf_issue, nextWf_next]

@[simp] theorem execLdSHu_wf (g : Guard) (d : BitVec 6) (a : Src) (imm : BitVec 28) (s : State) (hwf : s.mem.wf = true) : NextWf (execLdSHu g d a imm s) := by
  unfold execLdSHu
  grind -ring -linarith [loadLocal_wf, nextWf_issue, nextWf_next]

@[simp] theorem execLdSW_wf (g : Guard) (d : BitVec 6) (a : Src) (imm : BitVec 28) (s : State) (hwf : s.mem.wf = true) : NextWf (execLdSW g d a imm s) := by
  unfold execLdSW
  grind -ring -linarith [loadLocal_wf, nextWf_issue, nextWf_next]

@[simp] theorem execLdSWu_wf (g : Guard) (d : BitVec 6) (a : Src) (imm : BitVec 28) (s : State) (hwf : s.mem.wf = true) : NextWf (execLdSWu g d a imm s) := by
  unfold execLdSWu
  grind -ring -linarith [loadLocal_wf, nextWf_issue, nextWf_next]

@[simp] theorem execLdS_wf (g : Guard) (d : BitVec 6) (a : Src) (imm : BitVec 28) (s : State) (hwf : s.mem.wf = true) : NextWf (execLdS g d a imm s) := by
  unfold execLdS
  grind -ring -linarith [loadLocal_wf, nextWf_issue, nextWf_next]

@[simp] theorem execStSB_wf (g : Guard) (a : Src) (b : Src) (imm : BitVec 28) (s : State) (hwf : s.mem.wf = true) : NextWf (execStSB g a b imm s) := by
  unfold execStSB
  grind -ring -linarith [nextWf_issue, storeLocal_wf, nextWf_next]

@[simp] theorem execStSH_wf (g : Guard) (a : Src) (b : Src) (imm : BitVec 28) (s : State) (hwf : s.mem.wf = true) : NextWf (execStSH g a b imm s) := by
  unfold execStSH
  grind -ring -linarith [nextWf_issue, storeLocal_wf, nextWf_next]

@[simp] theorem execStSW_wf (g : Guard) (a : Src) (b : Src) (imm : BitVec 28) (s : State) (hwf : s.mem.wf = true) : NextWf (execStSW g a b imm s) := by
  unfold execStSW
  grind -ring -linarith [nextWf_issue, storeLocal_wf, nextWf_next]

@[simp] theorem execStS_wf (g : Guard) (a : Src) (b : Src) (imm : BitVec 28) (s : State) (hwf : s.mem.wf = true) : NextWf (execStS g a b imm s) := by
  unfold execStS
  grind -ring -linarith [nextWf_issue, storeLocal_wf, nextWf_next]

theorem withLocal_wf {ea n : Nat} {s : State} {body : Nat → State → State} (h : s.mem.wf = true)
    (hbody : ∀ v t, t.mem.wf = true → (body v t).mem.wf = true) : (withLocal ea n s body).mem.wf = true := by
  unfold withLocal
  grind -ring -linarith [consumeLocal_wf, localFix_mem]

theorem withDesc_wf {ea : Word} {s : State} {body : (Nat → Nat) → State → State} (h : s.mem.wf = true)
    (hbody : ∀ v t, t.mem.wf = true → (body v t).mem.wf = true) : (withDesc ea s body).mem.wf = true := by
  unfold withDesc
  split
  · exact State_trap_wf _ _ _ _ h
  split
  · exact State_trap_wf _ _ _ _ h
  · exact withLocal_wf h fun v t ht => hbody _ t ht

@[simp] theorem msendGo_wf (d : BitVec 6) (w : ℕ → ℕ) (v : ℕ) (s : State) (hwf : s.mem.wf = true) : (msendGo d w v s).mem.wf = true := by
  unfold msendGo
  grind -ring -linarith [sendToSelf_mem, State_result_mem, sendMessage_snd_wf, sendMessage_pair_wf]

@[simp] theorem msendBody_wf (d : BitVec 6) (ea : Word) (s : State) (hwf : s.mem.wf = true) : (msendBody d ea s).mem.wf = true := by
  unfold msendBody
  grind -ring -linarith [withDesc_wf, msendGo_wf, whenDrained_wf, State_trap_wf, withLocal_wf]

@[simp] theorem execMsend_wf (g : Guard) (d : BitVec 6) (a : Src) (off : BitVec 22) (s : State) (hwf : s.mem.wf = true) : NextWf (execMsend g d a off s) := by
  unfold execMsend
  grind -ring -linarith [msendBody_wf, nextWf_issue, nextWf_next]

@[simp] theorem syncDepth_wf (s : State) (q : ℕ) (hwf : s.mem.wf = true) : (syncDepth s q).mem.wf = true := by
  simp [syncDepth, hwf]

@[simp] theorem enterPool_wf (s : State) (w : BitVec 512) (reserved : Bool) (hwf : s.mem.wf = true) : (enterPool s w reserved).mem.wf = true := by
  simp [enterPool, hwf]

@[simp] theorem spill_snd_wf (s : State) (c : ℕ) (w : BitVec 512) (hwf : s.mem.wf = true) : (spill s c w).2.mem.wf = true := by
  unfold spill
  grind -ring -linarith [State_memFault_mem, globalWrite_ok_wf, globalWrite_err_wf, State_put64_wf]

theorem spill_pair_wf (s : State) (c : ℕ) (w : BitVec 512) (hwf : s.mem.wf = true) {ra : ℕ} {u : State} (hr : spill s c w = (ra, u)) : u.mem.wf = true := by
  unfold spill at hr
  grind -ring -linarith [State_memFault_mem, globalWrite_ok_wf, globalWrite_err_wf, State_put64_wf]

theorem refillOne_some_wf (s : State) (hwf : s.mem.wf = true) {u : State} (hr : refillOne s = some u) : u.mem.wf = true := by
  unfold refillOne at hr
  grind -ring -linarith [enterPool_wf, State_memFault_mem, State_put64_wf, globalRead_wf]

@[simp] theorem refill_wf (a1 : ℕ) (a2 : State) (hwf : a2.mem.wf = true) : (refill a1 a2).mem.wf = true := by
  induction a1 generalizing a2 with
  | zero => grind -ring -linarith [refill]
  | succ k ih =>
    unfold refill
    grind -ring -linarith [refillOne_some_wf]

@[simp] theorem refillAll_wf (s : State) (hwf : s.mem.wf = true) : (refillAll s).mem.wf = true := by
  simp [refillAll, hwf]

@[simp] theorem spawnBody_wf (d : BitVec 6) (ea : Word) (s : State) (hwf : s.mem.wf = true) : (spawnBody d ea s).mem.wf = true := by
  unfold spawnBody
  grind -ring -linarith [enterPool_wf, withDesc_wf, State_result_mem, spill_snd_wf, spill_pair_wf, whenDrained_wf, State_trap_wf, foldl_wf]

@[simp] theorem execSpawn_wf (g : Guard) (d : BitVec 6) (a : Src) (off : BitVec 22) (s : State) (hwf : s.mem.wf = true) : NextWf (execSpawn g d a off s) := by
  unfold execSpawn
  grind -ring -linarith [nextWf_issue, spawnBody_wf, nextWf_next]

@[simp] theorem skipReserved_fst_wf (s : State) (f : Fired) (a1 : ℕ) (hwf : s.mem.wf = true) : (skipReserved s f a1).1.mem.wf = true := by
  induction a1 generalizing s f with
  | zero => grind -ring -linarith [skipReserved]
  | succ k ih =>
    unfold skipReserved
    grind -ring -linarith [tsSkip_wf]

theorem skipReserved_pair_wf (s : State) (f : Fired) (a1 : ℕ) (hwf : s.mem.wf = true) {ra : Fired} {u : State} (hr : skipReserved s f a1 = (u, ra)) : u.mem.wf = true := by
  induction a1 generalizing s f ra u with
  | zero => grind -ring -linarith [skipReserved]
  | succ k ih =>
    unfold skipReserved at hr
    grind -ring -linarith [tsSkip_wf]

@[simp] theorem putFired_wf (s : State) (n : ℕ) (f : Fired) (hwf : s.mem.wf = true) : (putFired s n f).mem.wf = true := by
  unfold putFired
  grind -ring -linarith [skipReserved_fst_wf, skipReserved_pair_wf]

@[simp] theorem fire_wf (s : State) (c : ℕ) (m : ℕ) (hwf : s.mem.wf = true) : (fire s c m).mem.wf = true := by
  unfold fire
  grind -ring -linarith [putFired_wf, queueFlag_wf, State_put64_wf, settleFlags_wf, foldl_wf]

@[simp] theorem increment_wf (s : State) (c : ℕ) (m : ℕ) (v : ℕ) (hwf : s.mem.wf = true) : (increment s c m v).mem.wf = true := by
  unfold increment
  grind -ring -linarith [fire_wf, noteWrite_mem, State_put64_wf]

@[simp] theorem execMilestoneIncrement_wf (k : ℕ) (s : State) (hwf : s.mem.wf = true) : NextWf (execMilestoneIncrement k s) := by
  unfold execMilestoneIncrement
  grind -ring -linarith [increment_wf, nextWf_next]

/-- What an operation of a milestone leaves, where it does anything, is in canonical form. -/
def OpEndWf : OpEnd → Prop
  | .started t => t.mem.wf = true
  | .waits => True
  | .skipped t _ => t.mem.wf = true

theorem runFirst_wf {body : Fired → Nat → State → OpEnd} (hbody : ∀ f a s, s.mem.wf = true → OpEndWf (body f a s)) {l : List (Nat × Fired)}
    {s : State} (h : s.mem.wf = true) : (runFirst s body l).mem.wf = true := by
  induction l with
  | nil => exact h
  | cons e l ih =>
    have hb := hbody e.2 (opArg (e.2.ops.headD 0)) s h
    unfold runFirst
    dsimp only
    split
    · rename_i t ht
      rw [ht] at hb
      exact putFired_wf _ _ _ hb
    · exact ih
    · rename_i t why ht
      rw [ht] at hb
      exact putFired_wf _ _ _ (tsSkip_wf _ _ _ _ _ hb)

theorem nextWf_runOp {op : Nat} {s : State} {body : Fired → Nat → State → OpEnd} (hbody : ∀ f a s, s.mem.wf = true → OpEndWf (body f a s))
    (h : s.mem.wf = true) : NextWf (runOp op s body) := by
  unfold runOp
  rw [nextWf_next]
  exact runFirst_wf hbody h

@[simp] theorem opEndWf_started (t : State) : OpEndWf (.started t) ↔ t.mem.wf = true := Iff.rfl

@[simp] theorem opEndWf_waits : OpEndWf .waits := trivial

@[simp] theorem opEndWf_skipped (t : State) (why : Nat) : OpEndWf (.skipped t why) ↔ t.mem.wf = true := Iff.rfl

theorem opEndWf_withBlock {f : Fired} {arg n al : Nat} {s : State} {body : Nat → State → OpEnd} (hwf : s.mem.wf = true)
    (hbody : ∀ v t, t.mem.wf = true → OpEndWf (body v t)) : OpEndWf (withBlock f arg n al s body) := by
  unfold withBlock
  split
  · exact hwf
  split
  · exact hwf
  rename_i h
  have ht := globalRead_wf h hwf
  split
  · rwa [opEndWf_started, State_memFault_mem]
  · exact hbody _ _ ht

theorem opEndWf_launchOp (f : Fired) (arg : Nat) (s : State) (hwf : s.mem.wf = true) : OpEndWf (launchOp f arg s) := by
  refine opEndWf_withBlock hwf fun v t ht => ?_
  dsimp only
  repeat' split
  all_goals simp [ht]

@[simp] theorem execLaunch_wf (s : State) (hwf : s.mem.wf = true) : NextWf (execLaunch s) := nextWf_runOp opEndWf_launchOp hwf

theorem opEndWf_copyOp (f : Fired) (arg : Nat) (s : State) (hwf : s.mem.wf = true) : OpEndWf (copyOp f arg s) := by
  refine opEndWf_withBlock hwf fun v t ht => ?_
  dsimp only
  split
  · exact ht
  repeat' split
  all_goals simp [ht]

@[simp] theorem execTriggeredCopy_wf (s : State) (hwf : s.mem.wf = true) : NextWf (execTriggeredCopy s) := nextWf_runOp opEndWf_copyOp hwf

theorem opEndWf_sendOp (f : Fired) (arg : Nat) (s : State) (hwf : s.mem.wf = true) : OpEndWf (sendOp f arg s) := by
  refine opEndWf_withBlock hwf fun v t ht => ?_
  extract_lets w conn mode st
  split
  · exact ht
  split
  · exact ht
  split
  · exact ht
  split
  · trivial
  split
  · exact ht
  rename_i h
  have hu := globalRead_wf h ht
  split
  · exact hu
  · exact sendMessage_snd_wf _ _ hu

@[simp] theorem execSend_wf (s : State) (hwf : s.mem.wf = true) : NextWf (execSend s) := nextWf_runOp opEndWf_sendOp hwf

theorem opEndWf_raiseOp (f : Fired) (arg : Nat) (s : State) (hwf : s.mem.wf = true) : OpEndWf (raiseOp f arg s) := by
  refine opEndWf_withBlock hwf fun v t ht => ?_
  dsimp only
  split
  · exact ht
  split
  · exact ht
  · exact ht

@[simp] theorem execRaise_wf (s : State) (hwf : s.mem.wf = true) : NextWf (execRaise s) := nextWf_runOp opEndWf_raiseOp hwf

theorem opEndWf_msaddOp (f : Fired) (arg : Nat) (s : State) (hwf : s.mem.wf = true) : OpEndWf (msaddOp f arg s) := by
  refine opEndWf_withBlock hwf fun v t ht => ?_
  dsimp only
  split
  · exact ht
  split
  · exact ht
  · exact ht

@[simp] theorem execMsadd_wf (s : State) (hwf : s.mem.wf = true) : NextWf (execMsadd s) := nextWf_runOp opEndWf_msaddOp hwf

theorem raiseEvent_some_wf (s : State) (c : ℕ) (kind : ℕ) (arg : Word) (hwf : s.mem.wf = true) {u : State} (hr : raiseEvent s c kind arg = some u) : u.mem.wf = true := by
  unfold raiseEvent at hr
  grind -ring -linarith [tsEvSkip_wf, pushEvent_mem]

theorem opEndWf_handlerOp (f : Fired) (arg : Nat) (s : State) (hwf : s.mem.wf = true) : OpEndWf (handlerOp f arg s) := by
  refine opEndWf_withBlock hwf fun v t ht => ?_
  split
  · exact ht
  split
  · rename_i h
    exact raiseEvent_some_wf _ _ _ _ ht h
  · trivial

@[simp] theorem execHandler_wf (s : State) (hwf : s.mem.wf = true) : NextWf (execHandler s) := nextWf_runOp opEndWf_handlerOp hwf

@[simp] theorem execDrainreqWrite_wf (s : State) (hwf : s.mem.wf = true) : NextWf (execDrainreqWrite s) := by
  unfold execDrainreqWrite
  grind -ring -linarith [takeAct_wf, State_putCx_mem, nextWf_next]

@[simp] theorem execDrainRequestDone_wf (s : State) (hwf : s.mem.wf = true) : NextWf (execDrainRequestDone s) := by
  unfold execDrainRequestDone
  grind -ring -linarith [noteWrite_mem, State_put64_wf, State_putCx_mem, nextWf_next]

@[simp] theorem State_putStore_wf (s : State) (key : ℕ) (n : ℕ) (v : ℕ) (hwf : s.mem.wf = true) : (State.putStore s key n v).mem.wf = true := by
  simp [State.putStore, hwf]

@[simp] theorem State_zeroStore_wf (s : State) (lo : ℕ) (hi : ℕ) (hwf : s.mem.wf = true) : (State.zeroStore s lo hi).mem.wf = true := by
  simp [State.zeroStore, hwf]

@[simp] theorem startHandler_wf (s : State) (t : ℕ) (c : ℕ) (e : Ev) (hwf : s.mem.wf = true) : (startHandler s t c e).mem.wf = true := by
  unfold startHandler
  grind -ring -linarith [State_zeroStore_wf, State_putSc_mem, State_putStore_wf]

@[simp] theorem execHandlerStart_wf (s : State) (hwf : s.mem.wf = true) : NextWf (execHandlerStart s) := by
  unfold execHandlerStart
  grind -ring -linarith [State_putCx_mem, startHandler_wf, nextWf_next]

@[simp] theorem execHandlerWatchdog_wf (s : State) (hwf : s.mem.wf = true) : NextWf (execHandlerWatchdog s) := by
  unfold execHandlerWatchdog
  grind -ring -linarith [State_upSc_mem, watchdogFault_mem, withdraw_of_not_waiting, withdraw_wf, nextWf_next]

@[simp] theorem putRcfg_wf (s : State) (r : ℕ) (en : ℕ) (st : ℕ) (v : ℕ) (hwf : s.mem.wf = true) : (putRcfg s r en st v).mem.wf = true := by
  simp [putRcfg, hwf]

@[simp] theorem ringGoes_wf (s : State) (r : ℕ) (st : ℕ) (hwf : s.mem.wf = true) : (ringGoes s r st).mem.wf = true := by
  simp [ringGoes, hwf]

@[simp] theorem execHostRingDoorbell_wf (v : Word) (s : State) (hwf : s.mem.wf = true) : NextWf (execHostRingDoorbell v s) := by
  unfold execHostRingDoorbell
  grind -ring -linarith [ringGoes_wf, State_put64_wf, nextWf_next]

@[simp] theorem execHostRingEnable_wf (v : Word) (s : State) (h : s.mem.wf = true) : NextWf (execHostRingEnable v s) := by
  unfold execHostRingEnable
  rw [nextWf_next]
  dsimp only
  split
  · split
    · exact h
    · simp [h]
  split
  · simp [h]
  split
  · have hp : ((putRcfg s s.cur 1 1 v.toNat).put64 (ringKey s.cur 3) 0).mem.wf = true := State_put64_wf _ _ _ (putRcfg_wf _ _ _ _ _ h)
    split
    · exact hp
    · exact ringGoes_wf _ _ _ hp
  · simp [h]

@[simp] theorem ringError_wf (s : State) (r : ℕ) (hwf : s.mem.wf = true) : (ringError s r).mem.wf = true := by
  simp [ringError, hwf]

@[simp] theorem handOn_wf (s : State) (r : ℕ) (e : RingEntry) (v : ℕ) (hwf : s.mem.wf = true) : (handOn s r e v).mem.wf = true := by
  unfold handOn
  grind -ring -linarith [State_put64_wf, arriveWhole_snd_wf, arriveWhole_pair_wf]

@[simp] theorem takeEntryRead_wf (s : State) (r : ℕ) (entry : Option RingEntry) (hwf : s.mem.wf = true) : (takeEntryRead s r entry).mem.wf = true := by
  unfold takeEntryRead
  grind -ring -linarith [askHost_mem, ringError_wf, handOn_wf]

@[simp] theorem execHostRingFetch_wf (entry : Option RingEntry) (data : Option ℕ) (s : State) (hwf : s.mem.wf = true) : NextWf (execHostRingFetch entry data s) := by
  unfold execHostRingFetch
  grind -ring -linarith [readDone_mem, takeEntryRead_wf, askHost_mem, ringError_wf, handOn_wf, foldl_wf, nextWf_next]

@[simp] theorem execAtsInvalidation_wf (pasid : ℕ) (lo : ℕ) (hi : ℕ) (s : State) (hwf : s.mem.wf = true) : NextWf (execAtsInvalidation pasid lo hi s) := by
  simp [execAtsInvalidation, hwf]

@[simp] theorem execPasidTeardown_wf (v : Word) (s : State) (hwf : s.mem.wf = true) : NextWf (execPasidTeardown v s) := by
  unfold execPasidTeardown
  grind -ring -linarith [forgetReads_mem, ctxCause_mem, State_put64_wf, putRcfg_wf, foldl_wf, nextWf_next]

@[simp] theorem execPasidTeardownDone_wf (s : State) (hwf : s.mem.wf = true) : NextWf (execPasidTeardownDone s) := by
  unfold execPasidTeardownDone
  grind -ring -linarith [settleInval_mem, State_put64_wf, nextWf_next]

@[simp] theorem execBar0RegisterWrite_wf (off : ℕ) (v : Word) (s : State) (hwf : s.mem.wf = true) : NextWf (execBar0RegisterWrite off v s) := by
  unfold execBar0RegisterWrite
  grind -ring -linarith [State_put64_wf, devWrite_wf, nextWf_next]

@[simp] theorem execHbmScrub_wf (s : State) (hwf : s.mem.wf = true) : NextWf (execHbmScrub s) := by
  unfold execHbmScrub
  grind -ring -linarith [scrubLines_mem, scrubRead_mem, scrubWrite_mem, State_putDi_mem, foldl_wf, nextWf_next]

@[simp] theorem execScratchpadScrub_wf (s : State) (hwf : s.mem.wf = true) : NextWf (execScratchpadScrub s) := by
  unfold execScratchpadScrub
  grind -ring -linarith [fixWord_mem, foldl_wf, nextWf_next]

@[simp] theorem execHbmRetrain_wf (s : State) (hwf : s.mem.wf = true) : NextWf (execHbmRetrain s) := by
  unfold execHbmRetrain
  grind -ring -linarith [State_putDi_mem, nextWf_next]

theorem putBytes_wf {m : Memory} {k : Nat} {bs : List Byte} (h : m.wf = true) : (putBytes m k bs).wf = true := by
  induction bs generalizing m k with
  | nil => exact h
  | cons b bs ih => exact ih (memPut_wf _ _ _ h)

@[simp] theorem loadImage_wf (s : State) (d : Nat) (i : Image) (h : s.mem.wf = true) : (loadImage s d i).mem.wf = true :=
  putBytes_wf (zeroRange_wf _ _ _ h)

@[simp] theorem bringUpContexts_wf (s : State) (hwf : s.mem.wf = true) : (bringUpContexts s).mem.wf = true := by
  unfold bringUpContexts
  grind -ring -linarith [State_put64_wf, foldl_wf]

@[simp] theorem execResetRelease_wf (boot : BitVec 2) (modId : BitVec 4) (img : Image) (s : State) (hwf : s.mem.wf = true) : NextWf (execResetRelease boot modId img s) := by
  unfold execResetRelease
  grind -ring -linarith [judgeAlarm_mem, putBytes_wf, loadImage_wf, bringUpContexts_wf, State_putDi_mem, nextWf_next]

@[simp] theorem execDieStart_wf (img : Image) (s : State) (h : s.mem.wf = true) : NextWf (execDieStart img s) := by
  unfold execDieStart
  rw [nextWf_next]
  dsimp only
  split
  · exact h
  split
  · split
    · exact h
    split <;> simp [h]
  · exact h

@[simp] theorem execQuadGroupStart_wf (k : ℕ) (s : State) (hwf : s.mem.wf = true) : NextWf (execQuadGroupStart k s) := by
  unfold execQuadGroupStart
  grind -ring -linarith [bringUpCore_mem, State_putDi_mem, foldl_wf, nextWf_next]

@[simp] theorem execPowerSample_wf (w : ℕ) (s : State) (hwf : s.mem.wf = true) : NextWf (execPowerSample w s) := by
  unfold execPowerSample
  grind -ring -linarith [judgeAlarm_mem, nextWf_next]

@[simp] theorem execPwrAlert_wf (on : Bool) (s : State) (hwf : s.mem.wf = true) : NextWf (execPwrAlert on s) := by
  simp [execPwrAlert, hwf]

@[simp] theorem intoReset_wf (s : State) (_ : s.mem.wf = true) : (intoReset s).mem.wf = true := rfl

@[simp] theorem execThermalSensor_wf (sensor : ℕ) (deg : ℕ) (s : State) (hwf : s.mem.wf = true) : NextWf (execThermalSensor sensor deg s) := by
  unfold execThermalSensor
  grind -ring -linarith [judgeUnlessReset_mem, intoReset_wf, nextWf_next]

@[simp] theorem execResetNAsserted_wf (s : State) (hwf : s.mem.wf = true) : NextWf (execResetNAsserted s) := by
  simp [execResetNAsserted, hwf]

@[simp] theorem startRoutine_wf (s : State) (d : ℕ) (num : ℕ) (args : ℕ) (entry : BitVec 16) (hwf : s.mem.wf = true) : (startRoutine s d num args entry).mem.wf = true := by
  unfold startRoutine
  grind -ring -linarith [State_putMem_wf, State_putSc_mem, State_put64_wf, State_putDi_mem, wrN_wf, zeroRange_wf]

@[simp] theorem execRoutineRequest_wf (s : State) (hwf : s.mem.wf = true) : NextWf (execRoutineRequest s) := by
  unfold execRoutineRequest
  grind -ring -linarith [startRoutine_wf, takeAct_wf, State_put64_wf, nextWf_next]

@[simp] theorem resetFirmware_wf (s : State) (d : ℕ) (hwf : s.mem.wf = true) : (resetFirmware s d).mem.wf = true := by
  unfold resetFirmware
  grind -ring -linarith [State_putSc_mem, State_put64_wf, withdraw_of_not_waiting, withdraw_wf, State_putDi_mem]

@[simp] theorem execHeartbeatTimeout_wf (s : State) (hwf : s.mem.wf = true) : NextWf (execHeartbeatTimeout s) := by
  unfold execHeartbeatTimeout
  grind -ring -linarith [resetFirmware_wf, nextWf_next]

@[simp] theorem putWords_wf (s : State) (k : ℕ) (a1 : List Word) (hwf : s.mem.wf = true) : (putWords s k a1).mem.wf = true := by
  induction a1 generalizing s k with
  | nil => grind -ring -linarith [putWords]
  | cons y ys ih =>
    unfold putWords
    grind -ring -linarith [State_put64_wf]

@[simp] theorem execAttestationRequest_wf (v : Word) (s : State) (hwf : s.mem.wf = true) : NextWf (execAttestationRequest v s) := by
  unfold execAttestationRequest
  grind -ring -linarith [State_put64_wf, nextWf_next]

@[simp] theorem reportTurn_wf (s : State) (hwf : s.mem.wf = true) : (reportTurn s).mem.wf = true := by
  unfold reportTurn
  grind -ring -linarith [putWords_wf, State_put64_wf]

@[simp] theorem execNop_wf (g : Guard) (s : State) (hwf : s.mem.wf = true) : NextWf (execNop g s) := by
  unfold execNop
  grind -ring -linarith [State_retire_mem, nextWf_issue, nextWf_next]

@[simp] theorem execAdd_wf (g : Guard) (d : BitVec 6) (a : Src) (b : Src) (s : State) (hwf : s.mem.wf = true) : NextWf (execAdd g d a b s) := by
  unfold execAdd
  grind -ring -linarith [nextWf_issue, State_result_mem, nextWf_next]

@[simp] theorem execSub_wf (g : Guard) (d : BitVec 6) (a : Src) (b : Src) (s : State) (hwf : s.mem.wf = true) : NextWf (execSub g d a b s) := by
  unfold execSub
  grind -ring -linarith [nextWf_issue, State_result_mem, nextWf_next]

@[simp] theorem execAnd_wf (g : Guard) (d : BitVec 6) (a : Src) (b : Src) (s : State) (hwf : s.mem.wf = true) : NextWf (execAnd g d a b s) := by
  unfold execAnd
  grind -ring -linarith [nextWf_issue, State_result_mem, nextWf_next]

@[simp] theorem execOr_wf (g : Guard) (d : BitVec 6) (a : Src) (b : Src) (s : State) (hwf : s.mem.wf = true) : NextWf (execOr g d a b s) := by
  unfold execOr
  grind -ring -linarith [nextWf_issue, State_result_mem, nextWf_next]

@[simp] theorem execXor_wf (g : Guard) (d : BitVec 6) (a : Src) (b : Src) (s : State) (hwf : s.mem.wf = true) : NextWf (execXor g d a b s) := by
  unfold execXor
  grind -ring -linarith [nextWf_issue, State_result_mem, nextWf_next]

@[simp] theorem execAndn_wf (g : Guard) (d : BitVec 6) (a : Src) (b : Src) (s : State) (hwf : s.mem.wf = true) : NextWf (execAndn g d a b s) := by
  unfold execAndn
  grind -ring -linarith [nextWf_issue, State_result_mem, nextWf_next]

@[simp] theorem execShl_wf (g : Guard) (d : BitVec 6) (a : Src) (b : Src) (s : State) (hwf : s.mem.wf = true) : NextWf (execShl g d a b s) := by
  unfold execShl
  grind -ring -linarith [nextWf_issue, State_result_mem, nextWf_next]

@[simp] theorem execShr_wf (g : Guard) (d : BitVec 6) (a : Src) (b : Src) (s : State) (hwf : s.mem.wf = true) : NextWf (execShr g d a b s) := by
  unfold execShr
  grind -ring -linarith [nextWf_issue, State_result_mem, nextWf_next]

@[simp] theorem execSar_wf (g : Guard) (d : BitVec 6) (a : Src) (b : Src) (s : State) (hwf : s.mem.wf = true) : NextWf (execSar g d a b s) := by
  unfold execSar
  grind -ring -linarith [nextWf_issue, State_result_mem, nextWf_next]

@[simp] theorem execMin_wf (g : Guard) (d : BitVec 6) (a : Src) (b : Src) (s : State) (hwf : s.mem.wf = true) : NextWf (execMin g d a b s) := by
  unfold execMin
  grind -ring -linarith [nextWf_issue, State_result_mem, nextWf_next]

@[simp] theorem execMax_wf (g : Guard) (d : BitVec 6) (a : Src) (b : Src) (s : State) (hwf : s.mem.wf = true) : NextWf (execMax g d a b s) := by
  unfold execMax
  grind -ring -linarith [nextWf_issue, State_result_mem, nextWf_next]

@[simp] theorem execMinu_wf (g : Guard) (d : BitVec 6) (a : Src) (b : Src) (s : State) (hwf : s.mem.wf = true) : NextWf (execMinu g d a b s) := by
  unfold execMinu
  grind -ring -linarith [nextWf_issue, State_result_mem, nextWf_next]

@[simp] theorem execMaxu_wf (g : Guard) (d : BitVec 6) (a : Src) (b : Src) (s : State) (hwf : s.mem.wf = true) : NextWf (execMaxu g d a b s) := by
  unfold execMaxu
  grind -ring -linarith [nextWf_issue, State_result_mem, nextWf_next]

@[simp] theorem execSel_wf (g : Guard) (d : BitVec 6) (a : Src) (b : Src) (p : BitVec 5) (s : State) (hwf : s.mem.wf = true) : NextWf (execSel g d a b p s) := by
  unfold execSel
  grind -ring -linarith [nextWf_issue, State_result_mem, nextWf_next]

@[simp] theorem execMul_wf (g : Guard) (d : BitVec 6) (a : Src) (b : Src) (s : State) (hwf : s.mem.wf = true) : NextWf (execMul g d a b s) := by
  unfold execMul
  grind -ring -linarith [nextWf_issue, State_result_mem, nextWf_next]

@[simp] theorem execMulh_wf (g : Guard) (d : BitVec 6) (a : Src) (b : Src) (s : State) (hwf : s.mem.wf = true) : NextWf (execMulh g d a b s) := by
  unfold execMulh
  grind -ring -linarith [nextWf_issue, State_result_mem, nextWf_next]

@[simp] theorem execMulhu_wf (g : Guard) (d : BitVec 6) (a : Src) (b : Src) (s : State) (hwf : s.mem.wf = true) : NextWf (execMulhu g d a b s) := by
  unfold execMulhu
  grind -ring -linarith [nextWf_issue, State_result_mem, nextWf_next]

@[simp] theorem divBody_wf (d : BitVec 6) (a : Src) (b : Src) (f : Word → Word → Word) (s : State) (hwf : s.mem.wf = true) : (divBody d a b f s).mem.wf = true := by
  unfold divBody
  grind -ring -linarith [State_result_mem, State_trap_wf]

@[simp] theorem execDiv_wf (g : Guard) (d : BitVec 6) (a : Src) (b : Src) (s : State) (hwf : s.mem.wf = true) : NextWf (execDiv g d a b s) := by
  unfold execDiv
  grind -ring -linarith [divBody_wf, nextWf_issue, nextWf_next]

@[simp] theorem execDivu_wf (g : Guard) (d : BitVec 6) (a : Src) (b : Src) (s : State) (hwf : s.mem.wf = true) : NextWf (execDivu g d a b s) := by
  unfold execDivu
  grind -ring -linarith [divBody_wf, nextWf_issue, nextWf_next]

@[simp] theorem execRem_wf (g : Guard) (d : BitVec 6) (a : Src) (b : Src) (s : State) (hwf : s.mem.wf = true) : NextWf (execRem g d a b s) := by
  unfold execRem
  grind -ring -linarith [divBody_wf, nextWf_issue, nextWf_next]

@[simp] theorem execRemu_wf (g : Guard) (d : BitVec 6) (a : Src) (b : Src) (s : State) (hwf : s.mem.wf = true) : NextWf (execRemu g d a b s) := by
  unfold execRemu
  grind -ring -linarith [divBody_wf, nextWf_issue, nextWf_next]

@[simp] theorem execAdds_wf (g : Guard) (d : BitVec 6) (a : Src) (b : Src) (s : State) (hwf : s.mem.wf = true) : NextWf (execAdds g d a b s) := by
  unfold execAdds
  grind -ring -linarith [nextWf_issue, State_result_mem, nextWf_next]

@[simp] theorem execSubs_wf (g : Guard) (d : BitVec 6) (a : Src) (b : Src) (s : State) (hwf : s.mem.wf = true) : NextWf (execSubs g d a b s) := by
  unfold execSubs
  grind -ring -linarith [nextWf_issue, State_result_mem, nextWf_next]

@[simp] theorem execAddus_wf (g : Guard) (d : BitVec 6) (a : Src) (b : Src) (s : State) (hwf : s.mem.wf = true) : NextWf (execAddus g d a b s) := by
  unfold execAddus
  grind -ring -linarith [nextWf_issue, State_result_mem, nextWf_next]

@[simp] theorem execSubus_wf (g : Guard) (d : BitVec 6) (a : Src) (b : Src) (s : State) (hwf : s.mem.wf = true) : NextWf (execSubus g d a b s) := by
  unfold execSubus
  grind -ring -linarith [nextWf_issue, State_result_mem, nextWf_next]

@[simp] theorem execClz_wf (g : Guard) (d : BitVec 6) (a : Src) (s : State) (hwf : s.mem.wf = true) : NextWf (execClz g d a s) := by
  unfold execClz
  grind -ring -linarith [nextWf_issue, State_result_mem, nextWf_next]

@[simp] theorem execCtz_wf (g : Guard) (d : BitVec 6) (a : Src) (s : State) (hwf : s.mem.wf = true) : NextWf (execCtz g d a s) := by
  unfold execCtz
  grind -ring -linarith [nextWf_issue, State_result_mem, nextWf_next]

@[simp] theorem execPopc_wf (g : Guard) (d : BitVec 6) (a : Src) (s : State) (hwf : s.mem.wf = true) : NextWf (execPopc g d a s) := by
  unfold execPopc
  grind -ring -linarith [nextWf_issue, State_result_mem, nextWf_next]

@[simp] theorem execBrev_wf (g : Guard) (d : BitVec 6) (a : Src) (s : State) (hwf : s.mem.wf = true) : NextWf (execBrev g d a s) := by
  unfold execBrev
  grind -ring -linarith [nextWf_issue, State_result_mem, nextWf_next]

@[simp] theorem execBswap_wf (g : Guard) (d : BitVec 6) (a : Src) (s : State) (hwf : s.mem.wf = true) : NextWf (execBswap g d a s) := by
  unfold execBswap
  grind -ring -linarith [nextWf_issue, State_result_mem, nextWf_next]

@[simp] theorem execAddImm_wf (g : Guard) (d : BitVec 6) (a : Src) (imm : BitVec 28) (s : State) (hwf : s.mem.wf = true) : NextWf (execAddImm g d a imm s) := by
  unfold execAddImm
  grind -ring -linarith [nextWf_issue, State_result_mem, nextWf_next]

@[simp] theorem execAndImm_wf (g : Guard) (d : BitVec 6) (a : Src) (imm : BitVec 28) (s : State) (hwf : s.mem.wf = true) : NextWf (execAndImm g d a imm s) := by
  unfold execAndImm
  grind -ring -linarith [nextWf_issue, State_result_mem, nextWf_next]

@[simp] theorem execOrImm_wf (g : Guard) (d : BitVec 6) (a : Src) (imm : BitVec 28) (s : State) (hwf : s.mem.wf = true) : NextWf (execOrImm g d a imm s) := by
  unfold execOrImm
  grind -ring -linarith [nextWf_issue, State_result_mem, nextWf_next]

@[simp] theorem execXorImm_wf (g : Guard) (d : BitVec 6) (a : Src) (imm : BitVec 28) (s : State) (hwf : s.mem.wf = true) : NextWf (execXorImm g d a imm s) := by
  unfold execXorImm
  grind -ring -linarith [nextWf_issue, State_result_mem, nextWf_next]

@[simp] theorem execShlImm_wf (g : Guard) (d : BitVec 6) (a : Src) (k : BitVec 6) (s : State) (hwf : s.mem.wf = true) : NextWf (execShlImm g d a k s) := by
  unfold execShlImm
  grind -ring -linarith [nextWf_issue, State_result_mem, nextWf_next]

@[simp] theorem execShrImm_wf (g : Guard) (d : BitVec 6) (a : Src) (k : BitVec 6) (s : State) (hwf : s.mem.wf = true) : NextWf (execShrImm g d a k s) := by
  unfold execShrImm
  grind -ring -linarith [nextWf_issue, State_result_mem, nextWf_next]

@[simp] theorem execSarImm_wf (g : Guard) (d : BitVec 6) (a : Src) (k : BitVec 6) (s : State) (hwf : s.mem.wf = true) : NextWf (execSarImm g d a k s) := by
  unfold execSarImm
  grind -ring -linarith [nextWf_issue, State_result_mem, nextWf_next]

@[simp] theorem execLi_wf (g : Guard) (d : BitVec 6) (imm : BitVec 28) (s : State) (hwf : s.mem.wf = true) : NextWf (execLi g d imm s) := by
  unfold execLi
  grind -ring -linarith [nextWf_issue, State_result_mem, nextWf_next]

@[simp] theorem execLsi_wf (g : Guard) (d : BitVec 6) (a : Src) (imm : BitVec 28) (s : State) (hwf : s.mem.wf = true) : NextWf (execLsi g d a imm s) := by
  unfold execLsi
  grind -ring -linarith [nextWf_issue, State_result_mem, nextWf_next]

@[simp] theorem execAdr_wf (g : Guard) (d : BitVec 6) (imm : BitVec 28) (s : State) (hwf : s.mem.wf = true) : NextWf (execAdr g d imm s) := by
  unfold execAdr
  grind -ring -linarith [nextWf_issue, State_result_mem, nextWf_next]

@[simp] theorem execExtu_wf (g : Guard) (d : BitVec 6) (a : Src) (pos : BitVec 6) (len1 : BitVec 6) (s : State) (hwf : s.mem.wf = true) : NextWf (execExtu g d a pos len1 s) := by
  unfold execExtu
  grind -ring -linarith [nextWf_issue, State_result_mem, nextWf_next]

@[simp] theorem execExts_wf (g : Guard) (d : BitVec 6) (a : Src) (pos : BitVec 6) (len1 : BitVec 6) (s : State) (hwf : s.mem.wf = true) : NextWf (execExts g d a pos len1 s) := by
  unfold execExts
  grind -ring -linarith [nextWf_issue, State_result_mem, nextWf_next]

@[simp] theorem execIns_wf (g : Guard) (d : BitVec 6) (a : Src) (pos : BitVec 6) (len1 : BitVec 6) (s : State) (hwf : s.mem.wf = true) : NextWf (execIns g d a pos len1 s) := by
  unfold execIns
  grind -ring -linarith [nextWf_issue, State_result_mem, nextWf_next]

@[simp] theorem execSxt_wf (g : Guard) (d : BitVec 6) (a : Src) (w : BitVec 2) (s : State) (hwf : s.mem.wf = true) : NextWf (execSxt g d a w s) := by
  unfold execSxt
  grind -ring -linarith [nextWf_issue, State_result_mem, nextWf_next]

@[simp] theorem execZxt_wf (g : Guard) (d : BitVec 6) (a : Src) (w : BitVec 2) (s : State) (hwf : s.mem.wf = true) : NextWf (execZxt g d a w s) := by
  unfold execZxt
  grind -ring -linarith [nextWf_issue, State_result_mem, nextWf_next]

@[simp] theorem execCmpEq_wf (g : Guard) (pd : BitVec 5) (a : Src) (b : Src) (s : State) (hwf : s.mem.wf = true) : NextWf (execCmpEq g pd a b s) := by
  unfold execCmpEq
  grind -ring -linarith [nextWf_issue, State_resultP_mem, nextWf_next]

@[simp] theorem execCmpNe_wf (g : Guard) (pd : BitVec 5) (a : Src) (b : Src) (s : State) (hwf : s.mem.wf = true) : NextWf (execCmpNe g pd a b s) := by
  unfold execCmpNe
  grind -ring -linarith [nextWf_issue, State_resultP_mem, nextWf_next]

@[simp] theorem execCmpLt_wf (g : Guard) (pd : BitVec 5) (a : Src) (b : Src) (s : State) (hwf : s.mem.wf = true) : NextWf (execCmpLt g pd a b s) := by
  unfold execCmpLt
  grind -ring -linarith [nextWf_issue, State_resultP_mem, nextWf_next]

@[simp] theorem execCmpLe_wf (g : Guard) (pd : BitVec 5) (a : Src) (b : Src) (s : State) (hwf : s.mem.wf = true) : NextWf (execCmpLe g pd a b s) := by
  unfold execCmpLe
  grind -ring -linarith [nextWf_issue, State_resultP_mem, nextWf_next]

@[simp] theorem execCmpLtu_wf (g : Guard) (pd : BitVec 5) (a : Src) (b : Src) (s : State) (hwf : s.mem.wf = true) : NextWf (execCmpLtu g pd a b s) := by
  unfold execCmpLtu
  grind -ring -linarith [nextWf_issue, State_resultP_mem, nextWf_next]

@[simp] theorem execCmpLeu_wf (g : Guard) (pd : BitVec 5) (a : Src) (b : Src) (s : State) (hwf : s.mem.wf = true) : NextWf (execCmpLeu g pd a b s) := by
  unfold execCmpLeu
  grind -ring -linarith [nextWf_issue, State_resultP_mem, nextWf_next]

@[simp] theorem execCmpEqImm_wf (g : Guard) (pd : BitVec 5) (a : Src) (imm : BitVec 28) (s : State) (hwf : s.mem.wf = true) : NextWf (execCmpEqImm g pd a imm s) := by
  unfold execCmpEqImm
  grind -ring -linarith [nextWf_issue, State_resultP_mem, nextWf_next]

@[simp] theorem execCmpNeImm_wf (g : Guard) (pd : BitVec 5) (a : Src) (imm : BitVec 28) (s : State) (hwf : s.mem.wf = true) : NextWf (execCmpNeImm g pd a imm s) := by
  unfold execCmpNeImm
  grind -ring -linarith [nextWf_issue, State_resultP_mem, nextWf_next]

@[simp] theorem execCmpLtImm_wf (g : Guard) (pd : BitVec 5) (a : Src) (imm : BitVec 28) (s : State) (hwf : s.mem.wf = true) : NextWf (execCmpLtImm g pd a imm s) := by
  unfold execCmpLtImm
  grind -ring -linarith [nextWf_issue, State_resultP_mem, nextWf_next]

@[simp] theorem execCmpLeImm_wf (g : Guard) (pd : BitVec 5) (a : Src) (imm : BitVec 28) (s : State) (hwf : s.mem.wf = true) : NextWf (execCmpLeImm g pd a imm s) := by
  unfold execCmpLeImm
  grind -ring -linarith [nextWf_issue, State_resultP_mem, nextWf_next]

@[simp] theorem execCmpLtuImm_wf (g : Guard) (pd : BitVec 5) (a : Src) (imm : BitVec 28) (s : State) (hwf : s.mem.wf = true) : NextWf (execCmpLtuImm g pd a imm s) := by
  unfold execCmpLtuImm
  grind -ring -linarith [nextWf_issue, State_resultP_mem, nextWf_next]

@[simp] theorem execCmpLeuImm_wf (g : Guard) (pd : BitVec 5) (a : Src) (imm : BitVec 28) (s : State) (hwf : s.mem.wf = true) : NextWf (execCmpLeuImm g pd a imm s) := by
  unfold execCmpLeuImm
  grind -ring -linarith [nextWf_issue, State_resultP_mem, nextWf_next]

@[simp] theorem execPand_wf (g : Guard) (pd : BitVec 5) (pa : BitVec 5) (pb : BitVec 5) (s : State) (hwf : s.mem.wf = true) : NextWf (execPand g pd pa pb s) := by
  unfold execPand
  grind -ring -linarith [nextWf_issue, State_resultP_mem, nextWf_next]

@[simp] theorem execPor_wf (g : Guard) (pd : BitVec 5) (pa : BitVec 5) (pb : BitVec 5) (s : State) (hwf : s.mem.wf = true) : NextWf (execPor g pd pa pb s) := by
  unfold execPor
  grind -ring -linarith [nextWf_issue, State_resultP_mem, nextWf_next]

@[simp] theorem execPxor_wf (g : Guard) (pd : BitVec 5) (pa : BitVec 5) (pb : BitVec 5) (s : State) (hwf : s.mem.wf = true) : NextWf (execPxor g pd pa pb s) := by
  unfold execPxor
  grind -ring -linarith [nextWf_issue, State_resultP_mem, nextWf_next]

@[simp] theorem execPandn_wf (g : Guard) (pd : BitVec 5) (pa : BitVec 5) (pb : BitVec 5) (s : State) (hwf : s.mem.wf = true) : NextWf (execPandn g pd pa pb s) := by
  unfold execPandn
  grind -ring -linarith [nextWf_issue, State_resultP_mem, nextWf_next]

@[simp] theorem execMfp_wf (g : Guard) (d : BitVec 6) (s : State) (hwf : s.mem.wf = true) : NextWf (execMfp g d s) := by
  unfold execMfp
  grind -ring -linarith [nextWf_issue, State_result_mem, nextWf_next]

@[simp] theorem execMtp_wf (g : Guard) (a : Src) (s : State) (hwf : s.mem.wf = true) : NextWf (execMtp g a s) := by
  unfold execMtp
  grind -ring -linarith [State_retire_mem, State_upSc_mem, nextWf_issue, nextWf_next]

@[simp] theorem beginWait_wf (s : State) (key : ℕ) (c : ℕ) (ea : Word) (hwf : s.mem.wf = true) : (beginWait s key c ea).mem.wf = true := by
  unfold beginWait
  grind -ring -linarith [putObj_wf, flushAll_snd_wf, flushAll_pair_wf]

theorem whenReleased_wf {obj : Word} {key : Nat} {s : State} {body : State → State} (h : s.mem.wf = true)
    (hbody : ∀ t, t.mem.wf = true → (body t).mem.wf = true) : (whenReleased obj key s body).mem.wf = true := by
  unfold whenReleased
  grind -ring -linarith [noteRegions_mem, State_upSc_mem, beginWait_wf]

@[simp] theorem bumpRel_wf (s : State) (c : ℕ) (ea : Word) (key : ℕ) (hwf : s.mem.wf = true) : (bumpRel s c ea key).mem.wf = true := by
  simp [bumpRel, hwf]

@[simp] theorem putReleased_wf (s : State) (c : ℕ) (ea : Word) (key : ℕ) (holders : List (ℕ × Bool)) (hwf : s.mem.wf = true) : (putReleased s c ea key holders).mem.wf = true := by
  unfold putReleased
  grind -ring -linarith [putObj_wf, bumpRel_wf]

@[simp] theorem releaseHold_wf (s : State) (c : ℕ) (ea : Word) (key : ℕ) (task : ℕ) (hwf : s.mem.wf = true) : (releaseHold s c ea key task).mem.wf = true := by
  simp [releaseHold, hwf]

@[simp] theorem execRel_wf (g : Guard) (a : Src) (s : State) (hwf : s.mem.wf = true) : NextWf (execRel g a s) := by
  unfold execRel
  grind -ring -linarith [State_retire_mem, withObject_wf, nextWf_issue, whenReleased_wf, State_trap_wf, releaseHold_wf, nextWf_next]

@[simp] theorem execRelSet_wf (g : Guard) (a : Src) (b : Src) (s : State) (hwf : s.mem.wf = true) : NextWf (execRelSet g a b s) := by
  unfold execRelSet
  grind -ring -linarith [State_retire_mem, withObject_wf, putReleased_wf, nextWf_issue, homeWord_wf, whenReleased_wf, nextWf_next]

@[simp] theorem putConvBits_wf (s : State) (n : ℕ) (w : ℕ) (hi : ℕ) (lo : ℕ) (v : ℕ) (hwf : s.mem.wf = true) : (putConvBits s n w hi lo v).mem.wf = true := by
  simp [putConvBits, hwf]

@[simp] theorem endBind_wf (s : State) (n : ℕ) (r : ℕ) (hwf : s.mem.wf = true) : (endBind s n r).mem.wf = true := by
  simp [endBind, hwf]

@[simp] theorem endBinds_wf (s : State) (task : ℕ) (hwf : s.mem.wf = true) : (endBinds s task).mem.wf = true := by
  unfold endBinds
  grind -ring -linarith [endBind_wf, foldl_wf]

@[simp] theorem beginReleases_wf (s : State) (task : ℕ) (c : ℕ) (hwf : s.mem.wf = true) : (beginReleases s task c).mem.wf = true := by
  unfold beginReleases
  grind -ring -linarith [beginWait_wf, foldl_wf]

@[simp] theorem releaseAll_wf (s : State) (c : ℕ) (task : ℕ) (hwf : s.mem.wf = true) : (releaseAll s c task).mem.wf = true := by
  unfold releaseAll
  grind -ring -linarith [releaseHold_wf, foldl_wf]

@[simp] theorem endTask_wf (s : State) (hwf : s.mem.wf = true) : (endTask s).mem.wf = true := by
  unfold endTask
  grind -ring -linarith [State_upSc_mem, releaseAll_wf, endBinds_wf, finishTeam_mem, State_upTm_mem]

@[simp] theorem endHandler_wf (s : State) (hwf : s.mem.wf = true) : (endHandler s).mem.wf = true := by
  simp [endHandler, hwf]

@[simp] theorem endRoutine_wf (s : State) (hwf : s.mem.wf = true) : (endRoutine s).mem.wf = true := by
  simp [endRoutine, hwf]

@[simp] theorem execTaskEnd_wf (s : State) (hwf : s.mem.wf = true) : NextWf (execTaskEnd s) := by
  unfold execTaskEnd
  grind -ring -linarith [State_upSc_mem, beginReleases_wf, endRoutine_wf, endTask_wf, endHandler_wf, nextWf_next]

@[simp] theorem storeStatusWord_wf (s : State) (w : BitVec 512) (st : ℕ) (hwf : s.mem.wf = true) : (storeStatusWord s w st).mem.wf = true := by
  unfold storeStatusWord
  grind -ring -linarith [State_memFault_mem, globalWrite_ok_wf, globalWrite_err_wf]

@[simp] theorem completeItem_wf (s : State) (w : BitVec 512) (st : ℕ) (hwf : s.mem.wf = true) : (completeItem s w st).mem.wf = true := by
  unfold completeItem
  grind -ring -linarith [storeStatusWord_wf, increment_wf]

@[simp] theorem execWorkItemComplete_wf (k : ℕ) (s : State) (hwf : s.mem.wf = true) : NextWf (execWorkItemComplete k s) := by
  unfold execWorkItemComplete
  grind -ring -linarith [completeItem_wf, raiseEvent_some_wf, nextWf_next]

@[simp] theorem wake_wf (s : State) (run : List ℕ) (hwf : s.mem.wf = true) : (wake s run).mem.wf = true := by
  unfold wake
  grind -ring -linarith [State_put64_wf, foldl_wf]

@[simp] theorem popQueue_wf (s : State) (q : ℕ) (hwf : s.mem.wf = true) : (popQueue s q).mem.wf = true := by
  simp [popQueue, hwf]

@[simp] theorem claimCore_wf (s : State) (c : ℕ) (p : ℕ) (fresh : Bool) (hwf : s.mem.wf = true) : (claimCore s c p fresh).mem.wf = true := by
  unfold claimCore
  grind -ring -linarith [State_upCo_mem, noteUp_mem, zeroCore_wf]

theorem copyIn_ok_wf (s : State) (c : ℕ) (p : ℕ) (at' : ℕ) (ea : ℕ) (n : ℕ) (hwf : s.mem.wf = true) {u : State} (hr : copyIn s c p at' ea n = .ok u) : u.mem.wf = true := by
  unfold copyIn at hr
  grind -ring -linarith [State_putStore_wf, globalRead_wf]

theorem copyIn_err_wf (s : State) (c : ℕ) (p : ℕ) (at' : ℕ) (ea : ℕ) (n : ℕ) (hwf : s.mem.wf = true) {e : HomeFail} (hr : copyIn s c p at' ea n = .error e) : e.st.mem.wf = true := by
  unfold copyIn at hr
  grind -ring -linarith [State_putStore_wf, globalRead_wf]

theorem copyArgs_ok_wf {s : State} {c p args : Nat} {k : BitVec 1024} {u : State} (hwf : s.mem.wf = true) (hr : copyArgs s c p args k = .ok u) :
    u.mem.wf = true := by
  unfold copyArgs at hr
  split at hr
  · cases hr
  rename_i hin
  exact copyIn_ok_wf _ _ _ _ _ _ (copyIn_ok_wf _ _ _ _ _ _ hwf hin) hr

theorem copyArgs_err_wf {s : State} {c p args : Nat} {k : BitVec 1024} {e : HomeFail} (hwf : s.mem.wf = true)
    (hr : copyArgs s c p args k = .error e) : e.st.mem.wf = true := by
  unfold copyArgs at hr
  split at hr
  · rename_i hin
    cases hr
    exact copyIn_err_wf _ _ _ _ _ _ hwf hin
  rename_i hin
  exact copyIn_err_wf _ _ _ _ _ _ (copyIn_ok_wf _ _ _ _ _ _ hwf hin) hr

@[simp] theorem launchTask_wf (s : State) (tid : ℕ) (l : ℕ) (p : ℕ) (c : ℕ) (args : ℕ) (k : BitVec 1024) (hwf : s.mem.wf = true) : (launchTask s tid l p c args k).mem.wf = true := by
  unfold launchTask
  grind -ring -linarith [State_upCo_mem, takeCheckpoint_mem, copyArgs_ok_wf, copyArgs_err_wf, State_memFault_mem, State_putSc_mem, claimCore_wf]

@[simp] theorem launchTasks_wf (tid : ℕ) (c : ℕ) (args : ℕ) (k : BitVec 1024) (a1 : ℕ) (a2 : List ℕ) (a3 : State) (hwf : a3.mem.wf = true) : (launchTasks tid c args k a1 a2 a3).mem.wf = true := by
  induction a2 generalizing tid c args k a1 a3 with
  | nil => grind -ring -linarith [launchTasks]
  | cons y ys ih =>
    unfold launchTasks
    grind -ring -linarith [launchTask_wf]

@[simp] theorem launchTeams_wf (w : BitVec 512) (k : BitVec 1024) (q : ℕ) (caravan : Option ℕ) (a1 : ℕ) (a2 : List (ℕ × List ℕ)) (a3 : State) (hwf : a3.mem.wf = true) : (launchTeams w k q caravan a1 a2 a3).mem.wf = true := by
  induction a2 generalizing w k q caravan a1 a3 with
  | nil => grind -ring -linarith [launchTeams]
  | cons y ys ih =>
    unfold launchTeams
    grind -ring -linarith [State_putTm_mem, launchTasks_wf]

@[simp] theorem dispatchItem_wf (s : State) (run : List ℕ) (q : ℕ) (i : PoolItem) (pl : List (ℕ × List ℕ)) (hwf : s.mem.wf = true) : (dispatchItem s run q i pl).mem.wf = true := by
  unfold dispatchItem
  grind -ring -linarith [launchTeams_wf, popQueue_wf, yielded_mem, State_put64_wf]

@[simp] theorem discardHead_wf (s : State) (q : ℕ) (i : PoolItem) (st : ℕ) (hwf : s.mem.wf = true) : (discardHead s q i st).mem.wf = true := by
  simp [discardHead, hwf]

@[simp] theorem choose_wf (a1 : ℕ) (a2 : State) (hwf : a2.mem.wf = true) : (choose a1 a2).mem.wf = true := by
  induction a1 generalizing a2 with
  | zero => grind -ring -linarith [choose]
  | succ k ih =>
    unfold choose
    grind -ring -linarith [discardHead_wf, dispatchItem_wf, wake_wf]

@[simp] theorem execDispatch_wf (s : State) (hwf : s.mem.wf = true) : NextWf (execDispatch s) := by
  simp [execDispatch, hwf]

theorem putUnit_ok_wf {s : State} {c ea n : Nat} {cells : Memory} {u : State} (hwf : s.mem.wf = true) (hc : cells.wf = true)
    (hn : ∀ e ∈ cells, e.1 < n) (hr : putUnit s c ea n cells = .ok u) : u.mem.wf = true := by
  unfold putUnit at hr
  split at hr
  · cases hr
  rename_i k _
  dsimp only at hr
  split at hr
  · cases hr
  split at hr
  · cases hr
  cases hr
  refine foldl_memory_wf (fun m l hm => wrN_wf _ _ _ _ hm) (putCells_wf (by omega) ?_ (map_add_wf k hc) fun e he => ?_)
  · rw [noteRange_mem]
    repeat' split
    all_goals simp [hwf]
  · obtain ⟨a, ha, rfl⟩ := List.mem_map.mp he
    have := hn a ha
    dsimp only
    omega

theorem putUnit_err_wf {s : State} {c ea n : Nat} {cells : Memory} {e : HomeFail} (hwf : s.mem.wf = true)
    (hr : putUnit s c ea n cells = .error e) : e.st.mem.wf = true := by
  unfold putUnit at hr
  split at hr
  · cases hr
    rwa [noteXlat_mem]
  dsimp only at hr
  split at hr
  · cases hr
    rwa [noteRead_mem, noteXlat_mem]
  split at hr
  · cases hr
    rwa [noteRead_mem, noteXlat_mem]
  · cases hr

/-- The cells from an address on, moved to zero. -/
theorem restCells_wf {cells : Memory} (m : Nat) (hc : cells.wf = true) :
    Memory.wf ((cells.filter fun e => decide (m ≤ e.1)).map fun e => (e.1 - m, e.2)) = true := by
  refine map_key_wf (f := (· - m)) (filter_wf _ _ hc) fun a ha b hb hlt => ?_
  simp only [List.mem_filter, decide_eq_true_eq] at ha hb
  omega

theorem putRange_ok_wf {c k ea n : Nat} {cells : Memory} {s u : State} (hwf : s.mem.wf = true) (hc : cells.wf = true)
    (hr : putRange c k ea n cells s = .ok u) : u.mem.wf = true := by
  induction k generalizing ea n cells s with
  | zero =>
    cases hr
    exact hwf
  | succ k ih =>
    unfold putRange at hr
    dsimp only at hr
    split at hr
    · cases hr
      exact hwf
    split at hr
    · cases hr
    rename_i hu
    refine ih (putUnit_ok_wf hwf (filter_wf _ _ hc) (fun e he => ?_) hu) (restCells_wf _ hc) hr
    simpa using (List.mem_filter.mp he).2

theorem putRange_err_wf {c k ea n : Nat} {cells : Memory} {s : State} {e : HomeFail} (hwf : s.mem.wf = true) (hc : cells.wf = true)
    (hr : putRange c k ea n cells s = .error e) : e.st.mem.wf = true := by
  induction k generalizing ea n cells s with
  | zero => cases hr
  | succ k ih =>
    unfold putRange at hr
    dsimp only at hr
    split at hr
    · cases hr
    split at hr
    · rename_i hu
      cases hr
      exact putUnit_err_wf hwf hu
    rename_i hu
    refine ih (putUnit_ok_wf hwf (filter_wf _ _ hc) (fun e he => ?_) hu) (restCells_wf _ hc) hr
    simpa using (List.mem_filter.mp he).2

theorem putRegions_ok_wf {c at' : Nat} {rs : List (Nat × Nat × Memory)} {s u : State} (hwf : s.mem.wf = true) (hrs : ∀ r ∈ rs, r.2.2.wf = true)
    (hr : putRegions c at' rs s = .ok u) : u.mem.wf = true := by
  induction rs generalizing s with
  | nil =>
    cases hr
    exact hwf
  | cons r rs ih =>
    unfold putRegions at hr
    obtain ⟨hfirst, hrest⟩ := List.forall_mem_cons.mp hrs
    split at hr
    · cases hr
    rename_i hu
    exact ih (putRange_ok_wf hwf hfirst hu) hrest hr

theorem putRegions_err_wf {c at' : Nat} {rs : List (Nat × Nat × Memory)} {s : State} {e : HomeFail} (hwf : s.mem.wf = true)
    (hrs : ∀ r ∈ rs, r.2.2.wf = true) (hr : putRegions c at' rs s = .error e) : e.st.mem.wf = true := by
  induction rs generalizing s with
  | nil => cases hr
  | cons r rs ih =>
    unfold putRegions at hr
    obtain ⟨hfirst, hrest⟩ := List.forall_mem_cons.mp hrs
    split at hr
    · rename_i hu
      cases hr
      exact putRange_err_wf hwf hfirst hu
    rename_i hu
    exact ih (putRange_ok_wf hwf hfirst hu) hrest hr

theorem imageParts_wf {s : State} (p lcore : Nat) (l : Live) (hwf : s.mem.wf = true) :
    ∀ r ∈ imageRegions s p lcore l ++ imageScratch s p l, r.2.2.wf = true :=
  List.forall_mem_append.mpr ⟨imageRegions_wf s p lcore l, fun _ hr => imageScratch_wf hwf hr⟩

theorem saveTask_ok_wf (s : State) (p lcore k : Nat) (hwf : s.mem.wf = true) {u : State} (hr : saveTask s p lcore k = .ok u) : u.mem.wf = true := by
  unfold saveTask at hr
  dsimp only at hr
  split at hr
  · cases hr
  rename_i hput
  have ht := putRegions_ok_wf (by rwa [spFixSpans_mem]) (imageParts_wf p lcore _ (by rwa [spFixSpans_mem])) hput
  exact globalWrite_ok_wf _ _ _ _ _ _ _ ht hr

theorem saveTask_err_wf (s : State) (p lcore k : Nat) (hwf : s.mem.wf = true) {e : HomeFail} (hr : saveTask s p lcore k = .error e) :
    e.st.mem.wf = true := by
  unfold saveTask at hr
  dsimp only at hr
  split at hr
  · rename_i hput
    cases hr
    exact putRegions_err_wf (by rwa [spFixSpans_mem]) (imageParts_wf p lcore _ (by rwa [spFixSpans_mem])) hput
  rename_i hput
  have ht := putRegions_ok_wf (by rwa [spFixSpans_mem]) (imageParts_wf p lcore _ (by rwa [spFixSpans_mem])) hput
  exact globalWrite_err_wf _ _ _ _ _ _ _ ht hr

@[simp] theorem execPreemptLimitExpire_wf (s : State) (hwf : s.mem.wf = true) : NextWf (execPreemptLimitExpire s) := by
  unfold execPreemptLimitExpire
  grind -ring -linarith [State_stopCores_wf, nextWf_next]

@[simp] theorem discardGroup_wf (s : State) (g : List ℕ) (hwf : s.mem.wf = true) : (discardGroup s g).mem.wf = true := by
  unfold discardGroup
  grind -ring -linarith [unbindTrees_mem, endBinds_wf, freeCore_mem, foldl_wf]

theorem saveTasks_ok_wf (a1 : List (ℕ × ℕ)) (a2 : List ℕ) (a3 : State) (hwf : a3.mem.wf = true) {u : State} (hr : saveTasks a1 a2 a3 = .ok u) : u.mem.wf = true := by
  induction a1 generalizing a2 a3 u with
  | nil => grind -ring -linarith [saveTasks]
  | cons y ys ih =>
    unfold saveTasks at hr
    grind -ring -linarith [imageParts_wf, saveTask_ok_wf, saveTask_err_wf]

theorem saveTasks_err_wf (a1 : List (ℕ × ℕ)) (a2 : List ℕ) (a3 : State) (hwf : a3.mem.wf = true) {e : HomeFail} (hr : saveTasks a1 a2 a3 = .error e) : e.st.mem.wf = true := by
  induction a1 generalizing a2 a3 e with
  | nil => grind -ring -linarith [saveTasks]
  | cons y ys ih =>
    unfold saveTasks at hr
    grind -ring -linarith [imageParts_wf, saveTask_ok_wf, saveTask_err_wf]

theorem saveGroup_ok_wf (c : ℕ) (a1 : List ℕ) (a2 : State) (hwf : a2.mem.wf = true) {u : State} (hr : saveGroup c a1 a2 = .ok u) : u.mem.wf = true := by
  induction a1 generalizing c a2 u with
  | nil => grind -ring -linarith [saveGroup]
  | cons y ys ih =>
    unfold saveGroup at hr
    grind -ring -linarith [sleepTeam_mem, saveTasks_ok_wf, saveTasks_err_wf, suspendTrees_wf]

theorem saveGroup_err_wf (c : ℕ) (a1 : List ℕ) (a2 : State) (hwf : a2.mem.wf = true) {e : HomeFail} (hr : saveGroup c a1 a2 = .error e) : e.st.mem.wf = true := by
  induction a1 generalizing c a2 e with
  | nil => grind -ring -linarith [saveGroup]
  | cons y ys ih =>
    unfold saveGroup at hr
    grind -ring -linarith [sleepTeam_mem, saveTasks_ok_wf, saveTasks_err_wf, suspendTrees_wf]

@[simp] theorem execTeamSave_wf (s : State) (hwf : s.mem.wf = true) : NextWf (execTeamSave s) := by
  unfold execTeamSave
  rw [nextWf_next]
  extract_lets g ts c
  clear_value c
  split
  · exact hwf
  split
  · exact hwf
  split
  · exact foldl_wf (fun s t h => by simpa using h) hwf
  split
  · exact hwf
  split
  · simp [hwf]
  split
  · simp [hwf]
  refine ite_wf (ite_wf (by simp [hwf]) hwf) ?_
  split
  · rename_i h
    exact saveGroup_ok_wf _ _ _ hwf h
  · rename_i h
    have ht := saveGroup_err_wf _ _ _ hwf h
    simpa using ht

theorem restoreScratch_wf {s : State} {p : Nat} {m : Memory} (spans : List (Nat × Nat)) (n0 : Nat) (hwf : s.mem.wf = true) (hm : m.wf = true) :
    (restoreScratch s p m spans n0).mem.wf = true := by
  unfold restoreScratch
  extract_lets named t
  have hnamed : Memory.wf named = true := by
    refine map_key_wf (f := fun k => k - 0x10_0000 + spKey p 0) (filter_wf _ _ hm) fun a ha b hb hlt => ?_
    simp only [List.mem_filter, Bool.and_eq_true, decide_eq_true_eq] at ha hb
    omega
  have hin : ∀ e ∈ named, spKey p 0 ≤ e.1 ∧ e.1 < spKey p 0x40_0000 := fun e he => by
    obtain ⟨a, ha, rfl⟩ := List.mem_map.mp he
    simp only [List.mem_filter, Bool.and_eq_true, decide_eq_true_eq] at ha
    simp only [spKey]
    omega
  generalize List.range 65536 = bs
  refine foldl_memory_wf (fun m b h => ?_) (putCells_wf (by simp only [spKey]; omega) hwf hnamed hin)
  split
  · exact h
  · exact wrN_wf _ _ _ _ h

theorem restoreTask_wf (s : State) (tid c p : Nat) (k : Kept) {m : Memory} (hwf : s.mem.wf = true) (hm : m.wf = true) :
    (restoreTask s tid c p k m).mem.wf = true := by
  have hs spans n0 := restoreScratch_wf (s := claimCore s c p true) (p := p) spans n0 (claimCore_wf _ _ _ _ hwf) hm
  unfold restoreTask
  grind -ring -linarith [State_putSc_mem, State_putCo_mem, State_putQd_mem]

theorem wakeTeam_wf (s : State) (tid d : Nat) (ps : List Nat) {imgs : List (Kept × Memory)} (hwf : s.mem.wf = true)
    (himgs : ∀ e ∈ imgs, e.2.wf = true) : (wakeTeam s tid d ps imgs).mem.wf = true := by
  unfold wakeTeam
  split
  · exact hwf
  rename_i t _
  refine foldl_mem_wf (fun s e he h => ?_) (foldl_wf (fun s l h => ?_) (by simpa using hwf))
  · split
    · exact restoreTask_wf _ _ _ _ _ h (himgs e he)
    · exact h
  · split
    · simp [h]
    · exact h

theorem wakeTeams_wf {ts : List Nat} {ds : List (Nat × List Nat)} {is : List (List (Kept × Memory))} {s : State} (hwf : s.mem.wf = true)
    (his : ∀ i ∈ is, ∀ e ∈ i, e.2.wf = true) : (wakeTeams ts ds is s).mem.wf = true := by
  induction ts generalizing ds is s with
  | nil => exact hwf
  | cons t ts ih =>
    match ds, is with
    | [], _ => exact hwf
    | _ :: _, [] => exact hwf
    | d :: ds, i :: is =>
      obtain ⟨hi, his⟩ := List.forall_mem_cons.mp his
      exact ih (wakeTeam_wf _ _ _ _ hwf hi) his

@[simp] theorem execTeamRestore_wf (s : State) (hwf : s.mem.wf = true) : NextWf (execTeamRestore s) := by
  unfold execTeamRestore
  rw [nextWf_next]
  extract_lets g ts
  split
  · exact hwf
  split
  · simp [hwf]
  split
  · exact hwf
  split
  · rename_i h
    simpa using groupImages_error hwf h
  · rename_i h
    obtain ⟨his, ht⟩ := groupImages_ok hwf h
    split
    · exact wakeTeams_wf ht his
    · exact ht

@[simp] theorem execTeamMove_wf (d : ℕ) (s : State) (hwf : s.mem.wf = true) : NextWf (execTeamMove d s) := by
  unfold execTeamMove
  grind -ring -linarith [State_upTm_mem, foldl_wf, nextWf_next]

@[simp] theorem convSend_wf (s : State) (c : ℕ) (conn : ℕ) (op : ℕ) (obj : ℕ) (tag : Word) (roff : Word) (len : ℕ) (v : ℕ) (hwf : s.mem.wf = true) : (convSend s c conn op obj tag roff len v).mem.wf = true := by
  unfold convSend
  grind -ring -linarith [sendMessage_snd_wf, sendMessage_pair_wf]

@[simp] theorem placeAt_wf (s : State) (b : Bind) (a : ℕ) (m : Placement) (hwf : s.mem.wf = true) : (placeAt s b a m).mem.wf = true := by
  unfold placeAt
  grind -ring -linarith [State_upCo_mem, State_putStore_wf]

@[simp] theorem placeAll_wf (n : ℕ) (want : ℕ → Bool) (a1 : ℕ) (a2 : State) (hwf : a2.mem.wf = true) : (placeAll n want a1 a2).mem.wf = true := by
  induction a1 generalizing n want a2 with
  | zero => grind -ring -linarith [placeAll]
  | succ k ih =>
    unfold placeAll
    grind -ring -linarith [placeAt_wf]

@[simp] theorem execConvPlacement_wf (s : State) (hwf : s.mem.wf = true) : NextWf (execConvPlacement s) := by
  simp [execConvPlacement, hwf]

@[simp] theorem sendVerdict_wf (s : State) (a : ℕ) (n : ℕ) (later : Bool) (reg : BitVec 6) (ms : Option ℕ) (code : ℕ) (hwf : s.mem.wf = true) : (sendVerdict s a n later reg ms code).mem.wf = true := by
  unfold sendVerdict
  grind -ring -linarith [State_retire_mem, asAgent_wf, incMs_mem, fillVerdict_mem, State_trap_wf]

@[simp] theorem bindRole_wf (s : State) (a : ℕ) (n : ℕ) (b : Bind) (hwf : s.mem.wf = true) : (bindRole s a n b).mem.wf = true := by
  simp [bindRole, hwf]

@[simp] theorem routeMessage_wf (s : State) (n : ℕ) (rcv : ℕ) (word : Word) (len : ℕ) (v : ℕ) (hwf : s.mem.wf = true) : (routeMessage s n rcv word len v).mem.wf = true := by
  unfold routeMessage
  grind -ring -linarith [convSend_wf]

@[simp] theorem advanceConv_wf (s : State) (n : ℕ) (t : ℕ) (len : ℕ) (v : ℕ) (hwf : s.mem.wf = true) : (advanceConv s n t len v).mem.wf = true := by
  unfold advanceConv
  grind -ring -linarith [putConvBits_wf, routeMessage_wf, State_put64_wf]

@[simp] theorem judgeSend_snd_wf (s : State) (c : ℕ) (n : ℕ) (role : ℕ) (kind : ℕ) (may : Bool) (len : ℕ) (v : ℕ) (hwf : s.mem.wf = true) : (judgeSend s c n role kind may len v).2.mem.wf = true := by
  unfold judgeSend
  grind -ring -linarith [advanceConv_wf]

theorem judgeSend_pair_wf (s : State) (c : ℕ) (n : ℕ) (role : ℕ) (kind : ℕ) (may : Bool) (len : ℕ) (v : ℕ) (hwf : s.mem.wf = true) {ra : ℕ} {u : State} (hr : judgeSend s c n role kind may len v = (ra, u)) : u.mem.wf = true := by
  unfold judgeSend at hr
  grind -ring -linarith [advanceConv_wf]

@[simp] theorem handOver_wf (s : State) (n : ℕ) (role : ℕ) (queue : ℕ) (len : ℕ) (v : ℕ) (hwf : s.mem.wf = true) : (handOver s n role queue len v).mem.wf = true := by
  unfold handOver
  grind -ring -linarith [putConvBits_wf, endBind_wf]

@[simp] theorem judgeDeleg_snd_wf (s : State) (c : ℕ) (n : ℕ) (role : ℕ) (queue : ℕ) (may : Bool) (remote : Bool) (len : ℕ) (v : ℕ) (hwf : s.mem.wf = true) : (judgeDeleg s c n role queue may remote len v).2.mem.wf = true := by
  unfold judgeDeleg
  grind -ring -linarith [putConvBits_wf, handOver_wf]

theorem judgeDeleg_pair_wf (s : State) (c : ℕ) (n : ℕ) (role : ℕ) (queue : ℕ) (may : Bool) (remote : Bool) (len : ℕ) (v : ℕ) (hwf : s.mem.wf = true) {ra : ℕ} {u : State} (hr : judgeDeleg s c n role queue may remote len v = (ra, u)) : u.mem.wf = true := by
  unfold judgeDeleg at hr
  grind -ring -linarith [putConvBits_wf, handOver_wf]

@[simp] theorem sendBack_wf (s : State) (i : ConvIn) (n : ℕ) (code : ℕ) (hwf : s.mem.wf = true) : (sendBack s i n code).mem.wf = true := by
  simp [sendBack, hwf]

@[simp] theorem abortColl_wf (s : State) (c : ℕ) (i : ℕ) (survive : Bool) (hwf : s.mem.wf = true) : (abortColl s c i survive).mem.wf = true := by
  unfold abortColl
  grind -ring -linarith [endConn_wf, queueFlag_wf, dropArrivals_mem, State_put64_wf, foldl_wf]

@[simp] theorem abortColls_wf (s : State) (n : ℕ) (survive : Bool) (hwf : s.mem.wf = true) : (abortColls s n survive).mem.wf = true := by
  unfold abortColls
  grind -ring -linarith [abortColl_wf, settleFlags_wf, foldl_wf]

@[simp] theorem failRequests_wf (s : State) (n : ℕ) (lost : ℕ) (want : Verdict → Bool) (hwf : s.mem.wf = true) : (failRequests s n lost want).mem.wf = true := by
  unfold failRequests
  grind -ring -linarith [asAgent_wf, State_result_mem, State_putSc_mem, sendVerdict_wf, foldl_wf]

@[simp] theorem abortHere_wf (s : State) (n : ℕ) (lost : ℕ) (survive : Bool) (hwf : s.mem.wf = true) : (abortHere s n lost survive).mem.wf = true := by
  unfold abortHere
  grind -ring -linarith [bindErr_mem, putConvBits_wf, abortColls_wf, placeAll_wf, foldl_wf]

@[simp] theorem abortConv_wf (s : State) (n : ℕ) (lost : ℕ) (survive : Bool) (hwf : s.mem.wf = true) : (abortConv s n lost survive).mem.wf = true := by
  unfold abortConv
  grind -ring -linarith [abortHere_wf, convSend_wf, foldl_wf]

@[simp] theorem abortProxy_wf (s : State) (n : ℕ) (lost : ℕ) (survive : Bool) (hwf : s.mem.wf = true) : (abortProxy s n lost survive).mem.wf = true := by
  unfold abortProxy
  grind -ring -linarith [abortHere_wf, failRequests_wf]

@[simp] theorem proxyShows_wf (s : State) (n : ℕ) (cur : ℕ) (seq : ℕ) (closed : Bool) (hwf : s.mem.wf = true) : (proxyShows s n cur seq closed).mem.wf = true := by
  unfold proxyShows
  grind -ring -linarith [putConvBits_wf]

@[simp] theorem takeVerdict_wf (s : State) (n : ℕ) (c : ℕ) (conn : ℕ) (p : Packet) (hwf : s.mem.wf = true) : (takeVerdict s n c conn p).mem.wf = true := by
  unfold takeVerdict
  grind -ring -linarith [clearRole_mem, asAgent_wf, bindRole_wf, State_result_mem, handOver_wf, State_putSc_mem, sendVerdict_wf, proxyShows_wf]

theorem applyItem_some_wf (s : State) (n : ℕ) (i : ConvIn) (hwf : s.mem.wf = true) {u : State} (hr : applyItem s n i = some u) : u.mem.wf = true := by
  unfold applyItem at hr
  grind -ring -linarith [judgeSend_snd_wf, judgeSend_pair_wf, clearRole_mem, judgeDeleg_snd_wf, judgeDeleg_pair_wf, takeVerdict_wf, sendBack_wf, sendVerdict_wf, proxyShows_wf, abortProxy_wf]

@[simp] theorem execCsendVerdict_wf (s : State) (hwf : s.mem.wf = true) : NextWf (execCsendVerdict s) := by
  have ht : (dropBroken s).mem.wf = true := by simp [hwf]
  unfold execCsendVerdict
  rw [nextWf_next]
  extract_lets t
  have ht : t.mem.wf = true := ht
  clear_value t
  split
  · exact ht
  split
  · exact ht
  split
  · rename_i h
    exact applyItem_some_wf _ _ _ (by exact ht) h
  · exact ht

@[simp] theorem failGone_wf (s : State) (n : ℕ) (hwf : s.mem.wf = true) : (failGone s n).mem.wf = true := by
  simp [failGone, hwf]

@[simp] theorem execPartyLost_wf (s : State) (hwf : s.mem.wf = true) : NextWf (execPartyLost s) := by
  unfold execPartyLost
  grind -ring -linarith [dropBroken_mem, failGone_wf, abortConv_wf, abortProxy_wf, nextWf_next]

@[simp] theorem toHome_wf (s : State) (op : ℕ) (n : ℕ) (tag : Word) (len : ℕ) (v : ℕ) (r : Verdict) (hwf : s.mem.wf = true) : (toHome s op n tag len v r).mem.wf = true := by
  unfold toHome
  grind -ring -linarith [State_upSc_mem, convSend_wf]

@[simp] theorem csendGo_wf (later : Option (BitVec 6)) (w : ℕ → ℕ) (v : ℕ) (s : State) (hwf : s.mem.wf = true) : (csendGo later w v s).mem.wf = true := by
  unfold csendGo
  grind -ring -linarith [afterSend_mem, State_result_mem, toHome_wf, State_trap_wf]

@[simp] theorem csendBody_wf (later : Option (BitVec 6)) (ea : Word) (s : State) (hwf : s.mem.wf = true) : (csendBody later ea s).mem.wf = true := by
  unfold csendBody
  grind -ring -linarith [withDesc_wf, State_result_mem, csendGo_wf, whenDrained_wf, State_trap_wf, withLocal_wf]

@[simp] theorem execCsend_wf (g : Guard) (a : Src) (off : BitVec 22) (s : State) (hwf : s.mem.wf = true) : NextWf (execCsend g a off s) := by
  unfold execCsend
  grind -ring -linarith [nextWf_issue, csendBody_wf, nextWf_next]

@[simp] theorem execCsendA_wf (g : Guard) (d : BitVec 6) (a : Src) (off : BitVec 22) (s : State) (hwf : s.mem.wf = true) : NextWf (execCsendA g d a off s) := by
  unfold execCsendA
  grind -ring -linarith [nextWf_issue, csendBody_wf, nextWf_next]

@[simp] theorem claimGo_wf (d : BitVec 6) (w : ℕ → ℕ) (slot : ℕ) (s : State) (hwf : s.mem.wf = true) : (claimGo d w slot s).mem.wf = true := by
  unfold claimGo
  grind -ring -linarith [bindRole_wf, State_wait_mem, State_result_mem, toHome_wf]

@[simp] theorem croleBody_wf (d : BitVec 6) (ea : Word) (b : Word) (s : State) (hwf : s.mem.wf = true) : (croleBody d ea b s).mem.wf = true := by
  unfold croleBody
  grind -ring -linarith [withDesc_wf, claimGo_wf, whenDrained_wf, State_trap_wf]

@[simp] theorem execCrole_wf (g : Guard) (d : BitVec 6) (a : Src) (b : Src) (off : BitVec 22) (s : State) (hwf : s.mem.wf = true) : NextWf (execCrole g d a b off s) := by
  unfold execCrole
  grind -ring -linarith [nextWf_issue, croleBody_wf, nextWf_next]

@[simp] theorem delegGo_wf (w : ℕ → ℕ) (slot : ℕ) (v : ℕ) (s : State) (hwf : s.mem.wf = true) : (delegGo w slot v s).mem.wf = true := by
  unfold delegGo
  grind -ring -linarith [State_wait_mem, toHome_wf, State_trap_wf]

@[simp] theorem cdelegBody_wf (ea : Word) (b : Word) (s : State) (hwf : s.mem.wf = true) : (cdelegBody ea b s).mem.wf = true := by
  unfold cdelegBody
  grind -ring -linarith [withDesc_wf, delegGo_wf, whenDrained_wf, State_trap_wf, withLocal_wf]

@[simp] theorem execCdeleg_wf (g : Guard) (a : Src) (b : Src) (off : BitVec 22) (s : State) (hwf : s.mem.wf = true) : NextWf (execCdeleg g a b off s) := by
  unfold execCdeleg
  grind -ring -linarith [nextWf_issue, cdelegBody_wf, nextWf_next]

@[simp] theorem execItineraryLoad_wf (s : State) (hwf : s.mem.wf = true) : NextWf (execItineraryLoad s) := by
  unfold execItineraryLoad
  grind -ring -linarith [takeAct_wf, State_put64_wf, nextWf_next]

@[simp] theorem execConversationOpen_wf (s : State) (hwf : s.mem.wf = true) : NextWf (execConversationOpen s) := by
  unfold execConversationOpen
  grind -ring -linarith [putConv_mem, takeCommand_wf, State_put64_wf, nextWf_next]

@[simp] theorem execConversationKill_wf (s : State) (hwf : s.mem.wf = true) : NextWf (execConversationKill s) := by
  unfold execConversationKill
  grind -ring -linarith [takeCommand_wf, convSend_wf, abortConv_wf, nextWf_next]

@[simp] theorem execConversationFree_wf (s : State) (hwf : s.mem.wf = true) : NextWf (execConversationFree s) := by
  unfold execConversationFree
  grind -ring -linarith [putConv_mem, takeCommand_wf, State_put64_wf, State_zeroKeys_wf, nextWf_next]

@[simp] theorem execCollectiveArm_wf (s : State) (hwf : s.mem.wf = true) : NextWf (execCollectiveArm s) := by
  unfold execCollectiveArm
  grind -ring -linarith [takeAct_wf, State_put64_wf, nextWf_next]

@[simp] theorem putCtxHead_wf (s : State) (c : ℕ) (st : ℕ) (bad : ℕ) (kcause : ℕ) (hwf : s.mem.wf = true) : (putCtxHead s c st bad kcause).mem.wf = true := by
  simp [putCtxHead, hwf]

@[simp] theorem createBad_wf (s : State) (c : ℕ) (hwf : s.mem.wf = true) : (createBad s c).mem.wf = true := by
  simp [createBad, hwf]

theorem resList_wf {s t : State} {c : Nat} {ps : List Nat} (hwf : s.mem.wf = true) (hr : resList s c = some (ps, t)) : t.mem.wf = true := by
  unfold resList at hr
  dsimp only at hr
  split at hr
  · cases hr
    exact hwf
  split at hr
  · cases hr
  rename_i h
  have hu := globalRead_wf h hwf
  simp only [Option.ite_none_left_eq_some, Option.some.injEq, Prod.mk.injEq] at hr
  rwa [← hr.2.2]

theorem newContext_wf {s : State} (c : Nat) (x : CtxRun) (as : List Act) (h : s.mem.wf = true) :
    ((putCtxHead { s with acts := as } c 1 0 0).putCx c x).mem.wf = true := by
  rw [State_putCx_mem]
  exact putCtxHead_wf _ _ _ _ _ h

@[simp] theorem execContextCreate_wf (s : State) (hwf : s.mem.wf = true) : NextWf (execContextCreate s) := by
  unfold execContextCreate
  rw [nextWf_next]
  split
  · exact hwf
  rename_i c t h
  have ht := takeAct_wf h hwf
  split
  · exact ht
  split
  · exact createBad_wf _ _ ht
  split
  · exact createBad_wf _ _ ht
  rename_i hres
  have hu := resList_wf ht hres
  extract_lets v w
  have hv : v.mem.wf = true := foldl_wf (fun s p h => by simp [h]) hu
  clear_value v
  split
  · exact newContext_wf _ _ _ (State_zeroKeys_wf _ _ _ hv)
  · exact createBad_wf _ _ hu

@[simp] theorem stopUnits_wf (s : State) (c : ℕ) (hwf : s.mem.wf = true) : (stopUnits s c).mem.wf = true := by
  unfold stopUnits
  grind -ring -linarith [State_stopCores_wf, State_putSc_mem, withdraw_of_not_waiting, withdraw_wf, foldl_wf]

@[simp] theorem raiseLine_wf (s : State) (c : ℕ) (f : FaultRec) (pending : List FaultRec) (hwf : s.mem.wf = true) : (raiseLine s c f pending).mem.wf = true := by
  simp [raiseLine, hwf]

@[simp] theorem execContextFault_wf (s : State) (hwf : s.mem.wf = true) : NextWf (execContextFault s) := by
  unfold execContextFault
  grind -ring -linarith [raiseLine_wf, lateFaults_mem, nextWf_next]

theorem writeRecs_some_wf (c : ℕ) (x : CtxRun) (a1 : ℕ) (a2 : List FaultRec) (a3 : State) (hwf : a3.mem.wf = true) {u : State} (hr : writeRecs c x a1 a2 a3 = some u) : u.mem.wf = true := by
  induction a2 generalizing c x a1 a3 u with
  | nil => grind -ring -linarith [writeRecs]
  | cons y ys ih =>
    unfold writeRecs at hr
    grind -ring -linarith [globalWrite_ok_wf, globalWrite_err_wf]

theorem writeReport_some_wf {s : State} {c : Nat} {u : State} (hwf : s.mem.wf = true) (hr : writeReport s c = some u) : u.mem.wf = true := by
  unfold writeReport at hr
  dsimp only at hr
  split at hr
  · cases hr
  rename_i hrecs
  have ht := writeRecs_some_wf _ _ _ _ _ hwf hrecs
  split at hr
  · rename_i hw
    cases hr
    exact globalWrite_ok_wf _ _ _ _ _ _ _ ht hw
  · cases hr

@[simp] theorem execHaltReport_wf (s : State) (h : s.mem.wf = true) : NextWf (execHaltReport s) := by
  unfold execHaltReport
  rw [nextWf_next]
  dsimp only
  split
  · exact h
  rw [bumpFms_mem, State_putCx_mem]
  cases hr : writeReport s s.cur with
  | none => exact h
  | some t => exact writeReport_some_wf h hr

@[simp] theorem execTaskWatchdog_wf (s : State) (hwf : s.mem.wf = true) : NextWf (execTaskWatchdog s) := by
  unfold execTaskWatchdog
  grind -ring -linarith [State_upSc_mem, watchdogFault_mem, withdraw_of_not_waiting, withdraw_wf, nextWf_next]

@[simp] theorem execSaveWatchdog_wf (s : State) (hwf : s.mem.wf = true) : NextWf (execSaveWatchdog s) := by
  unfold execSaveWatchdog
  grind -ring -linarith [asAgent_wf, State_scalarFault_mem, nextWf_next]

@[simp] theorem tellLost_wf (s : State) (n : ℕ) (hwf : s.mem.wf = true) : (tellLost s n).mem.wf = true := by
  unfold tellLost
  grind -ring -linarith [convSend_wf, foldl_wf]

@[simp] theorem killConvs_wf (s : State) (c : ℕ) (hwf : s.mem.wf = true) : (killConvs s c).mem.wf = true := by
  unfold killConvs
  grind -ring -linarith [abortConv_wf, tellLost_wf, foldl_wf]

@[simp] theorem closeConns_wf (s : State) (c : ℕ) (hwf : s.mem.wf = true) : (closeConns s c).mem.wf = true := by
  unfold closeConns
  grind -ring -linarith [setConnState_wf, failReads_wf, foldl_wf]

@[simp] theorem dropWork_wf (s : State) (c : ℕ) (hwf : s.mem.wf = true) : (dropWork s c).mem.wf = true := by
  unfold dropWork
  grind -ring -linarith [syncDepth_wf, State_keepHeld_mem, dropArrivals_mem, State_putCx_mem, foldl_wf]

@[simp] theorem execContextKill_wf (s : State) (hwf : s.mem.wf = true) : NextWf (execContextKill s) := by
  unfold execContextKill
  grind -ring -linarith [dropWork_wf, takeAct_wf, ctxCause_mem, closeConns_wf, setCtxState_wf, killConvs_wf, State_putCx_mem, nextWf_next]

@[simp] theorem wipe_wf (s : State) (lo : ℕ) (hi : ℕ) (hwf : s.mem.wf = true) : (wipe s lo hi).mem.wf = true := by
  simp [wipe, hwf]

@[simp] theorem wipeDie_wf (c : ℕ) (s : State) (d : ℕ) (hwf : s.mem.wf = true) : (wipeDie c s d).mem.wf = true := by
  unfold wipeDie
  grind -ring -linarith [wipe_wf, shootDie_mem, State_put64_wf, foldl_wf]

@[simp] theorem wipeTables_wf (s : State) (c : ℕ) (hwf : s.mem.wf = true) : (wipeTables s c).mem.wf = true := by
  unfold wipeTables
  grind -ring -linarith [wipe_wf, setConnState_wf, foldl_wf]

@[simp] theorem wipeUnits_wf (s : State) (c : ℕ) (hwf : s.mem.wf = true) : (wipeUnits s c).mem.wf = true := by
  unfold wipeUnits
  grind -ring -linarith [State_upCo_mem, State_zeroStore_wf, State_putSc_mem, zeroCore_wf, foldl_wf]

@[simp] theorem execContextZeroing_wf (s : State) (hwf : s.mem.wf = true) : NextWf (execContextZeroing s) := by
  unfold execContextZeroing
  grind -ring -linarith [wipeUnits_wf, bumpFms_mem, wipeTables_wf, setCtxState_wf, State_put64_wf, wipeDie_wf, State_putCx_mem, putCtxHead_wf, foldl_wf, nextWf_next]

@[simp] theorem execCopy_wf (r : Rec) (s : State) (hwf : s.mem.wf = true) : NextWf (execCopy r s) := by
  simp [execCopy, hwf]

@[simp] theorem execFill_wf (r : Rec) (s : State) (hwf : s.mem.wf = true) : NextWf (execFill r s) := by
  simp [execFill, hwf]

@[simp] theorem execPut_wf (r : Rec) (s : State) (hwf : s.mem.wf = true) : NextWf (execPut r s) := by
  simp [execPut, hwf]

@[simp] theorem execGet_wf (r : Rec) (s : State) (hwf : s.mem.wf = true) : NextWf (execGet r s) := by
  simp [execGet, hwf]

@[simp] theorem execPutred_wf (r : Rec) (s : State) (hwf : s.mem.wf = true) : NextWf (execPutred r s) := by
  simp [execPutred, hwf]

@[simp] theorem execMcast_wf (r : Rec) (s : State) (hwf : s.mem.wf = true) : NextWf (execMcast r s) := by
  simp [execMcast, hwf]

@[simp] theorem execAput_wf (r : Rec) (s : State) (hwf : s.mem.wf = true) : NextWf (execAput r s) := by
  simp [execAput, hwf]

@[simp] theorem execSempost_wf (r : Rec) (s : State) (hwf : s.mem.wf = true) : NextWf (execSempost r s) := by
  simp [execSempost, hwf]

@[simp] theorem execNsend_wf (r : Rec) (s : State) (hwf : s.mem.wf = true) : NextWf (execNsend r s) := by
  simp [execNsend, hwf]

@[simp] theorem execNwrite_wf (r : Rec) (s : State) (hwf : s.mem.wf = true) : NextWf (execNwrite r s) := by
  simp [execNwrite, hwf]

@[simp] theorem execNread_wf (r : Rec) (s : State) (hwf : s.mem.wf = true) : NextWf (execNread r s) := by
  simp [execNread, hwf]

@[simp] theorem execNflush_wf (r : Rec) (s : State) (hwf : s.mem.wf = true) : NextWf (execNflush r s) := by
  simp [execNflush, hwf]

@[simp] theorem pushBody_wf (q : BitVec 2) (pd : BitVec 5) (w : BitVec 512) (tval : Word) (s : State) (hwf : s.mem.wf = true) : (pushBody q pd w tval s).mem.wf = true := by
  unfold pushBody
  grind -ring -linarith [acceptRecord_wf, State_resultP_mem, State_trap_wf]

@[simp] theorem execPush_wf (g : Guard) (pd : BitVec 5) (a : Src) (q : BitVec 2) (s : State) (hwf : s.mem.wf = true) : NextWf (execPush g pd a q s) := by
  unfold execPush
  grind -ring -linarith [nextWf_issueCore, pushBody_wf, nextWf_next]

@[simp] theorem pushmBody_wf (q : BitVec 2) (pd : BitVec 5) (ea : Word) (s : State) (hwf : s.mem.wf = true) : (pushmBody q pd ea s).mem.wf = true := by
  unfold pushmBody
  grind -ring -linarith [State_ctxFault_wf, spFix_mem, pushBody_wf, consume_wf, State_trap_wf]

@[simp] theorem execPushm_wf (g : Guard) (pd : BitVec 5) (a : Src) (q : BitVec 2) (off : BitVec 22) (s : State) (hwf : s.mem.wf = true) : NextWf (execPushm g pd a q off s) := by
  unfold execPushm
  grind -ring -linarith [nextWf_issueCore, pushmBody_wf, nextWf_next]

@[simp] theorem rtailBody_wf (q : BitVec 2) (n : Word) (s : State) (hwf : s.mem.wf = true) : (rtailBody q n s).mem.wf = true := by
  unfold rtailBody
  grind -ring -linarith [State_ctxFault_wf, State_retire_mem, spFix_mem, acceptN_mem, consume_wf, State_trap_wf, foldl_wf]

@[simp] theorem execRtail_wf (g : Guard) (a : Src) (q : BitVec 2) (s : State) (hwf : s.mem.wf = true) : NextWf (execRtail g a q s) := by
  unfold execRtail
  grind -ring -linarith [nextWf_issueCore, rtailBody_wf, nextWf_next]

@[simp] theorem qfenceBody_wf (m : BitVec 3) (s : State) (hwf : s.mem.wf = true) : (qfenceBody m s).mem.wf = true := by
  unfold qfenceBody
  grind -ring -linarith [State_retire_mem, State_upCo_mem, acceptRecord_wf, State_trap_wf, foldl_wf]

@[simp] theorem execQfence_wf (g : Guard) (m : BitVec 3) (s : State) (hwf : s.mem.wf = true) : NextWf (execQfence g m s) := by
  unfold execQfence
  grind -ring -linarith [nextWf_issueCore, qfenceBody_wf, nextWf_next]

@[simp] theorem execBr_wf (g : Guard) (imm : BitVec 28) (s : State) (hwf : s.mem.wf = true) : NextWf (execBr g imm s) := by
  unfold execBr
  grind -ring -linarith [nextWf_issue, State_jump_mem, nextWf_next]

@[simp] theorem execCall_wf (g : Guard) (imm : BitVec 28) (s : State) (hwf : s.mem.wf = true) : NextWf (execCall g imm s) := by
  unfold execCall
  grind -ring -linarith [nextWf_issue, State_wr_mem, State_jump_mem, nextWf_next]

@[simp] theorem execJr_wf (g : Guard) (a : Src) (s : State) (hwf : s.mem.wf = true) : NextWf (execJr g a s) := by
  unfold execJr
  grind -ring -linarith [nextWf_issue, State_jump_mem, State_trap_wf, nextWf_next]

@[simp] theorem execCallr_wf (g : Guard) (a : Src) (s : State) (hwf : s.mem.wf = true) : NextWf (execCallr g a s) := by
  unfold execCallr
  grind -ring -linarith [nextWf_issue, State_wr_mem, State_jump_mem, State_trap_wf, nextWf_next]

@[simp] theorem execLoop_wf (g : Guard) (n : BitVec 1) (a : Src) (imm : BitVec 28) (s : State) (hwf : s.mem.wf = true) : NextWf (execLoop g n a imm s) := by
  unfold execLoop
  grind -ring -linarith [nextWf_issue, loopBody_mem, nextWf_next]

@[simp] theorem execLoopi_wf (g : Guard) (n : BitVec 1) (cnt : BitVec 12) (imm : BitVec 28) (s : State) (hwf : s.mem.wf = true) : NextWf (execLoopi g n cnt imm s) := by
  unfold execLoopi
  grind -ring -linarith [nextWf_issue, loopBody_mem, nextWf_next]

@[simp] theorem execLpclr_wf (g : Guard) (n : BitVec 1) (s : State) (hwf : s.mem.wf = true) : NextWf (execLpclr g n s) := by
  unfold execLpclr
  grind -ring -linarith [State_retire_mem, State_upSc_mem, nextWf_issue, nextWf_next]

@[simp] theorem execMcfg_wf (r : Rec) (s : State) (hwf : s.mem.wf = true) : NextWf (execMcfg r s) := by
  simp [execMcfg, hwf]

@[simp] theorem execMzero_wf (r : Rec) (s : State) (hwf : s.mem.wf = true) : NextWf (execMzero r s) := by
  simp [execMzero, hwf]

@[simp] theorem execMdotT_wf (r : Rec) (s : State) (hwf : s.mem.wf = true) : NextWf (execMdotT r s) := by
  simp [execMdotT, hwf]

@[simp] theorem execMdotS4_wf (r : Rec) (s : State) (hwf : s.mem.wf = true) : NextWf (execMdotS4 r s) := by
  simp [execMdotS4, hwf]

@[simp] theorem execMdotI8_wf (r : Rec) (s : State) (hwf : s.mem.wf = true) : NextWf (execMdotI8 r s) := by
  simp [execMdotI8, hwf]

@[simp] theorem putMig_wf (s : State) (d : ℕ) (v : ℕ) (hwf : s.mem.wf = true) : (putMig s d v).mem.wf = true := by
  simp [putMig, hwf]

theorem copyRange_wf {m : Memory} {src dst n : Nat} (h : m.wf = true) : (copyRange m src dst n).wf = true :=
  foldl_memory_wf (fun _ _ h => memPut_wf _ _ _ h) (zeroRange_wf _ _ _ h)

@[simp] theorem movePiece_wf (d : Nat) (s : State) (x : Piece) (hwf : s.mem.wf = true) : (movePiece d s x).mem.wf = true := by
  unfold movePiece
  dsimp only
  refine keyWrite_wf _ _ _ _ _ (copyRange_wf ?_)
  rw [noteRange_mem, noteReads_mem, foldl_mem (fun s a => loseMonitor_mem _ _ s a)]
  exact hwf

@[simp] theorem execMigrationRequest_wf (s : State) (hwf : s.mem.wf = true) : NextWf (execMigrationRequest s) := by
  unfold execMigrationRequest
  grind -ring -linarith [putMig_wf, takeAct_wf, nextWf_next]

@[simp] theorem execMigrationComplete_wf (s : State) (hwf : s.mem.wf = true) : NextWf (execMigrationComplete s) := by
  unfold execMigrationComplete
  grind -ring -linarith [putMig_wf, shootDie_mem, copyRange_wf, movePiece_wf, foldl_wf, nextWf_next]

@[simp] theorem execUnassignedOpcode_wf (w : Word) (s : State) (hwf : s.mem.wf = true) : NextWf (execUnassignedOpcode w s) := by
  simp [execUnassignedOpcode, hwf]

@[simp] theorem execTrapOp_wf (g : Guard) (code : BitVec 16) (s : State) (hwf : s.mem.wf = true) : NextWf (execTrapOp g code s) := by
  unfold execTrapOp
  grind -ring -linarith [nextWf_issue, State_trap_wf, nextWf_next]

@[simp] theorem execBrk_wf (g : Guard) (s : State) (hwf : s.mem.wf = true) : NextWf (execBrk g s) := by
  unfold execBrk
  grind -ring -linarith [nextWf_issue, State_trap_wf, nextWf_next]

@[simp] theorem execEret_wf (g : Guard) (s : State) (hwf : s.mem.wf = true) : NextWf (execEret g s) := by
  unfold execEret
  grind -ring -linarith [State_upSc_mem, nextWf_issue, nextWf_next]

@[simp] theorem execVld_wf (r : Rec) (s : State) (hwf : s.mem.wf = true) : NextWf (execVld r s) := by
  simp [execVld, hwf]

@[simp] theorem execVldBc_wf (r : Rec) (s : State) (hwf : s.mem.wf = true) : NextWf (execVldBc r s) := by
  simp [execVldBc, hwf]

@[simp] theorem execVst_wf (r : Rec) (s : State) (hwf : s.mem.wf = true) : NextWf (execVst r s) := by
  simp [execVst, hwf]

@[simp] theorem execVmov_wf (r : Rec) (s : State) (hwf : s.mem.wf = true) : NextWf (execVmov r s) := by
  simp [execVmov, hwf]

@[simp] theorem execAccrd_wf (r : Rec) (s : State) (hwf : s.mem.wf = true) : NextWf (execAccrd r s) := by
  simp [execAccrd, hwf]

@[simp] theorem execAccwr_wf (r : Rec) (s : State) (hwf : s.mem.wf = true) : NextWf (execAccwr r s) := by
  simp [execAccwr, hwf]

@[simp] theorem execPark_wf (r : Rec) (s : State) (hwf : s.mem.wf = true) : NextWf (execPark r s) := by
  simp [execPark, hwf]

@[simp] theorem execUnpark_wf (r : Rec) (s : State) (hwf : s.mem.wf = true) : NextWf (execUnpark r s) := by
  simp [execUnpark, hwf]

@[simp] theorem execFadd_wf (r : Rec) (s : State) (hwf : s.mem.wf = true) : NextWf (execFadd r s) := by
  simp [execFadd, hwf]

@[simp] theorem execFsub_wf (r : Rec) (s : State) (hwf : s.mem.wf = true) : NextWf (execFsub r s) := by
  simp [execFsub, hwf]

@[simp] theorem execFmul_wf (r : Rec) (s : State) (hwf : s.mem.wf = true) : NextWf (execFmul r s) := by
  simp [execFmul, hwf]

@[simp] theorem execFma_wf (r : Rec) (s : State) (hwf : s.mem.wf = true) : NextWf (execFma r s) := by
  simp [execFma, hwf]

@[simp] theorem execFmin_wf (r : Rec) (s : State) (hwf : s.mem.wf = true) : NextWf (execFmin r s) := by
  simp [execFmin, hwf]

@[simp] theorem execFmax_wf (r : Rec) (s : State) (hwf : s.mem.wf = true) : NextWf (execFmax r s) := by
  simp [execFmax, hwf]

@[simp] theorem execFabs_wf (r : Rec) (s : State) (hwf : s.mem.wf = true) : NextWf (execFabs r s) := by
  simp [execFabs, hwf]

@[simp] theorem execFneg_wf (r : Rec) (s : State) (hwf : s.mem.wf = true) : NextWf (execFneg r s) := by
  simp [execFneg, hwf]

@[simp] theorem execFdiv_wf (r : Rec) (s : State) (hwf : s.mem.wf = true) : NextWf (execFdiv r s) := by
  simp [execFdiv, hwf]

@[simp] theorem execFsqrt_wf (r : Rec) (s : State) (hwf : s.mem.wf = true) : NextWf (execFsqrt r s) := by
  simp [execFsqrt, hwf]

@[simp] theorem execFrsqrt_wf (r : Rec) (s : State) (hwf : s.mem.wf = true) : NextWf (execFrsqrt r s) := by
  simp [execFrsqrt, hwf]

@[simp] theorem execFrcp_wf (r : Rec) (s : State) (hwf : s.mem.wf = true) : NextWf (execFrcp r s) := by
  simp [execFrcp, hwf]

@[simp] theorem execIadd_wf (r : Rec) (s : State) (hwf : s.mem.wf = true) : NextWf (execIadd r s) := by
  simp [execIadd, hwf]

@[simp] theorem execIsub_wf (r : Rec) (s : State) (hwf : s.mem.wf = true) : NextWf (execIsub r s) := by
  simp [execIsub, hwf]

@[simp] theorem execIand_wf (r : Rec) (s : State) (hwf : s.mem.wf = true) : NextWf (execIand r s) := by
  simp [execIand, hwf]

@[simp] theorem execIor_wf (r : Rec) (s : State) (hwf : s.mem.wf = true) : NextWf (execIor r s) := by
  simp [execIor, hwf]

@[simp] theorem execIxor_wf (r : Rec) (s : State) (hwf : s.mem.wf = true) : NextWf (execIxor r s) := by
  simp [execIxor, hwf]

@[simp] theorem execIshl_wf (r : Rec) (s : State) (hwf : s.mem.wf = true) : NextWf (execIshl r s) := by
  simp [execIshl, hwf]

@[simp] theorem execIshr_wf (r : Rec) (s : State) (hwf : s.mem.wf = true) : NextWf (execIshr r s) := by
  simp [execIshr, hwf]

@[simp] theorem execIsar_wf (r : Rec) (s : State) (hwf : s.mem.wf = true) : NextWf (execIsar r s) := by
  simp [execIsar, hwf]

@[simp] theorem execImin_wf (r : Rec) (s : State) (hwf : s.mem.wf = true) : NextWf (execImin r s) := by
  simp [execImin, hwf]

@[simp] theorem execImax_wf (r : Rec) (s : State) (hwf : s.mem.wf = true) : NextWf (execImax r s) := by
  simp [execImax, hwf]

@[simp] theorem execImul_wf (r : Rec) (s : State) (hwf : s.mem.wf = true) : NextWf (execImul r s) := by
  simp [execImul, hwf]

@[simp] theorem execIdot4_wf (r : Rec) (s : State) (hwf : s.mem.wf = true) : NextWf (execIdot4 r s) := by
  simp [execIdot4, hwf]

@[simp] theorem execFcmp_wf (r : Rec) (s : State) (hwf : s.mem.wf = true) : NextWf (execFcmp r s) := by
  simp [execFcmp, hwf]

@[simp] theorem execIcmp_wf (r : Rec) (s : State) (hwf : s.mem.wf = true) : NextWf (execIcmp r s) := by
  simp [execIcmp, hwf]

@[simp] theorem execVsel_wf (r : Rec) (s : State) (hwf : s.mem.wf = true) : NextWf (execVsel r s) := by
  simp [execVsel, hwf]

@[simp] theorem execMaskop_wf (r : Rec) (s : State) (hwf : s.mem.wf = true) : NextWf (execMaskop r s) := by
  simp [execMaskop, hwf]

@[simp] theorem execCvt_wf (r : Rec) (s : State) (hwf : s.mem.wf = true) : NextWf (execCvt r s) := by
  simp [execCvt, hwf]

@[simp] theorem execQuant_wf (r : Rec) (s : State) (hwf : s.mem.wf = true) : NextWf (execQuant r s) := by
  simp [execQuant, hwf]

@[simp] theorem execDequant_wf (r : Rec) (s : State) (hwf : s.mem.wf = true) : NextWf (execDequant r s) := by
  simp [execDequant, hwf]

@[simp] theorem execTrpack_wf (r : Rec) (s : State) (hwf : s.mem.wf = true) : NextWf (execTrpack r s) := by
  simp [execTrpack, hwf]

@[simp] theorem execTrunpack_wf (r : Rec) (s : State) (hwf : s.mem.wf = true) : NextWf (execTrunpack r s) := by
  simp [execTrunpack, hwf]

@[simp] theorem execRsum_wf (r : Rec) (s : State) (hwf : s.mem.wf = true) : NextWf (execRsum r s) := by
  simp [execRsum, hwf]

@[simp] theorem execRmax_wf (r : Rec) (s : State) (hwf : s.mem.wf = true) : NextWf (execRmax r s) := by
  simp [execRmax, hwf]

@[simp] theorem execRmin_wf (r : Rec) (s : State) (hwf : s.mem.wf = true) : NextWf (execRmin r s) := by
  simp [execRmin, hwf]

@[simp] theorem execVperm_wf (r : Rec) (s : State) (hwf : s.mem.wf = true) : NextWf (execVperm r s) := by
  simp [execVperm, hwf]

@[simp] theorem execVshuf_wf (r : Rec) (s : State) (hwf : s.mem.wf = true) : NextWf (execVshuf r s) := by
  simp [execVshuf, hwf]

@[simp] theorem execVbcast_wf (r : Rec) (s : State) (hwf : s.mem.wf = true) : NextWf (execVbcast r s) := by
  simp [execVbcast, hwf]

theorem exec_wf (i : Instr) (s : State) (h : s.mem.wf = true) : NextWf (exec i s) := by
  cases i <;> simp [exec, h]

@[simp] theorem landWords_wf (p : ℕ) (ws : List (ℕ × ℕ)) (s : State) (hwf : s.mem.wf = true) : (landWords p ws s).mem.wf = true := by
  unfold landWords
  grind -ring -linarith [State_upCo_mem, foldl_wf, wrN_wf]

theorem nextWf_raceTurn {p : Nat} {q : BitVec 2} {n : Option Nat} {run : State → Out} {s : State} (h : s.mem.wf = true)
    (hrun : ∀ s, s.mem.wf = true → NextWf (run s)) : NextWf (raceTurn p q n run s) := by
  have hnext {s t : State} (e : run s = .next t) (hs : s.mem.wf = true) : t.mem.wf = true := hrun s hs t e
  unfold raceTurn
  extract_lets v pending n'
  clear_value n'
  split
  · cases n' with
    | none => exact hrun s h
    | some m =>
      dsimp only
      split
      · rename_i e
        have ht := hnext e h
        rw [nextWf_next, rests_mem]
        exact ht
      · rename_i hne
        intro t e
        exact absurd e (hne t)
  split
  · rwa [nextWf_next]
  split
  · rename_i t e
    have ht := hnext e (landWords_wf _ _ _ h)
    split
    · rw [nextWf_next, rests_mem]
      exact landWords_wf _ _ _ ht
    · exact (nextWf_next s).mpr h
  · rename_i hne
    intro t e
    exact absurd e (hne t)

theorem landAhead_wf (p : Nat) (q : BitVec 2) (key : Nat) (run : State → Out) (s : State) (h : s.mem.wf = true) : (landAhead p q key run s).mem.wf = true := by
  unfold landAhead
  dsimp only
  grind -ring -linarith [landWords_wf, noteWords_mem, landCode_mem, upQueue_mem]

theorem nextWf_arrivalTurn {subject : Nat} {i : Instr} {run : State → Out} {s : State} (h : s.mem.wf = true)
    (hrun : ∀ s, s.mem.wf = true → NextWf (run s)) : NextWf (arrivalTurn subject i run s) := by
  unfold arrivalTurn
  split
  · split
    · split
      · rename_i t e
        rw [nextWf_next]
        exact landWords_wf _ _ _ (hrun _ (by exact landWords_wf _ _ _ h) t e)
      · rename_i hne
        intro t e
        exact absurd e (hne t)
    · exact hrun s h
  · exact hrun s h

theorem arriveAhead_wf (subject : Nat) (i : Instr) (key : Nat) (run : State → Out) (s : State) (h : s.mem.wf = true) : (arriveAhead subject i key run s).mem.wf = true := by
  unfold arriveAhead
  dsimp only
  grind -ring -linarith [landWords_wf, noteWords_mem, landCode_mem]

@[simp] theorem scalarTurn_wf (a : ℕ) (s : State) (hwf : s.mem.wf = true) : NextWf (scalarTurn a s) := by
  unfold scalarTurn
  grind -ring -linarith [State_ctxFault_wf, noteFetch_mem, exec_wf, State_trap_wf, nextWf_next]

@[simp] theorem engineTurn_wf (p : ℕ) (q : BitVec 2) (n : Option ℕ) (s : State) (hwf : s.mem.wf = true) : NextWf (engineTurn p q n s) := by
  unfold engineTurn
  grind -ring -linarith [slotFix_mem, exec_wf, nextWf_raceTurn, slotFault_mem, nextWf_next]

theorem ownConvs_wf {c lo n : Nat} {m : Memory} (h : m.wf = true) : (ownConvs c lo n m).wf = true := by
  induction n generalizing lo m with
  | zero => exact h
  | succ n ih =>
    unfold ownConvs
    exact ih (wrN_wf _ _ _ _ h)

theorem allotTurn_mem_eq (a : Allot) (s : State) : ∃ lo hi, (allotTurn a s).mem =
    if a.kind = .conversation then ownConvs a.ctx a.lo (a.hi - a.lo) (s.zeroKeys lo hi).mem else (s.zeroKeys lo hi).mem :=
  ⟨_, _, rfl⟩

@[simp] theorem allotTurn_wf (a : Allot) (s : State) (hwf : s.mem.wf = true) : (allotTurn a s).mem.wf = true := by
  obtain ⟨lo, hi, h⟩ := allotTurn_mem_eq a s
  have hz := State_zeroKeys_wf s lo hi hwf
  rw [h]
  split
  · exact ownConvs_wf hz
  · exact hz

@[simp] theorem tableTurn_wf (c : ℕ) (off : ℕ) (v : ℕ) (s : State) (hwf : s.mem.wf = true) : (tableTurn c off v s).mem.wf = true := by
  unfold tableTurn
  grind -ring -linarith [State_put64_wf, writeConnWord_wf]

@[simp] theorem runTurn_wf (t : Turn) (s : State) (hwf : s.mem.wf = true) : NextWf (runTurn t s) := by
  have harrive subject i : ∀ s, s.mem.wf = true → NextWf (arrivalTurn subject i (exec i) s) := fun s h =>
    nextWf_arrivalTurn h fun s h => exec_wf i s h
  unfold runTurn
  cases t with
  | event subject i =>
    dsimp only
    split
    · exact nextWf_fault _
    · exact harrive _ _ _ hwf
  | _ =>
    dsimp only
    repeat' with_reducible split
    all_goals simp [hwf, landAhead_wf, arriveAhead_wf]

@[simp] theorem takeTurn_wf (s : State) (hwf : s.mem.wf = true) : NextWf (takeTurn s) := by
  unfold takeTurn
  grind -ring -linarith [scalarTurn_wf, runTurn_wf, nextWf_next]

@[simp] theorem step_wf (s : State) (hwf : s.mem.wf = true) : NextWf (step s) := by
  simp [step, hwf]


/-- Settles O57: a step is one turn, and each turn goes through operations of the state that keep the canonical form. -/
theorem memoryStaysCanonical : Obligations.MemoryStaysCanonical := fun s t h e => step_wf s h t e

end Sys2Proof.Machine
end

section
/-! Table 5.1 and Table 5.2: what the values of the integer operations are, and the results that they give. -/
namespace Sys2Proof.Machine
set_option Elab.async false
open Safety

/-! ### The values (R55, R57, R58) -/

theorem toNat_ofNat_of_lt {n : Nat} (h : n < 2 ^ 64) : (BitVec.ofNat 64 n).toNat = n := by
  rw [BitVec.toNat_ofNat, Nat.mod_eq_of_lt h]

/-- A word made of an integer in the signed range is that integer. -/
theorem toInt_ofInt_of_range {x : Int} (hlo : -(2 ^ 63) ≤ x) (hhi : x < 2 ^ 63) : (BitVec.ofInt 64 x).toInt = x :=
  BitVec.toInt_ofInt_eq_self (by decide) hlo hhi

theorem toInt_range (a : Word) : -(2 ^ 63) ≤ a.toInt ∧ a.toInt < 2 ^ 63 := ⟨BitVec.le_toInt a, BitVec.toInt_lt⟩

theorem toInt_sar (a : Word) (k : Nat) : (a.sshiftRight k).toInt = a.toInt / 2 ^ k := by
  rw [BitVec.toInt_sshiftRight, Int.shiftRight_eq_div_pow]
  rfl

/-- The high half of a signed product is in the signed range. -/
theorem toInt_mulh (a b : Word) : (BitVec.ofInt 64 (a.toInt * b.toInt / 2 ^ 64)).toInt = a.toInt * b.toInt / 2 ^ 64 := by
  obtain ⟨ha, ha'⟩ := toInt_range a
  obtain ⟨hb, hb'⟩ := toInt_range b
  have habs : |a.toInt * b.toInt| ≤ 2 ^ 63 * 2 ^ 63 := by
    rw [abs_mul]
    exact mul_le_mul (abs_le.mpr ⟨ha, ha'.le⟩) (abs_le.mpr ⟨hb, hb'.le⟩) (abs_nonneg _) (by decide)
  obtain ⟨hlo, hhi⟩ := abs_le.mp habs
  exact toInt_ofInt_of_range (by omega) (by omega)

theorem toNat_mulhu (a b : Word) : (BitVec.ofNat 64 (a.toNat * b.toNat / 2 ^ 64)).toNat = a.toNat * b.toNat / 2 ^ 64 := by
  have h : a.toNat * b.toNat < 2 ^ 64 * 2 ^ 64 := Nat.mul_lt_mul'' a.isLt b.isLt
  exact toNat_ofNat_of_lt (Nat.div_lt_of_lt_mul h)

theorem clampInt_eq {lo hi : Int} (x : Int) (h : lo ≤ hi) : clampInt lo hi x = max lo (min hi x) := by
  unfold clampInt
  split
  · omega
  · split <;> omega

theorem toInt_satS (x : Int) : (satS x).toInt = max (-(2 ^ 63)) (min (2 ^ 63 - 1) x) := by
  unfold satS
  rw [clampInt_eq x (by decide)]
  exact toInt_ofInt_of_range (by omega) (by omega)

theorem toNat_satU_natCast (n : Nat) : (satU n).toNat = min (2 ^ 64 - 1) n := by
  unfold satU
  rw [clampInt_eq _ (by decide), BitVec.toNat_ofInt]
  omega

theorem toNat_satU_sub (m n : Nat) (h : m < 2 ^ 64) : (satU ((m : Int) - n)).toNat = m - n := by
  unfold satU
  rw [clampInt_eq _ (by decide), BitVec.toNat_ofInt]
  omega

/-- The one overflow of a signed division (R58). -/
theorem toInt_divS_overflow {a b : Word} (ha : a.toInt = -(2 ^ 63)) (hb : b.toInt = -1) : (divS a b).toInt = -(2 ^ 63) := by
  unfold divS
  rw [ha, hb]
  rfl

/-- Every other signed quotient is in the signed range. -/
theorem toInt_divS {a b : Word} (hb0 : b ≠ 0#64) (h : ¬(a.toInt = -(2 ^ 63) ∧ b.toInt = -1)) : (divS a b).toInt = a.toInt.tdiv b.toInt := by
  obtain ⟨ha, ha'⟩ := toInt_range a
  have hb : b.toInt ≠ 0 := fun e => hb0 (BitVec.eq_of_toInt_eq e)
  have hle : (a.toInt.tdiv b.toInt).natAbs ≤ a.toInt.natAbs := by
    rw [Int.natAbs_tdiv]
    exact Nat.div_le_self _ _
  refine toInt_ofInt_of_range (by omega) ?_
  by_contra hge
  have hmin : a.toInt = -(2 ^ 63) := by omega
  have hq : a.toInt.tdiv b.toInt = 2 ^ 63 := by omega
  have hdiv := Int.natAbs_tdiv a.toInt b.toInt
  rw [hq, hmin] at hdiv
  have hone : b.toInt.natAbs = 1 := by
    by_contra hne
    have h2 : 2 ≤ b.toInt.natAbs := by omega
    have := Nat.div_le_div_left (a := (-(2 ^ 63) : Int).natAbs) h2 (by decide)
    have e : ((2 ^ 63 : Int).natAbs) = (-(2 ^ 63) : Int).natAbs / b.toInt.natAbs := hdiv
    norm_num at e this
    omega
  obtain hb1 | hb1 : b.toInt = 1 ∨ b.toInt = -1 := by omega
  · rw [hb1, hmin] at hq
    exact absurd hq (by decide)
  · exact h ⟨hmin, hb1⟩

theorem remS_overflow {a b : Word} (hb : b.toInt = -1) : (remS a b).toInt = 0 := by
  unfold remS
  rw [hb, Int.tmod_neg, Int.tmod_one]
  rfl

theorem toInt_remS {a b : Word} (hb0 : b ≠ 0#64) : (remS a b).toInt = a.toInt - b.toInt * a.toInt.tdiv b.toInt := by
  obtain ⟨hb, hb'⟩ := toInt_range b
  have hbne : b.toInt ≠ 0 := fun e => hb0 (BitVec.eq_of_toInt_eq e)
  have hlt : (a.toInt.tmod b.toInt).natAbs < b.toInt.natAbs := by
    rw [Int.natAbs_tmod]
    exact Nat.mod_lt _ (by omega)
  unfold remS
  rw [toInt_ofInt_of_range (by omega) (by omega), Int.tmod_def]

theorem toNat_divu (a b : Word) : (BitVec.ofNat 64 (a.toNat / b.toNat)).toNat = a.toNat / b.toNat :=
  toNat_ofNat_of_lt ((Nat.div_le_self _ _).trans_lt a.isLt)

theorem toNat_remu (a b : Word) : (BitVec.ofNat 64 (a.toNat % b.toNat)).toNat = a.toNat - b.toNat * (a.toNat / b.toNat) := by
  rw [toNat_ofNat_of_lt ((Nat.mod_le _ _).trans_lt a.isLt), Nat.mod_eq_sub]

/-- The leading zeros of a word are those above its highest one bit. -/
theorem clz64_spec (a : Word) : (∀ i, 64 - (clz64 a).toNat ≤ i → a.getLsbD i = false) ∧ (clz64 a).toNat ≤ 64 ∧
    ((clz64 a).toNat < 64 → a.getLsbD (63 - (clz64 a).toNat) = true) := by
  unfold clz64
  split
  · next h =>
    subst h
    exact ⟨fun i _ => BitVec.getLsbD_zero, by decide, fun h => absurd h (by decide)⟩
  · next h =>
    have hne : a.toNat ≠ 0 := fun e => h (BitVec.eq_of_toNat_eq e)
    have hlog : a.toNat.log2 < 64 := (Nat.log2_lt hne).mpr a.isLt
    have htoNat : (BitVec.ofNat 64 (63 - a.toNat.log2)).toNat = 63 - a.toNat.log2 := toNat_ofNat_of_lt (by omega)
    rw [htoNat]
    refine ⟨fun i hi => ?_, by omega, fun _ => ?_⟩
    · refine Nat.testBit_lt_two_pow ((Nat.log2_lt hne).mp ?_)
      omega
    · rw [show 63 - (63 - a.toNat.log2) = a.toNat.log2 by omega]
      exact Nat.testBit_log2 hne

theorem ctzFrom_spec (a : Word) (i n : Nat) (h : i + n = 64) : (∀ j, i ≤ j → j < ctzFrom a i n → a.getLsbD j = false) ∧
    ctzFrom a i n ≤ 64 ∧ (ctzFrom a i n < 64 → a.getLsbD (ctzFrom a i n) = true) := by
  induction n generalizing i with
  | zero =>
    exact ⟨fun j hj hlt => BitVec.getLsbD_of_ge a j (by omega), le_refl 64, fun hlt => absurd hlt (lt_irrefl 64)⟩
  | succ n ih =>
    unfold ctzFrom
    split
    · next hbit => exact ⟨fun j hj hlt => absurd hlt (by omega), by omega, fun _ => hbit⟩
    · next hbit =>
      obtain ⟨hzeros, hle, hone⟩ := ih (i + 1) (by omega)
      refine ⟨fun j hj hlt => ?_, hle, hone⟩
      rcases Nat.eq_or_lt_of_le hj with rfl | hj
      · simpa using hbit
      · exact hzeros j hj hlt

theorem toNat_ctz64 (a : Word) : (ctz64 a).toNat = ctzFrom a 0 64 := by
  have := (ctzFrom_spec a 0 64 rfl).2.1
  exact toNat_ofNat_of_lt (by omega)

/-- The trailing zeros of a word are those below its lowest one bit. -/
theorem ctz64_spec (a : Word) : (∀ i, i < (ctz64 a).toNat → a.getLsbD i = false) ∧ (ctz64 a).toNat ≤ 64 ∧
    ((ctz64 a).toNat < 64 → a.getLsbD (ctz64 a).toNat = true) := by
  obtain ⟨hzeros, hle, hone⟩ := ctzFrom_spec a 0 64 rfl
  rw [toNat_ctz64]
  exact ⟨fun i hi => hzeros i (Nat.zero_le i) hi, hle, hone⟩

theorem popBelow_eq (a : Word) (n : Nat) : popBelow a n = (List.range n).countP fun i => a.getLsbD i := by
  induction n with
  | zero => rfl
  | succ n ih =>
    rw [popBelow, ih, List.range_succ, List.countP_append, List.countP_singleton, Nat.add_comm]

theorem toNat_popc64 (a : Word) : (popc64 a).toNat = (List.range 64).countP fun i => a.getLsbD i := by
  unfold popc64
  rw [popBelow_eq]
  have h : (List.range 64).countP (fun i => a.getLsbD i) ≤ 64 := List.countP_le_length.trans (by simp)
  exact toNat_ofNat_of_lt (by omega)

/-- The reversal of the first n bytes: byte 7 - i of the result is byte i of the word, for i below n. -/
theorem getLsbD_bswapFrom (a : Word) (n k : Nat) (hn : n ≤ 8) (hk : k < 64) :
    (bswapFrom a n).getLsbD k = (decide (8 - n ≤ k / 8) && a.getLsbD (8 * (7 - k / 8) + k % 8)) := by
  induction n with
  | zero =>
    have : ¬8 ≤ k / 8 := by omega
    simp [bswapFrom, this]
  | succ n ih =>
    have hmask : (0xFF#64).getLsbD (k - (56 - 8 * n)) = decide (k - (56 - 8 * n) < 8) := by
      rw [show (0xFF#64) = BitVec.setWidth 64 (BitVec.allOnes 8) from rfl, BitVec.getLsbD_setWidth, BitVec.getLsbD_allOnes]
      by_cases h : k - (56 - 8 * n) < 8
      · simp [h]; omega
      · simp [h]
    rw [bswapFrom, BitVec.getLsbD_or, ih (by omega), BitVec.getLsbD_shiftLeft, BitVec.getLsbD_and, BitVec.getLsbD_ushiftRight, hmask]
    by_cases h7 : k / 8 = 7 - n
    · have e : 8 * n + (k - (56 - 8 * n)) = 8 * (7 - k / 8) + k % 8 := by omega
      have h1 : ¬8 - n ≤ k / 8 := by omega
      have h2 : 8 - (n + 1) ≤ k / 8 := by omega
      have h3 : ¬k < 56 - 8 * n := by omega
      have h4 : k - (56 - 8 * n) < 8 := by omega
      rw [e, decide_eq_false h1, decide_eq_true h2, decide_eq_false h3, decide_eq_true h4, decide_eq_true hk]
      simp
    · have h : (8 - (n + 1) ≤ k / 8) ↔ (8 - n ≤ k / 8) := by omega
      have hout : (decide (k < 64) && !decide (k < 56 - 8 * n) && (a.getLsbD (8 * n + (k - (56 - 8 * n))) && decide (k - (56 - 8 * n) < 8))) = false := by
        by_cases h3 : k < 56 - 8 * n
        · simp [h3]
        · have h4 : ¬k - (56 - 8 * n) < 8 := by omega
          simp [h4]
      rw [hout, Bool.or_false, decide_eq_decide.mpr h]

theorem getLsbD_bswap64 (a : Word) {i j : Nat} (hi : i < 8) (hj : j < 8) : (bswap64 a).getLsbD (8 * i + j) = a.getLsbD (8 * (7 - i) + j) := by
  unfold bswap64
  rw [getLsbD_bswapFrom _ 8 _ (le_refl 8) (by omega), show (8 * i + j) / 8 = i by omega, show (8 * i + j) % 8 = j by omega]
  simp

theorem getLsbD_brev64 (a : Word) {i : Nat} (hi : i < 64) : (brev64 a).getLsbD i = a.getLsbD (63 - i) := by
  unfold brev64
  rw [BitVec.getLsbD_reverse, BitVec.getMsbD_eq_getLsbD]
  simp [hi]

/-! ### The results -/

/-- A division that acts and whose divisor is not zero gives its result. -/
theorem completes_result_of_div {i : Instr} {s : State} {g : Guard} {d : BitVec 6} {a b : Src} {f : Word → Word → Word}
    (e : exec i s = issue 2 g [a, b] (some d) s (divBody d a b f)) (ha : acts s 2 g [a, b] [d]) (hb : s.rd b ≠ 0#64) :
    completes i s (result s d (f (s.rd a) (s.rd b))) := by
  refine ⟨s.result d (f (s.rd a) (s.rd b)), ?_, result_spec s d _⟩
  rw [e, issue_acts _ ha, divBody, if_neg hb]

/-- A value with a property, which an instruction gives as its result when it acts. -/
theorem exists_completes_result {i : Instr} {s : State} {cls : Nat} {g : Guard} {srcs : List Src} {d : BitVec 6} {f : State → Word}
    {P : Word → Prop} (hP : P (f s)) (e : exec i s = issue cls g srcs (some d) s fun s => s.result d (f s)) (h : acts s cls g srcs [d]) :
    ∃ v, P v ∧ completes i s (result s d v) :=
  ⟨f s, hP, completes_result e h⟩

theorem integerOperationResults : Parts.IntegerOperationResults := by
  intro s g d a b ha
  refine ⟨completes_result (exec_add g d a b s) ha, completes_result (exec_sub g d a b s) ha, completes_result (exec_and g d a b s) ha,
    completes_result (exec_or g d a b s) ha, completes_result (exec_xor g d a b s) ha, completes_result (exec_andn g d a b s) ha,
    completes_result (exec_shl g d a b s) ha, completes_result (exec_shr g d a b s) ha,
    exists_completes_result (toInt_sar _ _) (exec_sar g d a b s) ha, exists_completes_result ?_ (exec_min g d a b s) ha,
    exists_completes_result ?_ (exec_max g d a b s) ha, exists_completes_result ?_ (exec_minu g d a b s) ha,
    exists_completes_result ?_ (exec_maxu g d a b s) ha, fun p => completes_result (exec_sel g d a b p s) ha⟩
  all_goals split <;> omega

theorem productsAndSaturatingSums : Parts.ProductsAndSaturatingSums := by
  refine fun s g d a b => ⟨fun ha => ⟨?_, ?_, ?_⟩, fun ha => ⟨?_, ?_, ?_, ?_⟩⟩
  · exact exists_completes_result (BitVec.toNat_mul _ _) (exec_mul g d a b s) ha
  · exact exists_completes_result (toInt_mulh _ _) (exec_mulh g d a b s) ha
  · exact exists_completes_result (toNat_mulhu _ _) (exec_mulhu g d a b s) ha
  · exact exists_completes_result (toInt_satS _) (exec_adds g d a b s) ha
  · exact exists_completes_result (toInt_satS _) (exec_subs g d a b s) ha
  · exact exists_completes_result (toNat_satU_natCast ((s.rd a).toNat + (s.rd b).toNat)) (exec_addus g d a b s) ha
  · exact exists_completes_result (toNat_satU_sub _ _ (s.rd a).isLt) (exec_subus g d a b s) ha

theorem divisionResults : Parts.DivisionResults := by
  intro s g d a b ha hb
  refine ⟨⟨divS (s.rd a) (s.rd b), ?_, completes_result_of_div (exec_div g d a b s) ha hb⟩,
    ⟨_, toNat_divu _ _, completes_result_of_div (exec_divu g d a b s) ha hb⟩,
    ⟨remS (s.rd a) (s.rd b), ?_, completes_result_of_div (exec_rem g d a b s) ha hb⟩,
    ⟨_, toNat_remu _ _, completes_result_of_div (exec_remu g d a b s) ha hb⟩⟩
  · split
    · next h => exact toInt_divS_overflow h.1 h.2
    · next h => exact toInt_divS hb h
  · split
    · next h => exact remS_overflow h.2
    · exact toInt_remS hb

theorem countsAndReversals : Parts.CountsAndReversals := by
  intro s g d a ha
  obtain ⟨hzeros, hle, hone⟩ := clz64_spec (s.rd a)
  obtain ⟨czeros, cle, cone⟩ := ctz64_spec (s.rd a)
  refine ⟨⟨_, hzeros, hle, hone, completes_result (exec_clz g d a s) ha⟩, ⟨_, czeros, cle, cone, completes_result (exec_ctz g d a s) ha⟩,
    ⟨_, toNat_popc64 _, completes_result (f := fun s => popc64 (s.rd a)) (exec_popc g d a s) ha⟩, ⟨_, ?_, completes_result (exec_brev g d a s) ha⟩,
    ⟨_, ?_, completes_result (exec_bswap g d a s) ha⟩⟩
  · exact fun i hi => getLsbD_brev64 _ hi
  · exact fun i j hi hj => getLsbD_bswap64 _ hi hj

/-- Settles O2: each form gives its value as a result, and each value is said by the lemma of its operation. -/
theorem integerArithmetic : Obligations.IntegerArithmetic :=
  ⟨integerOperationResults, productsAndSaturatingSums, divisionResults, countsAndReversals⟩

end Sys2Proof.Machine
end

section
/-! Immediates, bit fields and extensions (R59 to R61): their values bit by bit, and the results that they give. -/
namespace Sys2Proof.Machine
set_option Elab.async false
open Safety

/-! ### The values -/

theorem getLsbD_maskN {n : Nat} (hn : n ≤ 64) (i : Nat) : (maskN n).getLsbD i = decide (i < n) := by
  unfold maskN
  rw [BitVec.getLsbD_ofNat, Nat.testBit_two_pow_sub_one]
  by_cases h : i < n
  · simp [h]
    omega
  · simp [h]

theorem getLsbD_fieldOf (a : Word) (pos : Nat) {len : Nat} (hlen : len ≤ 64) (i : Nat) :
    (fieldOf a pos len).getLsbD i = (decide (i < len) && a.getLsbD (pos + i)) := by
  unfold fieldOf
  rw [BitVec.getLsbD_and, BitVec.getLsbD_ushiftRight, getLsbD_maskN hlen, Bool.and_comm]

/-- The low n bits and copies of the highest of them. -/
theorem getLsbD_sextN (a : Word) {n i : Nat} (hn : 0 < n) (hn' : n ≤ 64) (hi : i < 64) : (sextN a n).getLsbD i = a.getLsbD (min i (n - 1)) := by
  unfold sextN
  by_cases h : i < n
  · rw [show min i (n - 1) = i by omega]
    split <;> simp [getLsbD_maskN hn', h]
  · rw [show min i (n - 1) = n - 1 by omega]
    split
    · next hs =>
      rw [BitVec.getLsbD_or, BitVec.getLsbD_not, BitVec.getLsbD_and, getLsbD_maskN hn', decide_eq_false h, decide_eq_true hi, hs]
      simp
    · next hs => simp [getLsbD_maskN hn', h, hs]

theorem getLsbD_insField (d a : Word) (pos : Nat) {len i : Nat} (hlen : len ≤ 64) (hi : i < 64) : (insField d a pos len).getLsbD i =
    if pos ≤ i ∧ i < pos + len then a.getLsbD (i - pos) else d.getLsbD i := by
  unfold insField
  simp only [BitVec.getLsbD_or, BitVec.getLsbD_and, BitVec.getLsbD_not, BitVec.getLsbD_shiftLeft, getLsbD_maskN hlen, hi, decide_true, Bool.true_and]
  by_cases hp : i < pos
  · have h : ¬(pos ≤ i ∧ i < pos + len) := by omega
    simp [hp, h]
  · by_cases hl : i - pos < len
    · have h : pos ≤ i ∧ i < pos + len := by omega
      simp [hp, hl, h]
    · have h : ¬(pos ≤ i ∧ i < pos + len) := by omega
      simp [hp, hl, h]

theorem sextN_eq_signExtend (a : Word) {n : Nat} (hn : 0 < n) (hn' : n ≤ 64) : sextN a n = (a.setWidth n).signExtend 64 := by
  refine BitVec.eq_of_getLsbD_eq fun i hi => ?_
  rw [getLsbD_sextN a hn hn' hi, BitVec.getLsbD_signExtend, BitVec.getLsbD_setWidth, BitVec.msb_eq_getLsbD_last, BitVec.getLsbD_setWidth]
  by_cases h : i < n
  · rw [show min i (n - 1) = i by omega]
    simp [h, hi]
  · rw [show min i (n - 1) = n - 1 by omega]
    simp [h, hi, hn]

theorem and_maskN_eq_setWidth (a : Word) {n : Nat} (hn : n ≤ 64) : a &&& maskN n = (a.setWidth n).setWidth 64 := by
  refine BitVec.eq_of_getLsbD_eq fun i hi => ?_
  rw [BitVec.getLsbD_and, getLsbD_maskN hn, BitVec.getLsbD_setWidth, BitVec.getLsbD_setWidth]
  simp [hi, Bool.and_comm]

/-- The three widths of SXT. -/
theorem sextN_extWidth (a : Word) (w : BitVec 2) : sextN a (extWidth w) =
    if w = 0#2 then (a.setWidth 8).signExtend 64 else if w = 1#2 then (a.setWidth 16).signExtend 64 else (a.setWidth 32).signExtend 64 := by
  unfold extWidth
  split
  · exact sextN_eq_signExtend a (by decide) (by decide)
  split
  · exact sextN_eq_signExtend a (by decide) (by decide)
  · exact sextN_eq_signExtend a (by decide) (by decide)

/-- The three widths of ZXT. -/
theorem and_maskN_extWidth (a : Word) (w : BitVec 2) : a &&& maskN (extWidth w) =
    if w = 0#2 then (a.setWidth 8).setWidth 64 else if w = 1#2 then (a.setWidth 16).setWidth 64 else (a.setWidth 32).setWidth 64 := by
  unfold extWidth
  split
  · exact and_maskN_eq_setWidth a (by decide)
  split
  · exact and_maskN_eq_setWidth a (by decide)
  · exact and_maskN_eq_setWidth a (by decide)

/-! ### The results -/

theorem immediateResults : Parts.ImmediateResults := by
  refine fun s g d a imm k => ⟨fun ha => ⟨completes_result (exec_addImm g d a imm s) ha, completes_result (exec_andImm g d a imm s) ha,
    completes_result (exec_orImm g d a imm s) ha, completes_result (exec_xorImm g d a imm s) ha, completes_result (exec_shlImm g d a k s) ha,
    completes_result (exec_shrImm g d a k s) ha, ⟨_, toInt_sar _ _, completes_result (exec_sarImm g d a k s) ha⟩,
    completes_result (exec_lsi g d a imm s) ha⟩, fun ha => ⟨completes_result (exec_li g d imm s) ha, completes_result (exec_adr g d imm s) ha⟩⟩

theorem fieldAndExtensionResults : Parts.FieldAndExtensionResults := by
  refine fun s g d a => ⟨fun ha pos len1 hfit => ⟨⟨_, fun i hi => ?_, completes_result (exec_extu g d a pos len1 s) ha⟩,
    ⟨_, fun i hi => ?_, completes_result (exec_exts g d a pos len1 s) ha⟩, ⟨_, fun i hi => ?_, completes_result (exec_ins g d a pos len1 s) ha⟩⟩,
    fun ha w _ => ⟨?_, ?_⟩⟩
  · rw [getLsbD_fieldOf _ _ (by omega)]
    split <;> simp [*]
  · rw [getLsbD_sextN _ (by omega) (by omega) hi, getLsbD_fieldOf _ _ (by omega), Nat.add_sub_cancel, decide_eq_true (by omega), Bool.true_and]
  · exact getLsbD_insField _ _ _ (by omega) hi
  · rw [← sextN_extWidth]
    exact completes_result (exec_sxt g d a w s) ha
  · rw [← and_maskN_extWidth]
    exact completes_result (exec_zxt g d a w s) ha

/-- Settles O4: each form gives its value as a result, and each value is said bit by bit. -/
theorem immediatesAndFields : Obligations.ImmediatesAndFields := ⟨immediateResults, fieldAndExtensionResults⟩

end Sys2Proof.Machine
end

section
/-! Compares, predicate operations and the moves of all predicates (R62 to R64). -/
namespace Sys2Proof.Machine
set_option Elab.async false
open Safety

/-- A predicate result that an instruction gives when it acts, its truth said by a proposition. -/
theorem completes_resultP_of_iff {i : Instr} {s : State} {cls : Nat} {g : Guard} {srcs : List Src} {p : BitVec 5} {f : State → Bool} {P : Prop}
    (hP : f s = true ↔ P) (e : exec i s = issue cls g srcs none s fun s => s.resultP p (f s)) (h : acts s cls g srcs []) :
    completes i s (resultP s p P) :=
  propext hP ▸ completes_resultP e h

theorem toInt_imm28 (imm : BitVec 28) : (imm28 imm).toInt = imm.toInt := by
  unfold imm28
  rw [BitVec.toInt_signExtend_of_le (by decide)]

theorem eq_imm28_iff (a : Word) (imm : BitVec 28) : a = imm28 imm ↔ a.toInt = imm.toInt := by
  rw [← toInt_imm28, BitVec.toInt_inj]

theorem compareResults : Parts.CompareResults := by
  intro s g p a b imm
  refine ⟨fun ha => ⟨completes_resultP_of_iff ?_ (exec_cmpEq g p a b s) ha, completes_resultP_of_iff ?_ (exec_cmpNe g p a b s) ha,
    completes_resultP_of_iff ?_ (exec_cmpLt g p a b s) ha, completes_resultP_of_iff ?_ (exec_cmpLe g p a b s) ha,
    completes_resultP_of_iff ?_ (exec_cmpLtu g p a b s) ha, completes_resultP_of_iff ?_ (exec_cmpLeu g p a b s) ha⟩,
    fun ha => ⟨completes_resultP_of_iff ?_ (exec_cmpEqImm g p a imm s) ha, completes_resultP_of_iff ?_ (exec_cmpNeImm g p a imm s) ha,
    completes_resultP_of_iff ?_ (exec_cmpLtImm g p a imm s) ha, completes_resultP_of_iff ?_ (exec_cmpLeImm g p a imm s) ha,
    completes_resultP_of_iff ?_ (exec_cmpLtuImm g p a imm s) ha, completes_resultP_of_iff ?_ (exec_cmpLeuImm g p a imm s) ha⟩⟩
  all_goals rw [decide_eq_true_iff]
  · rw [eq_imm28_iff]
  · rw [ne_eq, eq_imm28_iff]
  · rw [toInt_imm28]
  · rw [toInt_imm28]
  · rfl
  · rfl

/-- Bit 0 of a word of predicates is one, and bit i the predicate i (R64). -/
theorem getLsbD_predWord (x : Scalar) (i : BitVec 5) : x.predWord.getLsbD i.toNat = x.pred i := by
  have hi : i.toNat < 32 := i.isLt
  unfold Scalar.predWord Scalar.pred
  rw [BitVec.getLsbD_setWidth, BitVec.getLsbD_or, BitVec.getLsbD_one, decide_eq_true (by omega : i.toNat < 64), Bool.true_and]
  by_cases h : i = 0#5
  · simp [h]
  · have h0 : i.toNat ≠ 0 := fun e => h (BitVec.eq_of_toNat_eq e)
    simp [h, h0]

theorem predWord_lt (x : Scalar) : x.predWord.toNat < 2 ^ 32 := by
  unfold Scalar.predWord
  rw [BitVec.toNat_setWidth]
  exact (Nat.mod_le _ _).trans_lt (BitVec.isLt _)

/-- p1 to p31 as MTP sets them (R64). -/
theorem pred_of_mtp (x : Scalar) (v : Word) {i : BitVec 5} (hi : i ≠ 0#5) :
    ({ x with preds := v.setWidth 32 &&& ~~~1#32 } : Scalar).pred i = v.getLsbD i.toNat := by
  have hlt : i.toNat < 32 := i.isLt
  have h0 : i.toNat ≠ 0 := fun e => hi (BitVec.eq_of_toNat_eq e)
  unfold Scalar.pred
  rw [if_neg hi, BitVec.getLsbD_and, BitVec.getLsbD_setWidth, BitVec.getLsbD_not, BitVec.getLsbD_one]
  simp [hlt, h0]

theorem predicateOperations : Parts.PredicateOperations := by
  refine fun s g => ⟨fun ha p q r => ⟨completes_resultP_of_iff ?_ (exec_pand g p q r s) ha, completes_resultP_of_iff ?_ (exec_por g p q r s) ha,
    completes_resultP_of_iff ?_ (exec_pxor g p q r s) ha, completes_resultP_of_iff ?_ (exec_pandn g p q r s) ha⟩,
    fun d ha => ⟨_, getLsbD_predWord (stream s), predWord_lt _, completes_result (exec_mfp g d s) ha⟩, fun a ha => ?_⟩
  · rw [Bool.and_eq_true]
    rfl
  · rw [Bool.or_eq_true]
    rfl
  · rw [bne_iff_ne]
    rfl
  · rw [Bool.and_eq_true, Bool.not_eq_true']
    rfl
  · refine ⟨_, (exec_mtp g a s).trans (issue_acts (dst := none) _ ha), onlyStream_trans (onlyStream_upSc s _) (onlyStream_upSc _ _), ?_⟩
    rw [show stream ((s.upSc fun x => { x with preds := (s.rd a).setWidth 32 &&& ~~~1#32 }).retire) =
      ({ stream s with preds := (s.rd a).setWidth 32 &&& ~~~1#32 } : Scalar).retire from upSc_upSc s _ _]
    obtain ⟨hrest, hmoved, hreg, hpred⟩ := moved_retire (stream s) { stream s with preds := (s.rd a).setWidth 32 &&& ~~~1#32 } rfl
    refine ⟨fun i hi => ?_, rfl, fun r _ => hreg r, hrest, hmoved⟩
    rw [hpred, pred_of_mtp _ _ hi]

/-- Settles O5: compares and predicate operations give the truth of what they state, and the moves go bit by bit. -/
theorem comparesAndPredicates : Obligations.ComparesAndPredicates := ⟨compareResults, predicateOperations⟩

end Sys2Proof.Machine
end

section
/-! The end-of-body test (R72): what the test of one loop set does, and what the two tests in order do. -/
namespace Sys2Proof.Machine
set_option Elab.async false
open Safety

/-- The test of one loop set. -/
def loopStep (x : Scalar) (n : Bool) : Option Word × Scalar := if n then loopEnd1 x else loopEnd0 x

theorem endOfBody_eq (x : Scalar) : endOfBody x =
    match loopStep x x.lord with
    | (some a, y) => (some a, y)
    | (none, y) => loopStep y (!x.lord) := by
  unfold endOfBody loopStep
  cases x.lord <;> rfl

/-- What the test of one set leaves of everything but that set's count and active bit. -/
structure KeptBut (n : Bool) (x y : Scalar) : Prop where
  on : loopOn y (!n) = loopOn x (!n)
  count : loopCount y (!n) = loopCount x (!n)
  start : ∀ m, loopStart y m = loopStart x m
  stop : ∀ m, loopEnd y m = loopEnd x m
  pc : y.pc = x.pc
  status : ∀ i, 2 ≤ i → y.status.getLsbD i = x.status.getLsbD i

theorem keptBut_refl (n : Bool) (x : Scalar) : KeptBut n x x := ⟨rfl, rfl, fun _ => rfl, fun _ => rfl, rfl, fun _ _ => rfl⟩

/-- A set whose loop does not end here is left as it is. -/
theorem loopStep_of_not_ends {x : Scalar} {n : Bool} (h : ¬ends x n) : loopStep x n = (none, x) := by
  cases n
  · have hc : (x.la0 && x.pc == x.lend0) = false := by simpa [ends, loopOn, loopEnd] using h
    simp [loopStep, loopEnd0, hc]
  · have hc : (x.la1 && x.pc == x.lend1) = false := by simpa [ends, loopOn, loopEnd] using h
    simp [loopStep, loopEnd1, hc]

/-- A loop that ends here with passes left goes to its start with one pass less. -/
theorem loopStep_of_passes {x : Scalar} {n : Bool} (h : ends x n) (hc : 1 < (loopCount x n).toNat) :
    ∃ y, loopStep x n = (some (loopStart x n), y) ∧ KeptBut n x y ∧ loopOn y n = true ∧ loopCount y n = loopCount x n - 1 := by
  obtain ⟨hon, hpc⟩ := h
  cases n
  · refine ⟨{ x with lcount0 := x.lcount0 - 1 }, ?_, ⟨rfl, rfl, fun _ => rfl, fun _ => rfl, rfl, fun _ _ => rfl⟩, hon, rfl⟩
    have hb : (x.la0 && x.pc == x.lend0) = true := by simpa [loopOn, loopEnd] using And.intro hon hpc
    simp only [loopStep, loopEnd0, hb, Bool.false_eq_true, if_false, if_true]
    exact if_pos hc
  · refine ⟨{ x with lcount1 := x.lcount1 - 1 }, ?_, ⟨rfl, rfl, fun _ => rfl, fun _ => rfl, rfl, fun _ _ => rfl⟩, hon, rfl⟩
    have hb : (x.la1 && x.pc == x.lend1) = true := by simpa [loopOn, loopEnd] using And.intro hon hpc
    simp only [loopStep, loopEnd1, hb, if_true]
    exact if_pos hc

/-- A loop that ends here without a pass left becomes inactive, its count 0. -/
theorem loopStep_of_over {x : Scalar} {n : Bool} (h : ends x n) (hc : ¬1 < (loopCount x n).toNat) :
    ∃ y, loopStep x n = (none, y) ∧ KeptBut n x y ∧ loopOn y n = false ∧ loopCount y n = 0#64 := by
  obtain ⟨hon, hpc⟩ := h
  have hbit (k i : Nat) (hk : k < 64) : (setBit x.status k false).getLsbD i = if i = k then false else x.status.getLsbD i :=
    getLsbD_setBit _ _ _ _ hk
  cases n
  · refine ⟨{ x with lcount0 := 0, status := setBit x.status 0 false }, ?_, ⟨?_, rfl, fun _ => rfl, fun _ => rfl, rfl, fun i hi => ?_⟩, ?_, rfl⟩
    · have hb : (x.la0 && x.pc == x.lend0) = true := by simpa [loopOn, loopEnd] using And.intro hon hpc
      simp only [loopStep, loopEnd0, hb, Bool.false_eq_true, if_false, if_true]
      exact if_neg hc
    · exact (hbit 0 1 (by decide)).trans (if_neg (by decide))
    · exact (hbit 0 i (by decide)).trans (if_neg (by omega))
    · exact (hbit 0 0 (by decide)).trans (if_pos rfl)
  · refine ⟨{ x with lcount1 := 0, status := setBit x.status 1 false }, ?_, ⟨?_, rfl, fun _ => rfl, fun _ => rfl, rfl, fun i hi => ?_⟩, ?_, rfl⟩
    · have hb : (x.la1 && x.pc == x.lend1) = true := by simpa [loopOn, loopEnd] using And.intro hon hpc
      simp only [loopStep, loopEnd1, hb, if_true]
      exact if_neg hc
    · exact (hbit 1 0 (by decide)).trans (if_neg (by decide))
    · exact (hbit 1 i (by decide)).trans (if_neg (by omega))
    · exact (hbit 1 1 (by decide)).trans (if_pos rfl)

/-- What the test of one set does, in its three cases. -/
theorem loopStep_cases (x : Scalar) (n : Bool) : ∃ o y, loopStep x n = (o, y) ∧ KeptBut n x y ∧
    ((ends x n ∧ 1 < (loopCount x n).toNat ∧ o = some (loopStart x n) ∧ loopOn y n = true ∧ loopCount y n = loopCount x n - 1) ∨
     (ends x n ∧ (loopCount x n).toNat ≤ 1 ∧ o = none ∧ loopOn y n = false ∧ loopCount y n = 0#64) ∨
     (¬ends x n ∧ o = none ∧ loopOn y n = loopOn x n ∧ loopCount y n = loopCount x n)) := by
  by_cases h : ends x n
  · by_cases hc : 1 < (loopCount x n).toNat
    · obtain ⟨y, e, k, hon, hcnt⟩ := loopStep_of_passes h hc
      exact ⟨_, y, e, k, .inl ⟨h, hc, rfl, hon, hcnt⟩⟩
    · obtain ⟨y, e, k, hon, hcnt⟩ := loopStep_of_over h hc
      exact ⟨_, y, e, k, .inr (.inl ⟨h, by omega, rfl, hon, hcnt⟩)⟩
  · exact ⟨_, x, loopStep_of_not_ends h, keptBut_refl n x, .inr (.inr ⟨h, rfl, rfl, rfl⟩)⟩

theorem returns_recent (x : Scalar) : returns x x.lord ↔ ends x x.lord ∧ 1 < (loopCount x x.lord).toNat := by
  simp [returns]

theorem returns_other (x : Scalar) : returns x (!x.lord) ↔
    ends x (!x.lord) ∧ 1 < (loopCount x (!x.lord)).toNat ∧ ¬(ends x x.lord ∧ 1 < (loopCount x x.lord).toNat) := by
  simp [returns]

theorem fallsThrough_recent (x : Scalar) : fallsThrough x x.lord ↔ ends x x.lord ∧ (loopCount x x.lord).toNat ≤ 1 := by
  simp [fallsThrough]

theorem fallsThrough_other (x : Scalar) : fallsThrough x (!x.lord) ↔
    ends x (!x.lord) ∧ (loopCount x (!x.lord)).toNat ≤ 1 ∧ ¬(ends x x.lord ∧ 1 < (loopCount x x.lord).toNat) := by
  simp [fallsThrough]

/-- What the test makes of one set: it returns to its start, ends it, or leaves it (R72). -/
structure LoopTested (x : Scalar) (o : Option Word) (y : Scalar) (n : Bool) : Prop where
  ofReturns : returns x n → o = some (loopStart x n) ∧ loopOn y n = true ∧ loopCount y n = loopCount x n - 1
  ofFalls : fallsThrough x n → loopOn y n = false ∧ loopCount y n = 0#64
  ofNeither : ¬returns x n → ¬fallsThrough x n → loopOn y n = loopOn x n ∧ loopCount y n = loopCount x n

/-- The two tests in order: the other set is tested only if the more recent one does not return. -/
theorem endOfBody_spec (x : Scalar) : (∀ n, LoopTested x (endOfBody x).1 (endOfBody x).2 n) ∧
    ((∀ n, ¬returns x n) → (endOfBody x).1 = none) ∧ (endOfBody x).2.pc = x.pc ∧
    ∀ i, 2 ≤ i → (endOfBody x).2.status.getLsbD i = x.status.getLsbD i := by
  obtain ⟨o, y, e, k, hcases⟩ := loopStep_cases x x.lord
  have hr := returns_recent x
  have ho := returns_other x
  have fr := fallsThrough_recent x
  have fo := fallsThrough_other x
  rw [endOfBody_eq, e, Bool.forall_bool' x.lord, Bool.forall_bool' x.lord]
  by_cases hret : returns x x.lord
  · obtain ⟨hend, hc⟩ := hr.mp hret
    obtain ⟨-, -, rfl, hon, hcnt⟩ : _ ∧ _ ∧ o = some _ ∧ _ := by
      obtain h | ⟨-, hle, -⟩ | ⟨hne, -⟩ := hcases
      · exact h
      · omega
      · exact absurd hend hne
    refine ⟨⟨⟨fun _ => ⟨rfl, hon, hcnt⟩, fun h => ?_, fun h => absurd hret h⟩, ⟨fun h => ?_, fun h => ?_, fun _ _ => ⟨k.on, k.count⟩⟩⟩,
      fun h => absurd hret h.1, k.pc, k.status⟩
    · have := (fr.mp h).2
      omega
    · exact absurd ⟨hend, hc⟩ (ho.mp h).2.2
    · exact absurd ⟨hend, hc⟩ (fo.mp h).2.2
  · have hno : ¬(ends x x.lord ∧ 1 < (loopCount x x.lord).toNat) := fun h => hret (hr.mpr h)
    obtain rfl : o = none := by
      obtain ⟨hend, hc, -⟩ | ⟨-, -, h, -⟩ | ⟨-, h, -⟩ := hcases
      · exact absurd ⟨hend, hc⟩ hno
      · exact h
      · exact h
    obtain ⟨o', z, e', k', hcases'⟩ := loopStep_cases y (!x.lord)
    have hends : ends y (!x.lord) ↔ ends x (!x.lord) := by rw [ends, ends, k.on, k.stop, k.pc]
    have hkeep : loopOn z x.lord = loopOn y x.lord ∧ loopCount z x.lord = loopCount y x.lord := by simpa using And.intro k'.on k'.count
    rw [hends, k.count, k.on, k.start] at hcases'
    simp only [e']
    refine ⟨⟨⟨fun h => absurd h hret, fun h => ?_, fun _ h => ?_⟩, ?_⟩, fun h => ?_, k'.pc.trans k.pc, fun i hi => (k'.status i hi).trans (k.status i hi)⟩
    · rw [hkeep.1, hkeep.2]
      grind
    · rw [hkeep.1, hkeep.2]
      grind
    · constructor <;> grind
    · grind

/-- Settles O6: a NOP retires, and a retirement is the end-of-body test. -/
theorem endOfBodyTest : Obligations.EndOfBodyTest := by
  intro s g ha
  obtain ⟨honly, hregs, hpreds, hrest, -⟩ := passes_retire s
  have hs : stream s.retire = (stream s).retire := stream_upSc s _
  obtain ⟨htested, hnone, -, hstatus⟩ := endOfBody_spec (stream s)
  refine ⟨_, (exec_nop g s).trans (issue_acts (dst := none) _ ha), honly, hregs, hpreds, hrest, ?_⟩
  rw [hs]
  refine ⟨rfl, fun n hn => ?_, fun n hn => (htested n).ofFalls hn, fun n h h' => (htested n).ofNeither h h', fun h => ?_, hstatus⟩
  · obtain ⟨hsome, hon, hcount⟩ := (htested n).ofReturns hn
    exact ⟨congrArg (fun o => o.getD ((stream s).pc + 8)) hsome, hon, hcount⟩
  · exact congrArg (fun o => o.getD ((stream s).pc + 8)) (hnone h)

end Sys2Proof.Machine
end

section
/-! Taken transfers (R65 to R67). -/
namespace Sys2Proof.Machine
set_option Elab.async false
open Safety

/-! ### A taken transfer -/

theorem immWords_eq (imm : BitVec 28) : immWords imm = 8 * imm.signExtend 64 := by
  unfold immWords imm28
  rw [BitVec.shiftLeft_eq_mul_twoPow, BitVec.mul_comm]
  rfl

theorem inBody_iff (lo hi a : Word) : inBody lo hi a = true ↔ lo.toNat ≤ a.toNat ∧ a.toNat ≤ hi.toNat := by
  simp [inBody]

/-- The loop that a transfer leaves. -/
def left (x : Scalar) (target : Word) (n : Bool) : Bool :=
  loopOn x n && inBody (loopStart x n) (loopEnd x n) x.pc && !inBody (loopStart x n) (loopEnd x n) target

theorem left_iff (x : Scalar) (target : Word) (n : Bool) :
    left x target n = true ↔ loopOn x n = true ∧ inLoop x n x.pc ∧ ¬inLoop x n target := by
  unfold left inLoop
  rw [Bool.and_eq_true, Bool.and_eq_true, Bool.not_eq_true', inBody_iff, ← Bool.not_eq_true, inBody_iff, and_assoc]

/-- STATUS after a transfer: the active bits of the loops that it leaves are 0. -/
theorem status_jump (x : Scalar) (target : Word) (i : Nat) : (x.jump target).status.getLsbD i =
    if (i = 0 ∧ left x target false = true) ∨ (i = 1 ∧ left x target true = true) then false else x.status.getLsbD i := by
  have h : (x.jump target).status =
      (if left x target true then setBit (if left x target false then setBit x.status 0 false else x.status) 1 false
        else if left x target false then setBit x.status 0 false else x.status) := rfl
  rw [h]
  cases left x target true <;> cases left x target false <;> (simp [getLsbD_setBit]; try grind)

theorem loopOn_jump (x : Scalar) (target : Word) (n : Bool) : loopOn (x.jump target) n = true ↔ loopOn x n = true ∧ ¬left x target n = true := by
  cases n
  · show (x.jump target).status.getLsbD 0 = true ↔ x.status.getLsbD 0 = true ∧ _
    rw [status_jump]
    cases left x target false <;> simp
  · show (x.jump target).status.getLsbD 1 = true ↔ x.status.getLsbD 1 = true ∧ _
    rw [status_jump]
    cases left x target true <;> simp

/-- A taken transfer of a stream of which only registers have just been written. -/
theorem jumpsTo_of_regs {s u : State} {ds : List (BitVec 6)} (target : Word) (hu : onlyStream s u)
    (he : stream u = { stream s with regs := (stream u).regs }) (hr : regsKept (stream s) (stream u) ds) : jumpsTo s target ds (u.jump target) := by
  have hs : stream (u.jump target) = (stream u).jump target := stream_upSc u _
  unfold jumpsTo
  rw [hs]
  generalize stream u = x at he hr
  have hon (n : Bool) : loopOn x n = loopOn (stream s) n := by
    rw [he]
    rfl
  have hleft (n : Bool) : left x target n = left (stream s) target n := by
    rw [he]
    rfl
  refine ⟨onlyStream_trans hu (onlyStream_upSc _ _), hr, fun p _ => ?_, ?_, rfl, rfl, fun n => ?_, fun n => ?_, fun i hi => ?_⟩
  · rw [he]
    rfl
  · rw [he]
    rfl
  · rw [he]
    rfl
  · rw [loopOn_jump, hon, hleft, left_iff]
    tauto
  · rw [status_jump, if_neg (by omega), he]

theorem jumpsTo_jump (s : State) (target : Word) : jumpsTo s target [] (s.jump target) :=
  jumpsTo_of_regs target ⟨rfl, fun _ _ => rfl⟩ rfl fun _ _ => rfl

/-- A call writes s63 and jumps. -/
theorem jumpsTo_call (s : State) (target : Word) :
    jumpsTo s target [63#6] ((s.wr 63#6 (s.pc + 8)).jump target) ∧ (stream ((s.wr 63#6 (s.pc + 8)).jump target)).reg 63#6 = (stream s).pc + 8 := by
  have hw : stream (s.wr 63#6 (s.pc + 8)) = (stream s).setReg 63#6 ((stream s).pc + 8) := stream_upSc s _
  have hreg (r : BitVec 6) := reg_setReg_of_ne (stream s) (r := 63#6) (by decide) ((stream s).pc + 8) r
  constructor
  · refine jumpsTo_of_regs target (onlyStream_upSc s _) ?_ fun r hr => ?_
    · rw [hw]
      rfl
    · rw [hw, hreg, if_neg (by simpa using hr)]
  · have hs : stream ((s.wr 63#6 (s.pc + 8)).jump target) = (stream (s.wr 63#6 (s.pc + 8))).jump target := stream_upSc _ _
    rw [hs, hw]
    exact (hreg 63#6).trans (if_pos rfl)

/-- Settles O7: each form jumps once it acts, and a register target that is misaligned traps. -/
theorem branchesAndCalls : Obligations.BranchesAndCalls := by
  intro s g a imm
  refine ⟨fun ha => ?_, fun ha => ?_, fun ha h8 => ?_, fun ha h8 => ?_, fun h8 ht => ⟨fun ha => ?_, fun ha => ?_⟩⟩
  · rw [← immWords_eq]
    exact ⟨_, (exec_br g imm s).trans (issue_acts (dst := none) _ ha), jumpsTo_jump s _⟩
  · rw [← immWords_eq]
    exact ⟨_, (exec_call g imm s).trans (issue_acts (dst := some 63#6) _ ha), jumpsTo_call s _⟩
  · refine ⟨_, (exec_jr g a s).trans (issue_acts (dst := none) _ ha), ?_⟩
    rw [if_neg (not_not_intro h8)]
    exact jumpsTo_jump s _
  · refine ⟨_, (exec_callr g a s).trans (issue_acts (dst := some 63#6) _ ha), ?_⟩
    rw [if_neg (not_not_intro h8)]
    exact jumpsTo_call s _
  · refine ⟨_, (exec_jr g a s).trans (issue_acts (dst := none) _ ha), ?_⟩
    rw [if_pos h8]
    exact trapped_trap s 3 0 _ (by decide) ht
  · refine ⟨_, (exec_callr g a s).trans (issue_acts (dst := some 63#6) _ ha), ?_⟩
    rw [if_pos h8]
    exact trapped_trap s 3 0 _ (by decide) ht

end Sys2Proof.Machine
end

section
/-! The setup of hardware loops (R71). -/
namespace Sys2Proof.Machine
set_option Elab.async false
open Safety

theorem eq_zero_or_eq_one (n : BitVec 1) : n = 0#1 ∨ n = 1#1 := by
  revert n
  decide

/-- A loop set up with a count: its registers, and STATUS (R71). -/
structure LoopSet (x y : Scalar) (n : BitVec 1) (start fin cnt : Word) : Prop where
  rest : y = { x with lstart0 := y.lstart0, lend0 := y.lend0, lcount0 := y.lcount0, lstart1 := y.lstart1, lend1 := y.lend1, lcount1 := y.lcount1,
                      status := y.status }
  start : loopStart y (n == 1#1) = start
  stop : loopEnd y (n == 1#1) = fin
  count : loopCount y (n == 1#1) = cnt
  on : loopOn y (n == 1#1) = true ↔ cnt ≠ 0#64
  otherStart : loopStart y (n == 0#1) = loopStart x (n == 0#1)
  otherStop : loopEnd y (n == 0#1) = loopEnd x (n == 0#1)
  otherCount : loopCount y (n == 0#1) = loopCount x (n == 0#1)
  otherOn : loopOn y (n == 0#1) = loopOn x (n == 0#1)
  lord : y.lord = if cnt = 0#64 then x.lord else n == 1#1
  status : ∀ j, 3 ≤ j → y.status.getLsbD j = x.status.getLsbD j

/-- STATUS after the setup of a loop: LA of its set, and LORD where it is active. -/
theorem status_setLoop (x : Scalar) (n : BitVec 1) (start fin cnt : Word) (j : Nat) : (x.setLoop n start fin cnt).status.getLsbD j =
    if j = n.toNat then decide (cnt ≠ 0#64) else if j = 2 ∧ cnt ≠ 0#64 then n == 1#1 else x.status.getLsbD j := by
  obtain rfl | rfl := eq_zero_or_eq_one n
  · have h : (x.setLoop 0#1 start fin cnt).status =
        if decide (cnt ≠ 0#64) = true then setBit (setBit x.status 0 true) 2 false else setBit x.status 0 false := rfl
    rw [h]
    by_cases hc : cnt = 0#64 <;> simp [hc, getLsbD_setBit]
    all_goals grind
  · have h : (x.setLoop 1#1 start fin cnt).status =
        if decide (cnt ≠ 0#64) = true then setBit (setBit x.status 1 true) 2 true else setBit x.status 1 false := rfl
    rw [h]
    by_cases hc : cnt = 0#64 <;> simp [hc, getLsbD_setBit]
    all_goals grind

theorem loopSet_setLoop (x : Scalar) (n : BitVec 1) (start fin cnt : Word) : LoopSet x (x.setLoop n start fin cnt) n start fin cnt := by
  have hst := status_setLoop x n start fin cnt
  have hlord : (x.setLoop n start fin cnt).lord = if cnt = 0#64 then x.lord else n == 1#1 := by
    refine (hst 2).trans ?_
    rw [if_neg (by omega)]
    by_cases hc : cnt = 0#64
    · rw [if_neg (by simp [hc]), if_pos hc]
      rfl
    · rw [if_pos ⟨rfl, hc⟩, if_neg hc]
  have hrest (j : Nat) (hj : 3 ≤ j) : (x.setLoop n start fin cnt).status.getLsbD j = x.status.getLsbD j := by
    rw [hst, if_neg (by omega), if_neg (by omega)]
  obtain rfl | rfl := eq_zero_or_eq_one n
  · have hon : loopOn (x.setLoop 0#1 start fin cnt) false = decide (cnt ≠ 0#64) := hst 0
    have hoff : loopOn (x.setLoop 0#1 start fin cnt) true = loopOn x true := hst 1
    exact ⟨rfl, rfl, rfl, rfl, by rw [show ((0#1 : BitVec 1) == 1#1) = false from rfl, hon, decide_eq_true_iff], rfl, rfl, rfl, hoff, hlord, hrest⟩
  · have hon : loopOn (x.setLoop 1#1 start fin cnt) true = decide (cnt ≠ 0#64) := hst 1
    have hoff : loopOn (x.setLoop 1#1 start fin cnt) false = loopOn x false := hst 0
    exact ⟨rfl, rfl, rfl, rfl, by rw [show ((1#1 : BitVec 1) == 1#1) = true from rfl, hon, decide_eq_true_iff], rfl, rfl, rfl, hoff, hlord, hrest⟩

/-- What a loop instruction does once it acts: its set is written, then the first pass begins, or none does. -/
theorem loopBody_eq (n : BitVec 1) (cnt : Word) (imm : BitVec 28) (s : State) : loopBody n cnt imm s =
    let u := s.putSc s.cur ((stream s).setLoop n ((stream s).pc + 8) ((stream s).pc + immWords imm - 8) cnt)
    if cnt = 0#64 then u.jump ((stream s).pc + immWords imm) else u.retire := rfl

theorem completes_loop {i : Instr} {s : State} {n : BitVec 1} {cnt : Word} {imm : BitVec 28} (h : exec i s = .next (loopBody n cnt imm s)) :
    let u := s.putSc s.cur ((stream s).setLoop n ((stream s).pc + 8) ((stream s).pc + immWords imm - 8) cnt)
    (cnt ≠ 0#64 → completes i s (passes u)) ∧
      (cnt = 0#64 → completes i s (jumpsTo u ((stream s).pc + 8 * imm.signExtend 64) [])) := by
  intro u
  rw [loopBody_eq] at h
  refine ⟨fun hc => ⟨_, h, ?_⟩, fun hc => ⟨_, h, ?_⟩⟩
  · rw [if_neg hc]
    exact passes_retire u
  · rw [if_pos hc, ← immWords_eq]
    exact jumpsTo_jump u _

/-- Settles O8: LOOP and LOOPI set their registers with `setLoop`, then go on or jump. -/
theorem loopSetup : Obligations.LoopSetup := by
  intro s g n imm i cnt hi
  have hexec : exec i s = .next (loopBody n cnt imm s) := by
    obtain ⟨a, rfl, rfl, ha⟩ | ⟨c, rfl, rfl, ha⟩ := hi
    · exact (exec_loop g n a imm s).trans (issue_acts (dst := none) _ ha)
    · exact (exec_loopi g n c imm s).trans (issue_acts (dst := none) _ ha)
  have hset := loopSet_setLoop (stream s) n ((stream s).pc + 8) ((stream s).pc + immWords imm - 8) cnt
  have hfin : (stream s).pc + immWords imm - 8 = (stream s).pc + 8 * (imm.signExtend 64 - 1) := by
    rw [immWords_eq, BitVec.mul_sub]
    ring
  obtain ⟨hgo, hskip⟩ := completes_loop hexec
  exact ⟨_, hset.rest, hset.start, hset.stop.trans hfin, hset.count, hset.on, hset.otherStart, hset.otherStop, hset.otherCount, hset.otherOn,
    hset.lord, hset.status, hgo, hskip⟩

end Sys2Proof.Machine
end

section
/-! Steps 2 to 5 of Table 4.4 over every scalar instruction (R32, R34, R35, R41). -/
namespace Sys2Proof.Machine
set_option Elab.async false
open Safety

/-! ### Every scalar instruction takes the shared steps -/

/-- An instruction takes steps 3 to 6 of Table 4.4 with its class, its guard, and sources and a destination that are those of its word. -/
def Issues (i : Instr) (g : Guard) (cls : Nat) (s : State) : Prop :=
  ∃ (srcs : List Src) (dst : Option (BitVec 6)) (body : State → State), exec i s = issue cls g srcs dst s body ∧
    (∀ x, srcsReady x srcs = srcsReady x (srcsOf i)) ∧ ∀ x : Scalar, dst.any x.isEmpty = x.isEmpty (dstOf i)

section
variable {i : Instr} {cls : Nat} {g : Guard} {srcs : List Src} {dst : Option (BitVec 6)} {s : State} {body : State → State}

theorem issueCore_eq (h : isCore s.cur = true) : issueCore i cls g srcs dst s body = issue cls g srcs dst s body := if_pos h

theorem issueThread_eq (h : isCore s.cur = false) : issueThread i cls g srcs dst s body = issue cls g srcs dst s body :=
  if_neg (by rw [h]; decide)

theorem issuePriv_eq (h : (stream s).ctx = 0#6) : issuePriv i cls g srcs dst s body = issue cls g srcs dst s body := if_pos h

theorem issueCore_illegal (h : isCore s.cur = false) : issueCore i cls g srcs dst s body = .next (s.illegal i 2) := if_neg (by rw [h]; decide)

theorem issueThread_illegal (h : isCore s.cur = true) : issueThread i cls g srcs dst s body = .next (s.illegal i 2) := if_pos h

theorem issuePriv_illegal (h : (stream s).ctx ≠ 0#6) : issuePriv i cls g srcs dst s body = .next (s.illegal i 3) := if_neg h

theorem issues_mk (h : exec i s = issue cls g srcs dst s body) (hs : ∀ x, srcsReady x srcs = srcsReady x (srcsOf i))
    (hd : ∀ x : Scalar, dst.any x.isEmpty = x.isEmpty (dstOf i)) : Issues i g cls s :=
  ⟨srcs, dst, body, h, hs, hd⟩

end

/-- An MTCR, by the register that it writes (R41, R84). -/
theorem issues_mtcr {g : Guard} {a : Src} {c : BitVec 12} {s : State} (ha : allowedOn (.mtcr g a c) s) : Issues (.mtcr g a c) g 0 s := by
  have hpriv (hc : c = 0x100#12 ∨ 0x800 ≤ c.toNat) : (stream s).ctx = 0#6 := by
    refine ha.2.2 ⟨_, rfl, .inr ⟨rfl, ?_⟩⟩
    obtain rfl | hc := hc
    · exact .inr (.inl rfl)
    · refine .inr (.inr ?_)
      rwa [show (c.setWidth 28).toNat = c.toNat from BitVec.toNat_setWidth_of_le (by decide)]
  rw [Issues, exec_mtcr, execMtcr]
  by_cases h1 : c = 0x100#12
  · simp only [if_pos h1]
    exact ⟨_, _, _, issuePriv_eq (hpriv (.inl h1)), fun _ => rfl, fun _ => rfl⟩
  · by_cases h8 : 0x800 ≤ c.toNat
    · simp only [if_neg h1, if_pos h8]
      exact ⟨_, _, _, issuePriv_eq (hpriv (.inr h8)), fun _ => rfl, fun _ => rfl⟩
    · simp only [if_neg h1, if_neg h8]
      exact ⟨_, _, _, rfl, fun _ => rfl, fun _ => rfl⟩

/-- Every scalar instruction that step 2 lets through takes the shared steps. -/
theorem issues_of_guardOf {i : Instr} {g : Guard} {cls : Nat} {s : State} (hg : guardOf i = some g) (hc : classOf i = some cls)
    (ha : allowedOn i s) : Issues i g cls s := by
  cases i
  all_goals try contradiction
  all_goals
    obtain rfl : _ = g := Option.some.inj hg
    obtain rfl : _ = cls := Option.some.inj hc
  case mtcr => exact issues_mtcr ha
  case push | pushm | rtail | qfence | semadd | semwait | waitb | semrdDone | semrdPend | tbar | sstep | cbar | cstep | phint | phase =>
    apply issues_mk
    · exact issueCore_eq (ha.1 ⟨_, rfl, by simp [baseFields]⟩)
    · exact fun _ => rfl
    · exact fun _ => rfl
  case waita =>
    apply issues_mk
    · exact issueThread_eq (ha.2.1 ⟨_, rfl, rfl⟩)
    · exact fun _ => rfl
    · exact fun _ => rfl
  case shoot | mleaseWrite | corecapWrite | lcmentWrite | leadcasWrite | hbeatWrite =>
    apply issues_mk
    · exact issuePriv_eq (ha.2.2 ⟨_, rfl, by simp [baseFields]⟩)
    · exact fun _ => rfl
    · exact fun _ => rfl
  all_goals
    apply issues_mk
    · delta exec
      rfl
    · exact fun _ => rfl
    · exact fun _ => rfl

/-- Settles O10: the class and the kind of core let the instruction reach its guard, which fails. -/
theorem failedGuardRetires : Obligations.FailedGuardRetires := by
  intro i g cls s hg hc ha hcls hp
  obtain ⟨srcs, dst, body, hexec, -⟩ := issues_of_guardOf hg hc ha
  have hguard : s.guardOk g = false := by simpa [State.guardOk] using hp
  exact ⟨_, hexec.trans (issue_guard srcs dst body hcls hguard), passes_retire s⟩

end Sys2Proof.Machine
end

section
/-! Empty operands (R34, R35). -/
namespace Sys2Proof.Machine
set_option Elab.async false
open Safety

/-! ### The sources and the destination -/

/-- The first empty source decides. -/
theorem srcsReady_of_first_empty (x : Scalar) (a : Src) (l r : List Src) (hl : ∀ b ∈ l, x.isEmpty b.r = false) (ha : x.isEmpty a.r = true) :
    srcsReady x (l ++ a :: r) = if a.trap then .empty a.r else .stall := by
  induction l with
  | nil => simp [srcsReady, ha]
  | cons b l ih => simpa [srcsReady, hl b] using ih fun c hc => hl c (List.mem_cons_of_mem _ hc)

section
variable {s : State} {cls : Nat} {g : Guard} {srcs : List Src} {dst : Option (BitVec 6)} {body : State → State}

theorem issue_ready (hc : s.hasClass cls = true) (hg : (stream s).pred g.p ≠ g.neg) : issue cls g srcs dst s body = .next
    (match srcsReady (stream s) srcs with
      | .empty r => s.trap 6 0 (r.setWidth 64)
      | .stall => s
      | .full => if dst.any (stream s).isEmpty then s else body s) := by
  have hguard : s.guardOk g = true := by simpa [State.guardOk] using hg
  unfold issue
  rw [hc, hguard]
  rfl

theorem issue_source_traps {r : BitVec 6} (hc : s.hasClass cls = true) (hg : (stream s).pred g.p ≠ g.neg)
    (h : srcsReady (stream s) srcs = .empty r) : issue cls g srcs dst s body = .next (s.trap 6 0 (r.setWidth 64)) := by
  rw [issue_ready hc hg, h]

theorem issue_source_stalls (hc : s.hasClass cls = true) (hg : (stream s).pred g.p ≠ g.neg) (h : srcsReady (stream s) srcs = .stall) :
    issue cls g srcs dst s body = .next s := by
  rw [issue_ready hc hg, h]

theorem issue_destination_stalls (hc : s.hasClass cls = true) (hg : (stream s).pred g.p ≠ g.neg) (h : srcsReady (stream s) srcs = .full)
    (hd : dst.any (stream s).isEmpty = true) : issue cls g srcs dst s body = .next s := by
  rw [issue_ready hc hg, h]
  simp only [hd, if_true]

end

theorem emptySourcePolicy : Parts.EmptySourcePolicy := by
  intro i g cls s hg hc ha hcls hp a l r hsrcs hl hempty
  obtain ⟨srcs, dst, body, hexec, hs, -⟩ := issues_of_guardOf hg hc ha
  have hready : srcsReady (stream s) srcs = if a.trap then .empty a.r else .stall := by
    rw [hs, hsrcs, srcsReady_of_first_empty (stream s) a l r hl hempty]
  refine ⟨fun htrap ht => ?_, fun htrap => ?_⟩
  · rw [if_pos htrap] at hready
    exact ⟨_, hexec.trans (issue_source_traps hcls hp hready), trapped_trap s 6 0 _ (by decide) ht⟩
  · rw [if_neg (by rw [htrap]; decide)] at hready
    exact ⟨_, hexec.trans (issue_source_stalls hcls hp hready), rfl⟩

/-! ### A value that arrives -/

/-- A register has just been filled in a stream that is otherwise as it was, but for its cache and its pending loads. -/
theorem filled_putSc (s : State) (y : Scalar) (r : BitVec 6) (v : Word) (hregs : y.regs = (stream s).regs) (hmarks : y.empty = (stream s).empty)
    (hpc : y.pc = (stream s).pc) (hrun : y.run = (stream s).run) :
    let t := s.putSc s.cur (y.fillReg r v)
    onlyStream s t ∧ (r ≠ 0#6 → (stream t).reg r = v) ∧ (stream t).isEmpty r = false ∧ regsKept (stream s) (stream t) [r] ∧
      (∀ q, q ≠ r → (stream t).isEmpty q = (stream s).isEmpty q) ∧ (stream t).pc = (stream s).pc ∧ (stream t).run = (stream s).run := by
  intro t
  have ht : stream t = y.fillReg r v := stream_upSc s fun _ => y.fillReg r v
  have hreg (q : BitVec 6) : y.reg q = (stream s).reg q := by rw [Scalar.reg, Scalar.reg, hregs]
  have hmark (q : BitVec 6) : y.isEmpty q = (stream s).isEmpty q := by rw [Scalar.isEmpty, Scalar.isEmpty, hmarks]
  have honly : onlyStream s t := onlyStream_upSc s fun _ => y.fillReg r v
  have hkept : (y.fillReg r v).pc = y.pc ∧ (y.fillReg r v).run = y.run := by
    unfold Scalar.fillReg Scalar.setReg
    split <;> exact ⟨rfl, rfl⟩
  rw [ht]
  by_cases hr : r = 0#6
  · subst hr
    refine ⟨honly, fun h => absurd rfl h, isEmpty_zero y, fun q _ => hreg q, fun q _ => hmark q, hkept.1.trans hpc, hkept.2.trans hrun⟩
  · refine ⟨honly, fun _ => ?_, ?_, fun q hq => ?_, fun q hq => ?_, hkept.1.trans hpc, hkept.2.trans hrun⟩
    · rw [reg_fillReg, reg_setReg_of_ne y hr, if_pos rfl]
    · rw [isEmpty_fillReg y hr, if_pos rfl]
    · rw [reg_fillReg, reg_setReg_of_ne y hr, if_neg (by simpa using hq), hreg]
    · rw [isEmpty_fillReg y hr, if_neg hq, hmark]

theorem emptyDestinationStalls : Parts.EmptyDestinationStalls := by
  refine ⟨fun i g cls s hg hc ha hcls hp hsrcs hempty => ?_, fun s k f v hf hverdict hval hacq => ?_⟩
  · obtain ⟨srcs, dst, body, hexec, hs, hd⟩ := issues_of_guardOf hg hc ha
    have hready : srcsReady (stream s) srcs = .full := (hs _).trans (srcsReady_full _ _ hsrcs)
    exact ⟨_, hexec.trans (issue_destination_stalls hcls hp hready ((hd _).trans hempty)), rfl⟩
  · cases ha : f.acq with
    | false =>
      have hexec : exec (.globalLoadFill k) s = .next (s.putSc s.cur ((dropFill (stream s) k).fillReg f.reg v)) := by
        rw [exec_globalLoadFill, execGlobalLoadFill, ← stream_eq, hf]
        simp only [ha, hverdict, hval, Bool.or_self, Bool.false_eq_true, if_false]
      exact ⟨_, hexec, filled_putSc s (dropFill (stream s) k) f.reg v rfl rfl rfl rfl⟩
    | true =>
      have hexec : exec (.acquireLoadFill k) s =
          .next (s.putSc s.cur (((dropFill (stream s) k).invalidate fun l => l.dirty == 0).fillReg f.reg v)) := by
        rw [exec_acquireLoadFill, execAcquireLoadFill, ← stream_eq, hf]
        simp only [ha, hval, Bool.not_true, Bool.false_eq_true, if_false, finishAcq]
        rw [← stream_eq, hacq ha]
      exact ⟨_, hexec, filled_putSc s ((dropFill (stream s) k).invalidate fun l => l.dirty == 0) f.reg v rfl rfl rfl rfl⟩

/-- Settles O12: the sources and the destination of the word are those of the shared steps, and a value fills its register only. -/
theorem emptyOperands : Obligations.EmptyOperands := ⟨emptySourcePolicy, emptyDestinationStalls⟩

end Sys2Proof.Machine
end

section
/-! Illegal operations (R40, R41), traps that cannot be taken (R85) and ERET (R86). -/
namespace Sys2Proof.Machine
set_option Elab.async false
open Safety

/-! ### Illegal operations -/

/-- Thread 0 at address 0 in context 3, with a trap vector. -/
def threadOfContext3 : State := ({ State.reset with cur := 4096 } : State).upSc fun x => { x with ctx := 3, tvec := 0x100 }

/-- An MTCR of the general form to MLEASE's number, under a guard that fails. -/
def mtcrMlease : Instr := .mtcr ⟨0, true⟩ ⟨1, false⟩ 0x062

theorem exec_mtcrMlease : exec mtcrMlease threadOfContext3 = .next threadOfContext3.retire := by
  have hstep : exec mtcrMlease threadOfContext3 =
      issue 0 ⟨0, true⟩ [⟨1, false⟩] none threadOfContext3 fun s => writeCreg 0x062 (s.rd ⟨1, false⟩) s := by
    rw [mtcrMlease, exec_mtcr, execMtcr]
    rfl
  exact hstep.trans (issue_guard _ none _ (by decide +kernel) (by decide +kernel))

/-- Refutes O16: the words "privileged" and "encodes" also hold of the general MTCR with MLEASE's number, which no word decodes to and which
runs as a write to an unprivileged register. -/
theorem not_illegalOperations : ¬Obligations.IllegalOperations := by
  rintro ⟨-, -, hpriv⟩
  obtain ⟨t, hexec, -, htrap, -⟩ := hpriv mtcrMlease threadOfContext3 _ rfl ⟨_, rfl, by decide⟩ (by decide +kernel)
    (by unfold canTrap; decide +kernel)
  obtain rfl : threadOfContext3.retire = t := by
    rw [exec_mtcrMlease] at hexec
    injection hexec
  have hpc : (stream threadOfContext3.retire).pc = (stream threadOfContext3).tvec := by rw [htrap]
  exact absurd hpc (by decide +kernel)

/-! ### A trap that cannot be taken -/

/-- A fault of a scalar stream that is no firmware core's: the stream halts and the fault is noted, with the cause and detail, and nothing else
changes. -/
theorem ctxFault_eq {s : State} (hfw : isFw s.cur = false) (cause detail : Nat) (val : Word) :
    ∃ f : FaultRec, s.ctxFault cause detail val = { s.putSc s.cur { stream s with run := .halted } with faults := s.faults ++ [f] } ∧
      f.ctx = (stream s).ctx ∧ f.pos = (stream s).pc ∧ f.stat = (stream s).status ∧ f.cause = cause ∧ f.detail = detail ∧ f.val = val := by
  unfold State.ctxFault
  rw [if_neg (by rw [hfw]; decide)]
  exact ⟨_, rfl, rfl, rfl, rfl, rfl, rfl, rfl⟩

/-- A trap inside a handler, or with no handler (R85). -/
theorem trap_not_taken {s : State} {code detail : Nat} {tval : Word} (hcode : code ≠ 2)
    (h : (stream s).th = true ∨ (stream s).tvec = 0#64) :
    s.trap code detail tval = s.ctxFault (if (stream s).th then 0x2A else 0x2B) (detail * 256 + code) 0 := by
  unfold State.trap
  cases hth : (stream s).th with
  | true =>
    rw [stream_eq] at hth
    simp only [hth, if_true]
  | false =>
    have htvec := h.resolve_left (by rw [hth]; decide)
    rw [stream_eq] at hth htvec
    simp only [hth, htvec, decide_eq_false hcode, Bool.false_and, Bool.false_eq_true, if_true, if_false]

/-- Settles O14: the trap that is the instruction's effect becomes the context fault of `trap_not_taken`. -/
theorem trapInHandlerFaults : Obligations.TrapInHandlerFaults := by
  intro s g code ha hfw h
  obtain ⟨f, hfault, hctx, hpos, hstat, hcause, hdetail, -⟩ := ctxFault_eq hfw (if (stream s).th then 0x2A else 0x2B) (0 * 256 + 13) 0
  have hexec : exec (.trapOp g code) s = .next (s.trap 13 0 (code.setWidth 64)) := by
    rw [exec_trapOp_eq_issue, issue_acts (dst := none) _ ha]
  refine ⟨_, hexec, ?_⟩
  rw [trap_not_taken (by decide) h, hfault]
  exact ⟨stream_upSc s fun _ => { stream s with run := .halted }, (onlyStream_upSc s fun _ => { stream s with run := .halted }).2, rfl,
    f, rfl, hctx, hpos, hstat, hcause, hdetail⟩

/-! ### ERET -/

/-- A retirement where no loop ends. -/
theorem retireTo_of_not_ends {x : Scalar} (h : ∀ n, ¬ends x n) (next : Word) : x.retireTo next = { x with pc := next, run := .running } := by
  have htest : endOfBody x = (none, x) := by
    rw [endOfBody_eq, loopStep_of_not_ends (h _)]
    exact loopStep_of_not_ends (h _)
  rw [Scalar.retireTo, htest]
  rfl

/-- STATUS as ERET leaves it (R86). -/
theorem getLsbD_eretStatus (x : Scalar) (i : Nat) (hi : i < 64) : x.eretStatus.getLsbD i =
    if i = 7 ∨ i < 3 then x.tstatus.getLsbD i else if i = 6 then x.ph else false := by
  have hmask : ∀ j : Fin 64, (0x40#64).getLsbD j = decide (j.val = 6) ∧ (0x87#64).getLsbD j = decide (j.val = 7 ∨ j.val < 3) := by decide
  obtain ⟨h40, h87⟩ := hmask ⟨i, hi⟩
  unfold Scalar.eretStatus Scalar.ph
  rw [BitVec.getLsbD_or, BitVec.getLsbD_and, BitVec.getLsbD_and, h40, h87]
  by_cases h : i = 7 ∨ i < 3
  · have h6 : i ≠ 6 := by omega
    simp [h, h6]
  · by_cases h6 : i = 6
    · subst h6
      simp
    · simp [h, h6]

/-- Settles O15: with no loop ending at ERET the stream goes to TPC with the restored STATUS. -/
theorem eretReturns : Obligations.EretReturns := by
  intro s g ha h0 h1
  have hexec : exec (.eret g) s = .next (s.upSc Scalar.eret) := by
    rw [exec_eret, execEret, issue_acts (dst := none) _ ha]
  have hbit (i : Nat) (hi : i < 2) : (stream s).eretStatus.getLsbD i = (stream s).tstatus.getLsbD i := by
    rw [getLsbD_eretStatus _ i (by omega), if_pos (by omega)]
  have hends (n : Bool) : ¬ends { stream s with status := (stream s).eretStatus } n := by
    rintro ⟨hon, hpc⟩
    cases n
    · exact h0 ⟨(hbit 0 (by decide)).symm.trans hon, hpc⟩
    · exact h1 ⟨(hbit 1 (by decide)).symm.trans hon, hpc⟩
  have hstream : stream (s.upSc Scalar.eret) = { stream s with status := (stream s).eretStatus, pc := (stream s).tpc, run := .running } :=
    (stream_upSc s Scalar.eret).trans (retireTo_of_not_ends hends _)
  refine ⟨_, hexec, onlyStream_upSc s _, ?_, fun i hi => ?_⟩
  · rw [hstream]
  · rw [hstream]
    exact getLsbD_eretStatus (stream s) i hi

end Sys2Proof.Machine
end

section
/-! A fenced class (R295): trap entry, and the suspension of the team. -/
namespace Sys2Proof.Machine
set_option Elab.async false
open Safety

/-! ### Trap entry -/

/-- A stream that has entered its handler, and nothing else changed. -/
theorem trapped_trapEntry (s : State) (code detail : Nat) (tval : Word) :
    trapped s code detail tval (s.putSc s.cur ((stream s).trapEntry code detail tval)) := by
  have hs : stream (s.putSc s.cur ((stream s).trapEntry code detail tval)) = (stream s).trapEntry code detail tval :=
    stream_upSc s fun x => x.trapEntry code detail tval
  refine ⟨onlyStream_upSc s fun x => x.trapEntry code detail tval, ?_, fun i hi => ?_⟩
  · rw [hs, Scalar.trapEntry, Nat.add_comm, Nat.mul_comm]
  · rw [hs]
    show (setBit (setBit (setBit (stream s).status 0 false) 1 false) 7 true).getLsbD i = _
    rw [getLsbD_setBit _ _ _ _ (by omega), getLsbD_setBit _ _ _ _ (by omega), getLsbD_setBit _ _ _ _ (by omega)]
    by_cases h7 : i = 7
    · subst h7
      rfl
    · by_cases h2 : i < 2
      · have h01 : i = 1 ∨ i = 0 := by omega
        rcases h01 with rfl | rfl <;> rfl
      · rw [if_neg h7, if_neg (by omega), if_neg (by omega), if_neg h2, if_neg h7]

/-- A fence trap of a core that can trap: the handler is entered, and the task's team is suspended. -/
theorem trap_fenced {s : State} (hcore : isCore s.cur = true) (ht : canTrap s) (tval : Word) : s.trap 2 0 tval =
    match (s.co s.cur).task with
    | some r => (s.putSc s.cur ((stream s).trapEntry 2 0 tval)).suspendTeam r.team tval.toNat
    | none => s.putSc s.cur ((stream s).trapEntry 2 0 tval) := by
  obtain ⟨hth, htvec⟩ := ht
  rw [stream_eq] at hth htvec
  unfold State.trap
  simp only [hth, htvec, hcore, Bool.false_eq_true, decide_true, Bool.and_self, if_true, if_false, stream_eq, putSc_co]
  rfl

/-! ### What the suspension of a team leaves of a stream -/

/-- A stream keeps its trap registers and its registers, goes on to run or is suspended, and stays suspended. -/
def TrapKept (x y : Scalar) : Prop :=
  (y.tpc = x.tpc ∧ y.tcause = x.tcause ∧ y.tval = x.tval ∧ y.tstatus = x.tstatus ∧ y.regs = x.regs) ∧
    (x.run = .suspended → y.run = .suspended) ∧ (x.run = .running → y.run = .running ∨ y.run = .suspended)

theorem trapKept_refl (x : Scalar) : TrapKept x x := ⟨⟨rfl, rfl, rfl, rfl, rfl⟩, id, .inl⟩

theorem trapKept_trans {x y z : Scalar} (h : TrapKept x y) (k : TrapKept y z) : TrapKept x z := by
  unfold TrapKept at *
  grind

/-- A table whose values have been mapped. -/
theorem tget_map {α : Type} (t : Tbl α) (f : Nat → α → α) (a : Nat) (d : α) : tget (t.map fun e => (e.1, f e.1 e.2)) a d = tget t a d ∨
    tget (t.map fun e => (e.1, f e.1 e.2)) a d = f a (tget t a d) := by
  induction t with
  | nil => exact .inl rfl
  | cons e t ih =>
    by_cases h : e.1 = a
    · exact .inr (by simp [tget, h])
    · simpa [tget, h] using ih

theorem trapKept_map {s t : State} {f : Nat → Scalar → Scalar} (hf : ∀ p x, TrapKept x (f p x))
    (ht : t.scal = s.scal.map fun e => (e.1, f e.1 e.2)) (a : Nat) : TrapKept (s.sc a) (t.sc a) := by
  unfold State.sc
  rw [ht]
  rcases tget_map s.scal f a Scalar.reset with h | h
  · rw [h]
    exact trapKept_refl _
  · rw [h]
    exact hf a _

theorem trapKept_watched (x : Scalar) (line : Nat) : TrapKept x (x.watched line) := by
  unfold TrapKept Scalar.watched
  grind

/-- The teams of a package keep their placement masks. -/
def MasksKept (s t : State) : Prop := ∀ k x, s.tm k = some x → ∃ y, t.tm k = some y ∧ y.mask = x.mask

theorem masksKept_of_team {s t : State} (h : t.team = s.team) : MasksKept s t := by
  intro k x hx
  exact ⟨x, by rwa [State.tm, h], rfl⟩

theorem masksKept_trans {s t u : State} (h : MasksKept s t) (k : MasksKept t u) : MasksKept s u := by
  intro j x hx
  obtain ⟨y, hy, hmask⟩ := h j x hx
  obtain ⟨z, hz, hmask'⟩ := k j y hy
  exact ⟨z, hz, hmask'.trans hmask⟩

theorem tm_putTm (s : State) (t k : Nat) (x : Team) : (s.putTm t x).tm k = if k = t then some x else s.tm k := by
  unfold State.tm State.putTm
  induction s.team with
  | nil => by_cases h : k = t <;> simp [tins, h]; omega
  | cons e l ih => unfold tins; grind

theorem tm_upTm (s : State) (t k : Nat) (f : Team → Team) : (s.upTm t f).tm k = if k = t then (s.tm k).map f else s.tm k := by
  unfold State.upTm
  by_cases h : k = t
  · subst h
    cases hk : s.tm k with
    | none => simp [hk]
    | some x => simp [tm_putTm]
  · rw [if_neg h]
    cases s.tm t with
    | none => rfl
    | some x => simp [tm_putTm, h]

theorem sc_upTm (s : State) (t : Nat) (f : Team → Team) (a : Nat) : (s.upTm t f).sc a = s.sc a := by
  unfold State.upTm
  split <;> rfl

theorem cur_upTm (s : State) (t : Nat) (f : Team → Team) : (s.upTm t f).cur = s.cur := by
  unfold State.upTm
  split <;> rfl

/-- What keeps every stream's trap registers and every team's mask. -/
def FenceKept (s t : State) : Prop := t.cur = s.cur ∧ (∀ a, TrapKept (s.sc a) (t.sc a)) ∧ MasksKept s t

theorem fenceKept_refl (s : State) : FenceKept s s := ⟨rfl, fun _ => trapKept_refl _, masksKept_of_team rfl⟩

theorem fenceKept_trans {s t u : State} (h : FenceKept s t) (k : FenceKept t u) : FenceKept s u :=
  ⟨k.1.trans h.1, fun a => trapKept_trans (h.2.1 a) (k.2.1 a), masksKept_trans h.2.2 k.2.2⟩

theorem fenceKept_of_eq {s t : State} (h : t.scal = s.scal) (k : t.team = s.team) (hcur : t.cur = s.cur) : FenceKept s t := by
  refine ⟨hcur, fun a => ?_, masksKept_of_team k⟩
  have hsc : t.sc a = s.sc a := by rw [State.sc, State.sc, h]
  rw [hsc]
  exact trapKept_refl _

theorem fenceKept_foldl {α : Type} {f : State → α → State} (h : ∀ s a, FenceKept s (f s a)) (l : List α) (s : State) :
    FenceKept s (l.foldl f s) := by
  induction l generalizing s with
  | nil => exact fenceKept_refl s
  | cons a l ih => exact fenceKept_trans (h s a) (ih _)

theorem fenceKept_noteRead (s : State) (k : Nat) : FenceKept s (noteRead s k) := by
  unfold noteRead
  cases hbmDie k with
  | none => exact fenceKept_refl s
  | some d =>
    dsimp only
    split
    · exact fenceKept_refl s
    · exact fenceKept_of_eq rfl rfl rfl

theorem fenceKept_noteWrite (s : State) (key : Nat) : FenceKept s (noteWrite s key) :=
  ⟨rfl, trapKept_map (fun _ x => trapKept_watched x _) rfl, masksKept_of_team rfl⟩

theorem fenceKept_homeWord (s : State) (c : Nat) (ea : Word) (key v : Nat) : FenceKept s (homeWord s c ea key v) := by
  refine fenceKept_trans (fenceKept_noteRead s key) ?_
  unfold homeWord
  generalize noteRead s key = u
  by_cases h : lineUncorrectable u key = true
  · simp only [if_pos h]
    exact fenceKept_of_eq rfl rfl rfl
  · simp only [if_neg h]
    exact fenceKept_trans (fenceKept_noteWrite u key) (fenceKept_of_eq rfl rfl rfl)

theorem fenceKept_leaveQueues (s : State) (a : Nat) (obj : Word) : FenceKept s (leaveQueues s a obj) := by
  unfold leaveQueues
  refine fenceKept_foldl (fun s e => ?_) _ s
  by_cases h : (e.2.queue.any fun r => r.1 == a) = true
  · rw [if_pos h]
    exact fenceKept_trans (fenceKept_of_eq rfl rfl rfl) (fenceKept_homeWord _ _ _ _ _)
  · rw [if_neg h]
    exact fenceKept_refl s

theorem fenceKept_leaveBarrier (s : State) (p : Nat) : FenceKept s (leaveBarrier s p) := by
  unfold leaveBarrier
  cases (s.co p).task with
  | none => exact fenceKept_refl s
  | some r =>
    refine ⟨cur_upTm s _ _, fun a => ?_, fun k x hx => ?_⟩
    · rw [sc_upTm]
      exact trapKept_refl _
    · simp only [tm_upTm, hx]
      by_cases h : k = r.team
      · exact ⟨{ x with arrived := tdel x.arrived r.lcore }, by rw [if_pos h]; rfl, rfl⟩
      · exact ⟨x, by rw [if_neg h], rfl⟩

theorem fenceKept_leavePages (s : State) (a : Nat) : FenceKept s (leavePages s a) := by
  refine ⟨rfl, trapKept_map (f := fun p x => if isThread p ∧ x.event[8]? = some (BitVec.ofNat 64 a) then { x with event := x.event.take 8 } else x)
    (fun p x => ?_) (by unfold leavePages; rfl), masksKept_of_team rfl⟩
  unfold TrapKept
  grind

theorem fenceKept_putSc {s : State} {a : Nat} {y : Scalar} (h : TrapKept (s.sc a) y) : FenceKept s (s.putSc a y) := by
  refine ⟨rfl, fun b => ?_, masksKept_of_team rfl⟩
  rw [putSc_get]
  by_cases hb : b = a
  · rw [if_pos hb, hb]
    exact h
  · rw [if_neg hb]
    exact trapKept_refl _

theorem fenceKept_withdraw (s : State) (a : Nat) : FenceKept s (withdraw s a) := by
  have hdrop : FenceKept s (dropWaits s a) := fenceKept_of_eq rfl rfl rfl
  unfold withdraw
  generalize dropWaits s a = u at hdrop
  dsimp only
  cases (u.sc a).run with
  | waiting w =>
    cases w with
    | acq obj excl => exact fenceKept_trans hdrop (fenceKept_leaveQueues u a _)
    | barrier b => exact fenceKept_trans hdrop (fenceKept_leaveBarrier u a)
    | page unit last => exact fenceKept_trans hdrop (fenceKept_leavePages u a)
    | verdict =>
      generalize hv : ({ u with convIn := u.convIn.filter fun k => !(k.agent == some a && !k.later) } : State) = v
      have hconv : FenceKept u v := by
        subst hv
        exact fenceKept_of_eq rfl rfl rfl
      exact fenceKept_trans hdrop (fenceKept_trans hconv (fenceKept_putSc ⟨⟨rfl, rfl, rfl, rfl, rfl⟩, id, .inl⟩))
    | _ => exact hdrop
  | _ => exact hdrop

theorem trapKept_stop (x : Scalar) (n : Nat) : TrapKept x { x.stop .suspended with stopAt := n } := by
  have hret := retire_eq x
  unfold TrapKept Scalar.stop
  split
  · next h =>
    rw [hret]
    exact ⟨⟨rfl, rfl, rfl, rfl, rfl⟩, fun _ => rfl, fun _ => .inr rfl⟩
  · exact ⟨⟨rfl, rfl, rfl, rfl, rfl⟩, fun _ => rfl, fun _ => .inr rfl⟩
  · exact ⟨⟨rfl, rfl, rfl, rfl, rfl⟩, fun _ => rfl, fun _ => .inr rfl⟩
  · exact ⟨⟨rfl, rfl, rfl, rfl, rfl⟩, id, .inl⟩

theorem run_stop {x : Scalar} (h : x.run = .running ∨ x.run = .suspended) : (x.stop .suspended).run = .suspended := by
  unfold Scalar.stop
  rcases h with h | h
  · simp only [h]
  · simp only [h]

theorem scal_stopGrant (s : State) (p : Nat) : (stopGrant s p).scal = s.scal ∧ (stopGrant s p).team = s.team ∧ (stopGrant s p).cur = s.cur := by
  unfold stopGrant endGrant
  split
  · exact ⟨rfl, rfl, rfl⟩
  · split <;> exact ⟨rfl, rfl, rfl⟩

theorem fenceKept_stopCore (s : State) (p : Nat) : FenceKept s (s.stopCore .suspended p) := by
  refine fenceKept_trans (fenceKept_withdraw s p) ?_
  unfold State.stopCore
  generalize withdraw s p = u
  dsimp only
  obtain ⟨hscal, hteam, hcur⟩ := scal_stopGrant ((u.putSc p { (u.sc p).stop .suspended with stopAt := u.time }).upCo p fun x => x.stopEngines true) p
  exact fenceKept_trans (fenceKept_putSc (trapKept_stop (u.sc p) u.time)) (fenceKept_of_eq hscal hteam hcur)

/-- A core whose stream runs, or is suspended already, is suspended when it is stopped. -/
theorem run_stopCore {s : State} {p : Nat} (h : (s.sc p).run = .running ∨ (s.sc p).run = .suspended) :
    ((s.stopCore .suspended p).sc p).run = .suspended := by
  obtain ⟨-, hsus, hrun⟩ := (fenceKept_withdraw s p).2.1 p
  have h' : ((withdraw s p).sc p).run = .running ∨ ((withdraw s p).sc p).run = .suspended := by
    rcases h with h | h
    · exact hrun h
    · exact .inr (hsus h)
  unfold State.stopCore
  generalize withdraw s p = u at h'
  dsimp only
  obtain ⟨hscal, -⟩ := scal_stopGrant ((u.putSc p { (u.sc p).stop .suspended with stopAt := u.time }).upCo p fun x => x.stopEngines true) p
  rw [State.sc, hscal]
  show ((u.putSc p { (u.sc p).stop .suspended with stopAt := u.time }).sc p).run = .suspended
  rw [putSc_get, if_pos rfl]
  exact run_stop h'

theorem fenceKept_stopCores (s : State) (ps : List Nat) : FenceKept s (s.stopCores .suspended ps) :=
  fenceKept_foldl fenceKept_stopCore ps s

theorem run_stopCores {p : Nat} (ps : List Nat) {s : State} (hp : p ∈ ps) (h : (s.sc p).run = .running ∨ (s.sc p).run = .suspended) :
    ((s.stopCores .suspended ps).sc p).run = .suspended := by
  induction ps generalizing s with
  | nil => cases hp
  | cons q ps ih =>
    obtain ⟨-, hsus, hrun⟩ := (fenceKept_stopCore s q).2.1 p
    by_cases hq : p = q
    · subst hq
      exact ((fenceKept_stopCores (s.stopCore .suspended p) ps).2.1 p).2.1 (run_stopCore h)
    · refine ih (List.mem_of_ne_of_mem hq hp) ?_
      rcases h with h | h
      · exact hrun h
      · exact .inr (hsus h)

/-! ### The team -/

theorem suspendOne_eq {s : State} {t : Nat} {x : Team} (h : s.tm t = some x) (cls : Nat) : s.suspendOne t cls =
    (s.stopCores .suspended x.cores).upTm t fun y => { y with mask := setBit y.mask cls true, refit := true, saving := some s.ns } := by
  unfold State.suspendOne
  rw [h]

theorem suspendOne_kept (s : State) (t cls : Nat) : (s.suspendOne t cls).cur = s.cur ∧ ∀ a, TrapKept (s.sc a) ((s.suspendOne t cls).sc a) := by
  cases h : s.tm t with
  | none =>
    unfold State.suspendOne
    rw [h]
    exact ⟨rfl, fun _ => trapKept_refl _⟩
  | some x =>
    obtain ⟨hcur, hsc, -⟩ := fenceKept_stopCores s x.cores
    rw [suspendOne_eq h, cur_upTm]
    refine ⟨hcur, fun a => ?_⟩
    rw [sc_upTm]
    exact hsc a

theorem suspendTeam_kept (s : State) (t cls : Nat) : (s.suspendTeam t cls).cur = s.cur ∧ ∀ a, TrapKept (s.sc a) ((s.suspendTeam t cls).sc a) := by
  unfold State.suspendTeam
  generalize teamGroup s t = l
  induction l generalizing s with
  | nil => exact ⟨rfl, fun _ => trapKept_refl _⟩
  | cons t' l ih =>
    obtain ⟨hcur, hsc⟩ := suspendOne_kept s t' cls
    obtain ⟨hcur', hsc'⟩ := ih (s.suspendOne t' cls)
    exact ⟨hcur'.trans hcur, fun a => trapKept_trans (hsc a) (hsc' a)⟩

/-- The suspension of a team in no caravan: a running member is suspended, the fenced class joins the mask, and the save begins. -/
theorem suspendTeam_alone {s : State} {t p cls : Nat} {x : Team} (h : s.tm t = some x) (hcar : x.caravan = none) (hp : p ∈ x.cores)
    (hrun : (s.sc p).run = .running) (hcls : cls < 64) : ((s.suspendTeam t cls).sc p).run = .suspended ∧
    ∃ y, (s.suspendTeam t cls).tm t = some y ∧ y.mask.getLsbD cls = true ∧ (∀ j, x.mask.getLsbD j = true → y.mask.getLsbD j = true) ∧
      y.saving = some s.ns := by
  have hgroup : teamGroup s t = [t] := by
    unfold teamGroup
    simp only [h, hcar]
  have heq : s.suspendTeam t cls = s.suspendOne t cls := by
    unfold State.suspendTeam
    rw [hgroup]
    rfl
  obtain ⟨y, hy, hmask⟩ := (fenceKept_stopCores s x.cores).2.2 t x h
  have hbit (j : Nat) := getLsbD_setBit y.mask cls j true hcls
  rw [heq, suspendOne_eq h, sc_upTm, tm_upTm, if_pos rfl, hy]
  refine ⟨run_stopCores x.cores hp (.inl hrun), _, rfl, ?_, fun j hj => ?_, rfl⟩
  · rw [hbit, if_pos rfl]
  · rw [hbit, hmask]
    split
    · rfl
    · exact hj

theorem scalarClass_lt (op : Nat) : Safety.scalarClass op < 64 := by
  unfold Safety.scalarClass
  grind

/-- Settles O11: the class check is the first of the shared steps, and what suspends the team keeps the trap registers. -/
theorem fencedClassTraps : Obligations.FencedClassTraps := by
  intro i g cls s hg hc ha hcore hcap ht hrun
  obtain ⟨srcs, dst, body, hexec, -⟩ := issues_of_guardOf hg hc ha
  have hlt : cls < 64 := by
    obtain ⟨f, -, rfl⟩ := Option.map_eq_some_iff.mp hc
    exact scalarClass_lt _
  have hclass : s.hasClass cls = false := by
    unfold State.hasClass
    rw [if_pos hcore, hcap]
  have hnext : exec i s = .next (s.trap 2 0 (BitVec.ofNat 64 cls)) := by
    rw [hexec, issue, hclass]
    rfl
  have hval : (BitVec.ofNat 64 cls).toNat = cls := by
    rw [BitVec.toNat_ofNat, Nat.mod_eq_of_lt (by omega)]
  have hentry := trapped_trapEntry s 2 0 (BitVec.ofNat 64 cls)
  have hentered : stream (s.putSc s.cur ((stream s).trapEntry 2 0 (BitVec.ofNat 64 cls))) = (stream s).trapEntry 2 0 (BitVec.ofNat 64 cls) :=
    stream_upSc s fun x => x.trapEntry 2 0 (BitVec.ofNat 64 cls)
  refine ⟨_, hnext, ?_⟩
  rw [trap_fenced hcore ht, hval]
  cases htask : (s.co s.cur).task with
  | none =>
    dsimp only
    refine ⟨?_, ?_, ?_, ?_, fun r => ?_, fun _ => hentry, fun r x h => nomatch h⟩
    all_goals
      rw [hentered]
      rfl
  | some r =>
    dsimp only
    obtain ⟨hcur, hkept⟩ := suspendTeam_kept (s.putSc s.cur ((stream s).trapEntry 2 0 (BitVec.ofNat 64 cls))) r.team cls
    obtain ⟨⟨htpc, hcause, htval, hstat, hregs⟩, -, -⟩ := hkept s.cur
    have hstream : stream ((s.putSc s.cur ((stream s).trapEntry 2 0 (BitVec.ofNat 64 cls))).suspendTeam r.team cls) =
        ((s.putSc s.cur ((stream s).trapEntry 2 0 (BitVec.ofNat 64 cls))).suspendTeam r.team cls).sc s.cur := congrArg _ hcur
    rw [hstream, htpc, hcause, htval, hstat]
    refine ⟨congrArg Scalar.tpc hentered, congrArg Scalar.tcause hentered, congrArg Scalar.tval hentered, congrArg Scalar.tstatus hentered,
      fun q => ?_, fun h => (nomatch h), fun r' x hr htm hcar hp => ?_⟩
    · rw [Scalar.reg, hregs]
      exact congrArg (fun x : Scalar => x.reg q) hentered |>.trans rfl
    · obtain rfl : r = r' := Option.some.inj hr
      exact suspendTeam_alone (s := s.putSc s.cur ((stream s).trapEntry 2 0 (BitVec.ofNat 64 cls))) htm hcar hp
        (congrArg Scalar.run hentered) hlt

end Sys2Proof.Machine
end

section
/-! Loads and stores (R74 to R77): bytes of memory, and which instruction is which access. -/
namespace Sys2Proof.Machine
set_option Elab.async false
open Safety

/-! ### Bytes of memory -/

theorem rdN_lt (m : Memory) (k n : Nat) : rdN m k n < 2 ^ (8 * n) := by
  induction n generalizing k with
  | zero => simp [rdN]
  | succ n ih =>
    have hb := (memGet m k).isLt
    have hr := ih (k + 1)
    rw [rdN, show 8 * (n + 1) = 8 * n + 8 by omega, Nat.pow_add]
    omega

/-- Bit j of byte i of what is read. -/
theorem testBit_rdN (m : Memory) (k : Nat) {n i j : Nat} (hi : i < n) (hj : j < 8) :
    (rdN m k n).testBit (8 * i + j) = (memGet m (k + i)).getLsbD j := by
  induction n generalizing k i with
  | zero => omega
  | succ n ih =>
    have hb := (memGet m k).isLt
    rw [rdN, Nat.add_comm, show (256 : Nat) = 2 ^ 8 from rfl, Nat.testBit_two_pow_mul_add _ hb]
    cases i with
    | zero => rw [if_pos (by omega), Nat.mul_zero, Nat.zero_add, Nat.add_zero, BitVec.testBit_toNat]
    | succ i => rw [if_neg (by omega), show 8 * (i + 1) + j - 8 = 8 * i + j by omega, ih (k + 1) (by omega), Nat.add_right_comm, Nat.add_assoc]

/-- The widths of an access (Table 5.7). -/
abbrev AccessWidth (w : Nat) : Prop := w = 1 ∨ w = 2 ∨ w = 4 ∨ w = 8

/-- A load's value is the bytes at its key, extended. -/
theorem loads_extendLoad (m : Memory) (key : Nat) {w : Nat} (hw : AccessWidth w) (sx : Bool) : loads m key w sx (extendLoad (rdN m key w) w sx) := by
  have hw8 : 0 < w ∧ w ≤ 8 := by
    omega
  have hbit {i j : Nat} (hi : i < w) (hj : j < 8) : (BitVec.ofNat 64 (rdN m key w)).getLsbD (8 * i + j) = (memGet m (key + i)).getLsbD j := by
    rw [BitVec.getLsbD_ofNat, testBit_rdN m key hi hj, decide_eq_true (by omega), Bool.true_and]
  have htop : (BitVec.ofNat 64 (rdN m key w)).getLsbD (8 * w - 1) = (memGet m (key + (w - 1))).getLsbD 7 := by
    rw [← hbit (by omega) (by decide : 7 < 8)]
    congr 1
    omega
  cases sx with
  | false =>
    refine ⟨fun i j hi hj => hbit hi hj, fun i hi h64 => ?_⟩
    have hlt := Nat.lt_of_lt_of_le (rdN_lt m key w) (Nat.pow_le_pow_right (by decide) hi)
    show (BitVec.ofNat 64 (rdN m key w)).getLsbD i = _
    rw [BitVec.getLsbD_ofNat, Nat.testBit_lt_two_pow hlt, Bool.and_false, Bool.false_and]
  | true =>
    refine ⟨fun i j hi hj => ?_, fun i hi h64 => ?_⟩
    · show (sextN _ (8 * w)).getLsbD _ = _
      rw [getLsbD_sextN _ (by omega) (by omega) (by omega), Nat.min_eq_left (by omega), hbit hi hj]
    · show (sextN _ (8 * w)).getLsbD _ = _
      rw [getLsbD_sextN _ (by omega) (by omega) (by omega), Nat.min_eq_right (by omega), htop, Bool.true_and]

/-- Byte j of a word, as a write of its number gives it. -/
theorem ofNat_byte_eq (v : Word) (j : Nat) : BitVec.ofNat 8 (v.toNat / 256 ^ j % 256) = byteOf v j := by
  apply BitVec.eq_of_toNat_eq
  rw [byteOf, BitVec.extractLsb'_toNat, BitVec.toNat_ofNat, Nat.shiftRight_eq_div_pow, show (256 : Nat) = 2 ^ 8 from rfl, ← Nat.pow_mul,
    Nat.mod_mod]

theorem stored_wrN (m : Memory) (key w : Nat) (v : Word) : stored m (wrN m key w v.toNat) key w v :=
  ⟨fun j hj => (memGet_wrN_in m key w v.toNat j hj).trans (ofNat_byte_eq v j), fun k hk => memGet_wrN_out m key w v.toNat k hk⟩

/-! ### Errors of a word (R77) -/

theorem fixWord_eq (p : Nat) (s : State) (k : Nat) : fixWord p s k = { s with ecc := (fixWord p s k).ecc, core := (fixWord p s k).core } := by
  unfold fixWord
  split <;> rfl

theorem foldl_fixWord_eq (p : Nat) (ks : List Nat) (s : State) :
    ks.foldl (fixWord p) s = { s with ecc := (ks.foldl (fixWord p) s).ecc, core := (ks.foldl (fixWord p) s).core } := by
  induction ks generalizing s with
  | nil => rfl
  | cons k ks ih =>
    rw [List.foldl_cons, ih (fixWord p s k), fixWord_eq p s k]

theorem spFix_eq (s : State) (p a n : Nat) : spFix s p a n = { s with ecc := (spFix s p a n).ecc, core := (spFix s p a n).core } := by
  unfold spFix
  split
  · rfl
  · exact foldl_fixWord_eq p _ s

theorem localFix_eq (s : State) (ea w : Nat) : localFix s ea w = { s with ecc := (localFix s ea w).ecc, core := (localFix s ea w).core } := by
  unfold localFix
  split
  · exact spFix_eq ..
  · rfl

/-- With no word in error there is nothing to correct. -/
theorem localFix_of_no_error {s : State} (h : s.ecc = []) (ea w : Nat) : localFix s ea w = s := by
  unfold localFix spFix
  simp only [if_pos h, ite_self]

/-- A store writes its bytes, and gives the words that it covers a fresh code. -/
theorem storeBytes_eq (s : State) (ea w v : Nat) :
    storeBytes s ea w v = { s with mem := wrN s.mem (lsKey s.cur ea) w v, ecc := (storeBytes s ea w v).ecc } := by
  unfold storeBytes spFresh
  dsimp only
  split
  · split <;> rfl
  · rfl

theorem storeBytes_of_no_error {s : State} (h : s.ecc = []) (ea w v : Nat) : (storeBytes s ea w v).ecc = [] := by
  unfold storeBytes spFresh
  dsimp only
  split
  · simp only [if_pos h, h]
  · exact h

/-! ### The stream after another change -/

/-- A retirement after a change of other parts of the package moves the stream on. -/
theorem streamMoves_retire {s u : State} (hscal : u.scal = s.scal) (hcur : u.cur = s.cur) : streamMoves s u.retire := by
  obtain ⟨⟨-, hother⟩, hregs, hpreds, hrest, hmoved⟩ := passes_retire u
  have hsc (a : Nat) : u.sc a = s.sc a := by rw [State.sc, State.sc, hscal]
  have hs : stream u = stream s := by rw [stream_eq, stream_eq, hcur, hsc]
  have hcur' : stream u.retire = u.retire.sc s.cur := congrArg _ hcur
  rw [hs] at hregs hpreds hrest hmoved
  exact ⟨fun a ha => (hother a (by rwa [hcur])).trans (hsc a), hregs, hpreds, hrest, hmoved⟩

/-! ### Which instruction is which access -/

section
variable (g : Guard) (d : BitVec 6) (a b : Src) (imm : BitVec 28)

/-- The loads of the local store, their widths, and which extend the sign (Table 5.7). -/
def localLoadForms : List (Instr × Nat × Bool) :=
  [(.ldSB g d a imm, 1, true), (.ldSBu g d a imm, 1, false), (.ldSH g d a imm, 2, true), (.ldSHu g d a imm, 2, false),
    (.ldSW g d a imm, 4, true), (.ldSWu g d a imm, 4, false), (.ldS g d a imm, 8, false)]

/-- The stores to the local store, and their widths. -/
def localStoreForms : List (Instr × Nat) := [(.stSB g a b imm, 1), (.stSH g a b imm, 2), (.stSW g a b imm, 4), (.stS g a b imm, 8)]

/-- The global loads. -/
def globalLoadForms : List (Instr × Nat × Bool) :=
  [(.ldGB g d a imm, 1, true), (.ldGBu g d a imm, 1, false), (.ldGH g d a imm, 2, true), (.ldGHu g d a imm, 2, false),
    (.ldGW g d a imm, 4, true), (.ldGWu g d a imm, 4, false), (.ldG g d a imm, 8, false)]

/-- The global stores. -/
def globalStoreForms : List (Instr × Nat) := [(.stGB g a b imm, 1), (.stGH g a b imm, 2), (.stGW g a b imm, 4), (.stG g a b imm, 8)]

variable {g d a b imm} {i : Instr} {w : Nat} {sx : Bool}

theorem exec_localLoad (h : (i, w, sx) ∈ localLoadForms g d a imm) (s : State) : AccessWidth w ∧
    exec i s = issue 0 g [a] (some d) s fun s => loadLocal w sx d (s.rd a + imm.signExtend 64) s := by
  simp only [localLoadForms, List.mem_cons, Prod.mk.injEq, List.not_mem_nil, or_false] at h
  rcases h with ⟨rfl, rfl, rfl⟩ | ⟨rfl, rfl, rfl⟩ | ⟨rfl, rfl, rfl⟩ | ⟨rfl, rfl, rfl⟩ | ⟨rfl, rfl, rfl⟩ | ⟨rfl, rfl, rfl⟩ | ⟨rfl, rfl, rfl⟩
  · exact ⟨by decide, exec_ldSB g d a imm s⟩
  · exact ⟨by decide, exec_ldSBu g d a imm s⟩
  · exact ⟨by decide, exec_ldSH g d a imm s⟩
  · exact ⟨by decide, exec_ldSHu g d a imm s⟩
  · exact ⟨by decide, exec_ldSW g d a imm s⟩
  · exact ⟨by decide, exec_ldSWu g d a imm s⟩
  · exact ⟨by decide, exec_ldS g d a imm s⟩

theorem exec_globalLoad (h : (i, w, sx) ∈ globalLoadForms g d a imm) (s : State) : AccessWidth w ∧
    exec i s = issue 0 g [a] (some d) s fun s => loadGlobal w sx d (s.rd a + imm.signExtend 64) s := by
  simp only [globalLoadForms, List.mem_cons, Prod.mk.injEq, List.not_mem_nil, or_false] at h
  rcases h with ⟨rfl, rfl, rfl⟩ | ⟨rfl, rfl, rfl⟩ | ⟨rfl, rfl, rfl⟩ | ⟨rfl, rfl, rfl⟩ | ⟨rfl, rfl, rfl⟩ | ⟨rfl, rfl, rfl⟩ | ⟨rfl, rfl, rfl⟩
  · exact ⟨by decide, exec_ldGB g d a imm s⟩
  · exact ⟨by decide, exec_ldGBu g d a imm s⟩
  · exact ⟨by decide, exec_ldGH g d a imm s⟩
  · exact ⟨by decide, exec_ldGHu g d a imm s⟩
  · exact ⟨by decide, exec_ldGW g d a imm s⟩
  · exact ⟨by decide, exec_ldGWu g d a imm s⟩
  · exact ⟨by decide, exec_ldG g d a imm s⟩

theorem exec_localStore (h : (i, w) ∈ localStoreForms g a b imm) (s : State) : AccessWidth w ∧
    exec i s = issue 0 g [a, b] none s fun s => storeLocal w (s.rd a + imm.signExtend 64) (s.rd b) s := by
  simp only [localStoreForms, List.mem_cons, Prod.mk.injEq, List.not_mem_nil, or_false] at h
  rcases h with ⟨rfl, rfl⟩ | ⟨rfl, rfl⟩ | ⟨rfl, rfl⟩ | ⟨rfl, rfl⟩
  · exact ⟨by decide, exec_stSB g a b imm s⟩
  · exact ⟨by decide, exec_stSH g a b imm s⟩
  · exact ⟨by decide, exec_stSW g a b imm s⟩
  · exact ⟨by decide, exec_stS g a b imm s⟩

theorem exec_globalStore (h : (i, w) ∈ globalStoreForms g a b imm) (s : State) : AccessWidth w ∧
    exec i s = issue 0 g [a, b] none s fun s => storeGlobal w (s.rd a + imm.signExtend 64) (s.rd b) s := by
  simp only [globalStoreForms, List.mem_cons, Prod.mk.injEq, List.not_mem_nil, or_false] at h
  rcases h with ⟨rfl, rfl⟩ | ⟨rfl, rfl⟩ | ⟨rfl, rfl⟩ | ⟨rfl, rfl⟩
  · exact ⟨by decide, exec_stGB g a b imm s⟩
  · exact ⟨by decide, exec_stGH g a b imm s⟩
  · exact ⟨by decide, exec_stGW g a b imm s⟩
  · exact ⟨by decide, exec_stG g a b imm s⟩

end

/-! ### Local accesses -/

theorem acts_mono {s : State} {cls : Nat} {g : Guard} {srcs srcs' : List Src} {dsts dsts' : List (BitVec 6)} (h : acts s cls g srcs dsts)
    (hs : srcs' ⊆ srcs) (hd : dsts' ⊆ dsts) : acts s cls g srcs' dsts' := by
  obtain ⟨hcls, hg, hsrcs, hdsts⟩ := h
  exact ⟨hcls, hg, fun a ha => hsrcs a (hs ha), fun d hd' => hdsts d (hd hd')⟩

theorem inLocal_of_le {s : State} {ea : Word} {w : Nat} (h : ea.toNat + w ≤ lsSize s.cur) : inLocal s ea w = true := decide_eq_true h

/-- A local access that takes no trap and finds no uncorrectable word. -/
theorem loadLocal_acts {s : State} {w : Nat} {ea : Word} (sx : Bool) (d : BitVec 6) (h0 : ea.toNat % w = 0) (hin : ea.toNat + w ≤ lsSize s.cur)
    (hbad : localBad s ea.toNat w = false) :
    loadLocal w sx d ea s = (localFix s ea.toNat w).result d (extendLoad (rdN s.mem (lsKey s.cur ea.toNat) w) w sx) := by
  have hcur : (localFix s ea.toNat w).cur = s.cur := by rw [localFix_eq]
  unfold loadLocal
  simp only [h0, inLocal_of_le hin, hbad, hcur, localFix_mem, ne_eq, not_true, Bool.not_true, Bool.false_eq_true, if_false]

theorem storeLocal_acts {s : State} {w : Nat} {ea : Word} (v : Word) (h0 : ea.toNat % w = 0) (hin : ea.toNat + w ≤ lsSize s.cur)
    (hbad : w < 8 → localBad s ea.toNat w = false) :
    storeLocal w ea v s = (storeBytes (if w < 8 then localFix s ea.toNat w else s) ea.toNat w v.toNat).retire := by
  have hgood : ¬(w < 8 ∧ localBad s ea.toNat w = true) := fun ⟨hw, hb⟩ => by
    rw [hbad hw] at hb
    cases hb
  unfold storeLocal
  rw [if_neg (not_not_intro h0), if_neg (by rw [inLocal_of_le hin]; decide), if_neg hgood]

theorem localLoadResults : Parts.LocalLoadResults := by
  intro s g d a imm i w sx hi ha ea hea h0 hin hbad
  obtain ⟨hw, hexec⟩ := exec_localLoad hi s
  subst hea
  have hnext := (hexec.trans (issue_acts (dst := some d) _ ha)).trans (congrArg _ (loadLocal_acts sx d h0 hin hbad))
  refine ⟨_, loads_extendLoad s.mem _ hw sx, ⟨_, hnext, result_spec _ d _⟩, fun hecc => ?_⟩
  rw [localFix_of_no_error hecc] at hnext
  exact ⟨_, hnext, result_spec s d _⟩

theorem localStoreResults : Parts.LocalStoreResults := by
  intro s g a b imm i w hi ha ea hea h0 hin hbad
  obtain ⟨hw, hexec⟩ := exec_localStore hi s
  subst hea
  refine ⟨_, (hexec.trans (issue_acts (dst := none) _ ha)).trans (congrArg _ (storeLocal_acts (s.rd b) h0 hin hbad)), ?_⟩
  generalize s.rd a + imm.signExtend 64 = ea
  obtain ⟨e, c, hfix, hnone⟩ : ∃ e c, (if w < 8 then localFix s ea.toNat w else s) = { s with ecc := e, core := c } ∧
      (s.ecc = [] → e = [] ∧ c = s.core) := by
    by_cases hw8 : w < 8
    · rw [if_pos hw8]
      refine ⟨_, _, localFix_eq .., fun hecc => ?_⟩
      rw [localFix_of_no_error hecc]
      exact ⟨hecc, rfl⟩
    · exact ⟨s.ecc, s.core, if_neg hw8, fun hecc => ⟨hecc, rfl⟩⟩
  rw [hfix]
  have hst := storeBytes_eq { s with ecc := e, core := c } ea.toNat w (s.rd b).toNat
  have hecc' (h : e = []) := storeBytes_of_no_error (s := { s with ecc := e, core := c }) h ea.toNat w (s.rd b).toNat
  generalize storeBytes { s with ecc := e, core := c } ea.toNat w (s.rd b).toNat = v at hst hecc'
  refine ⟨streamMoves_retire (by rw [hst]) (by rw [hst]), ?_, ?_, fun hecc => ⟨hecc' (hnone hecc).1, ?_⟩⟩
  · show stored s.mem v.mem _ w (s.rd b)
    rw [hst]
    exact stored_wrN s.mem _ w (s.rd b)
  · rw [hst]
    rfl
  · show v.core = s.core
    rw [hst]
    exact (hnone hecc).2

/-- An access that answers a precise trap. -/
theorem completes_trapped_of_body {i : Instr} {s : State} {cls : Nat} {g : Guard} {srcs : List Src} {dst : Option (BitVec 6)}
    {body : State → State} {code detail : Nat} {tval : Word} (e : exec i s = issue cls g srcs dst s body)
    (ha : acts s cls g srcs dst.toList) (hbody : body s = s.trap code detail tval) (hc : code ≠ 2) (ht : canTrap s) :
    completes i s (trapped s code detail tval) :=
  ⟨_, e.trans (issue_acts body ha), hbody ▸ trapped_trap s code detail tval hc ht⟩

theorem accessTraps : Parts.AccessTraps := by
  intro s g d a b imm i w ha ht ea hea
  subst hea
  have hload : acts s 0 g [a] [d] := acts_mono ha (by simp) (by simp)
  have hstore : acts s 0 g [a, b] [] := acts_mono ha (by simp) (by simp)
  refine ⟨fun hi h0 => ?_, fun hi h0 hout => ?_⟩
  · have hcases : (∃ sx, (i, w, sx) ∈ localLoadForms g d a imm) ∨ (i, w) ∈ localStoreForms g a b imm ∨
        (∃ sx, (i, w, sx) ∈ globalLoadForms g d a imm) ∨ (i, w) ∈ globalStoreForms g a b imm := by
      simp only [localLoadForms, localStoreForms, globalLoadForms, globalStoreForms, List.mem_cons, Prod.mk.injEq, List.not_mem_nil, or_false] at hi ⊢
      casesm* _ ∨ _, _ ∧ _ <;> simp [*]
    obtain ⟨sx, hi⟩ | hi | ⟨sx, hi⟩ | hi := hcases
    · exact completes_trapped_of_body (exec_localLoad hi s).2 hload (if_pos h0) (by decide) ht
    · exact completes_trapped_of_body (exec_localStore hi s).2 hstore (if_pos h0) (by decide) ht
    · exact completes_trapped_of_body (exec_globalLoad hi s).2 hload (if_pos h0) (by decide) ht
    · exact completes_trapped_of_body (exec_globalStore hi s).2 hstore (if_pos h0) (by decide) ht
  · have hcases : (∃ sx, (i, w, sx) ∈ localLoadForms g d a imm) ∨ (i, w) ∈ localStoreForms g a b imm := by
      simp only [localLoadForms, localStoreForms, List.mem_cons, Prod.mk.injEq, List.not_mem_nil, or_false] at hi ⊢
      casesm* _ ∨ _, _ ∧ _ <;> simp [*]
    have hnot : (!inLocal s (s.rd a + imm.signExtend 64) w) = true := by
      rw [inLocal, decide_eq_false (by omega)]
      rfl
    obtain ⟨sx, hi⟩ | hi := hcases
    · exact completes_trapped_of_body (exec_localLoad hi s).2 hload ((if_neg (not_not_intro h0)).trans (if_pos hnot)) (by decide) ht
    · exact completes_trapped_of_body (exec_localStore hi s).2 hstore ((if_neg (not_not_intro h0)).trans (if_pos hnot)) (by decide) ht

/-- Settles O17: results by the bytes that a load reads and a store writes, traps by the first two tests of each access. -/
theorem localAccesses : Obligations.LocalAccesses := ⟨localLoadResults, localStoreResults, accessTraps⟩

end Sys2Proof.Machine
end

section
/-! Semaphores (R93, R94). -/
namespace Sys2Proof.Machine
set_option Elab.async false
open Safety

theorem sem_setSem (x : Core) (k j : Nat) (v : Sem) : (x.setSem k v).sem j = if j = k then v else x.sem j := tget_tput x.sems k j v Sem.reset

/-- SEMADD's change of the semaphores; what it notes for a rollback is apart. -/
theorem sem_semaddCore (x : Core) (k : BitVec 5) (a : Word) (j : Nat) : (semaddCore k a x).sem j = if j = k.toNat then
    { x.sem j with done := (x.sem j).done + a.setWidth 32, err := (x.sem j).err && !a.getLsbD 32 } else x.sem j := by
  have hset (j : Nat) := sem_setSem x k.toNat j { x.sem k.toNat with
    done := (x.sem k.toNat).done + a.setWidth 32, err := (x.sem k.toNat).err && !a.getLsbD 32 }
  have hsem : (semaddCore k a x).sem j = (x.setSem k.toNat { x.sem k.toNat with
      done := (x.sem k.toNat).done + a.setWidth 32, err := (x.sem k.toNat).err && !a.getLsbD 32 }).sem j := by
    unfold semaddCore
    dsimp only
    split <;> rfl
  rw [hsem, hset]
  by_cases hj : j = k.toNat
  · rw [if_pos hj, if_pos hj, hj]
  · rw [if_neg hj, if_neg hj]

theorem toNat_semWord (v : BitVec 32) (err : Bool) : (semWord v err).toNat = v.toNat + if err then 2 ^ 32 else 0 := by
  have hv := v.isLt
  unfold semWord
  cases err with
  | false =>
    simp
    omega
  | true =>
    have h := Nat.two_pow_add_eq_or_of_lt hv 1
    rw [Nat.mul_one] at h
    rw [BitVec.toNat_or, BitVec.toNat_setWidth, Nat.mod_eq_of_lt (by omega), Nat.add_comm, Nat.or_comm]
    exact h.symm

theorem waits_wait (s : State) (w : Wait) : waits s w (s.wait w) := ⟨onlyStream_upSc s _, stream_upSc s _⟩

/-- A wait that passes at once, or not. -/
theorem passes_ite_wait {s : State} {c : Bool} (w : Wait) (h : c = true) : passes s (if c then s.retire else s.wait w) := by
  rw [if_pos h]
  exact passes_retire s

theorem waits_ite_wait {s : State} {c : Bool} (w : Wait) (h : c = false) : waits s w (if c then s.retire else s.wait w) := by
  rw [if_neg (by rw [h]; decide)]
  exact waits_wait s w

theorem waitOk_iff (x : Sem) (a : BitVec 32) : x.waitOk a = true ↔ 0 ≤ (x.done - a).toInt ∨ x.err = true := by
  rw [Sem.waitOk, Bool.or_eq_true, decide_eq_true_iff]

theorem waitbOk_iff (x : Sem) (t : BitVec 22) : x.waitbOk t = true ↔ (x.pend - x.done).toInt < t.toNat ∨ x.err = true := by
  rw [Sem.waitbOk, Bool.or_eq_true, decide_eq_true_iff]

/-- Settles O21: each instruction reads or writes one semaphore of the current core, and a wait passes exactly if its condition holds. -/
theorem semaphoreOperations : Obligations.SemaphoreOperations := by
  intro s hcore
  refine ⟨fun g a k ha => ⟨?_, fun h => ?_, fun h herr => ?_⟩, fun g k n ha => ⟨fun h => ?_, fun h herr => ?_⟩, fun g d k ha => ⟨?_, ?_⟩,
    fun k a hrun h => ?_, fun k n hrun h => ?_⟩
  · have hexec := ((exec_semadd g a k s).trans (issueCore_eq hcore)).trans (issue_acts (dst := none) _ ha)
    refine ⟨_, hexec, streamMoves_retire rfl rfl, rfl, fun j => ?_⟩
    show ((s.upCo s.cur (semaddCore k (s.rd a))).co s.cur).sem j = _
    rw [State.upCo, putCo_get, if_pos rfl]
    exact sem_semaddCore _ k _ j
  · exact ⟨_, ((exec_semwait g a k s).trans (issueCore_eq hcore)).trans (issue_acts (dst := none) _ ha), passes_ite_wait _ ((waitOk_iff _ _).mpr h)⟩
  · refine ⟨_, ((exec_semwait g a k s).trans (issueCore_eq hcore)).trans (issue_acts (dst := none) _ ha), waits_ite_wait _ ?_⟩
    rw [← Bool.not_eq_true, waitOk_iff, not_or]
    exact ⟨not_le.mpr h, ne_true_of_eq_false herr⟩
  · exact ⟨_, ((exec_waitb g k n s).trans (issueCore_eq hcore)).trans (issue_acts (dst := none) _ ha), passes_ite_wait _ ((waitbOk_iff _ _).mpr h)⟩
  · refine ⟨_, ((exec_waitb g k n s).trans (issueCore_eq hcore)).trans (issue_acts (dst := none) _ ha), waits_ite_wait _ ?_⟩
    rw [← Bool.not_eq_true, waitbOk_iff, not_or]
    exact ⟨not_lt.mpr h, ne_true_of_eq_false herr⟩
  · exact ⟨_, toNat_semWord _ _, completes_result ((exec_semrdDone g d k s).trans (issueCore_eq hcore)) ha⟩
  · exact ⟨_, toNat_semWord _ _, completes_result ((exec_semrdPend g d k s).trans (issueCore_eq hcore)) ha⟩
  · refine ⟨s.retire, ?_, passes_retire s⟩
    rw [exec_semwaitComplete, execSemwaitComplete, ← stream_eq, hrun]
    exact congrArg _ (if_pos ((waitOk_iff _ _).mpr h))
  · refine ⟨s.retire, ?_, passes_retire s⟩
    rw [exec_waitbComplete, execWaitbComplete, ← stream_eq, hrun]
    exact congrArg _ (if_pos ((waitbOk_iff _ _).mpr h))

end Sys2Proof.Machine
end

section
/-! Waiting and barriers (R95, R96, R101). -/
namespace Sys2Proof.Machine
set_option Elab.async false
open Safety

/-! ### The logs of errors (R414): only a die's registers change -/

theorem noteRead_eq (s : State) (k : Nat) : noteRead s k = { s with die := (noteRead s k).die } := by
  unfold noteRead
  cases hbmDie k with
  | none => rfl
  | some d =>
    dsimp only
    split <;> rfl

theorem foldl_noteRead_eq (ks : List Nat) (s : State) : ks.foldl noteRead s = { s with die := (ks.foldl noteRead s).die } := by
  induction ks generalizing s with
  | nil => rfl
  | cons k ks ih => rw [List.foldl_cons, ih (noteRead s k), noteRead_eq s k]

theorem noteXlat_eq (s : State) (req c ea need : Nat) : noteXlat s req c ea need = { s with die := (noteXlat s req c ea need).die } := by
  unfold noteXlat
  dsimp only
  split
  · rfl
  · exact foldl_noteRead_eq _ s

theorem noteAccess_eq (s : State) (req c ea need key : Nat) :
    noteAccess s req c ea need key = { s with die := (noteAccess s req c ea need key).die } := by
  unfold noteAccess
  rw [noteRead_eq (noteXlat s req c ea need), noteXlat_eq]

theorem foldl_noteAccess_eq (req c need : Nat) (eas : List Nat) (s : State) :
    eas.foldl (fun s ea => match resolve s req c ea need with | .ok key => noteAccess s req c ea need key | .error _ => s) s =
      { s with die := (eas.foldl (fun s ea =>
          match resolve s req c ea need with | .ok key => noteAccess s req c ea need key | .error _ => s) s).die } := by
  induction eas generalizing s with
  | nil => rfl
  | cons ea eas ih =>
    rw [List.foldl_cons]
    cases resolve s req c ea need with
    | ok key =>
      dsimp only
      rw [ih (noteAccess s req c ea need key), noteAccess_eq s]
    | error e => exact ih s

theorem noteRegions_eq (s : State) (c obj : Nat) : noteRegions s c obj = { s with die := (noteRegions s c obj).die } := by
  unfold noteRegions
  split
  · rfl
  · cases objEntry s c obj with
    | none => rfl
    | some i =>
      dsimp only
      split
      · rfl
      · exact foldl_noteAccess_eq 0xFFFF c 4 _ s

/-! ### PAUSE and WAITA -/

theorem completes_resultP_of_eq {i : Instr} {s : State} {p : BitVec 5} {v : Bool} {P : Prop} (h : exec i s = .next (s.resultP p v)) (hP : v = true ↔ P) :
    completes i s (resultP s p P) := by
  refine ⟨_, h, ?_⟩
  rw [← propext hP]
  exact resultP_spec s p v

/-- What WAITA does once its line is known. -/
theorem waitaBody_resolved {s : State} {p : BitVec 5} {ea : Word} {key : Nat} (h8 : ea.toNat % 8 = 0)
    (h : resolve s s.cur (stream s).ctx.toNat ea.toNat 4 = .ok key) : waitaBody p ea s =
    if (stream s).watch = some (key - key % 64, true) then s.resultP p false
    else if 4096 ≤ monitors s then s.resultP p true else s.wait (.waita p (key - key % 64) false) := by
  unfold waitaBody
  rw [if_neg (not_not_intro h8), ← stream_eq, h]

theorem pauseAndMonitoredWait : Parts.PauseAndMonitoredWait := by
  intro s
  refine ⟨fun g n ha => ⟨fun h => ?_, fun h => ?_⟩, fun till hrun htill => ?_, fun g p a off key hthread ha h8 hkey => ?_,
    fun p line hit lost hrun => ⟨fun h => ?_, fun h hlost => ?_⟩⟩
  · refine ⟨s.retire, ((exec_pause g n s).trans (issue_acts (dst := none) _ ha)).trans ?_, passes_retire s⟩
    exact congrArg _ (if_pos h)
  · refine ⟨_, ((exec_pause g n s).trans (issue_acts (dst := none) _ ha)).trans ?_, waits_wait s _⟩
    exact congrArg _ (if_neg h)
  · refine ⟨s.retire, ?_, passes_retire s⟩
    rw [exec_pauseExpire, execPauseExpire, ← stream_eq, hrun]
    exact congrArg _ (if_pos htill)
  · have hexec := ((exec_waita g p a off s).trans (issueThread_eq hthread)).trans (issue_acts (dst := none) _ ha)
    have hbody : waitaBody p (ea22 (s.rd a) off) s = _ := waitaBody_resolved h8 hkey
    rw [hbody] at hexec
    refine ⟨fun hw => ?_, fun hw hm => ?_, fun hw hm => ?_⟩
    · rw [if_pos hw] at hexec
      exact completes_resultP_of_eq hexec (by simp)
    · rw [if_neg hw, if_neg (not_le.mpr hm)] at hexec
      exact ⟨_, hexec, waits_wait s _⟩
    · rw [if_neg hw, if_pos hm] at hexec
      exact completes_resultP_of_eq hexec (by simp)
  · refine completes_resultP_of_eq (v := false) ?_ (by simp)
    rw [exec_waitaReturn, execWaitaReturn, ← stream_eq, hrun]
    exact congrArg _ (if_pos h)
  · refine completes_resultP_of_eq (v := true) ?_ (by simp)
    rw [exec_waitaReturn, execWaitaReturn, ← stream_eq, hrun]
    exact congrArg _ ((if_neg (by rw [h]; decide)).trans (if_pos hlost))

/-! ### Barriers -/

/-- An arrival that nothing holds back: the team counts it, and the core waits. -/
theorem arrive_ready {s : State} {r : TaskRef} {b : Barrier} (htask : (s.co s.cur).task = some r) (hready : arrivalReady s b = true)
    (hmis : barrierMismatch s r.team b = false) :
    arrive b s = (s.upTm r.team fun t => { t with arrived := tins t.arrived r.lcore (some b) }).wait (.barrier b) := by
  unfold arrive
  rw [htask]
  simp only [hready, hmis, Bool.not_true, Bool.false_eq_true, if_false]

theorem exec_barrier {s : State} {g : Guard} {i : Instr} {b : Barrier}
    (hi : (i, b) ∈ [(Instr.tbar g, Barrier.tbar), (.sstep g, .sstep), (.cbar g, .cbar), (.cstep g, .cstep)]) (hcore : isCore s.cur = true)
    (ha : acts s 5 g [] []) : exec i s = .next (arrive b s) := by
  simp only [List.mem_cons, Prod.mk.injEq, List.not_mem_nil, or_false] at hi
  rcases hi with ⟨rfl, rfl⟩ | ⟨rfl, rfl⟩ | ⟨rfl, rfl⟩ | ⟨rfl, rfl⟩
  · exact ((exec_tbar g s).trans (issueCore_eq hcore)).trans (issue_acts (dst := none) _ ha)
  · exact ((exec_sstep g s).trans (issueCore_eq hcore)).trans (issue_acts (dst := none) _ ha)
  · exact ((exec_cbar g s).trans (issueCore_eq hcore)).trans (issue_acts (dst := none) _ ha)
  · exact ((exec_cstep g s).trans (issueCore_eq hcore)).trans (issue_acts (dst := none) _ ha)

theorem mem_upTm (s : State) (t : Nat) (f : Team → Team) : (s.upTm t f).mem = s.mem := by
  unfold State.upTm
  split <;> rfl

/-! ### The release of the members -/

theorem loopEnd0_dc (x : Scalar) (d : Tbl (List Line)) : loopEnd0 { x with dc := d } = ((loopEnd0 x).1, { (loopEnd0 x).2 with dc := d }) := by
  unfold loopEnd0 Scalar.la0
  dsimp only
  split_ifs <;> rfl

theorem loopEnd1_dc (x : Scalar) (d : Tbl (List Line)) : loopEnd1 { x with dc := d } = ((loopEnd1 x).1, { (loopEnd1 x).2 with dc := d }) := by
  unfold loopEnd1 Scalar.la1
  dsimp only
  split_ifs <;> rfl

/-- A retirement does not look at the cache. -/
theorem retire_dc (x : Scalar) (d : Tbl (List Line)) : ({ x with dc := d } : Scalar).retire = { x.retire with dc := d } := by
  have h0 := fun y => loopEnd0_dc y d
  have h1 := fun y => loopEnd1_dc y d
  simp only [Scalar.retire, Scalar.retireTo, endOfBody, h0, h1]
  have hl : ({ x with dc := d } : Scalar).lord = x.lord := rfl
  rw [hl]
  cases x.lord <;> simp only [Bool.false_eq_true, if_false, if_true]
  · rcases h : loopEnd0 x with ⟨_ | n, y⟩
    · simp only [h1 y]
    · rfl
  · rcases h : loopEnd1 x with ⟨_ | n, y⟩
    · simp only [h0 y]
    · rfl

/-- A stream that is to wait at a barrier no longer: it has retired its barrier instruction, its registers as they were. -/
def Released (x y : Scalar) : Prop := y.run = .running ∧ y.pc = x.retire.pc ∧ ∀ r, y.reg r = x.reg r

theorem released_retire (x : Scalar) (d : Tbl (List Line)) : Released x ({ x with dc := d } : Scalar).retire := by
  rw [retire_dc, retire_eq x]
  exact ⟨rfl, rfl, fun _ => rfl⟩

theorem releaseMember_other {s : State} {t : Team} {p q : Nat} (h : p ≠ q) : (releaseMember s t q).sc p = s.sc p := by
  unfold releaseMember
  dsimp only
  split
  · next b hb =>
    rw [putSc_get, if_neg h]
    split
    · rw [noteRegions_eq]
      rfl
    · rw [noteRegions_eq]
      rfl
    · rfl
  · rfl

theorem releaseMember_self {s : State} (t : Team) {p : Nat} {b : Barrier} (h : (s.sc p).run = .waiting (.barrier b)) :
    Released (s.sc p) ((releaseMember s t p).sc p) := by
  unfold releaseMember
  simp only [h, putSc_get, if_true]
  cases b
  · exact released_retire _ _
  · exact released_retire _ (s.sc p).dc
  · exact released_retire _ _
  · exact released_retire _ (s.sc p).dc

theorem releaseMember_running {s : State} (t : Team) {p : Nat} (h : (s.sc p).run = .running) : releaseMember s t p = s := by
  unfold releaseMember
  simp only [h]

/-- The release of the members lets each one go on that stands at a barrier. -/
theorem released_foldl (t : Team) {p : Nat} {b : Barrier} (ps : List Nat) (hp : p ∈ ps) {s : State} (h : (s.sc p).run = .waiting (.barrier b)) :
    Released (s.sc p) ((ps.foldl (fun s q => releaseMember s t q) s).sc p) := by
  have hrunning (ps : List Nat) (s : State) (h : (s.sc p).run = .running) : (ps.foldl (fun s q => releaseMember s t q) s).sc p = s.sc p := by
    induction ps generalizing s with
    | nil => rfl
    | cons q ps ih =>
      have hsame : (releaseMember s t q).sc p = s.sc p := by
        by_cases hq : p = q
        · rw [← hq, releaseMember_running t h]
        · exact releaseMember_other hq
      rw [List.foldl_cons, ih _ (by rw [hsame, h]), hsame]
  induction ps generalizing s with
  | nil => cases hp
  | cons q ps ih =>
    rw [List.foldl_cons]
    by_cases hq : p = q
    · subst hq
      have hrel := releaseMember_self t h
      rw [hrunning ps _ hrel.1]
      exact hrel
    · have hsame := releaseMember_other (s := s) (t := t) hq
      rw [← hsame] at h ⊢
      exact ih (List.mem_of_ne_of_mem hq hp) h

theorem barrierTeams_alone {s : State} {t : Nat} {x : Team} (h : s.tm t = some x) (hcar : x.caravan = none) (b : Barrier) : barrierTeams s t b = [t] := by
  unfold barrierTeams
  rw [h]
  simp only [hcar]
  cases barrierKind x b <;> rfl

theorem finishRound_eq {s : State} {t : Nat} {x : Team} (h : s.tm t = some x) : finishRound s t =
    (x.cores.foldl (fun s p => releaseMember s x p) s).putTm t
      { x with arrived := [], ssnum := if x.arrived.any fun a => a.2 == some .sstep || a.2 == some .cstep then x.ssnum + 1 else x.ssnum } := by
  unfold finishRound
  rw [h]

/-- The round of a team in no caravan ends once every member has arrived or ended. -/
theorem exec_barrierComplete_alone {s : State} {x : Team} {b : Barrier} (h : s.tm s.cur = some x) (hcar : x.caravan = none)
    (hround : roundKind x = some b) (harr : teamArrived b x = true) : exec .barrierComplete s = .next (finishRound s s.cur) := by
  rw [exec_barrierComplete, execBarrierComplete, h]
  simp only [Option.bind_some, hround, barrierTeams_alone h hcar, List.all_cons, List.all_nil, h, harr, Bool.and_self, if_true, List.foldl_cons,
    List.foldl_nil]

theorem barrierArrivalAndCompletion : Parts.BarrierArrivalAndCompletion := by
  refine ⟨fun s g r x i b hi hcore ha htask hteam hready hmis => ?_, fun s x b hteam hcar hround harr => ?_⟩
  · refine ⟨_, exec_barrier hi hcore ha, ?_⟩
    rw [arrive_ready htask hready hmis]
    generalize hu : s.upTm r.team (fun t => { t with arrived := tins t.arrived r.lcore (some b) }) = u
    have hsc : stream u = stream s := by
      rw [← hu, stream_eq, stream_eq, cur_upTm, sc_upTm]
    have hstream : stream (u.wait (.barrier b)) = { stream u with run := .waiting (.barrier b) } := stream_upSc u _
    have htm : u.tm r.team = some { x with arrived := tins x.arrived r.lcore (some b) } := by
      rw [← hu, tm_upTm, if_pos rfl, hteam]
      rfl
    refine ⟨by rw [hstream], by rw [hstream, hsc], ?_, _, htm, ?_, fun l hl => ?_⟩
    · rw [← hu]
      exact mem_upTm ..
    · rw [tget_tins, if_pos rfl]
    · rw [tget_tins, if_neg hl]
  · refine ⟨_, exec_barrierComplete_alone hteam hcar hround harr, ?_⟩
    rw [finishRound_eq hteam]
    refine ⟨⟨_, by rw [tm_putTm, if_pos rfl], rfl, ?_⟩, fun p hp k hk => ?_⟩
    · refine if_congr ?_ rfl rfl
      simp only [List.any_eq_true, Bool.or_eq_true, beq_iff_eq]
    · rw [putTm_sc]
      exact released_foldl x x.cores hp hk

/-- Settles O22: waits by what ends them, a barrier's round by the release of each member. -/
theorem waitingAndBarriers : Obligations.WaitingAndBarriers := ⟨pauseAndMonitoredWait, barrierArrivalAndCompletion⟩

end Sys2Proof.Machine
end

section
/-! A translation reads memory, the TLBs and the error codes: what leaves these leaves it (R343 to R349, R414). -/
namespace Sys2Proof.Machine
set_option Elab.async false
open Safety

/-! ### The tables in memory -/

section
variable {s t : State} (hm : t.mem = s.mem)
include hm

theorem physWord_congr (d a i : Nat) : physWord t d a i = physWord s d a i := by
  rw [physWord, physWord, hm]

theorem entWord_congr (d a k j : Nat) : entWord t d a k j = entWord s d a k j := physWord_congr hm d a _

theorem nodeChild_congr (d a k : Nat) : nodeChild t d a k = nodeChild s d a k := physWord_congr hm d a _

theorem nodeKey_congr (d a k : Nat) : nodeKey t d a k = nodeKey s d a k := physWord_congr hm d a _

theorem wordsZero_congr (d a i n : Nat) : wordsZero t d a i n = wordsZero s d a i n := by
  induction n generalizing i with
  | zero => rfl
  | succ n ih =>
    unfold wordsZero
    simp only [physWord_congr hm, ih]

theorem anyOverlap_congr (d a n : Nat) : anyOverlap t d a n = anyOverlap s d a n := by
  unfold anyOverlap entOverlap entCovers
  simp only [entWord_congr hm]

theorem childrenOk_congr (d a k n : Nat) : childrenOk t d a k n = childrenOk s d a k n := by
  induction n generalizing k with
  | zero => rfl
  | succ n ih =>
    unfold childrenOk
    simp only [nodeKey_congr hm, nodeChild_congr hm, ih]

theorem nodeOk_congr (d a : Nat) : nodeOk t d a = nodeOk s d a := by
  unfold nodeOk
  simp only [physWord_congr hm, wordsZero_congr hm, anyOverlap_congr hm, childrenOk_congr hm]

theorem pickChild_congr (d a v k : Nat) : pickChild t d a v k = pickChild s d a v k := by
  induction k with
  | zero => rfl
  | succ k ih =>
    unfold pickChild
    simp only [nodeKey_congr hm, ih]

theorem pickEntry_congr (d a v k : Nat) : pickEntry t d a v k = pickEntry s d a v k := by
  induction k with
  | zero => rfl
  | succ k ih =>
    unfold pickEntry
    simp only [entWord_congr hm, ih]

theorem entOk_congr (d a k : Nat) : entOk t d a k = entOk s d a k := by
  unfold entOk
  simp only [entWord_congr hm]

theorem findLeaf_congr (d v n a : Nat) : findLeaf t d v n a = findLeaf s d v n a := by
  induction n generalizing a with
  | zero => rfl
  | succ n ih =>
    unfold findLeaf
    simp only [nodeOk_congr hm, physWord_congr hm, pickChild_congr hm, nodeChild_congr hm, ih]

theorem leafTrail_congr (d v n a : Nat) : leafTrail t d v n a = leafTrail s d v n a := by
  induction n generalizing a with
  | zero => rfl
  | succ n ih =>
    unfold leafTrail
    simp only [nodeOk_congr hm, physWord_congr hm, pickChild_congr hm, nodeChild_congr hm, ih]

theorem radix_congr (d n k a : Nat) : radix t d n k a = radix s d n k a := by
  induction k generalizing a with
  | zero => rfl
  | succ k ih =>
    unfold radix
    simp only [physWord_congr hm, ih]

theorem radixTrail_congr (d n k a : Nat) : radixTrail t d n k a = radixTrail s d n k a := by
  induction k generalizing a with
  | zero => rfl
  | succ k ih =>
    unfold radixTrail
    simp only [physWord_congr hm, ih]

theorem rangeEntry_congr (c d v : Nat) : rangeEntry t c d v = rangeEntry s c d v := by
  unfold rangeEntry
  simp only [hm, findLeaf_congr hm, pickEntry_congr hm, physWord_congr hm, entOk_congr hm]

theorem walk_congr (c d v : Nat) : walk t c d v = walk s c d v := by
  unfold walk
  simp only [rangeEntry_congr hm, entWord_congr hm, radix_congr hm]

theorem walkTrail_congr (c d v : Nat) : walkTrail t c d v = walkTrail s c d v := by
  unfold walkTrail
  simp only [hm, rangeEntry_congr hm, entWord_congr hm, radixTrail_congr hm, leafTrail_congr hm]

theorem rangeAt_congr (d c v need : Nat) (e : RangeEnt) : rangeAt t d c v need e = rangeAt s d c v need e := by
  unfold rangeAt
  simp only [radix_congr hm]

theorem windowKey_congr (ha : t.allots = s.allots) (c off need : Nat) : windowKey t c off need = windowKey s c off need := by
  unfold windowKey allotted queueCtx
  rw [ha, hm]

end

/-! ### What a translation depends on -/

/-- Two states agree on what a translation reads: memory, the allotments, the TLBs, and the error codes with the erasures of each die. -/
structure XlatSame (s t : State) : Prop where
  mem : t.mem = s.mem
  allots : t.allots = s.allots
  ecc : t.ecc = s.ecc
  core : ∀ p, (t.co p).tlb = (s.co p).tlb
  tlb : ∀ d, (t.di d).tlb = (s.di d).tlb
  ranges : ∀ d, (t.di d).ranges = (s.di d).ranges
  erent : ∀ d, (t.di d).erent = (s.di d).erent

theorem xlatSame_refl (s : State) : XlatSame s s := ⟨rfl, rfl, rfl, fun _ => rfl, fun _ => rfl, fun _ => rfl, fun _ => rfl⟩

theorem xlatSame_trans {s t u : State} (h : XlatSame s t) (k : XlatSame t u) : XlatSame s u :=
  ⟨k.mem.trans h.mem, k.allots.trans h.allots, k.ecc.trans h.ecc, fun p => (k.core p).trans (h.core p), fun d => (k.tlb d).trans (h.tlb d),
    fun d => (k.ranges d).trans (h.ranges d), fun d => (k.erent d).trans (h.erent d)⟩

section
variable {s t : State} (h : XlatSame s t)
include h

theorem lineUncorrectable_congr (k : Nat) : lineUncorrectable t k = lineUncorrectable s k := by
  unfold lineUncorrectable
  cases hbmDie k with
  | none => rfl
  | some d =>
    dsimp only
    rw [h.erent, h.ecc]

theorem tlbLookup_congr (req c d v need : Nat) : tlbLookup t req c d v need = tlbLookup s req c d v need := by
  unfold tlbLookup
  rw [h.core, h.tlb, h.ranges, funext (rangeAt_congr h.mem d c v need)]

theorem xlatTrail_congr (req c d v need : Nat) : xlatTrail t req c d v need = xlatTrail s req c d v need := by
  unfold xlatTrail
  simp only [h.core, h.tlb, h.ranges, rangeAt_congr h.mem, walkTrail_congr h.mem, radixTrail_congr h.mem]

theorem xlatBad_congr (req c d v need : Nat) : xlatBad t req c d v need = xlatBad s req c d v need := by
  unfold xlatBad
  rw [xlatTrail_congr h, funext (lineUncorrectable_congr h), h.ecc]

theorem resolve_congr (req c ea need : Nat) : resolve t req c ea need = resolve s req c ea need := by
  unfold resolve
  simp only [xlatBad_congr h, tlbLookup_congr h, walk_congr h.mem, windowKey_congr h.mem h.allots]

theorem regionsAt_congr (c regl : Nat) : regionsAt t c regl = regionsAt s c regl := by
  unfold regionsAt
  simp only [resolve_congr h, h.mem]

theorem dirWord_congr (c i j : Nat) : dirWord t c i j = dirWord s c i j := by
  rw [dirWord, dirWord, h.mem]

theorem dirOk_congr (c i : Nat) : dirOk t c i = dirOk s c i := by
  unfold dirOk
  simp only [dirWord_congr h, regionsAt_congr h]

theorem objEntry_congr (c obj : Nat) : objEntry t c obj = objEntry s c obj := by
  unfold objEntry dirEntries
  simp only [dirWord_congr h, dirOk_congr h, h.mem]

theorem objRegions_congr (c obj : Nat) : objRegions t c obj = objRegions s c obj := by
  unfold objRegions
  rw [objEntry_congr h]
  simp only [dirWord_congr h, regionsAt_congr h]

theorem acqRegions_congr (c : Nat) (ea : Word) : acqRegions t c ea = acqRegions s c ea := by
  unfold acqRegions
  rw [objEntry_congr h, objRegions_congr h]

theorem objHomes_congr : objHomes t = objHomes s := by
  unfold objHomes allEntries
  simp only [dirOk_congr h, dirWord_congr h, resolve_congr h, h.mem]

theorem isObjHome_congr (key : Nat) : isObjHome t key = isObjHome s key := by
  unfold isObjHome
  rw [objHomes_congr h]

end

/-! ### Logs -/

theorem xlatSame_noteRead (s : State) (k : Nat) : XlatSame s (noteRead s k) := by
  unfold noteRead
  cases hbmDie k with
  | none => exact xlatSame_refl s
  | some d =>
    dsimp only
    split
    · exact xlatSame_refl s
    · refine ⟨rfl, rfl, rfl, fun _ => rfl, fun e => ?_, fun e => ?_, fun e => ?_⟩
      all_goals
        unfold logHbm
        rw [putDi_get]
        split
        · next he => rw [he]
        · rfl

theorem xlatSame_foldl {α : Type} {f : State → α → State} (h : ∀ s a, XlatSame s (f s a)) (l : List α) (s : State) : XlatSame s (l.foldl f s) := by
  induction l generalizing s with
  | nil => exact xlatSame_refl s
  | cons a l ih => exact xlatSame_trans (h s a) (ih _)

theorem xlatSame_noteXlat (s : State) (req c ea need : Nat) : XlatSame s (noteXlat s req c ea need) := by
  unfold noteXlat
  dsimp only
  split
  · exact xlatSame_refl s
  · exact xlatSame_foldl xlatSame_noteRead _ s

theorem xlatSame_noteAccess (s : State) (req c ea need key : Nat) : XlatSame s (noteAccess s req c ea need key) :=
  xlatSame_trans (xlatSame_noteXlat s req c ea need) (xlatSame_noteRead _ key)

theorem xlatSame_noteRegions (s : State) (c obj : Nat) : XlatSame s (noteRegions s c obj) := by
  unfold noteRegions
  split
  · exact xlatSame_refl s
  · cases objEntry s c obj with
    | none => exact xlatSame_refl s
    | some i =>
      dsimp only
      split
      · exact xlatSame_refl s
      · refine xlatSame_foldl (fun s ea => ?_) _ s
        cases resolve s 0xFFFF c ea 4 with
        | ok key => exact xlatSame_noteAccess ..
        | error e => exact xlatSame_refl s

/-- A change of a scalar stream alone. -/
theorem xlatSame_putSc (s : State) (a : Nat) (x : Scalar) : XlatSame s (s.putSc a x) :=
  ⟨rfl, rfl, rfl, fun _ => rfl, fun _ => rfl, fun _ => rfl, fun _ => rfl⟩

/-- With no word in error nothing is logged. -/
theorem noteXlat_of_no_error {s : State} (h : s.ecc = []) (req c ea need : Nat) : noteXlat s req c ea need = s := by
  unfold noteXlat
  exact if_pos (.inl h)

end Sys2Proof.Machine
end

section
/-! Global loads and stores (R78 to R82, R99, R315). -/
namespace Sys2Proof.Machine
set_option Elab.async false
open Safety

/-! ### Retirement of a stream whose other parts have changed -/

/-- Two streams stand at the same place, with the same STATUS and loop registers. -/
structure LoopsSame (x y : Scalar) : Prop where
  pc : y.pc = x.pc
  status : y.status = x.status
  lstart0 : y.lstart0 = x.lstart0
  lend0 : y.lend0 = x.lend0
  lcount0 : y.lcount0 = x.lcount0
  lstart1 : y.lstart1 = x.lstart1
  lend1 : y.lend1 = x.lend1
  lcount1 : y.lcount1 = x.lcount1

section
variable {x y : Scalar} (h : LoopsSame x y)
include h

theorem loopEnd0_same : (loopEnd0 y).1 = (loopEnd0 x).1 ∧ LoopsSame (loopEnd0 x).2 (loopEnd0 y).2 := by
  obtain ⟨hpc, hstatus, hstart0, hend0, hcount0, hstart1, hend1, hcount1⟩ := h
  unfold loopEnd0 Scalar.la0
  rw [hstatus, hpc, hend0, hcount0, hstart0]
  split_ifs
  · exact ⟨rfl, rfl, rfl, rfl, rfl, rfl, hstart1, hend1, hcount1⟩
  · exact ⟨rfl, rfl, rfl, rfl, rfl, rfl, hstart1, hend1, hcount1⟩
  · exact ⟨rfl, hpc, hstatus, hstart0, hend0, hcount0, hstart1, hend1, hcount1⟩

theorem loopEnd1_same : (loopEnd1 y).1 = (loopEnd1 x).1 ∧ LoopsSame (loopEnd1 x).2 (loopEnd1 y).2 := by
  obtain ⟨hpc, hstatus, hstart0, hend0, hcount0, hstart1, hend1, hcount1⟩ := h
  unfold loopEnd1 Scalar.la1
  rw [hstatus, hpc, hend1, hcount1, hstart1]
  split_ifs
  · exact ⟨rfl, rfl, rfl, hstart0, hend0, hcount0, rfl, rfl, rfl⟩
  · exact ⟨rfl, rfl, rfl, hstart0, hend0, hcount0, rfl, rfl, rfl⟩
  · exact ⟨rfl, hpc, hstatus, hstart0, hend0, hcount0, hstart1, hend1, hcount1⟩

theorem loopStep_same (n : Bool) : (loopStep y n).1 = (loopStep x n).1 ∧ LoopsSame (loopStep x n).2 (loopStep y n).2 := by
  cases n
  · exact loopEnd0_same h
  · exact loopEnd1_same h

theorem endOfBody_same : (endOfBody y).1 = (endOfBody x).1 ∧ LoopsSame (endOfBody x).2 (endOfBody y).2 := by
  have hlord : y.lord = x.lord := congrArg (fun w => w.getLsbD 2) h.status
  obtain ⟨hnext, hsame⟩ := loopStep_same h x.lord
  rw [endOfBody_eq, endOfBody_eq, hlord]
  generalize loopStep x x.lord = u at hnext hsame
  generalize loopStep y x.lord = v at hnext hsame
  obtain ⟨o, u⟩ := u
  obtain ⟨o', v⟩ := v
  obtain rfl : o' = o := hnext
  cases o' with
  | none => exact loopStep_same hsame _
  | some n => exact ⟨rfl, hsame⟩

/-- A retirement depends only on these. -/
theorem retire_congr : y.retire = { y with
    pc := x.retire.pc, run := .running, status := x.retire.status, lcount0 := x.retire.lcount0, lcount1 := x.retire.lcount1 } := by
  obtain ⟨hnext, hsame⟩ := endOfBody_same h
  have hpc : y.retire.pc = x.retire.pc := by
    show (endOfBody y).1.getD (y.pc + 8) = (endOfBody x).1.getD (x.pc + 8)
    rw [hnext, h.pc]
  have hstatus : y.retire.status = x.retire.status := hsame.status
  have hcount0 : y.retire.lcount0 = x.retire.lcount0 := hsame.lcount0
  have hcount1 : y.retire.lcount1 = x.retire.lcount1 := hsame.lcount1
  have hy := retire_eq y
  rwa [hpc, hstatus, hcount0, hcount1] at hy

end

/-- A stream that stands at the same place moves on as the old one would. -/
theorem movedOn_congr {x y : Scalar} (h : LoopsSame x y) : movedOn x y.retire ∧ (∀ r, y.retire.reg r = y.reg r) ∧ (∀ p, y.retire.pred p = y.pred p) ∧
    (∀ r, y.retire.isEmpty r = y.isEmpty r) ∧ y.retire.fills = y.fills ∧ y.retire.dc = y.dc ∧ y.retire.ctx = y.ctx := by
  rw [retire_congr h]
  exact ⟨⟨rfl, rfl, rfl, rfl, rfl⟩, fun _ => rfl, fun _ => rfl, fun _ => rfl, rfl, rfl, rfl⟩

end Sys2Proof.Machine
end

section
/-! Global loads and stores in the cache (R79 to R82, R99). -/
namespace Sys2Proof.Machine
set_option Elab.async false
open Safety

/-! ### Bytes of a line -/

theorem getLsbD_lineMask {ea : Word} {w : Nat} {i : Nat} (hi : i < 64) :
    (lineMask ea w).getLsbD i = decide (ea.toNat % 64 ≤ i ∧ i < ea.toNat % 64 + w) := by
  unfold lineMask
  rw [BitVec.getLsbD_ofNat, Nat.testBit_mul_two_pow, Nat.testBit_two_pow_sub_one, Bool.eq_iff_iff]
  simp only [Bool.and_eq_true, decide_eq_true_eq]
  omega

/-- An aligned access lies in one line. -/
theorem access_in_line {ea : Word} {w : Nat} (hw : AccessWidth w) (h0 : ea.toNat % w = 0) : ea.toNat % 64 + w ≤ 64 := by
  rcases hw with rfl | rfl | rfl | rfl <;> omega

/-- A load hits if all its bytes are valid. -/
theorem lineMask_hit {ea : Word} {w : Nat} (hw : AccessWidth w) (h0 : ea.toNat % w = 0) (v : BitVec 64) :
    lineMask ea w &&& ~~~v = 0 ↔ ∀ k, k < w → v.getLsbD (ea.toNat % 64 + k) = true := by
  have hin := access_in_line hw h0
  constructor
  · intro h k hk
    have hbit := congrArg (fun m => m.getLsbD (ea.toNat % 64 + k)) h
    have hmask : (lineMask ea w).getLsbD (ea.toNat % 64 + k) = true := by
      rw [getLsbD_lineMask (by omega), decide_eq_true (by omega)]
    simpa [hmask, show ea.toNat % 64 + k < 64 by omega] using hbit
  · intro h
    apply BitVec.eq_of_getLsbD_eq
    intro i hi
    rw [BitVec.getLsbD_and, getLsbD_lineMask hi]
    by_cases hc : ea.toNat % 64 ≤ i ∧ i < ea.toNat % 64 + w
    · have hv := h (i - ea.toNat % 64) (by omega)
      rw [show ea.toNat % 64 + (i - ea.toNat % 64) = i by omega] at hv
      simp [hv]
    · simp [hc]

theorem testBit_byteMask (n m i : Nat) (hi : i < 8 * n) : (byteMask n m).testBit i = m.testBit (i / 8) := by
  induction n generalizing m i with
  | zero => omega
  | succ n ih =>
    have hb : (if m % 2 = 1 then 255 else 0) < 2 ^ 8 := by split <;> decide
    rw [byteMask, Nat.add_comm, show (256 : Nat) = 2 ^ 8 from rfl, Nat.testBit_two_pow_mul_add _ hb]
    by_cases h8 : i < 8
    · rw [if_pos h8, show i / 8 = 0 by omega, Nat.testBit_zero]
      split
      · next h =>
        rw [show (255 : Nat) = 2 ^ 8 - 1 from rfl, Nat.testBit_two_pow_sub_one, h, decide_eq_true h8]
        rfl
      · next h => simp [h]
    · rw [if_neg h8, ih (m / 2) (i - 8) (by omega), show i / 8 = (i - 8) / 8 + 1 by omega, Nat.testBit_succ]

theorem getLsbD_mergeBytes (old new : BitVec 512) (mask : BitVec 64) {i : Nat} (hi : i < 512) :
    (mergeBytes old new mask).getLsbD i = if mask.getLsbD (i / 8) then new.getLsbD i else old.getLsbD i := by
  have hm : (BitVec.ofNat 512 (byteMask 64 mask.toNat)).getLsbD i = mask.getLsbD (i / 8) := by
    rw [BitVec.getLsbD_ofNat, testBit_byteMask _ _ _ (by omega), decide_eq_true hi, Bool.true_and, BitVec.testBit_toNat]
  unfold mergeBytes
  dsimp only
  rw [BitVec.getLsbD_or, BitVec.getLsbD_and, BitVec.getLsbD_and, BitVec.getLsbD_not, hm]
  cases mask.getLsbD (i / 8) <;> simp [hi]

/-- The bytes of a store in its line. -/
theorem getLsbD_storeData {ea : Word} {w : Nat} (v : Word) (hin : ea.toNat % 64 + w ≤ 64) {i j : Nat} (hi : i < w) (hj : j < 8) :
    (BitVec.ofNat 512 (v.toNat % 2 ^ (8 * w) * 2 ^ (8 * (ea.toNat % 64)))).getLsbD (8 * (ea.toNat % 64 + i) + j) = v.getLsbD (8 * i + j) := by
  rw [BitVec.getLsbD_ofNat, Nat.testBit_mul_two_pow, Nat.testBit_mod_two_pow, BitVec.testBit_toNat,
    show 8 * (ea.toNat % 64 + i) + j - 8 * (ea.toNat % 64) = 8 * i + j by omega, decide_eq_true (by omega), decide_eq_true (by omega),
    decide_eq_true (by omega), Bool.true_and, Bool.true_and, Bool.true_and]

/-! ### The cache -/

theorem line_install {x : Scalar} {l : Line} (hctx : l.ctx = x.ctx) : (x.install l).line l.tag = some l := by
  have hctx' : (x.install l).ctx = x.ctx := rfl
  unfold Scalar.line
  rw [hctx']
  show (tget (tput x.dc (lineSet l.tag) ((l :: x.others l.tag).take 8) []) (lineSet l.tag) []).find? _ = _
  rw [tget_tput, if_pos rfl, List.take_succ_cons, List.find?_cons_of_pos]
  simp [hctx]

theorem line_some {x : Scalar} {tag : BitVec 58} {l : Line} (h : x.line tag = some l) : l.tag = tag ∧ l.ctx = x.ctx := by
  have hp := List.find?_some h
  simpa using hp

/-- A store in the cache (R80). -/
theorem lineStored_storeLine (x : Scalar) {ea : Word} {w : Nat} (hin : ea.toNat % 64 + w ≤ 64) (v : Word) :
    lineStored x (x.storeLine ea w v) ea w v := by
  have hmask (i : Nat) (hi : i < 64) := getLsbD_lineMask (ea := ea) (w := w) hi
  cases hl : x.line (tagOf ea) with
  | none =>
    have hst : x.storeLine ea w v = x.install (Line.mk x.ctx (tagOf ea)
        (BitVec.ofNat 512 (v.toNat % 2 ^ (8 * w) * 2 ^ (8 * (ea.toNat % 64)))) (lineMask ea w) (lineMask ea w)) := by
      unfold Scalar.storeLine
      dsimp only
      rw [hl]
    rw [hst]
    refine ⟨_, line_install rfl, fun i j hi hj => getLsbD_storeData v hin hi hj, fun i hi => ?_, fun o ho => ?_⟩
    · dsimp only
      rw [hmask _ (by omega), decide_eq_true (by omega)]
      exact ⟨rfl, rfl⟩
    · rw [hl] at ho
      cases ho
  | some l =>
    obtain ⟨htag, hctx⟩ := line_some hl
    have hst : x.storeLine ea w v = x.install { l with
        data := mergeBytes l.data (BitVec.ofNat 512 (v.toNat % 2 ^ (8 * w) * 2 ^ (8 * (ea.toNat % 64)))) (lineMask ea w),
        valid := l.valid ||| lineMask ea w, dirty := l.dirty ||| lineMask ea w } := by
      unfold Scalar.storeLine
      dsimp only
      rw [hl]
    rw [hst]
    refine ⟨_, (congrArg (fun tag => Scalar.line _ tag) htag.symm).trans (line_install hctx), fun i j hi hj => ?_, fun i hi => ?_, fun o ho i hi hout => ?_⟩
    · dsimp only
      rw [getLsbD_mergeBytes _ _ _ (by omega), show (8 * (ea.toNat % 64 + i) + j) / 8 = ea.toNat % 64 + i by omega, hmask _ (by omega),
        decide_eq_true (by omega), if_pos rfl, getLsbD_storeData v hin hi hj]
    · dsimp only
      rw [BitVec.getLsbD_or, BitVec.getLsbD_or, hmask _ (by omega), decide_eq_true (by omega), Bool.or_true, Bool.or_true]
      exact ⟨rfl, rfl⟩
    · rw [hl] at ho
      obtain rfl : l = o := Option.some.inj ho
      have hclear : (lineMask ea w).getLsbD i = false := by
        rw [hmask i hi, decide_eq_false (by omega)]
      refine ⟨?_, ?_, fun j hj => ?_⟩
      · dsimp only
        rw [BitVec.getLsbD_or, hclear, Bool.or_false]
      · dsimp only
        rw [BitVec.getLsbD_or, hclear, Bool.or_false]
      · dsimp only
        rw [getLsbD_mergeBytes _ _ _ (by omega), show (8 * i + j) / 8 = i by omega, hclear, if_neg Bool.false_ne_true]

/-! ### The stream after an access -/

theorem stream_putSc_retire (s : State) (y : Scalar) : stream (s.putSc s.cur y).retire = y.retire := by
  have h : stream (s.putSc s.cur y).retire = (stream (s.putSc s.cur y)).retire := stream_upSc _ _
  rw [h, stream_eq, putSc_cur, putSc_get, if_pos rfl]

theorem onlyStream_putSc_retire (s : State) (y : Scalar) : onlyStream s (s.putSc s.cur y).retire :=
  onlyStream_trans (onlyStream_upSc s fun _ => y) (onlyStream_upSc (s.putSc s.cur y) Scalar.retire)

/-- A register marked, in a stream whose cache and pending loads may have changed. -/
theorem markEmpty_eq (y : Scalar) (d : BitVec 6) : y.markEmpty d = { y with empty := (y.markEmpty d).empty } := by
  unfold Scalar.markEmpty
  split <;> rfl

theorem loopsSame_markEmpty {x y : Scalar} (h : LoopsSame x y) (d : BitVec 6) (fs : List Fill) : LoopsSame x { y.markEmpty d with fills := fs } := by
  rw [markEmpty_eq]
  exact ⟨h.pc, h.status, h.lstart0, h.lend0, h.lcount0, h.lstart1, h.lend1, h.lcount1⟩

/-- A load has been issued: its destination is marked, its fill queued, and the stream moves on. -/
theorem load_issued {s : State} {y : Scalar} {d : BitVec 6} (f : Fill) (hy : y = { stream s with dc := y.dc, wb := y.wb }) :
    let t := (s.putSc s.cur { y.markEmpty d with fills := (stream s).fills ++ [f] }).retire
    onlyStream s t ∧ (d ≠ 0#6 → (stream t).isEmpty d = true) ∧ (∀ r, r ≠ d → (stream t).isEmpty r = (stream s).isEmpty r) ∧
      regsKept (stream s) (stream t) [] ∧ predsKept (stream s) (stream t) [] ∧ movedOn (stream s) (stream t) ∧
      (stream t).fills = (stream s).fills ++ [f] := by
  intro t
  have hsame : LoopsSame (stream s) y := by
    rw [hy]
    exact ⟨rfl, rfl, rfl, rfl, rfl, rfl, rfl, rfl⟩
  obtain ⟨hmoved, hregs, hpreds, hmarks, hfills, -, -⟩ := movedOn_congr (loopsSame_markEmpty hsame d ((stream s).fills ++ [f]))
  have hreg (r : BitVec 6) : (y.markEmpty d).reg r = (stream s).reg r := by
    rw [markEmpty_eq, hy]
    rfl
  have hpred (p : BitVec 5) : (y.markEmpty d).pred p = (stream s).pred p := by
    rw [markEmpty_eq, hy]
    rfl
  have hmark (r : BitVec 6) : y.isEmpty r = (stream s).isEmpty r := by
    rw [hy]
    rfl
  have ht : stream t = _ := stream_putSc_retire s _
  rw [ht]
  refine ⟨onlyStream_putSc_retire s _, fun hd => ?_, fun r hr => ?_, fun r _ => (hregs r).trans (hreg r), fun p _ => (hpreds p).trans (hpred p),
    hmoved, hfills⟩
  · exact (hmarks d).trans ((isEmpty_markEmpty y hd d).trans (if_pos rfl))
  · refine (hmarks r).trans ?_
    by_cases hd : d = 0#6
    · subst hd
      exact hmark r
    · exact (isEmpty_markEmpty y hd r).trans ((if_neg hr).trans (hmark r))

/-! ### Loads at issue -/

/-- What a global load that nothing stops does: its line is found whole, or its fill waits for the home. -/
theorem loadGlobal_eq {s : State} {w : Nat} {ea : Word} (sx : Bool) (d : BitVec 6) (h0 : ea.toNat % w = 0) (hform : badForm ea.toNat = false)
    (hctl : isControl (ea.toNat % 2 ^ 56) = true → (stream s).ctx = 0#6) (hacq : (stream s).acquiring = false)
    (hfetch : (stream s).fetching (tagOf ea) = false) (hslots : slotsFull s s.cur = false) :
    loadGlobal w sx d ea s =
      match (stream s).line (tagOf ea) with
      | some l =>
        if lineMask ea w &&& ~~~l.valid = 0 then
          (s.putSc s.cur { ((stream s).install l).markEmpty d with fills := (stream s).fills ++ [{
            reg := d, ea := ea, w := w, sext := sx, acq := false, val := some (extendLoad (lineBytes l.data ea w) w sx), verdict := false }] }).retire
        else
          (s.putSc s.cur { (stream s).markEmpty d with fills := (stream s).fills ++ [{
            reg := d, ea := ea, w := w, sext := sx, acq := false, val := none, verdict := false }] }).retire
      | none =>
        (s.putSc s.cur { (stream s).markEmpty d with fills := (stream s).fills ++ [{
          reg := d, ea := ea, w := w, sext := sx, acq := false, val := none, verdict := false }] }).retire := by
  have hctl' : (isControl (ea.toNat % 2 ^ 56) && (s.sc s.cur).ctx != 0#6) = false := by
    cases hc : isControl (ea.toNat % 2 ^ 56) with
    | false => rfl
    | true =>
      have := hctl hc
      simp_all
  rw [stream_eq] at hacq hfetch ⊢
  unfold loadGlobal
  simp only [h0, hform, hctl', hacq, hfetch, hslots, ne_eq, not_true, Bool.false_eq_true, Bool.or_self, if_false]
  cases (s.sc s.cur).line (tagOf ea) with
  | none => rfl
  | some l =>
    dsimp only
    by_cases hv : lineMask ea w &&& ~~~l.valid = 0
    · rw [if_pos hv, if_pos hv]
    · rw [if_neg hv, if_neg hv]

theorem globalLoadIssues : Parts.GlobalLoadIssues := by
  intro s g d a imm i w sx hi ha ea hea h0 hform hctl hacq hfetch hslots
  obtain ⟨hw, hexec⟩ := exec_globalLoad hi s
  subst hea
  have hbody := loadGlobal_eq sx d h0 hform hctl hacq hfetch hslots
  refine ⟨_, (hexec.trans (issue_acts (dst := some d) _ ha)).trans (congrArg _ hbody), ?_⟩
  cases hl : (stream s).line (tagOf (s.rd a + imm.signExtend 64)) with
  | none =>
    obtain ⟨honly, hd, hmarks, hregs, hpreds, hmoved, hfills⟩ := load_issued (s := s) (y := stream s) (d := d) _ rfl
    exact ⟨honly, hd, hmarks, hregs, hpreds, hmoved, _, hfills, rfl, rfl, rfl, rfl, rfl, rfl, by simp⟩
  | some l =>
    dsimp only
    have hhit := lineMask_hit hw h0 l.valid
    by_cases hv : lineMask (s.rd a + imm.signExtend 64) w &&& ~~~l.valid = 0
    · rw [if_pos hv]
      obtain ⟨honly, hd, hmarks, hregs, hpreds, hmoved, hfills⟩ :=
        load_issued (s := s) (y := (stream s).install l) (d := d) _ rfl
      exact ⟨honly, hd, hmarks, hregs, hpreds, hmoved, _, hfills, rfl, rfl, rfl, rfl, rfl, rfl, by simpa using hhit.mp hv⟩
    · rw [if_neg hv]
      obtain ⟨honly, hd, hmarks, hregs, hpreds, hmoved, hfills⟩ := load_issued (s := s) (y := stream s) (d := d) _ rfl
      refine ⟨honly, hd, hmarks, hregs, hpreds, hmoved, _, hfills, rfl, rfl, rfl, rfl, rfl, rfl, ?_⟩
      simpa using fun h => hv (hhit.mpr h)

/-! ### Loads that arrive -/

/-- Part of what is read. -/
theorem rdN_slice (m : Memory) (k : Nat) {n o w : Nat} (h : o + w ≤ n) : rdN m k n / 2 ^ (8 * o) % 2 ^ (8 * w) = rdN m (k + o) w := by
  apply Nat.eq_of_testBit_eq
  intro i
  rw [Nat.testBit_mod_two_pow, Nat.testBit_div_two_pow]
  by_cases hi : i < 8 * w
  · have hr : i = 8 * (i / 8) + i % 8 := by omega
    rw [decide_eq_true hi, Bool.true_and, show i + 8 * o = 8 * (o + i / 8) + i % 8 by omega, testBit_rdN m k (by omega) (by omega)]
    conv_rhs => rw [hr, testBit_rdN m (k + o) (by omega) (by omega)]
    rw [Nat.add_assoc]
  · rw [decide_eq_false hi, Bool.false_and, Nat.testBit_lt_two_pow (Nat.lt_of_lt_of_le (rdN_lt m (k + o) w) (Nat.pow_le_pow_right (by decide) (by omega)))]

/-- The bytes of an access in a line that has been read from its home. -/
theorem lineBytes_rdN (m : Memory) {ea : Word} {key w : Nat} (hin : ea.toNat % 64 + w ≤ 64) (hkey : key % 64 = ea.toNat % 64) :
    lineBytes (BitVec.ofNat 512 (rdN m (key - key % 64) 64)) ea w = rdN m key w := by
  have hlt : rdN m (key - key % 64) 64 < 2 ^ 512 := rdN_lt m _ 64
  unfold lineBytes
  rw [BitVec.toNat_ofNat, Nat.mod_eq_of_lt hlt, rdN_slice m _ hin, ← hkey, Nat.sub_add_cancel (Nat.mod_le key 64)]

theorem fillReg_eq (y : Scalar) (r : BitVec 6) (v : Word) : y.fillReg r v = { y with regs := (y.fillReg r v).regs, empty := (y.fillReg r v).empty } := by
  unfold Scalar.fillReg Scalar.setReg
  split <;> rfl

/-- A value has arrived in a stream that is otherwise as it was, but for its cache and its pending loads. -/
theorem filled_fillReg {x y : Scalar} (r : BitVec 6) (v : Word) (hregs : y.regs = x.regs) (hpc : y.pc = x.pc) :
    (r ≠ 0#6 → (y.fillReg r v).reg r = v ∧ (y.fillReg r v).isEmpty r = false) ∧ regsKept x (y.fillReg r v) [r] ∧
      (y.fillReg r v).fills = y.fills ∧ (y.fillReg r v).pc = x.pc ∧ (y.fillReg r v).dc = y.dc := by
  have heq := fillReg_eq y r v
  have hreg (q : BitVec 6) : y.reg q = x.reg q := by rw [Scalar.reg, Scalar.reg, hregs]
  refine ⟨fun hr => ⟨?_, ?_⟩, fun q hq => ?_, by rw [heq], by rw [heq, hpc], by rw [heq]⟩
  · rw [reg_fillReg, reg_setReg_of_ne y hr, if_pos rfl]
  · rw [isEmpty_fillReg y hr, if_pos rfl]
  · rw [reg_fillReg, reg_setReg, hreg]
    by_cases h0 : q = 0#6
    · rw [if_pos h0, h0, reg_zero]
    · rw [if_neg h0, if_neg (by simpa using hq)]

theorem stream_putSc_of_cur {s u : State} (hcur : u.cur = s.cur) (y : Scalar) : stream (u.putSc s.cur y) = y := by
  rw [stream_eq, putSc_cur, putSc_get, if_pos hcur]

theorem exec_globalLoadFill_known {s : State} {k : Nat} {f : Fill} {v : Word} (hf : (stream s).fills[k]? = some f) (hacq : f.acq = false)
    (hverdict : f.verdict = false) (hval : f.val = some v) :
    exec (.globalLoadFill k) s = .next (s.putSc s.cur ((dropFill (stream s) k).fillReg f.reg v)) := by
  rw [exec_globalLoadFill, execGlobalLoadFill, ← stream_eq, hf]
  simp only [hacq, hverdict, hval, Bool.or_self, Bool.false_eq_true, if_false]

theorem exec_globalLoadFill_home {s : State} {k : Nat} {f : Fill} (hf : (stream s).fills[k]? = some f) (hacq : f.acq = false)
    (hverdict : f.verdict = false) (hval : f.val = none) : exec (.globalLoadFill k) s = .next (fillFromHome k f s) := by
  rw [exec_globalLoadFill, execGlobalLoadFill, ← stream_eq, hf]
  simp only [hacq, hverdict, hval, Bool.or_self, Bool.false_eq_true, if_false]

theorem fetchMask_memory (s : State) (req c line : Nat) {key : Nat} (h : isDevice key = false) : fetchMask s req c line key = BitVec.allOnes 64 := by
  unfold fetchMask
  rw [h]
  rfl

/-- The line of a word of ordinary memory is ordinary memory. -/
theorem isDevice_line {key : Nat} (h : isDevice key = false) : isDevice (key - key % 64) = false := by
  unfold isDevice winKey spKey ctlKey at *
  simp only [Bool.or_eq_false_iff, Bool.and_eq_false_iff, decide_eq_false_iff_not] at *
  omega

/-- The line that a miss brings from ordinary memory. -/
def fetchedLine (s : State) (tag : BitVec 58) (key : Nat) : Line :=
  { ctx := (stream s).ctx, tag := tag, data := BitVec.ofNat 512 (rdN s.mem (key - key % 64) 64), valid := BitVec.allOnes 64, dirty := 0 }

theorem fillFromHome_miss {s : State} {k key : Nat} {f : Fill} (hline : (stream s).line (tagOf f.ea) = none)
    (hwb : (stream s).wbPending (tagOf f.ea) = false) (hgate : gateOpen s (stream s).ctx.toNat = true)
    (hctl : isControl (f.ea.toNat % 2 ^ 56) = false) (hkey : resolve s s.cur (stream s).ctx.toNat f.ea.toNat 4 = .ok key)
    (hdev : isDevice (key - key % 64) = false) (hue : lineUncorrectable s key = false) :
    fillFromHome k f s = (noteAccess s s.cur (stream s).ctx.toNat f.ea.toNat 4 key).putSc s.cur
      (((dropFill (stream s) k).install (fetchedLine s (tagOf f.ea) key)).fillReg f.reg
        (extendLoad (lineBytes (fetchedLine s (tagOf f.ea) key).data f.ea f.w) f.w f.sext)) := by
  have hcur : (noteAccess s s.cur (stream s).ctx.toNat f.ea.toNat 4 key).cur = s.cur := by rw [noteAccess_eq]
  rw [stream_eq] at hline hwb hgate hkey hcur ⊢
  unfold fillFromHome
  simp only [hline, hwb, hgate, hctl, hkey, hue, hcur, fetchMask_memory _ _ _ _ hdev, Bool.not_true, Bool.or_self, Bool.false_eq_true, if_false,
    BitVec.or_zero]
  rfl

theorem globalLoadFillArrives : Parts.GlobalLoadFillArrives := by
  intro s k f hf hacq hverdict
  refine ⟨fun v hval => ⟨_, exec_globalLoadFill_known hf hacq hverdict hval, ?_⟩, fun hval hline hwb hgate hctl hw h0 key hkey hoff hdev hue => ?_⟩
  · obtain ⟨hfull, hregs, hfills, hpc, -⟩ := filled_fillReg (x := stream s) (y := dropFill (stream s) k) f.reg v rfl rfl
    have hstream : stream (s.putSc s.cur ((dropFill (stream s) k).fillReg f.reg v)) = _ := stream_putSc_of_cur rfl _
    rw [hstream]
    exact ⟨onlyStream_upSc s fun _ => (dropFill (stream s) k).fillReg f.reg v, hfull, hregs, hfills, hpc⟩
  · have hdev' : isDevice (key - key % 64) = false := isDevice_line hdev
    have hwidth : AccessWidth f.w := by simpa using hw
    refine ⟨_, (exec_globalLoadFill_home hf hacq hverdict hval).trans (congrArg _ (fillFromHome_miss hline hwb hgate hctl hkey hdev' hue)), ?_⟩
    have hcur : (noteAccess s s.cur (stream s).ctx.toNat f.ea.toNat 4 key).cur = s.cur := by rw [noteAccess_eq]
    dsimp only
    rw [stream_putSc_of_cur hcur]
    obtain ⟨hfull, hregs, hfills, hpc, -⟩ := filled_fillReg (x := stream s)
      (y := (dropFill (stream s) k).install (fetchedLine s (tagOf f.ea) key)) f.reg
      (extendLoad (lineBytes (fetchedLine s (tagOf f.ea) key).data f.ea f.w) f.w f.sext) rfl rfl
    refine ⟨fun hr => ?_, hregs, hfills, hpc, fun j => ?_⟩
    · obtain ⟨hv, hmark⟩ := hfull hr
      refine ⟨?_, hmark⟩
      rw [hv, fetchedLine, lineBytes_rdN s.mem (access_in_line hwidth h0) hoff]
      exact loads_extendLoad s.mem key hwidth f.sext
    · rw [putSc_mem, noteAccess_mem]

/-! ### Load-acquire -/

theorem spanFault_word {s : State} {req c ea need key : Nat} (h8 : ea % 8 = 0) (hkey : resolve s req c ea need = .ok key) :
    spanFault s req c ea 8 need = none := by
  unfold spanFault
  rw [hkey]
  dsimp only
  split
  · have h1 : (ea % 8 + 8 + 7) / 8 = 1 := by omega
    have h2 : ea - ea % 8 = ea := by omega
    rw [h1, h2, firstFault, hkey]
    simp only [firstFault, ite_self]
  · rw [if_pos (by omega)]

theorem homeRead_word {s : State} {req c ea need key : Nat} (h8 : ea % 8 = 0) (hkey : resolve s req c ea need = .ok key) :
    homeRead s req c ea 8 need = .ok (rdN s.mem key 8, lineUncorrectable s key, noteAccess s req c ea need key) := by
  unfold homeRead
  rw [spanFault_word h8 hkey, hkey]

/-- What a load-acquire that nothing stops does: the dirty bytes of its word leave, and its fill waits for the home. -/
theorem issueAcq_eq {s : State} {ea : Word} (d : BitVec 6) (h0 : ea.toNat % 8 = 0) (hform : badForm ea.toNat = false)
    (hacq : (stream s).acquiring = false) (hfetch : (stream s).fetching (tagOf ea) = false) (hslots : slotsFull s s.cur = false) :
    ∃ y : Scalar, y = { stream s with dc := y.dc, wb := y.wb } ∧ issueAcq d ea s =
      (s.putSc s.cur { y.markEmpty d with fills := (stream s).fills ++
        [{ reg := d, ea := ea, w := 8, sext := false, acq := true, val := none, verdict := false }] }).retire := by
  rw [stream_eq] at *
  unfold issueAcq
  simp only [h0, hform, hacq, hfetch, hslots, ne_eq, not_true, Bool.false_eq_true, Bool.or_self, if_false]
  cases (s.sc s.cur).line (tagOf ea) with
  | none => exact ⟨s.sc s.cur, rfl, rfl⟩
  | some l =>
    dsimp only
    split
    · exact ⟨s.sc s.cur, rfl, rfl⟩
    · exact ⟨_, rfl, rfl⟩

theorem acquireLoad_issues (s : State) (g : Guard) (d : BitVec 6) (a : Src) (off : BitVec 22) (ha : acts s 5 g [a] [d]) {ea : Word}
    (hea : ea = s.rd a + off.signExtend 64) (h0 : ea.toNat % 8 = 0) (hform : badForm ea.toNat = false) (hacq : (stream s).acquiring = false)
    (hfetch : (stream s).fetching (tagOf ea) = false) (hslots : slotsFull s s.cur = false) :
    completes (.ldAcq g d a off) s fun t =>
      onlyStream s t ∧ (d ≠ 0#6 → (stream t).isEmpty d = true) ∧ regsKept (stream s) (stream t) [] ∧
      predsKept (stream s) (stream t) [] ∧ movedOn (stream s) (stream t) ∧ (stream t).acquiring = true ∧
      ∃ f : Fill, (stream t).fills = (stream s).fills ++ [f] ∧ f.reg = d ∧ f.ea = ea ∧ f.w = 8 ∧ f.acq = true ∧ f.val = none := by
  subst hea
  obtain ⟨y, hy, hbody⟩ := issueAcq_eq d h0 hform hacq hfetch hslots
  refine ⟨_, ((exec_ldAcq g d a off s).trans (issue_acts (dst := some d) _ ha)).trans (congrArg _ hbody), ?_⟩
  obtain ⟨honly, hd, -, hregs, hpreds, hmoved, hfills⟩ := load_issued (s := s) (d := d) _ hy
  refine ⟨honly, hd, hregs, hpreds, hmoved, ?_, _, hfills, rfl, rfl, rfl, rfl, rfl⟩
  rw [Scalar.acquiring, hfills, List.any_append]
  simp

/-- The stream of a load-acquire whose word has been read. -/
def readStream (s : State) (k key : Nat) (f : Fill) (v : Word) : Scalar :=
  let y := { stream s with fills := (stream s).fills.set k { f with val := some v } }
  if isCore s.cur then y else { y with watch := some (key - key % 64, false) }

theorem readStream_eq (s : State) (k key : Nat) (f : Fill) (v : Word) : readStream s k key f v =
    { stream s with fills := (stream s).fills.set k { f with val := some v }, watch := (readStream s k key f v).watch } := by
  unfold readStream
  dsimp only
  split <;> rfl

/-- A load-acquire of a word of no sync object reads the home, and its value arrives. -/
theorem readAcq_plain {s : State} {k key : Nat} {f : Fill} (h8 : f.ea.toNat % 8 = 0) (hgate : gateOpen s (stream s).ctx.toNat = true)
    (hwb : (stream s).wbPending (tagOf f.ea) = false) (hkey : resolve s s.cur (stream s).ctx.toNat f.ea.toNat 4 = .ok key)
    (hue : lineUncorrectable s key = false) (hobj : acqRegions s (stream s).ctx.toNat f.ea = none) :
    ∃ u : State, u.cur = s.cur ∧ u.mem = s.mem ∧ readAcq k f s = u.putSc s.cur
      (((dropFill (readStream s k key f (BitVec.ofNat 64 (rdN s.mem key 8))) k).invalidate fun l => l.dirty == 0).fillReg f.reg
        (BitVec.ofNat 64 (rdN s.mem key 8))) := by
  have hread := homeRead_word h8 hkey
  have hsame := xlatSame_noteAccess s s.cur (stream s).ctx.toNat f.ea.toNat 4 key
  have heq := noteAccess_eq s s.cur (stream s).ctx.toNat f.ea.toNat 4 key
  rw [stream_eq] at *
  unfold readAcq
  simp only [hwb, hgate, hkey, hread, hue, Bool.not_true, Bool.or_self, Bool.false_eq_true, if_false]
  obtain ⟨D, hD⟩ : ∃ D, noteAccess s s.cur (s.sc s.cur).ctx.toNat f.ea.toNat 4 key = { s with die := D } := ⟨_, heq⟩
  rw [hD] at hsame ⊢
  have hobj' := (acqRegions_congr hsame (s.sc s.cur).ctx.toNat f.ea).trans hobj
  rw [hobj']
  dsimp only
  generalize hu : (noteRegions { s with die := D } (s.sc s.cur).ctx.toNat (f.ea.toNat - 8)).putSc s.cur
    (readStream s k key f (BitVec.ofNat 64 (rdN s.mem key 8))) = u
  have hregs := noteRegions_eq { s with die := D } (s.sc s.cur).ctx.toNat (f.ea.toNat - 8)
  have hcur : u.cur = s.cur := by rw [← hu, putSc_cur, hregs]
  have hmem : u.mem = s.mem := by rw [← hu, putSc_mem, hregs]
  have hsc : u.sc s.cur = readStream s k key f (BitVec.ofNat 64 (rdN s.mem key 8)) := by rw [← hu, putSc_get, if_pos rfl]
  have hobj'' : acqRegions u (s.sc s.cur).ctx.toNat f.ea = none := by
    rw [← hu, acqRegions_congr (xlatSame_putSc _ _ _), acqRegions_congr (xlatSame_noteRegions _ _ _), hobj']
  have hctx : (readStream s k key f (BitVec.ofNat 64 (rdN s.mem key 8))).ctx = (s.sc s.cur).ctx := by rw [readStream_eq]; rfl
  refine ⟨u, hcur, hmem, ?_⟩
  have hfinish : finishAcq k { f with val := some (BitVec.ofNat 64 (rdN s.mem key 8)) } (BitVec.ofNat 64 (rdN s.mem key 8)) u =
      u.putSc s.cur (((dropFill (readStream s k key f (BitVec.ofNat 64 (rdN s.mem key 8))) k).invalidate fun l => l.dirty == 0).fillReg f.reg
        (BitVec.ofNat 64 (rdN s.mem key 8))) := by
    unfold finishAcq
    simp only [hcur, hsc, hctx, hobj'']
  rw [← hfinish, ← hu]
  rfl

theorem exec_acquireLoadFill_home {s : State} {k : Nat} {f : Fill} (hf : (stream s).fills[k]? = some f) (hacq : f.acq = true)
    (hval : f.val = none) : exec (.acquireLoadFill k) s = .next (readAcq k f s) := by
  rw [exec_acquireLoadFill, execAcquireLoadFill, ← stream_eq, hf]
  simp only [hacq, hval, Bool.not_true, Bool.false_eq_true, if_false]

/-- The lines that stay are those that the invalidation does not name. -/
theorem mem_invalidate {x : Scalar} {p : Line → Bool} {e : Nat × List Line} {l : Line} (he : e ∈ (x.invalidate p).dc) (hl : l ∈ e.2) : p l = false := by
  obtain ⟨he, -⟩ := List.mem_filter.mp he
  obtain ⟨e', -, rfl⟩ := List.mem_map.mp he
  simpa using (List.mem_filter.mp hl).2

theorem acquireLoad : Parts.AcquireLoad := by
  refine ⟨fun s g d a off ha ea hea h0 hform hacq hfetch hslots => acquireLoad_issues s g d a off ha hea h0 hform hacq hfetch hslots,
    fun s k f key hf hacq hval h8 hgate hwb hkey hue hobj => ?_⟩
  obtain ⟨u, hcur, hmem, hread⟩ := readAcq_plain h8 hgate hwb hkey hue hobj
  refine ⟨_, (exec_acquireLoadFill_home hf hacq hval).trans (congrArg _ hread), ?_⟩
  dsimp only
  rw [stream_putSc_of_cur hcur]
  have hrs := readStream_eq s k key f (BitVec.ofNat 64 (rdN s.mem key 8))
  generalize readStream s k key f (BitVec.ofNat 64 (rdN s.mem key 8)) = y at hrs
  obtain ⟨hfull, hregs, hfills, hpc, hdc⟩ := filled_fillReg (x := stream s) (y := (dropFill y k).invalidate fun l => l.dirty == 0) f.reg
    (BitVec.ofNat 64 (rdN s.mem key 8)) (by rw [hrs]; rfl) (by rw [hrs]; rfl)
  refine ⟨fun hr => ?_, hregs, ?_, fun j => ?_, fun e he l hl => ?_⟩
  · obtain ⟨hv, hmark⟩ := hfull hr
    refine ⟨?_, hmark⟩
    rw [hv]
    exact loads_extendLoad s.mem key (by decide : AccessWidth 8) false
  · rw [hfills]
    show y.fills.eraseIdx k = _
    rw [hrs]
    exact List.eraseIdx_set_eq
  · rw [putSc_mem, hmem]
  · rw [hdc] at he
    simpa using mem_invalidate he hl

end Sys2Proof.Machine
end

section
/-! The context faults of global accesses (R78), and the stores that reach their homes (R80, R315, R323, R342). -/
namespace Sys2Proof.Machine
set_option Elab.async false
open Safety

/-! ### Context faults -/

theorem contextFaults_ctxFault {s : State} (hfw : isFw s.cur = false) (cause : Nat) (val : Word) : contextFaults s cause val (s.ctxFault cause 0 val) := by
  obtain ⟨f, hfault, hctx, hpos, hstat, hcause, hdetail, hval⟩ := ctxFault_eq hfw cause 0 val
  rw [hfault]
  exact ⟨onlyStream_upSc s fun _ => { stream s with run := .halted }, stream_upSc s fun _ => { stream s with run := .halted }, f, rfl, hctx, hpos, hstat, hcause, hdetail, hval⟩

theorem completes_contextFaults_of_body {i : Instr} {s : State} {cls : Nat} {g : Guard} {srcs : List Src} {dst : Option (BitVec 6)}
    {body : State → State} {cause : Nat} {val : Word} (e : exec i s = issue cls g srcs dst s body) (ha : acts s cls g srcs dst.toList)
    (hbody : body s = s.ctxFault cause 0 val) (hfw : isFw s.cur = false) : completes i s (contextFaults s cause val) :=
  ⟨_, e.trans (issue_acts body ha), hbody ▸ contextFaults_ctxFault hfw cause val⟩

/-- The two faults of a translation carry no DETAIL. -/
theorem detailOf_translation {e : Nat} (h : e = 0x20 ∨ e = 0x21) : detailOf e = 0 := by
  rcases h with rfl | rfl <;> rfl

/-! ### A control address (R342) -/

/-- Control space is mapped for context 0 alone. -/
theorem resolve_control {s : State} {req c ea need : Nat} (hform : badForm ea = false) (hctl : isControl (ea % 2 ^ 56) = true) (hc : c ≠ 0) :
    resolve s req c ea need = .error causeUnmapped := by
  unfold resolve controlKey
  dsimp only
  rw [hform, hctl, if_neg Bool.false_ne_true, if_pos rfl, if_pos hc]

theorem noteXlat_control {s : State} {req c ea need : Nat} (hctl : isControl (ea % 2 ^ 56) = true) : noteXlat s req c ea need = s := by
  unfold noteXlat
  exact if_pos (.inr (.inr (.inl hctl)))

theorem firstByte_low {w : Nat} (hw : AccessWidth w) : firstByte (2 ^ w - 1) 0 64 = 0 := by
  rcases hw with rfl | rfl | rfl | rfl <;> decide

/-- A store to an address that does not resolve. -/
theorem homeWrite_unresolved {s : State} {req c ea n v mask need e : Nat} (hgate : gateOpen s c = true)
    (h : resolve s req c (ea + firstByte mask 0 64) need = .error e) : homeWrite s req c ea n v mask need =
      .error ⟨e, detailOf e, ea + firstByte mask 0 64, noteXlat s req c (ea + firstByte mask 0 64) need⟩ := by
  unfold homeWrite
  dsimp only
  rw [hgate, h]
  rfl

theorem loadGlobal_faults {s : State} {w : Nat} {ea : Word} (sx : Bool) (d : BitVec 6) (h0 : ea.toNat % w = 0)
    (h : badForm ea.toNat = true ∨ isControl (ea.toNat % 2 ^ 56) = true ∧ (stream s).ctx ≠ 0#6) :
    loadGlobal w sx d ea s = s.ctxFault causeUnmapped 0 ea := by
  unfold loadGlobal
  rw [if_neg (not_not_intro h0)]
  by_cases hform : badForm ea.toNat = true
  · exact if_pos hform
  · obtain ⟨hctl, hctx⟩ := h.resolve_left hform
    refine (if_neg hform).trans (if_pos ?_)
    rw [hctl, Bool.true_and]
    exact bne_iff_ne.mpr hctx

theorem storeGlobal_faults {s : State} {w : Nat} {ea : Word} (v : Word) (hw : AccessWidth w) (h0 : ea.toNat % w = 0)
    (hform : badForm ea.toNat = false) (hctl : isControl (ea.toNat % 2 ^ 56) = true) (hctx : (stream s).ctx ≠ 0#6)
    (hacq : (stream s).acquiring = false) (hfetch : (stream s).fetching (tagOf ea) = false) (hgate : gateOpen s (stream s).ctx.toNat = true) :
    storeGlobal w ea v s = s.ctxFault causeUnmapped 0 ea := by
  have hc : (stream s).ctx.toNat ≠ 0 := fun h => hctx (BitVec.eq_of_toNat_eq h)
  have hfirst := firstByte_low hw
  have hwrite := homeWrite_unresolved (req := s.cur) (n := w) (v := v.toNat % 2 ^ (8 * w)) (mask := 2 ^ w - 1) (ea := ea.toNat) hgate
    (by rw [hfirst]; exact resolve_control (need := 2) hform hctl hc)
  rw [hfirst, Nat.add_zero, noteXlat_control hctl] at hwrite
  rw [stream_eq] at *
  unfold storeGlobal
  simp only [h0, hform, hctl, hacq, hfetch, hwrite, ne_eq, not_true, Bool.false_eq_true, Bool.or_self, if_true, if_false]
  rfl

theorem issueAcq_faults {s : State} {ea : Word} (d : BitVec 6) (h0 : ea.toNat % 8 = 0) (hform : badForm ea.toNat = true) :
    issueAcq d ea s = s.ctxFault causeUnmapped 0 ea := (if_neg (not_not_intro h0)).trans (if_pos hform)

/-! ### Faults of what arrives -/

theorem fillFromHome_faults {s : State} {k e : Nat} {f : Fill} (hecc : s.ecc = []) (hwb : (stream s).wbPending (tagOf f.ea) = false)
    (hgate : gateOpen s (stream s).ctx.toNat = true) (hctl : isControl (f.ea.toNat % 2 ^ 56) = false)
    (h : resolve s s.cur (stream s).ctx.toNat f.ea.toNat 4 = .error e) : fillFromHome k f s = s.ctxFault e (detailOf e) f.ea := by
  rw [stream_eq] at *
  unfold fillFromHome
  simp only [hwb, hgate, hctl, h, noteXlat_of_no_error hecc, Bool.not_true, Bool.or_self, Bool.false_eq_true, if_false]

theorem readAcq_faults {s : State} {k e : Nat} {f : Fill} (hecc : s.ecc = []) (hwb : (stream s).wbPending (tagOf f.ea) = false)
    (hgate : gateOpen s (stream s).ctx.toNat = true) (h : resolve s s.cur (stream s).ctx.toNat f.ea.toNat 4 = .error e) :
    readAcq k f s = s.ctxFault e (detailOf e) f.ea := by
  rw [stream_eq] at *
  unfold readAcq
  simp only [hwb, hgate, h, noteXlat_of_no_error hecc, Bool.not_true, Bool.or_self, Bool.false_eq_true, if_false]

/-! ### Write-backs -/

theorem exec_writebackPerform_oldest {s : State} {k : Nat} {w : WriteBack} (hw : (stream s).wb[k]? = some w)
    (hfirst : ∀ o ∈ (stream s).wb.take k, ¬(o.tag = w.tag ∧ o.ctx = w.ctx)) :
    exec (.writebackPerform k) s = .next (performWb (s.putSc s.cur { stream s with wb := (stream s).wb.eraseIdx k }) w) := by
  have hnone : ((stream s).wb.take k).any (fun o => o.tag == w.tag && o.ctx == w.ctx) = false := by
    rw [List.any_eq_false]
    simpa using hfirst
  rw [stream_eq] at *
  rw [exec_writebackPerform, execWritebackPerform]
  dsimp only
  rw [hw]
  simp only [hnone, Bool.false_eq_true, if_false]

theorem performWb_faults {s : State} {w : WriteBack} {e ea : Nat} (hfw : isFw s.cur = false) (hecc : s.ecc = [])
    (hgate : gateOpen s w.ctx.toNat = true) (hea : ea = tagAddr w.tag + firstByte w.mask.toNat 0 64)
    (h : resolve s s.cur w.ctx.toNat ea 2 = .error e) : performWb s w =
      s.memFault w.ctx.toNat (ea / 2 ^ 56) (if isCore s.cur then s.cur else 0xFFF) e (detailOf e) (BitVec.ofNat 64 ea) := by
  subst hea
  unfold performWb
  rw [homeWrite_unresolved hgate h, noteXlat_of_no_error hecc]
  dsimp only
  rw [if_neg (by rw [hfw]; decide)]

/-! ### A fetch -/

theorem step_running {s : State} (hsched : s.sched = []) (hrun : (stream s).run = .running) : step s =
    match fetch s s.cur with
    | .error e => .next ((noteFetch s s.cur).ctxFault e.1 e.2 (stream s).pc)
    | .ok w =>
      match decodeWord w with
      | .error _ => .next ((noteFetch s s.cur).trap 1 1 w)
      | .ok i => exec i (noteFetch s s.cur) := by
  have hstep : step s = scalarTurn s.cur s := by
    rw [step, takeTurn, hsched]
  rw [hstep]
  exact if_pos hrun

theorem firstInstr_of_not_fresh {s : State} {a : Nat} (h : (s.sc a).fresh = false) : firstInstr s a = s := if_neg (by rw [h]; decide)

theorem fetch_faults {s : State} {e : Nat} (hcode : codeLine s s.cur = none) (hfw : isFw s.cur = false)
    (h : resolve s s.cur (stream s).ctx.toNat (stream s).pc.toNat 1 = .error e) : fetchKey s s.cur = .error e ∧ fetch s s.cur = .error (e, detailOf e) := by
  have hkey : fetchKey s s.cur = .error e := (if_neg (by rw [hfw]; decide)).trans h
  refine ⟨hkey, ?_⟩
  unfold fetch
  rw [hcode, hkey]

theorem noteFetch_faults {s : State} {e : Nat} (hcode : codeLine s s.cur = none) (hkey : fetchKey s s.cur = .error e) (hecc : s.ecc = [])
    (hfresh : (stream s).fresh = false) : noteFetch s s.cur = s := by
  unfold noteFetch
  rw [hcode, hkey, noteXlat_of_no_error hecc, ite_self]
  exact firstInstr_of_not_fresh hfresh

theorem globalAccessFaults : Parts.GlobalAccessFaults := by
  refine ⟨fun s g d a b imm i w ha hfw ea hea h0 => ⟨fun hi h => ?_, fun hi => ⟨fun hform => ?_, fun hform hctl hctx hacq hfetch hgate => ?_⟩⟩,
    fun s g d a off ea ha hfw hea h0 hform => ?_, fun s k e f hf hval hverdict hfw hecc hwb hgate he h => ⟨fun hacq hctl => ?_, fun hacq => ?_⟩,
    fun s k e w ea hw hfirst hfw hecc hgate he hea h => ?_, fun s e hsched hrun hfresh hfw hecc hcode he h => ?_⟩
  · subst hea
    obtain ⟨sx, hi⟩ : ∃ sx, (i, w, sx) ∈ globalLoadForms g d a imm := by
      simp only [globalLoadForms, List.mem_cons, Prod.mk.injEq, List.not_mem_nil, or_false] at hi ⊢
      casesm* _ ∨ _, _ ∧ _ <;> simp [*]
    exact completes_contextFaults_of_body (exec_globalLoad hi s).2 (acts_mono ha (by simp) (by simp)) (loadGlobal_faults sx d h0 h) hfw
  · subst hea
    exact completes_contextFaults_of_body (exec_globalStore hi s).2 (acts_mono ha (by simp) (by simp))
      ((if_neg (not_not_intro h0)).trans (if_pos hform)) hfw
  · subst hea
    exact completes_contextFaults_of_body (exec_globalStore hi s).2 (acts_mono ha (by simp) (by simp))
      (storeGlobal_faults (s.rd b) (exec_globalStore hi s).1 h0 hform hctl hctx hacq hfetch hgate) hfw
  · subst hea
    exact completes_contextFaults_of_body (exec_ldAcq g d a off s) ha (issueAcq_faults d h0 hform) hfw
  · refine ⟨_, exec_globalLoadFill_home hf hacq hverdict hval, ?_⟩
    rw [fillFromHome_faults hecc hwb hgate hctl h, detailOf_translation he]
    exact contextFaults_ctxFault hfw e f.ea
  · refine ⟨_, exec_acquireLoadFill_home hf hacq hval, ?_⟩
    rw [readAcq_faults hecc hwb hgate h, detailOf_translation he]
    exact contextFaults_ctxFault hfw e f.ea
  · refine ⟨_, exec_writebackPerform_oldest hw hfirst, ?_⟩
    have hres : resolve (s.putSc s.cur { stream s with wb := (stream s).wb.eraseIdx k }) s.cur w.ctx.toNat ea 2 = .error e :=
      (resolve_congr (xlatSame_putSc s s.cur _) _ _ _ _).trans h
    rw [performWb_faults (s := s.putSc s.cur { stream s with wb := (stream s).wb.eraseIdx k }) hfw hecc hgate hea hres, detailOf_translation he]
    have hstream : stream (s.putSc s.cur { stream s with wb := (stream s).wb.eraseIdx k }) = _ := stream_putSc_of_cur rfl _
    refine ⟨rfl, congrArg Scalar.wb hstream, fun r => ?_, _, rfl, rfl, ?_, rfl, rfl, rfl, rfl⟩
    · exact (congrArg (fun x : Scalar => x.reg r) hstream).trans rfl
    · exact BitVec.ofNat_toNat 6 w.ctx |>.trans (BitVec.setWidth_eq w.ctx)
  · obtain ⟨hkey, hfault⟩ := fetch_faults hcode hfw h
    have hstep : step s = .next (s.ctxFault e 0 (stream s).pc) := by
      rw [step_running hsched hrun, hfault, noteFetch_faults hcode hkey hecc hfresh, detailOf_translation he]
    exact ⟨_, hstep, contextFaults_ctxFault hfw e _⟩

/-- Settles O18: issues, arrivals and faults of the loads of the cache and of LD.ACQ, each from the equation of its access. -/
theorem globalLoads : Obligations.GlobalLoads := ⟨globalLoadIssues, globalLoadFillArrives, acquireLoad, globalAccessFaults⟩

end Sys2Proof.Machine
end

section
/-! Stores in the cache and write-backs at the home (R80, R82, R315, R342). -/
namespace Sys2Proof.Machine
set_option Elab.async false
open Safety

/-! ### Stores at issue -/

theorem storeGlobal_stalls {s : State} {w : Nat} {ea : Word} (v : Word) (h0 : ea.toNat % w = 0) (hform : badForm ea.toNat = false)
    (h : (stream s).acquiring = true ∨ (stream s).fetching (tagOf ea) = true) : storeGlobal w ea v s = s := by
  have hor : ((s.sc s.cur).acquiring || (s.sc s.cur).fetching (tagOf ea)) = true := by
    rw [Bool.or_eq_true]
    exact h
  unfold storeGlobal
  simp only [h0, hform, hor, ne_eq, not_true, Bool.false_eq_true, if_true, if_false, ite_self]

theorem storeGlobal_cached {s : State} {w : Nat} {ea : Word} (v : Word) (h0 : ea.toNat % w = 0) (hform : badForm ea.toNat = false)
    (hacq : (stream s).acquiring = false) (hfetch : (stream s).fetching (tagOf ea) = false) (hctl : isControl (ea.toNat % 2 ^ 56) = false) :
    storeGlobal w ea v s = (s.putSc s.cur ((stream s).storeLine ea w v)).retire := by
  rw [stream_eq] at *
  unfold storeGlobal
  simp only [h0, hform, hacq, hfetch, hctl, ne_eq, not_true, Bool.false_eq_true, Bool.or_self, if_false]

theorem storeGlobal_control {s u : State} {w : Nat} {ea : Word} (v : Word) (h0 : ea.toNat % w = 0) (hform : badForm ea.toNat = false)
    (hacq : (stream s).acquiring = false) (hfetch : (stream s).fetching (tagOf ea) = false) (hctl : isControl (ea.toNat % 2 ^ 56) = true)
    (h : homeWrite s s.cur (stream s).ctx.toNat ea.toNat w (v.toNat % 2 ^ (8 * w)) (2 ^ w - 1) 2 = .ok u) : storeGlobal w ea v s = u.retire := by
  rw [stream_eq] at *
  unfold storeGlobal
  simp only [h0, hform, hacq, hfetch, hctl, h, ne_eq, not_true, Bool.false_eq_true, Bool.or_self, if_true, if_false]

/-- A store changes the cache and the write-backs of a stream, and nothing else of it. -/
theorem storeLine_eq (x : Scalar) (ea : Word) (w : Nat) (v : Word) :
    x.storeLine ea w v = { x with dc := (x.storeLine ea w v).dc, wb := (x.storeLine ea w v).wb } := by
  unfold Scalar.storeLine
  dsimp only
  split <;> rfl

theorem globalStoreResults : Parts.GlobalStoreResults := by
  intro s g a b imm i w hi ha ea hea h0 hform
  obtain ⟨hw, hexec⟩ := exec_globalStore hi s
  subst hea
  have hnext := hexec.trans (issue_acts (dst := none) _ ha)
  generalize s.rd a + imm.signExtend 64 = ea at *
  refine ⟨fun h => ⟨_, hnext, storeGlobal_stalls _ h0 hform h⟩, fun hacq hfetch hctl => ?_,
    fun hacq hfetch hctl u hu => ⟨_, hnext, storeGlobal_control _ h0 hform hacq hfetch hctl hu⟩⟩
  refine ⟨_, hnext.trans (congrArg _ (storeGlobal_cached (s.rd b) h0 hform hacq hfetch hctl)), ?_⟩
  have hst := storeLine_eq (stream s) ea w (s.rd b)
  have hline := lineStored_storeLine (stream s) (access_in_line hw h0) (s.rd b)
  dsimp only
  rw [stream_putSc_retire]
  generalize (stream s).storeLine ea w (s.rd b) = y at hst hline
  have hsame : LoopsSame (stream s) y := by
    rw [hst]
    exact ⟨rfl, rfl, rfl, rfl, rfl, rfl, rfl, rfl⟩
  obtain ⟨hmoved, hregs, hpreds, -, hfills, hdc, hctx⟩ := movedOn_congr hsame
  have hlines (tag : BitVec 58) : y.retire.line tag = y.line tag := by
    unfold Scalar.line
    rw [hdc, hctx]
  refine ⟨onlyStream_putSc_retire s y, ?_, fun r _ => (hregs r).trans ?_, fun p _ => (hpreds p).trans ?_, hfills.trans ?_, hmoved⟩
  · unfold lineStored at hline ⊢
    rwa [hlines]
  · rw [hst]
    rfl
  · rw [hst]
    rfl
  · rw [hst]

/-! ### A write of bytes under a mask -/

theorem memGet_wrMasked_in (m : Memory) (k n v mask j : Nat) (h : j < n) : memGet (wrMasked m k n v mask) (k + j) =
    if mask.testBit j then BitVec.ofNat 8 (v / 256 ^ j % 256) else memGet m (k + j) := by
  induction n generalizing m k v mask j with
  | zero => omega
  | succ n ih =>
    rw [wrMasked]
    cases j with
    | zero =>
      rw [memGet_wrMasked_out _ _ _ _ _ _ (by omega), Nat.testBit_zero]
      by_cases hm : mask % 2 = 1
      · simp [hm]
      · simp [hm]
    | succ j =>
      rw [show k + (j + 1) = k + 1 + j by omega, ih _ _ _ _ _ (by omega), Nat.testBit_succ, Nat.div_div_eq_div_mul, Nat.pow_succ,
        Nat.mul_comm 256]
      split
      · rfl
      · split
        · rw [memGet_memPut, if_neg (by omega)]
        · rfl

/-! ### A store at its home -/

/-- A stream whose watch line has been written: only what it waits for may have changed. -/
def WatchOnly (x y : Scalar) : Prop := y = { x with watch := y.watch, run := y.run }

theorem watchOnly_watched (x : Scalar) (line : Nat) : WatchOnly x (x.watched line) := by
  unfold WatchOnly Scalar.watched
  dsimp only
  split
  · next l b hl =>
    split_ifs
    all_goals
      split
      · split_ifs <;> rfl
      · rfl
  · split
    · split_ifs <;> rfl
    · rfl

theorem watchOnly_noteWrite (s : State) (key a : Nat) : WatchOnly (s.sc a) ((noteWrite s key).sc a) := by
  rcases tget_map s.scal (fun _ x => x.watched (key - key % 64)) a Scalar.reset with h | h
  · exact (congrArg (WatchOnly (s.sc a)) h).mpr rfl
  · exact (congrArg (WatchOnly (s.sc a)) h).mpr (watchOnly_watched _ _)

/-- A store to ordinary memory that is written: the bytes of its mask, a fresh error code of its line, and the watches of the line. -/
def Written (s u : State) (key n v mask : Nat) : Prop :=
  u.mem = wrMasked s.mem key n v mask ∧ u.cur = s.cur ∧ ∀ a, WatchOnly (s.sc a) (u.sc a)

theorem written_keyWrite {s : State} {key : Nat} (hdev : isDevice key = false) (n v mask : Nat) : Written s (keyWrite s key n v mask) key n v mask := by
  unfold keyWrite
  rw [hdev]
  exact ⟨rfl, rfl, watchOnly_noteWrite s key⟩

theorem written_of_die {s u : State} {D : Tbl Die} {key n v mask : Nat} (h : Written { s with die := D } u key n v mask) : Written s u key n v mask := h

theorem written_clearEcc {s u : State} {key n v mask : Nat} (line : Nat) (h : Written s u key n v mask) : Written s (clearEcc u line) key n v mask := h

theorem homeWrite_memory {s : State} {req c ea n v mask need key0 : Nat} (hgate : gateOpen s c = true)
    (hkey : resolve s req c (ea + firstByte mask 0 64) need = .ok key0) (hdev : isDevice key0 = false)
    (hobj : isObjHome s (key0 - firstByte mask 0 64) = false) (hdev' : isDevice (key0 - firstByte mask 0 64) = false)
    (hue : lineUncorrectable s (key0 - firstByte mask 0 64) = false) :
    ∃ u, homeWrite s req c ea n v mask need = .ok u ∧ Written s u (key0 - firstByte mask 0 64) n v mask := by
  have hsame := xlatSame_noteXlat s req c (ea + firstByte mask 0 64) need
  have hlog := noteXlat_eq s req c (ea + firstByte mask 0 64) need
  unfold homeWrite
  simp only [hgate, hkey, hdev, isObjHome_congr hsame, hobj, lineUncorrectable_congr hsame, hue, Bool.not_true, Bool.false_and,
    Bool.false_eq_true, if_false]
  generalize key0 - firstByte mask 0 64 = key at hdev' ⊢
  rw [hlog]
  cases hbmDie key with
  | none => exact ⟨_, rfl, written_of_die (written_keyWrite hdev' n v mask)⟩
  | some d =>
    dsimp only
    split
    · exact ⟨_, rfl, written_clearEcc key (written_of_die (written_keyWrite hdev' n v mask))⟩
    · refine ⟨_, rfl, written_clearEcc _ ?_⟩
      rw [noteRead_eq]
      exact written_of_die (written_keyWrite hdev' n v mask)

theorem performWb_ok {s u : State} {w : WriteBack} (h : homeWrite s s.cur w.ctx.toNat (tagAddr w.tag) 64 w.data.toNat w.mask.toNat 2 = .ok u) :
    performWb s w = u := by
  unfold performWb
  rw [h]

theorem line_byte (x : BitVec 512) (j : Nat) : BitVec.ofNat 8 (x.toNat / 256 ^ j % 256) = x.extractLsb' (8 * j) 8 := by
  refine BitVec.eq_of_toNat_eq ?_
  rw [BitVec.toNat_ofNat, BitVec.extractLsb'_toNat, Nat.shiftRight_eq_div_pow, Nat.pow_mul]
  exact Nat.mod_mod _ _

theorem writebackPerforms : Parts.WritebackPerforms := by
  intro s k w key0 hw hfirst hkey hgate hobj hdev hdev' hue
  refine ⟨_, exec_writebackPerform_oldest hw hfirst, ?_⟩
  have hsame := xlatSame_putSc s s.cur { stream s with wb := (stream s).wb.eraseIdx k }
  obtain ⟨u, hwrite, hmem, hcur, hsc⟩ := homeWrite_memory (s := s.putSc s.cur { stream s with wb := (stream s).wb.eraseIdx k })
    (n := 64) (v := w.data.toNat) hgate ((resolve_congr hsame _ _ _ _).trans hkey) hdev ((isObjHome_congr hsame _).trans hobj) hdev'
    ((lineUncorrectable_congr hsame _).trans hue)
  have hperform : performWb (s.putSc s.cur { stream s with wb := (stream s).wb.eraseIdx k }) w = u :=
    performWb_ok (s := s.putSc s.cur { stream s with wb := (stream s).wb.eraseIdx k }) hwrite
  rw [hperform]
  have hstream : WatchOnly { stream s with wb := (stream s).wb.eraseIdx k } (stream u) := by
    have h := hsc s.cur
    rw [putSc_get, if_pos rfl] at h
    rwa [show stream u = u.sc s.cur from congrArg _ hcur]
  generalize key0 - firstByte w.mask.toNat 0 64 = key at *
  refine ⟨fun j hj => ?_, fun j hj => ?_, ?_, fun r => ?_, ?_⟩
  · rw [hmem, memGet_wrMasked_in _ _ _ _ _ _ hj, BitVec.testBit_toNat]
    refine if_congr Iff.rfl ?_ rfl
    exact line_byte _ _
  · rw [hmem]
    exact memGet_wrMasked_out _ _ _ _ _ _ hj
  · rw [hstream]
  · rw [hstream]
    rfl
  · rw [hstream]

/-- Settles O19: a store by its line in the cache, a write-back by the write under its mask at the home. -/
theorem globalStores : Obligations.GlobalStores := ⟨globalStoreResults, writebackPerforms⟩

end Sys2Proof.Machine
end

section
/-! A step as the turn that the schedule names (Table 4.4). -/
namespace Sys2Proof.Machine
set_option Elab.async false
open Safety

/-! ### The fetch of a stream -/

theorem fetch_wordAt {s : State} {a : Nat} {w : Word} (h : Parts.wordAt s a w) : fetch s a = .ok w := by
  unfold fetch
  rcases h with ⟨l, hcode, rfl⟩ | ⟨hcode, k, hkey, hue, rfl⟩
  · rw [hcode]
    rfl
  · have hfetch : fetchKey s a = .ok k := by
      unfold fetchKey
      cases hfw : isFw a with
      | true => rw [hfw, if_pos rfl] at hkey; rw [hkey]; rfl
      | false => rwa [hfw, if_neg Bool.false_ne_true] at hkey
    rw [hcode, hfetch]
    exact if_neg (by rw [hue]; decide)

theorem xlatSame_sched (s : State) (a : Nat) (ts : List Turn) : XlatSame s { s with cur := a, sched := ts } :=
  ⟨rfl, rfl, rfl, fun _ => rfl, fun _ => rfl, fun _ => rfl, fun _ => rfl⟩

theorem wordAt_sched {s : State} {a : Nat} {w : Word} (h : Parts.wordAt s a w) (b : Nat) (ts : List Turn) :
    Parts.wordAt { s with cur := b, sched := ts } a w := by
  have hsame := xlatSame_sched s b ts
  rcases h with hcode | ⟨hcode, k, hkey, hue, hw⟩
  · exact .inl hcode
  · refine .inr ⟨hcode, k, ?_, (lineUncorrectable_congr hsame k).trans hue, hw⟩
    rw [resolve_congr hsame]
    exact hkey

theorem scalarTurn_wordAt {s : State} {a : Nat} {w : Word} (hrun : (s.sc a).run = .running) (h : Parts.wordAt s a w) : scalarTurn a s =
    match decodeWord w with
    | .error _ => .next ((noteFetch { s with cur := a } a).trap 1 1 w)
    | .ok i => exec i (noteFetch { s with cur := a } a) := by
  have hfetch : fetch { s with cur := a } a = .ok w := fetch_wordAt (wordAt_sched h a s.sched)
  unfold scalarTurn
  dsimp only
  rw [hfetch]
  exact if_pos hrun

theorem noteRead_of_no_error {s : State} (h : s.ecc = []) (k : Nat) : noteRead s k = s := by
  unfold noteRead
  cases hbmDie k with
  | none => rfl
  | some d => exact if_pos (by rw [h]; rfl)

theorem noteFetch_of_no_error {s : State} (h : s.ecc = []) (a : Nat) : noteFetch s a = firstInstr s a := by
  unfold noteFetch
  rw [noteXlat_of_no_error h, ite_self]
  cases codeLine s a with
  | some l => rfl
  | none =>
    cases fetchKey s a with
    | error e => rfl
    | ok k => exact congrArg (firstInstr · a) (noteRead_of_no_error h k)

/-! ### The turns of an engine -/

theorem queue_setQueue (x : Core) (q : BitVec 2) (v : Queue) : (x.setQueue q v).queue q = v := by
  unfold Core.setQueue Core.queue
  split_ifs <;> rfl

theorem queue_fixWord (p : Nat) (s : State) (k j : Nat) (q : BitVec 2) : ((fixWord p s k).co j).queue q = (s.co j).queue q := by
  unfold fixWord
  split_ifs
  · rw [upCo_get]
    split_ifs with h
    · rw [h]
      rfl
    · rfl
  · rfl

theorem queue_foldl_fixWord (p : Nat) (ks : List Nat) (s : State) (j : Nat) (q : BitVec 2) :
    ((ks.foldl (fixWord p) s).co j).queue q = (s.co j).queue q := by
  induction ks generalizing s with
  | nil => rfl
  | cons k ks ih => exact (ih _).trans (queue_fixWord p s k j q)

theorem queue_spFix (s : State) (p a n j : Nat) (q : BitVec 2) : ((spFix s p a n).co j).queue q = (s.co j).queue q := by
  unfold spFix
  split_ifs
  · rfl
  · exact queue_foldl_fixWord _ _ _ _ _

/-- A queue whose engine runs and has no word read or landed ahead. -/
def Plain (v : Queue) : Prop := v.early = [] ∧ v.landed = [] ∧ v.stopped = false

theorem raceTurn_plain {s : State} {p : Nat} {q : BitVec 2} {run : State → Out} (h : Plain ((s.co p).queue q)) : raceTurn p q none run s = run s := by
  obtain ⟨hearly, hlanded, hstopped⟩ := h
  unfold raceTurn
  simp only [hearly, hlanded, hstopped]
  rfl

theorem raceTurn_plain_some {s t : State} {p n : Nat} {q : BitVec 2} {run : State → Out} (h : Plain ((s.co p).queue q))
    (hrun : run { s with lim := some n } = .next t) : raceTurn p q (some n) run s = .next { t with lim := none } := by
  obtain ⟨hearly, hlanded, hstopped⟩ := h
  unfold raceTurn rests
  simp only [hearly, hlanded, hstopped]
  refine (if_pos rfl).trans ?_
  simp only [Bool.false_eq_true, false_and, if_false, hrun, Bool.false_and]

theorem slotBad_of_current {s : State} {p : Nat} {q : BitVec 2} {f : Flight} (h : ((s.co p).queue q).current = some f) : slotBad s p q = false := by
  unfold slotBad
  dsimp only
  rw [h]

theorem slotFix_of_current {s : State} {p : Nat} {q : BitVec 2} {f : Flight} (h : ((s.co p).queue q).current = some f) : slotFix s p q = s := by
  unfold slotFix
  dsimp only
  rw [h]

theorem slotBad_of_next {s : State} {p : Nat} {q : BitVec 2} {c : BitVec 32} (h : ((s.co p).queue q).current = none) (hc : (s.co p).nextSlot q = some c) :
    slotBad s p q = spBad s p (((s.co p).queue q).slot c) 64 := by
  unfold slotBad
  simp only [h, hc]

theorem slotFix_of_next {s : State} {p : Nat} {q : BitVec 2} {c : BitVec 32} (h : ((s.co p).queue q).current = none) (hc : (s.co p).nextSlot q = some c) :
    slotFix s p q = spFix s p (((s.co p).queue q).slot c) 64 := by
  unfold slotFix
  simp only [h, hc]

theorem nextRecord_of_current {s : State} {p : Nat} {q : BitVec 2} {f : Flight} (h : ((s.co p).queue q).current = some f) :
    nextRecord s p q = some (decodeRecord f.words) := by
  unfold nextRecord nextWords
  dsimp only
  rw [h]
  rfl

theorem nextRecord_of_next {s : State} {p : Nat} {q : BitVec 2} {c : BitVec 32} (h : ((s.co p).queue q).current = none)
    (hc : (s.co p).nextSlot q = some c) : nextRecord s p q = some (decodeRecord (Queue.record s p ((s.co p).queue q) c)) := by
  unfold nextRecord nextWords
  dsimp only
  rw [h, hc]
  rfl

theorem nextRecord_of_none {s : State} {p : Nat} {q : BitVec 2} (h : ((s.co p).queue q).current = none)
    (hc : (s.co p).nextSlot q = none) : nextRecord s p q = none := by
  unfold nextRecord nextWords
  dsimp only
  rw [h, hc]
  rfl

theorem engineTurn_of_record {s : State} {p : Nat} {q : BitVec 2} {n : Option Nat} {i : Instr} (h : nextRecord { s with cur := p, curq := q } p q = some i) :
    engineTurn p q n s = if slotBad { s with cur := p, curq := q } p q then .next (slotFault { s with cur := p, curq := q } p q)
      else raceTurn p q n (exec i) (slotFix { s with cur := p, curq := q } p q) := by
  unfold engineTurn
  dsimp only
  rw [h]

theorem engineTurn_named {p : Nat} {q : BitVec 2} (hp : isCore p = true) (hq : q ≠ 3#2) : (isCore p && q != 3#2) = true := by
  rw [hp, Bool.true_and]
  exact bne_iff_ne.mpr hq

theorem step_engine {s : State} {p : Nat} {q : BitVec 2} {ts : List Turn} (h : s.sched = .engine p q :: ts) (hp : isCore p = true) (hq : q ≠ 3#2) :
    step s = engineTurn p q none { s with sched := ts } := by
  rw [step, takeTurn, h]
  exact if_pos (engineTurn_named hp hq)

theorem step_some {s : State} {p n : Nat} {q : BitVec 2} {ts : List Turn} (h : s.sched = .some p q n :: ts) (hp : isCore p = true) (hq : q ≠ 3#2) :
    step s = engineTurn p q (some n) { s with sched := ts } := by
  rw [step, takeTurn, h]
  exact if_pos (engineTurn_named hp hq)

theorem endGrant_eq (s : State) (p : Nat) : endGrant s p = { s with quad := (endGrant s p).quad } := by
  unfold endGrant
  split_ifs <;> rfl

theorem endGrantOf_eq (q : BitVec 2) (s : State) (p : Nat) : endGrantOf q s p = { s with quad := (endGrantOf q s p).quad } := by
  unfold endGrantOf
  split_ifs
  · exact endGrant_eq s p
  · rfl

theorem co_endGrantOf (q : BitVec 2) (s : State) (p j : Nat) : (endGrantOf q s p).co j = s.co j := by
  rw [endGrantOf_eq]
  rfl

theorem queue_engineFault (s : State) (p : Nat) (q : BitVec 2) (slot : BitVec 32) (cause detail : Nat) (val : Word) (idx : Nat) :
    ((s.engineFault p q slot cause detail val idx).co p).queue q = { (s.co p).queue q with stopped := true } := by
  have hco : (s.engineFault p q slot cause detail val idx).co p = (s.co p).setQueue q { (s.co p).queue q with stopped := true } :=
    (upCo_get s p (fun y => y.setQueue q { y.queue q with stopped := true }) p).trans (if_pos rfl)
  rw [hco, queue_setQueue]

/-! ### A stopped engine -/

/-- A record of any class but 3 is taken by `startRecord`. -/
theorem exec_of_recParts {i : Instr} {k : BitVec 4} {o : BitVec 8} {r : Rec} (h : recParts i = some (k, o, r)) (hk : k ≠ 3#4) (s : State) :
    exec i s = .next (startRecord k.toNat o.toNat r s) := by
  cases i
  all_goals cases h
  case join => exact absurd rfl hk
  all_goals rfl

theorem startRecord_stopped {s : State} (hstop : ((s.co s.cur).queue s.curq).stopped = true) (hin : ((s.co s.cur).queue s.curq).inStep = false)
    (hroll : (s.co s.cur).rolling = false) (cls op : Nat) (r : Rec) : startRecord cls op r s = s := by
  unfold startRecord
  dsimp only
  rw [hstop, hin, hroll]
  cases ((s.co s.cur).queue s.curq).current with
  | some f => rfl
  | none => cases (s.co s.cur).nextSlot s.curq <;> rfl

theorem startJoin_stopped {s : State} (hstop : ((s.co s.cur).queue s.curq).stopped = true) (r : Rec) : startJoin r s = s := by
  unfold startJoin
  dsimp only
  cases (s.co s.cur).nextSlot s.curq with
  | none => rfl
  | some c => exact if_pos hstop

theorem execRecordInvalid_stopped {s : State} (hstop : ((s.co s.cur).queue s.curq).stopped = true) (w : BitVec 512) :
    execRecordInvalid w s = .next s := by
  unfold execRecordInvalid
  dsimp only
  cases (s.co s.cur).nextSlot s.curq with
  | none => rfl
  | some c => exact congrArg _ (if_pos (.inl hstop))

theorem decodeRecord_cases (w : BitVec 512) : decodeRecord w = .recordInvalid w ∨ ∃ k o r, recParts (decodeRecord w) = some (k, o, r) := by
  have hnames := namesOp_recInstr (w.extractLsb' 60 4) (w.extractLsb' 52 8) (splitRec w)
  unfold decodeRecord
  cases hi : recInstr (w.extractLsb' 60 4) (w.extractLsb' 52 8) (splitRec w) with
  | none => exact .inl rfl
  | some i =>
    rw [hi] at hnames
    exact .inr ⟨_, _, _, hnames.1⟩

theorem exec_of_recParts_join {i : Instr} {o : BitVec 8} {r : Rec} (h : recParts i = some (3#4, o, r)) : i = .join r := by
  cases i
  all_goals cases h
  rfl

theorem exec_decodeRecord_stopped {s : State} (hstop : ((s.co s.cur).queue s.curq).stopped = true)
    (hin : ((s.co s.cur).queue s.curq).inStep = false) (hroll : (s.co s.cur).rolling = false) (w : BitVec 512) :
    exec (decodeRecord w) s = .next s := by
  rcases decodeRecord_cases w with h | ⟨k, o, r, h⟩
  · rw [h]
    exact execRecordInvalid_stopped hstop w
  · by_cases hk : k = 3#4
    · subst hk
      rw [exec_of_recParts_join h]
      exact congrArg _ (startJoin_stopped hstop r)
    · exact (exec_of_recParts h hk s).trans (congrArg _ (startRecord_stopped hstop hin hroll _ _ r))

theorem raceTurn_stopped {s : State} {p : Nat} {q : BitVec 2} {n : Option Nat} {run : State → Out} (hstop : ((s.co p).queue q).stopped = true)
    (hin : ((s.co p).queue q).inStep = false) (hearly : ((s.co p).queue q).early = []) (hlanded : ((s.co p).queue q).landed = []) (hlim : s.lim = none)
    (hrun : ∀ m, run { s with lim := m } = .next { s with lim := m }) : raceTurn p q n run s = .next s := by
  have hs : { s with lim := none } = s := by rw [← hlim]
  have hrest : ∀ m : Nat, (match run { s with lim := some m } with
      | .next t => Host.Outcome.next (rests p q ((s.co p).queue q) { t with lim := none })
      | o => o) = Host.Outcome.next s := by
    intro m
    simp only [hrun, rests, hin, Bool.and_false, Bool.false_and, Bool.false_eq_true, if_false, hs]
  unfold raceTurn
  simp only [hearly, hlanded]
  refine (if_pos rfl).trans ?_
  by_cases hn : n = some 0
  · subst hn
    simp only [ne_eq, not_true_eq_false, and_false, if_false]
    exact hrest 0
  · simp only [hstop, ne_eq, hn, not_false_eq_true, and_self, if_true]
    exact hrest 1

theorem spBad_of_no_error {s : State} (h : s.ecc = []) (p a n : Nat) : spBad s p a n = false := by
  unfold spBad
  rw [h]
  rfl

theorem spFix_of_no_error {s : State} (h : s.ecc = []) (p a n : Nat) : spFix s p a n = s := if_pos h

theorem slotBad_of_no_error {s : State} (h : s.ecc = []) (p : Nat) (q : BitVec 2) : slotBad s p q = false := by
  unfold slotBad
  dsimp only
  split
  · exact spBad_of_no_error h _ _ _
  · rfl

theorem slotFix_of_no_error {s : State} (h : s.ecc = []) (p : Nat) (q : BitVec 2) : slotFix s p q = s := by
  unfold slotFix
  dsimp only
  split
  · exact spFix_of_no_error h _ _ _
  · rfl

theorem engineTurn_stopped {s : State} {p : Nat} {q : BitVec 2} {n : Option Nat} (hstop : ((s.co p).queue q).stopped = true)
    (hin : ((s.co p).queue q).inStep = false) (hroll : (s.co p).rolling = false) (hearly : ((s.co p).queue q).early = [])
    (hlanded : ((s.co p).queue q).landed = []) (hecc : s.ecc = []) (hlim : s.lim = none) :
    engineTurn p q n s = .next { s with cur := p, curq := q } := by
  cases hrec : nextRecord { s with cur := p, curq := q } p q with
  | none =>
    unfold engineTurn
    dsimp only
    rw [hrec]
  | some i =>
    obtain ⟨w, -, rfl⟩ := Option.map_eq_some_iff.mp hrec
    rw [engineTurn_of_record hrec, slotBad_of_no_error (s := { s with cur := p, curq := q }) hecc, slotFix_of_no_error (s := { s with cur := p, curq := q }) hecc]
    exact (if_neg Bool.false_ne_true).trans (raceTurn_stopped hstop hin hearly hlanded hlim fun m => exec_decodeRecord_stopped hstop hin hroll w)

/-! ### Time passes -/

theorem alarmJudged_judgeAlarm (u : State) : alarmJudged u (judgeAlarm u) := by
  unfold alarmJudged judgeAlarm powerHigh powerLow
  rw [show recentPower u = power100 u from rfl]
  refine ⟨by split_ifs <;> rfl, fun h => ?_, fun hhigh halert hhot => ⟨fun h => ?_, fun hlow hne => ?_⟩⟩
  · rw [if_pos (by simpa [or_assoc] using h)]
    exact ⟨rfl, rfl⟩
  · rw [if_neg (by simpa [halert, hhot] using hhigh), if_pos (by simpa using h)]
    simp
  · rw [if_neg (by simpa [halert, hhot] using hhigh), if_neg (by simpa [hne] using hlow)]
    exact ⟨rfl, rfl⟩

/-! ### The step -/

theorem step_no_turn {s : State} (h : s.sched = []) : step s = scalarTurn s.cur s := by
  rw [step, takeTurn, h]

theorem step_turn {s : State} {t : Turn} {ts : List Turn} (h : s.sched = t :: ts) : step s = runTurn t { s with sched := ts } := by
  rw [step, takeTurn, h]

theorem slotFault_uncorrectable {s : State} {p : Nat} {q : BitVec 2} {c : BitVec 32} (hnext : (s.co p).nextSlot q = some c)
    (hstop : ((s.co p).queue q).stopped = false) :
    (slotFault s p q).mem = s.mem ∧ (((slotFault s p q).co p).queue q).stopped = true ∧
      ∃ f : FaultRec, (slotFault s p q).faults = s.faults ++ [f] ∧ f.cause = 0x22 ∧ f.detail = 0 ∧ f.pos = c.setWidth 64 := by
  have hfault : slotFault s p q = endGrantOf q (s.engineFault p q c 0x22 0 (BitVec.ofNat 64 (((s.co p).queue q).slot c)) 0) p := by
    unfold slotFault
    dsimp only
    rw [hnext]
    exact if_neg (by rw [hstop]; decide)
  rw [hfault, co_endGrantOf, queue_engineFault, endGrantOf_eq]
  exact ⟨rfl, rfl, _, rfl, rfl, rfl, rfl⟩

theorem step_engine_plain {s : State} {p : Nat} {q : BitVec 2} {ts : List Turn} (h : Statements.plainTurn s p q none ts) {i : Instr}
    (hrec : nextRecord s p q = some i) : step s =
      if slotBad { s with cur := p, curq := q, sched := ts } p q then .next (slotFault { s with cur := p, curq := q, sched := ts } p q)
      else exec i (slotFix { s with cur := p, curq := q, sched := ts } p q) := by
  obtain ⟨hsched, hp, hq, hearly, hlanded, hstopped⟩ := h
  rw [step_engine hsched hp hq, engineTurn_of_record (s := { s with sched := ts }) (i := i) hrec]
  refine if_congr Iff.rfl rfl (raceTurn_plain ?_)
  have hqueue : ((slotFix { s with cur := p, curq := q, sched := ts } p q).co p).queue q = (s.co p).queue q := by
    unfold slotFix
    dsimp only
    split
    · exact queue_spFix _ _ _ _ _ _
    · rfl
  exact hqueue ▸ ⟨hearly, hlanded, hstopped⟩

theorem stepEnginePlain (s u : State) (p : Nat) (q : BitVec 2) (ts : List Turn) (v : Queue) (hv : v = (s.co p).queue q)
    (hu : u = { s with cur := p, curq := q, sched := ts }) (h : Statements.plainTurn s p q none ts) :
    (∀ f, v.current = some f → step s = exec (decodeRecord f.words) u) ∧
    (∀ c, v.current = none → (s.co p).nextSlot q = some c →
      (spBad s p (v.slot c) 64 = false → step s = exec (decodeRecord (Queue.record s p v c)) (spFix u p (v.slot c) 64)) ∧
      (v.words = [] → Queue.record s p v c = BitVec.ofNat 512 (rdN s.mem (spKey p (v.slot c)) 64)) ∧
      (s.ecc = [] → spBad s p (v.slot c) 64 = false ∧ spFix u p (v.slot c) 64 = u) ∧
      (spBad s p (v.slot c) 64 = true → v.stopped = false → ∃ t, step s = .next t ∧ t.mem = s.mem ∧ ((t.co p).queue q).stopped = true ∧
        ∃ f : FaultRec, t.faults = s.faults ++ [f] ∧ f.cause = 0x22 ∧ f.detail = 0 ∧ f.pos = c.setWidth 64)) ∧
    (v.current = none → (s.co p).nextSlot q = none → step s = .next u) := by
  subst hv hu
  refine ⟨fun f hf => ?_, fun c hnone hnext => ⟨fun hbad => ?_, fun hwords => ?_, fun hecc => ?_, fun hbad hstop => ?_⟩, fun hnone hnext => ?_⟩
  · rw [step_engine_plain h (nextRecord_of_current hf), slotBad_of_current (s := { s with cur := p, curq := q, sched := ts }) hf,
      slotFix_of_current (s := { s with cur := p, curq := q, sched := ts }) hf]
    exact if_neg Bool.false_ne_true
  · rw [step_engine_plain h (nextRecord_of_next hnone hnext), slotBad_of_next (s := { s with cur := p, curq := q, sched := ts }) hnone hnext,
      slotFix_of_next (s := { s with cur := p, curq := q, sched := ts }) hnone hnext]
    exact if_neg (fun hc => Bool.false_ne_true (hbad.symm.trans hc))
  · unfold Queue.record
    rw [hwords]
    rfl
  · exact ⟨spBad_of_no_error hecc _ _ _, spFix_of_no_error (s := { s with cur := p, curq := q, sched := ts }) hecc _ _ _⟩
  · refine ⟨_, ?_, slotFault_uncorrectable (s := { s with cur := p, curq := q, sched := ts }) hnext hstop⟩
    rw [step_engine_plain h (nextRecord_of_next hnone hnext), slotBad_of_next (s := { s with cur := p, curq := q, sched := ts }) hnone hnext]
    exact if_pos hbad
  · obtain ⟨hsched, hp, hq, -, -, -⟩ := h
    rw [step_engine hsched hp hq]
    unfold engineTurn
    dsimp only
    rw [nextRecord_of_none (s := { s with cur := p, curq := q, sched := ts }) hnone hnext]

/-- Settles O58: the turn that heads the schedule, kind by kind; the words of a fetch and of a slot as the model reads them. -/
theorem stepRunsDecoded : Obligations.StepRunsDecoded := by
  refine ⟨fun s w i hsched hrun hw hi => ?_, fun s w e hsched hrun hfresh hcan hecc hw he => ?_, fun s hsched hrun => ?_,
    fun s a ts w i hsched ha hrun hw hi => ?_, fun s a hecc => noteFetch_of_no_error hecc a, stepEnginePlain,
    fun s p q n ts v hv hstop hin hroll hsched hp hq hearly hlanded hecc hlim => ?_,
    fun s t p q n ts f h hf hexec => ?_, fun s n i ts hsched hi harr => ?_,
    fun s u n ts hsched hu => ⟨fun hreset => ?_, fun hreset => ⟨judgeAlarm u, ?_, alarmJudged_judgeAlarm u⟩⟩⟩
  · rw [step_no_turn hsched, scalarTurn_wordAt hrun hw, hi]
  · have hnote : noteFetch s s.cur = s := (noteFetch_of_no_error hecc s.cur).trans (firstInstr_of_not_fresh hfresh)
    refine ⟨s.trap 1 1 w, ?_, trapped_trap s 1 1 w (by decide) hcan⟩
    rw [step_no_turn hsched, scalarTurn_wordAt hrun hw, he]
    exact congrArg (fun s => Host.Outcome.next (State.trap s 1 1 w)) hnote
  · rw [step_no_turn hsched]
    exact if_neg hrun
  · rw [step_turn hsched, runTurn, if_pos ha, scalarTurn_wordAt (s := { s with sched := ts }) hrun (wordAt_sched hw s.cur ts), hi]
  · subst hv
    have hturn : step s = engineTurn p q n { s with sched := ts } := by
      cases n with
      | none => exact step_engine hsched hp hq
      | some n => exact step_some hsched hp hq
    rw [hturn]
    exact engineTurn_stopped (s := { s with sched := ts }) hstop hin hroll hearly hlanded hecc hlim
  · obtain ⟨hsched, hp, hq, hplain⟩ := h
    rw [step_some hsched hp hq, engineTurn_of_record (s := { s with sched := ts }) (nextRecord_of_current (s := { s with cur := p, curq := q, sched := ts }) hf),
      slotBad_of_current (s := { s with cur := p, curq := q, sched := ts }) hf, slotFix_of_current (s := { s with cur := p, curq := q, sched := ts }) hf]
    exact (if_neg Bool.false_ne_true).trans (raceTurn_plain_some (s := { s with cur := p, curq := q, sched := ts }) hplain hexec)
  · rw [step_turn hsched, runTurn, if_neg (by rw [hi]; decide)]
    unfold arrivalTurn
    dsimp only
    rw [harr]
  · rw [step_turn hsched, hu]
    exact congrArg _ (if_pos hreset)
  · rw [step_turn hsched, hu]
    exact congrArg _ (if_neg (by rw [hreset]; decide))

end Sys2Proof.Machine
end

section
/-! The control registers (R83, R84, R109, Tables 6.1 to 6.3). -/
namespace Sys2Proof.Machine
set_option Elab.async false
open Safety

/-! ### Reads -/

theorem completes_mfcr {s : State} {g : Guard} {d : BitVec 6} (ha : acts s 0 g [] [d]) (c : BitVec 12) :
    completes (.mfcr g d c) s (result s d (readCreg s s.cur c.toNat)) :=
  completes_result (f := fun s => readCreg s s.cur c.toNat) (exec_mfcr g d c s) ha

theorem mfcrReads : Parts.MfcrReads := by
  intro s g d ha
  refine ⟨fun c v h => ?_, fun hcore c v h => ?_, completes_mfcr ha⟩
  · have hv : readCreg s s.cur c.toNat = v := by
      simp only [List.mem_cons, Prod.mk.injEq, List.not_mem_nil, or_false] at h
      casesm* _ ∨ _, _ ∧ _ <;> subst_vars <;> rfl
    exact hv ▸ completes_mfcr ha c
  · simp only [List.mem_cons, Prod.mk.injEq, List.not_mem_nil, or_false] at h
    have hread : readCreg s s.cur c.toNat = readEngineReg s s.cur c.toNat := by
      casesm* _ ∨ _, _ ∧ _ <;> subst_vars <;> rfl
    have hv : readEngineReg s s.cur c.toNat = v := by
      unfold readEngineReg
      dsimp only
      rw [hcore, Bool.not_true, if_neg Bool.false_ne_true]
      casesm* _ ∨ _, _ ∧ _ <;> subst_vars <;> rfl
    exact (hread.trans hv) ▸ completes_mfcr ha c

/-! ### Writes -/

theorem passes_of_retired {s t : State} (h : onlyStream s t) (hs : stream t = (stream s).retire) : passes s t := by
  obtain ⟨hrest, hmoved, hregs, hpreds⟩ := moved_retire (stream s) (stream s) rfl
  exact ⟨h, fun r _ => by rw [hs, hregs], fun p _ => by rw [hs, hpreds], hs ▸ hrest, hs ▸ hmoved⟩

theorem stream_putSc (s : State) (x : Scalar) : stream (s.putSc s.cur x) = x := (putSc_get s s.cur x s.cur).trans (if_pos rfl)

theorem onlyStream_putSc_left {s t : State} {x : Scalar} (h : onlyStream s t) : onlyStream (s.putSc s.cur x) t :=
  ⟨h.1, fun a ha => (h.2 a ha).trans ((putSc_get s s.cur x a).trans (if_neg ha)).symm⟩

theorem onlyStream_retire_upSc (s : State) (f : Scalar → Scalar) : onlyStream s (s.retire.upSc f) :=
  onlyStream_trans (onlyStream_upSc s _) (onlyStream_upSc _ f)

theorem stream_retire_upSc (s : State) (f : Scalar → Scalar) : stream (s.retire.upSc f) = f (stream s).retire :=
  (stream_upSc s.retire f).trans (congrArg f (stream_upSc s _))

/-- A retirement beside new cores changes the stream alone, the cores apart. -/
theorem onlyStream_retire_core (s : State) (cores : Tbl Core) : onlyStream s { State.retire { s with core := cores } with core := s.core } :=
  ⟨rfl, fun a ha => (putSc_get s s.cur (stream s).retire a).trans (if_neg ha)⟩

/-- A trap register but STATUS leaves the place and the loops of a stream. -/
theorem setTrapReg_retire (x : Scalar) {c : Nat} (hc : c ≠ 0) (v : Word) : x.retire.setTrapReg c v = (x.setTrapReg c v).retire := by
  have hsame : LoopsSame x (x.setTrapReg c v) := by
    unfold Scalar.setTrapReg
    rw [if_neg hc]
    split_ifs <;> exact ⟨rfl, rfl, rfl, rfl, rfl, rfl, rfl, rfl⟩
  rw [retire_congr hsame, retire_eq x]
  unfold Scalar.setTrapReg
  rw [if_neg hc, if_neg hc]
  split_ifs <;> rfl

/-- A window register leaves the place and the loops of a stream. -/
theorem passes_putSc_upSc {s t : State} {x : Scalar} (ht : onlyStream s t) (hs : stream t = x.retire) : passes (s.putSc s.cur x) t :=
  passes_of_retired (onlyStream_putSc_left ht) (hs.trans (congrArg Scalar.retire (stream_putSc s x).symm))

theorem exec_mtcr_acts {s : State} {g : Guard} {a : Src} {c : BitVec 12} (ha : acts s 0 g [a] []) (hpriv : c ≠ 0x100#12) (hfw : c.toNat < 0x800) :
    exec (.mtcr g a c) s = .next (writeCreg c.toNat (s.rd a) s) := by
  have hexec : exec (.mtcr g a c) s = issue 0 g [a] none s fun s => writeCreg c.toNat (s.rd a) s :=
    (if_neg hpriv).trans (if_neg (Nat.not_le.mpr hfw))
  exact hexec.trans (issue_acts (dst := none) _ ha)

theorem writeCreg_loop {c : Nat} (hc : 0x010 ≤ c ∧ c ≤ 0x015) (v : Word) (s : State) : writeCreg c v s = s.retire.upSc fun x => x.setLoopReg c v := if_pos hc

theorem writeCreg_trap {c : Nat} (hc : c ≤ 0x00B) (v : Word) (s : State) : writeCreg c v s = s.retire.upSc fun x => x.setTrapReg c v :=
  (if_neg (by omega)).trans (if_pos hc)

theorem writeCreg_win {c : Nat} (hc : 0x050 ≤ c ∧ c ≤ 0x05F) (v : Word) (s : State) :
    writeCreg c v s = (s.upSc fun x => { x with win := tput x.win (c - 0x050) v 0 }).retire :=
  (if_neg (by omega)).trans ((if_neg (by omega)).trans (if_pos hc))

theorem writeCreg_engine {c : Nat} {s : State} (hcore : isCore s.cur = true) (hc : 0x040 ≤ c) (hwin : c < 0x050 ∨ 0x05F < c) (v : Word) :
    writeCreg c v s = (s.upCo s.cur fun x => x.setEngineReg c v).retire :=
  (if_neg (by omega)).trans ((if_neg (by omega)).trans ((if_neg (by omega)).trans (if_pos ⟨hcore, hc⟩)))

theorem writeCreg_other {c : Nat} {s : State} (hc : 0x015 < c) (hwin : c < 0x050 ∨ 0x05F < c) (hengine : ¬(isCore s.cur = true ∧ 0x040 ≤ c)) (v : Word) :
    writeCreg c v s = s.retire :=
  (if_neg (by omega)).trans ((if_neg (by omega)).trans ((if_neg (by omega)).trans (if_neg hengine)))

theorem getLsbD_w1c (old v m : Word) {i : Nat} (hi : i < 64) : (w1c old v m).getLsbD i = (old.getLsbD i && !(v.getLsbD i && m.getLsbD i)) := by
  rw [w1c, BitVec.getLsbD_and, BitVec.getLsbD_not, BitVec.getLsbD_and, decide_eq_true hi, Bool.true_and]

section
variable {s : State} {g : Guard} {a : Src} (ha : acts s 0 g [a] [])
include ha

theorem mtcrTrapReg {c : BitVec 12} {x : Scalar} (hc : 0 < c.toNat ∧ c.toNat ≤ 0x00B) (hx : (stream s).setTrapReg c.toNat (s.rd a) = x) :
    completes (.mtcr g a c) s (passes (s.putSc s.cur x)) := by
  obtain ⟨hpos, hle⟩ := hc
  refine ⟨_, exec_mtcr_acts ha (by bv_omega) (by omega), ?_⟩
  rw [writeCreg_trap hle]
  refine passes_putSc_upSc (onlyStream_retire_upSc s _) ?_
  rw [stream_retire_upSc, setTrapReg_retire _ (by omega), hx]

theorem mtcrWindow {c : BitVec 12} {x : Scalar} (hc : 0x050 ≤ c.toNat ∧ c.toNat ≤ 0x05F)
    (hx : { stream s with win := tput (stream s).win (c.toNat - 0x050) (s.rd a) 0 } = x) : completes (.mtcr g a c) s (passes (s.putSc s.cur x)) := by
  refine ⟨_, exec_mtcr_acts ha (by bv_omega) (by omega), ?_⟩
  rw [writeCreg_win hc]
  refine passes_putSc_upSc (onlyStream_trans (onlyStream_upSc s _) (onlyStream_upSc _ _)) ?_
  rw [State.retire, upSc_upSc, ← hx]

theorem mtcrLoopReg {c : BitVec 12} {x : Scalar} (hc : 0x010 ≤ c.toNat ∧ c.toNat ≤ 0x015) (hx : (stream s).retire.setLoopReg c.toNat (s.rd a) = x) :
    completes (.mtcr g a c) s fun t => onlyStream s t ∧ stream t = x := by
  refine ⟨_, exec_mtcr_acts ha (by bv_omega) (by omega), ?_⟩
  rw [writeCreg_loop hc]
  exact ⟨onlyStream_retire_upSc s _, (stream_retire_upSc s _).trans hx⟩

theorem mtcrEngineReg {c : BitVec 12} {f : Core → Core} (hcore : isCore s.cur = true) (hc : 0x040 ≤ c.toNat ∧ c.toNat < 0x0FF)
    (hwin : c.toNat < 0x050 ∨ 0x05F < c.toNat)
    (hf : (s.co s.cur).setEngineReg c.toNat (s.rd a) = f (s.co s.cur)) : completes (.mtcr g a c) s (passes (s.upCo s.cur f)) := by
  refine ⟨_, exec_mtcr_acts ha (by bv_omega) (by omega), ?_⟩
  rw [writeCreg_engine hcore hc.1 hwin]
  have hup : (s.upCo s.cur fun x => x.setEngineReg c.toNat (s.rd a)) = s.upCo s.cur f := congrArg (s.putCo s.cur) hf
  rw [hup]
  exact passes_retire _

theorem mtcrReadOnly {c : BitVec 12} (hc : 0x020 ≤ c.toNat ∧ c.toNat < 0x050)
    (hf : ∀ x : Core, 0x040 ≤ c.toNat → x.setEngineReg c.toNat (s.rd a) = x) :
    completes (.mtcr g a c) s fun t => onlyStream s { t with core := s.core } ∧ (∀ k, t.co k = s.co k) ∧ stream t = (stream s).retire := by
  refine ⟨_, exec_mtcr_acts ha (by bv_omega) (by omega), ?_⟩
  by_cases hengine : isCore s.cur = true ∧ 0x040 ≤ c.toNat
  · obtain ⟨hcore, hle⟩ := hengine
    rw [writeCreg_engine hcore hle (.inl hc.2)]
    refine ⟨onlyStream_retire_core s _, fun k => (upCo_get s s.cur (fun x => x.setEngineReg c.toNat (s.rd a)) k).trans ?_, stream_upSc _ _⟩
    split_ifs with hk
    · rw [hk]
      exact hf _ hle
    · rfl
  · rw [writeCreg_other (by omega) (.inl hc.2) hengine]
    exact ⟨onlyStream_retire_core s s.core, fun _ => rfl, stream_upSc _ _⟩

theorem mtcrStatus : ∃ v : Word, (∀ i, i < 64 → v.getLsbD i = (if i = 7 ∨ i < 3 then (s.rd a).getLsbD i else if i = 6 then (stream s).ph else false)) ∧
    completes (.mtcr g a 0x000#12) s fun t => onlyStream s t ∧ stream t = { (stream s).retire with status := v } := by
  refine ⟨((stream s).retire.status &&& 0x40#64) ||| (s.rd a &&& 0x87#64), fun i hi => ?_, _, exec_mtcr_acts ha (by decide) (by decide), ?_⟩
  · have h40 : ∀ i < 64, (0x40#64).getLsbD i = decide (i = 6) := by decide
    have h87 : ∀ i < 64, (0x87#64).getLsbD i = decide (i = 7 ∨ i < 3) := by decide
    obtain ⟨-, -, -, hkept⟩ := endOfBody_spec (stream s)
    rw [BitVec.getLsbD_or, BitVec.getLsbD_and, BitVec.getLsbD_and, h40 i hi, h87 i hi]
    by_cases h7 : i = 7 ∨ i < 3
    · rw [if_pos h7, decide_eq_true h7, decide_eq_false (by omega), Bool.and_false, Bool.and_true, Bool.false_or]
    · rw [if_neg h7, decide_eq_false h7, Bool.and_false, Bool.or_false]
      split_ifs with h6
      · rw [h6, decide_eq_true rfl, Bool.and_true]
        exact hkept 6 (by decide)
      · rw [decide_eq_false h6, Bool.and_false]
  · rw [writeCreg_trap (by decide)]
    exact ⟨onlyStream_retire_upSc s _, stream_retire_upSc s _⟩

end

theorem mtcrWrites : Parts.MtcrWrites := by
  intro s g a ha
  refine ⟨fun c x h => ?_, mtcrStatus ha, fun c x h => ?_, fun hctx => ?_, fun hcore => ⟨?_, ?_, ?_, ?_, fun c q h => ?_⟩, fun c h => ?_⟩
  · simp only [List.mem_cons, Prod.mk.injEq, List.not_mem_nil, or_false] at h
    rcases h with ⟨rfl, rfl⟩ | ⟨rfl, rfl⟩ | ⟨rfl, rfl⟩ | ⟨rfl, rfl⟩ | ⟨rfl, rfl⟩ | ⟨rfl, rfl⟩ | ⟨rfl, rfl⟩ | ⟨rfl, rfl⟩ | ⟨rfl, rfl⟩ | ⟨rfl, rfl⟩ | ⟨rfl, rfl⟩
    iterate 9 exact mtcrTrapReg ha (by decide) rfl
    iterate 2 exact mtcrWindow ha (by decide) rfl
  · simp only [List.mem_cons, Prod.mk.injEq, List.not_mem_nil, or_false] at h
    rcases h with ⟨rfl, rfl⟩ | ⟨rfl, rfl⟩ | ⟨rfl, rfl⟩ | ⟨rfl, rfl⟩ | ⟨rfl, rfl⟩ | ⟨rfl, rfl⟩
    all_goals exact mtcrLoopReg ha (by decide) rfl
  · have hexec : exec (.mtcr g a 0x100#12) s = issue 0 g [a] none s fun s => (s.upSc fun x => { x with shctx := (s.rd a).setWidth 6 }).retire := by
      rw [exec_mtcr, execMtcr, if_pos rfl, issuePriv_eq hctx]
    refine ⟨_, hexec.trans (issue_acts (dst := none) _ ha), ?_⟩
    refine passes_putSc_upSc (onlyStream_trans (onlyStream_upSc s _) (onlyStream_upSc _ _)) ?_
    rw [State.retire, upSc_upSc]
  · refine ⟨w1c ((s.co s.cur).vstatus &&& 0x7F#64) (s.rd a) 0x7F ||| (s.rd a &&& 0x1_0000#64), fun i hi => ?_, mtcrEngineReg ha hcore (by decide) (by decide) rfl⟩
    have h7F : ∀ i < 64, (0x7F#64).getLsbD i = decide (i < 7) := by decide
    have h7F' : ∀ i < 64, (0x7F : Word).getLsbD i = decide (i < 7) := by decide
    have h16 : ∀ i < 64, (0x1_0000#64).getLsbD i = decide (i = 16) := by decide
    rw [BitVec.getLsbD_or, getLsbD_w1c _ _ _ hi, BitVec.getLsbD_and, BitVec.getLsbD_and, h7F i hi, h7F' i hi, h16 i hi]
    by_cases h7 : i < 7
    · rw [if_pos h7, decide_eq_true h7, decide_eq_false (by omega), Bool.and_true, Bool.and_true, Bool.and_false, Bool.or_false]
    · rw [if_neg h7, decide_eq_false h7, Bool.and_false, Bool.and_false, Bool.false_and, Bool.false_or]
      split_ifs with hi16
      · rw [hi16, decide_eq_true rfl, Bool.and_true]
      · rw [decide_eq_false hi16, Bool.and_false]
  · exact mtcrEngineReg ha hcore (by decide) (by decide) rfl
  · refine ⟨w1c (s.co s.cur).cqstat (s.rd a) 0x8000_0000_0000_0000, fun i hi => ?_, mtcrEngineReg ha hcore (by decide) (by decide) rfl⟩
    have h63 : ∀ i < 64, (0x8000_0000_0000_0000 : Word).getLsbD i = decide (i = 63) := by decide
    refine (getLsbD_w1c _ _ _ hi).trans ?_
    rw [h63 i hi]
    by_cases hi63 : i = 63
    · rw [hi63, decide_eq_true rfl, Bool.and_true, Bool.true_and]
    · rw [decide_eq_false hi63, Bool.and_false, Bool.false_and]
  · refine ⟨w1c (s.co s.cur).redstat (s.rd a) 3, fun i hi => ?_, mtcrEngineReg ha hcore (by decide) (by decide) rfl⟩
    have h3 : ∀ i < 64, (3 : Word).getLsbD i = decide (i < 2) := by decide
    refine (getLsbD_w1c _ _ _ hi).trans ?_
    rw [h3 i hi, Bool.and_comm (decide _)]
  · have hevt : ∀ v : Queue, v.clearEvt (s.rd a) = { v with evt := v.evt && !(s.rd a).getLsbD 63 } := by
      intro v
      unfold Queue.clearEvt
      cases (s.rd a).getLsbD 63 <;> simp
    simp only [List.mem_cons, Prod.mk.injEq, List.not_mem_nil, or_false] at h
    rcases h with ⟨rfl, rfl⟩ | ⟨rfl, rfl⟩ | ⟨rfl, rfl⟩
    · exact mtcrEngineReg (c := 0x042#12) ha hcore (by decide) (by decide) (congrArg (fun v => { s.co s.cur with vq := v }) (hevt _))
    · exact mtcrEngineReg (c := 0x046#12) ha hcore (by decide) (by decide) (congrArg (fun v => { s.co s.cur with mq := v }) (hevt _))
    · exact mtcrEngineReg (c := 0x04A#12) ha hcore (by decide) (by decide) (congrArg (fun v => { s.co s.cur with cq := v }) (hevt _))
  · refine mtcrReadOnly ha ?_ fun x hle => ?_
    · simp only [List.mem_cons, List.not_mem_nil, or_false] at h
      omega
    · unfold Core.setEngineReg
      simp only [List.mem_cons, List.not_mem_nil, or_false] at h
      repeat rw [if_neg (by omega)]

/-- Settles O27: a read is the model's reading of the register; a write is followed by the retirement, whose place and loops it leaves alone. -/
theorem controlRegisters : Obligations.ControlRegisters := ⟨mfcrReads, mtcrWrites⟩

end Sys2Proof.Machine
end

section
/-! Ring registers, MLEASE and the firmware registers with rows of their own (R134, R174, R382, R383, R422). -/
namespace Sys2Proof.Machine
set_option Elab.async false
open Safety

/-! ### An operation that is not allowed -/

theorem illegal_eq {s : State} {i : Instr} {w : Word} (hw : encodeScalar i = some w) (detail : Nat) : s.illegal i detail = s.trap 1 detail w := by
  rw [State.illegal, wordOf, hw]
  rfl

theorem completes_illegal_of_body {i : Instr} {s : State} {cls : Nat} {g : Guard} {srcs : List Src} {body : State → State} {w : Word}
    (e : exec i s = issue cls g srcs none s body) (ha : acts s cls g srcs []) (hbody : body s = s.illegal i 1) (hw : encodeScalar i = some w)
    (ht : canTrap s) : completes i s (trapped s 1 1 w) :=
  completes_trapped_of_body e ha (hbody.trans (illegal_eq hw 1)) (by decide) ht

theorem completes_of_body {i : Instr} {s : State} {cls : Nat} {g : Guard} {srcs : List Src} {body : State → State} {P : State → Prop}
    (e : exec i s = issue cls g srcs none s body) (ha : acts s cls g srcs []) (hP : P (body s)) : completes i s P :=
  ⟨_, e.trans (issue_acts (dst := none) body ha), hP⟩

/-! ### Ring registers -/

/-- The three queues of a core. -/
theorem queue_cases {q : BitVec 2} (hq : q ≠ 3#2) : q = 0#2 ∨ q = 1#2 ∨ q = 2#2 := by
  bv_omega

theorem queue_setQueue_other (x : Core) {q r : BitVec 2} (hr : r ≠ 3#2) (hne : r ≠ q) (hq : q ≠ 3#2) (v : Queue) : (x.setQueue q v).queue r = x.queue r := by
  rcases queue_cases hq with rfl | rfl | rfl <;> rcases queue_cases hr with rfl | rfl | rfl
  exacts [absurd rfl hne, rfl, rfl, rfl, absurd rfl hne, rfl, rfl, rfl, absurd rfl hne]

theorem baseOk_iff (v : Word) : baseOk v = true ↔ v.toNat % 64 = 0 ∧ v.toNat < 2 ^ 22 ∧ 0x100 ≤ v.toNat := by
  have h6 : v.setWidth 6 = 0#6 ↔ v.toNat % 64 = 0 := by
    rw [← BitVec.toNat_inj, BitVec.toNat_setWidth]
    rfl
  simp only [baseOk, Bool.and_eq_true, beq_iff_eq, decide_eq_true_eq, h6, and_assoc]

theorem countOk_iff (v : Word) : countOk v = true ↔ v.toNat ∈ [0, 16, 32, 64, 128, 256, 512, 1024, 2048, 4096] := by
  rw [countOk, List.contains_iff_mem]

/-- What a write to q_BASE or q_COUNT needs of its value and of the register beside it. -/
def RingValueOk (x : Queue) (count : Bool) (v : Word) : Prop :=
  if count then v.toNat ∈ [0, 16, 32, 64, 128, 256, 512, 1024, 2048, 4096] ∧ x.base.toNat + 64 * v.toNat ≤ 0x40_0000
  else (v.toNat % 64 = 0 ∧ v.toNat < 2 ^ 22 ∧ 0x100 ≤ v.toNat) ∧ v.toNat + 64 * x.count.toNat ≤ 0x40_0000

theorem ringValueOk_iff (x : Queue) (count : Bool) (v : Word) :
    (if count then countOk v && ringFits x.base.toNat v.toNat else baseOk v && ringFits v.toNat x.count.toNat) = true ↔ RingValueOk x count v := by
  unfold RingValueOk ringFits
  cases count
  · simp only [Bool.false_eq_true, if_false, Bool.and_eq_true, baseOk_iff, decide_eq_true_eq]
  · simp only [if_true, Bool.and_eq_true, countOk_iff, decide_eq_true_eq]

/-- A queue whose ring has been given anew. -/
def ringGiven (x : Queue) (count : Bool) (v : Word) : Queue :=
  let y := { x with head := 0, tail := 0, ph := [], fences := [] }
  if count then { y with count := v.setWidth 13 } else { y with base := v.setWidth 22 }

theorem ringWrite_ok {s : State} {q : BitVec 2} {count : Bool} {v : Word} (i : Instr) (hcore : isCore s.cur = true)
    (hempty : (ringOf s q).head = (ringOf s q).tail) (hflight : (ringOf s q).flight = []) (hok : RingValueOk (ringOf s q) count v) :
    ringWrite i q count v s = (s.upCo s.cur fun z => z.setQueue q (ringGiven (ringOf s q) count v)).retire := by
  unfold ringWrite
  dsimp only
  rw [hcore, (ringValueOk_iff ((s.co s.cur).queue q) _ _).mpr hok]
  refine (if_neg (by decide)).trans (if_neg ?_)
  rintro (h | h | h)
  · exact h hempty
  · exact h hflight
  · exact absurd h (by decide)

theorem ringWrite_bad {s : State} {q : BitVec 2} {count : Bool} {v : Word} (i : Instr) (hcore : isCore s.cur = true)
    (h : (ringOf s q).head ≠ (ringOf s q).tail ∨ (ringOf s q).flight ≠ [] ∨ ¬RingValueOk (ringOf s q) count v) :
    ringWrite i q count v s = s.illegal i 1 := by
  unfold ringWrite
  dsimp only
  rw [hcore]
  refine (if_neg (by decide)).trans (if_pos ?_)
  rw [Bool.not_eq_true', ← Bool.not_eq_true, ringValueOk_iff]
  exact h

theorem ringOf_retire_upCo (s : State) {r : BitVec 2} (f : Core → Core) : ringOf (s.upCo s.cur f).retire r = (f (s.co s.cur)).queue r :=
  congrArg (Core.queue · r) ((upCo_get s s.cur f s.cur).trans (if_pos rfl))

/-- A ring register that takes its value. -/
theorem ringWritten {s : State} {q : BitVec 2} {count : Bool} {v : Word} (i : Instr) (hcore : isCore s.cur = true) (hq : q ≠ 3#2)
    (hempty : (ringOf s q).head = (ringOf s q).tail) (hflight : (ringOf s q).flight = []) (hok : RingValueOk (ringOf s q) count v) :
    streamMoves s (ringWrite i q count v s) ∧ (ringWrite i q count v s).mem = s.mem ∧
      ringOf (ringWrite i q count v s) q = ringGiven (ringOf s q) count v ∧ ∀ r, r ≠ 3#2 → r ≠ q → ringOf (ringWrite i q count v s) r = ringOf s r := by
  rw [ringWrite_ok i hcore hempty hflight hok]
  refine ⟨streamMoves_retire rfl rfl, rfl, ?_, fun r hr hne => ?_⟩
  · exact (ringOf_retire_upCo s _).trans (queue_setQueue _ _ _)
  · exact (ringOf_retire_upCo s _).trans (queue_setQueue_other _ hr hne hq _)

theorem mleaseBody_ok {s : State} {v : Word} (i : Instr) (hcore : isCore s.cur = true) (h : ¬(v.toNat = 0 ∨ 64 < v.toNat)) :
    mleaseBody i v s = (s.putQd (quadOf s.cur) { s.qd (quadOf s.cur) with lease := v }).retire := by
  unfold mleaseBody
  rw [hcore]
  exact (if_neg (by decide)).trans (if_neg h)

theorem mleaseBody_bad {s : State} {v : Word} (i : Instr) (hcore : isCore s.cur = true) (h : v.toNat = 0 ∨ 64 < v.toNat) :
    mleaseBody i v s = s.illegal i 1 := by
  unfold mleaseBody
  rw [hcore]
  exact (if_neg (by decide)).trans (if_pos h)

theorem ringAndLeaseWrites : Parts.RingAndLeaseWrites := by
  intro s g a q hcore hq ha
  refine ⟨fun hempty hflight => ⟨fun h64 hlow hfit hhigh => ?_, fun hmem hfit => ?_⟩, fun ht w hw h => ?_, fun ht w hw h => ?_,
    fun hctx ht w hw h => ?_, fun hctx hlow hhigh => ?_⟩
  · refine completes_of_body (exec_ringRegisterWrite g a q false s) ha ?_
    obtain ⟨hmoves, hmem, hring, hother⟩ := ringWritten (count := false) (v := s.rd a) (.ringRegisterWrite g a q false) hcore hq hempty hflight
      ⟨⟨h64, hhigh, hlow⟩, hfit⟩
    rw [hring]
    refine ⟨hmoves, hmem, ?_, rfl, rfl, rfl, hother⟩
    exact (BitVec.toNat_setWidth _ _).trans (Nat.mod_eq_of_lt hhigh)
  · refine completes_of_body (exec_ringRegisterWrite g a q true s) ha ?_
    obtain ⟨hmoves, hmem', hring, hother⟩ := ringWritten (count := true) (v := s.rd a) (.ringRegisterWrite g a q true) hcore hq hempty hflight
      ⟨hmem, hfit⟩
    rw [hring]
    refine ⟨hmoves, hmem', ?_, rfl, rfl, rfl, hother⟩
    refine (BitVec.toNat_setWidth _ _).trans (Nat.mod_eq_of_lt ?_)
    simp only [List.mem_cons, List.not_mem_nil, or_false] at hmem
    omega
  · refine completes_illegal_of_body (exec_ringRegisterWrite g a q false s) ha (ringWrite_bad _ hcore ?_) hw ht
    rcases h with h | h | h | h | h | h
    · exact .inl h
    · exact .inr (.inl h)
    · exact .inr (.inr fun hok => h hok.1.1)
    · exact .inr (.inr fun hok => Nat.not_le.mpr h hok.1.2.2)
    · exact .inr (.inr fun hok => Nat.not_lt.mpr h hok.1.2.1)
    · exact .inr (.inr fun hok => Nat.not_le.mpr h hok.2)
  · refine completes_illegal_of_body (exec_ringRegisterWrite g a q true s) ha (ringWrite_bad _ hcore ?_) hw ht
    rcases h with h | h | h | h
    · exact .inl h
    · exact .inr (.inl h)
    · exact .inr (.inr fun hok => h hok.1)
    · exact .inr (.inr fun hok => Nat.not_le.mpr h hok.2)
  · exact completes_illegal_of_body ((exec_mleaseWrite g a s).trans (issuePriv_eq hctx)) ha (mleaseBody_bad _ hcore h) hw ht
  · refine completes_of_body ((exec_mleaseWrite g a s).trans (issuePriv_eq hctx)) ha ?_
    rw [mleaseBody_ok _ hcore (by omega)]
    have hquad : ((s.putQd (quadOf s.cur) { s.qd (quadOf s.cur) with lease := s.rd a }).retire).qd (quadOf s.cur) =
        { s.qd (quadOf s.cur) with lease := s.rd a } := (tget_tput s.quad (quadOf s.cur) (quadOf s.cur) _ Quad.reset).trans (if_pos rfl)
    rw [hquad]
    exact ⟨streamMoves_retire rfl rfl, rfl, rfl, rfl, rfl⟩

/-! ### Firmware registers -/

/-- A mask of reserved bits meets a value in one of its bits. -/
theorem hasBits_iff (v m : Word) : hasBits v m = true ↔ ∃ b, b < 64 ∧ v.getLsbD b = true ∧ m.getLsbD b = true := by
  rw [hasBits, bne_iff_ne]
  constructor
  · intro h
    by_contra hnone
    refine h (BitVec.eq_of_getLsbD_eq fun b hb => ?_)
    rw [BitVec.getLsbD_and, BitVec.getLsbD_zero, Bool.eq_false_iff, ne_eq, Bool.and_eq_true]
    exact fun hand => hnone ⟨b, hb, hand⟩
  · rintro ⟨b, -, hv, hm⟩ h
    have hbit := congrArg (fun x => x.getLsbD b) h
    simp only [BitVec.getLsbD_and, hv, hm, BitVec.getLsbD_zero] at hbit
    exact absurd hbit (by decide)

section
variable {s : State} {d : Nat} (hcur : s.cur = 8192 + d)
include hcur

theorem isFw_of_cur (hd : d < 9) : isFw s.cur = true := by
  rw [hcur, isFw]
  simp only [Bool.and_eq_true, decide_eq_true_eq]
  omega

theorem onTileFw_eq (hd : d < 8) (body : Nat → State) : onTileFw s body = body d := by
  unfold onTileFw
  rw [if_pos ⟨isFw_of_cur hcur (by omega), by omega⟩, hcur, Nat.add_sub_cancel_left]

end

/-- CORECAP's reserved bits are those from 48 on. -/
theorem hasBits_high (v : Word) : hasBits v 0xFFFF_0000_0000_0000 = true ↔ 2 ^ 48 ≤ v.toNat := by
  have hmask : ∀ b < 64, (0xFFFF_0000_0000_0000 : Word).getLsbD b = decide (48 ≤ b) := by decide
  rw [hasBits_iff]
  constructor
  · rintro ⟨b, hb, hv, hm⟩
    rw [hmask b hb, decide_eq_true_eq] at hm
    exact le_trans (Nat.pow_le_pow_right (by decide) hm) (Nat.ge_two_pow_of_testBit hv)
  · intro h
    obtain ⟨b, hb, hv⟩ := Nat.exists_ge_and_testBit_of_ge_two_pow h
    have hlt : b < 64 := by
      by_contra hge
      rw [Nat.testBit_lt_two_pow (lt_of_lt_of_le v.isLt (Nat.pow_le_pow_right (by decide) (Nat.le_of_not_lt hge)))] at hv
      exact absurd hv (by decide)
    exact ⟨b, hlt, hv, (hmask b hlt).trans (decide_eq_true hb)⟩

theorem corecapBody_bad {s : State} {d : Nat} {v : Word} (i : Instr) (h : 2 ^ 48 ≤ v.toNat ∨
    (mapped s (selCore s d) = true ∧ (s.co (selCore s d)).capmask.getLsbD 0 = true ∧ v.getLsbD 0 = false)) : corecapBody i d v s = s.illegal i 1 := by
  unfold corecapBody
  refine if_pos ?_
  rw [Bool.or_eq_true, hasBits_high]
  refine h.imp_right ?_
  rintro ⟨hmapped, hcap, hv⟩
  rw [hmapped, hcap, hv]
  rfl

theorem corecapBody_ok {s : State} {d : Nat} {v : Word} (i : Instr) (hv : v.toNat < 2 ^ 48)
    (h0 : mapped s (selCore s d) = true → v.getLsbD 0 = true) : corecapBody i d v s = (s.upCo (selCore s d) fun x =>
      { x with capmask := if (s.co (selCore s d)).svc = .held ∨ (s.co (selCore s d)).svc = .spare then v &&& allClasses
        else (s.co (selCore s d)).capmask &&& (v &&& allClasses) }).retire := by
  unfold corecapBody
  refine if_neg ?_
  rw [Bool.or_eq_true, hasBits_high, Bool.and_eq_true, Bool.and_eq_true, Bool.not_eq_true']
  rintro (hlow | ⟨⟨hmapped, -⟩, hlow⟩)
  · exact Nat.not_le.mpr hv hlow
  · exact Bool.false_ne_true (hlow.symm.trans (h0 hmapped))

theorem lcmentBody_bad {s : State} {d : Nat} {v : Word} (i : Instr) (h : (∃ b, 9 ≤ b ∧ b < 63 ∧ v.getLsbD b = true) ∨
    (∃ q, lcmCore s d (s.di d).lcmidx.toNat = some q ∧ ((s.co q).svc ≠ .held ∨ (s.co q).zeroing = true)) ∨
    (v.getLsbD 63 = true ∧ ∀ p, p = diePhys d (v.toNat % 512) →
      288 ≤ v.toNat % 512 ∨ (s.co p).svc ≠ .spare ∨ (s.co p).zeroing = true ∨ (s.co p).capmask.getLsbD 0 = false)) :
    lcmentBody i d v s = s.illegal i 1 := by
  unfold lcmentBody
  dsimp only
  refine if_pos ?_
  rw [Bool.or_eq_true, Bool.or_eq_true]
  rcases h with ⟨b, h9, h63, hb⟩ | ⟨q, hq, hbad⟩ | ⟨hv, hbad⟩
  · have hmask : ∀ b < 64, (0x7FFF_FFFF_FFFF_FE00 : Word).getLsbD b = decide (9 ≤ b ∧ b < 63) := by decide
    exact .inl (.inl ((hasBits_iff _ _).mpr ⟨b, by omega, hb, (hmask b (by omega)).trans (decide_eq_true ⟨h9, h63⟩)⟩))
  · refine .inl (.inr ?_)
    rw [hq]
    dsimp only
    rcases hbad with hsvc | hzero
    · rw [beq_false_of_ne hsvc]
      rfl
    · rw [hzero, Bool.not_true, Bool.and_false]
      rfl
  · refine .inr ?_
    rw [hv]
    rcases hbad _ rfl with hidx | hsvc | hzero | hcap
    · rw [decide_eq_false (Nat.not_lt.mpr hidx)]
      rfl
    · rw [beq_false_of_ne hsvc, Bool.and_false]
      rfl
    · rw [hzero, Bool.not_true, Bool.and_false]
      rfl
    · rw [hcap, Bool.and_false]
      rfl

theorem co_retire (s : State) (p : Nat) : s.retire.co p = s.co p := rfl

theorem co_noteUp (s : State) (p : Nat) : (noteUp s).co p = s.co p := rfl

theorem lcmCore_retire (s : State) (d e : Nat) : lcmCore s.retire d e = lcmCore s d e := rfl

theorem lcmCore_noteUp (s : State) (d e : Nat) : lcmCore (noteUp s) d e = lcmCore s d e := rfl

theorem lcmCore_upCo (s : State) (p : Nat) (f : Core → Core) (d e : Nat) : lcmCore (s.upCo p f) d e = lcmCore s d e := rfl

/-- A map entry and a core change nothing of a stream or of memory. -/
theorem lcmentKept (s : State) (d e p : Nat) (v : BitVec 10) (f : Core → Core) :
    (noteUp ((setEntry s d e v).upCo p f)).scal = s.scal ∧ (noteUp ((setEntry s d e v).upCo p f)).cur = s.cur ∧
      (noteUp ((setEntry s d e v).upCo p f)).mem = s.mem := ⟨rfl, rfl, rfl⟩

theorem lcmCore_setEntry (s : State) (d e : Nat) (v : BitVec 10) :
    lcmCore (setEntry s d e v) d e = if v.getLsbD 9 then some (diePhys d (v.toNat % 512)) else none := by
  have hlcm : tget ((setEntry s d e v).di d).lcm e 0 = v := by
    rw [setEntry, putDi_get, if_pos rfl]
    exact (tget_tput _ _ _ _ _).trans (if_pos rfl)
  rw [lcmCore, hlcm]

/-- A map entry given anew, to a core that is to be zeroed. -/
theorem lcmentBody_ok {s : State} {d j : Nat} {v : Word} (i : Instr) (hj : j < 288) (hv : v = BitVec.ofNat 64 (2 ^ 63 + j))
    (hold : lcmCore s d (s.di d).lcmidx.toNat = none) (hspare : (s.co (diePhys d j)).svc = .spare) (hzero : (s.co (diePhys d j)).zeroing = false)
    (hcap : (s.co (diePhys d j)).capmask.getLsbD 0 = true) : lcmentBody i d v s =
      (noteUp ((setEntry s d (s.di d).lcmidx.toNat (BitVec.ofNat 10 (512 + j))).upCo (diePhys d j) fun x => { x with zeroing := true })).retire := by
  have hnat : v.toNat = 2 ^ 63 + j := by rw [hv, BitVec.toNat_ofNat]; omega
  have hidx : v.toNat % 512 = j := by omega
  have h63 : v.getLsbD 63 = true := by
    rw [← BitVec.msb_eq_getLsbD_last v, BitVec.msb_eq_decide, decide_eq_true_eq]
    omega
  have hentry : (v.setWidth 9 |>.setWidth 10 |>.or 0x200#10) = BitVec.ofNat 10 (512 + j) := by
    refine BitVec.eq_of_toNat_eq ?_
    have hor := Nat.two_pow_add_eq_or_of_lt (i := 9) (b := j) (by omega) 1
    simp only [BitVec.or_eq, BitVec.toNat_or, BitVec.toNat_setWidth, BitVec.toNat_ofNat, hnat]
    rw [Nat.or_comm, show (2 ^ 63 + j) % 2 ^ 9 % 2 ^ 10 = j by omega]
    exact hor.symm.trans (by omega)
  have hres : hasBits v 0x7FFF_FFFF_FFFF_FE00 = false := by
    rw [Bool.eq_false_iff, ne_eq, hasBits_iff]
    rintro ⟨b, hb, hvb, hmb⟩
    have hmask : ∀ b < 64, (0x7FFF_FFFF_FFFF_FE00 : Word).getLsbD b = decide (9 ≤ b ∧ b < 63) := by decide
    rw [hmask b hb, decide_eq_true_eq] at hmb
    rw [← BitVec.testBit_toNat, hnat, Nat.testBit_two_pow_add_gt hmb.2,
      Nat.testBit_lt_two_pow (lt_of_lt_of_le (show j < 2 ^ 9 by omega) (Nat.pow_le_pow_right (by decide) hmb.1))] at hvb
    exact Bool.false_ne_true hvb
  unfold lcmentBody
  dsimp only
  rw [hidx, h63, hold, hres, hspare, hzero, hcap, decide_eq_true hj]
  dsimp only
  exact (if_neg (by decide)).trans (by rw [if_pos rfl, if_pos rfl, hentry])

/-- LEADCAS holds EXPECT in bits 51 to 48 and NEW in bits 59 to 56. -/
theorem leadcas_reserved : ∀ b < 64, (0xF0F0_FFFF_FFFF_FFFF : Word).getLsbD b = decide (b < 48 ∨ 52 ≤ b ∧ b < 56 ∨ 60 ≤ b) := by
  decide

theorem leadcasBody_bad {s : State} {v : Word} (i : Instr) (h : (∃ b, (b < 48 ∨ 52 ≤ b ∧ b < 56 ∨ 60 ≤ b) ∧ v.getLsbD b = true) ∨
    8 < bitsOf v.toNat 59 56) : leadcasBody i v s = s.illegal i 1 := by
  unfold leadcasBody
  refine if_pos ?_
  rw [Bool.or_eq_true]
  refine h.imp ?_ decide_eq_true
  rintro ⟨b, hb, hv⟩
  have hlt : b < 64 := BitVec.lt_of_getLsbD hv
  exact (hasBits_iff _ _).mpr ⟨b, hlt, hv, (leadcas_reserved b hlt).trans (decide_eq_true hb)⟩

theorem leadcasBody_ok {s : State} {v : Word} {e n : Nat} (i : Instr) (he : e < 16) (hn : n ≤ 8) (hv : v = BitVec.ofNat 64 (n * 2 ^ 56 + e * 2 ^ 48)) :
    leadcasBody i v s = if leadFree s e then
      ({ s with leadHeld := true, leadHolder := BitVec.ofNat 4 n, leadExp := BitVec.ofNat 64 (s.ns + 10_000_000) }).retire else s.retire := by
  have hnat : v.toNat = n * 2 ^ 56 + e * 2 ^ 48 := by rw [hv, BitVec.toNat_ofNat]; omega
  have hnew : bitsOf v.toNat 59 56 = n := by rw [bitsOf]; omega
  have hexpect : bitsOf v.toNat 51 48 = e := by rw [bitsOf]; omega
  have hres : hasBits v 0xF0F0_FFFF_FFFF_FFFF = false := by
    rw [Bool.eq_false_iff, ne_eq, hasBits_iff]
    rintro ⟨b, hb, hvb, hmb⟩
    rw [leadcas_reserved b hb, decide_eq_true_eq] at hmb
    rw [← BitVec.testBit_toNat, hnat, show n * 2 ^ 56 + e * 2 ^ 48 = 2 ^ 48 * (2 ^ 8 * n + e) by omega, Nat.testBit_two_pow_mul,
      Nat.testBit_two_pow_mul_add n (show e < 2 ^ 8 by omega), Bool.and_eq_true, decide_eq_true_eq] at hvb
    obtain ⟨h48, hbit⟩ := hvb
    split_ifs at hbit with h8
    · exact absurd (Nat.ge_two_pow_of_testBit hbit) (Nat.not_le.mpr (lt_of_lt_of_le (show e < 2 ^ 4 by omega) (Nat.pow_le_pow_right (by decide) (by omega))))
    · exact absurd (Nat.ge_two_pow_of_testBit hbit) (Nat.not_le.mpr (lt_of_lt_of_le (show n < 2 ^ 4 by omega) (Nat.pow_le_pow_right (by decide) (by omega))))
  unfold leadcasBody
  dsimp only
  rw [hnew, hexpect, hres]
  exact if_neg (by rw [Bool.false_or, decide_eq_true_eq]; omega)

theorem firmwareWrites : Parts.FirmwareWrites := by
  intro s g a d hcur hd hctx ha
  have hcorecap := ((exec_corecapWrite g a s).trans (issuePriv_eq hctx))
  have hlcment := ((exec_lcmentWrite g a s).trans (issuePriv_eq hctx))
  have hleadcas := ((exec_leadcasWrite g a s).trans (issuePriv_eq hctx))
  have hfw := isFw_of_cur hcur (Nat.lt_succ_of_lt hd)
  refine ⟨fun ht w hw h => ?_, fun ht w hw h => ?_, fun ht w hw h => ?_, fun hv h0 => ?_, fun j hj hv hold hspare hzero hcap => ?_,
    fun e n he hn hv => ⟨fun hfree => ?_, fun hfree => ?_⟩, ?_⟩
  · exact completes_illegal_of_body hcorecap ha ((onTileFw_eq hcur hd _).trans (corecapBody_bad _ h)) hw ht
  · exact completes_illegal_of_body hlcment ha ((onTileFw_eq hcur hd _).trans (lcmentBody_bad _ h)) hw ht
  · exact completes_illegal_of_body hleadcas ha ((if_pos hfw).trans (leadcasBody_bad _ h)) hw ht
  · refine completes_of_body hcorecap ha ?_
    rw [onTileFw_eq hcur hd, corecapBody_ok _ hv h0]
    refine ⟨streamMoves_retire rfl rfl, rfl, ?_⟩
    rw [co_retire, upCo_get, if_pos rfl]
    rfl
  · refine completes_of_body hlcment ha ?_
    rw [onTileFw_eq hcur hd, lcmentBody_ok _ hj hv hold hspare hzero hcap]
    obtain ⟨hscal, hcur', hmem⟩ := lcmentKept s d (s.di d).lcmidx.toNat (diePhys d j) (BitVec.ofNat 10 (512 + j)) fun x => { x with zeroing := true }
    refine ⟨streamMoves_retire hscal hcur', hmem, ?_, ?_⟩
    · rw [lcmCore_retire, lcmCore_noteUp, lcmCore_upCo, lcmCore_setEntry]
      have h9 : (BitVec.ofNat 10 (512 + j)).getLsbD 9 = true := by
        rw [← BitVec.msb_eq_getLsbD_last, BitVec.msb_eq_decide, decide_eq_true_eq, BitVec.toNat_ofNat]
        omega
      rw [h9, if_pos rfl, BitVec.toNat_ofNat, show (512 + j) % 2 ^ 10 % 512 = j by omega]
    · rw [co_retire, co_noteUp, upCo_get, if_pos rfl]
  · refine completes_of_body hleadcas ha ?_
    rw [if_pos hfw, leadcasBody_ok _ he hn hv, if_pos hfree]
    exact ⟨streamMoves_retire rfl rfl, rfl, rfl, (BitVec.toNat_ofNat _ _).trans (Nat.mod_eq_of_lt (by omega)), rfl⟩
  · refine completes_of_body hleadcas ha ?_
    rw [if_pos hfw, leadcasBody_ok _ he hn hv, if_neg (by rw [hfree]; decide)]
    exact passes_retire s
  · refine completes_of_body ((exec_hbeatWrite g a s).trans (issuePriv_eq hctx)) ha ?_
    rw [if_pos hfw, hcur, Nat.add_sub_cancel_left]
    exact ⟨streamMoves_retire rfl rfl, rfl, congrArg Die.hbtime ((putDi_get s _ _ _).trans (if_pos rfl))⟩

/-- Settles O28: each register's body at the values that it takes and at those that trap, read off its reserved bits. -/
theorem ringLeaseAndFirmwareWrites : Obligations.RingLeaseAndFirmwareWrites := ⟨ringAndLeaseWrites, firmwareWrites⟩

end Sys2Proof.Machine
end

section
/-! DONE, PROBE, PHINT, PHASE and SHOOT, the end of a task and the answer to a page request (R106 to R112, R349, R350). -/
namespace Sys2Proof.Machine
set_option Elab.async false
open Safety

/-! ### PROBE -/

theorem firstUnmapped_none {s : State} {c u n : Nat} (h : ∀ v, u ≤ v → v < u + n → unitMapped s c (v * 65536) = true) : firstUnmapped s c u n = none := by
  induction n generalizing u with
  | zero => rfl
  | succ n ih =>
    rw [firstUnmapped, if_pos (h u le_rfl (by omega))]
    exact ih fun v hv hlt => h v (by omega) (by omega)

theorem firstUnmapped_some {s : State} {c u n k : Nat} (hle : u ≤ k) (hlt : k < u + n) (h : ∀ v, u ≤ v → v < k → unitMapped s c (v * 65536) = true)
    (hk : unitMapped s c (k * 65536) = false) : firstUnmapped s c u n = some k := by
  induction n generalizing u with
  | zero => omega
  | succ n ih =>
    rw [firstUnmapped]
    by_cases hu : u = k
    · rw [hu, hk, if_neg Bool.false_ne_true]
    · rw [if_pos (h u le_rfl (by omega))]
      exact ih (by omega) (by omega) fun v hv hlt => h v (by omega) hlt

theorem probeFrom_mapped {s : State} {u last n : Nat} (h : ∀ v, u ≤ v → v ≤ last → unitMapped s (stream s).ctx.toNat (v * 65536) = true) :
    passes (s.putSc s.cur { stream s with probes := 0, answer := none }) (probeFrom u last n s) := by
  have hprobe : probeFrom u last n s = (s.upSc fun x => { x with probes := 0, answer := none }).retire := by
    have hnone : firstUnmapped s (s.sc s.cur).ctx.toNat u (last + 1 - u) = none := firstUnmapped_none fun v hv hlt => h v hv (by omega)
    unfold probeFrom
    rw [hnone]
  rw [hprobe]
  exact passes_putSc_upSc (onlyStream_trans (onlyStream_upSc s _) (onlyStream_upSc _ _)) (upSc_upSc s _ _)

section
variable {a b : Word} (hb : b ≠ 0#64)
include hb

theorem probeBody_badForm {s : State} (h : badForm a.toNat = true) : probeBody a b s = s.trap 4 2 a := (if_neg hb).trans (if_pos h)

theorem probeBody_leaves {s : State} (h : badForm a.toNat = false) (hdie : (a.toNat + b.toNat - 1) % 2 ^ 64 / 2 ^ 56 ≠ a.toNat / 2 ^ 56) :
    probeBody a b s = s.trap 4 3 a := (if_neg hb).trans ((if_neg (by rw [h]; decide)).trans (if_pos hdie))

theorem probeBody_asks {s : State} (h : badForm a.toNat = false) (hdie : (a.toNat + b.toNat - 1) % 2 ^ 64 / 2 ^ 56 = a.toNat / 2 ^ 56) :
    probeBody a b s = probeFrom (a.toNat / 65536) ((a.toNat + b.toNat - 1) / 65536) 0 s :=
  (if_neg hb).trans ((if_neg (by rw [h]; decide)).trans (if_neg (not_not_intro hdie)))

end

/-! ### PHINT -/

theorem phintBody_ok {s : State} {ea : Word} (h64 : ea.toNat % 64 = 0) (hle : ea.toNat ≤ 0x3F_FF80) : phintBody ea s =
    if yieldPending s then (State.upSc (restartWatchdog s.retire) fun x => { x with stopAt := s.time }).wait (.yield ea) else restartWatchdog s.retire :=
  (if_neg (not_not_intro h64)).trans (if_neg (Nat.not_lt.mpr hle))

theorem retire_wd (x : Scalar) (v : Nat) : ({ x with wd := v } : Scalar).retire = { x.retire with wd := v } := by
  rw [retire_congr (x := x) (y := { x with wd := v }) ⟨rfl, rfl, rfl, rfl, rfl, rfl, rfl, rfl⟩, retire_eq x]

theorem doneProbeAndPhint : Parts.DoneProbeAndPhint := by
  intro s g a b imm
  refine ⟨fun ha => completes_of_body (exec_doneOp g s) ha (waits_wait s _), fun ha => ⟨fun hb => ?_, fun hb hform hdie hmapped => ?_,
    fun ht hb hform => ?_, fun ht hb hform hdie => ?_⟩, fun hcore ha h64 hle => ⟨fun hyield => ?_, fun hyield => ?_⟩⟩
  · refine completes_of_body (exec_probe g a b s) ha ?_
    rw [probeBody, if_pos hb]
    exact passes_retire s
  · refine completes_of_body (exec_probe g a b s) ha ?_
    rw [probeBody_asks hb hform hdie]
    exact probeFrom_mapped hmapped
  · exact completes_trapped_of_body (dst := none) (exec_probe g a b s) ha (probeBody_badForm hb hform) (by decide) ht
  · exact completes_trapped_of_body (dst := none) (exec_probe g a b s) ha (probeBody_leaves hb hform hdie) (by decide) ht
  · refine completes_of_body ((exec_phint g a imm s).trans (issueCore_eq hcore)) ha ?_
    have hbody : phintBody (ea28 (s.rd a) imm) s = restartWatchdog s.retire := (phintBody_ok h64 hle).trans (if_neg (by rw [hyield]; decide))
    rw [hbody]
    exact passes_putSc_upSc (onlyStream_retire_upSc s _) ((stream_retire_upSc s _).trans (retire_wd (stream s) s.time).symm)
  · refine completes_of_body ((exec_phint g a imm s).trans (issueCore_eq hcore)) ha ?_
    have hbody := (phintBody_ok (s := s) (ea := ea28 (s.rd a) imm) h64 hle).trans (if_pos hyield)
    have hstream : stream (phintBody (ea28 (s.rd a) imm) s) =
        { (stream s).retire with wd := s.time, stopAt := s.time, run := .waiting (.yield (s.rd a + imm.signExtend 64)) } := by
      rw [hbody, State.wait, upSc_upSc, restartWatchdog, stream_retire_upSc]
      rfl
    refine ⟨?_, ?_, ?_, fun r _ => ?_⟩
    · rw [hbody]
      exact onlyStream_trans (onlyStream_retire_upSc s _) (onlyStream_trans (onlyStream_upSc _ _) (onlyStream_upSc _ _))
    · rw [hstream]
    · rw [hstream]
    · rw [hstream]
      rw [retire_eq (stream s)]
      rfl

/-! ### The end of a task -/

theorem releaseAll_of_none {s : State} {task : Nat} (h : heldBy s task = []) (c : Nat) : releaseAll s c task = s := by
  unfold releaseAll
  rw [h]
  rfl

theorem beginReleases_of_none {s : State} {task : Nat} (h : heldBy s task = []) (c : Nat) : beginReleases s task c = s := by
  unfold beginReleases
  rw [h]
  rfl

theorem endBinds_of_none {s : State} (h : s.convs = []) (task : Nat) : endBinds s task = s := by
  unfold endBinds
  rw [h]
  rfl

theorem finishTeam_unfinished {s : State} {n : Nat} {t : Team} (ht : s.tm n = some t) (h : t.finished = false) : finishTeam s n = s := by
  unfold finishTeam
  rw [ht]
  exact if_pos (by rw [h]; rfl)

theorem execTaskEnd_task {s : State} (hcore : isCore s.cur = true) (hrun : (stream s).run = .waiting .drain) (hfills : fillsDone s = true)
    (hdrained : (stream s).drained = true) (hwaits : releaseWaits s (taskId s s.cur) (stream s).ctx.toNat = false)
    (hheld : heldBy s (taskId s s.cur) = []) : execTaskEnd s = .next (endTask s) := by
  rw [stream_eq] at hrun hdrained hwaits
  unfold execTaskEnd
  dsimp only
  rw [beginReleases_of_none hheld, hrun, hfills, hdrained, hwaits, hcore]
  rfl

/-- The state of a task that has ended, but for what its team makes of it. -/
def taskDone (s : State) : State := s.upSc fun x => { x with run := .done, roles := [] }

theorem endTask_eq {s : State} {r : TaskRef} (hheld : heldBy s (taskId s s.cur) = []) (hconvs : s.convs = []) (htask : (s.co s.cur).task = some r) :
    endTask s = finishTeam ((taskDone s).upTm r.team fun t => { t with done := setBit t.done r.lcore true }) r.team := by
  unfold endTask
  dsimp only
  rw [releaseAll_of_none hheld, endBinds_of_none hconvs]
  split
  · next hnone =>
    have hnone' : (s.co s.cur).task = none := hnone
    exact absurd (hnone'.symm.trans htask) (by simp)
  · next r' hsome =>
    have hsome' : (s.co s.cur).task = some r' := hsome
    cases htask.symm.trans hsome'
    rfl

theorem taskEnds (s : State) (r : TaskRef) (x : Team) (hcore : isCore s.cur = true) (hrun : (stream s).run = .waiting .drain) (hfills : fillsDone s = true)
    (hdrained : (stream s).drained = true) (hwaits : releaseWaits s (taskId s s.cur) (stream s).ctx.toNat = false)
    (htask : (s.co s.cur).task = some r) (hteam : s.tm r.team = some x) (hheld : heldBy s (taskId s s.cur) = []) (hconvs : s.convs = [])
    (hlcore : r.lcore < 256) (hmore : ∃ l, l < x.size ∧ l ≠ r.lcore ∧ x.done.getLsbD l = false) : completes .taskEnd s fun t =>
      (stream t).run = .done ∧ (∀ k, (stream t).reg k = (stream s).reg k) ∧ t.mem = s.mem ∧
      ∃ y, t.tm r.team = some y ∧ ∀ l, l < 256 → y.done.getLsbD l = (if l = r.lcore then true else x.done.getLsbD l) := by
  have hbit (l : Nat) : (setBit x.done r.lcore true).getLsbD l = if l = r.lcore then true else x.done.getLsbD l := getLsbD_setBit _ _ _ _ hlcore
  have htm : ((taskDone s).upTm r.team fun t => { t with done := setBit t.done r.lcore true }).tm r.team =
      some { x with done := setBit x.done r.lcore true } := by
    rw [tm_upTm, if_pos rfl]
    exact congrArg _ hteam
  have hopen : Team.finished { x with done := setBit x.done r.lcore true } = false := by
    obtain ⟨l, hl, hne, hdone⟩ := hmore
    rw [Team.finished, List.all_eq_false]
    exact ⟨l, List.mem_range.mpr hl, by rw [hbit, if_neg hne, hdone]; decide⟩
  refine ⟨_, (execTaskEnd_task hcore hrun hfills hdrained hwaits hheld), ?_⟩
  rw [endTask_eq hheld hconvs htask, finishTeam_unfinished htm hopen]
  have hstream : stream ((taskDone s).upTm r.team fun t => { t with done := setBit t.done r.lcore true }) = { stream s with run := .done, roles := [] } := by
    rw [stream_eq, sc_upTm, cur_upTm]
    exact stream_upSc s _
  refine ⟨?_, fun k => ?_, mem_upTm _ _ _, _, htm, fun l _ => hbit l⟩
  · rw [hstream]
  · rw [hstream]
    rfl

/-! ### The answer to a page request -/

/-- The event of a page request for a unit (R242). -/
def pageEvent (s : State) (u : Nat) : Ev :=
  { kind := 4, arg := BitVec.ofNat 64 (u * 65536), tag := 0, len := 0, ptime := 0, fctx := (s.sc s.cur).ctx.toNat, data := 0, asker := some s.cur }

theorem raisePage_ok {s : State} {u last n : Nat} (hn : n < 16) (hentry : handlerEntry s 0 4 ≠ 0#64) (hroom : eventRoom s 0 4 = true) :
    raisePage u last n s = (pushEvent s 0 (pageEvent s u)).upSc fun x =>
      { x with run := .waiting (.page u last), probes := n + 1, answer := none } := by
  unfold raisePage
  dsimp only
  rw [hroom]
  exact (if_neg (not_or.mpr ⟨by omega, hentry⟩)).trans (if_neg (by decide))

theorem execPageRequestAnswer_granted {s : State} {u last : Nat} (hrun : (stream s).run = .waiting (.page u last)) (hans : (stream s).answer = some true) :
    execPageRequestAnswer s = .next (probeFrom u last (stream s).probes s) := by
  rw [stream_eq] at hrun hans ⊢
  unfold execPageRequestAnswer
  rw [hrun, hans]
  rfl

theorem execPageRequestAnswer_refused {s : State} {u last : Nat} (hrun : (stream s).run = .waiting (.page u last)) (hans : (stream s).answer = some false) :
    execPageRequestAnswer s = .next ((s.upSc fun x => { x with probes := 0, answer := none }).trap 11 0 (BitVec.ofNat 64 (u * 65536))) := by
  rw [stream_eq] at hrun hans
  unfold execPageRequestAnswer
  rw [hrun, hans]
  rfl

theorem taskEndAndPageAnswer : Parts.TaskEndAndPageAnswer := by
  refine ⟨taskEnds, fun s u last hrun => ⟨fun hans => ⟨fun hmapped => ?_, fun k hle hlast hbelow hk hprobes hentry hroom => ?_⟩, fun hans ht => ?_⟩⟩
  · exact ⟨_, execPageRequestAnswer_granted hrun hans, probeFrom_mapped hmapped⟩
  · refine ⟨_, execPageRequestAnswer_granted hrun hans, ?_⟩
    have hfirst : firstUnmapped s (s.sc s.cur).ctx.toNat u (last + 1 - u) = some k := firstUnmapped_some hle (by omega) hbelow hk
    have hprobe : probeFrom u last (stream s).probes s = raisePage k last (if k = u then (stream s).probes else 0) s := by
      unfold probeFrom
      rw [hfirst]
    have hn : (if k = u then (stream s).probes else 0) < 16 := by
      split_ifs with h
      · exact hprobes h
      · decide
    rw [hprobe, raisePage_ok hn hentry hroom]
    have hstream := stream_upSc (pushEvent s 0 (pageEvent s k)) fun x =>
      { x with run := .waiting (.page k last), probes := (if k = u then (stream s).probes else 0) + 1, answer := none }
    have hsame : stream (pushEvent s 0 (pageEvent s k)) = stream s := rfl
    beta_reduce
    rw [hstream, hsame]
    refine ⟨rfl, rfl, fun _ _ => rfl, rfl, rfl, ?_⟩
    have hcx : ((pushEvent s 0 (pageEvent s k)).cx 0).events = (s.cx 0).events ++ [{ pageEvent s k with ptime := s.ns }] :=
      congrArg CtxRun.events ((putCx_get s 0 _ 0).trans (if_pos rfl))
    exact ⟨_, hcx, rfl, rfl, rfl, rfl⟩
  · refine ⟨_, execPageRequestAnswer_refused hrun hans, ?_⟩
    have hstream := stream_putSc s { stream s with probes := 0, answer := none }
    exact trapped_trap (s.putSc s.cur { stream s with probes := 0, answer := none }) 11 0 _ (by decide) (by
      unfold canTrap
      rw [hstream]
      exact ht)

/-! ### PHASE -/

/-- Two streams that the end-of-body test does not tell apart. -/
structure LoopsAlike (x y : Scalar) : Prop where
  pc : y.pc = x.pc
  lord : y.lord = x.lord
  on : ∀ n, loopOn y n = loopOn x n
  start : ∀ n, loopStart y n = loopStart x n
  stop : ∀ n, loopEnd y n = loopEnd x n
  count : ∀ n, loopCount y n = loopCount x n

theorem returns_alike {x y : Scalar} (h : LoopsAlike x y) (n : Bool) : returns y n ↔ returns x n := by
  obtain ⟨hpc, hlord, hon, -, hstop, hcount⟩ := h
  simp only [returns, ends, hpc, hlord, hon, hstop, hcount]

theorem retire_pc_alike {x y : Scalar} (h : LoopsAlike x y) : y.retire.pc = x.retire.pc := by
  obtain ⟨hx, hxnone, -, -⟩ := endOfBody_spec x
  obtain ⟨hy, hynone, -, -⟩ := endOfBody_spec y
  have hnext : (endOfBody y).1 = (endOfBody x).1 := by
    by_cases hret : ∃ n, returns x n
    · obtain ⟨n, hn⟩ := hret
      rw [((hy n).ofReturns ((returns_alike h n).mpr hn)).1, ((hx n).ofReturns hn).1, h.start]
    · rw [hxnone fun n hn => hret ⟨n, hn⟩, hynone fun n hn => hret ⟨n, (returns_alike h n).mp hn⟩]
  show (endOfBody y).1.getD (y.pc + 8) = (endOfBody x).1.getD (x.pc + 8)
  rw [hnext, h.pc]

/-- The stream of a task that enters its next phase. -/
def nextPhase (x : Scalar) : Scalar := { x with status := x.status ^^^ 0x40#64, phnum := x.phnum + 1 }

theorem getLsbD_nextPhase (x : Scalar) (i : Nat) (hi : i < 64) : (nextPhase x).status.getLsbD i = if i = 6 then !x.ph else x.status.getLsbD i := by
  have h40 : ∀ i < 64, (0x40#64).getLsbD i = decide (i = 6) := by decide
  refine (BitVec.getLsbD_xor).trans ?_
  rw [h40 i hi]
  split_ifs with h6
  · rw [h6, decide_eq_true rfl, Bool.xor_true]
    rfl
  · rw [decide_eq_false h6, Bool.xor_false]

theorem loopsAlike_nextPhase (x : Scalar) : LoopsAlike x (nextPhase x) := by
  have hbit (i : Nat) (hi : i < 6) : (nextPhase x).status.getLsbD i = x.status.getLsbD i := (getLsbD_nextPhase x i (by omega)).trans (if_neg (by omega))
  refine ⟨rfl, hbit 2 (by decide), fun n => ?_, fun _ => rfl, fun _ => rfl, fun _ => rfl⟩
  cases n
  · exact hbit 0 (by decide)
  · exact hbit 1 (by decide)

theorem execPhase_eq {s : State} (g : Guard) (hcore : isCore s.cur = true) : exec (.phase g) s =
    issue 0 g [] none s fun s => if hasPhases s s.cur then phaseBody s else s.illegal (.phase g) 4 := issueCore_eq hcore

theorem takeCheckpoint_ckpt (s : State) (p : Nat) (pc : Word) : ∃ k, ((takeCheckpoint s p pc).co p).ckpt = some k ∧ k.pc = pc ∧
    k.regs = (s.sc p).regs ∧ k.sems = (s.co p).sems := by
  unfold takeCheckpoint
  dsimp only
  rw [putCo_get, if_pos rfl]
  exact ⟨_, rfl, rfl, rfl, rfl⟩

theorem stream_takeCheckpoint (s : State) (p : Nat) (pc : Word) : stream (takeCheckpoint s p pc) = stream s := rfl

theorem phaseBody_eq (s : State) : ∃ u, phaseBody s = takeCheckpoint u s.cur (stream u).pc ∧ u.cur = s.cur ∧ (u.co s.cur).sems = (s.co s.cur).sems ∧
    stream u = { (nextPhase (stream s)).retire with wd := s.time } := by
  refine ⟨restartWatchdog (s.upSc nextPhase).retire, rfl, rfl, rfl, ?_⟩
  rw [restartWatchdog, stream_retire_upSc, stream_upSc]
  rfl

theorem phaseEnds {s : State} {g : Guard} (hcore : isCore s.cur = true) (ha : acts s 0 g [] []) (hph : hasPhases s s.cur = true) :
    completes (.phase g) s fun t =>
      (stream t).ph = !(stream s).ph ∧ (stream t).phnum = (stream s).phnum + 1 ∧ (stream t).pc = (stream s).retire.pc ∧
      regsKept (stream s) (stream t) [] ∧ predsKept (stream s) (stream t) [] ∧ t.mem = s.mem ∧
      ∃ k, (t.co s.cur).ckpt = some k ∧ k.pc = (stream t).pc ∧ k.regs = (stream t).regs ∧ k.sems = (s.co s.cur).sems := by
  refine completes_of_body (execPhase_eq g hcore) ha ?_
  rw [if_pos hph]
  obtain ⟨u, hbody, hcur, hsems, hu⟩ := phaseBody_eq s
  have hstream : stream (phaseBody s) = { (nextPhase (stream s)).retire with wd := s.time } := by
    rw [hbody, stream_takeCheckpoint, hu]
  have hpc : (stream (phaseBody s)).pc = (stream s).retire.pc := by
    rw [hstream]
    exact retire_pc_alike (loopsAlike_nextPhase (stream s))
  obtain ⟨-, -, -, hkept⟩ := endOfBody_spec (nextPhase (stream s))
  refine ⟨?_, ?_, hpc, fun r _ => ?_, fun p _ => ?_, phaseBody_mem s, ?_⟩
  · rw [hstream]
    exact (hkept 6 (by decide)).trans ((getLsbD_nextPhase _ 6 (by decide)).trans (if_pos rfl))
  · rw [hstream, retire_eq]
    rfl
  · rw [hstream, retire_eq]
    rfl
  · rw [hstream, retire_eq]
    rfl
  · obtain ⟨k, hk, hkpc, hkregs, hksems⟩ := takeCheckpoint_ckpt u s.cur (stream u).pc
    have hregs : (u.sc s.cur).regs = (stream u).regs := by rw [stream_eq, hcur]
    rw [hbody, stream_takeCheckpoint]
    exact ⟨k, hk, hkpc, hkregs.trans hregs, hksems.trans hsems⟩

/-! ### SHOOT -/

theorem shotBy_iff {s : State} {a b : Src} {e : TlbEnt} :
    shotBy (stream s).shctx.toNat ((s.rd a).toNat % 2 ^ 56) (s.rd b).toNat e = true ↔ shotAt s a b e.ctx e.unit e.unit := by
  unfold shotBy shotAt
  simp only [Bool.and_eq_true, Bool.or_eq_true, beq_iff_eq, decide_eq_true_eq, BitVec.toNat_eq, BitVec.toNat_ofNat, Nat.zero_mod]

theorem rangeShot_iff {s : State} {a b : Src} {e : RangeEnt} :
    rangeShot (stream s).shctx.toNat ((s.rd a).toNat % 2 ^ 56) (s.rd b).toNat e = true ↔ shotAt s a b e.ctx e.lo e.hi := by
  unfold rangeShot shotAt
  simp only [Bool.and_eq_true, Bool.or_eq_true, beq_iff_eq, decide_eq_true_eq, BitVec.toNat_eq, BitVec.toNat_ofNat, Nat.zero_mod]

theorem mem_filter_not {α : Type} {l : List α} {p : α → Bool} {q : Prop} {e : α} (h : p e = true ↔ q) : e ∈ l.filter (fun t => !p t) ↔ e ∈ l ∧ ¬q := by
  rw [List.mem_filter, Bool.not_eq_true', ← Bool.not_eq_true, h]

/-- A core whose translations of a range have been dropped. -/
def shotCore (c off n : Nat) (x : Core) : Core := { x with tlb := x.tlb.filter fun t => !shotBy c off n t }

theorem shotCore_reset (c off n : Nat) : shotCore c off n Core.reset = Core.reset := rfl

/-- A table changed at some keys, its default kept. -/
theorem tget_map_keys {α : Type} {p : Nat → Prop} [DecidablePred p] {f : α → α} (t : Tbl α) (k : Nat) {d : α} (hd : f d = d) :
    tget (t.map fun e => if p e.1 then (e.1, f e.2) else e) k d = if p k then f (tget t k d) else tget t k d := by
  induction t with
  | nil => simp [tget, hd]
  | cons e t ih =>
    by_cases hp : p e.1
    · by_cases hk : e.1 = k
      · subst hk
        simp [tget, hp]
      · simpa [tget, hp, hk] using ih
    · by_cases hk : e.1 = k
      · subst hk
        simp [tget, hp]
      · simpa [tget, hp, hk] using ih

theorem co_shootDie (s : State) (d c off n p : Nat) : (shootDie s d c off n).co p = if p / 288 = d then shotCore c off n (s.co p) else s.co p :=
  tget_map_keys (p := fun k => k / 288 = d) (f := shotCore c off n) s.core p (shotCore_reset c off n)

theorem di_shootDie (s : State) (d c off n e : Nat) : (shootDie s d c off n).di e = if e = d then { s.di d with
    tlb := (s.di d).tlb.filter fun t => !shotBy c off n t, ranges := (s.di d).ranges.filter fun t => !rangeShot c off n t } else s.di e :=
  putDi_get _ _ _ _

theorem di_retire (s : State) (d : Nat) : s.retire.di d = s.di d := rfl

theorem phaseAndShoot : Parts.PhaseAndShoot := by
  intro s g a b
  refine ⟨fun hcore ha => ⟨phaseEnds hcore ha, fun hph ht w hw => ?_⟩, fun hctx ha hrange => ?_, fun hctx ha ht hb hdie => ?_⟩
  · exact completes_trapped_of_body (dst := none) (execPhase_eq g hcore) ha ((if_neg (by rw [hph]; decide)).trans (illegal_eq hw 4)) (by decide) ht
  · refine completes_of_body ((exec_shoot g a b s).trans (issuePriv_eq hctx)) ha ?_
    have hbody : shootBody (s.rd a) (s.rd b) s =
        (shootDie s (agentDie s.cur) (stream s).shctx.toNat ((s.rd a).toNat % 2 ^ 56) (s.rd b).toNat).retire := by
      refine if_neg ?_
      rintro ⟨hb, hout⟩
      obtain ⟨hlo, hhi⟩ := hrange.resolve_left hb
      exact hout.elim (fun h => h hlo) fun h => h hhi
    rw [hbody]
    refine ⟨streamMoves_retire rfl rfl, rfl, fun e => ?_, fun e => ?_, fun p hp e => ?_, fun p hp => ?_, fun d hd => ?_⟩
    · rw [di_retire, di_shootDie, if_pos rfl]
      exact mem_filter_not shotBy_iff
    · rw [di_retire, di_shootDie, if_pos rfl]
      exact mem_filter_not rangeShot_iff
    · rw [co_retire, co_shootDie, if_pos hp]
      exact mem_filter_not shotBy_iff
    · rw [co_retire, co_shootDie, if_neg hp]
    · rw [di_retire, di_shootDie, if_neg hd]
  · refine completes_trapped_of_body (dst := none) ((exec_shoot g a b s).trans (issuePriv_eq hctx)) ha (if_pos ⟨hb, hdie⟩) (by decide) ht

/-- Settles O29: each body at its branches; PHASE's toggle is out of the end-of-body test's sight. -/
theorem taskEndingProbesAndPhases : Obligations.TaskEndingProbesAndPhases := ⟨doneProbeAndPhint, taskEndAndPageAnswer, phaseAndShoot⟩

end Sys2Proof.Machine
end

section
/-! Commands to cores and the states of their service (R121, R377 to R379, R383). -/
namespace Sys2Proof.Machine
set_option Elab.async false
open Safety

/-! ### Commands -/

/-- One core has a new value, and nothing else of the package is changed. -/
theorem onlyCore_upCo (s : State) (f : Core → Core) : s.upCo s.cur f = { s with core := (s.upCo s.cur f).core } ∧
    (s.upCo s.cur f).co s.cur = f (s.co s.cur) ∧ ∀ q, q ≠ s.cur → (s.upCo s.cur f).co q = s.co q :=
  ⟨rfl, (upCo_get s s.cur f s.cur).trans (if_pos rfl), fun q hq => (upCo_get s s.cur f q).trans (if_neg hq)⟩

/-- What a command makes of its core where the core's state takes it. -/
theorem completes_command {i : Instr} {s : State} {x y : Core} {f : Core → Core} (hx : x = s.co s.cur) (hi : exec i s = .next (s.upCo s.cur f)) (hy : f x = y) :
    completes i s fun t => t = { s with core := t.core } ∧ t.co s.cur = y ∧ ∀ q, q ≠ s.cur → t.co q = s.co q := by
  subst hx
  obtain ⟨hs, hp, hother⟩ := onlyCore_upCo s f
  exact ⟨_, hi, hs, hp.trans hy, hother⟩

theorem drainCommand {s : State} : (((s.co s.cur).svc = .service ∧ residentBusy s s.cur = false) → cmdDrain s s.cur =
      s.upCo s.cur fun x => { x with svc := .draining, rej := false }) ∧
    (¬((s.co s.cur).svc = .service ∧ residentBusy s s.cur = false) → cmdDrain s s.cur = rejectCmd s s.cur) := by
  unfold cmdDrain
  simp only [Bool.not_eq_true']
  exact ⟨fun h => if_pos h, fun h => if_neg h⟩

theorem scanCommand {s : State} : (((s.co s.cur).svc = .held ∧ (s.co s.cur).zeroing = false) → cmdScan s s.cur = s.upCo s.cur fun x =>
      { x with svc := .scanning, rej := false, scanSeg := 0, scanRes := 1, scanFail := 0, scanSig := 0 }) ∧
    (¬((s.co s.cur).svc = .held ∧ (s.co s.cur).zeroing = false) → (s.co s.cur).preClaim = false → cmdScan s s.cur = rejectCmd s s.cur) ∧
    (¬((s.co s.cur).svc = .held ∧ (s.co s.cur).zeroing = false) → (s.co s.cur).preClaim = true → cmdScan s s.cur =
      rejectCmd (s.upCo s.cur fun x => { x with scanSeg := 0, scanRes := 4 }) s.cur) := by
  unfold cmdScan
  simp only [Bool.not_eq_true']
  exact ⟨fun h => if_pos h, fun h hpre => (if_neg h).trans (if_neg (by rw [hpre]; decide)), fun h hpre => (if_neg h).trans (if_pos hpre)⟩

theorem releaseCommand {s : State} : (((s.co s.cur).svc = .held ∧ (s.co s.cur).zeroing = false) → cmdRelease s s.cur =
      s.upCo s.cur fun x => { x with zeroing := true, rej := false }) ∧
    (¬((s.co s.cur).svc = .held ∧ (s.co s.cur).zeroing = false) → cmdRelease s s.cur = rejectCmd s s.cur) := by
  unfold cmdRelease
  simp only [Bool.not_eq_true']
  exact ⟨fun h => if_pos h, fun h => if_neg h⟩

/-- The states in which RETIRE takes a core out of service. -/
def Retirable (s : State) (x : Core) : Prop := (x.svc = .held ∨ x.svc = .spare) ∧ x.zeroing = false ∧ mapped s s.cur = false ∧ x.capmask = 0#64

theorem retireCommand {s : State} : (Retirable s (s.co s.cur) → cmdRetire s s.cur = s.upCo s.cur fun x => { x with svc := .retired, rej := false }) ∧
    (¬Retirable s (s.co s.cur) → cmdRetire s s.cur = rejectCmd s s.cur) := by
  unfold cmdRetire
  dsimp only
  simp only [Bool.not_eq_true']
  exact ⟨fun h => if_pos h, fun h => if_neg h⟩

theorem serviceCommands : Parts.ServiceCommands := by
  intro s p x hp hx
  subst hp
  have hreject (i : Instr) (hi : exec i s = .next (rejectCmd s s.cur)) := completes_command (y := { x with rej := true }) hx hi rfl
  refine ⟨fun i ok y h => ?_, fun hbad hpre => ?_⟩
  · simp only [List.mem_cons, Prod.mk.injEq, List.not_mem_nil, or_false] at h
    rcases h with ⟨rfl, rfl, rfl⟩ | ⟨rfl, rfl, rfl⟩ | ⟨rfl, rfl, rfl⟩ | ⟨rfl, rfl, rfl⟩
    · refine ⟨fun hok => completes_command hx (congrArg Host.Outcome.next (drainCommand.1 (hx ▸ hok))) rfl, fun hok _ => ?_⟩
      exact hreject .drain (congrArg Host.Outcome.next (drainCommand.2 (hx ▸ hok)))
    · refine ⟨fun hok => completes_command hx (congrArg Host.Outcome.next (scanCommand.1 (hx ▸ hok))) rfl, fun hok hpre => ?_⟩
      exact hreject .scan (congrArg Host.Outcome.next (scanCommand.2.1 (hx ▸ hok) (hx ▸ hpre rfl)))
    · refine ⟨fun hok => completes_command hx (congrArg Host.Outcome.next (releaseCommand.1 (hx ▸ hok))) rfl, fun hok _ => ?_⟩
      exact hreject .release (congrArg Host.Outcome.next (releaseCommand.2 (hx ▸ hok)))
    · refine ⟨fun hok => completes_command hx (congrArg Host.Outcome.next (retireCommand.1 (hx ▸ hok))) rfl, fun hok _ => ?_⟩
      exact hreject .retire (congrArg Host.Outcome.next (retireCommand.2 (hx ▸ hok)))
  · refine ⟨_, congrArg Host.Outcome.next (scanCommand.2.2 (hx ▸ hbad) (hx ▸ hpre)), rfl, ?_⟩
    refine ((upCo_get _ s.cur _ s.cur).trans (if_pos rfl)).trans ?_
    rw [upCo_get, if_pos rfl, hx]

/-! ### Zeroing -/

theorem endGrant_frame (s : State) (p : Nat) : (endGrant s p).core = s.core ∧ (endGrant s p).scal = s.scal ∧ (endGrant s p).mem = s.mem ∧
    (endGrant s p).ecc = s.ecc ∧ (endGrant s p).die = s.die ∧ (endGrant s p).cur = s.cur := by
  rw [endGrant_eq]
  exact ⟨rfl, rfl, rfl, rfl, rfl, rfl⟩

theorem co_zeroCore (s : State) (p q : Nat) : (zeroCore s p).co q = if q = p then (s.co p).zeroed else s.co q := by
  have hco (q : Nat) : (endGrant s p).co q = s.co q := congrArg (tget · q Core.reset) (endGrant_frame s p).1
  rw [← hco p, ← hco q]
  exact upCo_get (endGrant s p) p Core.zeroed q

theorem sc_zeroCore (s : State) (p q : Nat) : (zeroCore s p).sc q = if q = p then Scalar.reset else s.sc q := by
  have hsc (q : Nat) : (endGrant s p).sc q = s.sc q := congrArg (tget · q Scalar.reset) (endGrant_frame s p).2.1
  rw [← hsc q]
  exact putSc_get ((endGrant s p).upCo p Core.zeroed) p Scalar.reset q

theorem mem_zeroCore (s : State) (p : Nat) : (zeroCore s p).mem = zeroRange s.mem (spKey p 0) (spKey p 0x40_0000) := by
  rw [← (endGrant_frame s p).2.2.1]
  rfl

/-- The core of a scratchpad that has been zeroed, and the memory beside it. -/
theorem zeroCore_memory (s : State) (p : Nat) : (∀ o, o < 0x40_0000 → memGet (zeroCore s p).mem (spKey p o) = 0#8) ∧
    ∀ k, k < spKey p 0 ∨ spKey p 0 + 0x40_0000 ≤ k → memGet (zeroCore s p).mem k = memGet s.mem k := by
  rw [mem_zeroCore]
  refine ⟨fun o ho => ?_, fun k hk => ?_⟩
  · rw [memGet_zeroRange, if_pos]
    unfold spKey
    omega
  · rw [memGet_zeroRange, if_neg]
    unfold spKey at *
    omega

/-- What the zeroing of the subject core and a change of its state leave. -/
theorem zeroed_upCo {s t : State} (f : Core → Core) (hcore : t.core = ((zeroCore s s.cur).upCo s.cur f).core) (hscal : t.scal = (zeroCore s s.cur).scal)
    (hmem : t.mem = (zeroCore s s.cur).mem) : t.co s.cur = f (s.co s.cur).zeroed ∧ t.sc s.cur = Scalar.reset ∧
    (∀ o, o < 0x40_0000 → memGet t.mem (spKey s.cur o) = 0#8) ∧ memBut s t (spKey s.cur 0) 0x40_0000 ∧
    ∀ q, q ≠ s.cur → t.co q = s.co q ∧ t.sc q = s.sc q := by
  have hco (q : Nat) : t.co q = ((zeroCore s s.cur).upCo s.cur f).co q := congrArg (tget · q Core.reset) hcore
  have hsc (q : Nat) : t.sc q = (zeroCore s s.cur).sc q := congrArg (tget · q Scalar.reset) hscal
  obtain ⟨hzero, hkept⟩ := zeroCore_memory s s.cur
  unfold memBut
  rw [hmem]
  refine ⟨?_, ?_, hzero, hkept, fun q hq => ⟨?_, ?_⟩⟩
  · rw [hco, upCo_get, if_pos rfl, co_zeroCore, if_pos rfl]
  · rw [hsc, sc_zeroCore, if_pos rfl]
  · rw [hco, upCo_get, if_neg hq, co_zeroCore, if_neg hq]
  · rw [hsc, sc_zeroCore, if_neg hq]

theorem noteUp_frame (s : State) : (noteUp s).core = s.core ∧ (noteUp s).scal = s.scal ∧ (noteUp s).mem = s.mem := ⟨rfl, rfl, rfl⟩

theorem execCoreZeroingDone_zeroing {s : State} (h : (s.co s.cur).zeroing = true) : execCoreZeroingDone s =
    .next (noteUp ((zeroCore s s.cur).upCo s.cur fun x => { x with zeroing := false, svc := if mapped s s.cur then .service else .spare })) := by
  unfold execCoreZeroingDone
  rw [if_pos h]

/-! ### Scans -/

theorem holdsGrant_endGrant (s : State) (p : Nat) : holdsGrant (endGrant s p) p = false := by
  unfold endGrant
  split_ifs with h
  · unfold holdsGrant
    rw [putQd_get, if_pos rfl]
    rfl
  · exact Bool.eq_false_iff.mpr h

theorem endGrant_of_free {s : State} {p : Nat} (h : holdsGrant s p = false) : endGrant s p = s := if_neg (by rw [h]; decide)

/-- A core whose segment in progress has ended. -/
def segmentEnded (x : Core) (fail : BitVec 48) (diff : Word) : Core :=
  let bad := fail.setWidth 64 &&& segClasses x.scanSeg.toNat
  let y := { x with scanFail := x.scanFail ||| bad, scanSig := if x.scanFail = 0#64 ∧ bad ≠ 0#64 then diff else x.scanSig, scanSeg := x.scanSeg + 1 }
  if x.scanSeg = 7#4 then { y with svc := .held, scanRes := if y.scanFail = 0#64 then 2 else 3 } else y

theorem segmentEnded_fields (x : Core) (fail : BitVec 48) (diff : Word) :
    (segmentEnded x fail diff).scanSeg = x.scanSeg + 1 ∧
    (segmentEnded x fail diff).scanFail = x.scanFail ||| (fail.setWidth 64 &&& segClasses x.scanSeg.toNat) ∧
    (segmentEnded x fail diff).scanSig = (if x.scanFail = 0#64 ∧ fail.setWidth 64 &&& segClasses x.scanSeg.toNat ≠ 0#64 then diff else x.scanSig) ∧
    (x.scanSeg ≠ 7#4 → (segmentEnded x fail diff).svc = x.svc ∧ (segmentEnded x fail diff).scanRes = x.scanRes) ∧
    (x.scanSeg = 7#4 → (segmentEnded x fail diff).svc = .held ∧
      (segmentEnded x fail diff).scanRes = if (segmentEnded x fail diff).scanFail = 0#64 then 2 else 3) := by
  unfold segmentEnded
  dsimp only
  by_cases h : x.scanSeg = 7#4
  · rw [if_pos h]
    exact ⟨rfl, rfl, rfl, fun hne => absurd h hne, fun _ => ⟨rfl, rfl⟩⟩
  · rw [if_neg h]
    exact ⟨rfl, rfl, rfl, fun _ => ⟨rfl, rfl⟩, fun heq => absurd heq h⟩

theorem getLsbD_failing (x : Word) (fail : BitVec 48) (m : Word) (b : Nat) (hb : b < 64) :
    (x ||| (fail.setWidth 64 &&& m)).getLsbD b = true ↔ x.getLsbD b = true ∨ fail.getLsbD b = true ∧ m.getLsbD b = true := by
  rw [BitVec.getLsbD_or, BitVec.getLsbD_and, BitVec.getLsbD_setWidth, Bool.or_eq_true, Bool.and_eq_true, decide_eq_true hb, Bool.true_and]

theorem scanning6_iff (x : Core) : scanning6 x = true ↔ x.svc = .scanning ∧ x.scanSeg = 6#4 := by
  rw [scanning6, Bool.and_eq_true, beq_iff_eq, beq_iff_eq]

theorem execScanComplete_idle {s : State} (fail : BitVec 48) (diff : Word)
    (h : (s.co s.cur).svc ≠ .scanning ∨ (s.co s.cur).scanSeg = 6#4 ∧ holdsGrant s s.cur = false) : execScanComplete fail diff s = .next s := by
  refine congrArg Host.Outcome.next (if_pos ?_)
  by_cases hsvc : (s.co s.cur).svc = .scanning
  · obtain ⟨hseg, hgrant⟩ := h.resolve_left (not_not_intro hsvc)
    exact .inr ⟨(scanning6_iff _).mpr ⟨hsvc, hseg⟩, by rw [hgrant]; rfl⟩
  · exact .inl hsvc

theorem execScanComplete_ends {s : State} (fail : BitVec 48) (diff : Word) (hsvc : (s.co s.cur).svc = .scanning)
    (h : (s.co s.cur).scanSeg ≠ 6#4 ∨ holdsGrant s s.cur = true) : execScanComplete fail diff s =
      .next ((endGrant s s.cur).upCo s.cur fun x => segmentEnded x fail diff) := by
  refine congrArg Host.Outcome.next (if_neg ?_)
  rw [scanning6_iff]
  rintro (hne | ⟨⟨-, hseg⟩, hgrant⟩)
  · exact hne hsvc
  · rw [h.resolve_left (not_not_intro hseg)] at hgrant
    exact absurd hgrant (by decide)

theorem serviceTransitions : Parts.ServiceTransitions := by
  intro s p x hp hx
  subst hp hx
  refine ⟨fun hsvc htask => ?_, fun h => ?_, fun hzero => ?_, fun hzero => ?_, fun fail diff => ⟨fun h => ?_, fun hsvc h => ?_⟩⟩
  · obtain ⟨hco, hsc, hclear, hkept, hother⟩ := zeroed_upCo (fun x => { x with svc := .held }) rfl (upCo_scal (zeroCore s s.cur) s.cur _) (upCo_mem _ _ _)
    refine ⟨_, congrArg Host.Outcome.next (if_pos ⟨hsvc, htask⟩), ?_⟩
    beta_reduce
    rw [hco]
    exact ⟨rfl, rfl, rfl, rfl, hsc, hclear, hkept, hother⟩
  · exact ⟨_, congrArg Host.Outcome.next (if_neg (not_and_or.mpr h)), rfl⟩
  · obtain ⟨hncore, hnscal, hnmem⟩ := noteUp_frame
      ((zeroCore s s.cur).upCo s.cur fun x => { x with zeroing := false, svc := if mapped s s.cur then .service else .spare })
    obtain ⟨hco, hsc, hclear, hkept, hother⟩ := zeroed_upCo _ hncore (hnscal.trans (upCo_scal _ _ _)) (hnmem.trans (upCo_mem _ _ _))
    refine ⟨_, execCoreZeroingDone_zeroing hzero, ?_⟩
    beta_reduce
    rw [hco]
    exact ⟨rfl, rfl, rfl, hsc, hclear, hkept, hother⟩
  · exact ⟨_, congrArg Host.Outcome.next (if_neg (by rw [hzero]; decide)), rfl⟩
  · exact ⟨_, execScanComplete_idle fail diff h, rfl⟩
  · refine ⟨_, execScanComplete_ends fail diff hsvc h, ?_⟩
    have hcore (q : Nat) : (endGrant s s.cur).co q = s.co q := congrArg (tget · q Core.reset) (endGrant_frame s s.cur).1
    have hco : ((endGrant s s.cur).upCo s.cur fun x => segmentEnded x fail diff).co s.cur = segmentEnded (s.co s.cur) fail diff := by
      rw [upCo_get, if_pos rfl, hcore]
    obtain ⟨hseg, hfail, hsig, hmore, hlast⟩ := segmentEnded_fields (s.co s.cur) fail diff
    beta_reduce
    rw [hco]
    refine ⟨?_, holdsGrant_endGrant s s.cur, fun hfree => ?_, fun q hq => ?_, hseg, fun b hb => ?_, ?_, fun hne => ?_, hlast⟩
    · rw [endGrant_eq]
      rfl
    · rw [endGrant_of_free hfree]
      rfl
    · rw [upCo_get, if_neg hq, hcore]
    · rw [hfail]
      exact getLsbD_failing _ _ _ _ hb
    · rw [hsig, hfail]
      refine if_congr (and_congr_right fun hnone => ?_) rfl rfl
      rw [hnone, BitVec.zero_or]
    · obtain ⟨hsvc', hres⟩ := hmore hne
      exact ⟨hsvc'.trans hsvc, hres⟩

/-- Settles O49: a command by its condition, a zeroing by what it leaves of core, stream and scratchpad, a segment by its core's fields. -/
theorem coreService : Obligations.CoreService := ⟨serviceCommands, serviceTransitions⟩

end Sys2Proof.Machine
end

section
/-! Stores of the package's own tables to a line that an agent watches (R96): the agent notes them, so that more than memory changes. -/
namespace Sys2Proof.Machine
set_option Elab.async false
open Safety

/-- The state in which agent 0 watches a line that has not been written, and no other agent does anything. -/
def watching (s : State) (line : Nat) : State := { s with scal := [(0, { Scalar.reset with watch := some (line, false) })] }

/-- What agent 0 watches once a step has gone on. -/
def watchAfter (o : Out) : Option (Nat × Bool) :=
  match o with
  | .next t => (t.sc 0).watch
  | _ => none

/-- A step that writes the watched line does not leave the streams as they were. -/
theorem scal_ne_of_watched {s t : State} {line : Nat} {o : Out} (hs : s.scal = (watching s line).scal) (ht : o = .next t)
    (hw : watchAfter o = some (line, true)) : t.scal ≠ s.scal := by
  subst ht
  intro hscal
  have hsame : (t.sc 0).watch = (s.sc 0).watch := congrArg (fun l => (tget l 0 Scalar.reset).watch) hscal
  have hbefore : (s.sc 0).watch = some (line, false) := congrArg (fun l => (tget l 0 Scalar.reset).watch) hs
  have hafter : (t.sc 0).watch = some (line, true) := hw
  have hboth : some (line, true) = some (line, false) := hafter.symm.trans (hsame.trans hbefore)
  cases hboth

/-! ### The request for an attestation report -/

/-- A package that runs, in which agent 0 watches the line of ATTCTL. -/
def attWatched : State := watching { State.reset with inReset := false } (hostKey 0x100)

/-- Refutes O52: a request for a report is a store to ATTCTL, and the agent that watches its line notes it (`attWatched`, the value 1). -/
theorem not_alarmsAndAttestation : ¬Obligations.AlarmsAndAttestation := by
  rintro ⟨-, hatt⟩
  obtain ⟨t, ht, heq, -⟩ := (hatt attWatched 1#64).2.1 rfl (by decide)
  have hscal : t.scal = attWatched.scal := congrArg (fun t => t.scal) heq
  exact scal_ne_of_watched rfl ht (by decide +kernel) hscal

/-! ### The doorbell of a host ring -/

/-- A package in which agent 0 watches the first line of host ring 0's registers. -/
def ringWatched : State := watching { State.reset with cur := 0 } (ringKey 0 0)

/-- Refutes O43: a doorbell is a store to RTAIL, and the agent that watches its line notes it (`ringWatched`, the value 0). -/
theorem not_hostPort : ¬Obligations.HostPort := by
  rintro ⟨hring, -, -⟩
  obtain ⟨t, ht, -, -, heq, -⟩ := (hring ringWatched 0#64 0 rfl (by decide)).1
  have hscal : t.scal = ringWatched.scal := congrArg (fun t => t.scal) heq
  exact scal_ne_of_watched rfl ht (by decide +kernel) hscal

/-! ### A migration that is refused -/

/-- A request to move a range of no bytes waits; agent 0 watches the line of the request block. -/
def moveWatched : State := watching (({ State.reset with acts := [.migrate 0] } : State).put64 (migKey 0 0) (2 ^ 62)) (migKey 0 0)

/-- Refutes O46: the refusal is a store of FAIL to the request block, and the agent that watches its line notes it (`moveWatched`). -/
theorem not_migrations : ¬Obligations.Migrations := by
  rintro ⟨-, hjudge, -⟩
  have hnext : nextAct moveWatched (fun a => ∃ e, a = .migrate e) (.migrate 0) [] := ⟨[], [], rfl, rfl, ⟨0, rfl⟩, fun _ h => nomatch h⟩
  obtain ⟨t, ht, heq, -⟩ := (hjudge moveWatched 0 [] hnext).2 (by decide +kernel) (by decide +kernel)
  have hscal : t.scal = moveWatched.scal := congrArg (fun t => t.scal) heq
  exact scal_ne_of_watched rfl ht (by decide +kernel) hscal

/-! ### The creation of a context that breaks a rule -/

/-- Context 3, without a resident core, is to be created; agent 0 watches the line of its entry. -/
def createWatched : State := watching { State.reset with acts := [.ctxCreate 3] } (ctxKey 3 0)

/-- Refutes O47: the refusal is a store of BAD to the context's entry, and the agent that watches its line notes it (`createWatched`). -/
theorem not_contextCreationAndHalt : ¬Obligations.ContextCreationAndHalt := by
  rintro ⟨hcreate, -, -⟩
  have hnext : nextAct createWatched (fun a => ∃ e, a = .ctxCreate e) (.ctxCreate 3) [] := ⟨[], [], rfl, rfl, ⟨3, rfl⟩, fun _ h => nomatch h⟩
  obtain ⟨t, ht, -, -, -, heq, -⟩ := (hcreate createWatched _ 3 [] hnext rfl).2.1 (by decide +kernel) (by decide +kernel)
  have hscal : t.scal = createWatched.scal := congrArg (fun t => t.scal) heq
  exact scal_ne_of_watched rfl ht (by decide +kernel) hscal

/-! ### The zeroing of a context -/

/-- Context 3 is DRAINING, with nothing left to drain; agent 0 watches the line of its entry. -/
def zeroingWatched : State := watching (({ State.reset with cur := 3 } : State).put64 (ctxKey 3 0) (3 * 2 ^ 61)) (ctxKey 3 0)

/-- Refutes O48: ZEROING is stored to the context's entry, and the agent that watches its line notes it (`zeroingWatched`). -/
theorem not_watchdogsAndContextEnd : ¬Obligations.WatchdogsAndContextEnd := by
  rintro ⟨-, -, hend⟩
  obtain ⟨t, ht, -, heq, -⟩ := (hend zeroingWatched 3 rfl (by decide)).2.1 (by decide +kernel) (by decide +kernel)
  have hscal : t.scal = zeroingWatched.scal := congrArg (fun t => t.scal) heq
  exact scal_ne_of_watched rfl ht (by decide +kernel) hscal

/-! ### A host's request for a firmware routine -/

/-- The Crossroads die's image names routine 2, and none runs; agent 0 watches the line of the die's request block. -/
def routineWatched : State := watching (State.reset.putDi 8 { State.reset.di 8 with started := true, routines := [(2, 0x200)] }) (routineKey 8)

/-- Refutes O50: GO sets BUSY by a store to the request block, and the agent that watches its line notes it (`routineWatched`, GO with number 2). -/
theorem not_scrubbingAndRoutines : ¬Obligations.ScrubbingAndRoutines := by
  rintro ⟨-, hgo, -⟩
  obtain ⟨t, ht, heq, -⟩ := (hgo routineWatched 8 _ 0x8000_0000_0000_0002#64 (by decide) (by decide +kernel) rfl (by decide)).2 (by decide +kernel)
    ⟨(2, 0x200), by decide +kernel, by decide⟩
  have hscal : t.scal = routineWatched.scal := congrArg (fun t => t.scal) heq
  exact scal_ne_of_watched rfl ht (by decide +kernel) hscal

/-! ### The load of a tree -/

/-- Entry 0 of context 0's tree table, all zero, is to be loaded; agent 0 watches its line. -/
def treeWatched : State := watching { State.reset with acts := [.tree 0 0] } (treeKey 0 0 0)

/-- Refutes O53: BAD is stored to the tree's entry, and the agent that watches its line notes it (`treeWatched`). -/
theorem not_tablesAndTimeouts : ¬Obligations.TablesAndTimeouts := by
  rintro ⟨hload, -, -⟩
  have hnext : nextAct treeWatched (fun a => ∃ e i, a = .tree e i) (.tree 0 0) [] := ⟨[], [], rfl, rfl, ⟨0, 0, rfl⟩, fun _ h => nomatch h⟩
  obtain ⟨t, ht, heq, -⟩ := ((hload treeWatched _ _ 0 0 [] rfl rfl).2.1 hnext (by decide +kernel)).2 (by decide +kernel)
  have hscal : t.scal = treeWatched.scal := congrArg (fun t => t.scal) heq
  exact scal_ne_of_watched rfl ht (by decide +kernel) hscal

/-! ### The load of an itinerary -/

/-- Itinerary 0, all zero, is to be loaded; agent 0 watches its first line. -/
def itineraryWatched : State := watching { State.reset with acts := [.itinerary 0] } (itinKey 0 0)

/-- Refutes O54: what comes of the load is stored to the itinerary, and the agent that watches its line notes it (`itineraryWatched`). -/
theorem not_itinerariesAndConversations : ¬Obligations.ItinerariesAndConversations := by
  rintro ⟨hopen, -⟩
  have hnext : nextAct itineraryWatched (fun a => ∃ e, a = .itinerary e) (.itinerary 0) [] := ⟨[], [], rfl, rfl, ⟨0, rfl⟩, fun _ h => nomatch h⟩
  obtain ⟨t, ht, heq, -⟩ := (hopen itineraryWatched 0).1 _ [] rfl hnext
  have hscal : t.scal = itineraryWatched.scal := congrArg (fun t => t.scal) heq
  exact scal_ne_of_watched rfl ht (by decide +kernel) hscal

/-! ### The release of reset -/

/-- An image without code or routines, of release 5, whose public key is P-256's base point, signed with the secret number 1. -/
def plainImage : Image where
  keyX := 0x6B17D1F2_E12C4247_F8BCE6E5_63A440F2_77037D81_2DEB33A0_F4A13945_D898C296
  keyY := 0x4FE342E2_FE1A7F9B_8EE7EB4A_7C0F9E16_2BCE3357_6B315ECE_CBB64068_37BF51F5
  sigR := 0x6B17D1F2_E12C4247_F8BCE6E5_63A440F2_77037D81_2DEB33A0_F4A13945_D898C296
  sigS := 0x0181FAC7_31424575_DB37FF46_42EEDC09_70DC8AAD_FD867A15_4F5C9565_F87E32E0
  release := 5
  code := []
  routines := []

/-- A package in reset with the digest of that key fused; agent 0 watches the line of context 1's entry. -/
def resetWatched : State := 
  watching { State.reset with fuseKey := some 0xD875DB7D_EF232236_AEC738C6_B0BB3E80_142F5D0F_D8F4DF24_FED6EEF5_CBB50D9F, fuseMin := some 5 } (ctxKey 1 0)

/-- Refutes O51: the context table is stored at the release of reset, and the agent that watches a line of it notes it (`resetWatched`, `plainImage`). -/
theorem not_bringUp : ¬Obligations.BringUp := by
  rintro ⟨hrelease, -⟩
  obtain ⟨t, ht, heq, -⟩ := (hrelease resetWatched 1#2 0#4 plainImage).2.2 rfl rfl (by decide) (by decide +kernel)
  have hscal : t.scal = resetWatched.scal := congrArg (fun t => t.scal) heq
  exact scal_ne_of_watched rfl ht (by decide +kernel) hscal

/-! ### An increment of a milestone

The statement lets the streams note the store to COUNT, but not the memory side that is scrubbing the milestone's line (R416). -/

/-- Which lines a scrub of die 0 has corrected, and whether each was written since, once a step has gone on. -/
def scrubbedAfter (o : Out) : List (Nat × Bool) :=
  match o with
  | .next t => (t.di 0).scrubbed
  | _ => []

/-- An increment of 1 of context 3's milestone 0 is on its way, while die 0 scrubs the line of its COUNT. -/
def milestoneScrubbed : State :=
  { State.reset.putDi 0 { State.reset.di 0 with scrubbed := [(msKey 0, false)] } with
    incs := [⟨3, 0, 1, none, none⟩], allots := [⟨3, .milestone, 0, 16⟩] }

/-- Refutes O41: the new COUNT is a store to the milestone's line, and the scrub that has read the line notes it (`milestoneScrubbed`). -/
theorem not_milestonesAndOperations : ¬Obligations.MilestonesAndOperations := by
  rintro ⟨hincs, -⟩
  obtain ⟨t, ht, heq, -⟩ := ((hincs milestoneScrubbed 0 3 0 1#64 none none _ _ _ _ rfl (by decide) rfl rfl rfl rfl).2 (.inl rfl)).2.1 rfl
    (by decide +kernel)
  have hdie : (t.di 0).scrubbed = [(msKey 0, false)] := congrArg (fun t => (t.di 0).scrubbed) heq
  have hafter : scrubbedAfter (exec (.milestoneIncrement 0) milestoneScrubbed) = [(msKey 0, true)] := by decide +kernel
  rw [ht] at hafter
  cases hdie.symm.trans hafter

end Sys2Proof.Machine
end

section
/-! More statements that are not true of every state: each theorem writes out a state and the clause that fails there. -/
namespace Sys2Proof.Machine
set_option Elab.async false
open Safety

/-- What a part of the state is once a step has gone on. -/
def after {α : Type} (f : State → α) (o : Out) : Option α :=
  match o with
  | .next t => some (f t)
  | _ => none

/-- A part of the state that a step leads to. -/
theorem eq_of_after {α : Type} {f : State → α} {o : Out} {t : State} {v : α} (ht : o = .next t) (hv : after f o = some v) : f t = v := by
  subst ht
  exact Option.some.inj hv

/-! ### A retransmission -/

/-- A packet of context 0 on connection 0 that was sent at time 0 and has timed out. -/
def sentTx : Tx :=
  { ctx := 0, conn := 0,
    pkt := { peerHi := 0, peerLo := 0, job := 0, mode := 0, op := 1, psn := 0, msg := 0, off := 0, len := 0, tag := 0, key := 0, roff := 0, ecn := false,
             sec := false, data := [] },
    origin := .other, ms := none, sent := true, tries := 0, sentAt := 0, rto := 0 }

/-- That packet is outstanding; agent 0 watches the line of the connection's window. -/
def retransmitWatched : State := watching { State.reset with cur := 0, tx := [sentTx] } (connKey 0 0 0)

/-- Refutes O40: halving the window is a store to the connection's entry, and the agent that watches its line notes it (`retransmitWatched`). -/
theorem not_deliveryAndRetransmission : ¬Obligations.DeliveryAndRetransmission := by
  rintro ⟨-, htimeout⟩
  have honly : ∀ u ∈ retransmitWatched.tx, u.ctx = retransmitWatched.cur → u.conn = 0 → u.pkt.mode = 0 → u.pkt.psn = 0 → u = sentTx :=
    fun u hu _ _ _ _ => List.mem_singleton.mp hu
  obtain ⟨t, ht, -, -, hsc⟩ :=
    (htimeout retransmitWatched 0 0 0 sentTx (List.mem_singleton.mpr rfl) rfl rfl rfl rfl rfl honly).2.1 (by decide) (by decide)
  have hafter : (t.sc 0).watch = some (connKey 0 0 0, true) :=
    eq_of_after (f := fun t => (t.sc 0).watch) ht (by decide +kernel)
  rw [hsc 0] at hafter
  exact absurd hafter (by decide +kernel)

/-! ### A suspended team that is discarded -/

/-- A team of one task that was suspended at time 0 and that no die can take. -/
def hopelessTeam : Team := { freshTeam 0 0 0 0 [0] none 0 with resen := true, refit := true, suspended := some 0 }

/-- Context 0 is LIVE, team 0 is that team, and its task has bound role 0 of conversation 0. -/
def discardBound : State :=
  { (State.reset.put64 (ctxKey 0 0) (2 ^ 61)).put64 (convKey 0 4) (2 ^ 61) with
    cur := 0, team := [(0, hopelessTeam)], convs := [(0, { rows := [], binds := [{ role := 0, task := 0, reg := 0, base := 0, len := 0, sem := 0 }] })] }

/-- Refutes O45: when a suspended team is discarded the bindings of its tasks end, which clears BND in the conversation object (`discardBound`). -/
theorem not_teams : ¬Obligations.Teams := by
  rintro ⟨-, -, hrestore⟩
  obtain ⟨t, ht, -, -, hmem, -⟩ :=
    (hrestore discardBound hopelessTeam 0 rfl rfl rfl (by decide +kernel) rfl).1 (by decide +kernel)
  have hafter : roleWord t 0 0 = 0 := eq_of_after (f := fun t => roleWord t 0 0) ht (by decide +kernel)
  have hbefore : roleWord discardBound 0 0 = 2 ^ 61 := by decide +kernel
  have hsame : roleWord t 0 0 = roleWord discardBound 0 0 := congrArg (fun m => rdN m (convKey 0 4) 8) hmem
  omega

/-! ### A send with two transitions and no room in the buffers -/

/-- The request of agent 0 to send a message of role 0 and kind 1, one byte long, in conversation 0. -/
def twoWaySend : ConvIn :=
  { agent := some 0, later := false, reg := 0, slot := 0, ms := none, ctx := 0, conn := 0, pkt := convPacket 3 0 (reqTag 0 1 0 true) 1 0 }

/-- Conversation 0 of context 0 is open; its state has two transitions for role 0 and kind 1, the first to role 0, which is held here, the second to
role 1, which is held elsewhere; a message to the package itself fills the buffers. -/
def sendFull : State :=
  { (State.reset.put64 (convKey 0 0) (2 ^ 60)).put64 (convKey 0 5) (2 ^ 62) with
    cur := 0, convIn := [twoWaySend], allots := [⟨0, .conversation, 0, 1⟩],
    convs := [(0, { rows := [[2 ^ 31 + 2 ^ 12, 2 ^ 31 + 2 ^ 20 + 2 ^ 12]], binds := [] })],
    own := [{ ctx := 0, lane := 0, mode := 0, op := 1, len := 2 ^ 28, data := 0, tag := 0, origin := .other, ms := none }] }

/-- Refutes O26: of two transitions for the message the home takes the first, but it waits for room if the receiver of either is on another package
(`sendFull`). -/
theorem not_verdictsAndPlacement : ¬Obligations.VerdictsAndPlacement := by
  rintro ⟨hsend, -, -⟩
  have hwhole : nothingBroken sendFull := by
    intro i hi
    rw [List.mem_singleton.mp hi]
    exact ⟨by decide +kernel, .inl (by decide)⟩
  obtain ⟨t, ht, -, -, hconvIn, -⟩ :=
    (hsend sendFull 0 0 0 twoWaySend rfl hwhole (by decide +kernel) rfl rfl (by decide +kernel) (by decide +kernel)).1 (2 ^ 31 + 2 ^ 12)
      (by decide +kernel) (by decide +kernel)
  have hafter : t.convIn.length = 1 := eq_of_after (f := fun t => t.convIn.length) ht (by decide +kernel)
  rw [hconvIn] at hafter
  exact absurd hafter (by decide)

/-! ### An invalid vector record while the matrix array is granted -/

/-- Core 0 has a vector queue of one record that has not started, and the grant of its quad's matrix array. -/
def invalidGranted : State :=
  { (State.reset.putCo 0 { Core.reset with vq := { Queue.reset with count := 16, tail := 1 } }).putQd 0 { State.reset.qd 0 with grant := some 0 } with
    cur := 0, curq := 0 }

/-- Refutes O32: an invalid record of the vector queue leaves the grant of the core's matrix queue (`invalidGranted`, a VLD whose words are zero). -/
theorem not_recordGatesAndOrder : ¬Obligations.RecordGatesAndOrder := by
  rintro ⟨hgates, -⟩
  obtain ⟨-, -, -, hnext⟩ :=
    hgates invalidGranted (.vld (splitRec 0)) 0#4 1#8 (splitRec 0) 0 0 1 _ _ rfl (by decide) rfl rfl rfl rfl rfl (by decide +kernel)
  obtain ⟨t, ht, -, -, -, -, -, hgrant, -⟩ :=
    (hnext 0#32 (by decide +kernel) (by decide +kernel) (by decide +kernel) (fun _ => by decide +kernel) _ rfl).1 (by decide +kernel)
  have hafter : holdsGrant t 0 = true := eq_of_after (f := fun t => holdsGrant t 0) ht (by decide +kernel)
  rw [hgrant] at hafter
  cases hafter

/-! ### A flush that opens its connection -/

/-- An NFLUSH of one issue whose descriptor stands at 0x100 of the scratchpad. -/
def flushRec : Rec :=
  { splitRec 0 with n0 := 1, n1 := 1, n2 := 1, n3 := 1, b := { (splitRec 0).b with base := 0x100, space := 1 } }

/-- Core 0's copy queue holds that record alone; its descriptor names connection 0 of context 0, which is valid and not open; agent 0 watches the line of
the connection's entry. -/
def flushWatched : State :=
  watching
    { ((State.reset.put64 (connKey 0 0 0) (3 * 2 ^ 62)).putStore (spKey 0 0x100) 8 8).putCo 0
        { Core.reset with capmask := ~~~0, cq := { Queue.reset with count := 16, tail := 1 } } with
      cur := 0, curq := 2 }
    (connKey 0 0 0)

theorem begins_flushWatched : begins flushWatched 2 0x23 flushRec 0 := by
  unfold begins
  and_intros <;> decide +kernel

/-- Refutes O38: the first packet on a connection opens it by stores to its entry, and the agent that watches its line notes them (`flushWatched`). -/
theorem not_networkRecordResults : ¬Obligations.NetworkRecordResults := by
  intro h
  have hnone : outgoingDistinct flushWatched (stream flushWatched).ctx.toNat 0 := ⟨List.Pairwise.nil, fun _ hu => nomatch hu⟩
  have hmem : (Instr.nflush flushRec, 0x23) ∈
      [(Instr.nsend flushRec, 0x20), (.nwrite flushRec, 0x21), (.nread flushRec, 0x22), (.nflush flushRec, 0x23)] := by simp
  obtain ⟨t, ht, -, hsc⟩ :=
    ((h flushWatched flushRec 0 (.nflush flushRec) 0x23 ⟨0, 0, 8, 0, 0, none⟩ hmem (by unfold oneIssue; decide) rfl begins_flushWatched
      (by decide +kernel)).2.1 (by decide) (by decide +kernel) hnone).2.2 rfl
  have hafter : (t.sc 0).watch = some (connKey 0 0 0, true) := eq_of_after (f := fun t => (t.sc 0).watch) ht (by decide +kernel)
  rw [hsc 0] at hafter
  exact absurd hafter (by decide +kernel)

/-! ### A message to the package itself -/

/-- A one-byte message of context 0 to the package itself. -/
def byteMsg : OwnMsg := { ctx := 0, lane := 0, mode := 0, op := 1, len := 1, data := 0, tag := 0, origin := .other, ms := none }

/-- Word 0 of a valid match entry of context 0 for a connection and an operation. -/
def entryWord0 (conn op : Nat) : Nat := 2 ^ 63 + conn * 2 ^ 36 + op * 2 ^ 28

/-- A package whose context 0 is LIVE with core 0 as its resident, and whose match entry 0x80000 lands on that core's scratchpad: its words 0, 2 and 5. -/
def landing (w0 w2 w5 : Nat) : State :=
  { ((((State.reset.put64 (ctxKey 0 0) (2 ^ 61)).put64 (winKey 0x200_0000) w0).put64 (winKey 0x200_0010) w2).put64 (winKey 0x200_0018) (2 ^ 56)).put64
      (winKey 0x200_0028) w5 with
    cur := 0, ctxs := [(0, { State.reset.cx 0 with residents := [0] })] }

/-- That message is on its way, and the entry takes it; agent 0 watches the line of the context's table status. -/
def ownWatched : State := watching { landing (entryWord0 0xF_FFFF 1) 0 1 with own := [byteMsg] } (cwinKey 0 0x1A00_0000)

/-- Refutes O24: a message in arrival counts in INFLIGHT, a store to the table status that the agent which watches its line notes (`ownWatched`). -/
theorem not_spawnAndMsend : ¬Obligations.SpawnAndMsend := by
  rintro ⟨-, -, hown⟩
  obtain ⟨t, ht, -, -, -, -, -, -, hsc⟩ :=
    hown ownWatched byteMsg 0x80000 (entryLine ownWatched 0x80000) 0 rfl rfl rfl rfl (by decide +kernel) (by decide +kernel) (by decide) (.inl rfl) rfl
      (by decide +kernel) (by decide) (by decide +kernel) (by decide +kernel) (by decide +kernel) (by decide +kernel) (by decide)
  have hafter : (t.sc 0).watch = some (cwinKey 0 0x1A00_0000, true) :=
    eq_of_after (f := fun t => (t.sc 0).watch) ht (by decide +kernel)
  rw [hsc 0] at hafter
  exact absurd hafter (by decide +kernel)

/-! ### An RMA read that finds the buffers full -/

/-- An RMA read of one byte. -/
def byteRead : Packet :=
  { peerHi := 0, peerLo := 0, job := 0, mode := 0, op := 7, psn := 0, msg := 0, off := 0, len := 1, tag := 0, key := 0, roff := 0, ecn := false,
    sec := false, data := [] }

/-- Connection 0 of context 0 claims that packet and its key entry serves it, but a message to the package itself fills the buffers. -/
def readFull : State :=
  { (landing (entryWord0 0 7) 1 0).put64 (connKey 0 0 0) (3 * 2 ^ 62) with own := [{ byteMsg with len := 2 ^ 28 }] }

theorem reaches_readFull : reaches readFull 0 0 byteRead := by
  unfold reaches
  and_intros <;> decide +kernel

/-- Refutes O39: a read whose reply finds no room in the buffers is dropped without an acknowledgement (`readFull`). -/
theorem not_arrivals : ¬Obligations.Arrivals := by
  rintro ⟨-, hrma⟩
  have hquiet : quiet readFull 0 0 := by unfold quiet; decide +kernel
  have hnew : ¬duplicate readFull 0 0 byteRead := by unfold duplicate; decide +kernel
  have hnone : outgoingDistinct readFull 0 0 := ⟨List.Pairwise.nil, fun _ hu => nomatch hu⟩
  obtain ⟨t, ht, -, hout⟩ :=
    ((hrma readFull byteRead 0 0 reaches_readFull hquiet hnew rfl (by decide +kernel) (by decide)).2.1 rfl).2 0x80000 (entryLine readFull 0x80000) 0
      (by decide +kernel) (by decide +kernel) (by decide +kernel) rfl hnone
  have hafter : t.out.length = 0 := eq_of_after (f := fun t => t.out.length) ht (by decide +kernel)
  rw [hout] at hafter
  exact absurd hafter (by decide)

end Sys2Proof.Machine
end

section
/-! Requests of tasks to the home of a conversation (R28, R104, R105, R356, R358). -/
namespace Sys2Proof.Machine
set_option Elab.async false
open Safety

/-! ### What the sending instructions read first -/

theorem localBad_of_no_error {s : State} (h : s.ecc = []) (ea w : Nat) : localBad s ea w = false := by
  unfold localBad
  rw [spBad_of_no_error h, Bool.and_false]

theorem withLocal_of_no_error {s : State} (h : s.ecc = []) (ea n : Nat) (body : Nat → State → State) :
    withLocal ea n s body = body (rdN s.mem (lsKey s.cur ea) n) s := by
  unfold withLocal
  rw [localBad_of_no_error h, localFix_of_no_error h]
  rfl

theorem withDesc_readable {s : State} {ea : Word} (h : descReadable s ea) (body : (Nat → Nat) → State → State) :
    withDesc ea s body = body (descWord s ea) s := by
  obtain ⟨halign, hle, hecc⟩ := h
  unfold withDesc
  rw [if_neg (not_not_intro halign), if_neg (not_lt.mpr hle), withLocal_of_no_error hecc]
  rfl

theorem whenDrained_of_drained {s : State} (h : (stream s).drained = true) (body : State → State) : whenDrained s body = body s := if_pos h

/-! ### CSEND, CSEND.A and CDELEG -/

/-- A request of the current task to a home on this package. -/
def homeRequest (s : State) (op : Nat) (later : Option (BitVec 6)) (slot : Nat) (w : Nat → Nat) (tag : Word) (v : Nat) : ConvIn :=
  { agent := some s.cur, later := later.isSome, reg := later.getD 0, slot := slot, ms := msgMs w, ctx := (s.sc s.cur).ctx.toNat, conn := 0,
    pkt := convPacket op (descConv w) tag (plen w) v }

/-- The package with the request last in the order of arrival. -/
def withRequest (s : State) (i : ConvIn) : State := { s with convIn := s.convIn ++ [i] }

section
variable {s : State} {ea : Word} (hread : descReadable s ea) (hdrained : (stream s).drained = true)
  (hown : allotted s (stream s).ctx.toNat .conversation (descConv (descWord s ea)) = true) (hfree : sendPending s (descConv (descWord s ea)) = false)
  (hhome : convProxy s (descConv (descWord s ea)) = false)
include hread hdrained hown hfree hhome

theorem csendBody_eq (later : Option (BitVec 6)) (hok : firstBad (msgChecks (lsSize s.cur) [3] (descWord s ea)) = none) :
    ∃ tag, csendBody later ea s = afterSend later (withRequest s (homeRequest s 3 later 0 (descWord s ea) tag (payload s ea))) := by
  refine ⟨reqTag (descRole (descWord s ea)) (descKind (descWord s ea)) 0
    (agentMay s s.cur (descConv (descWord s ea)) (descRole (descWord s ea))), ?_⟩
  unfold csendBody
  rw [withDesc_readable hread, hok]
  dsimp only
  rw [← stream_eq, hown, hfree, whenDrained_of_drained hdrained, withLocal_of_no_error hread.2.2, csendGo, hhome]
  rfl

theorem cdelegBody_eq {b : Word} (hb : b.toNat < 4) (hok : firstBad (delegChecks s (descWord s ea)) = none)
    (hlife : convLife s (descConv (descWord s ea)) ≠ 3)
    (hrole : tget (stream s).roles b.toNat 0 = roleReg (descRole (descWord s ea)) (descConv (descWord s ea))) :
    ∃ tag, cdelegBody ea b s = (withRequest s (homeRequest s 5 none b.toNat (descWord s ea) tag (payload s ea))).wait .verdict := by
  refine ⟨reqTag (descRole (descWord s ea)) 0 (descDq (descWord s ea))
    (agentMay s s.cur (descConv (descWord s ea)) (descRole (descWord s ea))), ?_⟩
  have hr : descRole (descWord s ea) < 256 := Nat.mod_lt _ (by decide)
  have hn : descConv (descWord s ea) < 65536 := Nat.mod_lt _ (by decide)
  have hreg : (roleReg (descRole (descWord s ea)) (descConv (descWord s ea))).toNat =
      2 ^ 63 + descRole (descWord s ea) * 2 ^ 24 + descConv (descWord s ea) := by
    rw [roleReg, BitVec.toNat_ofNat]
    omega
  unfold cdelegBody
  rw [withDesc_readable hread, if_neg (by omega), hok]
  dsimp only
  rw [← stream_eq, hrole, hreg, if_neg (by omega), if_neg, hown, hfree, whenDrained_of_drained hdrained, withLocal_of_no_error hread.2.2]
  · rw [Bool.not_true, if_neg Bool.false_ne_true, if_neg Bool.false_ne_true, delegGo, if_neg hlife, hhome]
    dsimp only
    rw [if_neg fun h => Bool.false_ne_true h.1]
    rfl
  · unfold bitsOf
    omega

end

theorem requested_of_eq {s t : State} {op slot : Nat} {later : Option (BitVec 6)} {w : Nat → Nat} {tag : Word} {v : Nat}
    (h : t.convIn = s.convIn ++ [homeRequest s op later slot w tag v]) : requested s op (descConv w) (plen w) v later.isSome t :=
  ⟨_, h, rfl, rfl, rfl, rfl, rfl, rfl⟩

/-- A request has been made, and its task waits for the verdict. -/
theorem request_waits {s : State} {ea : Word} {op slot : Nat} {tag : Word} {t : State}
    (ht : t = (withRequest s (homeRequest s op none slot (descWord s ea) tag (payload s ea))).wait .verdict) :
    requested s op (descConv (descWord s ea)) (plen (descWord s ea)) (payload s ea) false t ∧ (stream t).run = .waiting .verdict ∧
      (stream t).pc = (stream s).pc ∧ t.mem = s.mem ∧ regsKept (stream s) (stream t) [] := by
  have hs : stream t = { stream s with run := .waiting .verdict } := by
    rw [ht]
    exact stream_upSc _ _
  rw [hs]
  refine ⟨requested_of_eq (later := none) (slot := slot) (tag := tag) ?_, rfl, rfl, ?_, fun _ _ => rfl⟩
  · rw [ht]
    rfl
  · rw [ht]
    rfl

theorem afterSend_later (d : BitVec 6) (u : State) : ∃ f : Fill, afterSend (some d) u =
    (u.putSc u.cur { (stream u).markEmpty d with fills := (stream u).fills ++ [f] }).retire ∧ f.verdict = true ∧ f.reg = d := by
  refine ⟨{ reg := d, ea := 0, w := 8, sext := false, acq := false, val := none, verdict := true }, rfl, rfl, rfl⟩

theorem later_frame (d : BitVec 6) (u : State) : (afterSend (some d) u).convIn = u.convIn ∧ (afterSend (some d) u).mem = u.mem := ⟨rfl, rfl⟩

/-- A request has been made whose verdict a register waits for, and its task goes on. -/
theorem request_later {s : State} {ea : Word} {tag : Word} {d : BitVec 6} {t : State}
    (ht : t = afterSend (some d) (withRequest s (homeRequest s 3 (some d) 0 (descWord s ea) tag (payload s ea)))) :
    requested s 3 (descConv (descWord s ea)) (plen (descWord s ea)) (payload s ea) true t ∧ (d ≠ 0#6 → (stream t).isEmpty d = true) ∧
      movedOn (stream s) (stream t) ∧ t.mem = s.mem ∧ regsKept (stream s) (stream t) [] ∧
      ∃ f : Fill, (stream t).fills = (stream s).fills ++ [f] ∧ f.verdict = true ∧ f.reg = d := by
  obtain ⟨u, hu⟩ : ∃ u, u = withRequest s (homeRequest s 3 (some d) 0 (descWord s ea) tag (payload s ea)) := ⟨_, rfl⟩
  obtain ⟨f, hf, hverdict, hreg⟩ := afterSend_later d u
  rw [← hu] at ht
  rw [← ht] at hf
  have hstream : stream u = stream s := by
    rw [hu]
    rfl
  obtain ⟨-, hempty, -, hregs, -, hmoved, hfills⟩ := load_issued (s := u) (y := stream u) (d := d) f rfl
  rw [← hf, hstream] at *
  obtain ⟨hconvIn, hmem⟩ := later_frame d u
  refine ⟨requested_of_eq (later := some d) (slot := 0) (tag := tag) ?_, hempty, hmoved, ?_, hregs, f, hfills, hverdict, hreg⟩
  · rw [ht, hconvIn, hu]
    rfl
  · rw [ht, hmem, hu]
    rfl

theorem conversationRequests : Parts.ConversationRequests := by
  intro s g d a b off ha ea hea hread hdrained n hn hown hfree hhome
  subst hea hn
  have hacts : acts s 6 g [a] [d] := acts_mono ha (by simp) (by simp)
  refine ⟨fun hok => ⟨?_, ?_⟩, fun hb hok hlife hrole => ?_⟩
  · obtain ⟨tag, h⟩ := csendBody_eq hread hdrained hown hfree hhome none hok
    exact completes_of_body (exec_csend g a off s) (acts_mono hacts (by simp) (by simp)) (request_waits h)
  · obtain ⟨tag, h⟩ := csendBody_eq hread hdrained hown hfree hhome (some d) hok
    exact ⟨_, (exec_csendA g d a off s).trans (issue_acts _ hacts), request_later h⟩
  · obtain ⟨tag, h⟩ := cdelegBody_eq hread hdrained hown hfree hhome hb hok hlife hrole
    exact completes_of_body (exec_cdeleg g a b off s) (acts_mono ha (by simp) (by simp)) (request_waits h)

/-! ### CROLE -/

section
variable {s : State} {ea b : Word} (hread : descReadable s ea) (hdrained : (stream s).drained = true)
  (hok : firstBad (claimChecks (lsSize s.cur) (descWord s ea)) = none) (hb : b.toNat < 4)
  (hunbound : (tget (stream s).roles b.toNat 0).getLsbD 63 = false)
  (hown : allotted s (stream s).ctx.toNat .conversation (descConv (descWord s ea)) = true)
  (hhome : convProxy s (descConv (descWord s ea)) = false)
include hread hdrained hok hb hunbound hown hhome

/-- The binding that a CROLE asks for. -/
def claimed (s : State) (ea b : Word) : Bind :=
  { role := descRole (descWord s ea), task := taskId s s.cur, reg := b.toNat, base := pbase (descWord s ea), len := plen (descWord s ea),
    sem := bitsOf (descWord s ea 4) 20 16 }

theorem croleBody_judged (d : BitVec 6) {st : Nat} (hst : judgeClaim s (stream s).ctx.toNat (descConv (descWord s ea)) (descRole (descWord s ea))
    (mayClaim s (descConv (descWord s ea)) (descRole (descWord s ea))) = st) : croleBody d ea b s =
      (if st = 0 then bindRole s s.cur (descConv (descWord s ea)) (claimed s ea b) else s).result d (BitVec.ofNat 64 st) := by
  unfold croleBody
  rw [withDesc_readable hread, if_neg (by omega), hok]
  dsimp only
  rw [← stream_eq, hunbound, hown, whenDrained_of_drained hdrained, Bool.not_true]
  rw [if_neg Bool.false_ne_true, if_neg Bool.false_ne_true, claimGo, hhome]
  dsimp only
  rw [if_neg fun h => Bool.false_ne_true h.1, ← stream_eq, hst]
  rfl

end

theorem unusable_eq {s : State} {c n : Nat} (hown : allotted s c .conversation n = true) (hctx : convCtx s n = c) (role : Nat) : unusable s c n role =
    if convLife s n = 3 then some (convLost s n * 256 + 10) else if convLife s n = 0 then some (noRole role) else none := by
  unfold unusable
  rw [hown, hctx]
  simp

theorem loopsSame_watched (x : Scalar) (line : Nat) : LoopsSame x (x.watched line) := by
  constructor <;> unfold Scalar.watched <;> grind

theorem regs_watched (x : Scalar) (line : Nat) : (x.watched line).regs = x.regs := by
  unfold Scalar.watched
  grind

/-- A stream after a store to home memory. -/
theorem sc_put64 (s : State) (key v a : Nat) : (s.put64 key v).sc a = s.sc a ∨ (s.put64 key v).sc a = (s.sc a).watched (key - key % 64) :=
  tget_map s.scal (fun _ x => x.watched (key - key % 64)) a Scalar.reset

/-- A role is bound, nothing being held for it: the table of bindings and the task's register take it. -/
theorem bindRole_eq {s : State} (n : Nat) (b : Bind) (hplaces : s.places = []) : ∃ u, bindRole s s.cur n b =
    u.putSc s.cur { u.sc s.cur with roles := tput (u.sc s.cur).roles b.reg (roleReg b.role n) 0 } ∧ u.cur = s.cur ∧
      (u.sc s.cur = stream s ∨ ∃ line, u.sc s.cur = (stream s).watched line) ∧
      convRun u n = { convRun s n with binds := (convRun s n).binds.filter (fun e => e.role != b.role) ++ [b] } := by
  obtain ⟨u, hu⟩ : ∃ u, u = putConvBits (putConv s n { convRun s n with
      binds := (convRun s n).binds.filter (fun e => e.role != b.role) ++ [b] }) n (4 + b.role) 61 61 1 := ⟨_, rfl⟩
  have hp : u.places = [] := by
    rw [hu]
    exact hplaces
  refine ⟨u, ?_, ?_, ?_, ?_⟩
  · unfold bindRole
    dsimp only
    rw [← hu]
    show placeAll n _ u.places.length _ = _
    rw [hp]
    rfl
  · rw [hu]
    rfl
  · rw [hu]
    exact (sc_put64 _ _ _ s.cur).imp_right fun h => ⟨_, h⟩
  · rw [hu]
    exact (tget_tput s.convs n n _ ConvRun.reset).trans (if_pos rfl)

theorem find_filter_append {α : Type} (l : List α) (p : α → Bool) (b : α) (hb : p b = true) :
    (l.filter (fun e => !p e) ++ [b]).find? p = some b := by
  rw [List.find?_append, List.find?_eq_none.mpr, List.find?_singleton, if_pos hb]
  · rfl
  · intro x hx
    simpa using (List.mem_filter.mp hx).2

theorem bound_result {s : State} {n : Nat} {b : Bind} {d : BitVec 6} (hplaces : s.places = []) (t : State)
    (ht : t = (bindRole s s.cur n b).result d 0#64) : bindOf t n b.role = some b ∧ tget (stream t).roles b.reg 0 = roleReg b.role n ∧
      (d ≠ 0#6 → (stream t).reg d = 0#64) ∧ regsKept (stream s) (stream t) [d] ∧ movedOn (stream s) (stream t) := by
  obtain ⟨u, hbind, hcur, hsc, hconv⟩ := bindRole_eq n b hplaces
  obtain ⟨y, hy⟩ : ∃ y, y = { u.sc s.cur with roles := tput (u.sc s.cur).roles b.reg (roleReg b.role n) 0 } := ⟨_, rfl⟩
  rw [hbind, ← hy, ← hcur] at ht
  have hs : stream (u.putSc u.cur y) = y := by
    rw [stream_eq, putSc_cur, putSc_get, if_pos rfl]
  obtain ⟨-, hd, -, hregs, -, hrest, hmoved⟩ := result_spec (u.putSc u.cur y) d 0#64
  rw [← ht] at hd hregs hrest hmoved
  rw [hs] at hregs hrest hmoved
  have hbinds : t.convs = u.convs := by
    rw [ht]
    rfl
  have hkept : LoopsSame (stream s) y ∧ y.regs = (stream s).regs := by
    rw [hy]
    rcases hsc with h | ⟨line, h⟩
    · rw [h]
      exact ⟨⟨rfl, rfl, rfl, rfl, rfl, rfl, rfl, rfl⟩, rfl⟩
    · rw [h]
      obtain ⟨h1, h2, h3, h4, h5, h6, h7, h8⟩ := loopsSame_watched (stream s) line
      exact ⟨⟨h1, h2, h3, h4, h5, h6, h7, h8⟩, regs_watched (stream s) line⟩
  obtain ⟨hsame, hyregs⟩ := hkept
  refine ⟨?_, ?_, hd, fun r hr => ?_, ?_⟩
  · have hrun : convRun t n = convRun u n := by
      unfold convRun
      rw [hbinds]
    rw [bindOf, hrun, hconv]
    exact find_filter_append _ _ b (beq_self_eq_true _)
  · have hroles : (stream t).roles = y.roles := by
      unfold restKept at hrest
      rw [hrest]
    rw [hroles, hy]
    exact (tget_tput _ _ _ _ _).trans (if_pos rfl)
  · rw [hregs r hr]
    unfold Scalar.reg
    rw [hyregs]
  · unfold movedOn at *
    rwa [retire_congr hsame] at hmoved

theorem roleClaims : Parts.RoleClaims := by
  intro s g d a b off ha ea hea hread hdrained hok hb hunbound n role hn hrole hown hctx hhome
  subst hea hn hrole
  have hissue := (exec_crole g d a b off s).trans (issue_acts (fun s => croleBody d (ea22 (s.rd a) off) (s.rd b) s) ha)
  have hjudged {st : Nat} := croleBody_judged (st := st) hread hdrained hok hb hunbound hown hhome d
  have huse := unusable_eq hown hctx (descRole (descWord s (s.rd a + off.signExtend 64)))
  refine ⟨fun hlife => ?_, fun hlife => ?_, fun hlife hmay => ?_, fun hlife hmay hplaces => ?_⟩
  · rw [if_pos hlife] at huse
    have hst := hjudged (st := 10) (by rw [judgeClaim, huse]; exact Nat.mul_add_mod_of_lt (by decide))
    exact ⟨_, hissue.trans (congrArg _ hst), result_spec s d 10⟩
  · rw [if_neg (by omega), if_pos hlife] at huse
    have hst := hjudged (st := 15) (by rw [judgeClaim, huse]; exact Nat.mul_add_mod_of_lt (by decide))
    exact ⟨_, hissue.trans (congrArg _ hst), result_spec s d 15⟩
  · rw [if_neg (by omega), if_neg (by omega)] at huse
    have hst := hjudged (st := 15) (by rw [judgeClaim, huse, hmay]; rfl)
    exact ⟨_, hissue.trans (congrArg _ hst), result_spec s d 15⟩
  · rw [if_neg (by omega), if_neg (by omega)] at huse
    have hst := hjudged (st := 0) (by rw [judgeClaim, huse, hmay]; rfl)
    rw [if_pos rfl] at hst
    obtain ⟨hbind, hreg⟩ := bound_result hplaces _ hst
    exact ⟨_, hissue.trans (congrArg _ rfl), ⟨_, hbind, rfl, rfl, rfl, rfl⟩, hreg⟩

/-- Settles O25: a request that nothing holds back goes to the end of the order of arrival, and a claim is judged at once at its home. -/
theorem conversationInstructions : Obligations.ConversationInstructions := ⟨conversationRequests, roleClaims⟩

end Sys2Proof.Machine
end

section
/-! Handlers that start and stop, and drain requests (R240 to R246, R276). -/
namespace Sys2Proof.Machine
set_option Elab.async false
open Safety

/-! ### Stores to home memory that lie apart -/

theorem cwinKey_lt {c off : Nat} (hc : c < 64) (hoff : off < 2 ^ 32) : cwinKey c off + 8 < 2 ^ 43 := by
  unfold cwinKey
  omega

/-- The first element that a partial function takes. -/
theorem takeAct_of_next {α : Type} {f : Act → Option α} {s : State} {p : Act → Prop} {a : Act} {rest : List Act} {v : α} (h : nextAct s p a rest)
    (hf : f a = some v) (hp : ∀ b, ¬p b → f b = none) : takeAct f s = some (v, { s with acts := rest }) := by
  obtain ⟨l, r, hacts, hrest, -, hl⟩ := h
  have hidx : s.acts.findIdx? (fun a => (f a).isSome) = some l.length := by
    rw [hacts, List.findIdx?_append, List.findIdx?_eq_none_iff.mpr fun b hb => by rw [hp b (hl b hb)]; rfl, List.findIdx?_cons, hf]
    simp
  unfold takeAct
  rw [hidx]
  dsimp only
  rw [hacts, List.getElem?_append_right (Nat.le_refl _), Nat.sub_self, List.eraseIdx_append_of_length_le (Nat.le_refl _), Nat.sub_self, hrest]
  simp [hf]

theorem cx_putCx (s : State) (c k : Nat) (x : CtxRun) : (s.putCx c x).cx k = if k = c then x else s.cx k := tget_tput _ _ _ _ _

/-! ### Drain requests -/

theorem drainedBefore_iff (s : State) (c n : Nat) : drainedBefore s c n = true ↔
    (∀ m ∈ s.rx, m.ctx = c → m.ent ≠ 2 ^ 20 → m.failed = false → n ≤ m.id) ∧ ∀ i ∈ s.incs, i.ctx ≠ c := by
  simp [drainedBefore]

theorem regs_sc_of_watched {s t : State} {k : Nat} (h : t.scal = s.scal.map fun e => (e.1, e.2.watched k)) (a : Nat) : (t.sc a).regs = (s.sc a).regs := by
  unfold State.sc
  rw [h]
  rcases tget_map s.scal (fun _ x => x.watched k) a Scalar.reset with h | h
  · rw [h]
  · rw [h, regs_watched]

theorem regs_put64 (s : State) (key v a : Nat) : ((s.put64 key v).sc a).regs = (s.sc a).regs := regs_sc_of_watched rfl a

theorem regs_noteWrite (s : State) (key a : Nat) : ((noteWrite s key).sc a).regs = (s.sc a).regs := regs_sc_of_watched rfl a

/-- A request that completes stores its value to the DRAINED word. -/
theorem drain_stored (s : State) (x : CtxRun) (v : Nat) (hv : v < 2 ^ 64) : ∃ t, t =
    (noteWrite (s.putCx s.cur x) (tsKey s.cur 6)).put64 (tsKey s.cur 6) v ∧
      rdN t.mem (tsKey s.cur 6) 8 = v ∧ t.cx s.cur = x ∧ memBut s t (tsKey s.cur 6) 8 ∧ allRegsKept s t := by
  refine ⟨_, rfl, ?_, (cx_putCx _ _ _ _).trans (if_pos rfl), fun k hk => memGet_wrN_out _ _ _ _ _ hk, fun a => ?_⟩
  · exact (rdN_wrN _ _ _ _).trans (Nat.mod_eq_of_lt hv)
  · unfold Scalar.reg
    rw [regs_put64, regs_noteWrite, putCx_sc]

theorem drainRequests : Parts.DrainRequests := by
  refine fun s => ⟨fun v rest h => ?_, fun v n ds hds hv => ⟨fun hrx hincs => ?_, fun ⟨m, hm, hctx, hent, hfailed, hid⟩ => ?_⟩⟩
  · refine ⟨({ s with acts := rest }).putCx s.cur { s.cx s.cur with drains := (s.cx s.cur).drains ++ [(v.toNat, s.rxId)] }, ?_, rfl, ?_, fun c hc => ?_⟩
    · rw [exec_drainreqWrite, execDrainreqWrite, takeAct_of_next (v := v) h ?_ ?_]
      · rfl
      · exact if_pos rfl
      · intro b hb
        cases b with
        | drainreq c w => exact if_neg fun hc => hb ⟨w, by rw [hc]⟩
        | _ => rfl
    · rw [cx_putCx, if_pos rfl]
    · exact (cx_putCx _ _ _ _).trans (if_neg hc)
  · obtain ⟨t, ht, hword, hcx, hmem, hregs⟩ := drain_stored s { s.cx s.cur with drains := ds } v hv
    refine ⟨t, ?_, hword, by rw [hcx], hmem, hregs⟩
    rw [exec_drainRequestDone, execDrainRequestDone, hds]
    exact congrArg _ ((if_pos ((drainedBefore_iff s s.cur n).mpr ⟨hrx, hincs⟩)).trans ht.symm)
  · refine ⟨s, ?_, rfl⟩
    rw [exec_drainRequestDone, execDrainRequestDone, hds]
    refine congrArg _ (if_neg fun hdone => ?_)
    exact absurd (((drainedBefore_iff s s.cur n).mp hdone).1 m hm hctx hent hfailed) (by omega)

/-! ### The start of a handler -/

/-- The memory once a thread's local store has been prepared: zeroed for another context, then the event block and the payload. -/
def handlerMem (m : Memory) (n : Nat) (other : Bool) (c : Nat) (e : Ev) : Memory :=
  let m := if other then zeroRange m (tlsKey n 0) (tlsKey n 0x4000) else m
  let m := wrN m (tlsKey n 0) 256 (wordsNat (eventWords c e))
  if e.kind = 1 then wrN m (tlsKey n 0x1000) (min e.len 4096) e.data else m

/-- The package with another memory and other storage errors. -/
def withStore (s : State) (m : Memory) (ecc : Tbl (List Nat)) : State := { s with mem := m, ecc := ecc }

theorem zeroStore_withStore (s : State) (m : Memory) (ecc : Tbl (List Nat)) (lo hi : Nat) :
    ∃ ecc', (withStore s m ecc).zeroStore lo hi = withStore s (zeroRange m lo hi) ecc' := ⟨_, rfl⟩

theorem putStore_withStore (s : State) (m : Memory) (ecc : Tbl (List Nat)) (key n v : Nat) :
    ∃ ecc', (withStore s m ecc).putStore key n v = withStore s (wrN m key n v) ecc' := ⟨_, rfl⟩

theorem startHandler_eq (s : State) (n c : Nat) (e : Ev) : ∃ ecc u, u = withStore s
    (handlerMem s.mem n (decide ((s.sc (4096 + n)).ctx.toNat ≠ c)) c e) ecc ∧
      startHandler s n c e = u.putSc (4096 + n) (handlerScalar u (s.sc (4096 + n)) c e) := by
  obtain ⟨ecc0, h0⟩ : ∃ ecc, (if (s.sc (4096 + n)).ctx.toNat = c then s else s.zeroStore (tlsKey n 0) (tlsKey n 0x4000)) = withStore s
      (if decide ((s.sc (4096 + n)).ctx.toNat ≠ c) = true then zeroRange s.mem (tlsKey n 0) (tlsKey n 0x4000) else s.mem) ecc := by
    by_cases h : (s.sc (4096 + n)).ctx.toNat = c
    · rw [if_pos h, if_neg (by simpa using h)]
      exact ⟨s.ecc, rfl⟩
    · rw [if_neg h, if_pos (by simpa using h)]
      exact zeroStore_withStore s s.mem s.ecc _ _
  obtain ⟨ecc1, h1⟩ := putStore_withStore s
    (if decide ((s.sc (4096 + n)).ctx.toNat ≠ c) = true then zeroRange s.mem (tlsKey n 0) (tlsKey n 0x4000) else s.mem) ecc0 (tlsKey n 0) 256
    (wordsNat (eventWords c e))
  unfold startHandler handlerMem
  dsimp only
  rw [h0, h1]
  by_cases he : e.kind = 1
  · rw [if_pos he, if_pos he]
    obtain ⟨ecc2, h2⟩ := putStore_withStore s _ ecc1 (tlsKey n 0x1000) (min e.len 4096) e.data
    exact ⟨ecc2, _, rfl, by rw [h2]⟩
  · rw [if_neg he, if_neg he]
    exact ⟨ecc1, _, rfl, rfl⟩

section
variable (m : Memory) (n : Nat) (other : Bool) (c : Nat) (e : Ev)

theorem wordsNat_lt (ws : List Word) : wordsNat ws < 256 ^ (8 * ws.length) := by
  induction ws with
  | nil => simp [wordsNat]
  | cons w ws ih =>
    have hw := w.isLt
    rw [wordsNat, List.length_cons, Nat.mul_add, Nat.pow_add]
    omega

theorem tlsKey_sub {n a b : Nat} : tlsKey n a + b = tlsKey n (a + b) := by
  unfold tlsKey
  omega

theorem handlerMem_block : rdN (handlerMem m n other c e) (tlsKey n 0) 256 = wordsNat (eventWords c e) := by
  have hblock (m : Memory) : rdN (wrN m (tlsKey n 0) 256 (wordsNat (eventWords c e))) (tlsKey n 0) 256 = wordsNat (eventWords c e) := by
    rw [rdN_wrN]
    exact Nat.mod_eq_of_lt (lt_of_lt_of_le (wordsNat_lt _) (Nat.pow_le_pow_right (by decide) (by simp [eventWords])))
  unfold handlerMem
  dsimp only
  by_cases he : e.kind = 1
  · rw [if_pos he, rdN_wrN_out _ _ _ _ _ _ (.inl (by unfold tlsKey; omega))]
    exact hblock _
  · rw [if_neg he]
    exact hblock _

theorem handlerMem_payload (he : e.kind = 1) :
    rdN (handlerMem m n other c e) (tlsKey n 0x1000) (min e.len 4096) = e.data % 256 ^ min e.len 4096 := by
  unfold handlerMem
  dsimp only
  rw [if_pos he, rdN_wrN]

/-- The bytes of another thread or kind, and those of the local store that the event does not fill. -/
theorem handlerMem_out {k : Nat} (hk : k < tlsKey n 0 ∨ tlsKey n 256 ≤ k) (hpay : ¬(e.kind = 1 ∧ tlsKey n 0x1000 ≤ k ∧ k < tlsKey n 0x1000 + min e.len 4096)) :
    memGet (handlerMem m n other c e) k = if other = true ∧ tlsKey n 0 ≤ k ∧ k < tlsKey n 0x4000 then 0#8 else memGet m k := by
  have hfirst : memGet (wrN (if other then zeroRange m (tlsKey n 0) (tlsKey n 0x4000) else m) (tlsKey n 0) 256 (wordsNat (eventWords c e))) k =
      if other = true ∧ tlsKey n 0 ≤ k ∧ k < tlsKey n 0x4000 then 0#8 else memGet m k := by
    rw [memGet_wrN_out _ _ _ _ _ (hk.imp_right fun h => by rwa [tlsKey_sub])]
    cases other
    · simp
    · rw [if_pos rfl, memGet_zeroRange]
      simp
  unfold handlerMem
  dsimp only
  by_cases he : e.kind = 1
  · rw [if_pos he, memGet_wrN_out _ _ _ _ _ (by have := fun h => hpay ⟨he, h⟩; omega)]
    exact hfirst
  · rw [if_neg he]
    exact hfirst

end

theorem rdN_congr {m m' : Memory} {k n : Nat} (h : ∀ i, i < n → memGet m' (k + i) = memGet m (k + i)) : rdN m' k n = rdN m k n := by
  induction n generalizing k with
  | zero => rfl
  | succ n ih =>
    have h0 := h 0 (by omega)
    rw [rdN, rdN, ih fun i hi => by rw [Nat.add_assoc, Nat.add_comm 1 i]; exact h (i + 1) (by omega)]
    rw [Nat.add_zero] at h0
    rw [h0]

theorem handlerEntry_handlerMem {s u : State} {n c k c' : Nat} {other : Bool} {e : Ev} (hc : c' < 64) (hk : k < 8) (hu : u.mem = handlerMem s.mem n other c e) :
    handlerEntry u c' k = handlerEntry s c' k := by
  have hlow := cwinKey_lt (off := 0x1800_0000 + 8 * k) hc (by omega)
  unfold handlerEntry
  rw [rdN_congr fun i hi => ?_]
  have hn : 2 ^ 43 ≤ tlsKey n 0 := by
    unfold tlsKey
    omega
  have h1 : 2 ^ 43 ≤ tlsKey n 0x1000 := by
    unfold tlsKey
    omega
  rw [hu, handlerMem_out _ _ _ _ _ (.inl (by omega)) (by omega), if_neg (by omega)]

theorem mem_tput {α : Type} [DecidableEq α] (t : Tbl α) (k : Nat) {v d : α} (h : v ≠ d) : (k, v) ∈ tput t k v d := by
  rw [tput, if_neg h]
  induction t with
  | nil => simp [tins]
  | cons e t ih =>
    unfold tins
    split_ifs <;> simp [ih]

theorem pickContext_lt {s : State} {c turn : Nat} (h : pickContext s = some (c, turn)) : c < 64 := by
  unfold pickContext at h
  split at h
  · rename_i c' hfind
    obtain ⟨rfl, -⟩ : c' = c ∧ s.turnCtx = turn := by simpa using h
    exact List.mem_range.mp (List.mem_of_find?_eq_some hfind)
  · obtain ⟨c', hfind, heq⟩ := Option.map_eq_some_iff.mp h
    obtain ⟨rfl, -⟩ : c' = c ∧ (c' + 1) % 64 = turn := by simpa using heq
    obtain ⟨i, -, rfl⟩ := List.mem_map.mp (List.mem_of_find?_eq_some hfind)
    omega

/-- A free thread that takes an event. -/
theorem execHandlerStart_eq {s : State} {c turn : Nat} {e : Ev} {es : List Ev} (hthread : isThread s.cur = true) (hrun : (stream s).run = .idle)
    (hpick : pickContext s = some (c, turn)) (hev : (s.cx c).events = e :: es) : execHandlerStart s =
      .next (startHandler { s.putCx c { s.cx c with events := es } with turnCtx := turn } (s.cur - 4096) c e) := by
  unfold execHandlerStart
  rw [← stream_eq, if_neg, hpick]
  · dsimp only
    rw [hev]
    rfl
  · rw [hrun, hthread]
    simp

theorem handlerScalar_regs (s : State) (x : Scalar) (c : Nat) (e : Ev) : (handlerScalar s x c e).reg 62#6 = 0x4000#64 ∧
    (handlerScalar s x c e).reg 4#6 = BitVec.ofNat 64 e.kind ∧ (handlerScalar s x c e).reg 5#6 = e.arg ∧
      ∀ r, r ∉ [4#6, 5#6, 62#6] → (handlerScalar s x c e).reg r = 0#64 := by
  have hget (k : Nat) : tget (handlerScalar s x c e).regs k 0#64 =
      if k = 5 then e.arg else if k = 4 then BitVec.ofNat 64 e.kind else if k = 62 then 0x4000#64 else 0#64 := by
    unfold handlerScalar
    refine (tget_tput _ _ _ _ _).trans ?_
    rw [tget_tput]
    simp [tget, eq_comm]
  refine ⟨hget 62, hget 4, hget 5, fun r hr => ?_⟩
  unfold Scalar.reg
  rw [hget]
  simp only [List.mem_cons, List.not_mem_nil, or_false, not_or, ← BitVec.toNat_inj, BitVec.toNat_ofNat] at hr
  obtain ⟨h4, h5, h62⟩ := hr
  rw [if_neg h5, if_neg h4, if_neg h62]
  exact ite_self _

theorem handlerStarts {s : State} {c turn : Nat} {e : Ev} {es : List Ev} {n : Nat} (hthread : isThread s.cur = true) (hrun : (stream s).run = .idle)
    (hpick : pickContext s = some (c, turn)) (hev : (s.cx c).events = e :: es) (hkind : e.kind < 8) (hn : n = s.cur - 4096) :
    completes .handlerStart s fun t =>
        (stream t).run = .running ∧ (stream t).ctx.toNat = c ∧ (stream t).pc = align8 (handlerEntry s c e.kind) ∧ (stream t).tvec = align8 (handlerEntry s c 0) ∧
        (stream t).reg 62#6 = 0x4000#64 ∧ (stream t).reg 4#6 = BitVec.ofNat 64 e.kind ∧ (stream t).reg 5#6 = e.arg ∧
        (∀ r, r ∉ [4#6, 5#6, 62#6] → (stream t).reg r = 0#64) ∧ (stream t).status = 0#64 ∧
        (∀ a, a ≠ s.cur → t.sc a = s.sc a) ∧ (t.cx c).events = es ∧ t.turnCtx = turn ∧ (stream t).fresh = true ∧ handlerFresh t c = true ∧
        rdN t.mem (tlsKey n 0) 256 = wordsNat (eventWords c e) ∧
        (e.kind = 1 → rdN t.mem (tlsKey n 0x1000) (min e.len 4096) = e.data % 256 ^ min e.len 4096) ∧
        ((stream s).ctx.toNat ≠ c → ∀ o, 256 ≤ o → o < 0x4000 → ¬(e.kind = 1 ∧ 0x1000 ≤ o ∧ o < 0x1000 + min e.len 4096) →
          memGet t.mem (tlsKey n o) = 0#8) ∧
        ∀ k, k < tlsKey n 0 ∨ tlsKey n 0x4000 ≤ k → memGet t.mem k = memGet s.mem k := by
  have hc := pickContext_lt hpick
  have hthr : 4096 ≤ s.cur := by
    simp only [isThread, Bool.and_eq_true, decide_eq_true_eq] at hthread
    exact hthread.1
  have hadd : 4096 + n = s.cur := by omega
  obtain ⟨v, hv⟩ : ∃ v, v = { s.putCx c { s.cx c with events := es } with turnCtx := turn } := ⟨_, rfl⟩
  have hvsc (a : Nat) : v.sc a = s.sc a := by rw [hv]; rfl
  have hvmem : v.mem = s.mem := by rw [hv]; rfl
  obtain ⟨ecc, u, hu, hstart⟩ := startHandler_eq v n c e
  rw [hvsc, hadd, ← stream_eq] at hu hstart
  rw [hvmem] at hu
  obtain ⟨y, hy⟩ : ∃ y, y = handlerScalar u (stream s) c e := ⟨_, rfl⟩
  obtain ⟨t, ht⟩ : ∃ t, t = u.putSc s.cur y := ⟨_, rfl⟩
  rw [← hy, ← ht] at hstart
  have hexec : exec .handlerStart s = .next t := by
    rw [exec_handlerStart, execHandlerStart_eq hthread hrun hpick hev, ← hn, ← hv, hstart]
  have hucur : u.cur = s.cur := by
    rw [hu, hv]
    rfl
  have husc (a : Nat) : u.sc a = s.sc a := by
    rw [hu]
    exact hvsc a
  have hst : stream t = y := by
    rw [ht, stream_eq, putSc_cur, hucur, putSc_get, if_pos rfl]
  have hmem : t.mem = handlerMem s.mem n (decide ((stream s).ctx.toNat ≠ c)) c e := by
    rw [ht, hu]
    rfl
  have hentry (k : Nat) (hk : k < 8) : handlerEntry u c k = handlerEntry s c k :=
    handlerEntry_handlerMem hc hk (by rw [hu]; rfl)
  obtain ⟨hr62, hr4, hr5, hrest⟩ := handlerScalar_regs u (stream s) c e
  rw [← hy] at hr62 hr4 hr5 hrest
  have hctx : (BitVec.ofNat 6 c).toNat = c := by
    rw [BitVec.toNat_ofNat]
    exact Nat.mod_eq_of_lt hc
  refine ⟨t, hexec, ?_⟩
  beta_reduce
  rw [hst, hmem]
  refine ⟨by rw [hy]; rfl, by rw [hy]; exact hctx, ?_, ?_, hr62, hr4, hr5, hrest, by rw [hy]; rfl, fun a ha => ?_, ?_, ?_, by rw [hy]; rfl, ?_,
    handlerMem_block _ _ _ _ _, handlerMem_payload _ _ _ _ _, fun hother o hlo hhi hpay => ?_, fun k hk => ?_⟩
  · rw [hy, ← hentry e.kind hkind]
    rfl
  · rw [hy, ← hentry 0 (by decide)]
    rfl
  · rw [ht, putSc_get, if_neg ha, husc]
  · have hcx : t.ctxs = v.ctxs := by rw [ht, hu]; rfl
    unfold State.cx
    rw [hcx, hv]
    exact congrArg CtxRun.events ((cx_putCx s c c { s.cx c with events := es }).trans (if_pos rfl))
  · rw [ht, hu, hv]
    rfl
  · unfold handlerFresh
    refine List.any_eq_true.mpr ⟨(s.cur, y), ?_, ?_⟩
    · rw [ht]
      refine mem_tput _ _ fun h => ?_
      have hne : y.run ≠ Scalar.reset.run := by
        rw [hy]
        exact Run.noConfusion
      exact hne (congrArg Scalar.run h)
    · rw [hy]
      simp [handlerScalar, hthread, hctx]
  · have hkey : tlsKey n o = tlsKey n 0 + o := by rw [tlsKey_sub, Nat.zero_add]
    rw [handlerMem_out _ _ _ _ _ (.inr (by unfold tlsKey; omega)) (by unfold tlsKey; omega), if_pos]
    exact ⟨decide_eq_true hother, by unfold tlsKey; omega⟩
  · rw [handlerMem_out _ _ _ _ _ (by unfold tlsKey at *; omega) (by unfold tlsKey at *; omega), if_neg (by unfold tlsKey at *; omega)]

/-! ### The watchdog of a handler -/

theorem dropWaits_objs (s : State) (a k : Nat) : (objAt (dropWaits s a) k).holders = (objAt s k).holders ∧ (objAt (dropWaits s a) k).queue = (objAt s k).queue := by
  unfold objAt dropWaits
  rcases tget_map s.objs (fun _ (x : ObjRun) => { x with
      waits := x.waits.filter fun w => w.1 != a, late := x.late && !(x.waits.filter fun w => w.1 != a).isEmpty }) k ObjRun.reset with h | h
  · rw [h]
    exact ⟨rfl, rfl⟩
  · rw [h]
    exact ⟨rfl, rfl⟩

theorem withdraw_of_running {s : State} (h : (stream s).run = .running) : withdraw s s.cur = dropWaits s s.cur := by
  have hrun : ((dropWaits s s.cur).sc s.cur).run = .running := h
  unfold withdraw
  dsimp only
  rw [hrun]

/-- The fault of a watchdog of a thread that is stopped. -/
theorem watchdogFault_thread {s u : State} (detail : Nat) (val : Word) (hthread : isThread s.cur = true) (hu : u = (dropWaits s s.cur).upSc fun x => x.stop .halted)
    (hrun : (stream s).run = .running) (hsave : savingCtx s (stream s).ctx.toNat = false) (t : State) (ht : t = watchdogFault u detail val) :
    t.mem = s.mem ∧ onlyStream { s with faults := t.faults, objs := t.objs } t ∧ t.objs = (dropWaits s s.cur).objs ∧
      (stream t).run = .halted ∧ (stream t).pc = (stream s).pc ∧
      ∃ f : FaultRec, t.faults = s.faults ++ [f] ∧ f.ctx = (stream s).ctx ∧ f.typ = 4 ∧ f.cause = 0x2C ∧ f.detail = detail ∧
        f.phys = s.cur - 4096 ∧ f.val = val := by
  have hstream : stream u = { stream s with run := .halted } := by
    rw [hu]
    refine (stream_upSc _ _).trans ?_
    show (stream s).stop .halted = _
    rw [Scalar.stop, hrun]
  have hsaveu : savingCtx u (u.sc u.cur).ctx.toNat = false := by
    rw [← stream_eq, hstream, hu]
    exact hsave
  have hcore : isCore u.cur = false := by
    rw [hu]
    show isCore s.cur = false
    simp only [isThread, Bool.and_eq_true, decide_eq_true_eq] at hthread
    simp only [isCore, decide_eq_false_iff_not]
    omega
  rw [watchdogFault, hsaveu, if_neg Bool.false_ne_true] at ht
  have hst : stream t = { stream u with run := .halted } := by
    rw [ht]
    exact stream_upSc u fun y => { y with run := .halted }
  obtain ⟨f, hf⟩ : ∃ f : FaultRec, t.faults = u.faults ++ [f] ∧ f.ctx = (u.sc u.cur).ctx ∧ f.typ = (if isCore u.cur then 0 else 4) ∧ f.cause = 0x2C ∧
      f.detail = detail ∧ f.phys = (if isCore u.cur then u.cur else u.cur - 4096) ∧ f.val = val := by
    rw [ht]
    exact ⟨_, rfl, rfl, rfl, rfl, rfl, rfl, rfl⟩
  rw [hcore, if_neg Bool.false_ne_true, if_neg Bool.false_ne_true, ← stream_eq, hstream, hu] at hf
  rw [hst, hstream]
  refine ⟨by rw [ht, hu]; rfl, ⟨by rw [ht, hu]; rfl, fun a ha => ?_⟩, by rw [ht, hu]; rfl, rfl, rfl, f, hf⟩
  have hu_other : u.sc a = s.sc a := by
    rw [hu]
    exact (onlyStream_upSc (dropWaits s s.cur) fun x => x.stop .halted).2 a ha
  have hucur : u.cur = s.cur := by
    rw [hu]
    rfl
  rw [ht]
  exact ((onlyStream_upSc u fun y => { y with run := .halted }).2 a (by rw [hucur]; exact ha)).trans hu_other

theorem handlerStartsAndStops : Parts.HandlerStartsAndStops := by
  refine fun s hthread => ⟨fun c turn e es n hrun hpick hev hkind hn => handlerStarts hthread hrun hpick hev hkind hn,
    fun hrun => ⟨fun hfresh => ⟨s, ?_, rfl⟩, fun hfresh hlate hsave => ?_, fun hearly => ⟨s, ?_, rfl⟩⟩⟩
  · rw [exec_handlerWatchdog, execHandlerWatchdog]
    refine congrArg _ (if_neg fun h => ?_)
    obtain ⟨-, -, hnot, -⟩ := h
    rw [← stream_eq, hfresh] at hnot
    exact Bool.false_ne_true hnot
  · have hlive : (stream s).run.isLive = true := by
      rw [hrun]
      rfl
    have hobjs := dropWaits_objs s s.cur
    obtain ⟨hmem, honly, ho, hrest⟩ := watchdogFault_thread 1 ((stream s).event.headD 0) hthread rfl hrun hsave _ rfl
    refine ⟨_, ?_, hmem, honly, fun k => ?_, hrest⟩
    · rw [exec_handlerWatchdog, execHandlerWatchdog, withdraw_of_running hrun]
      exact congrArg _ (if_pos ⟨hthread, hlive, by rw [← stream_eq, hfresh]; rfl, hlate⟩)
    · have hat := hobjs k
      unfold objAt at *
      rwa [ho]
  · rw [exec_handlerWatchdog, execHandlerWatchdog]
    refine congrArg _ (if_neg fun h => ?_)
    obtain ⟨-, -, -, hlate⟩ := h
    exact absurd hlate (not_lt.mpr hearly)

/-- Settles O42: a free thread takes the picked event, a watchdog acts on a handler that has begun, and the oldest drain request waits for its messages. -/
theorem handlersAndDrains : Obligations.HandlersAndDrains := ⟨handlerStartsAndStops, drainRequests⟩

end Sys2Proof.Machine
end

section
/-! PUSH, PUSHM, RTAIL and QFENCE (R23, R77, R89 to R92, R131, R140). -/
namespace Sys2Proof.Machine
set_option Elab.async false
open Safety

/-! ### A slot that a queue accepts -/

theorem sem_setQueue (x : Core) (q : BitVec 2) (v : Queue) (k : Nat) : (x.setQueue q v).sem k = x.sem k := by
  unfold Core.setQueue
  split_ifs <;> rfl

theorem joinNo_setQueue (x : Core) (q : BitVec 2) (v : Queue) : (x.setQueue q v).joinNo = x.joinNo := by
  unfold Core.setQueue
  split_ifs <;> rfl

/-- The core once its records that raise have been counted. -/
def pended (x : Core) (h : Word) : Core := if hdrRaise h then x.pend (hdrSem h) else x

theorem sem_pended (x : Core) (h : Word) (k : Nat) : (pended x h).sem k =
    if hdrRaise h = true ∧ k = hdrSem h then { x.sem k with pend := (x.sem k).pend + 1 } else x.sem k := by
  unfold pended
  by_cases hr : hdrRaise h = true
  · rw [if_pos hr]
    refine (sem_setSem x _ k _).trans ?_
    by_cases hk : k = hdrSem h
    · rw [if_pos hk, if_pos ⟨hr, hk⟩, hk]
    · rw [if_neg hk, if_neg fun h => hk h.2]
  · rw [if_neg hr, if_neg fun h => hr h.1]

theorem queue_pended (x : Core) (h : Word) (q : BitVec 2) : (pended x h).queue q = x.queue q := by
  unfold pended
  split_ifs <;> rfl

theorem joinNo_pended (x : Core) (h : Word) : (pended x h).joinNo = x.joinNo := by
  unfold pended
  split_ifs <;> rfl

/-- One record accepted by queue q of the current core: what changes of it. -/
structure Slotted (s t : State) (q : BitVec 2) (h : Word) : Prop where
  cur : t.cur = s.cur
  scal : t.scal = s.scal
  ecc : s.ecc = [] → t.ecc = []
  tail : (ringOf t q).tail = (ringOf s q).tail + 1
  head : (ringOf t q).head = (ringOf s q).head
  base : (ringOf t q).base = (ringOf s q).base
  count : (ringOf t q).count = (ringOf s q).count
  flight : (ringOf t q).flight = (ringOf s q).flight
  others : ∀ r, r ≠ 3#2 → r ≠ q → ringOf t r = ringOf s r
  joinNo : (t.co s.cur).joinNo = (s.co s.cur).joinNo
  sems : ∀ k, semOf t k = if hdrRaise h = true ∧ k = hdrSem h then { semOf s k with pend := (semOf s k).pend + 1 } else semOf s k

theorem co_acceptSlot (s : State) (q : BitVec 2) (fence : Bool) : ∃ v : Queue, (acceptSlot s s.cur q fence).co s.cur =
    (pended (s.co s.cur) (recHeader s s.cur (ringOf s q) (ringOf s q).tail)).setQueue q v ∧ v.tail = (ringOf s q).tail + 1 ∧
      v.head = (ringOf s q).head ∧ v.base = (ringOf s q).base ∧ v.count = (ringOf s q).count ∧ v.flight = (ringOf s q).flight :=
  ⟨_, (putCo_get s s.cur _ s.cur).trans (if_pos rfl), rfl, rfl, rfl, rfl, rfl⟩

theorem acceptSlot_slotted (s : State) {q : BitVec 2} (hq : q ≠ 3#2) (fence : Bool) :
    Slotted s (acceptSlot s s.cur q fence) q (recHeader s s.cur (ringOf s q) (ringOf s q).tail) := by
  obtain ⟨v, hco, htail, hhead, hbase, hcount, hflight⟩ := co_acceptSlot s q fence
  have hring (r : BitVec 2) : ringOf (acceptSlot s s.cur q fence) r = ((acceptSlot s s.cur q fence).co s.cur).queue r := rfl
  have hown : ringOf (acceptSlot s s.cur q fence) q = v := by
    rw [hring, hco, queue_setQueue]
  have hsem (k : Nat) : semOf (acceptSlot s s.cur q fence) k = ((acceptSlot s s.cur q fence).co s.cur).sem k := rfl
  refine ⟨rfl, rfl, id, ?_, ?_, ?_, ?_, ?_, fun r hr hne => ?_, ?_, fun k => ?_⟩
  · rw [hown, htail]
  · rw [hown, hhead]
  · rw [hown, hbase]
  · rw [hown, hcount]
  · rw [hown, hflight]
  · rw [hring, hco, queue_setQueue_other _ hr hne hq, queue_pended]
    rfl
  · rw [hco, joinNo_setQueue, joinNo_pended]
  · rw [hsem, hco, sem_setQueue, sem_pended]
    rfl

theorem spFresh_eq (s : State) (p a n : Nat) : spFresh s p a n = { s with ecc := (spFresh s p a n).ecc } := by
  unfold spFresh
  split <;> rfl

theorem spFresh_ecc {s : State} (h : s.ecc = []) (p a n : Nat) : (spFresh s p a n).ecc = [] := by
  unfold spFresh
  rw [if_pos h]
  exact h

theorem spWrite_eq (s : State) (p a n v : Nat) : spWrite s p a n v = { s with mem := wrN s.mem (spKey p a) n v, ecc := (spWrite s p a n v).ecc } := spFresh_eq _ p a n

/-- The header of a record that has been written to its slot. -/
theorem recHeader_written {s : State} {p : Nat} {v : Queue} {c : BitVec 32} {w : BitVec 512} (h : rdN s.mem (spKey p (v.slot c)) 64 = w.toNat) :
    recHeader s p v c = header w := by
  have hslice := rdN_slice s.mem (spKey p (v.slot c)) (n := 64) (o := 0) (w := 8) (by decide)
  rw [Nat.mul_zero, Nat.pow_zero, Nat.div_one, Nat.add_zero, h] at hslice
  apply BitVec.eq_of_toNat_eq
  rw [recHeader, ← hslice, BitVec.toNat_ofNat, header, BitVec.extractLsb'_toNat, Nat.shiftRight_zero]
  exact Nat.mod_mod _ _

theorem toNat_mod_bytes {n : Nat} (w : BitVec (8 * n)) : w.toNat % 256 ^ n = w.toNat := by
  have h := w.isLt
  rw [Nat.pow_mul] at h
  exact Nat.mod_eq_of_lt h

theorem toNat_ofNat_rdN (m : Memory) (k n : Nat) : (BitVec.ofNat (8 * n) (rdN m k n)).toNat = rdN m k n :=
  (BitVec.toNat_ofNat _ _).trans (Nat.mod_eq_of_lt (rdN_lt m k n))

theorem acceptRecord_spec (s : State) {q : BitVec 2} (hq : q ≠ 3#2) (w : BitVec 512) (fence : Bool) :
    Slotted s (acceptRecord s s.cur q w fence) q (header w) ∧
      (acceptRecord s s.cur q w fence).mem = wrN s.mem (spKey s.cur ((ringOf s q).slot (ringOf s q).tail)) 64 w.toNat := by
  obtain ⟨u, hu⟩ : ∃ u, u = spWrite s s.cur ((ringOf s q).slot (ringOf s q).tail) 64 w.toNat := ⟨_, rfl⟩
  have haccept : acceptRecord s s.cur q w fence = acceptSlot u u.cur q fence := by
    rw [hu, spWrite_eq]
    show acceptSlot (spWrite s s.cur ((ringOf s q).slot (ringOf s q).tail) 64 w.toNat) _ _ _ = _
    rw [spWrite_eq]
  have hmem : u.mem = wrN s.mem (spKey s.cur ((ringOf s q).slot (ringOf s q).tail)) 64 w.toNat := by
    rw [hu, spWrite_eq]
  have hue : s.ecc = [] → u.ecc = [] := fun h => by
    rw [hu]
    exact spFresh_ecc (s := { s with mem := wrN s.mem (spKey s.cur ((ringOf s q).slot (ringOf s q).tail)) 64 w.toNat }) h _ _ _
  have hcur : u.cur = s.cur := by
    rw [hu, spWrite_eq]
  have hscal : u.scal = s.scal := by
    rw [hu, spWrite_eq]
  have hco (p : Nat) : u.co p = s.co p := by
    rw [hu, spWrite_eq]
    rfl
  have hring (r : BitVec 2) : ringOf u r = ringOf s r := by
    rw [ringOf, ringOf, hcur, hco]
  have hsem (k : Nat) : semOf u k = semOf s k := by
    rw [semOf, semOf, hcur, hco]
  have hhead : recHeader u u.cur (ringOf u q) (ringOf u q).tail = header w := by
    apply recHeader_written
    rw [hring, hcur, hmem, rdN_wrN]
    exact toNat_mod_bytes (n := 64) w
  obtain ⟨h1, h2, h3, h4, h5, h6, h7, h8, h9, h10, h11⟩ := acceptSlot_slotted u hq fence
  rw [hhead] at h11
  rw [haccept]
  refine ⟨⟨h1.trans hcur, h2.trans hscal, fun h => h3 (hue h), ?_, ?_, ?_, ?_, ?_, fun r hr hne => ?_, ?_, fun k => ?_⟩, hmem⟩
  · rw [h4, hring]
  · rw [h5, hring]
  · rw [h6, hring]
  · rw [h7, hring]
  · rw [h8, hring]
  · rw [h9 r hr hne, hring]
  · rw [← hco, ← hcur]
    exact h10
  · rw [h11, hsem]

/-! ### PUSH and PUSHM -/

theorem pushBody_noRing {s : State} {q : BitVec 2} (h : (ringOf s q).count = 0) (pd : BitVec 5) (w : BitVec 512) (tval : Word) :
    pushBody q pd w tval s = s.trap 8 2 1 := if_pos h

theorem pushBody_broken {s : State} {q : BitVec 2} {w : BitVec 512} (h : (ringOf s q).count ≠ 0) (hrule : wordsBroken (judgeOf s s.cur q false) w ≠ 0)
    (pd : BitVec 5) (tval : Word) : pushBody q pd w tval s = s.trap 7 (wordsBroken (judgeOf s s.cur q false) w) tval := (if_neg h).trans (if_pos hrule)

theorem pushBody_ok {s : State} {q : BitVec 2} {w : BitVec 512} (h : (ringOf s q).count ≠ 0) (hrule : wordsBroken (judgeOf s s.cur q false) w = 0)
    (pd : BitVec 5) (tval : Word) : pushBody q pd w tval s =
      if (ringOf s q).full then s.resultP pd true else (acceptRecord s s.cur q w false).resultP pd false :=
  (if_neg h).trans (if_neg (not_not_intro hrule))

theorem full_iff (v : Queue) : v.full = true ↔ v.fillLevel = v.count.toNat := beq_iff_eq

theorem getLsbD_regsRecord (s : State) (a : Src) (n : Nat) {i : Nat} (hi : i < 512) (hn : n ≤ 8) : (regsRecord s a n).getLsbD i =
    (decide (i < 64 * n) && (s.rd (srcAt a (i / 64))).getLsbD (i % 64)) := by
  induction n with
  | zero => simp [regsRecord]
  | succ n ih =>
    rw [regsRecord, BitVec.getLsbD_or, ih (by omega), BitVec.getLsbD_shiftLeft, BitVec.getLsbD_setWidth, decide_eq_true hi]
    by_cases hlt : i < 64 * n
    · simp [hlt, show i < 64 * (n + 1) by omega]
    · by_cases hin : i < 64 * (n + 1)
      · have h1 : i / 64 = n := by omega
        have h2 : i - 64 * n = i % 64 := by omega
        simp [hlt, hin, h1, h2, show i % 64 < 512 by omega]
      · have hbig : (s.rd (srcAt a n)).getLsbD (i - 64 * n) = false := BitVec.getLsbD_of_ge _ _ (by omega)
        simp [hlt, hin, hbig]

theorem regsRecord_eq {s : State} {a : Src} {w : BitVec 512}
    (h : ∀ k j, k < 8 → j < 64 → w.getLsbD (64 * k + j) = ((stream s).reg (a.r + BitVec.ofNat 6 k)).getLsbD j) : regsRecord s a 8 = w := by
  apply BitVec.eq_of_getLsbD_eq
  intro i hi
  have hbit := h (i / 64) (i % 64) (by omega) (by omega)
  rw [Nat.div_add_mod] at hbit
  rw [getLsbD_regsRecord s a 8 hi (by decide), decide_eq_true (by omega), Bool.true_and, hbit]
  rfl

theorem exec_push_acts {s : State} {g : Guard} {p : BitVec 5} {a : Src} {q : BitVec 2} {w : BitVec 512} (hcore : isCore s.cur = true)
    (ha : acts s 5 g ((List.range 8).map fun k => { a with r := a.r + BitVec.ofNat 6 k }) [])
    (hw : ∀ k j, k < 8 → j < 64 → w.getLsbD (64 * k + j) = ((stream s).reg (a.r + BitVec.ofNat 6 k)).getLsbD j) :
    exec (.push g p a q) s = .next (pushBody q p w (a.r.setWidth 64) s) := by
  rw [← regsRecord_eq hw]
  exact ((exec_push g p a q s).trans (issueCore_eq hcore)).trans (issue_acts (dst := none) _ ha)

theorem pushmBody_reads {s : State} {q : BitVec 2} {p : BitVec 5} {ea : Word} {w : BitVec 512} (h64 : ea.toNat % 64 = 0) (hle : ea.toNat ≤ 0x3F_FFC0)
    (hecc : s.ecc = []) (hw : w.toNat = rdN s.mem (spKey s.cur ea.toNat) 64) : pushmBody q p ea s = pushBody q p w ea s := by
  have hword : BitVec.ofNat 512 (spRead s s.cur ea.toNat 64) = w := by
    rw [spRead, ← hw]
    exact BitVec.ofNat_toNat _ _
  rw [pushmBody, if_neg (not_not_intro h64), if_neg (not_lt.mpr hle), spBad_of_no_error hecc, if_neg Bool.false_ne_true, hword, spFix_of_no_error hecc]

/-- A record that a queue with room takes. -/
theorem push_accepted {s : State} {q : BitVec 2} (hq : q ≠ 3#2) (p : BitVec 5) (w : BitVec 512) {t : State}
    (ht : t = (acceptRecord s s.cur q w false).resultP p false) : accepted s q w t ∧ (p ≠ 0#5 → (stream t).pred p = false) ∧
      regsKept (stream s) (stream t) [] ∧ predsKept (stream s) (stream t) [p] ∧ restKept (stream s) (stream t) ∧ movedOn (stream s) (stream t) := by
  obtain ⟨⟨hcur, hscal, -, htail, hhead, hbase, hcount, hflight, hothers, -, hsems⟩, hmem⟩ := acceptRecord_spec s hq w false
  obtain ⟨u, hu⟩ : ∃ u, u = acceptRecord s s.cur q w false := ⟨_, rfl⟩
  rw [← hu] at ht hcur hscal htail hhead hbase hcount hflight hothers hsems hmem
  have hstream : stream u = stream s := by
    rw [stream_eq, stream_eq, hcur, State.sc, State.sc, hscal]
  obtain ⟨⟨honly, -⟩, hp, -, hregs, hpreds, hrest, hmoved⟩ := resultP_spec u p false
  rw [← ht] at honly hp hregs hpreds hrest hmoved
  rw [hstream] at hregs hpreds hrest hmoved
  have htmem : t.mem = u.mem := by
    rw [honly]
  have hring (r : BitVec 2) : ringOf t r = ringOf u r := by
    rw [honly]
    rfl
  have hsem (k : Nat) : semOf t k = semOf u k := by
    rw [honly]
    rfl
  refine ⟨⟨?_, fun k hk => ?_, ?_, ?_, ?_, ?_, ?_, fun r hr hne => ?_, fun k => ?_⟩, fun h0 => ?_, hregs, hpreds, hrest, hmoved⟩
  · rw [htmem, hmem, rdN_wrN]
    exact toNat_mod_bytes (n := 64) w
  · rw [htmem, hmem, memGet_wrN_out _ _ _ _ _ hk]
  · rw [hring, htail]
  · rw [hring, hhead]
  · rw [hring, hbase]
  · rw [hring, hcount]
  · rw [hring, hflight]
  · rw [hring, hothers r hr hne]
  · rw [hsem, hsems]
  · simpa using hp h0

theorem pushesAccept : Parts.PushesAccept := by
  intro s g p a q off i w hq hcore hecc hi hring hrule
  obtain ⟨tval, hexec⟩ : ∃ tval, exec i s = .next (pushBody q p w tval s) := by
    rcases hi with ⟨rfl, ha, hw⟩ | ⟨rfl, ha, h64, hle, hw⟩
    · exact ⟨_, exec_push_acts hcore ha hw⟩
    · refine ⟨s.rd a + off.signExtend 64, ((exec_pushm g p a q off s).trans (issueCore_eq hcore)).trans ((issue_acts (dst := none) _ ha).trans ?_)⟩
      exact congrArg _ (pushmBody_reads h64 hle hecc hw)
  rw [pushBody_ok hring hrule] at hexec
  refine ⟨fun hroom => ?_, fun hfull => ?_⟩
  · rw [if_neg fun h => hroom ((full_iff _).mp h)] at hexec
    exact ⟨_, hexec, push_accepted hq p w rfl⟩
  · rw [if_pos ((full_iff _).mpr hfull)] at hexec
    exact completes_resultP_of_eq hexec (by simp)

theorem completes_trapped_of_next {i : Instr} {s : State} {code detail : Nat} {tval : Word} (h : exec i s = .next (s.trap code detail tval)) (hc : code ≠ 2)
    (ht : canTrap s) : completes i s (trapped s code detail tval) := ⟨_, h, trapped_trap s code detail tval hc ht⟩

theorem pushRefusesBadRecords : Parts.PushRefusesBadRecords := by
  intro s g p a q w hq hcore htrap ha hw
  have hexec := exec_push_acts (p := p) (q := q) hcore ha hw
  refine ⟨fun hring => ?_, fun hring hrule => ?_⟩
  · exact completes_trapped_of_next (hexec.trans (congrArg _ (pushBody_noRing hring _ _ _))) (by decide) htrap
  · exact completes_trapped_of_next (hexec.trans (congrArg _ (pushBody_broken hring hrule _ _))) (by decide) htrap

theorem pushmTraps : Parts.PushmTraps := by
  intro s g p a q off ea hq hcore htrap ha hea
  subst hea
  have hexec := ((exec_pushm g p a q off s).trans (issueCore_eq hcore)).trans
    (issue_acts (dst := none) (fun s => pushmBody q p (ea22 (s.rd a) off) s) ha)
  refine ⟨fun h64 => ?_, fun h64 hhigh => ?_, fun h64 hle hecc => ⟨fun hring => ?_, fun w hw hring hrule => ?_⟩⟩
  · exact completes_trapped_of_next (hexec.trans (congrArg _ (if_pos h64))) (by decide) htrap
  · exact completes_trapped_of_next (hexec.trans (congrArg _ ((if_neg (not_not_intro h64)).trans (if_pos hhigh)))) (by decide) htrap
  · have hw : (BitVec.ofNat 512 (rdN s.mem (spKey s.cur (s.rd a + off.signExtend 64).toNat) 64)).toNat =
        rdN s.mem (spKey s.cur (s.rd a + off.signExtend 64).toNat) 64 := by
      exact toNat_ofNat_rdN s.mem _ 64
    exact completes_trapped_of_next (hexec.trans (congrArg _ ((pushmBody_reads h64 hle hecc hw).trans (pushBody_noRing hring _ _ _)))) (by decide) htrap
  · exact completes_trapped_of_next (hexec.trans (congrArg _ ((pushmBody_reads h64 hle hecc hw).trans (pushBody_broken hring hrule _ _)))) (by decide) htrap

/-! ### RTAIL -/

theorem rtailBody_noRing {s : State} {q : BitVec 2} {n : Word} (h : (ringOf s q).count = 0) : rtailBody q n s = s.trap 8 2 n := if_pos h

theorem rtailBody_over {s : State} {q : BitVec 2} {n : Word} (h : (ringOf s q).count ≠ 0) (hn : (ringOf s q).count.toNat < n.toNat) :
    rtailBody q n s = s.trap 8 0 n := (if_neg h).trans (if_pos hn)

theorem rtailBody_noRoom {s : State} {q : BitVec 2} {n : Word} (h : (ringOf s q).count ≠ 0) (hn : n.toNat ≤ (ringOf s q).count.toNat)
    (hfree : (ringOf s q).count.toNat - (ringOf s q).fillLevel < n.toNat) : rtailBody q n s = s.trap 8 1 n :=
  (if_neg h).trans ((if_neg (not_lt.mpr hn)).trans (if_pos hfree))

theorem rtailBody_room {s : State} {q : BitVec 2} {n : Word} (h : (ringOf s q).count ≠ 0)
    (hfree : n.toNat ≤ (ringOf s q).count.toNat - (ringOf s q).fillLevel) : rtailBody q n s =
      match (rtailHeaders (ringOf s q) n.toNat).find? fun a => spBad s s.cur a 8 with
      | some a => consume s s.cur false 0 fun s d => s.ctxFault 0x22 d (BitVec.ofNat 64 a)
      | none => (acceptN q n.toNat ((rtailHeaders (ringOf s q) n.toNat).foldl (fun s a => spFix s s.cur a 8) s)).retire :=
  (if_neg h).trans ((if_neg (not_lt.mpr (hfree.trans (Nat.sub_le _ _)))).trans (if_neg (not_lt.mpr hfree)))

theorem foldl_spFix_of_no_error {s : State} (h : s.ecc = []) (l : List Nat) : l.foldl (fun s a => spFix s s.cur a 8) s = s := by
  induction l with
  | nil => rfl
  | cons a l ih =>
    rw [List.foldl_cons, spFix_of_no_error h]
    exact ih

/-- The headers of the records that stand in the ring from TAIL on. -/
def headerAt (s : State) (q : BitVec 2) (j : Nat) : Word := recHeader s s.cur (ringOf s q) ((ringOf s q).tail + BitVec.ofNat 32 j)

theorem headerAt_acceptSlot (s : State) {q : BitVec 2} (hq : q ≠ 3#2) (j : Nat) :
    headerAt (acceptSlot s s.cur q false) q j = headerAt s q (j + 1) := by
  obtain ⟨-, -, -, htail, -, hbase, hcount, -, -, -, -⟩ := acceptSlot_slotted s hq false
  unfold headerAt recHeader Queue.slot
  rw [htail, hbase, hcount, BitVec.add_assoc, show (1 : BitVec 32) + BitVec.ofNat 32 j = BitVec.ofNat 32 (j + 1) by
    rw [Nat.add_comm j 1, BitVec.ofNat_add]
    rfl]
  rfl

theorem acceptN_spec {q : BitVec 2} (hq : q ≠ 3#2) (n : Nat) : ∀ s : State, (acceptN q n s).cur = s.cur ∧ (acceptN q n s).scal = s.scal ∧
    (acceptN q n s).mem = s.mem ∧ (ringOf (acceptN q n s) q).tail = (ringOf s q).tail + BitVec.ofNat 32 n ∧
    (ringOf (acceptN q n s) q).head = (ringOf s q).head ∧ (∀ r, r ≠ 3#2 → r ≠ q → ringOf (acceptN q n s) r = ringOf s r) ∧
    ∀ k, (semOf (acceptN q n s) k).done = (semOf s k).done ∧ (semOf (acceptN q n s) k).pend = (semOf s k).pend +
      BitVec.ofNat 32 ((List.range n).countP fun j => hdrRaise (headerAt s q j) && hdrSem (headerAt s q j) == k) := by
  induction n with
  | zero => exact fun s => ⟨rfl, rfl, rfl, (BitVec.add_zero _).symm, rfl, fun _ _ _ => rfl, fun _ => ⟨rfl, (BitVec.add_zero _).symm⟩⟩
  | succ n ih =>
    intro s
    obtain ⟨hcur, hscal, -, htail, hhead, -, -, -, hothers, -, hsems⟩ := acceptSlot_slotted s hq false
    have hheader := headerAt_acceptSlot s hq
    have hmem : (acceptSlot s s.cur q false).mem = s.mem := rfl
    obtain ⟨u, hu⟩ : ∃ u, u = acceptSlot s s.cur q false := ⟨_, rfl⟩
    have hstep : acceptN q (n + 1) s = acceptN q n u := by
      rw [hu]
      rfl
    rw [← hu] at hcur hscal htail hhead hothers hsems hheader hmem
    obtain ⟨icur, iscal, imem, itail, ihead, iothers, isems⟩ := ih u
    rw [hstep]
    refine ⟨icur.trans hcur, iscal.trans hscal, imem.trans hmem, ?_, ihead.trans hhead, fun r hr hne => (iothers r hr hne).trans (hothers r hr hne),
      fun k => ?_⟩
    · rw [itail, htail, BitVec.add_assoc, Nat.add_comm n 1, BitVec.ofNat_add]
      rfl
    · obtain ⟨idone, ipend⟩ := isems k
      have hfirst : headerAt s q 0 = recHeader s s.cur (ringOf s q) (ringOf s q).tail := by
        unfold headerAt
        rw [show BitVec.ofNat 32 0 = 0#32 from rfl, BitVec.add_zero]
      rw [idone, ipend, hsems, List.range_succ_eq_map, List.countP_cons, List.countP_map, ← hfirst]
      simp only [hheader, Function.comp_def, Nat.succ_eq_add_one]
      by_cases hraise : hdrRaise (headerAt s q 0) = true ∧ k = hdrSem (headerAt s q 0)
      · obtain ⟨hr, hk⟩ := hraise
        rw [if_pos ⟨hr, hk⟩, hr, ← hk, beq_self_eq_true]
        refine ⟨rfl, ?_⟩
        rw [if_pos (by rfl), Nat.add_comm, BitVec.ofNat_add, BitVec.add_assoc]
        rfl
      · rw [if_neg hraise, if_neg]
        · exact ⟨rfl, rfl⟩
        · rw [Bool.and_eq_true, beq_iff_eq]
          exact fun ⟨hr, hk⟩ => hraise ⟨hr, hk.symm⟩

theorem exec_rtail_acts {s : State} {g : Guard} {a : Src} {q : BitVec 2} (hcore : isCore s.cur = true) (ha : acts s 5 g [a] []) :
    exec (.rtail g a q) s = .next (rtailBody q (s.rd a) s) :=
  ((exec_rtail g a q s).trans (issueCore_eq hcore)).trans (issue_acts (dst := none) (fun s => rtailBody q (s.rd a) s) ha)

theorem consume_outside (s : State) (p detail : Nat) (fault : State → Nat → State) : consume s p false detail fault = fault s detail := rfl

theorem ctxFault_of_core {s : State} (h : isFw s.cur = false) (cause detail : Nat) (val : Word) : s.ctxFault cause detail val = s.scalarFault cause detail val :=
  if_neg (by rw [h]; exact Bool.false_ne_true)

theorem scalarFault_spec (s : State) (cause detail : Nat) (val : Word) : (s.scalarFault cause detail val).mem = s.mem ∧
    (s.scalarFault cause detail val).core = s.core ∧ (stream (s.scalarFault cause detail val)) = { stream s with run := .halted } ∧
    ∃ f : FaultRec, (s.scalarFault cause detail val).faults = s.faults ++ [f] ∧ f.cause = cause ∧ f.pos = (stream s).pc :=
  ⟨rfl, rfl, stream_upSc s fun y => { y with run := .halted }, _, rfl, rfl, rfl⟩

theorem rtailAccepts : Parts.RtailAccepts := by
  intro s g a q hq hcore ha
  have hexec := exec_rtail_acts (q := q) hcore ha
  refine ⟨fun htrap hring => ?_, fun hring hfree hfw ⟨j, hj, hbad⟩ => ?_, fun hring hecc hfree => ?_, fun htrap hring hn => ?_, fun htrap hring hn hfree => ?_⟩
  · exact completes_trapped_of_next (hexec.trans (congrArg _ (rtailBody_noRing hring))) (by decide) htrap
  · obtain ⟨k, hk⟩ : ∃ k, (rtailHeaders (ringOf s q) (s.rd a).toNat).find? (fun a => spBad s s.cur a 8) = some k := by
      refine Option.isSome_iff_exists.mp (List.find?_isSome.mpr ⟨_, List.mem_map.mpr ⟨j, List.mem_range.mpr hj, rfl⟩, hbad⟩)
    rw [rtailBody_room hring hfree, hk] at hexec
    obtain ⟨hmem, hco, hstream, f, hf, hcause, hpos⟩ := scalarFault_spec s 0x22 0 (BitVec.ofNat 64 k)
    refine ⟨_, hexec.trans (congrArg _ (ctxFault_of_core hfw 0x22 0 _)), hmem, hco, ?_, fun r => ?_, f, hf, hcause, hpos⟩
    · rw [hstream]
    · rw [hstream]
      rfl
  · have hnone : (rtailHeaders (ringOf s q) (s.rd a).toNat).find? (fun a => spBad s s.cur a 8) = none :=
      List.find?_eq_none.mpr fun x _ => by simp [spBad_of_no_error hecc]
    rw [rtailBody_room hring hfree, hnone] at hexec
    dsimp only at hexec
    rw [foldl_spFix_of_no_error hecc] at hexec
    obtain ⟨hcur, hscal, hmem, htail, hhead, hothers, hsems⟩ := acceptN_spec hq (s.rd a).toNat s
    have hring' (r : BitVec 2) : ringOf (acceptN q (s.rd a).toNat s).retire r = ringOf (acceptN q (s.rd a).toNat s) r := rfl
    have hsem' (k : Nat) : semOf (acceptN q (s.rd a).toNat s).retire k = semOf (acceptN q (s.rd a).toNat s) k := rfl
    refine ⟨_, hexec, streamMoves_retire hscal hcur, hmem, ?_, ?_, fun r hr hne => ?_, fun k => ?_⟩
    · rw [hring', htail]
    · rw [hring', hhead]
    · rw [hring', hothers r hr hne]
    · rw [hsem']
      exact hsems k
  · exact completes_trapped_of_next (hexec.trans (congrArg _ (rtailBody_over hring hn))) (by decide) htrap
  · exact completes_trapped_of_next (hexec.trans (congrArg _ (rtailBody_noRoom hring hn hfree))) (by decide) htrap

/-! ### QFENCE -/

/-- The scratchpad place at which queue j of the current core takes its next record. -/
def nextSlot (s : State) (j : Nat) : Nat := spKey s.cur ((ringOf s (BitVec.ofNat 2 j)).slot (ringOf s (BitVec.ofNat 2 j)).tail)

/-- Every queue of a list takes one record. -/
def acceptAll (w : BitVec 512) (qs : List Nat) (s : State) : State := qs.foldl (fun s j => acceptRecord s s.cur (BitVec.ofNat 2 j) w true) s

theorem queueNo_ne {i j : Nat} (hi : i < 3) (hj : j < 3) (h : j ≠ i) : BitVec.ofNat 2 j ≠ 3#2 ∧ BitVec.ofNat 2 j ≠ BitVec.ofNat 2 i := by
  rw [Ne, Ne, ← BitVec.toNat_inj, ← BitVec.toNat_inj, BitVec.toNat_ofNat, BitVec.toNat_ofNat]
  show ¬j % 4 = 3 ∧ ¬j % 4 = i % 4
  omega

theorem queueNo_ne_three {i : Nat} (hi : i < 3) : BitVec.ofNat 2 i ≠ 3#2 := by
  rw [Ne, ← BitVec.toNat_inj, BitVec.toNat_ofNat]
  show ¬i % 4 = 3
  omega

theorem acceptAll_rings (w : BitVec 512) (qs : List Nat) (hnodup : qs.Nodup) (hlt : ∀ j ∈ qs, j < 3) : ∀ s : State,
    (acceptAll w qs s).cur = s.cur ∧ (acceptAll w qs s).scal = s.scal ∧ ((acceptAll w qs s).co s.cur).joinNo = (s.co s.cur).joinNo ∧
    ∀ j, j < 3 → (ringOf (acceptAll w qs s) (BitVec.ofNat 2 j)).tail = (ringOf s (BitVec.ofNat 2 j)).tail + (if j ∈ qs then 1 else 0) ∧
      (ringOf (acceptAll w qs s) (BitVec.ofNat 2 j)).head = (ringOf s (BitVec.ofNat 2 j)).head := by
  induction qs with
  | nil => exact fun s => ⟨rfl, rfl, rfl, fun j hj => ⟨(BitVec.add_zero _).symm, rfl⟩⟩
  | cons i is ih =>
    intro s
    obtain ⟨hnot, hnodup⟩ := List.nodup_cons.mp hnodup
    have hi : i < 3 := hlt i List.mem_cons_self
    obtain ⟨⟨hcur, hscal, -, htail, hhead, -, -, -, hothers, hjoin, -⟩, -⟩ := acceptRecord_spec s (queueNo_ne_three hi) w true
    obtain ⟨u, hu⟩ : ∃ u, u = acceptRecord s s.cur (BitVec.ofNat 2 i) w true := ⟨_, rfl⟩
    have hstep : acceptAll w (i :: is) s = acceptAll w is u := by
      rw [hu]
      rfl
    rw [← hu] at hcur hscal htail hhead hothers hjoin
    obtain ⟨icur, iscal, ijoin, irings⟩ := ih hnodup (fun j hj => hlt j (List.mem_cons_of_mem _ hj)) u
    rw [hstep]
    refine ⟨icur.trans hcur, iscal.trans hscal, ?_, fun j hj => ?_⟩
    · rw [← hcur, ijoin, hcur, hjoin]
    · obtain ⟨itail, ihead⟩ := irings j hj
      rw [itail, ihead]
      by_cases hji : j = i
      · subst hji
        rw [htail, hhead, if_neg hnot, if_pos List.mem_cons_self]
        exact ⟨BitVec.add_zero _, rfl⟩
      · obtain ⟨h3, hne⟩ := queueNo_ne hi hj hji
        rw [hothers _ h3 hne]
        exact ⟨by simp [hji], rfl⟩

theorem acceptAll_memory (w : BitVec 512) (qs : List Nat) (hnodup : qs.Nodup) (hlt : ∀ j ∈ qs, j < 3) : ∀ s : State,
    (∀ k, (∀ j ∈ qs, k < nextSlot s j ∨ nextSlot s j + 64 ≤ k) → memGet (acceptAll w qs s).mem k = memGet s.mem k) ∧
    ((∀ i ∈ qs, ∀ j ∈ qs, i ≠ j → nextSlot s i + 64 ≤ nextSlot s j ∨ nextSlot s j + 64 ≤ nextSlot s i) →
      ∀ j ∈ qs, rdN (acceptAll w qs s).mem (nextSlot s j) 64 = w.toNat) := by
  induction qs with
  | nil => exact fun s => ⟨fun _ _ => rfl, fun _ j hj => absurd hj List.not_mem_nil⟩
  | cons i is ih =>
    intro s
    obtain ⟨hnot, hnodup⟩ := List.nodup_cons.mp hnodup
    have hi : i < 3 := hlt i List.mem_cons_self
    have his : ∀ j ∈ is, j < 3 := fun j hj => hlt j (List.mem_cons_of_mem _ hj)
    obtain ⟨⟨hcur, -, -, -, -, -, -, -, hothers, -, -⟩, hmem⟩ := acceptRecord_spec s (queueNo_ne_three hi) w true
    obtain ⟨u, hu⟩ : ∃ u, u = acceptRecord s s.cur (BitVec.ofNat 2 i) w true := ⟨_, rfl⟩
    have hstep : acceptAll w (i :: is) s = acceptAll w is u := by
      rw [hu]
      rfl
    rw [← hu] at hcur hothers hmem
    have hslot (j : Nat) (hj : j ∈ is) : nextSlot u j = nextSlot s j := by
      obtain ⟨h3, hne⟩ := queueNo_ne hi (his j hj) fun h => hnot (h ▸ hj)
      rw [nextSlot, nextSlot, hcur, hothers _ h3 hne]
    obtain ⟨iout, iin⟩ := ih hnodup his u
    rw [hstep]
    refine ⟨fun k hk => ?_, fun hapart j hj => ?_⟩
    · rw [iout k fun j hj => by rw [hslot j hj]; exact hk j (List.mem_cons_of_mem _ hj), hmem]
      exact memGet_wrN_out _ _ _ _ _ (hk i List.mem_cons_self)
    · rcases List.mem_cons.mp hj with rfl | hj
      · rw [rdN_congr (m := u.mem) fun b hb => iout _ fun k hk => ?_, hmem]
        · exact (rdN_wrN s.mem (nextSlot s j) 64 w.toNat).trans (toNat_mod_bytes (n := 64) w)
        · have := hapart j List.mem_cons_self k (List.mem_cons_of_mem _ hk) fun h => hnot (h ▸ hk)
          rw [hslot k hk]
          omega
      · rw [← hslot j hj]
        refine iin (fun a ha b hb hne => ?_) j hj
        rw [hslot a ha, hslot b hb]
        exact hapart a (List.mem_cons_of_mem _ ha) b (List.mem_cons_of_mem _ hb) hne

theorem mem_maskQueues (m : BitVec 3) (j : Nat) : j ∈ maskQueues m ↔ j < 3 ∧ m.getLsbD j = true := by
  rw [maskQueues, List.mem_filter]
  refine and_congr_left fun _ => ?_
  simp only [List.mem_cons, List.not_mem_nil, or_false]
  omega

theorem nodup_maskQueues (m : BitVec 3) : (maskQueues m).Nodup := List.Nodup.filter _ (by decide)

/-- The lowest named queue of which something holds. -/
theorem find_maskQueues {m : BitVec 3} {p : Nat → Bool} {j : Nat} (hj : j < 3) (hm : m.getLsbD j = true) (hp : p j = true)
    (hlow : ∀ k, k < j → m.getLsbD k = true → p k = false) : (maskQueues m).find? p = some j := by
  rw [maskQueues, List.find?_filter]
  refine List.find?_eq_some_iff_append.mpr ⟨by rw [hm, hp]; rfl, List.range j, List.range' (j + 1) (2 - j), ?_, fun k hk => ?_⟩
  · interval_cases j <;> rfl
  · rw [Bool.not_eq_true', decide_eq_false_iff_not]
    exact fun ⟨hmk, hpk⟩ => Bool.false_ne_true ((hlow k (List.mem_range.mp hk) hmk).symm.trans hpk)

theorem qfenceBody_noRing {s : State} {m : BitVec 3} {j : Nat} (h : (maskQueues m).find? (fun j => (ringOf s (BitVec.ofNat 2 j)).count == 0) = some j) :
    qfenceBody m s = s.trap 8 2 (BitVec.ofNat 64 j) := by
  unfold qfenceBody
  dsimp only
  show (match (maskQueues m).find? (fun j => (ringOf s (BitVec.ofNat 2 j)).count == 0) with | some j => _ | none => _) = _
  rw [h]

theorem qfenceBody_rings {s : State} {m : BitVec 3} (h : ∀ j, j < 3 → m.getLsbD j = true → (ringOf s (BitVec.ofNat 2 j)).count ≠ 0) :
    qfenceBody m s = if (maskQueues m).any fun j => (ringOf s (BitVec.ofNat 2 j)).full then s else
      (acceptAll (fenceRecord m (s.co s.cur).joinNo) (maskQueues m) (s.upCo s.cur fun x => { x with joinNo := (s.co s.cur).joinNo + 1 })).retire := by
  have hnone : (maskQueues m).find? (fun j => (ringOf s (BitVec.ofNat 2 j)).count == 0) = none := by
    refine List.find?_eq_none.mpr fun j hj => ?_
    obtain ⟨hj3, hm⟩ := (mem_maskQueues m j).mp hj
    simpa using h j hj3 hm
  unfold qfenceBody
  dsimp only
  show (match (maskQueues m).find? (fun j => (ringOf s (BitVec.ofNat 2 j)).count == 0) with | some j => _ | none => _) = _
  rw [hnone]
  rfl

theorem qfenceWritesFences : Parts.QfenceWritesFences := by
  intro s g m hcore ha
  have hexec := ((exec_qfence g m s).trans (issueCore_eq hcore)).trans (issue_acts (dst := none) (qfenceBody m) ha)
  refine ⟨fun j hj hm hcount hlow htrap => ?_, fun hrings => ⟨fun hroom => ?_, fun ⟨j, hj, hm, hfull⟩ => ⟨s, hexec.trans (congrArg _ ?_), rfl⟩⟩⟩
  · refine completes_trapped_of_next (hexec.trans (congrArg _ (qfenceBody_noRing (find_maskQueues hj hm (by simpa using hcount) fun k hk hmk => ?_))))
      (by decide) htrap
    simpa using hlow k hk hmk
  · rw [qfenceBody_rings hrings, if_neg] at hexec
    · obtain ⟨v, hv⟩ : ∃ v, v = s.upCo s.cur fun x => { x with joinNo := (s.co s.cur).joinNo + 1 } := ⟨_, rfl⟩
      have hvcur : v.cur = s.cur := by rw [hv]; rfl
      have hvscal : v.scal = s.scal := by rw [hv]; rfl
      have hvco : v.co s.cur = { s.co s.cur with joinNo := (s.co s.cur).joinNo + 1 } := by
        rw [hv]
        exact (upCo_get s s.cur (fun x => { x with joinNo := (s.co s.cur).joinNo + 1 }) s.cur).trans (if_pos rfl)
      have hvring (r : BitVec 2) : ringOf v r = ringOf s r := by
        rw [ringOf, hvcur, hvco]
        rfl
      have hlt : ∀ j ∈ maskQueues m, j < 3 := fun j hj => ((mem_maskQueues m j).mp hj).1
      obtain ⟨hcur, hscal, hjoin, hqueues⟩ := acceptAll_rings (fenceRecord m (s.co s.cur).joinNo) (maskQueues m) (nodup_maskQueues m) hlt v
      obtain ⟨-, hwritten⟩ := acceptAll_memory (fenceRecord m (s.co s.cur).joinNo) (maskQueues m) (nodup_maskQueues m) hlt v
      rw [← hv] at hexec
      obtain ⟨u, hu⟩ : ∃ u, u = acceptAll (fenceRecord m (s.co s.cur).joinNo) (maskQueues m) v := ⟨_, rfl⟩
      rw [← hu] at hexec hcur hscal hjoin hqueues hwritten
      have huring (r : BitVec 2) : ringOf u.retire r = ringOf u r := rfl
      refine ⟨_, hexec, streamMoves_retire (hscal.trans hvscal) (hcur.trans hvcur), ?_, fun j hj => ?_, fun hapart j hj hm => ?_⟩
      · rw [co_retire, ← hvcur, hjoin, hvcur, hvco]
      · obtain ⟨htail, hhead⟩ := hqueues j hj
        rw [huring, htail, hhead, hvring]
        refine ⟨?_, rfl⟩
        by_cases hmj : m.getLsbD j = true
        · rw [if_pos ((mem_maskQueues m j).mpr ⟨hj, hmj⟩), if_pos hmj]
        · rw [if_neg fun h => hmj ((mem_maskQueues m j).mp h).2, if_neg hmj]
      · have hslot (i : Nat) : nextSlot v i = spKey s.cur ((ringOf s (BitVec.ofNat 2 i)).slot (ringOf s (BitVec.ofNat 2 i)).tail) := by
          rw [nextSlot, hvcur, hvring]
        rw [← hslot]
        refine hwritten (fun a ha b hb hne => ?_) j ((mem_maskQueues m j).mpr ⟨hj, hm⟩)
        obtain ⟨ha3, hma⟩ := (mem_maskQueues m a).mp ha
        obtain ⟨hb3, hmb⟩ := (mem_maskQueues m b).mp hb
        have := hapart a b ha3 hb3 hne hma hmb _ _ rfl rfl
        rw [hslot, hslot]
        unfold spKey
        omega
    · rw [List.any_eq_true]
      rintro ⟨j, hj, hfull⟩
      obtain ⟨hj3, hm⟩ := (mem_maskQueues m j).mp hj
      exact hroom j hj3 hm ((full_iff _).mp hfull)
  · rw [qfenceBody_rings hrings, if_pos]
    exact List.any_eq_true.mpr ⟨j, (mem_maskQueues m j).mpr ⟨hj, hm⟩, (full_iff _).mpr hfull⟩

/-- Settles O20: an accepted record stands in its slot, TAIL and PEND count it, and the checks of ring, rule and room come in this order. -/
theorem recordQueues : Obligations.RecordQueues := ⟨pushesAccept, pushRefusesBadRecords, pushmTraps, rtailAccepts, qfenceWritesFences⟩

end Sys2Proof.Machine
end

section
/-! Sync objects (R97, R98): a home whose three words lie in two lines. -/
namespace Sys2Proof.Machine
set_option Elab.async false
open Safety

/-- Context 0 has a sync object at 0x40; core 0, whose s1 holds its address, has a translation for it that is not aligned, so that the object's words
stand at 0x70, 0x78 and 0x80, and the line of the last of them is uncorrectable. -/
def straddling : State :=
  { State.reset.put64 (cwinKey 0 0x1F00_0000) (2 ^ 63 + 0x40) with
    cur := 0, scal := [(0, { Scalar.reset with run := .running, regs := [(1, 0x40#64)] })],
    core := [(0, { Core.reset with capmask := BitVec.allOnes 64, tlb := [{ ctx := 0, unit := 0, base := 0x30, rights := 7 }] })],
    ecc := [(0x80, [0, 1, 2, 3, 4])] }

theorem acts_straddling : acts straddling 5 ⟨0#5, false⟩ [⟨1#6, false⟩, ⟨2#6, false⟩] [] := by
  unfold acts
  and_intros <;> decide +kernel

theorem mem_homeWord (s : State) (c : Nat) (ea : Word) (key v : Nat) :
    (homeWord s c ea key v).mem = if lineUncorrectable s key then s.mem else wrN s.mem key 8 v := by
  unfold homeWord
  dsimp only
  rw [lineUncorrectable_congr (xlatSame_noteRead s key)]
  have hmem : (noteRead s key).mem = s.mem := by
    rw [noteRead_eq]
  by_cases h : lineUncorrectable s key = true
  · rw [if_pos h, if_pos h]
    exact hmem
  · rw [if_neg h, if_neg h, ← hmem]
    rfl

/-- A word that a store to another place leaves. -/
theorem rdN_homeWord {s : State} {key k : Nat} (c : Nat) (ea : Word) (v : Nat) (h : k + 8 ≤ key ∨ key + 8 ≤ k) :
    rdN (homeWord s c ea key v).mem k 8 = rdN s.mem k 8 := by
  rw [mem_homeWord]
  split_ifs
  · rfl
  · exact rdN_wrN_out _ _ _ _ _ _ h

/-- The object's word 0 has been written. -/
def straddlingPut : State := putObj straddling 0 0x40#64 0x70 { objAt straddling 0x70 with
  holders := (objAt straddling 0x70).holders, waits := [], late := false } false

theorem lineUncorrectable_straddlingPut : lineUncorrectable straddlingPut (0x70 + 16) = true := by decide +kernel

theorem relnum_straddling : rdN (putReleased straddling 0 0x40#64 0x70 (objAt straddling 0x70).holders).mem (0x70 + 16) 8 = 0 := by
  have hput : putReleased straddling 0 0x40#64 0x70 (objAt straddling 0x70).holders = bumpRel straddlingPut 0 0x40#64 0x70 := by
    unfold putReleased
    dsimp only
    rw [if_neg (by decide +kernel)]
    rfl
  rw [hput, bumpRel, mem_homeWord, if_pos lineUncorrectable_straddlingPut, straddlingPut, putObj, rdN_homeWord _ _ _ (.inr (by decide))]
  decide +kernel

/-- What REL.SET does once the home is known, the stores performed, and nothing else held against it. -/
theorem exec_relSet_ready {s : State} {g : Guard} {a b : Src} {key : Nat} (ha : acts s 5 g [a, b] []) (halign : (s.rd a).toNat % 64 = 0)
    (hobj : objEntry s (stream s).ctx.toNat (s.rd a).toNat ≠ none) (hkey : resolve s s.cur (stream s).ctx.toNat (s.rd a).toNat 6 = .ok key)
    (hdrained : (stream s).drained = true) (hremote : objRemote s key = false) (hwaits : (objAt s key).waits.lookup s.cur = none)
    (hgood : lineUncorrectable s key = false) : exec (.relSet g a b) s =
      .next (homeWord (putReleased s (stream s).ctx.toNat (s.rd a) key (objAt s key).holders) (stream s).ctx.toNat (s.rd a) (key + 8) (s.rd b).toNat).retire := by
  have hsome : (objEntry s (s.sc s.cur).ctx.toNat (s.rd a).toNat).isNone = false := by
    rw [← stream_eq]
    simpa using Option.isSome_iff_ne_none.mpr hobj
  have hnoWait : beginWait s key (stream s).ctx.toNat (s.rd a) = s := by
    unfold beginWait
    dsimp only
    rw [if_neg fun h => by rw [hremote] at h; exact Bool.false_ne_true h.1]
  have hover : waitOver s key (stream s).ctx.toNat = true := by
    unfold waitOver
    rw [hwaits]
  refine ((exec_relSet g a b s).trans (issue_acts (dst := none) _ ha)).trans (congrArg _ ?_)
  rw [withObject, if_neg (not_not_intro halign), hsome, if_neg Bool.false_ne_true, ← stream_eq, hkey]
  dsimp only
  rw [whenReleased, ← stream_eq, hdrained]
  rw [Bool.not_true, if_neg Bool.false_ne_true, hnoWait]
  dsimp only
  rw [hover, if_pos rfl, hgood]
  rfl

/-- Refutes O23: a REL.SET of that object stores VALUE, but its RELNUM stands in a line that is uncorrectable and stays as it was (`straddling`). -/
theorem not_acquireAndRelease : ¬Obligations.AcquireAndRelease := by
  rintro ⟨-, hrelease⟩
  have hexec := exec_relSet_ready acts_straddling (by decide +kernel) (by decide +kernel) (key := 0x70) (by decide +kernel) (by decide +kernel)
    (by decide +kernel) (by decide +kernel) (by decide +kernel)
  obtain ⟨-, -, hset, -⟩ :=
    hrelease straddling ⟨0#5, false⟩ ⟨1#6, false⟩ ⟨2#6, false⟩ 0x70 acts_straddling (by decide +kernel) (by decide +kernel) (by decide +kernel)
  obtain ⟨t, ht, -, -, -, hrelnum, -⟩ := hset (by decide +kernel) (by decide +kernel) (by decide +kernel) (by decide +kernel)
  have hmem : rdN t.mem (0x70 + 16) 8 = 0 := by
    obtain rfl := Host.Outcome.next.inj (hexec.symm.trans ht)
    rw [State_retire_mem, rdN_homeWord _ _ _ (.inr (by decide))]
    exact relnum_straddling
  rw [hmem] at hrelnum
  exact absurd hrelnum (by decide +kernel)

end Sys2Proof.Machine
end

section
/-! Completion of records, fences and the grant of the array (R92, R113, R131, R135, R136, R140, R174, R175, R218, R379). -/
namespace Sys2Proof.Machine
set_option Elab.async false
open Safety

/-! ### A record completes -/

/-- The core once the oldest started record of a queue has left it. -/
def doneCore (x : Core) (q : BitVec 2) (f : Flight) (fs : List Flight) : Core :=
  ((x.setTags f.tags).noteStat f).setQueue q { x.queue q with
    flight := fs, head := (x.queue q).head + 1, evt := (x.queue q).evt || hdrEvent f.hdr, fences := (x.queue q).fences.filter (· != f.slot) }

/-- Its raise has taken effect. -/
def raisedCore (x : Core) (f : Flight) : Core := if hdrRaise f.hdr then x.raise (hdrSem f.hdr) f.err else x

theorem co_raiseBy (s : State) (p qu : Nat) (slot : BitVec 32) (k : Nat) (err : Bool) :
    ∃ und, (raiseBy s p p qu slot k err).co p = { (s.co p).raise k err with undone := und } := by
  unfold raiseBy
  rw [upCo_get, if_pos rfl]
  dsimp only
  split
  · exact ⟨_, rfl⟩
  · exact ⟨_, rfl⟩

theorem chainTest_eq (s : State) (p : Nat) (h : Word) : chainTest s p h = { s with quad := (chainTest s p h).quad } := by
  unfold chainTest
  dsimp only
  split
  · rfl
  · split
    · rfl
    · exact endGrant_eq s p

theorem holdsGrant_chainTest {s : State} {p : Nat} {h : Word} (hc : hdrChain h = false) : holdsGrant (chainTest s p h) p = false := by
  unfold chainTest
  dsimp only
  by_cases hg : holdsGrant s p = true
  · rw [hg, hc, Bool.not_true, if_neg Bool.false_ne_true, if_neg (by simp)]
    exact holdsGrant_endGrant s p
  · rw [if_pos (by simpa using hg)]
    simpa using hg

theorem finishRoll_of_not_rolling {s : State} {p : Nat} (h : (s.co p).rolling = false) : finishRoll s p = s := by
  unfold finishRoll
  dsimp only
  rw [h]
  rfl

theorem rolling_setQueue (x : Core) (q : BitVec 2) (v : Queue) : (x.setQueue q v).rolling = x.rolling := by
  unfold Core.setQueue
  split_ifs <;> rfl

theorem rolling_noteStat (x : Core) (f : Flight) : (x.noteStat f).rolling = x.rolling := by
  unfold Core.noteStat
  split_ifs <;> rfl

theorem rolling_doneCore (x : Core) (q : BitVec 2) (f : Flight) (fs : List Flight) : (doneCore x q f fs).rolling = x.rolling := by
  unfold doneCore
  rw [rolling_setQueue, rolling_noteStat]
  rfl

theorem rolling_raisedCore (x : Core) (f : Flight) : (raisedCore x f).rolling = x.rolling := by
  unfold raisedCore
  split_ifs <;> rfl

/-- What the completion of a record changes of the package. -/
theorem completeHead_spec {s : State} {p : Nat} {q : BitVec 2} {f : Flight} {fs : List Flight} (hf : ((s.co p).queue q).flight = f :: fs)
    (hpend : f.pend = 0) (hmade : f.made = true) (hroll : (s.co p).rolling = false) :
    completeHead s p q = { s with core := (completeHead s p q).core, quad := (completeHead s p q).quad } ∧
      (∀ j, j ≠ p → (completeHead s p q).co j = s.co j) ∧
      (∃ und, (completeHead s p q).co p = { raisedCore (doneCore (s.co p) q f fs) f with undone := und }) ∧
      (q ≠ 1#2 → (completeHead s p q).quad = s.quad) ∧ (q = 1#2 → hdrChain f.hdr = false → holdsGrant (completeHead s p q) p = false) := by
  obtain ⟨v, hv⟩ : ∃ v, v = s.putCo p (doneCore (s.co p) q f fs) := ⟨_, rfl⟩
  have hvco (j : Nat) : v.co j = if j = p then doneCore (s.co p) q f fs else s.co j := by
    rw [hv, putCo_get]
  obtain ⟨u, hu⟩ : ∃ u, u = if hdrRaise f.hdr then raiseBy v p p q.toNat f.slot (hdrSem f.hdr) f.err else v := ⟨_, rfl⟩
  have hueq : u = { s with core := u.core } := by
    rw [hu, hv]
    split_ifs <;> rfl
  have hother (j : Nat) (hj : j ≠ p) : u.co j = s.co j := by
    rw [hu]
    split_ifs
    · rw [raiseBy, upCo_get, if_neg hj, hvco, if_neg hj]
    · rw [hvco, if_neg hj]
  obtain ⟨und, hco⟩ : ∃ und, u.co p = { raisedCore (doneCore (s.co p) q f fs) f with undone := und } := by
    rw [hu, raisedCore]
    by_cases hr : hdrRaise f.hdr = true
    · rw [if_pos hr, if_pos hr]
      obtain ⟨und, h⟩ := co_raiseBy v p q.toNat f.slot (hdrSem f.hdr) f.err
      rw [hvco, if_pos rfl] at h
      exact ⟨und, h⟩
    · rw [if_neg hr, if_neg hr, hvco, if_pos rfl]
      exact ⟨_, rfl⟩
  have hnot : ¬(f.pend ≠ 0 ∨ (!f.made) = true) := by
    rw [hpend, hmade]
    simp
  have heq : completeHead s p q = if q = 1#2 then chainTest u p f.hdr else u := by
    have hstep : completeHead s p q = finishRoll (if q = 1#2 then chainTest u p f.hdr else u) p := by
      unfold completeHead
      dsimp only
      rw [hf]
      dsimp only
      rw [if_neg hnot, hroll, if_neg Bool.false_ne_true]
      rw [hu, hv]
      rfl
    rw [hstep, finishRoll_of_not_rolling]
    have hrolled : (u.co p).rolling = false := by
      rw [hco]
      exact (rolling_raisedCore _ f).trans ((rolling_doneCore _ q f fs).trans hroll)
    split_ifs
    · rw [chainTest_eq]
      exact hrolled
    · exact hrolled
  rw [heq]
  by_cases hq : q = 1#2
  · rw [if_pos hq]
    refine ⟨?_, fun j hj => ?_, ⟨und, ?_⟩, fun h => absurd hq h, fun _ hc => holdsGrant_chainTest hc⟩
    · rw [chainTest_eq, hueq]
    · rw [chainTest_eq]
      exact hother j hj
    · rw [chainTest_eq]
      exact hco
  · rw [if_neg hq]
    exact ⟨by rw [hueq], hother, ⟨und, hco⟩, fun _ => by rw [hueq], fun h => absurd h hq⟩

/-! ### What a completed record leaves of its core -/

theorem setQueue_eq (x : Core) (q : BitVec 2) (v : Queue) : x.setQueue q v =
    { x with vq := (x.setQueue q v).vq, mq := (x.setQueue q v).mq, cq := (x.setQueue q v).cq } := by
  unfold Core.setQueue
  split_ifs <;> rfl

theorem noteStat_eq (x : Core) (f : Flight) : x.noteStat f = { x with cqstat := (x.noteStat f).cqstat } := by
  unfold Core.noteStat
  split_ifs <;> rfl

theorem cqstat_setQueue (x : Core) (q : BitVec 2) (v : Queue) : (x.setQueue q v).cqstat = x.cqstat := by
  rw [setQueue_eq]

theorem raisedCore_eq (x : Core) (f : Flight) : raisedCore x f = { x with sems := (raisedCore x f).sems } := by
  unfold raisedCore
  split_ifs <;> rfl

theorem queue_noteStat (x : Core) (f : Flight) (q : BitVec 2) : (x.noteStat f).queue q = x.queue q := by
  rw [noteStat_eq]
  rfl

section
variable (x : Core) (q : BitVec 2) (f : Flight) (fs : List Flight)

theorem doneCore_eq : doneCore x q f fs = { x with
    btags := f.tags.foldl (fun t e => tput t e.1 e.2 0) x.btags, cqstat := (x.noteStat f).cqstat, vq := (doneCore x q f fs).vq,
    mq := (doneCore x q f fs).mq, cq := (doneCore x q f fs).cq } := by
  have hstat : ((x.setTags f.tags).noteStat f).cqstat = (x.noteStat f).cqstat := by
    have htags : (x.setTags f.tags).cqstat = x.cqstat := rfl
    unfold Core.noteStat
    rw [htags]
    by_cases h : f.stat = 0 ∨ x.cqstat.getLsbD 63 = true
    · rw [if_pos h, if_pos h, htags]
    · rw [if_neg h, if_neg h]
  unfold doneCore
  rw [setQueue_eq, noteStat_eq, hstat]
  rfl

theorem queue_raisedCore (k : BitVec 2) : (raisedCore x f).queue k = x.queue k := by
  rw [raisedCore_eq]
  rfl

theorem queue_doneCore : (doneCore x q f fs).queue q = { x.queue q with
    flight := fs, head := (x.queue q).head + 1, evt := (x.queue q).evt || hdrEvent f.hdr, fences := (x.queue q).fences.filter (· != f.slot) } :=
  queue_setQueue _ _ _

theorem queue_doneCore_other {k : BitVec 2} (hk : k ≠ 3#2) (hne : k ≠ q) (hq : q ≠ 3#2) : (doneCore x q f fs).queue k = x.queue k := by
  rw [doneCore, queue_setQueue_other _ hk hne hq, queue_noteStat]
  rfl

theorem sem_raisedCore (k : Nat) : (raisedCore x f).sem k = if hdrRaise f.hdr = true ∧ k = hdrSem f.hdr then
    { x.sem k with done := (x.sem k).done + 1, err := (x.sem k).err || f.err } else x.sem k := by
  unfold raisedCore
  by_cases hr : hdrRaise f.hdr = true
  · rw [if_pos hr]
    refine (sem_setSem x _ k _).trans ?_
    by_cases hk : k = hdrSem f.hdr
    · rw [if_pos hk, if_pos ⟨hr, hk⟩, hk]
    · rw [if_neg hk, if_neg fun h => hk h.2]
  · rw [if_neg hr, if_neg fun h => hr h.1]

theorem sem_doneCore (k : Nat) : (doneCore x q f fs).sem k = x.sem k := by
  rw [doneCore_eq]
  rfl

end

/-- The core of a package on which a record has completed. -/
structure Completed (x y : Core) (q : BitVec 2) (f : Flight) (fs : List Flight) : Prop where
  ring : y.queue q = { x.queue q with
    flight := fs, head := (x.queue q).head + 1, evt := (x.queue q).evt || hdrEvent f.hdr, fences := (x.queue q).fences.filter (· != f.slot) }
  rings : ∀ k, k ≠ 3#2 → k ≠ q → y.queue k = x.queue k
  sems : ∀ k, y.sem k = if hdrRaise f.hdr = true ∧ k = hdrSem f.hdr then
    { x.sem k with done := (x.sem k).done + 1, err := (x.sem k).err || f.err } else x.sem k
  rest : y = { x with
    btags := f.tags.foldl (fun t e => tput t e.1 e.2 0) x.btags, cqstat := (x.noteStat f).cqstat, vq := y.vq, mq := y.mq, cq := y.cq, sems := y.sems,
    undone := y.undone }

theorem completed_of_eq {x y : Core} {q : BitVec 2} {f : Flight} {fs : List Flight} {und : List Undo} (hq : q ≠ 3#2)
    (hy : y = { raisedCore (doneCore x q f fs) f with undone := und }) : Completed x y q f fs := by
  have hqueue (k : BitVec 2) : y.queue k = (doneCore x q f fs).queue k := by
    rw [hy]
    exact queue_raisedCore _ _ _
  refine ⟨?_, fun k hk hne => ?_, fun k => ?_, ?_⟩
  · rw [hqueue, queue_doneCore]
  · rw [hqueue, queue_doneCore_other _ _ _ _ hk hne hq]
  · rw [hy]
    refine (sem_raisedCore _ f k).trans ?_
    rw [sem_doneCore]
  · rw [hy, raisedCore_eq, doneCore_eq]

theorem completeHead_completed {s : State} {q : BitVec 2} {f : Flight} {fs : List Flight} (hq : q ≠ 3#2) (hf : (ringOf s q).flight = f :: fs)
    (hpend : f.pend = 0) (hmade : f.made = true) (hroll : (s.co s.cur).rolling = false) :
    Completed (s.co s.cur) ((completeHead s s.cur q).co s.cur) q f fs := by
  obtain ⟨-, -, ⟨und, hco⟩, -, -⟩ := completeHead_spec hf hpend hmade hroll
  exact completed_of_eq hq hco

/-! ### RECORD_COMPLETE -/

theorem execRecordComplete_eq {s : State} {q : BitVec 2} (hq : q ≠ 3#2) (hscan : q = 1#2 → scanning6 (s.co s.cur) = false) :
    execRecordComplete q s = .next (completeHead s s.cur q) := by
  unfold execRecordComplete
  rw [if_neg hq, if_neg fun h => by rw [hscan h.1] at h; exact Bool.false_ne_true h.2]

theorem completeHead_none {s : State} {q : BitVec 2} (h : (ringOf s q).flight = []) : completeHead s s.cur q = s := by
  have h' : ((s.co s.cur).queue q).flight = [] := h
  unfold completeHead
  dsimp only
  rw [h']

theorem completeHead_waits {s : State} {q : BitVec 2} {f : Flight} {fs : List Flight} (h : (ringOf s q).flight = f :: fs) (hw : f.pend ≠ 0 ∨ f.made = false) :
    completeHead s s.cur q = s := by
  have h' : ((s.co s.cur).queue q).flight = f :: fs := h
  unfold completeHead
  dsimp only
  rw [h']
  exact if_pos (hw.imp_right fun hm => by rw [hm]; rfl)

theorem patternDone_held {s : State} {p : Nat} (h : holdsGrant s p = true) : patternDone s p = s.putQd (quadOf p)
    (if (s.qd (quadOf p)).run < (s.qd (quadOf p)).lim then { s.qd (quadOf p) with run := (s.qd (quadOf p)).run + 1 }
      else { s.qd (quadOf p) with grant := none, run := 0 }) := by
  unfold patternDone
  dsimp only
  rw [h, Bool.not_true, if_neg Bool.false_ne_true]
  split_ifs
  · rfl
  · unfold endGrant
    rw [if_pos h]

theorem recordCompletion : Parts.RecordCompletion := by
  refine ⟨fun s hscan hheld => ?_, fun s q hq hscan => ⟨fun hnone => ⟨s, ?_, rfl⟩, fun f fs hf => ⟨fun hw => ⟨s, ?_, rfl⟩, fun hpend hmade hroll => ?_⟩⟩⟩
  · refine ⟨patternDone s s.cur, ?_, ?_, fun k hk => ?_, ?_⟩
    · rw [exec_recordComplete, execRecordComplete, if_neg (by decide), if_pos ⟨rfl, hscan⟩]
    · rw [patternDone_held hheld]
      rfl
    · rw [patternDone_held hheld, putQd_get, if_neg hk]
    · rw [patternDone_held hheld, putQd_get, if_pos rfl]
  · rw [exec_recordComplete, execRecordComplete_eq hq hscan, completeHead_none hnone]
  · rw [exec_recordComplete, execRecordComplete_eq hq hscan, completeHead_waits hf hw]
  · obtain ⟨heq, hother, -, hquad, hgrant⟩ := completeHead_spec hf hpend hmade hroll
    obtain ⟨hring, hrings, hsems, hrest⟩ := completeHead_completed hq hf hpend hmade hroll
    obtain ⟨t, ht⟩ : ∃ t, t = completeHead s s.cur q := ⟨_, rfl⟩
    rw [← ht] at heq hother hquad hgrant hring hrings hsems hrest
    have hcur : t.cur = s.cur := by rw [heq]
    have hringOf (k : BitVec 2) : ringOf t k = (t.co s.cur).queue k := by rw [ringOf, hcur]
    have hsemOf (k : Nat) : semOf t k = (t.co s.cur).sem k := by rw [semOf, hcur]
    have hstat : (t.co s.cur).cqstat = ((s.co s.cur).noteStat f).cqstat := by rw [hrest]
    have htags : (t.co s.cur).btags = f.tags.foldl (fun t e => tput t e.1 e.2 0) (s.co s.cur).btags := by rw [hrest]
    refine ⟨t, ?_, by rw [heq], fun a => by rw [heq]; rfl, hother, ?_, ?_, ?_, ?_, fun k hk hne => ?_, fun k => ?_, fun h => ?_, fun b g h k => ?_,
      fun h => ?_, fun h hset => ?_, fun h hclear => ?_, hquad, hgrant⟩
    · rw [exec_recordComplete, execRecordComplete_eq hq hscan, ht]
    · rw [hringOf, hring]
    · rw [hringOf, hring]
      rfl
    · rw [hringOf, hring]
      rfl
    · rw [hringOf, hring]
      rfl
    · rw [hringOf, hrings k hk hne]
      rfl
    · rw [hsemOf, hsems]
      rfl
    · rw [htags, h]
      rfl
    · rw [htags, h]
      exact tget_tput _ _ _ _ _
    · rw [hstat, Core.noteStat, if_pos (.inl h)]
    · rw [hstat, Core.noteStat, if_pos (.inr hset)]
    · rw [hstat, Core.noteStat, if_neg]
      rintro (h0 | h1)
      · exact h h0
      · rw [hclear] at h1
        exact Bool.false_ne_true h1

/-! ### JOIN -/

/-- A fence that an engine takes at the head of its queue. -/
theorem pushFlight_plain {s : State} {q : BitVec 2} (hroll : (s.co s.cur).rolling = false) (c : BitVec 32) : pushFlight s s.cur q c 0 false =
    s.upCo s.cur fun x => x.setQueue q { x.queue q with flight := (x.queue q).flight ++ [newFlight s s.cur q c 0 false], words := [] } := by
  unfold pushFlight
  dsimp only
  rw [hroll]
  rfl

theorem newFlight_fields {s : State} {q : BitVec 2} (hroll : (s.co s.cur).rolling = false) (c : BitVec 32) :
    (newFlight s s.cur q c 0 false).hdr = header (Queue.record s s.cur (ringOf s q) c) ∧ (newFlight s s.cur q c 0 false).pend = 0 ∧
      (newFlight s s.cur q c 0 false).made = true ∧ (newFlight s s.cur q c 0 false).tags = [] ∧ (newFlight s s.cur q c 0 false).stat = 0 ∧
      (newFlight s s.cur q c 0 false).slot = c ∧ (newFlight s s.cur q c 0 false).err = false := by
  refine ⟨?_, rfl, rfl, rfl, rfl, rfl, rfl⟩
  unfold newFlight
  dsimp only
  rw [hroll]
  cases (s.co s.cur).ckpt <;> rfl

/-- What the retirement of a fence that heads its queue changes. -/
structure Retired (s t : State) (q : BitVec 2) : Prop where
  eq : t = { s with core := t.core, quad := t.quad }
  other : ∀ j, j ≠ s.cur → t.co j = s.co j
  ring : ringOf t q = { ringOf s q with
    head := (ringOf s q).head + 1, words := [], evt := (ringOf s q).evt || hdrEvent (header (Queue.record s s.cur (ringOf s q) (ringOf s q).head)),
    fences := (ringOf s q).fences.filter (· != (ringOf s q).head) }
  rings : ∀ k, k ≠ 3#2 → k ≠ q → ringOf t k = ringOf s k
  sems : ∀ k, semOf t k = if hdrRaise (header (Queue.record s s.cur (ringOf s q) (ringOf s q).head)) = true ∧
      k = hdrSem (header (Queue.record s s.cur (ringOf s q) (ringOf s q).head)) then { semOf s k with done := (semOf s k).done + 1 } else semOf s k
  rest : ∃ v, t.co s.cur = { s.co s.cur with
    vq := (t.co s.cur).vq, mq := (t.co s.cur).mq, cq := (t.co s.cur).cq, sems := (t.co s.cur).sems, undone := v }
  quad : q ≠ 1#2 → t.quad = s.quad

theorem next_of_no_flight {v : Queue} (h : v.flight = []) : v.next = v.head := by
  unfold Queue.next
  rw [h]
  exact BitVec.add_zero _

theorem retireFence_retired {s : State} {q : BitVec 2} (hq : q ≠ 3#2) (hroll : (s.co s.cur).rolling = false) (hflight : (ringOf s q).flight = []) :
    Retired s (retireFence s s.cur q false) q := by
  obtain ⟨f, hf⟩ : ∃ f, f = newFlight s s.cur q (ringOf s q).head 0 false := ⟨_, rfl⟩
  obtain ⟨hhdr, hpend, hmade, htags, hstat, hslot, herr⟩ := newFlight_fields (q := q) hroll (ringOf s q).head
  rw [← hf] at hhdr hpend hmade htags hstat hslot herr
  obtain ⟨u, hu⟩ : ∃ u, u = s.upCo s.cur fun x => x.setQueue q { x.queue q with flight := (x.queue q).flight ++ [f], words := [] } := ⟨_, rfl⟩
  have hucur : u.cur = s.cur := by rw [hu]; rfl
  have hretire : retireFence s s.cur q false = completeHead u u.cur q := by
    unfold retireFence
    rw [show ((s.co s.cur).queue q).next = (ringOf s q).head from next_of_no_flight hflight, pushFlight_plain hroll, ← hf, ← hu, hucur]
  have huco : u.co s.cur = (s.co s.cur).setQueue q { ringOf s q with flight := [f], words := [] } := by
    rw [hu]
    refine (upCo_get s s.cur _ s.cur).trans ((if_pos rfl).trans ?_)
    show (s.co s.cur).setQueue q { ringOf s q with flight := (ringOf s q).flight ++ [f], words := [] } = _
    rw [hflight]
    rfl
  have huother (j : Nat) (hj : j ≠ s.cur) : u.co j = s.co j := by
    rw [hu]
    exact (upCo_get s s.cur _ j).trans (if_neg hj)
  have huring : ringOf u q = { ringOf s q with flight := [f], words := [] } := by
    rw [ringOf, hucur, huco, queue_setQueue]
  have hurings (k : BitVec 2) (hk : k ≠ 3#2) (hne : k ≠ q) : (u.co u.cur).queue k = ringOf s k := by
    rw [hucur, huco, queue_setQueue_other _ hk hne hq]
    rfl
  have husem (k : Nat) : (u.co u.cur).sem k = semOf s k := by
    rw [hucur, huco, sem_setQueue]
    rfl
  have huflight : (ringOf u q).flight = f :: [] := by rw [huring]
  have huroll : (u.co u.cur).rolling = false := by
    rw [hucur, huco, rolling_setQueue, hroll]
  obtain ⟨heq, hother, -, hquad, -⟩ := completeHead_spec huflight hpend hmade huroll
  obtain ⟨hring, hrings, hsems, hrest⟩ := completeHead_completed hq huflight hpend hmade huroll
  obtain ⟨t, ht⟩ : ∃ t, t = completeHead u u.cur q := ⟨_, rfl⟩
  rw [← ht] at heq hother hquad hring hrings hsems hrest
  have hcur : t.cur = s.cur := by rw [heq, hucur]
  have hqueue : (u.co u.cur).queue q = { ringOf s q with flight := [f], words := [] } := huring
  have htco : t.co s.cur = t.co u.cur := by rw [hucur]
  rw [hretire, ← ht]
  refine ⟨?_, fun j hj => ?_, ?_, fun k hk hne => ?_, fun k => ?_, ⟨(t.co s.cur).undone, ?_⟩, fun h => ?_⟩
  · rw [heq, hu]
    rfl
  · rw [hother j (by rwa [hucur]), huother j hj]
  · rw [ringOf, hcur, htco, hring, hqueue, hhdr, hslot]
    dsimp only
    rw [hflight]
  · rw [ringOf, hcur, htco, hrings k hk hne, hurings k hk hne]
  · rw [semOf, hcur, htco, hsems, husem, hhdr, herr, Bool.or_false]
  · rw [hucur, huco, htags, Core.noteStat, if_pos (.inl hstat)] at hrest
    rw [setQueue_eq] at hrest
    exact hrest
  · rw [hquad h, hu]
    rfl

theorem startJoin_eq {s : State} {r : Rec} {c : BitVec 32} (hnext : (s.co s.cur).nextSlot s.curq = some c) (hstop : (ringOf s s.curq).stopped = false)
    (hflight : (ringOf s s.curq).flight = []) (haw : r.awEn = false) (hcls : (s.co s.cur).capmask.getLsbD 38 = true)
    (hrule : ruleBroken (judgeOf s s.cur s.curq ((ringOf s s.curq).fences.contains c)) 3 1 r = 0) : startJoin r s =
      if (ringOf s s.curq).fences.contains c = false then retireFence s s.cur s.curq false
      else if ([0, 1, 2].filter fun j => r.mods.getLsbD j).all (fenceAtHead s s.cur (r.n1 ++ r.n0)) then
        ([0, 1, 2].filter fun j => r.mods.getLsbD j).foldl (fun t j => retireFence t s.cur (BitVec.ofNat 2 j) false) s else s := by
  have hstop' : ((s.co s.cur).queue s.curq).stopped = false := hstop
  have hflight' : ((s.co s.cur).queue s.curq).flight = [] := hflight
  have hrule' : ruleBroken (judgeOf s s.cur s.curq (((s.co s.cur).queue s.curq).fences.contains c)) 3 1 r = 0 := hrule
  unfold startJoin
  dsimp only
  rw [hnext]
  dsimp only
  rw [hstop', hrule', haw, hcls, if_neg Bool.false_ne_true, if_neg (not_not_intro rfl), Bool.false_and, if_neg Bool.false_ne_true, Bool.not_true,
    if_neg Bool.false_ne_true, if_neg (not_not_intro hflight'), Bool.false_and, Bool.or_false]
  show (if (!(ringOf s s.curq).fences.contains c) = true then _ else _) = _
  cases (ringOf s s.curq).fences.contains c <;> rfl

/-- Several fences retire, each at the head of its queue. -/
theorem retireFences (qs : List Nat) (hnodup : qs.Nodup) (hlt : ∀ j ∈ qs, j < 3) (p : Nat) : ∀ s : State, s.cur = p → (s.co s.cur).rolling = false →
    (∀ j ∈ qs, (ringOf s (BitVec.ofNat 2 j)).flight = []) →
    let t := qs.foldl (fun s j => retireFence s p (BitVec.ofNat 2 j) false) s
    t.cur = s.cur ∧ t.mem = s.mem ∧ t.scal = s.scal ∧
      ∀ k, k < 3 → (ringOf t (BitVec.ofNat 2 k)).head = if k ∈ qs then (ringOf s (BitVec.ofNat 2 k)).head + 1 else (ringOf s (BitVec.ofNat 2 k)).head := by
  induction qs with
  | nil => exact fun s _ _ _ => ⟨rfl, rfl, rfl, fun _ _ => rfl⟩
  | cons i is ih =>
    intro s hp hroll hflights
    obtain ⟨hnot, hnodup⟩ := List.nodup_cons.mp hnodup
    have hi : i < 3 := hlt i List.mem_cons_self
    have his : ∀ j ∈ is, j < 3 := fun j hj => hlt j (List.mem_cons_of_mem _ hj)
    obtain ⟨u, hu⟩ : ∃ u, u = retireFence s s.cur (BitVec.ofNat 2 i) false := ⟨_, rfl⟩
    obtain ⟨heq, -, hring, hrings, -, ⟨und, hrest⟩, -⟩ := retireFence_retired (queueNo_ne_three hi) hroll (hflights i List.mem_cons_self)
    rw [← hu] at heq hring hrings hrest
    have hcur : u.cur = s.cur := by rw [heq]
    have huroll : (u.co u.cur).rolling = false := by
      rw [hcur, hrest]
      exact hroll
    have hother (j : Nat) (hj : j < 3) (hne : j ≠ i) : ringOf u (BitVec.ofNat 2 j) = ringOf s (BitVec.ofNat 2 j) := by
      obtain ⟨h3, hne⟩ := queueNo_ne hi hj hne
      exact hrings _ h3 hne
    obtain ⟨icur, imem, iscal, iheads⟩ := ih hnodup his u (hcur.trans hp) huroll fun j hj => by
      rw [hother j (his j hj) fun h => hnot (h ▸ hj)]
      exact hflights j (List.mem_cons_of_mem _ hj)
    rw [List.foldl_cons, show retireFence s p (BitVec.ofNat 2 i) false = u by rw [hu, hp]]
    refine ⟨icur.trans hcur, imem.trans (by rw [heq]), iscal.trans (by rw [heq]), fun k hk => ?_⟩
    rw [iheads k hk]
    by_cases hki : k = i
    · subst hki
      rw [if_neg hnot, if_pos List.mem_cons_self, hring]
    · rw [hother k hk hki]
      simp only [List.mem_cons, hki, false_or]

theorem mem_joinGroup (r : Rec) (j : Nat) : (j ∈ [0, 1, 2].filter fun j => r.mods.getLsbD j) ↔ j < 3 ∧ r.mods.getLsbD j = true := by
  rw [List.mem_filter]
  refine and_congr_left fun _ => ?_
  simp only [List.mem_cons, List.not_mem_nil, or_false]
  omega

theorem fenceAtHead_flight {s : State} {num : BitVec 32} {j : Nat} (h : fenceAtHead s s.cur num j = true) : (ringOf s (BitVec.ofNat 2 j)).flight = [] := by
  unfold fenceAtHead at h
  simp only [Bool.and_eq_true, beq_iff_eq] at h
  obtain ⟨⟨⟨⟨⟨hflight, -⟩, -⟩, -⟩, -⟩, -⟩ := h
  exact hflight

theorem nextSlot_of_not_rolling {x : Core} {q : BitVec 2} {c : BitVec 32} (h : x.nextSlot q = some c) (hroll : x.rolling = false) : c = (x.queue q).next := by
  unfold Core.nextSlot at h
  rw [hroll, if_neg Bool.false_ne_true] at h
  split at h
  · exact (Option.some.inj h).symm
  · cases h

theorem filter_ne_of_not_contains {l : List (BitVec 32)} {c : BitVec 32} (h : l.contains c = false) : l.filter (· != c) = l := by
  refine List.filter_eq_self.mpr fun a ha => ?_
  have hne : a ≠ c := fun hac => by
    rw [← hac, List.contains_iff_mem.mpr ha] at h
    exact Bool.false_ne_true h.symm
  simpa using hne

theorem joins (s : State) (r : Rec) (c : BitVec 32) (v : Queue) (hv : v = ringOf s s.curq) (hq : s.curq ≠ 3#2) (hnext : (s.co s.cur).nextSlot s.curq = some c)
    (hroll : (s.co s.cur).rolling = false) (hstop : v.stopped = false) (hflight : v.flight = []) (haw : r.awEn = false)
    (hcls : (s.co s.cur).capmask.getLsbD 38 = true) (hrule : ruleBroken (judgeOf s s.cur s.curq (v.fences.contains c)) 3 1 r = 0) :
    (v.fences.contains c = false → completes (.join r) s fun t =>
      t = { s with core := t.core, quad := t.quad } ∧ (∀ p, p ≠ s.cur → t.co p = s.co p) ∧ accKept s t ∧ vregsKept s t ∧
      (∀ k, semOf t k = if hdrRaise (slotHeader s c) = true ∧ k = hdrSem (slotHeader s c) then
        { semOf s k with done := (semOf s k).done + 1 } else semOf s k) ∧
      ringOf t s.curq = { v with head := v.head + 1, words := [], evt := v.evt || hdrEvent (slotHeader s c) } ∧
      (∀ k, k ≠ 3#2 → k ≠ s.curq → ringOf t k = ringOf s k) ∧ (s.curq ≠ 1#2 → t.quad = s.quad)) ∧
    (v.fences.contains c = true → (∀ j, j < 3 → r.mods.getLsbD j = true → fenceAtHead s s.cur (r.n1 ++ r.n0) j = true) →
      completes (.join r) s fun t =>
        t.mem = s.mem ∧ (∀ a, t.sc a = s.sc a) ∧ ∀ k : BitVec 2, k ≠ 3#2 →
          (ringOf t k).head = (if r.mods.getLsbD k.toNat then (ringOf s k).head + 1 else (ringOf s k).head)) ∧
    (v.fences.contains c = true → ∀ j, j < 3 → r.mods.getLsbD j = true → fenceAtHead s s.cur (r.n1 ++ r.n0) j = false →
      completes (.join r) s fun t => t = s) := by
  subst hv
  have hexec : exec (.join r) s = .next (startJoin r s) := rfl
  rw [startJoin_eq hnext hstop hflight haw hcls hrule] at hexec
  refine ⟨fun hprog => ?_, fun hfence hall => ?_, fun hfence j hj hm hnot => ?_⟩
  · rw [if_pos hprog] at hexec
    obtain ⟨heq, hother, hring, hrings, hsems, ⟨und, hrest⟩, hquad⟩ := retireFence_retired hq hroll hflight
    have hc : c = (ringOf s s.curq).head := (nextSlot_of_not_rolling hnext hroll).trans (next_of_no_flight hflight)
    subst hc
    refine ⟨_, hexec, heq, hother, ?_, ?_, hsems, ?_, hrings, hquad⟩
    · rw [accKept, hrest]
      exact ⟨rfl, rfl, rfl⟩
    · rw [vregsKept, hrest]
      exact ⟨rfl, rfl, rfl⟩
    · rw [hring, filter_ne_of_not_contains hprog]
      rfl
  · rw [if_neg (by rw [hfence]; decide), if_pos] at hexec
    · obtain ⟨-, hmem, hscal, hheads⟩ := retireFences ([0, 1, 2].filter fun j => r.mods.getLsbD j) (List.Nodup.filter _ (by decide))
        (fun j hj => ((mem_joinGroup r j).mp hj).1) s.cur s rfl hroll fun j hj => by
          obtain ⟨hj3, hm⟩ := (mem_joinGroup r j).mp hj
          exact fenceAtHead_flight (hall j hj3 hm)
      refine ⟨_, hexec, hmem, fun a => by rw [State.sc, hscal]; rfl, fun k hk => ?_⟩
      have hk3 : k.toNat < 3 := by
        rcases queue_cases hk with rfl | rfl | rfl <;> decide
      have hhead := hheads k.toNat hk3
      rw [BitVec.ofNat_toNat, BitVec.setWidth_eq] at hhead
      rw [hhead]
      by_cases hm : r.mods.getLsbD k.toNat = true
      · rw [if_pos ((mem_joinGroup r _).mpr ⟨hk3, hm⟩), if_pos hm]
      · rw [if_neg fun h => hm ((mem_joinGroup r _).mp h).2, if_neg hm]
    · refine List.all_eq_true.mpr fun j hj => ?_
      obtain ⟨hj3, hm⟩ := (mem_joinGroup r j).mp hj
      exact hall j hj3 hm
  · rw [if_neg (by rw [hfence]; decide), if_neg] at hexec
    · exact ⟨s, hexec, rfl⟩
    · intro hall
      have h := List.all_eq_true.mp hall j ((mem_joinGroup r j).mpr ⟨hj, hm⟩)
      rw [hnot] at h
      exact Bool.false_ne_true h

/-! ### LEASE_GRANT and RECORD_INVALID -/

theorem grants (s : State) :
    ((s.qd s.cur).grant ≠ none → completes .leaseGrant s fun t => t = s) ∧
    ((s.qd s.cur).grant = none → (∀ k, k < 4 → requestsArray s (4 * s.cur + k) = false) → completes .leaseGrant s fun t => t = s) ∧
    ∀ n, 1 ≤ n → n ≤ 4 → (s.qd s.cur).grant = none → requestsArray s (4 * s.cur + ((s.qd s.cur).last + n) % 4) = true →
      (∀ k, 1 ≤ k → k < n → requestsArray s (4 * s.cur + ((s.qd s.cur).last + k) % 4) = false) →
      completes .leaseGrant s fun t =>
        t = { s with quad := t.quad } ∧ (∀ q, q ≠ s.cur → t.qd q = s.qd q) ∧
        t.qd s.cur = { s.qd s.cur with
          grant := some (((s.qd s.cur).last + n) % 4), run := 1, last := ((s.qd s.cur).last + n) % 4,
          lim := (s.qd s.cur).lease.toNat % 128 } := by
  refine ⟨fun hheld => ⟨s, ?_, rfl⟩, fun hfree hnone => ⟨s, ?_, rfl⟩, fun n hn1 hn4 hfree hreq hbefore => ?_⟩
  · rw [exec_leaseGrant, execLeaseGrant]
    exact congrArg _ (if_pos (Option.isSome_iff_ne_none.mpr hheld))
  · have hfind : ([1, 2, 3, 4].map fun k => ((s.qd s.cur).last + k) % 4).find? (fun k => requestsArray s (4 * s.cur + k)) = none := by
      refine List.find?_eq_none.mpr fun x hx => ?_
      obtain ⟨k, -, rfl⟩ := List.mem_map.mp hx
      rw [hnone _ (Nat.mod_lt _ (by decide))]
      exact Bool.false_ne_true
    rw [exec_leaseGrant, execLeaseGrant]
    dsimp only
    rw [hfree, hfind]
    rfl
  · have hfind : ([1, 2, 3, 4].map fun k => ((s.qd s.cur).last + k) % 4).find? (fun k => requestsArray s (4 * s.cur + k)) =
        some (((s.qd s.cur).last + n) % 4) := by
      refine List.find?_eq_some_iff_append.mpr ⟨hreq, (List.range' 1 (n - 1)).map fun k => ((s.qd s.cur).last + k) % 4,
        (List.range' (n + 1) (4 - n)).map fun k => ((s.qd s.cur).last + k) % 4, ?_, fun x hx => ?_⟩
      · interval_cases n <;> rfl
      · obtain ⟨k, hk, rfl⟩ := List.mem_map.mp hx
        obtain ⟨h1, h2⟩ := List.mem_range'_1.mp hk
        rw [hbefore k h1 (by omega)]
        rfl
    have hlim : leaseRun s (4 * s.cur) = (s.qd s.cur).lease.toNat % 128 := by
      rw [leaseRun, quadOf, Nat.mul_div_cancel_left _ (by decide)]
    refine ⟨s.putQd s.cur
      { s.qd s.cur with
        grant := some (((s.qd s.cur).last + n) % 4), run := 1, last := ((s.qd s.cur).last + n) % 4, lim := leaseRun s (4 * s.cur) },
      ?_, rfl, fun q hq => ?_, ?_⟩
    · rw [exec_leaseGrant, execLeaseGrant]
      dsimp only
      rw [hfree, hfind]
      rfl
    · rw [putQd_get, if_neg hq]
    · rw [putQd_get, if_pos rfl, hlim]

theorem invalids (s : State) (w : BitVec 512) (c : BitVec 32) (hnext : (s.co s.cur).nextSlot s.curq = some c)
    (hstop : (ringOf s s.curq).stopped = false) (hflight : s.curq ≠ 2#2 → (ringOf s s.curq).flight = []) : completes (.recordInvalid w) s fun t =>
      t.mem = s.mem ∧ (∀ a, t.sc a = s.sc a) ∧ (ringOf t s.curq).stopped = true ∧ (ringOf t s.curq).head = (ringOf s s.curq).head ∧
      ∃ f : FaultRec, t.faults = s.faults ++ [f] ∧ f.cause = 0x23 ∧ f.phys = s.cur ∧ f.pos = c.setWidth 64 ∧
        f.detail = wordsBroken (judgeOf s s.cur s.curq ((ringOf s s.curq).fences.contains c)) w := by
  obtain ⟨u, hu⟩ : ∃ u, u = s.engineFault s.cur s.curq c causeInvalid
    (wordsBroken (judgeOf s s.cur s.curq ((ringOf s s.curq).fences.contains c)) w) 0 0 := ⟨_, rfl⟩
  have hexec : exec (.recordInvalid w) s = .next (endGrantOf s.curq u s.cur) := by
    have hnot : ¬(((s.co s.cur).queue s.curq).stopped = true ∨ s.curq ≠ 2#2 ∧ ((s.co s.cur).queue s.curq).flight ≠ []) := by
      rintro (h | ⟨h2, h⟩)
      · exact Bool.false_ne_true (hstop.symm.trans h)
      · exact h (hflight h2)
    rw [exec_recordInvalid, execRecordInvalid, hu]
    dsimp only
    rw [hnext]
    exact congrArg _ (if_neg hnot)
  have hring : ringOf (endGrantOf s.curq u s.cur) s.curq = { ringOf s s.curq with stopped := true } := by
    have hcur : (endGrantOf s.curq u s.cur).cur = s.cur := by
      rw [endGrantOf_eq, hu]
      rfl
    rw [ringOf, hcur, co_endGrantOf, hu, queue_engineFault]
    rfl
  refine ⟨_, hexec, by rw [endGrantOf_eq, hu]; rfl, fun a => by rw [endGrantOf_eq, hu]; rfl, by rw [hring], by rw [hring], ?_⟩
  rw [endGrantOf_eq, hu]
  exact ⟨_, rfl, rfl, rfl, rfl, rfl⟩

/-- Settles O35: a completion changes its queue, its semaphore, its tags and its grant; fences retire together; the free array goes round. -/
theorem completionAndGrants : Obligations.CompletionAndGrants :=
  ⟨recordCompletion, joins, grants, invalids⟩

end Sys2Proof.Machine
end

section
/-! The start of a record (R126, R135, R136): what `startRecord` does of a record that begins, and what the end of its body leaves. -/
namespace Sys2Proof.Machine
set_option Elab.async false
open Safety

/-! ### Queues in a core -/

section
variable (x : Core) (q : BitVec 2) (v : Queue)

@[simp] theorem vregs_setQueue : (x.setQueue q v).vregs = x.vregs := by rw [setQueue_eq]
@[simp] theorem vtags_setQueue : (x.setQueue q v).vtags = x.vtags := by rw [setQueue_eq]
@[simp] theorem vempty_setQueue : (x.setQueue q v).vempty = x.vempty := by rw [setQueue_eq]
@[simp] theorem masks_setQueue : (x.setQueue q v).masks = x.masks := by rw [setQueue_eq]
@[simp] theorem mempty_setQueue : (x.setQueue q v).mempty = x.mempty := by rw [setQueue_eq]
@[simp] theorem vstatus_setQueue : (x.setQueue q v).vstatus = x.vstatus := by rw [setQueue_eq]
@[simp] theorem acc_setQueue : (x.setQueue q v).acc = x.acc := by rw [setQueue_eq]
@[simp] theorem written_setQueue : (x.setQueue q v).written = x.written := by rw [setQueue_eq]
@[simp] theorem spill_setQueue : (x.setQueue q v).spill = x.spill := by rw [setQueue_eq]
@[simp] theorem btags_setQueue : (x.setQueue q v).btags = x.btags := by rw [setQueue_eq]
@[simp] theorem mcfg_setQueue : (x.setQueue q v).mcfg = x.mcfg := by rw [setQueue_eq]
@[simp] theorem task_setQueue : (x.setQueue q v).task = x.task := by rw [setQueue_eq]

end

/-! ### The record begins -/

/-- The package with the record of slot c among the started ones of its queue. -/
def begun (s : State) (c : BitVec 32) : State := pushFlight s s.cur s.curq c 1 false

/-- The flight that a record enters. -/
def begunFlight (s : State) (c : BitVec 32) : Flight := newFlight s s.cur s.curq c 1 false

/-- The queue of a record that begins. -/
def begunQueue (s : State) (c : BitVec 32) : Queue :=
  { ringOf s s.curq with flight := (ringOf s s.curq).flight ++ [begunFlight s c], words := [] }

section
variable {s : State} {cls op : Nat} {r : Rec} {c : BitVec 32}

theorem begins_roll (hb : begins s cls op r c) : (s.co s.cur).rolling = false := by
  obtain ⟨-, -, -, -, -, h, -⟩ := hb
  exact h

theorem begins_lim (hb : begins s cls op r c) : s.lim = none := hb.1

theorem begins_rule (hb : begins s cls op r c) : ruleBroken (judgeOf s s.cur s.curq ((ringOf s s.curq).fences.contains c)) cls op r = 0 := by
  obtain ⟨-, -, -, -, -, -, -, h, -⟩ := hb
  exact h

theorem begins_fresh (hb : begins s cls op r c) : ∀ f ∈ (ringOf s s.curq).flight, f.slot ≠ c := by
  obtain ⟨-, -, -, -, -, -, -, -, -, -, -, -, -, h⟩ := hb
  exact h

theorem begins_early (hb : begins s cls op r c) : (ringOf s s.curq).early = [] := by
  obtain ⟨-, -, h, -⟩ := hb
  exact h

theorem begins_zeroTrip (hb : begins s cls op r c) : r.zeroTrip = false := by
  obtain ⟨-, -, -, -, -, -, -, -, -, -, -, h, -⟩ := hb
  exact h

/-- A record begins in the queue of its class. -/
theorem begins_curq (hb : begins s cls op r c) (hcls : cls ≠ 3) : s.curq.toNat = cls := by
  have h := begins_rule hb
  unfold ruleBroken at h
  dsimp only at h
  by_contra hne
  rw [if_pos ⟨hcls, fun e => hne e.symm⟩] at h
  exact absurd h (by decide)

theorem begins_curq_ne (hb : begins s cls op r c) (hcls : cls < 3) : s.curq ≠ 3#2 := by
  have h := begins_curq hb (by omega)
  intro e
  rw [e] at h
  exact absurd h.symm (Nat.ne_of_lt hcls)

theorem begun_eq (hb : begins s cls op r c) : begun s c = s.upCo s.cur fun x => x.setQueue s.curq (begunQueue s c) := by
  unfold begun pushFlight
  dsimp only
  rw [begins_roll hb]
  rfl

theorem begun_rest (hb : begins s cls op r c) : begun s c = { s with core := (begun s c).core } := by
  rw [begun_eq hb]
  rfl

theorem begun_cur (hb : begins s cls op r c) : (begun s c).cur = s.cur := by rw [begun_rest hb]

theorem begun_curq (hb : begins s cls op r c) : (begun s c).curq = s.curq := by rw [begun_rest hb]

theorem begun_mem (hb : begins s cls op r c) : (begun s c).mem = s.mem := by rw [begun_rest hb]

theorem begun_ecc (hb : begins s cls op r c) : (begun s c).ecc = s.ecc := by rw [begun_rest hb]

theorem begun_lim (hb : begins s cls op r c) : (begun s c).lim = none := by
  have h : (begun s c).lim = s.lim := by rw [begun_rest hb]
  exact h.trans (begins_lim hb)

theorem begun_other (hb : begins s cls op r c) {p : Nat} (hp : p ≠ s.cur) : (begun s c).co p = s.co p := by
  rw [begun_eq hb]
  exact (upCo_get s s.cur (fun x => x.setQueue s.curq (begunQueue s c)) p).trans (if_neg hp)

theorem begun_core (hb : begins s cls op r c) : (begun s c).co s.cur = (s.co s.cur).setQueue s.curq (begunQueue s c) := by
  rw [begun_eq hb]
  exact (upCo_get s s.cur (fun x => x.setQueue s.curq (begunQueue s c)) s.cur).trans (if_pos rfl)

theorem begun_queue (hb : begins s cls op r c) : ((begun s c).co s.cur).queue s.curq = begunQueue s c := by
  rw [begun_core hb, queue_setQueue]

/-- Nothing of an operand that begins has been read ahead. -/
theorem begun_ahead (hb : begins s cls op r c) : aheadOf (begun s c) s.cur = [] := by
  unfold aheadOf
  rw [begun_curq hb, begun_queue hb]
  exact begins_early hb

theorem begun_pairs (hb : begins s cls op r c) : pairsOf (begun s c) s.cur = pairsOf s s.cur := by
  have htask : ((begun s c).co s.cur).task = (s.co s.cur).task := by rw [begun_core hb, task_setQueue]
  have hteam : (begun s c).team = s.team := by rw [begun_rest hb]
  unfold pairsOf State.teamOf State.tm
  rw [htask, hteam]

theorem recAddr_begun (hb : begins s cls op r c) (ph : Bool) (a : Int) : recAddr (begun s c) s.cur ph a = recAddr s s.cur ph a := by
  unfold recAddr
  rw [begun_pairs hb]

theorem opRead_begun (hb : begins s cls op r c) (q a n : Nat) : opRead (begun s c) s.cur q a n = rdN s.mem (spKey q a) n := by
  unfold opRead
  rw [begun_ahead hb, begun_mem hb]
  rfl

theorem accRead_begun (hb : begins s cls op r c) (e n : Nat) : accRead (begun s c) s.cur e n = (List.range n).map fun i => accum s (e + i) := by
  unfold accRead entryRead accum
  rw [begun_ahead hb, begun_core hb, acc_setQueue]
  rfl

/-- Whether the scratchpad addresses of a record move to the second half. -/
def secondHalf (s : State) (r : Rec) (c : BitVec 32) : Bool := r.phase && (ringOf s s.curq).ph.contains c

/-- A record that begins runs its body, as far as the record's first turn goes. -/
theorem startRecord_of_begins (hb : begins s cls op r c) (hfull : cls = 0 → vecFull s s.cur r = true) :
    startRecord cls op r s = runRecord (begun s c) s.cur s.curq (begunFlight s c) cls op r := by
  obtain ⟨-, hcurrent, -, hslot, hnext, -, hstop, hrule, haw, hgrant, hclass, hzero, hholds, -⟩ := hb
  have hempty : ¬(cls ≠ 2 ∧ (ringOf s s.curq).flight ≠ []) := by
    rintro ⟨hcls, hne⟩
    unfold holdsBack at hholds
    rw [if_pos (Or.inl hcls)] at hholds
    exact hne (by simpa using hholds)
  have hvec : (cls == 0 && !vecFull s s.cur r) = false := by
    by_cases h0 : cls = 0
    · rw [hfull h0, Bool.not_true, Bool.and_false]
    · rw [beq_eq_false_iff_ne.mpr h0, Bool.false_and]
  unfold startRecord
  dsimp only
  unfold ringOf at hcurrent hstop hrule hholds hempty
  have hawait : (r.awEn && !((s.co s.cur).sem r.awSem.toNat).awaitOk r.thr) = false := by
    by_cases ha : r.awEn = true
    · have h1 := (haw ha).1
      unfold semOf at h1
      rw [h1, Bool.not_true, Bool.and_false]
    · rw [Bool.not_eq_true _ |>.mp ha, Bool.false_and]
  have herr : (r.awEn && ((s.co s.cur).sem r.awSem.toNat).err) = false := by
    by_cases ha : r.awEn = true
    · have h1 := (haw ha).2
      unfold semOf at h1
      rw [h1, Bool.and_false]
    · rw [Bool.not_eq_true _ |>.mp ha, Bool.false_and]
  have hheld : ¬(cls = 1 ∧ (!holdsGrant s s.cur) = true) := by
    rintro ⟨h1, h2⟩
    rw [hgrant h1] at h2
    exact absurd h2 (by decide)
  simp only [hcurrent, hnext, hstop, hempty, hrule, hheld, hclass, hzero, hholds, hslot, hvec, Bool.and_assoc, hawait, herr, Bool.and_false,
    Bool.false_and, Bool.not_true, Bool.or_false, Bool.false_eq_true, if_false, ne_eq, not_true_eq_false]
  rfl

end

/-! ### The body of a record -/

section
variable {s : State} {cls op : Nat} {r : Rec} {c : BitVec 32}

theorem runRecord_done (hb : begins s cls op r c) {l : Left} {u : State}
    (hbody : bodyOf (begun s c) s.cur (begunFlight s c) cls op r (secondHalf s r c) = .done l u) :
    runRecord (begun s c) s.cur s.curq (begunFlight s c) cls op r = endBody u s.cur s.curq c l := by
  have hph : (r.phase && (((begun s c).co s.cur).queue s.curq).ph.contains (begunFlight s c).slot) = secondHalf s r c := by
    rw [begun_queue hb]
    rfl
  have hlim : ¬ (begun s c).lim = some 0 := by rw [begun_lim hb]; exact fun e => nomatch e
  unfold runRecord
  dsimp only
  rw [hph, hbody, if_neg hlim]
  rfl

/-- What is left of a record whose issue faults. -/
def faulted (u : State) (p : Nat) (q : BitVec 2) (c : BitVec 32) (cause detail : Nat) (val : Word) (idx : Nat) : State :=
  endGrantOf q ((begunTo u p q c idx).engineFault p q c cause detail val idx) p

theorem runRecord_fault (hb : begins s cls op r c) {cause detail idx : Nat} {val : Word} {u : State}
    (hbody : bodyOf (begun s c) s.cur (begunFlight s c) cls op r (secondHalf s r c) = .err (.fault cause detail val idx) u) :
    runRecord (begun s c) s.cur s.curq (begunFlight s c) cls op r = faulted u s.cur s.curq c cause detail val idx := by
  have hph : (r.phase && (((begun s c).co s.cur).queue s.curq).ph.contains (begunFlight s c).slot) = secondHalf s r c := by
    rw [begun_queue hb]
    rfl
  have hlim : ¬ (begun s c).lim = some 0 := by rw [begun_lim hb]; exact fun e => nomatch e
  unfold runRecord
  dsimp only
  rw [hph, hbody, if_neg hlim]
  rfl

variable {i : Instr} {k : BitVec 4} {o : BitVec 8}

/-- The turn of a record that begins and whose body goes through. -/
theorem exec_of_body (hparts : recParts i = some (k, o, r)) (hk : k ≠ 3#4) (hb : begins s k.toNat o.toNat r c)
    (hfull : k.toNat = 0 → vecFull s s.cur r = true) {l : Left} {u : State}
    (hbody : bodyOf (begun s c) s.cur (begunFlight s c) k.toNat o.toNat r (secondHalf s r c) = .done l u) :
    exec i s = .next (endBody u s.cur s.curq c l) := by
  rw [exec_of_recParts hparts hk, startRecord_of_begins hb hfull, runRecord_done hb hbody]

theorem exec_of_body_fault (hparts : recParts i = some (k, o, r)) (hk : k ≠ 3#4) (hb : begins s k.toNat o.toNat r c)
    (hfull : k.toNat = 0 → vecFull s s.cur r = true) {cause detail idx : Nat} {val : Word} {u : State}
    (hbody : bodyOf (begun s c) s.cur (begunFlight s c) k.toNat o.toNat r (secondHalf s r c) = .err (.fault cause detail val idx) u) :
    exec i s = .next (faulted u s.cur s.curq c cause detail val idx) := by
  rw [exec_of_recParts hparts hk, startRecord_of_begins hb hfull, runRecord_fault hb hbody]

end

/-! ### The end of the body -/

section
variable {s : State} {cls op : Nat} {r : Rec} {c : BitVec 32}

/-- The flight of a record whose body is over. -/
def overFlight (f : Flight) (l : Left) : Flight := { f with pend := f.pend - 1, made := true, tags := l.tags, idx := l.steps }

/-- The queue of a record whose body is over. -/
def overQueue (s : State) (c : BitVec 32) (l : Left) : Queue :=
  { ringOf s s.curq with flight := (ringOf s s.curq).flight ++ [overFlight (begunFlight s c) l], words := [] }

theorem map_upFlight {fs : List Flight} {c : BitVec 32} (h : ∀ f ∈ fs, f.slot ≠ c) (g : Flight → Flight) {f : Flight} (hf : f.slot = c) :
    ((fs ++ [f]).map fun x => if x.slot = c then g x else x) = fs ++ [g f] := by
  rw [List.map_append, List.map_cons, List.map_nil, if_pos hf]
  congr 1
  refine (List.map_congr_left fun x hx => ?_).trans (List.map_id fs)
  rw [if_neg (h x hx)]
  rfl

theorem co_endBody_other (u : State) {p j : Nat} (q : BitVec 2) (c : BitVec 32) (l : Left) (hj : j ≠ p) : (endBody u p q c l).co j = u.co j :=
  (upCo_get u p (fun x => x.setQueue q { x.queue q with flight := (x.queue q).flight.map fun f => if f.slot = c then overFlight f l else f }) j).trans
    (if_neg hj)

theorem endBody_rest (u : State) (p : Nat) (q : BitVec 2) (c : BitVec 32) (l : Left) :
    endBody u p q c l = { u with core := (endBody u p q c l).core } := rfl

/-- The core whose record's body is over, its queue being as the body found it. -/
theorem co_endBody (hb : begins s cls op r c) {u : State} (hq : (u.co s.cur).queue s.curq = begunQueue s c) (l : Left) :
    (endBody u s.cur s.curq c l).co s.cur = (u.co s.cur).setQueue s.curq (overQueue s c l) := by
  refine (upCo_get u s.cur (fun x => x.setQueue s.curq
    { x.queue s.curq with flight := (x.queue s.curq).flight.map fun f => if f.slot = c then overFlight f l else f }) s.cur).trans ((if_pos rfl).trans ?_)
  rw [hq]
  unfold begunQueue overQueue
  rw [map_upFlight (begins_fresh hb) (fun f => overFlight f l) rfl]

theorem begunFlight_hdr (hb : begins s cls op r c) : (begunFlight s c).hdr = slotHeader s c := by
  unfold begunFlight newFlight
  dsimp only
  rw [begins_roll hb]
  cases (s.co s.cur).ckpt <;> rfl

/-- The record has started. -/
theorem started_endBody (hb : begins s cls op r c) (hcls : cls < 3) {u : State} (hcur : u.cur = s.cur)
    (hq : ∀ q, q ≠ 3#2 → (u.co s.cur).queue q = ((begun s c).co s.cur).queue q) (l : Left) :
    started s c 0 false l.tags (endBody u s.cur s.curq c l) := by
  have hcurq := begins_curq_ne hb hcls
  have hco := co_endBody hb ((hq _ hcurq).trans (begun_queue hb)) l
  have hring (q : BitVec 2) : ringOf (endBody u s.cur s.curq c l) q = ((u.co s.cur).setQueue s.curq (overQueue s c l)).queue q := by
    rw [← hco, ← hcur]
    rfl
  refine ⟨⟨overFlight (begunFlight s c) l, ?_, begunFlight_hdr hb, rfl, rfl, rfl, rfl, rfl, rfl⟩, fun q h3 hne => ?_⟩
  · rw [hring, queue_setQueue]
    rfl
  · rw [hring, queue_setQueue_other _ h3 hne hcurq, hq q h3, begun_core hb, queue_setQueue_other _ h3 hne hcurq]
    rfl

end

end Sys2Proof.Machine
end

section
/-! The vector engine (R119 to R123, R182, R183): lanes, the writes of an issue, and the turn of a record of one issue. -/
namespace Sys2Proof.Machine
set_option Elab.async false
open Safety

/-! ### What the rules of a record say of its operands (R131) -/

/-- The operands of a record that breaks no rule are of the spaces and formats of its operation. -/
structure OperandsOk (e : Entry) (r : Rec) : Prop where
  dSpace : r.kat = false → e.dS ≠ [] → r.d.space.toNat ∈ e.dS
  aSpace : e.aS ≠ [] → r.a.space.toNat ∈ e.aS
  bSpace : e.bS ≠ [] → r.b.space.toNat ∈ e.bS
  dTag : e.dS ≠ [] → r.d.tag.toNat ∈ e.dT
  aTag : e.aS ≠ [] → r.a.tag.toNat ∈ e.aT
  bTag : e.bS ≠ [] → r.b.tag.toNat ∈ e.bT

theorem mem_of_entry {l : List Nat} {n : Nat} {z : Bool} (h : ¬(!(if l = [] then z else l.contains n)) = true) (hl : l ≠ []) : n ∈ l := by
  rw [if_neg hl, Bool.not_eq_true, Bool.not_eq_false'] at h
  exact List.contains_iff_mem.mp h

theorem mem_of_tag {l t : List Nat} {n : Nat} (h : ¬(l ≠ [] ∧ (!t.contains n) = true)) (hl : l ≠ []) : n ∈ t := by
  have h' : ¬(!t.contains n) = true := fun e => h ⟨hl, e⟩
  rw [Bool.not_eq_true, Bool.not_eq_false'] at h'
  exact List.contains_iff_mem.mp h'

/-- A rule that is not the one broken. -/
theorem rule_kept {C : Prop} [Decidable C] {n x : Nat} (h : (if C then n + 1 else x) = 0) : ¬C ∧ x = 0 := by
  by_cases hc : C
  · rw [if_pos hc] at h
    exact absurd h (Nat.succ_ne_zero n)
  · rw [if_neg hc] at h
    exact ⟨hc, h⟩

theorem operandsOk_of_rule {j : Judge} {cls op : Nat} {r : Rec} (h : ruleBroken j cls op r = 0) : OperandsOk (entryOf cls op r) r := by
  unfold ruleBroken at h
  dsimp only at h
  obtain ⟨-, h⟩ := rule_kept h
  obtain ⟨-, h⟩ := rule_kept h
  obtain ⟨-, h⟩ := rule_kept h
  obtain ⟨-, h⟩ := rule_kept h
  obtain ⟨-, h⟩ := rule_kept h
  obtain ⟨-, h⟩ := rule_kept h
  obtain ⟨h8, h⟩ := rule_kept h
  obtain ⟨-, h⟩ := rule_kept h
  obtain ⟨h10, -⟩ := rule_kept h
  rw [not_or, not_or] at h8 h10
  obtain ⟨hd, ha, hb⟩ := h8
  obtain ⟨hdt, hat, hbt⟩ := h10
  exact ⟨fun hk hl => mem_of_entry (fun e => hd ⟨by rw [hk]; decide, e⟩) hl, mem_of_entry ha, mem_of_entry hb, mem_of_tag hdt, mem_of_tag hat, mem_of_tag hbt⟩

/-! ### Lanes -/

theorem lanesOf_eq (w n v : Nat) : lanesOf w n v = (List.range n).map fun i => v / 2 ^ (w * i) % 2 ^ w := by
  induction n generalizing v with
  | zero => rfl
  | succ n ih =>
    have htail : ((List.range n).map Nat.succ).map (fun i => v / 2 ^ (w * i) % 2 ^ w) =
        (List.range n).map fun i => v / 2 ^ w / 2 ^ (w * i) % 2 ^ w := by
      rw [List.map_map]
      refine List.map_congr_left fun i _ => ?_
      rw [Nat.div_div_eq_div_mul, ← pow_add]
      simp only [Function.comp_apply, Nat.succ_eq_add_one]
      congr 3
      ring
    rw [lanesOf, ih, List.range_succ_eq_map, List.map_cons, htail, Nat.mul_zero, pow_zero, Nat.div_one]

theorem lanesOf_vreg (w n : Nat) (v : VWord) : lanesOf w n v.toNat = (List.range n).map fun i => lane w i v := lanesOf_eq w n v.toNat

theorem packLanes_lt (w : Nat) (l : List Nat) : packLanes w l < 2 ^ (w * l.length) := by
  induction l with
  | nil => exact Nat.one_pos
  | cons x l ih =>
    have hx : x % 2 ^ w < 2 ^ w := Nat.mod_lt _ (Nat.two_pow_pos w)
    have hmul : 2 ^ w * (packLanes w l + 1) ≤ 2 ^ w * 2 ^ (w * l.length) := Nat.mul_le_mul_left _ ih
    rw [packLanes, List.length_cons, Nat.mul_add, Nat.mul_one, Nat.add_comm (w * l.length), pow_add]
    rw [Nat.mul_add, Nat.mul_one] at hmul
    omega

theorem packLanes_lane (w : Nat) (l : List Nat) {i : Nat} (hi : i < l.length) : packLanes w l / 2 ^ (w * i) % 2 ^ w = l[i] % 2 ^ w := by
  induction l generalizing i with
  | nil => exact absurd hi (Nat.not_lt_zero i)
  | cons x l ih =>
    have hx : x % 2 ^ w < 2 ^ w := Nat.mod_lt _ (Nat.two_pow_pos w)
    cases i with
    | zero => rw [packLanes, Nat.mul_zero, pow_zero, Nat.div_one, Nat.add_mul_mod_self_left, Nat.mod_mod]; rfl
    | succ i =>
      have hdiv : (x % 2 ^ w + 2 ^ w * packLanes w l) / 2 ^ w = packLanes w l := by
        rw [Nat.add_mul_div_left _ _ (Nat.two_pow_pos w), Nat.div_eq_of_lt hx, Nat.zero_add]
      rw [packLanes, Nat.mul_add, Nat.mul_one, Nat.add_comm (w * i), pow_add, ← Nat.div_div_eq_div_mul, hdiv, ih (Nat.lt_of_succ_lt_succ hi)]
      rfl

theorem zipWith_range {α β γ : Type} (n : Nat) (f : Nat → α) (g : Nat → β) (h : α → β → γ) :
    List.zipWith h ((List.range n).map f) ((List.range n).map g) = (List.range n).map fun i => h (f i) (g i) := by
  rw [List.zipWith_map, List.zipWith_self]

theorem zip3_map (f : Nat → Nat → Nat → Fl Nat) (l : List Nat) (a b d : Nat → Nat) : zip3 f (l.map a) (l.map b) (l.map d) = l.map fun i => f (a i) (b i) (d i) := by
  induction l with
  | nil => rfl
  | cons x l ih => exact congrArg _ ih

theorem laneCount_cases (t : Nat) : laneCount t = 32 ∨ laneCount t = 64 ∨ laneCount t = 128 := by
  unfold laneCount
  split_ifs
  · exact .inl rfl
  · exact .inr (.inl rfl)
  · exact .inr (.inr rfl)

theorem laneBits_mul (t : Nat) : laneBits t * laneCount t = 1024 := by
  unfold laneBits
  rcases laneCount_cases t with h | h | h <;> rw [h]

theorem lane_lt (w i : Nat) (v : VWord) : lane w i v < 2 ^ w := Nat.mod_lt _ (Nat.two_pow_pos w)

theorem toNat_ofNat_lt {n v : Nat} (h : v < 2 ^ n) : (BitVec.ofNat n v).toNat = v := by rw [BitVec.toNat_ofNat, Nat.mod_eq_of_lt h]

/-- The lanes of a register that takes new lanes over its old ones. -/
theorem lane_merged {w n : Nat} (hwn : w * n = 1024) (old : VWord) (g : Nat → Option Nat) (hg : ∀ i, i < n → ∀ v, g i = some v → v < 2 ^ w) {i : Nat}
    (hi : i < n) : lane w i (BitVec.ofNat 1024 (packLanes w (mergeLanes (lanesOf w n old.toNat) ((List.range n).map g)))) = (g i).getD (lane w i old) := by
  have hmerge : mergeLanes (lanesOf w n old.toNat) ((List.range n).map g) = (List.range n).map fun i => (g i).getD (lane w i old) := by
    rw [lanesOf_vreg, mergeLanes, zipWith_range]
  rw [hmerge]
  generalize hl : (List.range n).map (fun i => (g i).getD (lane w i old)) = l
  have hlen : l.length = n := by rw [← hl, List.length_map, List.length_range]
  have hlt : packLanes w l < 2 ^ 1024 := by
    rw [← hwn, ← hlen]
    exact packLanes_lt w l
  have hget : l[i]'(hlen ▸ hi) = (g i).getD (lane w i old) := by simp [← hl]
  have hbound : (g i).getD (lane w i old) < 2 ^ w := by
    cases hv : g i with
    | none => exact lane_lt w i old
    | some v => exact hg i hi v hv
  rw [lane, toNat_ofNat_lt hlt, packLanes_lane w l (hlen ▸ hi), hget, Nat.mod_eq_of_lt hbound]

/-! ### Masks and flags -/

theorem activeLanes_eq {s : State} (r : Rec) (n : Nat) {m : Nat} (hm : m = (mreg s (r.mf 6 4)).toNat) :
    activeLanes m n = (List.range n).map fun i => laneOn s r n i := by
  unfold activeLanes laneOn
  refine List.map_congr_left fun i _ => ?_
  rw [hm, BitVec.getLsbD, Nat.testBit_eq_decide_div_mod_eq]
  rfl

theorem readMask_toNat {s u : State} (h : (u.co s.cur).masks = (s.co s.cur).masks) (n : Nat) : readMask u s.cur n = (mreg s n).toNat := by
  unfold readMask mreg
  rw [h]
  split_ifs
  · rfl
  · rfl

theorem getLsbD_orAll {α : Type} (l : List α) (f : α → Word) (z : Word) (b : Nat) :
    (l.foldl (fun x a => x ||| f a) z).getLsbD b = true ↔ z.getLsbD b = true ∨ ∃ a ∈ l, (f a).getLsbD b = true := by
  induction l generalizing z with
  | nil => simp
  | cons a l ih =>
    rw [List.foldl_cons, ih, BitVec.getLsbD_or, Bool.or_eq_true, or_assoc]
    simp

/-- The flags of active lanes. -/
theorem getLsbD_underMask (n : Nat) (on : Nat → Bool) (v : Nat → Fl Nat) (b : Nat) :
    (underMask ((List.range n).map on) ((List.range n).map v)).2.getLsbD b = true ↔
      ∃ i x, i < n ∧ (if on i then some (v i).2 else none) = some x ∧ x.getLsbD b = true := by
  unfold underMask
  dsimp only
  rw [zipWith_range]
  refine (getLsbD_orAll _ id _ b).trans ⟨?_, ?_⟩
  · rintro (h | ⟨a, ha, hb⟩)
    · exact absurd h (by simp)
    · obtain ⟨i, hi, rfl⟩ := List.mem_map.mp ha
      by_cases ho : on i = true
      · exact ⟨i, _, List.mem_range.mp hi, by rw [if_pos ho], by simpa [ho] using hb⟩
      · exact absurd hb (by simp [ho])
  · rintro ⟨i, x, hi, hx, hb⟩
    refine .inr ⟨_, List.mem_map.mpr ⟨i, List.mem_range.mpr hi, rfl⟩, ?_⟩
    by_cases ho : on i = true
    · rw [if_pos ho] at hx ⊢
      rwa [Option.some.inj hx]
    · rw [if_neg ho] at hx
      exact nomatch hx

theorem underMask_fst (n : Nat) (on : Nat → Bool) (v : Nat → Fl Nat) :
    (underMask ((List.range n).map on) ((List.range n).map v)).1 = (List.range n).map fun i => if on i then some (v i).1 else none :=
  zipWith_range ..

/-! ### The writes of an issue -/

/-- What a write does to the registers of its core. -/
def coreWr (x : Core) (w : Wr) : Core :=
  match w with
  | .reg n tag v => { x with
      vregs := tput x.vregs n (BitVec.ofNat 1024 v) 0, vtags := tput x.vtags n (BitVec.ofNat 8 tag) 0, vempty := setBit x.vempty n false }
  | .acc e vs => putAccs e vs x
  | .sp _ _ _ _ => x
  | .msk n v => { x with masks := tput x.masks n (BitVec.ofNat 128 v) 0, mempty := setBit x.mempty n false }
  | .park g v => { x with spill := tput x.spill g v 0 }

theorem putAccs_eq (e : Nat) (vs : List (Option Nat)) (x : Core) : putAccs e vs x = { x with acc := (putAccs e vs x).acc, written := (putAccs e vs x).written } := by
  induction vs generalizing e x with
  | nil => rfl
  | cons v vs ih =>
    cases v with
    | none => exact ih (e + 1) x
    | some n => exact ih (e + 1) (x.putAcc e n)

theorem putAccs_setQueue (e : Nat) (vs : List (Option Nat)) (x : Core) (q : BitVec 2) (v : Queue) :
    putAccs e vs (x.setQueue q v) = (putAccs e vs x).setQueue q v := by
  induction vs generalizing e x with
  | nil => rfl
  | cons a vs ih =>
    cases a with
    | none => exact ih (e + 1) x
    | some n =>
      have h : (x.setQueue q v).putAcc e n = (x.putAcc e n).setQueue q v := by
        unfold Core.putAcc Core.setQueue
        split_ifs <;> rfl
      exact (congrArg (putAccs (e + 1) vs) h).trans (ih (e + 1) _)

theorem coreWr_eq (x : Core) (w : Wr) : coreWr x w = { x with
    vregs := (coreWr x w).vregs, vtags := (coreWr x w).vtags, vempty := (coreWr x w).vempty, masks := (coreWr x w).masks, mempty := (coreWr x w).mempty,
    acc := (coreWr x w).acc, written := (coreWr x w).written, spill := (coreWr x w).spill } := by
  cases w with
  | acc e vs =>
    unfold coreWr
    dsimp only
    rw [putAccs_eq]
  | _ => rfl

theorem coreWr_setQueue (x : Core) (q : BitVec 2) (v : Queue) (w : Wr) : coreWr (x.setQueue q v) w = (coreWr x w).setQueue q v := by
  cases w with
  | acc e vs => exact putAccs_setQueue e vs x q v
  | _ =>
    unfold coreWr Core.setQueue
    split_ifs <;> rfl

theorem foldl_coreWr_setQueue (x : Core) (q : BitVec 2) (v : Queue) (ws : List Wr) : ws.foldl coreWr (x.setQueue q v) = (ws.foldl coreWr x).setQueue q v := by
  induction ws generalizing x with
  | nil => rfl
  | cons w ws ih => rw [List.foldl_cons, List.foldl_cons, coreWr_setQueue, ih]

theorem foldl_coreWr_eq (x : Core) (ws : List Wr) : ws.foldl coreWr x = { x with
    vregs := (ws.foldl coreWr x).vregs, vtags := (ws.foldl coreWr x).vtags, vempty := (ws.foldl coreWr x).vempty, masks := (ws.foldl coreWr x).masks,
    mempty := (ws.foldl coreWr x).mempty, acc := (ws.foldl coreWr x).acc, written := (ws.foldl coreWr x).written, spill := (ws.foldl coreWr x).spill } := by
  induction ws generalizing x with
  | nil => rfl
  | cons w ws ih =>
    rw [List.foldl_cons, ih, coreWr_eq]

theorem spWriteMasked_rest (s : State) (p a n v mask : Nat) : spWriteMasked s p a n v mask =
    { s with mem := (spWriteMasked s p a n v mask).mem, ecc := (spWriteMasked s p a n v mask).ecc } := by
  unfold spWriteMasked
  dsimp only
  split_ifs
  · rw [spWrite_eq]
  · rfl
  · rfl

theorem applyWr_rest (p : Nat) (s : State) (w : Wr) : applyWr p s w =
    { s with core := (applyWr p s w).core, mem := (applyWr p s w).mem, ecc := (applyWr p s w).ecc } := by
  cases w with
  | sp a n v mask =>
    unfold applyWr
    dsimp only
    rw [spWriteMasked_rest]
  | _ => rfl

theorem co_applyWr (p : Nat) (s : State) (w : Wr) (j : Nat) : (applyWr p s w).co j = if j = p then coreWr (s.co p) w else s.co j := by
  cases w with
  | sp a n v mask =>
    have h : (applyWr p s (.sp a n v mask)).co j = s.co j := by
      unfold applyWr
      dsimp only
      rw [spWriteMasked_rest]
      rfl
    rw [h]
    split_ifs with hj
    · rw [hj]; rfl
    · rfl
  | _ => exact upCo_get s p _ j

theorem foldl_applyWr_rest (p : Nat) (ws : List Wr) (s : State) : ws.foldl (applyWr p) s =
    { s with core := (ws.foldl (applyWr p) s).core, mem := (ws.foldl (applyWr p) s).mem, ecc := (ws.foldl (applyWr p) s).ecc } := by
  induction ws generalizing s with
  | nil => rfl
  | cons w ws ih =>
    rw [List.foldl_cons, ih, applyWr_rest]

theorem co_foldl_applyWr (p : Nat) (ws : List Wr) (s : State) (j : Nat) :
    (ws.foldl (applyWr p) s).co j = if j = p then ws.foldl coreWr (s.co p) else s.co j := by
  induction ws generalizing s with
  | nil =>
    split_ifs with h
    · rw [h]; rfl
    · rfl
  | cons w ws ih =>
    rw [List.foldl_cons, ih, co_applyWr, co_applyWr, if_pos rfl]
    split_ifs <;> rfl

/-! ### A record of one issue -/

/-- The package after the writes and flags of a record's only issue. -/
def vecOver (s : State) (c : BitVec 32) (ws : List Wr) (fl : Word) (tags : List (Nat × BitVec 8)) : State :=
  endBody (addFlags (ws.foldl (applyWr s.cur) (begun s c)) s.cur fl) s.cur s.curq c ⟨tags, 1⟩

/-- What an issue of a record that begins has before it. -/
def vctxOf (s : State) (op : Nat) (r : Rec) (c : BitVec 32) : VCtx :=
  { p := s.cur, op := op, r := r, ph := secondHalf s r c, tie := (s.co s.cur).vstatus.getLsbD 16 }

/-- The registers of a core after an issue. -/
def vecCore (x : Core) (ws : List Wr) (fl : Word) : Core := { ws.foldl coreWr x with vstatus := x.vstatus ||| fl }

theorem oneIssue_issues {r : Rec} (h : oneIssue r) : issues r = [(0, 0, 0, 0, 0)] ∧ (nest r).length = 1 := by
  obtain ⟨h0, h1, h2, h3⟩ := h
  unfold issues nest
  rw [h0, h1, h2, h3]
  decide

theorem oneIssue_nest {r : Rec} (h : oneIssue r) : nest r = [(0, 0, 0, 0)] := by
  obtain ⟨h0, h1, h2, h3⟩ := h
  unfold nest
  rw [h0, h1, h2, h3]
  decide

/-- The first issue of a nest is at the bases of its operands. -/
theorem addrAt_first (d : Desc) : addrAt d (0, 0, 0, 0) = (d.origin : Int) := by
  unfold addrAt
  simp

/-- The first address of an operand that lies in no other core. -/
theorem addrAt_base {d : Desc} (h : d.space ≠ 4#4) : addrAt d (0, 0, 0, 0) = (d.base.toNat : Int) := by
  rw [addrAt_first, Desc.origin, if_neg h]

section
variable {s : State} {op : Nat} {r : Rec} {c : BitVec 32}

@[simp] theorem vctxOf_p : (vctxOf s op r c).p = s.cur := rfl
@[simp] theorem vctxOf_op : (vctxOf s op r c).op = op := rfl
@[simp] theorem vctxOf_r : (vctxOf s op r c).r = r := rfl

/-- What an issue reads needs no correction: no word is in error, or its operands are registers. -/
theorem vecFix_plain {k : VCtx} (h : s.ecc = [] ∨ (k.r.a.space ≠ 1#4 ∧ k.op ≠ 0x3D)) (i : Nat × Nat × Nat × Nat) : vecFix k i s = s := by
  unfold vecFix
  rcases h with h | ⟨ha, hop⟩
  · rw [if_pos h]
  · split_ifs
    · rfl
    · dsimp only
      rw [if_neg ha]

theorem vecEffect_one (hb : begins s 0 op r c) (hone : oneIssue r) (hkat : r.kat = false)
    (hfix : s.ecc = [] ∨ (r.a.space ≠ 1#4 ∧ op ≠ 0x3D)) (hred : isRed op = false) (hstart : vecStart (vctxOf s op r c) (begun s c) = none) {o : VOut}
    (hissue : vecIssue (vctxOf s op r c) 0 (0, 0, 0, 0) (begun s c) = .ok o) :
    bodyOf (begun s c) s.cur (begunFlight s c) 0 op r (secondHalf s r c) =
      .done ⟨accwrTags (vctxOf s op r c) (addFlags (o.ws.foldl (applyWr s.cur) (begun s c)) s.cur o.fl), 1⟩
        (addFlags (o.ws.foldl (applyWr s.cur) (begun s c)) s.cur o.fl) := by
  obtain ⟨hissues, hlen⟩ := oneIssue_issues hone
  have hk : (⟨s.cur, op, r, secondHalf s r c, (begunFlight s c).tie⟩ : VCtx) = vctxOf s op r c := rfl
  have hidx : (begunFlight s c).idx = 0 := rfl
  have hturn : inTurn (begun s c) ((issues r).drop 0) = [(0, 0, 0, 0, 0)] := by
    unfold inTurn
    rw [begun_lim hb, hissues]
    rfl
  have hout : vecOut (vctxOf s op r c) 0 (0, 0, 0, 0) (begunFlight s c).part.vals (begun s c) = .ok ([], o) := by
    unfold vecOut
    have hr : isRed (vctxOf s op r c).op = false := hred
    rw [hr, if_neg Bool.false_ne_true, hissue]
    rfl
  have hfix' : vecFix (vctxOf s op r c) (0, 0, 0, 0) (begun s c) = begun s c := vecFix_plain (by rwa [begun_ecc hb]) _
  have happly (sig : Word) : vecApply (vctxOf s op r c) o sig (begun s c) = (sig, addFlags (o.ws.foldl (applyWr s.cur) (begun s c)) s.cur o.fl) := by
    have hk' : ¬(vctxOf s op r c).r.kat = true := by
      have : (vctxOf s op r c).r.kat = false := hkat
      rw [this]
      exact Bool.false_ne_true
    unfold vecApply
    rw [if_neg hk']
    rfl
  unfold bodyOf vecEffect
  dsimp only
  rw [if_pos rfl, hk, hidx, if_pos rfl, hstart]
  dsimp only
  rw [hturn, runVec, hout]
  dsimp only
  rw [hfix', happly, runVec]
  dsimp only
  rw [hissues, hlen, hkat]
  unfold partOver
  rw [hkat]
  rfl

variable {i : Instr} {k : BitVec 8}

/-- The turn of a vector record of one issue. -/
theorem exec_vec (hparts : recParts i = some (0#4, k, r)) (hb : begins s 0 k.toNat r c) (hfull : vecFull s s.cur r = true) (hone : oneIssue r)
    (hkat : r.kat = false) (hfix : s.ecc = [] ∨ (r.a.space ≠ 1#4 ∧ k.toNat ≠ 0x3D)) (hred : isRed k.toNat = false)
    (hstart : vecStart (vctxOf s k.toNat r c) (begun s c) = none) {o : VOut}
    (hissue : vecIssue (vctxOf s k.toNat r c) 0 (0, 0, 0, 0) (begun s c) = .ok o) :
    exec i s = .next (vecOver s c o.ws o.fl
      (accwrTags (vctxOf s k.toNat r c) (addFlags (o.ws.foldl (applyWr s.cur) (begun s c)) s.cur o.fl))) :=
  exec_of_body hparts (by decide) hb (fun _ => hfull) (vecEffect_one hb hone hkat hfix hred hstart hissue)

theorem accwrTags_nil (h : op ≠ 0x09) (u : State) : accwrTags (vctxOf s op r c) u = [] := if_neg fun e => h e.1

theorem vecStart_none (h : op ≠ 0x0A ∧ op ≠ 0x0B ∧ op ≠ 0x48) (u : State) : vecStart (vctxOf s op r c) u = none := by
  obtain ⟨h1, h2, h3⟩ := h
  exact (if_neg (not_or.mpr ⟨h1, h2⟩)).trans (if_neg h3)

theorem co_addFlags (u : State) (p : Nat) (fl : Word) (j : Nat) :
    (addFlags u p fl).co j = if j = p then { u.co p with vstatus := (u.co p).vstatus ||| fl } else u.co j :=
  upCo_get u p (fun x => { x with vstatus := x.vstatus ||| fl }) j

theorem vecCore_setQueue (x : Core) (q : BitVec 2) (v : Queue) (ws : List Wr) (fl : Word) :
    { ws.foldl coreWr (x.setQueue q v) with vstatus := (ws.foldl coreWr (x.setQueue q v)).vstatus ||| fl } = (vecCore x ws fl).setQueue q v := by
  have hst : ((ws.foldl coreWr x).setQueue q v).vstatus = x.vstatus := by rw [vstatus_setQueue, foldl_coreWr_eq]
  rw [foldl_coreWr_setQueue, hst]
  unfold vecCore Core.setQueue
  split_ifs <;> rfl

theorem queue_vecCore (x : Core) (ws : List Wr) (fl : Word) (q : BitVec 2) : (vecCore x ws fl).queue q = x.queue q := by
  unfold vecCore
  rw [foldl_coreWr_eq]
  rfl

theorem setQueue_setQueue (x : Core) (q : BitVec 2) (v w : Queue) : (x.setQueue q v).setQueue q w = x.setQueue q w := by
  unfold Core.setQueue
  split_ifs <;> rfl

/-- The core once the flags of an issue have been added to its writes. -/
theorem co_written (hb : begins s 0 op r c) (ws : List Wr) (fl : Word) :
    (addFlags (ws.foldl (applyWr s.cur) (begun s c)) s.cur fl).co s.cur = (vecCore (s.co s.cur) ws fl).setQueue s.curq (begunQueue s c) := by
  rw [co_addFlags, if_pos rfl, co_foldl_applyWr, if_pos rfl, begun_core hb, vecCore_setQueue]

theorem vecOver_mem (ws : List Wr) (fl : Word) (tags : List (Nat × BitVec 8)) :
    (vecOver s c ws fl tags).mem = (ws.foldl (applyWr s.cur) (begun s c)).mem := rfl

theorem vecOver_ecc (ws : List Wr) (fl : Word) (tags : List (Nat × BitVec 8)) :
    (vecOver s c ws fl tags).ecc = (ws.foldl (applyWr s.cur) (begun s c)).ecc := rfl

/-- The package after a record whose issues have made some writes and gained some flags. -/
structure VecDone (s : State) (c : BitVec 32) (ws : List Wr) (fl : Word) (tags : List (Nat × BitVec 8)) (t : State) : Prop where
  core : ∃ n, t.co s.cur = (vecCore (s.co s.cur) ws fl).setQueue s.curq (overQueue s c ⟨tags, n⟩)
  other : ∀ p, p ≠ s.cur → t.co p = s.co p
  rest : t = { s with core := t.core, mem := t.mem, ecc := t.ecc }

theorem vecOver_done (hb : begins s 0 op r c) (ws : List Wr) (fl : Word) (tags : List (Nat × BitVec 8)) : VecDone s c ws fl tags (vecOver s c ws fl tags) := by
  refine ⟨⟨1, ?_⟩, fun p hp => ?_, ?_⟩
  · unfold vecOver
    rw [co_endBody hb (by rw [co_written hb, queue_setQueue]), co_written hb, setQueue_setQueue]
  · unfold vecOver
    rw [co_endBody_other _ _ _ _ hp, co_addFlags, if_neg hp, co_foldl_applyWr, if_neg hp, begun_other hb hp]
  · obtain ⟨u, hu⟩ : ∃ u, u = ws.foldl (applyWr s.cur) (begun s c) := ⟨_, rfl⟩
    have hrest : u = { s with core := u.core, mem := u.mem, ecc := u.ecc } := by
      rw [hu, foldl_applyWr_rest, begun_rest hb]
    have hover : vecOver s c ws fl tags = { u with core := (vecOver s c ws fl tags).core } := by
      rw [hu]
      rfl
    generalize vecOver s c ws fl tags = t at hover
    rw [hover, hrest]

end

/-! ### What such a record leaves -/

section
variable {s t : State} {op : Nat} {r : Rec} {c : BitVec 32} {ws : List Wr} {fl : Word} {tags : List (Nat × BitVec 8)} (h : VecDone s c ws fl tags t)
include h

theorem cur_done : t.cur = s.cur := by rw [h.rest]

theorem started_done (hb : begins s 0 op r c) : started s c 0 false tags t := by
  obtain ⟨n, hcore⟩ := h.core
  have hcurq := begins_curq_ne hb (by decide)
  have hring (q : BitVec 2) : ringOf t q = ((vecCore (s.co s.cur) ws fl).setQueue s.curq (overQueue s c ⟨tags, n⟩)).queue q := by
    rw [← hcore, ← cur_done h]
    rfl
  refine ⟨⟨overFlight (begunFlight s c) ⟨tags, n⟩, ?_, begunFlight_hdr hb, rfl, rfl, rfl, rfl, rfl, rfl⟩, fun q h3 hne => ?_⟩
  · rw [hring, queue_setQueue]
    rfl
  · rw [hring, queue_setQueue_other _ h3 hne hcurq, queue_vecCore]
    rfl

/-- Nothing but the engine's core, and memory, has changed. -/
theorem engineOnly_done_mem (hecc : t.ecc = s.ecc) (hmempty : (ws.foldl coreWr (s.co s.cur)).mempty = (s.co s.cur).mempty) :
    engineOnly s { t with mem := s.mem } := by
  obtain ⟨n, hcore⟩ := h.core
  refine ⟨?_, h.other, ?_⟩
  · rw [h.rest, hecc]
  · generalize hy : t.co s.cur = y at hcore
    have hy' : ({ t with mem := s.mem } : State).co s.cur = y := hy
    rw [hy', hcore, setQueue_eq, vecCore, foldl_coreWr_eq, hmempty]

theorem engineOnly_done (hecc : t.ecc = s.ecc) (hmem : t.mem = s.mem) (hmempty : (ws.foldl coreWr (s.co s.cur)).mempty = (s.co s.cur).mempty) :
    engineOnly s t := by
  have heng := engineOnly_done_mem h hecc hmempty
  have heq : ({ t with mem := s.mem } : State) = t := by rw [← hmem]
  rwa [heq] at heng

end

end Sys2Proof.Machine
end

section
/-! Vector records of one issue (R183, R188 to R210): the registers that one leaves, and the operations that give lanes to a register. -/
namespace Sys2Proof.Machine
set_option Elab.async false
open Safety

section
variable {s t : State} {c : BitVec 32} {ws : List Wr} {fl : Word} {tags : List (Nat × BitVec 8)} (h : VecDone s c ws fl tags t)
include h

theorem vreg_done (m : Nat) : vreg t m = tget (ws.foldl coreWr (s.co s.cur)).vregs m 0 := by
  obtain ⟨n, hcore⟩ := h.core
  unfold vreg
  rw [cur_done h, hcore, vregs_setQueue]
  rfl

theorem vtag_done (m : Nat) : vtag t m = tget (ws.foldl coreWr (s.co s.cur)).vtags m 0 := by
  obtain ⟨n, hcore⟩ := h.core
  unfold vtag
  rw [cur_done h, hcore, vtags_setQueue]
  rfl

theorem mreg_done (m : Nat) : mreg t m = if m = 0 then ~~~0 else tget (ws.foldl coreWr (s.co s.cur)).masks m 0 := by
  obtain ⟨n, hcore⟩ := h.core
  unfold mreg
  rw [cur_done h, hcore, masks_setQueue]
  rfl

theorem accum_done (e : Nat) : accum t e = (tget (ws.foldl coreWr (s.co s.cur)).acc e 0).toNat := by
  obtain ⟨n, hcore⟩ := h.core
  unfold accum
  rw [cur_done h, hcore, acc_setQueue]
  rfl

theorem masks_done : (t.co s.cur).masks = (ws.foldl coreWr (s.co s.cur)).masks := by
  obtain ⟨n, hcore⟩ := h.core
  rw [hcore, masks_setQueue]
  rfl

theorem vstatus_done : (t.co s.cur).vstatus = (s.co s.cur).vstatus ||| fl := by
  obtain ⟨n, hcore⟩ := h.core
  rw [hcore, vstatus_setQueue]
  rfl

theorem spill_done : (t.co s.cur).spill = (ws.foldl coreWr (s.co s.cur)).spill := by
  obtain ⟨n, hcore⟩ := h.core
  rw [hcore, spill_setQueue]
  rfl

theorem acc_done : (t.co s.cur).acc = (ws.foldl coreWr (s.co s.cur)).acc ∧ (t.co s.cur).written = (ws.foldl coreWr (s.co s.cur)).written := by
  obtain ⟨n, hcore⟩ := h.core
  rw [hcore, acc_setQueue, written_setQueue]
  exact ⟨rfl, rfl⟩

theorem accKept_done (hacc : (ws.foldl coreWr (s.co s.cur)).acc = (s.co s.cur).acc) (hwritten : (ws.foldl coreWr (s.co s.cur)).written = (s.co s.cur).written)
    (hspill : (ws.foldl coreWr (s.co s.cur)).spill = (s.co s.cur).spill) : accKept s t :=
  ⟨(acc_done h).1.trans hacc, (acc_done h).2.trans hwritten, (spill_done h).trans hspill⟩

theorem vregsKept_done (hregs : (ws.foldl coreWr (s.co s.cur)).vregs = (s.co s.cur).vregs) (htags : (ws.foldl coreWr (s.co s.cur)).vtags = (s.co s.cur).vtags)
    (hempty : (ws.foldl coreWr (s.co s.cur)).vempty = (s.co s.cur).vempty) : vregsKept s t := by
  obtain ⟨n, hcore⟩ := h.core
  unfold vregsKept
  rw [hcore, vregs_setQueue, vtags_setQueue, vempty_setQueue]
  exact ⟨hregs, htags, hempty⟩

/-- A register that takes new lanes over its old ones, and a tag. -/
theorem vregWritten_done {d w n t' : Nat} {tag : BitVec 8} {g : Nat → Option Nat} (hd : d < 384) (hwn : w * n = 1024) (htag : BitVec.ofNat 8 t' = tag)
    (hg : ∀ i, i < n → ∀ v, g i = some v → v < 2 ^ w)
    (hcore : ((ws.foldl coreWr (s.co s.cur)).vregs, (ws.foldl coreWr (s.co s.cur)).vtags, (ws.foldl coreWr (s.co s.cur)).vempty) =
      (tput (s.co s.cur).vregs d (BitVec.ofNat 1024 (packLanes w (mergeLanes (lanesOf w n (vreg s d).toNat) ((List.range n).map g)))) 0,
        tput (s.co s.cur).vtags d (BitVec.ofNat 8 t') 0, setBit (s.co s.cur).vempty d false)) : vregWritten s d tag n w g t := by
  obtain ⟨hregs, htags, hempty⟩ : _ ∧ _ ∧ _ := ⟨congrArg (·.1) hcore, congrArg (·.2.1) hcore, congrArg (·.2.2) hcore⟩
  dsimp only at hregs htags hempty
  have hemp (m : Nat) : (t.co s.cur).vempty.getLsbD m = (setBit (s.co s.cur).vempty d false).getLsbD m := by
    obtain ⟨n, hcore⟩ := h.core
    rw [hcore, vempty_setQueue, ← hempty]
    rfl
  refine ⟨fun i hi => ?_, ?_, ?_, fun m hm => ⟨?_, ?_, ?_⟩⟩
  · rw [vreg_done h, hregs, tget_tput, if_pos rfl, lane_merged hwn _ _ hg hi]
  · rw [vtag_done h, htags, tget_tput, if_pos rfl, htag]
  · rw [hemp, getLsbD_setBit _ _ _ _ hd, if_pos rfl]
  · rw [vreg_done h, hregs, tget_tput, if_neg hm]
    rfl
  · rw [vtag_done h, htags, tget_tput, if_neg hm]
    rfl
  · rw [hemp, getLsbD_setBit _ _ _ _ hd, if_neg hm]

end

theorem flagsGained_of_or {s t : State} {fl : Word} {n : Nat} {f : Nat → Option Word} (hst : (t.co s.cur).vstatus = (s.co s.cur).vstatus ||| fl)
    (hfl : ∀ b, b < 64 → (fl.getLsbD b = true ↔ ∃ i v, i < n ∧ f i = some v ∧ v.getLsbD b = true)) : flagsGained s n f t := by
  intro b hlt
  rw [hst, BitVec.getLsbD_or, Bool.or_eq_true, hfl b hlt]

/-! ### What an issue of a record that begins reads -/

section
variable {s : State} {op : Nat} {r : Rec} {c : BitVec 32} (hb : begins s 0 op r c)
include hb

theorem vregs_begun (m : Nat) : tget ((begun s c).co s.cur).vregs m 0 = vreg s m := by
  rw [begun_core hb, vregs_setQueue]
  rfl

theorem readReg_begun {which : Nat} {d : Desc} (h : d.tag = 0 ∨ vtag s d.base.toNat = d.tag) :
    readReg (vctxOf s op r c) which d (d.base.toNat : Int) 0 (begun s c) = .ok (vreg s d.base.toNat).toNat := by
  have htags : tget ((begun s c).co s.cur).vtags d.base.toNat 0 = vtag s d.base.toNat := by
    rw [begun_core hb, vtags_setQueue]
    rfl
  have hno : ¬(d.tag ≠ 0#8 ∧ tget ((begun s c).co s.cur).vtags d.base.toNat 0 ≠ d.tag) := by
    rw [htags]
    exact fun e => h.elim e.1 e.2
  unfold readReg
  dsimp only
  rw [Int.toNat_natCast]
  refine (if_neg hno).trans ?_
  rw [← vregs_begun hb]
  rfl

theorem mask_begun : (vctxOf s op r c).mask (begun s c) = (mreg s (r.mf 6 4)).toNat :=
  readMask_toNat (by rw [begun_core hb, masks_setQueue]) _

theorem active_begun (n : Nat) : activeLanes ((vctxOf s op r c).mask (begun s c)) n = (List.range n).map fun i => laneOn s r n i :=
  activeLanes_eq r n (mask_begun hb)

theorem readSp_begun (hecc : s.ecc = []) {a : Int} {n b : Nat} {act : List Bool} (hin : recAddr s s.cur (secondHalf s r c) a + n ≤ 0x40_0000) :
    readSp (vctxOf s op r c) a n b act 0 (begun s c) = .ok (rdN s.mem (spKey s.cur (recAddr s s.cur (secondHalf s r c) a)) n) := by
  have hin' : spInside (recAddr s s.cur (secondHalf s r c) a) n = true := decide_eq_true hin
  have haddr : recAddr (begun s c) (vctxOf s op r c).p (vctxOf s op r c).ph a = recAddr s s.cur (secondHalf s r c) a := recAddr_begun hb _ _
  unfold readSp
  dsimp only
  rw [haddr, hin', begun_ecc hb, hecc]
  exact congrArg Except.ok (opRead_begun hb s.cur _ n)

theorem writeSp_begun {a : Int} {n v mask : Nat} (hin : recAddr s s.cur (secondHalf s r c) a + n ≤ 0x40_0000) :
    writeSp (vctxOf s op r c) a n v mask 0 (begun s c) = .ok [.sp (recAddr s s.cur (secondHalf s r c) a) n v mask] := by
  have hin' : spInside (recAddr s s.cur (secondHalf s r c) a) n = true := decide_eq_true hin
  have haddr : recAddr (begun s c) (vctxOf s op r c).p (vctxOf s op r c).ph a = recAddr s s.cur (secondHalf s r c) a := recAddr_begun hb _ _
  unfold writeSp
  dsimp only
  rw [haddr, hin']
  rfl

theorem regOut_begun (new : List (Option Nat)) (fl : Word) : (regOut (vctxOf s op r c) (r.d.base.toNat : Int) new fl (begun s c)).ws =
    [.reg r.d.base.toNat r.d.tag.toNat (packLanes (laneBits r.d.tag.toNat)
      (mergeLanes (lanesOf (laneBits r.d.tag.toNat) (laneCount r.d.tag.toNat) (vreg s r.d.base.toNat).toNat) new))] := by
  unfold regOut
  dsimp only
  rw [Int.toNat_natCast, ← vregs_begun hb]
  rfl

end

/-- An operation that gives lanes to a register (R183, R188): each active lane takes its value, and its flags are gained. -/
theorem completes_lanes {s : State} {r : Rec} {c : BitVec 32} {i : Instr} {k : BitVec 8} (hparts : recParts i = some (0#4, k, r)) (hb : begins s 0 k.toNat r c)
    (hfull : vecFull s s.cur r = true) (hone : oneIssue r) (hkat : r.kat = false) (hfix : s.ecc = [] ∨ (r.a.space ≠ 1#4 ∧ k.toNat ≠ 0x3D))
    (hred : isRed k.toNat = false) (hplain : k.toNat ≠ 0x0A ∧ k.toNat ≠ 0x0B ∧ k.toNat ≠ 0x48) (hacc : k.toNat ≠ 0x09) (hd : r.d.base.toNat < 384)
    {g : Nat → Option Nat} {fl : Word} (hg : ∀ i, i < laneCount r.d.tag.toNat → ∀ v, g i = some v → v < 2 ^ laneBits r.d.tag.toNat)
    (hissue : vecIssue (vctxOf s k.toNat r c) 0 (0, 0, 0, 0) (begun s c) =
      .ok (regOut (vctxOf s k.toNat r c) (r.d.base.toNat : Int) ((List.range (laneCount r.d.tag.toNat)).map g) fl (begun s c))) :
    completes i s fun t =>
      engineOnly s t ∧ accKept s t ∧ (t.co s.cur).masks = (s.co s.cur).masks ∧ (t.co s.cur).vstatus = (s.co s.cur).vstatus ||| fl ∧ started s c 0 false [] t ∧
        vregWritten s r.d.base.toNat r.d.tag (laneCount r.d.tag.toNat) (laneBits r.d.tag.toNat) g t := by
  have hexec := exec_vec hparts hb hfull hone hkat hfix hred (vecStart_none hplain _) hissue
  rw [regOut_begun hb, accwrTags_nil hacc] at hexec
  refine ⟨_, hexec, engineOnly_done (vecOver_done hb _ _ _) ?_ ?_ rfl, accKept_done (vecOver_done hb _ _ _) rfl rfl rfl, masks_done (vecOver_done hb _ _ _), vstatus_done (vecOver_done hb _ _ _),
    started_done (vecOver_done hb _ _ _) hb, vregWritten_done (vecOver_done hb _ _ _) hd (laneBits_mul _) (BitVec.ofNat_toNat _ _) hg rfl⟩
  · exact (vecOver_ecc _ _ _).trans (begun_ecc hb)
  · exact (vecOver_mem _ _ _).trans (begun_mem hb)

/-- The same in the words of `laneResult`. -/
theorem laneResult_of_lanes {s t : State} {r : Rec} {c : BitVec 32} {f : Nat → Fl Nat} {fl : Word}
    (h : engineOnly s t ∧ accKept s t ∧ (t.co s.cur).masks = (s.co s.cur).masks ∧ (t.co s.cur).vstatus = (s.co s.cur).vstatus ||| fl ∧ started s c 0 false [] t ∧
        vregWritten s r.d.base.toNat r.d.tag (laneCount r.d.tag.toNat) (laneBits r.d.tag.toNat)
          (fun i => if laneOn s r (laneCount r.d.tag.toNat) i then some (f i).1 else none) t)
    (hfl : ∀ b, b < 64 → (fl.getLsbD b = true ↔ ∃ i v, i < laneCount r.d.tag.toNat ∧
      (if laneOn s r (laneCount r.d.tag.toNat) i then some (f i).2 else none) = some v ∧ v.getLsbD b = true)) : laneResult s r c f t := by
  obtain ⟨heng, hacc, hmasks, hst, hstart, hreg⟩ := h
  exact ⟨heng, hacc, hmasks, hstart, hreg, flagsGained_of_or hst hfl⟩

/-- Lanes without flags gain none. -/
theorem no_flags {n : Nat} {on : Nat → Bool} {f : Nat → Fl Nat} (h : ∀ i, (f i).2 = 0) (b : Nat) (_ : b < 64) :
    (0 : Word).getLsbD b = true ↔ ∃ i v, i < n ∧ (if on i then some (f i).2 else none) = some v ∧ v.getLsbD b = true := by
  constructor
  · intro h0
    exact absurd h0 (by simp)
  · rintro ⟨i, v, -, hv, hbit⟩
    by_cases ho : on i = true
    · rw [if_pos ho, h i] at hv
      rw [← Option.some.inj hv] at hbit
      exact hbit
    · rw [if_neg ho] at hv
      exact nomatch hv

end Sys2Proof.Machine
end

section
/-! The vector engine's loads, stores and accumulator transfers (R188 to R193). -/
namespace Sys2Proof.Machine
set_option Elab.async false
open Safety

section
variable {s : State} {op : Nat} {r : Rec} {c : BitVec 32}

/-! ### The operands of a vector record -/

theorem operands_begin (hb : begins s 0 op r c) : OperandsOk (vecEntry op) r := operandsOk_of_rule (begins_rule hb)

theorem space_of_mem {d : Desc} {l : List Nat} {n : Nat} (h : d.space.toNat ∈ l) (hl : l = [n]) : d.space = BitVec.ofNat 4 n := by
  rw [hl, List.mem_singleton] at h
  rw [← h, BitVec.ofNat_toNat, BitVec.setWidth_eq]

theorem addrAt_of_mem {d : Desc} {l : List Nat} (h : d.space.toNat ∈ l) (hl : 4 ∉ l) : addrAt d (0, 0, 0, 0) = (d.base.toNat : Int) :=
  addrAt_base fun e => hl (by rwa [e] at h)

theorem addr_d (hb : begins s 0 op r c) (hkat : r.kat = false) (h : (vecEntry op).dS ≠ [] ∧ 4 ∉ (vecEntry op).dS) :
    addrAt r.d (0, 0, 0, 0) = (r.d.base.toNat : Int) :=
  addrAt_of_mem ((operands_begin hb).dSpace hkat h.1) h.2

theorem addr_a (hb : begins s 0 op r c) (h : (vecEntry op).aS ≠ [] ∧ 4 ∉ (vecEntry op).aS) : addrAt r.a (0, 0, 0, 0) = (r.a.base.toNat : Int) :=
  addrAt_of_mem ((operands_begin hb).aSpace h.1) h.2

theorem addr_b (hb : begins s 0 op r c) (h : (vecEntry op).bS ≠ [] ∧ 4 ∉ (vecEntry op).bS) : addrAt r.b (0, 0, 0, 0) = (r.b.base.toNat : Int) :=
  addrAt_of_mem ((operands_begin hb).bSpace h.1) h.2

theorem space_a_ne {n : Nat} (hb : begins s 0 op r c) (h : (vecEntry op).aS = [n]) (hn : BitVec.ofNat 4 n ≠ 1#4) : r.a.space ≠ 1#4 := by
  rw [space_of_mem ((operands_begin hb).aSpace (by rw [h]; exact List.cons_ne_nil _ _)) h]
  exact hn

/-! ### Loads -/

theorem lane_of_bytes (m : Memory) (p a : Nat) (t : Nat) {i : Nat} (hi : i < laneCount t) :
    rdN m (spKey p a) 128 / 2 ^ (laneBits t * i) % 2 ^ laneBits t = rdN m (spKey p (a + i * (laneBits t / 8))) (laneBits t / 8) := by
  have hbits : laneBits t = 8 * (laneBits t / 8) ∧ i * (laneBits t / 8) + laneBits t / 8 ≤ 128 := by
    unfold laneBits
    rcases laneCount_cases t with h | h | h <;> rw [h] at hi ⊢ <;> omega
  obtain ⟨h8, hin⟩ := hbits
  have hslice := rdN_slice m (spKey p a) hin
  have hkey : spKey p (a + i * (laneBits t / 8)) = spKey p a + i * (laneBits t / 8) := (Nat.add_assoc _ _ _).symm
  rw [hkey, ← hslice, Nat.mul_left_comm, ← h8, Nat.mul_comm i]

/-- A lane of bytes fits its width. -/
theorem rdN_lane_lt (m : Memory) (k t : Nat) : rdN m k (laneBits t / 8) < 2 ^ laneBits t := by
  have h8 : 8 * (laneBits t / 8) = laneBits t := by
    unfold laneBits
    rcases laneCount_cases t with h | h | h <;> rw [h]
  have h := rdN_lt m k (laneBits t / 8)
  rwa [h8] at h

theorem lt_of_active {n w : Nat} {on : Nat → Bool} {f : Nat → Nat} (h : ∀ i, i < n → f i < 2 ^ w) :
    ∀ i, i < n → ∀ v, (if on i then some (f i) else none) = some v → v < 2 ^ w := by
  intro i hi v hv
  by_cases ho : on i = true
  · rw [if_pos ho] at hv
    rw [← Option.some.inj hv]
    exact h i hi
  · rw [if_neg ho] at hv
    exact nomatch hv

theorem vld_result (hone : oneIssue r) (hkat : r.kat = false) (hecc : s.ecc = []) (hd : r.d.base.toNat < 384) (hb : begins s 0 0x01 r c)
    (hready : operandsReady s r []) (hin : spAt s r c r.a + 128 ≤ 0x40_0000) :
    completes (.vld r) s (laneResult s r c fun i =>
      (rdN s.mem (spKey s.cur (spAt s r c r.a + i * (laneBits r.d.tag.toNat / 8))) (laneBits r.d.tag.toNat / 8), 0)) := by
  have hissue : vecIssue (vctxOf s 0x01 r c) 0 (0, 0, 0, 0) (begun s c) = issueLoad (vctxOf s 0x01 r c) 0 (r.d.base.toNat : Int) (r.a.base.toNat : Int) (begun s c) := by
    rw [← addr_d hb hkat (by decide), ← addr_a hb (by decide)]
    rfl
  have hload : issueLoad (vctxOf s 0x01 r c) 0 (r.d.base.toNat : Int) (r.a.base.toNat : Int) (begun s c) = .ok (regOut (vctxOf s 0x01 r c) (r.d.base.toNat : Int)
      ((List.range (laneCount r.d.tag.toNat)).map fun i => if laneOn s r (laneCount r.d.tag.toNat) i then
        some (rdN s.mem (spKey s.cur (spAt s r c r.a + i * (laneBits r.d.tag.toNat / 8))) (laneBits r.d.tag.toNat / 8)) else none) 0 (begun s c)) := by
    unfold issueLoad
    dsimp only
    rw [vctxOf_op, if_neg (by decide), vctxOf_r, readSp_begun hb hecc hin, active_begun hb]
    dsimp only
    rw [lanesOf_eq, zipWith_range]
    refine congrArg (fun l => Except.ok (regOut _ _ l _ _)) (List.map_congr_left fun i hi => ?_)
    rw [lane_of_bytes _ _ _ _ (List.mem_range.mp hi)]
    rfl
  obtain ⟨t, hexec, ht⟩ := completes_lanes (i := .vld r) (k := 0x01#8) rfl hb hready.1 hone hkat (.inl hecc) rfl (by decide) (by decide) hd
    (lt_of_active fun i _ => rdN_lane_lt _ _ _) (hissue.trans hload)
  exact ⟨t, hexec, laneResult_of_lanes ht (no_flags fun _ => rfl)⟩

theorem vldBc_result (hone : oneIssue r) (hkat : r.kat = false) (hecc : s.ecc = []) (hd : r.d.base.toNat < 384) (hb : begins s 0 0x02 r c)
    (hready : operandsReady s r []) (hin : spAt s r c r.a + laneBits r.d.tag.toNat / 8 ≤ 0x40_0000) :
    completes (.vldBc r) s (laneResult s r c fun _ => (rdN s.mem (spKey s.cur (spAt s r c r.a)) (laneBits r.d.tag.toNat / 8), 0)) := by
  have hissue : vecIssue (vctxOf s 0x02 r c) 0 (0, 0, 0, 0) (begun s c) = issueLoad (vctxOf s 0x02 r c) 0 (r.d.base.toNat : Int) (r.a.base.toNat : Int) (begun s c) := by
    rw [← addr_d hb hkat (by decide), ← addr_a hb (by decide)]
    rfl
  have hload : issueLoad (vctxOf s 0x02 r c) 0 (r.d.base.toNat : Int) (r.a.base.toNat : Int) (begun s c) = .ok (regOut (vctxOf s 0x02 r c) (r.d.base.toNat : Int)
      ((List.range (laneCount r.d.tag.toNat)).map fun i => if laneOn s r (laneCount r.d.tag.toNat) i then
        some (rdN s.mem (spKey s.cur (spAt s r c r.a)) (laneBits r.d.tag.toNat / 8)) else none) 0 (begun s c)) := by
    unfold issueLoad readSpAll
    dsimp only
    rw [vctxOf_op, if_pos rfl, vctxOf_r, readSp_begun hb hecc hin, active_begun hb]
    dsimp only
    rw [List.map_map]
    rfl
  obtain ⟨t, hexec, ht⟩ := completes_lanes (i := .vldBc r) (k := 0x02#8) rfl hb hready.1 hone hkat (.inl hecc) rfl (by decide) (by decide) hd
    (lt_of_active fun i _ => rdN_lane_lt _ _ _) (hissue.trans hload)
  exact ⟨t, hexec, laneResult_of_lanes ht (no_flags fun _ => rfl)⟩

theorem vmov_result (hone : oneIssue r) (hkat : r.kat = false) (hecc : s.ecc = []) (hd : r.d.base.toNat < 384) (hb : begins s 0 0x04 r c)
    (hready : operandsReady s r [r.a]) :
    completes (.vmov r) s (laneResult s r c fun i => (lane (laneBits r.d.tag.toNat) i (vreg s r.a.base.toNat), 0)) := by
  have hissue : vecIssue (vctxOf s 0x04 r c) 0 (0, 0, 0, 0) (begun s c) = issueMove (vctxOf s 0x04 r c) 0 (r.d.base.toNat : Int) (r.a.base.toNat : Int) (begun s c) := by
    rw [← addr_d hb hkat (by decide), ← addr_a hb (by decide)]
    rfl
  have hmove : issueMove (vctxOf s 0x04 r c) 0 (r.d.base.toNat : Int) (r.a.base.toNat : Int) (begun s c) = .ok (regOut (vctxOf s 0x04 r c) (r.d.base.toNat : Int)
      ((List.range (laneCount r.d.tag.toNat)).map fun i => if laneOn s r (laneCount r.d.tag.toNat) i then
        some (lane (laneBits r.d.tag.toNat) i (vreg s r.a.base.toNat)) else none) 0 (begun s c)) := by
    unfold issueMove
    dsimp only
    rw [vctxOf_r, readReg_begun hb (hready.2 _ (List.mem_singleton_self _)), active_begun hb]
    dsimp only
    rw [lanesOf_vreg, zipWith_range]
  obtain ⟨t, hexec, ht⟩ := completes_lanes (i := .vmov r) (k := 0x04#8) rfl hb hready.1 hone hkat (.inl hecc) rfl (by decide) (by decide) hd
    (lt_of_active fun i _ => lane_lt _ _ _) (hissue.trans hmove)
  exact ⟨t, hexec, laneResult_of_lanes ht (no_flags fun _ => rfl)⟩

/-! ### The accumulator as an operand -/

theorem accum_lt (e : Nat) : accum s e < 2 ^ 32 := BitVec.isLt _

/-- What ACCRD checks of the accumulator (R123, R190). -/
theorem accrd_checks (hb : begins s 0 op r c) (hpark : parked (s.co s.cur) r.a.base.toNat = false)
    (htag : r.a.tag = 0 ∨ tget (s.co s.cur).btags (accBlock r.a.base.toNat) 0 = r.a.tag) :
    parked ((begun s c).co s.cur) r.a.base.toNat = false ∧
      ¬(r.a.tag ≠ 0#8 ∧ tget ((begun s c).co s.cur).btags (accBlock r.a.base.toNat) 0 ≠ r.a.tag) := by
  have hspill : parked ((begun s c).co s.cur) r.a.base.toNat = parked (s.co s.cur) r.a.base.toNat := by
    unfold parked
    rw [begun_core hb, spill_setQueue]
  rw [hspill, begun_core hb, btags_setQueue]
  exact ⟨hpark, fun e => htag.elim e.1 e.2⟩

/-- The active lanes of 32 accumulator entries. -/
theorem accrd_lanes (hb : begins s 0 op r c) (e : Nat) :
    List.zipWith (fun x y => if x = true then some y else none) (activeLanes ((vctxOf s op r c).mask (begun s c)) 32) (accRead (begun s c) s.cur e 32) =
      (List.range 32).map fun i => if laneOn s r 32 i then some (accum s (e + i)) else none := by
  rw [active_begun hb, accRead_begun hb, zipWith_range]

theorem accrd_result (hone : oneIssue r) (hkat : r.kat = false) (hecc : s.ecc = []) (hd : r.d.base.toNat < 384) (hb : begins s 0 0x08 r c)
    (hready : operandsReady s r []) (hspace : r.d.space = 2#4) (hpark : parked (s.co s.cur) r.a.base.toNat = false)
    (htag : r.a.tag = 0 ∨ tget (s.co s.cur).btags (accBlock r.a.base.toNat) 0 = r.a.tag) : completes (.accrd r) s fun t =>
      engineOnly s t ∧ accKept s t ∧ (t.co s.cur).masks = (s.co s.cur).masks ∧ started s c 0 false [] t ∧
        (t.co s.cur).vstatus = (s.co s.cur).vstatus ∧
        vregWritten s r.d.base.toNat r.d.tag 32 32 (fun i => if laneOn s r 32 i then some (accum s (r.a.base.toNat + i)) else none) t := by
  obtain ⟨hpark', htag'⟩ := accrd_checks hb hpark htag
  obtain ⟨v, hv⟩ : ∃ v, v = packLanes 32 (mergeLanes (lanesOf 32 32 (vreg s r.d.base.toNat).toNat)
    ((List.range 32).map fun i => if laneOn s r 32 i then some (accum s (r.a.base.toNat + i)) else none)) := ⟨_, rfl⟩
  have hissue : vecIssue (vctxOf s 0x08 r c) 0 (0, 0, 0, 0) (begun s c) = issueAccrd (vctxOf s 0x08 r c) 0 (r.d.base.toNat : Int) (r.a.base.toNat : Int) (begun s c) := by
    rw [← addr_d hb hkat (by decide), ← addr_a hb (by decide)]
    rfl
  have hread : issueAccrd (vctxOf s 0x08 r c) 0 (r.d.base.toNat : Int) (r.a.base.toNat : Int) (begun s c) =
      .ok { ws := [.reg r.d.base.toNat r.d.tag.toNat v], fl := 0, kat := [] } := by
    unfold issueAccrd
    dsimp only
    rw [vctxOf_r, vctxOf_p, Int.toNat_natCast, Int.toNat_natCast, hpark',
      if_neg Bool.false_ne_true, if_neg htag', if_pos hspace, accrd_lanes hb, vregs_begun hb, ← hv]
  have hexec := exec_vec (i := .accrd r) (k := 0x08#8) rfl hb hready.1 hone hkat (.inl hecc) rfl (vecStart_none (by decide) _) (hissue.trans hread)
  rw [accwrTags_nil (by decide)] at hexec
  refine ⟨_, hexec, engineOnly_done (vecOver_done hb _ _ _) ((vecOver_ecc _ _ _).trans (begun_ecc hb)) ((vecOver_mem _ _ _).trans (begun_mem hb)) rfl, accKept_done (vecOver_done hb _ _ _) rfl rfl rfl, masks_done (vecOver_done hb _ _ _),
    started_done (vecOver_done hb _ _ _) hb, (vstatus_done (vecOver_done hb _ _ _)).trans (BitVec.or_zero),
    vregWritten_done (vecOver_done hb _ _ _) hd (by decide) (BitVec.ofNat_toNat _ _) (lt_of_active fun i _ => accum_lt _) (by rw [← hv]; rfl)⟩

theorem vectorLoadResults : Parts.VectorLoadResults := fun _ _ _ hone hkat hecc hd =>
  ⟨vld_result hone hkat hecc hd, vldBc_result hone hkat hecc hd, vmov_result hone hkat hecc hd, accrd_result hone hkat hecc hd⟩

/-! ### Stores -/

end

/-- The byte mask of lanes names the bytes of those that are written. -/
theorem testBit_bytesOfLanes {b : Nat} (hb : 0 < b) (l : List (Option Nat)) (j : Nat) : (bytesOfLanes b l).testBit j = (l.getD (j / b) none).isSome := by
  induction l generalizing j with
  | nil => simp [bytesOfLanes]
  | cons v l ih =>
    have hlow : (if v.isSome then 2 ^ b - 1 else 0) < 2 ^ b := by
      have := Nat.two_pow_pos b
      split_ifs <;> omega
    rw [bytesOfLanes, Nat.add_comm, Nat.testBit_two_pow_mul_add _ hlow]
    by_cases hj : j < b
    · rw [if_pos hj, Nat.div_eq_of_lt hj, List.getD_cons_zero]
      split_ifs with hv
      · rw [Nat.testBit_two_pow_sub_one, hv]
        exact decide_eq_true hj
      · rw [Nat.zero_testBit]
        exact (Bool.not_eq_true _ |>.mp hv).symm
    · rw [if_neg hj, ih]
      obtain ⟨i, rfl⟩ := Nat.exists_eq_add_of_le (Nat.le_of_not_lt hj)
      rw [Nat.add_sub_cancel_left, Nat.add_div_left _ hb, List.getD_cons_succ]

section
variable (s : State) (p a n v mask : Nat)

theorem memGet_spWriteMasked_in {j : Nat} (hj : j < n) : memGet (spWriteMasked s p a n v mask).mem (spKey p a + j) =
    if mask.testBit j then BitVec.ofNat 8 (v / 256 ^ j % 256) else memGet s.mem (spKey p a + j) := by
  unfold spWriteMasked
  by_cases hm : mask = 2 ^ n - 1
  · rw [if_pos hm, hm, Nat.testBit_two_pow_sub_one, decide_eq_true hj, if_pos rfl, spWrite_eq]
    exact memGet_wrN_in _ _ _ _ _ hj
  · rw [if_neg hm, ← memGet_wrMasked_in _ _ _ _ _ _ hj]
    dsimp only
    by_cases he : s.ecc = []
    · rw [if_pos he]
    · rw [if_neg he]

theorem memGet_spWriteMasked_out {k : Nat} (hk : k < spKey p a ∨ spKey p a + n ≤ k) : memGet (spWriteMasked s p a n v mask).mem k = memGet s.mem k := by
  unfold spWriteMasked
  by_cases hm : mask = 2 ^ n - 1
  · rw [if_pos hm, spWrite_eq]
    exact memGet_wrN_out _ _ _ _ _ hk
  · rw [if_neg hm]
    dsimp only
    split_ifs <;> exact memGet_wrMasked_out _ _ _ _ _ _ hk

theorem spWriteMasked_ecc (h : s.ecc = []) : (spWriteMasked s p a n v mask).ecc = [] := by
  unfold spWriteMasked
  dsimp only
  split_ifs
  · exact spFresh_ecc (s := { s with mem := wrN s.mem (spKey p a) n v }) h _ _ _
  · exact h

end

/-- A slice of what was written is a slice of the value. -/
theorem slice_mod {v a w n : Nat} (h : a + w ≤ n) : v % 2 ^ n / 2 ^ a % 2 ^ w = v / 2 ^ a % 2 ^ w := by
  apply Nat.eq_of_testBit_eq
  intro i
  rw [Nat.testBit_mod_two_pow, Nat.testBit_mod_two_pow, Nat.testBit_div_two_pow, Nat.testBit_div_two_pow, Nat.testBit_mod_two_pow]
  by_cases hi : i < w
  · have : i + a < n := by omega
    simp [hi, this]
  · simp [hi]

section
variable {s : State} {r : Rec} {c : BitVec 32} {op n : Nat} {on : Nat → Bool} {f : Nat → Nat}

/-- The lanes that a store leaves in scratchpad. -/
theorem stored_lane (u : State) (p a v : Nat) (hn : n = 32 ∨ n = 64 ∨ n = 128) (hv : ∀ k, k < n → on k = true → v / 2 ^ (1024 / n * k) % 2 ^ (1024 / n) = f k)
    {k : Nat} (hk : k < n) (hon : on k = true) :
    rdN (spWriteMasked u p a 128 v (bytesOfLanes (128 / n) ((List.range n).map fun i => if on i then some (f i) else none))).mem (spKey p (a + k * (128 / n)))
      (128 / n) = f k := by
  have hsize : 0 < 128 / n ∧ 8 * (128 / n) = 1024 / n ∧ k * (128 / n) + 128 / n ≤ 128 := by
    rcases hn with rfl | rfl | rfl <;> omega
  obtain ⟨hpos, h8, hin⟩ := hsize
  have hkey : spKey p (a + k * (128 / n)) = spKey p a + k * (128 / n) := (Nat.add_assoc _ _ _).symm
  have hbytes : ∀ i, i < 128 / n → memGet (spWriteMasked u p a 128 v
      (bytesOfLanes (128 / n) ((List.range n).map fun i => if on i then some (f i) else none))).mem (spKey p a + k * (128 / n) + i) =
        memGet (wrN u.mem (spKey p a) 128 v) (spKey p a + k * (128 / n) + i) := by
    intro i hi
    have hj : k * (128 / n) + i < 128 := by omega
    have hlane : (k * (128 / n) + i) / (128 / n) = k := by
      rw [Nat.mul_comm, Nat.mul_add_div hpos, Nat.div_eq_of_lt hi, Nat.add_zero]
    rw [Nat.add_assoc, memGet_spWriteMasked_in _ _ _ _ _ _ hj, memGet_wrN_in _ _ _ _ _ hj, testBit_bytesOfLanes hpos, hlane, if_pos]
    simp [hk, hon]
  have hslice := rdN_slice (wrN u.mem (spKey p a) 128 v) (spKey p a) hin
  rw [hkey, rdN_congr hbytes, ← hslice, rdN_wrN, ← hv k hk hon, show (256 : Nat) ^ 128 = 2 ^ (8 * 128) by rw [Nat.pow_mul]]
  have heq : 8 * (k * (128 / n)) = 1024 / n * k := by rw [← h8]; ring
  rw [slice_mod (by omega), heq, h8]

/-- What a store leaves of the rest of memory. -/
theorem stored_frame (u : State) (p a v : Nat) (hn : n = 32 ∨ n = 64 ∨ n = 128) {x : Nat}
    (hx : ∀ k, k < n → on k = true → x < spKey p (a + k * (128 / n)) ∨ spKey p (a + k * (128 / n)) + 128 / n ≤ x) :
    memGet (spWriteMasked u p a 128 v (bytesOfLanes (128 / n) ((List.range n).map fun i => if on i then some (f i) else none))).mem x = memGet u.mem x := by
  by_cases hout : x < spKey p a ∨ spKey p a + 128 ≤ x
  · exact memGet_spWriteMasked_out _ _ _ _ _ _ hout
  · obtain ⟨j, rfl⟩ := Nat.exists_eq_add_of_le (Nat.le_of_not_lt (not_or.mp hout).1)
    have hj : j < 128 := by omega
    have hsize : 0 < 128 / n ∧ 128 / n * n = 128 := by rcases hn with rfl | rfl | rfl <;> decide
    obtain ⟨hpos, hmul⟩ := hsize
    have hlt : j / (128 / n) < n := Nat.div_lt_of_lt_mul (by rwa [hmul])
    rw [memGet_spWriteMasked_in _ _ _ _ _ _ hj, testBit_bytesOfLanes hpos, if_neg]
    intro hsome
    have hoff : on (j / (128 / n)) = true := by
      by_contra ho
      simp [hlt, ho] at hsome
    have hkey : spKey p (a + j / (128 / n) * (128 / n)) = spKey p a + j / (128 / n) * (128 / n) := (Nat.add_assoc _ _ _).symm
    have hdiv := Nat.div_add_mod' j (128 / n)
    have hmod := Nat.mod_lt j hpos
    rcases hx _ hlt hoff with h | h <;> rw [hkey] at h <;> omega

/-- A store's turn, as its issue gives it. -/
theorem store_result {i : Instr} {k : BitVec 8} (hparts : recParts i = some (0#4, k, r)) (hb : begins s 0 k.toNat r c) (hready : vecFull s s.cur r = true)
    (hone : oneIssue r) (hkat : r.kat = false) (hecc : s.ecc = []) (hred : isRed k.toNat = false)
    (hplain : k.toNat ≠ 0x0A ∧ k.toNat ≠ 0x0B ∧ k.toNat ≠ 0x48) (hacc : k.toNat ≠ 0x09) (hn : n = 32 ∨ n = 64 ∨ n = 128) {v : Nat}
    (hv : ∀ k, k < n → laneOn s r n k = true → v / 2 ^ (1024 / n * k) % 2 ^ (1024 / n) = f k)
    (hissue : vecIssue (vctxOf s k.toNat r c) 0 (0, 0, 0, 0) (begun s c) = .ok { ws := [.sp (spAt s r c r.d) 128 v
      (bytesOfLanes (128 / n) ((List.range n).map fun i => if laneOn s r n i then some (f i) else none))], fl := 0, kat := [] }) :
    completes i s fun t =>
      engineOnly s { t with mem := s.mem } ∧ accKept s t ∧ vregsKept s t ∧ (t.co s.cur).masks = (s.co s.cur).masks ∧
      (t.co s.cur).vstatus = (s.co s.cur).vstatus ∧ started s c 0 false [] t ∧
      (∀ k, k < n → laneOn s r n k = true → rdN t.mem (spKey s.cur (spAt s r c r.d + k * (128 / n))) (128 / n) = f k) ∧
      ∀ a, (∀ k, k < n → laneOn s r n k = true →
          a < spKey s.cur (spAt s r c r.d + k * (128 / n)) ∨ spKey s.cur (spAt s r c r.d + k * (128 / n)) + 128 / n ≤ a) →
        memGet t.mem a = memGet s.mem a := by
  have hexec := exec_vec hparts hb hready hone hkat (.inl hecc) hred (vecStart_none hplain _) hissue
  rw [accwrTags_nil hacc] at hexec
  refine ⟨_, hexec, engineOnly_done_mem (vecOver_done hb _ _ _) ?_ rfl, accKept_done (vecOver_done hb _ _ _) rfl rfl rfl, vregsKept_done (vecOver_done hb _ _ _) rfl rfl rfl,
    masks_done (vecOver_done hb _ _ _), (vstatus_done (vecOver_done hb _ _ _)).trans BitVec.or_zero, started_done (vecOver_done hb _ _ _) hb, fun k hk hon => ?_, fun a ha => ?_⟩
  · rw [hecc]
    exact spWriteMasked_ecc _ _ _ _ _ _ ((begun_ecc hb).trans hecc)
  · rw [vecOver_mem]
    exact stored_lane _ _ _ _ hn hv hk hon
  · rw [vecOver_mem, ← begun_mem hb]
    exact stored_frame _ _ _ _ hn ha

/-- VST as its issue gives it. -/
theorem vst_store (hkat : r.kat = false) (hin : spAt s r c r.d + 128 ≤ 0x40_0000) (hb : begins s 0 0x03 r c)
    (hready : operandsReady s r [r.a]) : vecIssue (vctxOf s 0x03 r c) 0 (0, 0, 0, 0) (begun s c) =
      .ok { ws := [.sp (spAt s r c r.d) 128 (vreg s r.a.base.toNat).toNat (bytesOfLanes (laneBits r.a.tag.toNat / 8)
        ((List.range (laneCount r.a.tag.toNat)).map fun i => if laneOn s r (laneCount r.a.tag.toNat) i then
          some (lane (laneBits r.a.tag.toNat) i (vreg s r.a.base.toNat)) else none))], fl := 0, kat := [] } := by
  have hissue : vecIssue (vctxOf s 0x03 r c) 0 (0, 0, 0, 0) (begun s c) = issueStore (vctxOf s 0x03 r c) 0 (r.d.base.toNat : Int) (r.a.base.toNat : Int) (begun s c) := by
    rw [← addr_d hb hkat (by decide), ← addr_a hb (by decide)]
    rfl
  rw [hissue]
  unfold issueStore
  dsimp only
  rw [vctxOf_r, readReg_begun hb (hready.2 _ (List.mem_singleton_self _)), active_begun hb]
  dsimp only
  rw [lanesOf_vreg, zipWith_range, writeSp_begun hb hin]
  rfl

/-- ACCRD to scratchpad as its issue gives it. -/
theorem accrd_store (hkat : r.kat = false) (hin : spAt s r c r.d + 128 ≤ 0x40_0000) (hb : begins s 0 0x08 r c)
    (hspace : r.d.space = 1#4) (hpark : parked (s.co s.cur) r.a.base.toNat = false)
    (htag : r.a.tag = 0 ∨ tget (s.co s.cur).btags (accBlock r.a.base.toNat) 0 = r.a.tag) : vecIssue (vctxOf s 0x08 r c) 0 (0, 0, 0, 0) (begun s c) =
      .ok { ws := [.sp (spAt s r c r.d) 128 (packLanes 32 ((List.range 32).map fun i => if laneOn s r 32 i then accum s (r.a.base.toNat + i) else 0))
        (bytesOfLanes 4 ((List.range 32).map fun i => if laneOn s r 32 i then some (accum s (r.a.base.toNat + i)) else none))], fl := 0, kat := [] } := by
  obtain ⟨hpark', htag'⟩ := accrd_checks hb hpark htag
  have hissue : vecIssue (vctxOf s 0x08 r c) 0 (0, 0, 0, 0) (begun s c) = issueAccrd (vctxOf s 0x08 r c) 0 (r.d.base.toNat : Int) (r.a.base.toNat : Int) (begun s c) := by
    rw [← addr_d hb hkat (by decide), ← addr_a hb (by decide)]
    rfl
  have hlanes : ((List.range 32).map fun i => if laneOn s r 32 i then some (accum s (r.a.base.toNat + i)) else none).map (·.getD 0) =
      (List.range 32).map fun i => if laneOn s r 32 i then accum s (r.a.base.toNat + i) else 0 := by
    rw [List.map_map]
    refine List.map_congr_left fun i _ => ?_
    simp only [Function.comp_apply]
    split_ifs <;> rfl
  rw [hissue]
  unfold issueAccrd
  dsimp only
  rw [vctxOf_r, vctxOf_p, Int.toNat_natCast, hpark', if_neg Bool.false_ne_true, if_neg htag', hspace, if_neg (by decide), accrd_lanes hb, hlanes,
    writeSp_begun hb hin]
  rfl

theorem vectorStoreResults : Parts.VectorStoreResults := by
  intro s r c hone hkat hecc hin i n f h
  rcases h with ⟨rfl, rfl, hf, hb, hready⟩ | ⟨rfl, rfl, hf, hb, hready, hspace, hpark, htag⟩
  · have hbits : laneBits r.a.tag.toNat = 1024 / laneCount r.a.tag.toNat ∧ laneBits r.a.tag.toNat / 8 = 128 / laneCount r.a.tag.toNat := by
      unfold laneBits
      rcases laneCount_cases r.a.tag.toNat with h | h | h <;> rw [h] <;> decide
    have hissue := vst_store hkat hin hb hready
    rw [hbits.2, hbits.1] at hissue
    simp only [← hf] at hissue
    exact store_result (k := 0x03#8) rfl hb hready.1 hone hkat hecc rfl (by decide) (by decide) (laneCount_cases _) (fun k _ _ => (hf k).symm) hissue
  · have hissue := accrd_store hkat hin hb hspace hpark htag
    simp only [← hf] at hissue
    refine store_result (k := 0x08#8) rfl hb hready.1 hone hkat hecc rfl (by decide) (by decide) (.inl rfl) (fun k hk hon => ?_) hissue
    have hlen : k < ((List.range 32).map fun i => if laneOn s r 32 i then f i else 0).length := by simpa using hk
    rw [packLanes_lane 32 _ hlen]
    simp only [List.getElem_map, List.getElem_range, hon, if_true]
    exact Nat.mod_eq_of_lt (by rw [hf]; exact accum_lt _)

/-! ### Accumulator transfers -/

end

theorem tget_putAccs (e : Nat) (vs : List (Option Nat)) (x : Core) (k : Nat) : tget (putAccs e vs x).acc k 0 =
    if e ≤ k then ((vs.getD (k - e) none).map (BitVec.ofNat 32)).getD (tget x.acc k 0) else tget x.acc k 0 := by
  induction vs generalizing e x with
  | nil => split_ifs <;> rfl
  | cons v vs ih =>
    have hstep : tget (putAccs e (v :: vs) x).acc k 0 =
        if e + 1 ≤ k then ((vs.getD (k - (e + 1)) none).map (BitVec.ofNat 32)).getD (if k = e then (v.map (BitVec.ofNat 32)).getD (tget x.acc k 0) else tget x.acc k 0)
        else (if k = e then (v.map (BitVec.ofNat 32)).getD (tget x.acc k 0) else tget x.acc k 0) := by
      cases v with
      | none =>
        simp only [Option.map_none, Option.getD_none, ite_self]
        exact ih (e + 1) x
      | some n =>
        have hput : tget (x.putAcc e n).acc k 0 = if k = e then BitVec.ofNat 32 n else tget x.acc k 0 := tget_tput _ _ _ _ _
        have h := ih (e + 1) (x.putAcc e n)
        rw [hput] at h
        exact h
    rw [hstep]
    rcases Nat.lt_trichotomy k e with h | h | h
    · rw [if_neg (by omega), if_neg (by omega), if_neg (by omega)]
    · rw [if_neg (by omega), if_pos h, if_pos (by omega), h, Nat.sub_self, List.getD_cons_zero]
    · obtain ⟨j, rfl⟩ := Nat.exists_eq_add_of_lt h
      rw [if_pos (by omega), if_neg (by omega), if_pos (by omega), show e + j + 1 - e = j + 1 by omega, List.getD_cons_succ,
        show e + j + 1 - (e + 1) = j by omega]

/-- The accumulator after some of 32 entries have been written. -/
theorem accum_written (e : Nat) (on : Nat → Bool) (f : Nat → Nat) (hf : ∀ i, f i < 2 ^ 32) (x : Core) (k : Nat) :
    (tget (putAccs e ((List.range 32).map fun i => if on i then some (f i) else none) x).acc k 0).toNat =
      if e ≤ k ∧ k < e + 32 ∧ on (k - e) = true then f (k - e) else (tget x.acc k 0).toNat := by
  rw [tget_putAccs]
  by_cases he : e ≤ k
  · rw [if_pos he]
    by_cases hlt : k < e + 32
    · have hget : ((List.range 32).map fun i => if on i then some (f i) else none).getD (k - e) none = if on (k - e) then some (f (k - e)) else none := by
        have : k - e < 32 := by omega
        simp [this]
      rw [hget]
      by_cases ho : on (k - e) = true
      · rw [if_pos ho, if_pos ⟨he, hlt, ho⟩]
        exact toNat_ofNat_lt (hf _)
      · rw [if_neg ho, if_neg fun h => ho h.2.2]
        rfl
    · have hget : ((List.range 32).map fun i => if on i then some (f i) else none).getD (k - e) none = none :=
        List.getD_eq_default _ _ (by rw [List.length_map, List.length_range]; omega)
      rw [hget, if_neg fun h => hlt h.2.1]
      rfl
  · rw [if_neg he, if_neg fun h => he h.1]

section
variable {s : State} {op : Nat} {r : Rec} {c : BitVec 32}

theorem accwr_result (hone : oneIssue r) (hkat : r.kat = false) (hb : begins s 0 0x09 r c) (hready : operandsReady s r [r.a])
    (hpark : parked (s.co s.cur) r.d.base.toNat = false) : completes (.accwr r) s fun t =>
        engineOnly s t ∧ vregsKept s t ∧ (t.co s.cur).masks = (s.co s.cur).masks ∧ (t.co s.cur).vstatus = (s.co s.cur).vstatus ∧
        (t.co s.cur).spill = (s.co s.cur).spill ∧
        started s c 0 false (if (List.range 32).any (laneOn s r 32) then [(accBlock r.d.base.toNat, r.d.tag)] else []) t ∧
        ∀ e, accum t e = (if r.d.base.toNat ≤ e ∧ e < r.d.base.toNat + 32 ∧ laneOn s r 32 (e - r.d.base.toNat) = true then
          lane 32 (e - r.d.base.toNat) (vreg s r.a.base.toNat) else accum s e) := by
  obtain ⟨ws, hws⟩ : ∃ ws, ws = [Wr.acc r.d.base.toNat
    ((List.range 32).map fun i => if laneOn s r 32 i then some (lane 32 i (vreg s r.a.base.toNat)) else none)] := ⟨_, rfl⟩
  have hspill : parked ((begun s c).co s.cur) r.d.base.toNat = false := by
    rw [← hpark]
    unfold parked
    rw [begun_core hb, spill_setQueue]
  have hissue : vecIssue (vctxOf s 0x09 r c) 0 (0, 0, 0, 0) (begun s c) = issueAccwr (vctxOf s 0x09 r c) 0 (r.d.base.toNat : Int) (r.a.base.toNat : Int) (begun s c) := by
    rw [← addr_d hb hkat (by decide), ← addr_a hb (by decide)]
    rfl
  have hwrite : issueAccwr (vctxOf s 0x09 r c) 0 (r.d.base.toNat : Int) (r.a.base.toNat : Int) (begun s c) = .ok { ws := ws, fl := 0, kat := [] } := by
    unfold issueAccwr
    rw [vctxOf_r, readReg_begun hb (hready.2 _ (List.mem_singleton_self _))]
    dsimp only
    rw [vctxOf_p, Int.toNat_natCast, hspill, if_neg Bool.false_ne_true, active_begun hb, lanesOf_vreg, zipWith_range, hws]
  have hexec := exec_vec (i := .accwr r) (k := 0x09#8) rfl hb hready.1 hone hkat (.inr ⟨space_a_ne hb rfl (by decide), by decide⟩) rfl
    (vecStart_none (by decide) _) (hissue.trans hwrite)
  have htags : accwrTags (vctxOf s 0x09 r c) (addFlags (ws.foldl (applyWr s.cur) (begun s c)) s.cur 0) =
      if (List.range 32).any (laneOn s r 32) then [(accBlock r.d.base.toNat, r.d.tag)] else [] := by
    have hmask : (vctxOf s 0x09 r c).mask (addFlags (ws.foldl (applyWr s.cur) (begun s c)) s.cur 0) = (mreg s (r.mf 6 4)).toNat := by
      refine readMask_toNat ?_ _
      rw [co_written hb, masks_setQueue, hws]
      unfold vecCore
      dsimp only
      rw [List.foldl_cons, List.foldl_nil, coreWr, putAccs_eq]
    unfold accwrTags
    rw [hmask, activeLanes_eq r 32 rfl, List.any_map]
    simp only [vctxOf_op, vctxOf_r, oneIssue_nest hone, List.map_cons, List.map_nil, addr_d hb hkat (by decide), Int.toNat_natCast, true_and]
    rfl
  have hcore : ws.foldl coreWr (s.co s.cur) = putAccs r.d.base.toNat
      ((List.range 32).map fun i => if laneOn s r 32 i then some (lane 32 i (vreg s r.a.base.toNat)) else none) (s.co s.cur) := by
    rw [hws]
    rfl
  have hcore' := hcore.trans (putAccs_eq _ _ _)
  refine ⟨_, hexec, engineOnly_done (vecOver_done hb _ _ _) ?_ ?_ (by rw [hcore']), vregsKept_done (vecOver_done hb _ _ _) (by rw [hcore']) (by rw [hcore']) (by rw [hcore']),
    (masks_done (vecOver_done hb _ _ _)).trans (by rw [hcore']), (vstatus_done (vecOver_done hb _ _ _)).trans BitVec.or_zero, (spill_done (vecOver_done hb _ _ _)).trans (by rw [hcore']), ?_, fun e => ?_⟩
  · rw [vecOver_ecc, hws]
    exact begun_ecc hb
  · rw [vecOver_mem, hws]
    exact begun_mem hb
  · rw [← htags]
    exact started_done (vecOver_done hb _ _ _) hb
  · rw [accum_done (vecOver_done hb _ _ _), hcore, accum_written _ _ _ (fun i => lane_lt _ _ _)]
    rfl

/-- What PARK and UNPARK check of their group at the start of a record (R192, R193). -/
theorem vecStart_group (hb : begins s 0 op r c) (hone : oneIssue r) {d : Desc} (hd : d = if op = 0x0A then r.d else r.a) (haddr : addrAt d (0, 0, 0, 0) = (d.base.toNat : Int))
    (hgroup : (tget (s.co s.cur).spill (d.base.toNat / 32) 0 = 0) ↔ op = 0x0A) (hop : op = 0x0A ∨ op = 0x0B) :
    vecStart (vctxOf s op r c) (begun s c) = none := by
  have hspill : ((begun s c).co s.cur).spill = (s.co s.cur).spill := by rw [begun_core hb, spill_setQueue]
  unfold vecStart
  dsimp only
  rw [vctxOf_op, if_pos hop, vctxOf_r, vctxOf_p, hspill, oneIssue_nest hone, List.map_cons, List.map_nil, ← hd, haddr, Int.toNat_natCast]
  refine if_neg ?_
  obtain ⟨x, hx⟩ : ∃ x, x = tget (s.co s.cur).spill (d.base.toNat / 32) 0#9 := ⟨_, rfl⟩
  have hgroup' : x = 0#9 ↔ op = 0x0A := by
    rw [hx]
    exact hgroup
  by_cases h : op = 0x0A
  · simp [← hx, hgroup'.mpr h, h]
  · simp [← hx, h, mt hgroup'.mp h]

/-- 0x100 and a tag. -/
theorem parkedTag_eq (t : BitVec 8) : 0x100#9 ||| t.setWidth 9 = 0x100#9 + t.setWidth 9 := by
  have ht : t.toNat < 2 ^ 8 := t.isLt
  have hor : 2 ^ 8 * 1 + t.toNat = 2 ^ 8 * 1 ||| t.toNat := Nat.two_pow_add_eq_or_of_lt ht 1
  apply BitVec.eq_of_toNat_eq
  rw [BitVec.toNat_or, BitVec.toNat_add, BitVec.toNat_setWidth, Nat.mod_eq_of_lt (by omega)]
  refine hor.symm.trans (Nat.mod_eq_of_lt ?_).symm
  show 256 + t.toNat < 512
  omega

theorem park_result (hone : oneIssue r) (hkat : r.kat = false) (hb : begins s 0 0x0A r c) (hready : operandsReady s r [r.a])
    (hfree : tget (s.co s.cur).spill (r.d.base.toNat / 32) 0 = 0) : completes (.park r) s fun t =>
        engineOnly s t ∧ vregsKept s t ∧ (t.co s.cur).masks = (s.co s.cur).masks ∧ (t.co s.cur).vstatus = (s.co s.cur).vstatus ∧
        started s c 0 false [] t ∧
        (∀ e, accum t e = (if r.d.base.toNat ≤ e ∧ e < r.d.base.toNat + 32 then lane 32 (e - r.d.base.toNat) (vreg s r.a.base.toNat)
          else accum s e)) ∧
        ∀ k, tget (t.co s.cur).spill k 0 =
          (if k = r.d.base.toNat / 32 then 0x100#9 + (vtag s r.a.base.toNat).setWidth 9 else tget (s.co s.cur).spill k 0) := by
  obtain ⟨ws, hws⟩ : ∃ ws, ws = [Wr.acc r.d.base.toNat ((List.range 32).map fun i => if true then some (lane 32 i (vreg s r.a.base.toNat)) else none),
    .park (r.d.base.toNat / 32) (0x100#9 ||| (vtag s r.a.base.toNat).setWidth 9)] := ⟨_, rfl⟩
  have hissue : vecIssue (vctxOf s 0x0A r c) 0 (0, 0, 0, 0) (begun s c) = issuePark (vctxOf s 0x0A r c) 0 (r.d.base.toNat : Int) (r.a.base.toNat : Int) (begun s c) := by
    rw [← addr_d hb hkat (by decide), ← addr_a hb (by decide)]
    rfl
  have htag : tget ((begun s c).co s.cur).vtags r.a.base.toNat 0 = vtag s r.a.base.toNat := by
    rw [begun_core hb, vtags_setQueue]
    rfl
  have hwrite : issuePark (vctxOf s 0x0A r c) 0 (r.d.base.toNat : Int) (r.a.base.toNat : Int) (begun s c) = .ok { ws := ws, fl := 0, kat := [] } := by
    unfold issuePark
    rw [vctxOf_r, readReg_begun hb (hready.2 _ (List.mem_singleton_self _))]
    dsimp only
    rw [vctxOf_p, Int.toNat_natCast, Int.toNat_natCast, lanesOf_vreg, List.map_map, htag, hws]
    rfl
  have hexec := exec_vec (i := .park r) (k := 0x0A#8) rfl hb hready.1 hone hkat (.inr ⟨space_a_ne hb rfl (by decide), by decide⟩) rfl
    (vecStart_group hb hone (if_pos rfl).symm (addr_d hb hkat (by decide)) (iff_of_true hfree rfl) (.inl rfl)) (hissue.trans hwrite)
  rw [accwrTags_nil (by decide)] at hexec
  obtain ⟨y, hy⟩ : ∃ y, y = putAccs r.d.base.toNat ((List.range 32).map fun i => if true then some (lane 32 i (vreg s r.a.base.toNat)) else none)
    (s.co s.cur) := ⟨_, rfl⟩
  have hrest : y = { s.co s.cur with acc := y.acc, written := y.written } := by
    rw [hy]
    exact putAccs_eq _ _ _
  obtain ⟨z, hz⟩ : ∃ z, z = ws.foldl coreWr (s.co s.cur) := ⟨_, rfl⟩
  have hcore : z = { y with spill := tput y.spill (r.d.base.toNat / 32) (0x100#9 ||| (vtag s r.a.base.toNat).setWidth 9) 0 } := by
    rw [hz, hws, hy]
    rfl
  have hkept : z = { s.co s.cur with acc := z.acc, written := z.written, spill := z.spill } := by
    rw [hcore, hrest]
  refine ⟨_, hexec, engineOnly_done (vecOver_done hb _ _ _) ?_ ?_ (by rw [← hz, hkept]),
    vregsKept_done (vecOver_done hb _ _ _) (by rw [← hz, hkept]) (by rw [← hz, hkept]) (by rw [← hz, hkept]),
    (masks_done (vecOver_done hb _ _ _)).trans (by rw [← hz, hkept]), (vstatus_done (vecOver_done hb _ _ _)).trans BitVec.or_zero, started_done (vecOver_done hb _ _ _) hb, fun e => ?_, fun k => ?_⟩
  · rw [vecOver_ecc, hws]
    exact begun_ecc hb
  · rw [vecOver_mem, hws]
    exact begun_mem hb
  · have hacc : z.acc = y.acc := by rw [hcore]
    rw [accum_done (vecOver_done hb _ _ _), ← hz, hacc, hy]
    refine (accum_written _ (fun _ => true) _ (fun i => lane_lt _ _ _) _ _).trans ?_
    simp only [and_true]
    rfl
  · have hspill : z.spill = tput (s.co s.cur).spill (r.d.base.toNat / 32) (0x100#9 ||| (vtag s r.a.base.toNat).setWidth 9) 0 := by
      rw [hcore, hrest]
    rw [spill_done (vecOver_done hb _ _ _), ← hz, hspill, tget_tput, parkedTag_eq]

theorem unpark_result (hone : oneIssue r) (hkat : r.kat = false) (hb : begins s 0 0x0B r c) (hready : operandsReady s r [])
    (hparked : tget (s.co s.cur).spill (r.a.base.toNat / 32) 0 ≠ 0) (hd : r.d.base.toNat < 384) : completes (.unpark r) s fun t =>
        engineOnly s t ∧ (t.co s.cur).masks = (s.co s.cur).masks ∧ (t.co s.cur).vstatus = (s.co s.cur).vstatus ∧
        (t.co s.cur).acc = (s.co s.cur).acc ∧ (t.co s.cur).written = (s.co s.cur).written ∧ started s c 0 false [] t ∧
        vregWritten s r.d.base.toNat ((tget (s.co s.cur).spill (r.a.base.toNat / 32) 0).setWidth 8) 32 32
          (fun i => some (accum s (r.a.base.toNat + i))) t ∧
        ∀ k, tget (t.co s.cur).spill k 0 = (if k = r.a.base.toNat / 32 then 0 else tget (s.co s.cur).spill k 0) := by
  obtain ⟨tag, htag⟩ : ∃ tag, tag = (tget (s.co s.cur).spill (r.a.base.toNat / 32) 0).toNat % 256 := ⟨_, rfl⟩
  obtain ⟨v, hv⟩ : ∃ v, v = packLanes 32 ((List.range 32).map fun i => accum s (r.a.base.toNat + i)) := ⟨_, rfl⟩
  have hissue : vecIssue (vctxOf s 0x0B r c) 0 (0, 0, 0, 0) (begun s c) =
      .ok (issueUnpark (vctxOf s 0x0B r c) (r.d.base.toNat : Int) (r.a.base.toNat : Int) (begun s c)) := by
    rw [← addr_d hb hkat (by decide), ← addr_a hb (by decide)]
    rfl
  have hread : issueUnpark (vctxOf s 0x0B r c) (r.d.base.toNat : Int) (r.a.base.toNat : Int) (begun s c) =
      { ws := [.reg r.d.base.toNat tag v, .park (r.a.base.toNat / 32) 0], fl := 0, kat := [] } := by
    unfold issueUnpark
    dsimp only
    rw [vctxOf_p, Int.toNat_natCast, Int.toNat_natCast, accRead_begun hb, begun_core hb, spill_setQueue, htag, hv]
  have hexec := exec_vec (i := .unpark r) (k := 0x0B#8) rfl hb hready.1 hone hkat (.inr ⟨space_a_ne hb rfl (by decide), by decide⟩) rfl
    (vecStart_group hb hone (d := r.a) rfl (addr_a hb (by decide)) (iff_of_false hparked (by decide)) (.inr rfl)) (hissue.trans (congrArg _ hread))
  rw [accwrTags_nil (by decide)] at hexec
  have hmerge : mergeLanes (lanesOf 32 32 (vreg s r.d.base.toNat).toNat) ((List.range 32).map fun i => some (accum s (r.a.base.toNat + i))) =
      (List.range 32).map fun i => accum s (r.a.base.toNat + i) := by
    rw [lanesOf_vreg, mergeLanes, zipWith_range]
    rfl
  have htag8 : BitVec.ofNat 8 tag = (tget (s.co s.cur).spill (r.a.base.toNat / 32) 0).setWidth 8 := by
    apply BitVec.eq_of_toNat_eq
    rw [htag, BitVec.toNat_ofNat, BitVec.toNat_setWidth, Nat.mod_mod]
  refine ⟨_, hexec, engineOnly_done (vecOver_done hb _ _ _) ((vecOver_ecc _ _ _).trans (begun_ecc hb)) ((vecOver_mem _ _ _).trans (begun_mem hb)) rfl, masks_done (vecOver_done hb _ _ _), (vstatus_done (vecOver_done hb _ _ _)).trans BitVec.or_zero, ?_, ?_,
    started_done (vecOver_done hb _ _ _) hb, vregWritten_done (vecOver_done hb _ _ _) hd (by decide) htag8 (fun i _ v h => by rw [← Option.some.inj h]; exact accum_lt _)
      (by rw [hmerge, ← hv]; rfl), fun k => ?_⟩
  · exact (acc_done (vecOver_done hb _ _ _)).1
  · exact (acc_done (vecOver_done hb _ _ _)).2
  · rw [spill_done (vecOver_done hb _ _ _)]
    exact tget_tput (s.co s.cur).spill _ k 0 0

theorem accumulatorTransfers : Parts.AccumulatorTransfers := fun _ _ _ hone hkat =>
  ⟨accwr_result hone hkat, park_result hone hkat, unpark_result hone hkat⟩

end

/-- Settles O30: an issue's lanes stand in its writes, and the writes change nothing else. -/
theorem vectorMemoryAndAccumulator : Obligations.VectorMemoryAndAccumulator :=
  ⟨vectorLoadResults, vectorStoreResults, accumulatorTransfers⟩

end Sys2Proof.Machine
end

section
/-! Floating-point patterns (R141 to R145): a result fits its format, and a format's numbers are encoded as they were. -/
namespace Sys2Proof.Machine
set_option Elab.async false

/-! ### A result fits its format -/

/-- The pattern of a result has a sign, 8 exponent bits and p fraction bits. -/
def Fits (p : Nat) (v : Fl Nat) : Prop := v.1 < 2 ^ (p + 9)

theorem fpPack_lt {p e f : Nat} (neg : Bool) (h : e * 2 ^ p + f < 2 ^ (p + 8)) : fpPack p neg e f < 2 ^ (p + 9) := by
  have h9 : 2 ^ (p + 9) = 2 ^ (p + 8) + 2 ^ (p + 8) := by rw [pow_succ 2 (p + 8)]; ring
  unfold fpPack
  split_ifs <;> omega

theorem fits_pack {p e : Nat} (neg : Bool) (w : Word) (he : e ≤ 255) : Fits p (fpPack p neg e 0, w) := by
  refine fpPack_lt neg ?_
  rw [pow_add, Nat.add_zero, Nat.mul_comm]
  exact Nat.mul_lt_mul_of_pos_left (by omega) (Nat.two_pow_pos p)

theorem fits_qnan {p : Nat} (hp : 1 ≤ p) (w : Word) : Fits p (qnan p, w) := by
  have h : 2 ^ (p - 1) < 2 ^ p := Nat.pow_lt_pow_right (by decide) (by omega)
  have h8 : 2 ^ (p + 9) = 512 * 2 ^ p := by rw [pow_add]; ring
  show 255 * 2 ^ p + 2 ^ (p - 1) < 2 ^ (p + 9)
  omega

theorem fits_nanOut {c : FpCtl} (hp : 1 ≤ c.p) (iv : Bool) : Fits c.p (nanOut c iv) := fits_qnan hp _

/-- Rounding m × 2^k to multiples of 2^q gives at most the power of two above. -/
theorem roundAt_le (mode : Nat) (neg : Bool) (m : Nat) (k : Int) (sticky : Bool) (q : Int) {n : Nat} (h : (m.log2 : Int) + 1 + k - q ≤ n) :
    (roundAt mode neg m k sticky q).1 ≤ 2 ^ n := by
  have hm : m < 2 ^ (m.log2 + 1) := Nat.lt_log2_self
  unfold roundAt
  by_cases hq : q ≤ k
  · rw [if_pos hq]
    have hle : m * 2 ^ (k - q).toNat ≤ 2 ^ (m.log2 + 1) * 2 ^ (k - q).toNat := Nat.mul_le_mul_right _ hm.le
    rw [← pow_add] at hle
    exact hle.trans (Nat.pow_le_pow_right (by decide) (by omega))
  · rw [if_neg hq]
    dsimp only
    have hkeep : m / 2 ^ (q - k).toNat + 1 ≤ 2 ^ n := by
      have hup : 2 ^ (m.log2 + 1) ≤ 2 ^ n * 2 ^ (q - k).toNat := by
        rw [← pow_add]
        exact Nat.pow_le_pow_right (by decide) (by omega)
      exact Nat.div_lt_of_lt_mul (by rw [Nat.mul_comm]; exact hm.trans_le hup)
    split_ifs <;> omega

theorem fits_roundFp {p : Nat} (mode : Nat) (ftz neg : Bool) (m : Nat) (k : Int) (sticky : Bool) : Fits p (roundFp p mode ftz neg m k sticky) := by
  have hpos := Nat.two_pow_pos p
  have h8 : 2 ^ (p + 8) = 256 * 2 ^ p := by rw [pow_add]; ring
  have h1 : 2 ^ (p + 1) = 2 * 2 ^ p := by rw [pow_succ]; ring
  unfold roundFp
  by_cases hm : m = 0
  · rw [if_pos hm]
    exact fits_pack neg _ (by decide)
  · rw [if_neg hm]
    dsimp only
    have hr : (roundAt mode neg m k sticky (expOf m k - p)).1 ≤ 2 ^ (p + 1) := roundAt_le _ _ _ _ _ _ (by unfold expOf; push_cast; omega)
    generalize roundAt mode neg m k sticky (expOf m k - p) = v at hr ⊢
    by_cases hover : 127 < (if v.1 = 2 ^ (p + 1) then expOf m k + 1 else expOf m k)
    · rw [if_pos hover]
      unfold overflowTo
      dsimp only
      split_ifs
      · exact fits_pack neg _ (by decide)
      · refine fpPack_lt neg ?_
        omega
    · rw [if_neg hover]
      by_cases hunder : (if v.1 = 2 ^ (p + 1) then expOf m k + 1 else expOf m k) < -126
      · rw [if_pos hunder]
        cases ftz
        · rw [if_neg Bool.false_ne_true]
          have ht : (roundAt mode neg m k sticky (-126 - p)).1 ≤ 2 ^ p := by
            refine roundAt_le _ _ _ _ _ _ ?_
            have : expOf m k < -126 := by split_ifs at hunder <;> omega
            unfold expOf at this
            omega
          exact fpPack_lt neg (by omega)
        · rw [if_pos rfl]
          exact fits_pack neg _ (by decide)
      · rw [if_neg hunder]
        refine fpPack_lt neg ?_
        have hexp : ((if v.1 = 2 ^ (p + 1) then expOf m k + 1 else expOf m k) + 127).toNat ≤ 254 := by omega
        have hfrac : (if v.1 = 2 ^ (p + 1) then 0 else v.1 - 2 ^ p) < 2 ^ p := by split_ifs <;> omega
        have hmul := Nat.mul_le_mul_right (2 ^ p) hexp
        omega

theorem fits_fpEncode {p : Nat} (hp : 1 ≤ p) (x : Fp) (w : Word) : Fits p (fpEncode p x, w) := by
  cases x with
  | nan b => exact fits_qnan hp w
  | inf n => exact fits_pack n w (by decide)
  | fin n m k => exact fits_roundFp 0 false n m k false

section
variable {c : FpCtl} (hp : 1 ≤ c.p)
include hp

theorem fits_fpAdd (x y : Fp) : Fits c.p (fpAdd c x y) := by
  unfold fpAdd
  split
  · exact fits_nanOut hp _
  · exact fits_nanOut hp _
  · split_ifs
    · exact fits_pack _ _ (by decide)
    · exact fits_nanOut hp _
  · exact fits_pack _ _ (by decide)
  · exact fits_pack _ _ (by decide)
  · exact fits_roundFp ..

theorem fits_fpMul (x y : Fp) : Fits c.p (fpMul c x y) := by
  unfold fpMul
  dsimp only
  split_ifs
  · exact fits_nanOut hp _
  · exact fits_nanOut hp _
  · exact fits_pack _ _ (by decide)
  · split
    · exact fits_roundFp ..
    · exact fits_nanOut hp _

theorem fits_fpFma (x y z : Fp) : Fits c.p (fpFma c x y z) := by
  unfold fpFma
  dsimp only
  split_ifs
  · exact fits_nanOut hp _
  · exact fits_nanOut hp _
  · exact fits_nanOut hp _
  · exact fits_pack _ _ (by decide)
  · exact fits_pack _ _ (by decide)
  · split
    · exact fits_roundFp ..
    · exact fits_nanOut hp _

theorem fits_fpDiv (x y : Fp) : Fits c.p (fpDiv c x y) := by
  unfold fpDiv
  dsimp only
  split_ifs
  · exact fits_nanOut hp _
  · exact fits_nanOut hp _
  · exact fits_pack _ _ (by decide)
  · exact fits_pack _ _ (by decide)
  · exact fits_pack _ _ (by decide)
  · split
    · exact fits_roundFp ..
    · exact fits_nanOut hp _

theorem fits_fpSqrt (x : Fp) : Fits c.p (fpSqrt c x) := by
  unfold fpSqrt
  split
  · exact fits_nanOut hp _
  · split_ifs
    · exact fits_nanOut hp _
    · exact fits_pack _ _ (by decide)
  · split_ifs
    · exact fits_pack _ _ (by decide)
    · exact fits_nanOut hp _
    · exact fits_roundFp ..
    · exact fits_roundFp ..

theorem fits_fpRsqrt (x : Fp) : Fits c.p (fpRsqrt c x) := by
  unfold fpRsqrt
  split
  · exact fits_nanOut hp _
  · split_ifs
    · exact fits_nanOut hp _
    · exact fits_pack _ _ (by decide)
  · split_ifs
    · exact fits_pack _ _ (by decide)
    · exact fits_nanOut hp _
    · exact fits_roundFp ..
    · exact fits_roundFp ..

theorem fits_fpMinMax (max : Bool) (x y : Fp) : Fits c.p (fpMinMax c max x y) := by
  unfold fpMinMax
  dsimp only
  split_ifs
  · exact fits_nanOut hp _
  all_goals exact fits_fpEncode hp _ _

theorem fits_fpToFp (pIn : Nat) (x : Fp) : Fits c.p (fpToFp pIn c x) := by
  unfold fpToFp
  split
  · exact fits_nanOut hp _
  · exact fits_pack _ _ (by decide)
  · exact fits_roundFp ..

end

/-! ### Encoding what was decoded -/

/-- Rounding a number that the format holds exactly gives it. -/
theorem roundFp_exact {p : Nat} (mode : Nat) (neg : Bool) {e f : Nat} (hf : f < 2 ^ p) (he : 1 ≤ e ∧ e ≤ 254) :
    (roundFp p mode false neg (2 ^ p + f) ((e : Int) - 127 - p) false).1 = fpPack p neg e f := by
  have hpos := Nat.two_pow_pos p
  have h1 : 2 ^ (p + 1) = 2 * 2 ^ p := by rw [pow_succ]; ring
  have hlog : (2 ^ p + f).log2 = p := (Nat.log2_eq_iff (by omega)).mpr ⟨by omega, by omega⟩
  have hexp : expOf (2 ^ p + f) ((e : Int) - 127 - p) = (e : Int) - 127 := by unfold expOf; rw [hlog]; omega
  have hround : roundAt mode neg (2 ^ p + f) ((e : Int) - 127 - p) false ((e : Int) - 127 - p) = (2 ^ p + f, false) := by
    unfold roundAt
    rw [if_pos (le_refl _), Int.sub_self]
    simp
  unfold roundFp
  dsimp only
  rw [if_neg (by omega), hexp, hround]
  dsimp only
  rw [if_neg (by omega), if_neg (by omega), if_neg (by omega), if_neg (by omega)]
  rw [show ((e : Int) - 127 + 127).toNat = e by omega, Nat.add_sub_cancel_left]

theorem roundFp_subnormal {p : Nat} (mode : Nat) (neg : Bool) {f : Nat} (hf : f < 2 ^ p) : (roundFp p mode false neg f (-126 - p) false).1 = fpPack p neg 0 f := by
  by_cases h0 : f = 0
  · rw [h0]
    rfl
  · have h1 : 2 ^ (p + 1) = 2 * 2 ^ p := by rw [pow_succ]; ring
    have hlog : f.log2 < p := (Nat.log2_lt h0).mpr hf
    have hexp : expOf f (-126 - p) = (f.log2 : Int) - 126 - p := by unfold expOf; omega
    have hround : roundAt mode neg f (-126 - p) false (-126 - p) = (f, false) := by
      unfold roundAt
      rw [if_pos (le_refl _), Int.sub_self]
      simp
    have hfirst : (roundAt mode neg f (-126 - p) false ((f.log2 : Int) - 126 - p - p)).1 ≠ 2 ^ (p + 1) := by
      unfold roundAt
      rw [if_pos (by omega)]
      have hlt : f < 2 ^ (f.log2 + 1) := Nat.lt_log2_self
      have hmul : f * 2 ^ (p - f.log2) < 2 ^ (f.log2 + 1) * 2 ^ (p - f.log2) := Nat.mul_lt_mul_of_pos_right hlt (Nat.two_pow_pos _)
      rw [← pow_add, show f.log2 + 1 + (p - f.log2) = p + 1 by omega] at hmul
      have hsh : (-126 - (p : Int) - ((f.log2 : Int) - 126 - p - p)).toNat = p - f.log2 := by omega
      rw [hsh]
      exact hmul.ne
    unfold roundFp
    dsimp only
    rw [if_neg h0, hexp, if_neg hfirst, if_neg (by omega), if_pos (by omega), if_neg Bool.false_ne_true, hround]

/-- A pattern by its fields. -/
theorem fpPack_fields {p x : Nat} (h : x < 2 ^ (p + 9)) : fpPack p (decide (x / 2 ^ (p + 8) % 2 = 1)) (x / 2 ^ p % 256) (x % 2 ^ p) = x := by
  have hpos := Nat.two_pow_pos p
  have h8 : x / 2 ^ (p + 8) = x / 2 ^ p / 256 := by rw [pow_add, Nat.div_div_eq_div_mul]; norm_num
  have hq : x / 2 ^ p < 512 := Nat.div_lt_of_lt_mul (by rw [show 2 ^ p * 512 = 2 ^ (p + 9) by rw [pow_add]; norm_num]; exact h)
  have hsplit := Nat.div_add_mod x (2 ^ p)
  have hpow : 2 ^ (p + 8) = 256 * 2 ^ p := by rw [pow_add]; ring
  unfold fpPack
  rw [h8, hpow]
  generalize x / 2 ^ p = y at hq hsplit
  obtain ⟨z, hz⟩ : ∃ z, z = y / 256 := ⟨_, rfl⟩
  have hy : y = 256 * z + y % 256 := by omega
  have hz2 : z < 2 := by omega
  rw [← hz]
  rw [hy] at hsplit
  have hexp : 2 ^ p * (256 * z + y % 256) = 256 * 2 ^ p * z + y % 256 * 2 ^ p := by ring
  rw [hexp] at hsplit
  rcases (show z = 0 ∨ z = 1 by omega) with h0 | h0
  · rw [h0] at hsplit ⊢
    simpa using hsplit
  · rw [h0] at hsplit ⊢
    simpa using hsplit

/-- A value with its sign given. -/
def Fp.withSign (neg : Bool) : Fp → Fp
  | .nan b => .nan b
  | .inf _ => .inf neg
  | .fin _ m k => .fin neg m k

theorem Fp.withSign_neg (x : Fp) : x.withSign x.neg = x := by cases x <;> rfl

theorem Fp.flip_eq (x : Fp) : x.flip = x.withSign (!x.neg) := by cases x <;> rfl

/-- The pattern of a number with its sign given. -/
theorem fpEncode_withSign {p x : Nat} (hx : (fpDecode p x).isNan = false) (neg : Bool) :
    fpEncode p ((fpDecode p x).withSign neg) = fpPack p neg (x / 2 ^ p % 256) (x % 2 ^ p) := by
  have hf : x % 2 ^ p < 2 ^ p := Nat.mod_lt _ (Nat.two_pow_pos p)
  have he : x / 2 ^ p % 256 < 256 := Nat.mod_lt _ (by decide)
  unfold fpDecode at hx ⊢
  dsimp only at hx ⊢
  by_cases h255 : x / 2 ^ p % 256 = 255
  · rw [if_pos h255] at hx ⊢
    by_cases hf0 : x % 2 ^ p = 0
    · rw [if_pos hf0, h255, hf0]
      rfl
    · rw [if_neg hf0] at hx
      exact absurd hx (by simp [Fp.isNan])
  · rw [if_neg h255]
    by_cases h0 : x / 2 ^ p % 256 = 0
    · rw [if_pos h0, h0]
      exact roundFp_subnormal 0 neg hf
    · rw [if_neg h0]
      exact roundFp_exact 0 neg hf ⟨by omega, by omega⟩

theorem neg_fpDecode {p x : Nat} (hx : (fpDecode p x).isNan = false) : (fpDecode p x).neg = decide (x / 2 ^ (p + 8) % 2 = 1) := by
  unfold fpDecode at hx ⊢
  dsimp only at hx ⊢
  split_ifs at hx ⊢ <;> first | rfl | exact absurd hx (by simp [Fp.isNan])

/-- The pattern of the magnitude of a number. -/
theorem fpEncode_abs {p x : Nat} (h : x < 2 ^ (p + 9)) (hx : (fpDecode p x).isNan = false) : fpEncode p ((fpDecode p x).withSign false) = x % 2 ^ (p + 8) := by
  have hfields := fpPack_fields h
  have hlt : x / 2 ^ p % 256 * 2 ^ p + x % 2 ^ p < 2 ^ (p + 8) := by
    have he : x / 2 ^ p % 256 < 256 := Nat.mod_lt _ (by decide)
    have hf : x % 2 ^ p < 2 ^ p := Nat.mod_lt _ (Nat.two_pow_pos p)
    have hmul : x / 2 ^ p % 256 * 2 ^ p ≤ 255 * 2 ^ p := Nat.mul_le_mul_right _ (by omega)
    have h8 : 2 ^ (p + 8) = 256 * 2 ^ p := by rw [pow_add]; ring
    omega
  rw [fpEncode_withSign hx]
  unfold fpPack at hfields ⊢
  rw [if_neg Bool.false_ne_true, Nat.zero_add]
  conv_rhs => rw [← hfields]
  split_ifs
  · rw [Nat.add_assoc, Nat.add_mod_left, Nat.mod_eq_of_lt hlt]
  · rw [Nat.zero_add, Nat.mod_eq_of_lt hlt]

/-- The pattern of a number with the other sign. -/
theorem fpEncode_flip {p x : Nat} (h : x < 2 ^ (p + 9)) (hx : (fpDecode p x).isNan = false) :
    fpEncode p (fpDecode p x).flip = (x + 2 ^ (p + 8)) % 2 ^ (p + 9) := by
  have habs := fpEncode_abs h hx
  rw [fpEncode_withSign hx, fpPack, if_neg Bool.false_ne_true, Nat.zero_add] at habs
  have h9 : 2 ^ (p + 9) = 2 * 2 ^ (p + 8) := by rw [pow_succ 2 (p + 8)]; ring
  have hpos := Nat.two_pow_pos (p + 8)
  have hsplit := Nat.div_add_mod x (2 ^ (p + 8))
  have hmod := Nat.mod_lt x hpos
  have hdiv : x / 2 ^ (p + 8) < 2 := Nat.div_lt_of_lt_mul (by omega)
  rw [Fp.flip_eq, fpEncode_withSign hx, neg_fpDecode hx, fpPack, Nat.add_assoc, habs, h9]
  generalize 2 ^ (p + 8) = M at *
  generalize x / M = z at *
  generalize x % M = y at *
  have hz : z = 0 ∨ z = 1 := by omega
  rcases hz with rfl | rfl
  · rw [if_pos (by decide), Nat.mod_eq_of_lt (by omega)]
    omega
  · rw [if_neg (by decide), Nat.mod_eq_sub_mod (by omega), Nat.mod_eq_of_lt (by omega)]
    omega

/-- Flushing leaves what is no subnormal. -/
theorem ftzIn_fpDecode {p x : Nat} {ftz : Bool} (h : ftz = false ∨ x / 2 ^ p % 256 ≠ 0 ∨ x % 2 ^ p = 0) : ftzIn p ftz (fpDecode p x) = fpDecode p x := by
  unfold fpDecode ftzIn
  dsimp only
  by_cases h255 : x / 2 ^ p % 256 = 255
  · rw [if_pos h255]
    split_ifs <;> rfl
  · rw [if_neg h255]
    by_cases h0 : x / 2 ^ p % 256 = 0
    · rw [if_pos h0]
      dsimp only
      rcases h with h | h | h
      · rw [h, Bool.false_and, if_neg Bool.false_ne_true]
      · exact absurd h0 h
      · rw [h]
        split_ifs <;> rfl
    · rw [if_neg h0]
      dsimp only
      rw [decide_eq_false (by omega), Bool.and_false, if_neg Bool.false_ne_true]

end Sys2Proof.Machine
end

section
/-! The lane-wise arithmetic of the vector engine (R194 to R197). -/
namespace Sys2Proof.Machine
set_option Elab.async false
open Safety

/-! ### The lane-wise operations -/

/-- An operation reads B. -/
def usesB (op : Nat) : Bool := decide (op ≤ 0x15) || op == 0x18 || decide (0x20 ≤ op)
/-- An operation reads D. -/
def usesD (op : Nat) : Bool := op == 0x13 || op == 0x2D

/-- The registers that a lane-wise operation reads. -/
def laneReads (op : Nat) (r : Rec) : List Desc := r.a :: ((if usesB op then [r.b] else []) ++ if usesD op then [r.d] else [])

theorem mem_laneReads (op : Nat) (r : Rec) : r.a ∈ laneReads op r ∧ (usesB op = true → r.b ∈ laneReads op r) ∧ (usesD op = true → r.d ∈ laneReads op r) := by
  refine ⟨List.mem_cons_self, fun h => ?_, fun h => ?_⟩ <;> simp [laneReads, h]

/-- What a lane-wise operation gives of its three lanes. -/
def laneFn (op : Nat) (r : Rec) : Nat → Nat → Nat → Fl Nat :=
  if op < 0x20 then floatLane op (fpCtlOf r r.d.tag.toNat)
  else if op = 0x2D then dot4 r.a.tag.toNat (r.mods.getLsbD 3)
  else fun x y _ => intLane op r.d.tag.toNat (r.mods.getLsbD 3) x y

/-- A lane-wise operation of registers. -/
abbrev LaneOp (op : Nat) : Prop :=
  (0x10 ≤ op ∧ op < 0x2E) ∧ (vecEntry op).dS = [2] ∧ (vecEntry op).aS = [2] ∧ (usesB op = true → (vecEntry op).bS = [2])

section
variable {s : State} {op : Nat} {r : Rec} {c : BitVec 32}

theorem vecIssue_lanes (h : 0x10 ≤ op ∧ op < 0x2E) (u : State) (i : Nat × Nat × Nat × Nat) :
    vecIssue (vctxOf s op r c) 0 i u = issueLanes (vctxOf s op r c) 0 (addrAt r.d i) (addrAt r.a i) (addrAt r.b i) u := by
  obtain ⟨hlo, hhi⟩ := h
  unfold vecIssue
  dsimp only
  rw [vctxOf_op, if_neg (by omega), if_neg (by omega), if_neg (by omega), if_neg (by omega), if_neg (by omega), if_neg (by omega), if_neg (by omega), if_pos hhi,
    vctxOf_r]

theorem lanesOf_zero (w n : Nat) : lanesOf w n 0 = (List.range n).map fun _ => 0 := by
  rw [lanesOf_eq]
  simp

/-- The two or three registers of a lane-wise operation. -/
theorem readTwo_begun (hb : begins s 0 op r c) (hkat : r.kat = false) {useB useD : Bool} (ha : r.a.tag = 0 ∨ vtag s r.a.base.toNat = r.a.tag)
    (hbt : useB = true → r.b.tag = 0 ∨ vtag s r.b.base.toNat = r.b.tag) (hd : useD = true → r.d.tag = 0 ∨ vtag s r.d.base.toNat = r.d.tag) {b : Int}
    (hbase : useB = true → b = (r.b.base.toNat : Int)) :
    readTwo (vctxOf s op r c) 0 (r.d.base.toNat : Int) (r.a.base.toNat : Int) b useB useD (begun s c) = .ok ((vreg s r.a.base.toNat).toNat,
      if useB then (vreg s r.b.base.toNat).toNat else 0, if useD then (vreg s r.d.base.toNat).toNat else 0) := by
  have hB : (if useB = true then readReg (vctxOf s op r c) 3 r.b b 0 (begun s c) else .ok 0) = .ok (if useB then (vreg s r.b.base.toNat).toNat else 0) := by
    cases useB
    · rfl
    · rw [if_pos rfl, if_pos rfl, hbase rfl, readReg_begun hb (hbt rfl)]
  have hD : (if useD = true then readD (vctxOf s op r c) (r.d.base.toNat : Int) 0 (begun s c) else .ok 0) =
      .ok (if useD then (vreg s r.d.base.toNat).toNat else 0) := by
    cases useD
    · rfl
    · rw [if_pos rfl, if_pos rfl]
      unfold readD
      rw [vctxOf_r, hkat, if_neg Bool.false_ne_true, readReg_begun hb (hd rfl)]
  unfold readTwo
  rw [vctxOf_r, readReg_begun hb ha]
  dsimp only
  rw [hB]
  dsimp only
  rw [hD]

theorem lanes_if (w n : Nat) (use : Bool) (v : VWord) : lanesOf w n (if use then v.toNat else 0) = (List.range n).map fun i => if use then lane w i v else 0 := by
  cases use
  · exact lanesOf_zero w n
  · exact lanesOf_vreg w n v

/-- A lane-wise operation: every active lane takes what its lanes of A, B and the old D give. -/
theorem lane_op {i : Instr} {k : BitVec 8} (hlane : LaneOp k.toNat) (hparts : recParts i = some (0#4, k, r)) (hb : begins s 0 k.toNat r c)
    (hone : oneIssue r) (hkat : r.kat = false) (hd : r.d.base.toNat < 384) (hready : operandsReady s r (laneReads k.toNat r)) {G : Nat → Fl Nat}
    (hG : ∀ j, laneFn k.toNat r (lane (laneBits r.d.tag.toNat) j (vreg s r.a.base.toNat))
      (if usesB k.toNat then lane (laneBits r.d.tag.toNat) j (vreg s r.b.base.toNat) else 0)
      (if usesD k.toNat then lane (laneBits r.d.tag.toNat) j (vreg s r.d.base.toNat) else 0) = G j)
    (hlt : ∀ j, (G j).1 < 2 ^ laneBits r.d.tag.toNat) : completes i s (laneResult s r c G) := by
  obtain ⟨hop, hdS, haS, hbS⟩ := hlane
  obtain ⟨hA, hB, hD⟩ := mem_laneReads k.toNat r
  have haddrD : addrAt r.d (0, 0, 0, 0) = (r.d.base.toNat : Int) := addr_d hb hkat (by rw [hdS]; decide)
  have haddrA : addrAt r.a (0, 0, 0, 0) = (r.a.base.toNat : Int) := addr_a hb (by rw [haS]; decide)
  have haddrB : usesB k.toNat = true → addrAt r.b (0, 0, 0, 0) = (r.b.base.toNat : Int) := fun h => addr_b hb (by rw [hbS h]; decide)
  have hissue : vecIssue (vctxOf s k.toNat r c) 0 (0, 0, 0, 0) (begun s c) = .ok (regOut (vctxOf s k.toNat r c) (r.d.base.toNat : Int)
      ((List.range (laneCount r.d.tag.toNat)).map fun j => if laneOn s r (laneCount r.d.tag.toNat) j then some (G j).1 else none)
      (underMask ((List.range (laneCount r.d.tag.toNat)).map fun j => laneOn s r (laneCount r.d.tag.toNat) j)
        ((List.range (laneCount r.d.tag.toNat)).map G)).2 (begun s c)) := by
    rw [vecIssue_lanes hop, haddrD, haddrA]
    unfold issueLanes
    dsimp only
    have hread := readTwo_begun hb hkat (useB := usesB k.toNat) (useD := usesD k.toNat) (hready.2 _ hA) (fun h => hready.2 _ (hB h)) (fun h => hready.2 _ (hD h))
      haddrB
    unfold usesB usesD at hread
    rw [vctxOf_op, hread]
    dsimp only
    have hfn : (if k.toNat < 0x20 then floatLane k.toNat (fpCtlOf r r.d.tag.toNat)
      else if k.toNat = 0x2D then dot4 r.a.tag.toNat (r.mods.getLsbD 3) else fun x y _ => intLane k.toNat r.d.tag.toNat (r.mods.getLsbD 3) x y) =
        laneFn k.toNat r := rfl
    rw [vctxOf_r, hfn, active_begun hb, lanesOf_vreg, lanes_if, lanes_if, zip3_map]
    unfold usesB usesD at hG
    simp only [hG]
    rw [underMask_fst]
  obtain ⟨t, hexec, ht⟩ := completes_lanes hparts hb hready.1 hone hkat (.inr ⟨space_a_ne hb haS (by decide), by omega⟩)
    (by unfold isRed; simp; omega) (by omega) (by omega) hd (lt_of_active fun j _ => hlt j) hissue
  exact ⟨t, hexec, laneResult_of_lanes ht fun b _ => getLsbD_underMask _ _ _ _⟩

/-! ### Floating point -/

/-- The lanes of a floating-point operation have its format's width. -/
theorem fp_width (r : Rec) (h : r.d.tag.toNat ∈ [1, 2]) :
    laneBits r.d.tag.toNat = (fpCtlOf r r.d.tag.toNat).p + 9 ∧ 1 ≤ (fpCtlOf r r.d.tag.toNat).p := by
  have h' : r.d.tag.toNat = 1 ∨ r.d.tag.toNat = 2 := by simpa using h
  rw [show (fpCtlOf r r.d.tag.toNat).p = if r.d.tag.toNat = 2 then 7 else 23 from rfl]
  rcases h' with h | h <;> rw [h] <;> decide

theorem tag_d (hb : begins s 0 op r c) {l : List Nat} (h : (vecEntry op).dS ≠ [] ∧ (vecEntry op).dT = l) : r.d.tag.toNat ∈ l :=
  h.2 ▸ (operands_begin hb).dTag h.1

section
variable {i : Instr} {k : BitVec 8} (hone : oneIssue r) (hkat : r.kat = false) (hd : r.d.base.toNat < 384)
include hone hkat hd

/-- A floating-point operation of registers: what its lanes give fits the format. -/
theorem float_op (hlane : LaneOp k.toNat ∧ (vecEntry k.toNat).dS ≠ [] ∧ (vecEntry k.toNat).dT = [1, 2]) (hparts : recParts i = some (0#4, k, r))
    (hb : begins s 0 k.toNat r c) (hready : operandsReady s r (laneReads k.toNat r)) {G : Nat → Fl Nat}
    (hG : ∀ j, laneFn k.toNat r (lane (laneBits r.d.tag.toNat) j (vreg s r.a.base.toNat))
      (if usesB k.toNat then lane (laneBits r.d.tag.toNat) j (vreg s r.b.base.toNat) else 0)
      (if usesD k.toNat then lane (laneBits r.d.tag.toNat) j (vreg s r.d.base.toNat) else 0) = G j)
    (hfits : 1 ≤ (fpCtlOf r r.d.tag.toNat).p → ∀ j, Fits (fpCtlOf r r.d.tag.toNat).p (G j)) : completes i s (laneResult s r c G) := by
  obtain ⟨hw, hp⟩ := fp_width r (tag_d hb hlane.2)
  refine lane_op hlane.1 hparts hb hone hkat hd hready hG fun j => ?_
  rw [hw]
  exact hfits hp j

end

/-- The sign of FABS and FNEG. -/
theorem floatLane_sign {op : Nat} (hop : op = 0x16 ∨ op = 0x17) (c : FpCtl) (x b d : Nat) (hx : x < 2 ^ (c.p + 9)) (hnan : (fpDecode c.p x).isNan = false)
    (hftz : c.ftz = false ∨ x / 2 ^ c.p % 256 ≠ 0 ∨ x % 2 ^ c.p = 0) : floatLane op c x b d =
      (if op = 0x16 then x % 2 ^ (c.p + 8) else (x + 2 ^ (c.p + 8)) % 2 ^ (c.p + 9), 0) := by
  have hlane : floatLane op c x b d = (fpEncode c.p (if op = 0x16 then (if (fpDecode c.p x).neg then (fpDecode c.p x).flip else fpDecode c.p x)
      else (fpDecode c.p x).flip), 0) := by
    unfold floatLane
    dsimp only
    rw [ftzIn_fpDecode hftz, hnan]
    rcases hop with rfl | rfl <;> rfl
  rw [hlane]
  rcases hop with rfl | rfl
  · rw [if_pos rfl, if_pos rfl, ← fpEncode_abs hx hnan]
    congr 2
    cases hn : (fpDecode c.p x).neg
    · rw [if_neg Bool.false_ne_true, ← hn, Fp.withSign_neg]
    · rw [if_pos rfl, Fp.flip_eq, hn]
      rfl
  · rw [if_neg (by decide), if_neg (by decide), fpEncode_flip hx hnan]

theorem floatResults (hone : oneIssue r) (hkat : r.kat = false) (hd : r.d.base.toNat < 384) (w : Nat) (a b d : Nat → Nat) (hw : w = laneBits r.d.tag.toNat)
    (ha : ∀ i, a i = lane w i (vreg s r.a.base.toNat)) (hbl : ∀ i, b i = lane w i (vreg s r.b.base.toNat)) (hdl : ∀ i, d i = lane w i (vreg s r.d.base.toNat))
    (k : FpCtl) (F : Nat → Fp) (hk : k = fpCtlOf r r.d.tag.toNat) (hF : F = fpDecode k.p) :
    (∀ (i : Instr) (op : Nat) (f : Nat → Nat → Fl Nat),
        (i, op, f) ∈ [(.fadd r, 0x10, fun x y => fpAdd k (F x) (F y)), (.fsub r, 0x11, fun x y => fpAdd k (F x) (F y).flip),
          (.fmul r, 0x12, fun x y => fpMul k (F x) (F y)), (.fmin r, 0x14, fun x y => fpMinMax k false (F x) (F y)),
          (.fmax r, 0x15, fun x y => fpMinMax k true (F x) (F y)), (.fdiv r, 0x18, fun x y => fpDiv k (F x) (F y))] →
        begins s 0 op r c → operandsReady s r [r.a, r.b] → completes i s (laneResult s r c fun j => f (a j) (b j))) ∧
      (∀ (i : Instr) (op : Nat) (f : Nat → Fl Nat),
        (i, op, f) ∈ [(.fsqrt r, 0x19, fun x => fpSqrt k (F x)), (.frsqrt r, 0x1A, fun x => fpRsqrt k (F x)),
          (.frcp r, 0x1B, fun x => fpDiv k (.fin false (2 ^ k.p) (-(k.p : Int))) (F x))] →
        begins s 0 op r c → operandsReady s r [r.a] → completes i s (laneResult s r c fun j => f (a j))) ∧
      (begins s 0 0x13 r c → operandsReady s r [r.a, r.b, r.d] →
        completes (.fma r) s (laneResult s r c fun j => fpFma k (F (a j)) (F (b j)) (F (d j)))) ∧
      ∀ (i : Instr) (op : Nat), (i, op) ∈ [(.fabs r, 0x16), (.fneg r, 0x17)] → begins s 0 op r c → operandsReady s r [r.a] →
        ∃ f : Nat → Fl Nat, completes i s (laneResult s r c fun j => f (a j)) ∧
          ∀ x, x < 2 ^ (k.p + 9) → (F x).isNan = false → (k.ftz = false ∨ x / 2 ^ k.p % 256 ≠ 0 ∨ x % 2 ^ k.p = 0) →
            f x = (if op = 0x16 then x % 2 ^ (k.p + 8) else (x + 2 ^ (k.p + 8)) % 2 ^ (k.p + 9), 0) := by
  obtain rfl : a = fun i => lane w i (vreg s r.a.base.toNat) := funext ha
  obtain rfl : b = fun i => lane w i (vreg s r.b.base.toNat) := funext hbl
  obtain rfl : d = fun i => lane w i (vreg s r.d.base.toNat) := funext hdl
  subst hk hF hw
  refine ⟨fun i op f h hb hr => ?_, fun i op f h hb hr => ?_, fun hb hr => ?_, fun i op h hb hr => ?_⟩
  · simp only [List.mem_cons, Prod.mk.injEq, List.not_mem_nil, or_false] at h
    rcases h with ⟨rfl, rfl, rfl⟩ | ⟨rfl, rfl, rfl⟩ | ⟨rfl, rfl, rfl⟩ | ⟨rfl, rfl, rfl⟩ | ⟨rfl, rfl, rfl⟩ | ⟨rfl, rfl, rfl⟩
    · exact float_op (k := 0x10#8) hone hkat hd (by decide) rfl hb hr (fun _ => rfl) fun hp _ => fits_fpAdd hp _ _
    · exact float_op (k := 0x11#8) hone hkat hd (by decide) rfl hb hr (fun _ => rfl) fun hp _ => fits_fpAdd hp _ _
    · exact float_op (k := 0x12#8) hone hkat hd (by decide) rfl hb hr (fun _ => rfl) fun hp _ => fits_fpMul hp _ _
    · exact float_op (k := 0x14#8) hone hkat hd (by decide) rfl hb hr (fun _ => rfl) fun hp _ => fits_fpMinMax hp _ _ _
    · exact float_op (k := 0x15#8) hone hkat hd (by decide) rfl hb hr (fun _ => rfl) fun hp _ => fits_fpMinMax hp _ _ _
    · exact float_op (k := 0x18#8) hone hkat hd (by decide) rfl hb hr (fun _ => rfl) fun hp _ => fits_fpDiv hp _ _
  · simp only [List.mem_cons, Prod.mk.injEq, List.not_mem_nil, or_false] at h
    rcases h with ⟨rfl, rfl, rfl⟩ | ⟨rfl, rfl, rfl⟩ | ⟨rfl, rfl, rfl⟩
    · exact float_op (k := 0x19#8) hone hkat hd (by decide) rfl hb hr (fun _ => rfl) fun hp _ => fits_fpSqrt hp _
    · exact float_op (k := 0x1A#8) hone hkat hd (by decide) rfl hb hr (fun _ => rfl) fun hp _ => fits_fpRsqrt hp _
    · exact float_op (k := 0x1B#8) hone hkat hd (by decide) rfl hb hr (fun _ => rfl) fun hp _ => fits_fpDiv hp _ _
  · exact float_op (k := 0x13#8) hone hkat hd (by decide) rfl hb hr (fun _ => rfl)
      fun hp _ => fits_fpFma hp _ _ _
  · have hop : op = 0x16 ∨ op = 0x17 := by
      simp only [List.mem_cons, Prod.mk.injEq, List.not_mem_nil, or_false] at h
      exact h.imp And.right And.right
    refine ⟨fun x => floatLane op (fpCtlOf r r.d.tag.toNat) x 0 0, ?_, fun x hx hnan hftz => floatLane_sign hop _ x 0 0 hx hnan hftz⟩
    have hfits (hp : 1 ≤ (fpCtlOf r r.d.tag.toNat).p) (x : Nat) : Fits (fpCtlOf r r.d.tag.toNat).p (floatLane op (fpCtlOf r r.d.tag.toNat) x 0 0) := by
      unfold floatLane
      dsimp only
      rcases hop with rfl | rfl <;> simp only [reduceIte, Nat.reduceEqDiff, true_or, or_true]
      all_goals
        split_ifs
        · exact fits_nanOut hp _
        all_goals exact fits_fpEncode hp _ _
    simp only [List.mem_cons, Prod.mk.injEq, List.not_mem_nil, or_false] at h
    rcases h with ⟨rfl, rfl⟩ | ⟨rfl, rfl⟩
    · exact float_op (k := 0x16#8) hone hkat hd (by decide) rfl hb hr (fun _ => rfl) fun hp _ => hfits hp _
    · exact float_op (k := 0x17#8) hone hkat hd (by decide) rfl hb hr (fun _ => rfl) fun hp _ => hfits hp _

end

end Sys2Proof.Machine
end

section
/-! Integer lanes (R195 to R197), and the vector engine's compares, masks and moves (R198 to R200, R208 to R210). -/
namespace Sys2Proof.Machine
set_option Elab.async false
open Safety

/-! ### Integers of w bits -/

theorem wrapBits_lt (w : Nat) (x : Int) : wrapBits w x < 2 ^ w := by
  unfold wrapBits
  have hpos : (0 : Int) < 2 ^ w := by positivity
  have h := Int.emod_lt_of_pos x hpos
  have h0 := Int.emod_nonneg x hpos.ne'
  have hcast : ((2 ^ w : Nat) : Int) = 2 ^ w := by push_cast; rfl
  omega

theorem wrapBits_intOf (w : Nat) (sg : Bool) {x : Nat} (h : x < 2 ^ w) : wrapBits w (intOf w sg x) = x := by
  have hcast : ((2 ^ w : Nat) : Int) = 2 ^ w := by push_cast; rfl
  unfold wrapBits intOf
  split_ifs
  · rw [Int.sub_emod_right, ← hcast, ← Int.natCast_mod, Nat.mod_eq_of_lt h, Int.toNat_natCast]
  · rw [← hcast, ← Int.natCast_mod, Nat.mod_eq_of_lt h, Int.toNat_natCast]

theorem tagSigned_eq (t : BitVec 8) : tagSigned t.toNat = decide (t ≠ 6) := by
  unfold tagSigned
  by_cases h : t = 6
  · rw [h]
    rfl
  · have : t.toNat ≠ 6 := fun e => h (BitVec.eq_of_toNat_eq e)
    rw [decide_eq_true h, bne_iff_ne.mpr this]

theorem clampInt_eq_self {lo hi : Int} (h : lo ≤ hi) (x : Int) : clampInt lo hi x = x ↔ lo ≤ x ∧ x ≤ hi := by
  rw [clampInt_eq x h]
  omega

theorem intRange_le (w : Nat) (sg : Bool) : (intRange w sg).1 ≤ (intRange w sg).2 := by
  have h1 : (0 : Int) < 2 ^ w := by positivity
  have h2 : (0 : Int) < 2 ^ (w - 1) := by positivity
  unfold intRange
  split_ifs
  · show -(2 ^ (w - 1) : Int) ≤ 2 ^ (w - 1) - 1
    omega
  · show (0 : Int) ≤ 2 ^ w - 1
    omega

/-- An integer in a format: it wraps, or with SAT clamps (R195). -/
theorem intToInt_eq (w : Nat) (sg sat : Bool) (v : Int) : intToInt w sg sat v =
    if sat then (((max (intRange w sg).1 (min (intRange w sg).2 v)) % 2 ^ w).toNat, if (intRange w sg).1 ≤ v ∧ v ≤ (intRange w sg).2 then 0 else flSAT)
    else ((v % 2 ^ w).toNat, 0) := by
  unfold intToInt
  dsimp only
  simp only [clampInt_eq_self (intRange_le w sg)]
  rw [clampInt_eq v (intRange_le w sg)]
  rfl

theorem intToInt_lt (w : Nat) (sg sat : Bool) (v : Int) : (intToInt w sg sat v).1 < 2 ^ w := by
  unfold intToInt
  dsimp only
  split_ifs <;> exact wrapBits_lt _ _

section
variable {s : State} {r : Rec} {c : BitVec 32}

theorem integerSums (hone : oneIssue r) (hkat : r.kat = false) (hd : r.d.base.toNat < 384) (w : Nat) (a b : Nat → Nat) (hw : w = laneBits r.d.tag.toNat)
    (ha : ∀ i, a i = lane w i (vreg s r.a.base.toNat)) (hbl : ∀ i, b i = lane w i (vreg s r.b.base.toNat))
    (sg : Bool) (I : Nat → Int) (lo hi : Int) (hsg : sg = decide (r.d.tag ≠ 6)) (hI : I = intOf w sg) (hlo : lo = (if sg then -(2 ^ (w - 1)) else 0))
    (hhi : hi = (if sg then 2 ^ (w - 1) - 1 else 2 ^ w - 1)) (i : Instr) (op : Nat) (f : Int → Int → Int)
    (h : (i, op, f) ∈ [(.iadd r, 0x20, (· + ·)), (.isub r, 0x21, (· - ·)), (.imul r, 0x2C, (· * ·))]) (hb : begins s 0 op r c)
    (hr : operandsReady s r [r.a, r.b]) : completes i s (laneResult s r c fun j =>
          if r.mods.getLsbD 3 then
            (((max lo (min hi (f (I (a j)) (I (b j))))) % 2 ^ w).toNat,
              if lo ≤ f (I (a j)) (I (b j)) ∧ f (I (a j)) (I (b j)) ≤ hi then 0 else flSAT)
          else ((f (I (a j)) (I (b j)) % 2 ^ w).toNat, 0)) := by
  have hrange : intRange w sg = (lo, hi) := by
    rw [hlo, hhi]
    unfold intRange
    split_ifs <;> rfl
  have hG (x : Int) : (if r.mods.getLsbD 3 then (((max lo (min hi x)) % 2 ^ w).toNat, if lo ≤ x ∧ x ≤ hi then 0 else flSAT) else ((x % 2 ^ w).toNat, 0)) =
      intToInt w sg (r.mods.getLsbD 3) x := by rw [intToInt_eq, hrange]
  simp only [hG]
  obtain rfl : a = fun i => lane w i (vreg s r.a.base.toNat) := funext ha
  obtain rfl : b = fun i => lane w i (vreg s r.b.base.toNat) := funext hbl
  rw [← tagSigned_eq] at hsg
  subst hw hI hsg
  simp only [List.mem_cons, Prod.mk.injEq, List.not_mem_nil, or_false] at h
  rcases h with ⟨rfl, rfl, rfl⟩ | ⟨rfl, rfl, rfl⟩ | ⟨rfl, rfl, rfl⟩
  · exact lane_op (k := 0x20#8) (by decide) rfl hb hone hkat hd hr (fun _ => rfl) fun _ => intToInt_lt _ _ _ _
  · exact lane_op (k := 0x21#8) (by decide) rfl hb hone hkat hd hr (fun _ => rfl) fun _ => intToInt_lt _ _ _ _
  · exact lane_op (k := 0x2C#8) (by decide) rfl hb hone hkat hd hr (fun _ => rfl) fun _ => intToInt_lt _ _ _ _

theorem integerLogic (hone : oneIssue r) (hkat : r.kat = false) (hd : r.d.base.toNat < 384) (w : Nat) (a b : Nat → Nat) (hw : w = laneBits r.d.tag.toNat)
    (ha : ∀ i, a i = lane w i (vreg s r.a.base.toNat)) (hbl : ∀ i, b i = lane w i (vreg s r.b.base.toNat))
    (sg : Bool) (I : Nat → Int) (hsg : sg = decide (r.d.tag ≠ 6)) (hI : I = intOf w sg) (i : Instr) (op : Nat) (f : Nat → Nat → Nat)
    (h : (i, op, f) ∈ [(.iand r, 0x22, (· &&& ·)), (.ior r, 0x23, (· ||| ·)), (.ixor r, 0x24, (· ^^^ ·)),
          (.ishl r, 0x25, fun x y => x * 2 ^ (y % w) % 2 ^ w), (.ishr r, 0x26, fun x y => x / 2 ^ (y % w)),
          (.isar r, 0x27, fun x y => ((I x / 2 ^ (y % w)) % 2 ^ w).toNat),
          (.imin r, 0x28, fun x y => if I x ≤ I y then x else y), (.imax r, 0x29, fun x y => if I x ≤ I y then y else x)])
    (hb : begins s 0 op r c) (hr : operandsReady s r [r.a, r.b]) : completes i s (laneResult s r c fun j => (f (a j) (b j), 0)) := by
  obtain rfl : a = fun i => lane w i (vreg s r.a.base.toNat) := funext ha
  obtain rfl : b = fun i => lane w i (vreg s r.b.base.toNat) := funext hbl
  rw [← tagSigned_eq] at hsg
  subst hw hI hsg
  have hmin (x y : Nat) (hx : x < 2 ^ laneBits r.d.tag.toNat) (hy : y < 2 ^ laneBits r.d.tag.toNat) :
      wrapBits (laneBits r.d.tag.toNat) (min (intOf (laneBits r.d.tag.toNat) (tagSigned r.d.tag.toNat) x) (intOf (laneBits r.d.tag.toNat) (tagSigned r.d.tag.toNat) y)) =
        if intOf (laneBits r.d.tag.toNat) (tagSigned r.d.tag.toNat) x ≤ intOf (laneBits r.d.tag.toNat) (tagSigned r.d.tag.toNat) y then x else y := by
    rw [min_def]
    split_ifs
    · exact wrapBits_intOf _ _ hx
    · exact wrapBits_intOf _ _ hy
  have hmax (x y : Nat) (hx : x < 2 ^ laneBits r.d.tag.toNat) (hy : y < 2 ^ laneBits r.d.tag.toNat) :
      wrapBits (laneBits r.d.tag.toNat) (max (intOf (laneBits r.d.tag.toNat) (tagSigned r.d.tag.toNat) x) (intOf (laneBits r.d.tag.toNat) (tagSigned r.d.tag.toNat) y)) =
        if intOf (laneBits r.d.tag.toNat) (tagSigned r.d.tag.toNat) x ≤ intOf (laneBits r.d.tag.toNat) (tagSigned r.d.tag.toNat) y then y else x := by
    rw [max_def]
    split_ifs
    · exact wrapBits_intOf _ _ hy
    · exact wrapBits_intOf _ _ hx
  simp only [List.mem_cons, Prod.mk.injEq, List.not_mem_nil, or_false] at h
  rcases h with ⟨rfl, rfl, rfl⟩ | ⟨rfl, rfl, rfl⟩ | ⟨rfl, rfl, rfl⟩ | ⟨rfl, rfl, rfl⟩ | ⟨rfl, rfl, rfl⟩ | ⟨rfl, rfl, rfl⟩ | ⟨rfl, rfl, rfl⟩ | ⟨rfl, rfl, rfl⟩
  · exact lane_op (k := 0x22#8) (by decide) rfl hb hone hkat hd hr (fun _ => rfl) fun _ => Nat.and_lt_two_pow _ (lane_lt _ _ _)
  · exact lane_op (k := 0x23#8) (by decide) rfl hb hone hkat hd hr (fun _ => rfl) fun _ => Nat.or_lt_two_pow (lane_lt _ _ _) (lane_lt _ _ _)
  · exact lane_op (k := 0x24#8) (by decide) rfl hb hone hkat hd hr (fun _ => rfl) fun _ => Nat.xor_lt_two_pow (lane_lt _ _ _) (lane_lt _ _ _)
  · exact lane_op (k := 0x25#8) (by decide) rfl hb hone hkat hd hr (fun _ => rfl) fun _ => Nat.mod_lt _ (Nat.two_pow_pos _)
  · exact lane_op (k := 0x26#8) (by decide) rfl hb hone hkat hd hr (fun _ => rfl) fun _ => (Nat.div_le_self _ _).trans_lt (lane_lt _ _ _)
  · refine lane_op (k := 0x27#8) (by decide) rfl hb hone hkat hd hr (fun j => ?_) fun _ => wrapBits_lt _ _
    refine (Prod.mk.injEq _ _ _ _).mpr ⟨?_, rfl⟩
    show wrapBits _ (_ / ((2 ^ _ : Nat) : Int)) = wrapBits _ (_ / 2 ^ _)
    push_cast
    rfl
  · refine lane_op (k := 0x28#8) (by decide) rfl hb hone hkat hd hr (fun j => ?_) fun _ => by dsimp only; split_ifs <;> exact lane_lt _ _ _
    exact congrArg (fun v => (v, (0 : Word))) (hmin _ _ (lane_lt _ _ _) (lane_lt _ _ _))
  · refine lane_op (k := 0x29#8) (by decide) rfl hb hone hkat hd hr (fun j => ?_) fun _ => by dsimp only; split_ifs <;> exact lane_lt _ _ _
    exact congrArg (fun v => (v, (0 : Word))) (hmax _ _ (lane_lt _ _ _) (lane_lt _ _ _))

/-- The four byte products of IDOT4 (R197). -/
theorem dot4_eq (ta : BitVec 8) (sat : Bool) (a b d : Nat) {v : Int} (hv : v = intOf 32 true d + ((List.range 4).map fun q =>
      intOf 8 (decide (ta ≠ 6)) (a / 256 ^ q % 256) * intOf 8 true (b / 256 ^ q % 256)).foldl (· + ·) 0) : dot4 ta.toNat sat a b d =
    if sat then ((max (-(2 ^ 31)) (min (2 ^ 31 - 1) v) % 2 ^ 32).toNat, if -(2 ^ 31) ≤ v ∧ v < 2 ^ 31 then 0 else flSAT)
    else ((v % 2 ^ 32).toNat, 0) := by
  have hbyte (x q : Nat) : x / 2 ^ (8 * q) % 2 ^ 8 = x / 256 ^ q % 256 := by rw [Nat.pow_mul]; norm_num
  have hsum : intOf 32 true d + (List.zipWith (fun x y => intOf 8 (tagSigned ta.toNat) x * intOf 8 true y) (lanesOf 8 4 a) (lanesOf 8 4 b)).foldl (· + ·) 0 = v := by
    rw [hv, lanesOf_eq, lanesOf_eq, zipWith_range, tagSigned_eq]
    simp only [hbyte]
  have hlt (x : Int) : x ≤ 2 ^ 31 - 1 ↔ x < 2 ^ 31 := by omega
  unfold dot4
  dsimp only
  rw [hsum, intToInt_eq]
  simp only [intRange, if_true, Nat.reduceSub, hlt]

theorem dotResult (hone : oneIssue r) (hkat : r.kat = false) (hd : r.d.base.toNat < 384) (w : Nat) (a b d : Nat → Nat) (hw : w = laneBits r.d.tag.toNat)
    (ha : ∀ i, a i = lane w i (vreg s r.a.base.toNat)) (hbl : ∀ i, b i = lane w i (vreg s r.b.base.toNat)) (hdl : ∀ i, d i = lane w i (vreg s r.d.base.toNat))
    (hb : begins s 0 0x2D r c) (hr : operandsReady s r [r.a, r.b, r.d]) (v : Nat → Int) (hv : ∀ j, v j = intOf 32 true (d j) + ((List.range 4).map fun q =>
          intOf 8 (decide (r.a.tag ≠ 6)) (a j / 256 ^ q % 256) * intOf 8 true (b j / 256 ^ q % 256)).foldl (· + ·) 0) :
    completes (.idot4 r) s (laneResult s r c fun j =>
        if r.mods.getLsbD 3 then ((max (-(2 ^ 31)) (min (2 ^ 31 - 1) (v j)) % 2 ^ 32).toNat,
          if -(2 ^ 31) ≤ v j ∧ v j < 2 ^ 31 then 0 else flSAT)
        else ((v j % 2 ^ 32).toNat, 0)) := by
  have htag : r.d.tag.toNat = 3 := by simpa using tag_d hb (l := [3]) (by decide)
  have hbits : laneBits r.d.tag.toNat = 32 := by rw [htag]; rfl
  simp only [← dot4_eq r.a.tag (r.mods.getLsbD 3) _ _ _ (hv _)]
  obtain rfl : a = fun i => lane w i (vreg s r.a.base.toNat) := funext ha
  obtain rfl : b = fun i => lane w i (vreg s r.b.base.toNat) := funext hbl
  obtain rfl : d = fun i => lane w i (vreg s r.d.base.toNat) := funext hdl
  subst hw
  refine lane_op (k := 0x2D#8) (by decide) rfl hb hone hkat hd hr (fun _ => rfl) fun _ => ?_
  rw [hbits]
  exact intToInt_lt _ _ _ _

theorem vectorArithmeticResults : Parts.VectorArithmeticResults := by
  intro s r c hone hkat hd w a b d hw ha hb hdl
  exact ⟨fun k F hk hF => floatResults hone hkat hd w a b d hw ha hb hdl k F hk hF, fun sg I lo hi hsg hI hlo hhi =>
    ⟨integerSums hone hkat hd w a b hw ha hb sg I lo hi hsg hI hlo hhi, integerLogic hone hkat hd w a b hw ha hb sg I hsg hI⟩,
    dotResult hone hkat hd w a b d hw ha hb hdl⟩

end

end Sys2Proof.Machine
end

section
/-! The vector engine's compares, masks and moves (R198 to R200, R208 to R210). -/
namespace Sys2Proof.Machine
set_option Elab.async false
open Safety

/-! ### Masks -/

theorem testBit_packLanes {q : Nat} (hq : 0 < q) (l : List Nat) (j : Nat) : (packLanes q l).testBit j = (l.getD (j / q) 0).testBit (j % q) := by
  induction l generalizing j with
  | nil => simp [packLanes]
  | cons x l ih =>
    have hx : x % 2 ^ q < 2 ^ q := Nat.mod_lt _ (Nat.two_pow_pos q)
    rw [packLanes, Nat.add_comm, Nat.testBit_two_pow_mul_add _ hx]
    by_cases hj : j < q
    · rw [if_pos hj, Nat.div_eq_of_lt hj, Nat.mod_eq_of_lt hj, List.getD_cons_zero, Nat.testBit_mod_two_pow, decide_eq_true hj, Bool.true_and]
    · rw [if_neg hj, ih]
      obtain ⟨i, rfl⟩ := Nat.exists_eq_add_of_le (Nat.le_of_not_lt hj)
      rw [Nat.add_sub_cancel_left, Nat.add_div_left _ hq, List.getD_cons_succ, Nat.add_mod_left]

theorem setBit_false_self {n : Nat} (w : BitVec n) {i : Nat} (h : w.getLsbD i = false) : setBit w i false = w := by
  apply BitVec.eq_of_getLsbD_eq
  intro j hj
  by_cases hi : i < n
  · rw [getLsbD_setBit w i j false hi]
    split_ifs with hji
    · rw [hji, h]
    · rfl
  · have hji : j < i := by omega
    simp [setBit, hj, hji]

section
variable {s : State} {op : Nat} {r : Rec} {c : BitVec 32}

/-- A mask register that an engine writes is full (R119). -/
theorem mempty_of_full (hone : oneIssue r) (hkat : r.kat = false) (hfull : vecFull s s.cur r = true) (hspace : r.d.space = 7#4)
    (haddr : addrAt r.d (0, 0, 0, 0) = (r.d.base.toNat : Int)) : (s.co s.cur).mempty.getLsbD r.d.base.toNat = false := by
  unfold vecFull at hfull
  dsimp only at hfull
  rw [Bool.or_eq_true] at hfull
  rcases hfull with h | h
  · rw [Bool.and_eq_true, beq_iff_eq, beq_iff_eq] at h
    rw [h.2]
    exact BitVec.getLsbD_zero
  · rw [hkat, Bool.false_or, Bool.and_eq_true, Bool.and_eq_true] at h
    obtain ⟨⟨-, hd⟩, -⟩ := h
    unfold opFull at hd
    rw [hspace, if_neg (by decide), if_pos rfl, oneIssue_nest hone, List.all_cons, List.all_nil, Bool.and_true, haddr, Int.toNat_natCast] at hd
    simpa using hd

theorem mask_reg (hb : begins s 0 op r c) (hkat : r.kat = false) (h : (vecEntry op).dS = [7]) : r.d.space = 7#4 :=
  space_of_mem ((operands_begin hb).dSpace hkat (by rw [h]; exact List.cons_ne_nil _ _)) h

/-- The turn of a record whose issue writes a mask register. -/
theorem mask_result {i : Instr} {k : BitVec 8} (hparts : recParts i = some (0#4, k, r)) (hb : begins s 0 k.toNat r c) (hone : oneIssue r) (hkat : r.kat = false)
    (hfull : vecFull s s.cur r = true) (hdS : (vecEntry k.toNat).dS = [7]) (ha : r.a.space ≠ 1#4) (hop : 0x30 ≤ k.toNat ∧ k.toNat < 0x34) {v : Nat} {fl : Word}
    {kat : List Nat} (hissue : vecIssue (vctxOf s k.toNat r c) 0 (0, 0, 0, 0) (begun s c) = .ok { ws := [.msk r.d.base.toNat v], fl := fl, kat := kat }) :
    completes i s fun t => engineOnly s t ∧ accKept s t ∧ vregsKept s t ∧ (t.co s.cur).vstatus = (s.co s.cur).vstatus ||| fl ∧ started s c 0 false [] t ∧
      (∀ m, m ≠ r.d.base.toNat → mreg t m = mreg s m) ∧ (r.d.base.toNat ≠ 0 → mreg t r.d.base.toNat = BitVec.ofNat 128 v) := by
  have hred : isRed k.toNat = false := by
    unfold isRed
    simp
    omega
  have hexec := exec_vec hparts hb hfull hone hkat (.inr ⟨ha, by omega⟩) hred (vecStart_none (by omega) _) hissue
  rw [accwrTags_nil (by omega)] at hexec
  have haddr : addrAt r.d (0, 0, 0, 0) = (r.d.base.toNat : Int) := addr_d hb hkat (by rw [hdS]; decide)
  refine ⟨_, hexec, engineOnly_done (vecOver_done hb _ _ _) ((vecOver_ecc _ _ _).trans (begun_ecc hb)) ((vecOver_mem _ _ _).trans (begun_mem hb)) ?_, accKept_done (vecOver_done hb _ _ _) rfl rfl rfl, vregsKept_done (vecOver_done hb _ _ _) rfl rfl rfl,
    vstatus_done (vecOver_done hb _ _ _), started_done (vecOver_done hb _ _ _) hb, fun m hm => ?_, fun h0 => ?_⟩
  · exact setBit_false_self _ (mempty_of_full hone hkat hfull (mask_reg hb hkat hdS) haddr)
  · rw [mreg_done (vecOver_done hb _ _ _)]
    show (if m = 0 then _ else tget (tput (s.co s.cur).masks r.d.base.toNat _ 0) m 0) = _
    rw [tget_tput, if_neg hm]
    rfl
  · rw [mreg_done (vecOver_done hb _ _ _), if_neg h0]
    show tget (tput (s.co s.cur).masks r.d.base.toNat _ 0) r.d.base.toNat 0 = _
    rw [tget_tput, if_pos rfl]

/-! ### Compares -/

/-- What a compare gives of two lanes, as its issue forms it. -/
def cmpFl (f : Nat → Nat → Bool × Word) (x y : Nat) : Fl Nat := (if (f x y).1 then 1 else 0, (f x y).2)

/-- The mask that a compare leaves. -/
theorem getLsbD_compared {n q : Nat} (hnq : q * n = 128) (m : VMask) (on : Nat → Bool) (v : Nat → Bool) {j : Nat} (hj : j < 128) :
    (BitVec.ofNat 128 (packLanes q (mergeLanes (lanesOf q n m.toNat) (((List.range n).map fun i => if on i then some (if v i then 1 else 0) else none).map
      fun x => x.map fun x => x * (2 ^ q - 1))))).getLsbD j = if on (j / q) then v (j / q) else m.getLsbD j := by
  have hq : 0 < q := Nat.pos_of_ne_zero fun e => by rw [e, Nat.zero_mul] at hnq; exact absurd hnq (by decide)
  have hlane : j / q < n := Nat.div_lt_of_lt_mul (by rwa [hnq])
  have hmod := Nat.mod_lt j hq
  rw [BitVec.getLsbD_ofNat, decide_eq_true hj, Bool.true_and, testBit_packLanes hq, lanesOf_eq, List.map_map, mergeLanes, zipWith_range]
  have hget (g : Nat → Nat) : ((List.range n).map g).getD (j / q) 0 = g (j / q) := by simp [hlane]
  rw [hget]
  simp only [Function.comp_apply]
  by_cases ho : on (j / q) = true
  · rw [if_pos ho, if_pos ho]
    cases v (j / q)
    · simp
    · simp [Nat.testBit_two_pow_sub_one, hmod]
  · rw [if_neg ho, if_neg ho]
    simp only [Option.map_none, Option.getD_none]
    rw [Nat.testBit_mod_two_pow, Nat.testBit_div_two_pow, decide_eq_true hmod, Bool.true_and, Nat.mod_add_div, BitVec.getLsbD]

theorem laneBits_eq (t : Nat) : laneBits t = 1024 / laneCount t := rfl

/-- A compare as its issue gives it. -/
theorem issueCmp_begun (hb : begins s 0 op r c) (ha : r.a.tag = 0 ∨ vtag s r.a.base.toNat = r.a.tag) (hbt : r.b.tag = 0 ∨ vtag s r.b.base.toNat = r.b.tag)
    {f : Nat → Nat → Bool × Word} (hf : (fun x y => if op = 0x30 then cmpFl (floatCmp (fpCtlOf r r.a.tag.toNat) (r.mf 10 8)) x y
      else cmpFl (fun x y => (intCmp r.a.tag.toNat (r.mf 10 8) x y, 0)) x y) = cmpFl f) {v : Nat → Bool × Word}
    (hv : ∀ j, v j = f (lane (laneBits r.a.tag.toNat) j (vreg s r.a.base.toNat)) (lane (laneBits r.a.tag.toNat) j (vreg s r.b.base.toNat))) :
    ∃ kat, issueCmp (vctxOf s op r c) 0 (r.d.base.toNat : Int) (r.a.base.toNat : Int) (r.b.base.toNat : Int) (begun s c) = .ok
      { ws := [.msk r.d.base.toNat (packLanes (128 / laneCount r.a.tag.toNat) (mergeLanes (lanesOf (128 / laneCount r.a.tag.toNat) (laneCount r.a.tag.toNat)
          (mreg s r.d.base.toNat).toNat) (((List.range (laneCount r.a.tag.toNat)).map fun i => if laneOn s r (laneCount r.a.tag.toNat) i then
            some (if (v i).1 then 1 else 0) else none).map fun x => x.map fun x => x * (2 ^ (128 / laneCount r.a.tag.toNat) - 1))))],
        fl := (underMask ((List.range (laneCount r.a.tag.toNat)).map fun j => laneOn s r (laneCount r.a.tag.toNat) j)
          ((List.range (laneCount r.a.tag.toNat)).map fun j => ((if (v j).1 then 1 else 0), (v j).2))).2, kat := kat } := by
  have hread : readTwo (vctxOf s op r c) 0 (r.d.base.toNat : Int) (r.a.base.toNat : Int) (r.b.base.toNat : Int) true false (begun s c) =
      .ok ((vreg s r.a.base.toNat).toNat, (vreg s r.b.base.toNat).toNat, 0) := by
    unfold readTwo
    rw [vctxOf_r, readReg_begun hb ha]
    dsimp only
    rw [if_pos rfl, readReg_begun hb hbt]
    rfl
  have hmask : readMask (begun s c) s.cur r.d.base.toNat = (mreg s r.d.base.toNat).toNat := readMask_toNat (by rw [begun_core hb, masks_setQueue]) _
  have hlanes : List.zipWith (cmpFl f) (lanesOf (laneBits r.a.tag.toNat) (laneCount r.a.tag.toNat) (vreg s r.a.base.toNat).toNat)
      (lanesOf (laneBits r.a.tag.toNat) (laneCount r.a.tag.toNat) (vreg s r.b.base.toNat).toNat) =
        (List.range (laneCount r.a.tag.toNat)).map fun j => ((if (v j).1 then 1 else 0), (v j).2) := by
    rw [lanesOf_vreg, lanesOf_vreg, zipWith_range]
    refine List.map_congr_left fun j _ => ?_
    rw [hv j]
    rfl
  unfold issueCmp
  dsimp only
  rw [hread]
  dsimp only
  rw [vctxOf_op, vctxOf_r, vctxOf_p, Int.toNat_natCast, hmask, active_begun hb]
  have hfun : (fun x y => if op = 0x30 then ((if (floatCmp (fpCtlOf r r.a.tag.toNat) (r.mf 10 8) x y).1 = true then 1 else 0,
      (floatCmp (fpCtlOf r r.a.tag.toNat) (r.mf 10 8) x y).2) : Fl Nat) else (if intCmp r.a.tag.toNat (r.mf 10 8) x y = true then 1 else 0, 0)) = cmpFl f := hf
  rw [hfun, hlanes, underMask_fst]
  exact ⟨_, rfl⟩

theorem compare_result {i : Instr} {k : BitVec 8} (hparts : recParts i = some (0#4, k, r)) (hb : begins s 0 k.toNat r c) (hone : oneIssue r) (hkat : r.kat = false)
    (hr : operandsReady s r [r.a, r.b]) (hent : (vecEntry k.toNat).dS = [7] ∧ (vecEntry k.toNat).aS = [2] ∧ (vecEntry k.toNat).bS = [2])
    (hop : k.toNat = 0x30 ∨ k.toNat = 0x31) (hd : r.d.base.toNat ≠ 0) {f : Nat → Nat → Bool × Word}
    (hf : (fun x y => if k.toNat = 0x30 then cmpFl (floatCmp (fpCtlOf r r.a.tag.toNat) (r.mf 10 8)) x y
      else cmpFl (fun x y => (intCmp r.a.tag.toNat (r.mf 10 8) x y, 0)) x y) = cmpFl f) {n : Nat} (hn : n = laneCount r.a.tag.toNat) {v : Nat → Bool × Word}
    (hv : ∀ j, v j = f (lane (1024 / n) j (vreg s r.a.base.toNat)) (lane (1024 / n) j (vreg s r.b.base.toNat))) : completes i s fun t =>
        engineOnly s t ∧ accKept s t ∧ vregsKept s t ∧ started s c 0 false [] t ∧ (∀ m, m ≠ r.d.base.toNat → mreg t m = mreg s m) ∧
        (∀ j, j < 128 → (mreg t r.d.base.toNat).getLsbD j =
          (if laneOn s r n (j / (128 / n)) then (v (j / (128 / n))).1 else (mreg s r.d.base.toNat).getLsbD j)) ∧
        flagsGained s n (fun j => if laneOn s r n j then some (v j).2 else none) t := by
  obtain ⟨hdS, haS, hbS⟩ := hent
  subst hn
  have hissue : vecIssue (vctxOf s k.toNat r c) 0 (0, 0, 0, 0) (begun s c) =
      issueCmp (vctxOf s k.toNat r c) 0 (r.d.base.toNat : Int) (r.a.base.toNat : Int) (r.b.base.toNat : Int) (begun s c) := by
    rw [← addr_d hb hkat (by rw [hdS]; decide), ← addr_a hb (by rw [haS]; decide), ← addr_b hb (by rw [hbS]; decide)]
    unfold vecIssue
    rcases hop with h | h <;> rw [h] <;> rfl
  obtain ⟨kat, hcmp⟩ := issueCmp_begun hb (hr.2 _ List.mem_cons_self) (hr.2 _ (by simp)) hf hv
  obtain ⟨t, hexec, heng, hacc, hregs, hst, hstart, hother, hmask⟩ := mask_result hparts hb hone hkat hr.1 hdS (space_a_ne hb haS (by decide))
    (by rcases hop with h | h <;> omega) (hissue.trans hcmp)
  refine ⟨t, hexec, heng, hacc, hregs, hstart, hother, fun j hj => ?_, flagsGained_of_or hst fun b _ => getLsbD_underMask _ _ _ _⟩
  rw [hmask hd]
  refine getLsbD_compared ?_ _ (laneOn s r (laneCount r.a.tag.toNat)) (fun i => (v i).1) hj
  rcases laneCount_cases r.a.tag.toNat with h | h | h <;> rw [h]

/-! ### Whole masks -/

theorem maskop_result (hone : oneIssue r) (hkat : r.kat = false) (hb : begins s 0 0x33 r c) (hr : operandsReady s r []) (hd : r.d.base.toNat ≠ 0) :
      completes (.maskop r) s fun t =>
        engineOnly s t ∧ accKept s t ∧ vregsKept s t ∧ (t.co s.cur).vstatus = (s.co s.cur).vstatus ∧ started s c 0 false [] t ∧
        ∀ m, mreg t m = (if m = r.d.base.toNat then
          (let x := mreg s r.a.base.toNat
           let y := mreg s r.b.base.toNat
           if r.mf 9 8 = 0 then x &&& y else if r.mf 9 8 = 1 then x ||| y else if r.mf 9 8 = 2 then x ^^^ y else x &&& ~~~y)
          else mreg s m) := by
  obtain ⟨v, hv⟩ : ∃ v, v = (let x := mreg s r.a.base.toNat
           let y := mreg s r.b.base.toNat
           if r.mf 9 8 = 0 then x &&& y else if r.mf 9 8 = 1 then x ||| y else if r.mf 9 8 = 2 then x ^^^ y else x &&& ~~~y) := ⟨_, rfl⟩
  have hmask (m : Nat) : BitVec.ofNat 128 (readMask (begun s c) s.cur m) = mreg s m := by
    rw [readMask_toNat (by rw [begun_core hb, masks_setQueue]), BitVec.ofNat_toNat, BitVec.setWidth_eq]
  have hissue : vecIssue (vctxOf s 0x33 r c) 0 (0, 0, 0, 0) (begun s c) =
      .ok (issueMaskop (vctxOf s 0x33 r c) (r.d.base.toNat : Int) (r.a.base.toNat : Int) (r.b.base.toNat : Int) (begun s c)) := by
    rw [← addr_d hb hkat (by decide), ← addr_a hb (by decide), ← addr_b hb (by decide)]
    rfl
  have hop : issueMaskop (vctxOf s 0x33 r c) (r.d.base.toNat : Int) (r.a.base.toNat : Int) (r.b.base.toNat : Int) (begun s c) =
      { ws := [.msk r.d.base.toNat v.toNat], fl := 0, kat := lanesOf 32 4 v.toNat } := by
    unfold issueMaskop
    dsimp only
    rw [vctxOf_p, vctxOf_r, Int.toNat_natCast, Int.toNat_natCast, Int.toNat_natCast, hmask, hmask, hv]
  obtain ⟨t, hexec, heng, hacc, hregs, hst, hstart, hother, hmreg⟩ := mask_result (i := .maskop r) (k := 0x33#8) rfl hb hone hkat hr.1 rfl
    (space_a_ne hb rfl (by decide)) (by decide) (hissue.trans (congrArg _ hop))
  refine ⟨t, hexec, heng, hacc, hregs, hst.trans BitVec.or_zero, hstart, fun m => ?_⟩
  by_cases hm : m = r.d.base.toNat
  · rw [if_pos hm, hm, hmreg hd, BitVec.ofNat_toNat, BitVec.setWidth_eq, hv]
  · rw [if_neg hm, hother m hm]

/-! ### Moves of lanes -/

/-- Two registers as an issue reads them. -/
theorem readTwo_ab (hkat : r.kat = false) (hb : begins s 0 op r c) (hr : operandsReady s r [r.a, r.b]) :
    readTwo (vctxOf s op r c) 0 (r.d.base.toNat : Int) (r.a.base.toNat : Int) (r.b.base.toNat : Int) true false (begun s c) =
      .ok ((vreg s r.a.base.toNat).toNat, (vreg s r.b.base.toNat).toNat, 0) :=
  readTwo_begun hb hkat (hr.2 _ List.mem_cons_self) (fun _ => hr.2 _ (by simp)) (fun h => absurd h Bool.false_ne_true) (fun _ => rfl)

theorem getD_lanes (w n : Nat) (v : VWord) {i : Nat} (hi : i < n) : (lanesOf w n v.toNat).getD i 0 = lane w i v := by
  rw [lanesOf_vreg]
  simp [hi]

theorem shufLane_eq {pat n j : Nat} (hn : n = 32 ∨ n = 64 ∨ n = 128) (hj : j < n) (a b : Nat → Nat) :
    (if (shufLane pat n j).1 then a else b) (shufLane pat n j).2 =
      (if pat = 0 then (if j % 2 = 0 then a (j / 2) else b (j / 2))
        else if pat = 1 then (if j % 2 = 0 then a (n / 2 + j / 2) else b (n / 2 + j / 2))
        else if pat = 2 then (if j < n / 2 then a (2 * j) else b (2 * (j - n / 2)))
        else (if j < n / 2 then a (2 * j + 1) else b (2 * (j - n / 2) + 1))) ∧ (shufLane pat n j).2 < n := by
  have hmod : j % (n / 2) = if j < n / 2 then j else j - n / 2 := by
    split_ifs with h
    · exact Nat.mod_eq_of_lt h
    · rw [Nat.mod_eq_sub_mod (by omega), Nat.mod_eq_of_lt (by omega)]
  have hlt : j % (n / 2) < n / 2 := Nat.mod_lt _ (by omega)
  unfold shufLane
  dsimp only
  by_cases h0 : pat = 0
  · rw [if_pos h0, if_pos h0]
    refine ⟨?_, by dsimp only; omega⟩
    by_cases h : j % 2 = 0 <;> simp [h]
  · rw [if_neg h0, if_neg h0]
    by_cases h1 : pat = 1
    · rw [if_pos h1, if_pos h1]
      refine ⟨?_, by dsimp only; omega⟩
      by_cases h : j % 2 = 0 <;> simp [h]
    · rw [if_neg h1, if_neg h1]
      by_cases h2 : pat = 2
      · rw [if_pos h2, if_pos h2]
        refine ⟨?_, by dsimp only; omega⟩
        by_cases h : j < n / 2 <;> simp [h, hmod]
      · rw [if_neg h2, if_neg h2]
        refine ⟨?_, by dsimp only; omega⟩
        by_cases h : j < n / 2 <;> simp [h, hmod]

theorem toNat_div_beyond {n k : Nat} (v : BitVec n) (h : n ≤ k) : v.toNat / 2 ^ k = 0 :=
  Nat.div_eq_of_lt (v.isLt.trans_le (Nat.pow_le_pow_right (by decide) h))

/-- A lane of a register, past its last one too. -/
theorem getD_lanes_all (t : Nat) (v : VWord) (i : Nat) : (lanesOf (laneBits t) (laneCount t) v.toNat).getD i 0 = lane (laneBits t) i v := by
  by_cases hlt : i < laneCount t
  · exact getD_lanes _ _ _ hlt
  · rw [lanesOf_vreg, List.getD_eq_default _ _ (by rw [List.length_map, List.length_range]; exact Nat.le_of_not_lt hlt), lane,
      toNat_div_beyond _ ((laneBits_mul t).symm.le.trans (Nat.mul_le_mul_left _ (Nat.le_of_not_lt hlt))), Nat.zero_mod]

section
variable (hone : oneIssue r) (hkat : r.kat = false) (hd : r.d.base.toNat < 384)
include hone hkat hd

theorem vsel_result (hb : begins s 0 0x32 r c) (hr : operandsReady s r [r.a, r.b]) : completes (.vsel r) s fun t =>
    engineOnly s t ∧ accKept s t ∧ (t.co s.cur).masks = (s.co s.cur).masks ∧ (t.co s.cur).vstatus = (s.co s.cur).vstatus ∧
      started s c 0 false [] t ∧ vregWritten s r.d.base.toNat r.d.tag (laneCount r.d.tag.toNat) (laneBits r.d.tag.toNat) (fun j =>
        some (if laneOn s r (laneCount r.d.tag.toNat) j then lane (laneBits r.d.tag.toNat) j (vreg s r.a.base.toNat)
          else lane (laneBits r.d.tag.toNat) j (vreg s r.b.base.toNat))) t := by
  have hissue : vecIssue (vctxOf s 0x32 r c) 0 (0, 0, 0, 0) (begun s c) =
      issueSel (vctxOf s 0x32 r c) 0 (r.d.base.toNat : Int) (r.a.base.toNat : Int) (r.b.base.toNat : Int) (begun s c) := by
    rw [← addr_d hb hkat (by decide), ← addr_a hb (by decide), ← addr_b hb (by decide)]
    rfl
  have hsel : issueSel (vctxOf s 0x32 r c) 0 (r.d.base.toNat : Int) (r.a.base.toNat : Int) (r.b.base.toNat : Int) (begun s c) =
      .ok (regOut (vctxOf s 0x32 r c) (r.d.base.toNat : Int) ((List.range (laneCount r.d.tag.toNat)).map fun j =>
        some (if laneOn s r (laneCount r.d.tag.toNat) j then lane (laneBits r.d.tag.toNat) j (vreg s r.a.base.toNat)
          else lane (laneBits r.d.tag.toNat) j (vreg s r.b.base.toNat))) 0 (begun s c)) := by
    unfold issueSel
    dsimp only
    rw [readTwo_ab hkat hb hr]
    dsimp only
    rw [vctxOf_r, active_begun hb, lanesOf_vreg, lanesOf_vreg, List.map_map, zip3_map, List.map_map]
    refine congrArg (fun l => Except.ok (regOut _ _ l _ _)) (List.map_congr_left fun j _ => ?_)
    simp only [Function.comp_apply]
    by_cases ho : laneOn s r (laneCount r.d.tag.toNat) j = true
    · simp [ho]
    · simp [ho]
  obtain ⟨t, hexec, heng, hacc, hmasks, hst, hstart, hreg⟩ := completes_lanes (i := .vsel r) (k := 0x32#8) rfl hb hr.1 hone hkat
    (.inr ⟨space_a_ne hb rfl (by decide), by decide⟩) rfl (by decide) (by decide) hd (fun j _ v h => by
      rw [← Option.some.inj h]
      split_ifs <;> exact lane_lt _ _ _) (hissue.trans hsel)
  exact ⟨t, hexec, heng, hacc, hmasks, hst.trans BitVec.or_zero, hstart, hreg⟩

/-- A move of lanes: it gains no flags. -/
theorem moved_lanes {i : Instr} {k : BitVec 8} (hparts : recParts i = some (0#4, k, r)) (hb : begins s 0 k.toNat r c) (hfull : vecFull s s.cur r = true)
    (haS : (vecEntry k.toNat).aS = [2]) (hop : 0x50 ≤ k.toNat) {g : Nat → Nat} (hg : ∀ j, g j < 2 ^ laneBits r.d.tag.toNat)
    (hissue : vecIssue (vctxOf s k.toNat r c) 0 (0, 0, 0, 0) (begun s c) = .ok (regOut (vctxOf s k.toNat r c) (r.d.base.toNat : Int)
      ((List.range (laneCount r.d.tag.toNat)).map fun j => if laneOn s r (laneCount r.d.tag.toNat) j then some (g j) else none) 0 (begun s c))) :
    completes i s (laneResult s r c fun j => (g j, 0)) := by
  have hred : isRed k.toNat = false := by
    unfold isRed
    simp
    omega
  obtain ⟨t, hexec, ht⟩ := completes_lanes hparts hb hfull hone hkat (.inr ⟨space_a_ne hb haS (by decide), by omega⟩) hred (by omega) (by omega) hd
    (lt_of_active fun j _ => hg j) hissue
  exact ⟨t, hexec, laneResult_of_lanes ht (no_flags fun _ => rfl)⟩

theorem vperm_result (hb : begins s 0 0x50 r c) (hr : operandsReady s r [r.a, r.b]) : completes (.vperm r) s (laneResult s r c fun j =>
    (lane (laneBits r.d.tag.toNat) (lane (laneBits r.d.tag.toNat) j (vreg s r.b.base.toNat) % laneCount r.d.tag.toNat) (vreg s r.a.base.toNat), 0)) := by
  have hpos : 0 < laneCount r.d.tag.toNat := by rcases laneCount_cases r.d.tag.toNat with h | h | h <;> rw [h] <;> decide
  refine moved_lanes hone hkat hd (k := 0x50#8) rfl hb hr.1 rfl (by decide) (fun _ => lane_lt _ _ _) ?_
  have hissue : vecIssue (vctxOf s 0x50 r c) 0 (0, 0, 0, 0) (begun s c) =
      issuePerm (vctxOf s 0x50 r c) 0 (r.d.base.toNat : Int) (r.a.base.toNat : Int) (r.b.base.toNat : Int) (begun s c) := by
    rw [← addr_d hb hkat (by decide), ← addr_a hb (by decide), ← addr_b hb (by decide)]
    rfl
  refine hissue.trans ?_
  unfold issuePerm
  dsimp only
  rw [readTwo_ab hkat hb hr]
  dsimp only
  rw [vctxOf_r, active_begun hb, lanesOf_vreg _ _ (vreg s r.b.base.toNat), zipWith_range]
  refine congrArg (fun l => Except.ok (regOut _ _ l _ _)) (List.map_congr_left fun j _ => ?_)
  rw [getD_lanes _ _ _ (Nat.mod_lt _ hpos)]

theorem vshuf_result (hb : begins s 0 0x51 r c) (hr : operandsReady s r [r.a, r.b]) {n : Nat} {a b : Nat → Nat} (hn : n = laneCount r.d.tag.toNat)
    (ha : ∀ j, a j = lane (laneBits r.d.tag.toNat) j (vreg s r.a.base.toNat)) (hbl : ∀ j, b j = lane (laneBits r.d.tag.toNat) j (vreg s r.b.base.toNat)) :
    completes (.vshuf r) s (laneResult s r c fun j =>
          ((if r.mf 9 8 = 0 then (if j % 2 = 0 then a (j / 2) else b (j / 2))
            else if r.mf 9 8 = 1 then (if j % 2 = 0 then a (n / 2 + j / 2) else b (n / 2 + j / 2))
            else if r.mf 9 8 = 2 then (if j < n / 2 then a (2 * j) else b (2 * (j - n / 2)))
            else (if j < n / 2 then a (2 * j + 1) else b (2 * (j - n / 2) + 1))), 0)) := by
  obtain rfl : a = fun j => lane (laneBits r.d.tag.toNat) j (vreg s r.a.base.toNat) := funext ha
  obtain rfl : b = fun j => lane (laneBits r.d.tag.toNat) j (vreg s r.b.base.toNat) := funext hbl
  subst hn
  refine moved_lanes hone hkat hd (k := 0x51#8) rfl hb hr.1 rfl (by decide) (fun _ => by split_ifs <;> exact lane_lt _ _ _) ?_
  have hissue : vecIssue (vctxOf s 0x51 r c) 0 (0, 0, 0, 0) (begun s c) =
      issueShuf (vctxOf s 0x51 r c) 0 (r.d.base.toNat : Int) (r.a.base.toNat : Int) (r.b.base.toNat : Int) (begun s c) := by
    rw [← addr_d hb hkat (by decide), ← addr_a hb (by decide), ← addr_b hb (by decide)]
    rfl
  refine hissue.trans ?_
  unfold issueShuf
  dsimp only
  rw [readTwo_ab hkat hb hr]
  dsimp only
  rw [vctxOf_r, active_begun hb]
  refine congrArg (fun l => Except.ok (regOut _ _ l _ _)) (List.map_congr_left fun j hj => ?_)
  have hj' := List.mem_range.mp hj
  obtain ⟨hval, hlt⟩ := shufLane_eq (pat := r.mf 9 8) (laneCount_cases r.d.tag.toNat) hj'
    (fun j => lane (laneBits r.d.tag.toNat) j (vreg s r.a.base.toNat)) (fun j => lane (laneBits r.d.tag.toNat) j (vreg s r.b.base.toNat))
  have hon : ((List.range (laneCount r.d.tag.toNat)).map fun i => laneOn s r (laneCount r.d.tag.toNat) i).getD j false = laneOn s r (laneCount r.d.tag.toNat) j := by
    simp [hj']
  rw [hon, ← hval]
  cases (shufLane (r.mf 9 8) (laneCount r.d.tag.toNat) j).1
  · simp only [Bool.false_eq_true, if_false, getD_lanes _ _ _ hlt]
  · simp only [if_true, getD_lanes _ _ _ hlt]

theorem vbcast_result (hb : begins s 0 0x52 r c) (hr : operandsReady s r [r.a]) : completes (.vbcast r) s (laneResult s r c fun _ =>
    (lane (laneBits r.d.tag.toNat) (r.mf 14 8) (vreg s r.a.base.toNat), 0)) := by
  refine moved_lanes hone hkat hd (k := 0x52#8) rfl hb hr.1 rfl (by decide) (fun _ => lane_lt _ _ _) ?_
  have hissue : vecIssue (vctxOf s 0x52 r c) 0 (0, 0, 0, 0) (begun s c) = issueBcast (vctxOf s 0x52 r c) 0 (r.d.base.toNat : Int) (r.a.base.toNat : Int) (begun s c) := by
    rw [← addr_d hb hkat (by decide), ← addr_a hb (by decide)]
    rfl
  refine hissue.trans ?_
  unfold issueBcast
  dsimp only
  rw [vctxOf_r, readReg_begun hb (hr.2 _ List.mem_cons_self), active_begun hb]
  dsimp only
  rw [getD_lanes_all, List.map_map]
  rfl

end

theorem vectorComparesAndMoves : Parts.VectorComparesAndMoves := by
  intro s r c hone hkat
  refine ⟨fun n i op f hn h hb hr hd v hv => ?_, maskop_result hone hkat, fun n w a b hn hw hd ha hbl => ?_⟩
  · simp only [List.mem_cons, Prod.mk.injEq, List.not_mem_nil, or_false] at h
    rcases h with ⟨rfl, rfl, rfl⟩ | ⟨rfl, rfl, rfl⟩
    · exact compare_result (k := 0x30#8) rfl hb hone hkat hr ⟨rfl, rfl, rfl⟩ (.inl rfl) hd rfl hn hv
    · exact compare_result (k := 0x31#8) rfl hb hone hkat hr ⟨rfl, rfl, rfl⟩ (.inr rfl) hd rfl hn hv
  · obtain rfl : a = fun j => lane w j (vreg s r.a.base.toNat) := funext ha
    obtain rfl : b = fun j => lane w j (vreg s r.b.base.toNat) := funext hbl
    subst hn hw
    exact ⟨vsel_result hone hkat hd, vperm_result hone hkat hd, fun hb hr => vshuf_result hone hkat hd hb hr rfl (fun _ => rfl) (fun _ => rfl),
      vbcast_result hone hkat hd⟩

end

/-- Settles O31: each operation gives its lanes, which fit their width; the writes of an issue change nothing else. -/
theorem vectorCompute : Obligations.VectorCompute :=
  ⟨vectorArithmeticResults, vectorComparesAndMoves⟩

end Sys2Proof.Machine
end

section
/-! The vector engine's conversions (R201 to R203). -/
namespace Sys2Proof.Machine
set_option Elab.async false
open Safety

/-! ### CVT -/

theorem fits_e5m3ToFp32 (x : Nat) : e5m3ToFp32 x < 2 ^ 32 := by
  unfold e5m3ToFp32
  split
  · decide
  · exact fits_roundFp (p := 23) 0 false false _ _ false

theorem e5m3rn_lt (x : Fp) : (e5m3rn x).1 < 2 ^ 8 := by
  unfold e5m3rn
  split
  · decide
  · split_ifs <;> decide
  · dsimp only
    split_ifs
    iterate 4 decide
    all_goals
      show _ < 256
      omega

theorem fpToInt_lt (c : FpCtl) (w : Nat) (sg : Bool) (x : Fp) : (fpToInt c w sg x).1 < 2 ^ w := by
  unfold fpToInt
  dsimp only
  split
  · exact Nat.two_pow_pos w
  · exact wrapBits_lt _ _
  · have h (v : Int) (fl : Word) : ((wrapBits w v, fl) : Fl Nat).1 < 2 ^ w := wrapBits_lt w v
    split_ifs <;> exact h _ _

/-- What a conversion gives fits the lanes of D. -/
theorem convert_lt (r : Rec) {ta td : Nat} (h : ta = 7 → td = 1) (x : Nat) : (convert r ta td x).1 < 2 ^ laneBits td := by
  have hfp (hfd : td = 1 ∨ td = 2) : laneBits td = (fpCtlOf r td).p + 9 ∧ 1 ≤ (fpCtlOf r td).p := by
    rw [show (fpCtlOf r td).p = if td = 2 then 7 else 23 from rfl]
    rcases hfd with rfl | rfl <;> decide
  unfold convert
  dsimp only
  by_cases h7 : ta = 7
  · rw [if_pos h7, h h7]
    exact fits_e5m3ToFp32 x
  · rw [if_neg h7]
    by_cases hd7 : td = 7
    · rw [if_pos hd7, hd7]
      exact e5m3rn_lt _
    · rw [if_neg hd7]
      cases hfd : (td == 1 || td == 2) <;> cases hfa : (ta == 1 || ta == 2)
      · exact intToInt_lt _ _ _ _
      · exact fpToInt_lt _ _ _ _
      · obtain ⟨hw, -⟩ := hfp (by simpa using hfd)
        rw [hw]
        exact fits_roundFp _ _ _ _ _ _
      · obtain ⟨hw, hp⟩ := hfp (by simpa using hfd)
        rw [hw]
        exact fits_fpToFp hp _ _

theorem rule12_of_rule {j : Judge} {cls op : Nat} {r : Rec} (h : ruleBroken j cls op r = 0) : rule12 cls op j.q j.fence r = true := by
  unfold ruleBroken at h
  dsimp only at h
  obtain ⟨-, h⟩ := rule_kept h
  obtain ⟨-, h⟩ := rule_kept h
  obtain ⟨-, h⟩ := rule_kept h
  obtain ⟨-, h⟩ := rule_kept h
  obtain ⟨-, h⟩ := rule_kept h
  obtain ⟨-, h⟩ := rule_kept h
  obtain ⟨-, h⟩ := rule_kept h
  obtain ⟨-, h⟩ := rule_kept h
  obtain ⟨-, h⟩ := rule_kept h
  obtain ⟨-, h⟩ := rule_kept h
  by_contra hn
  rw [if_neg hn] at h
  exact absurd h (by decide)

section
variable {s : State} {op : Nat} {r : Rec} {c : BitVec 32}

theorem vecTags_begin (hb : begins s 0 op r c) : vecTags op r = true := by
  have h : vecRule12 op r = true := rule12_of_rule (begins_rule hb)
  unfold vecRule12 at h
  simp only [Bool.and_eq_true] at h
  obtain ⟨⟨⟨⟨⟨htags, -⟩, -⟩, -⟩, -⟩, -⟩ := h
  exact htags

/-- E5M3 converts to FP32 alone. -/
theorem cvt_scale (hb : begins s 0 0x38 r c) : r.a.tag.toNat = 7 → r.d.tag.toNat = 1 := by
  have h : (cvtPair r.a.tag.toNat r.d.tag.toNat && _ && _) = true := vecTags_begin hb
  rw [Bool.and_eq_true, Bool.and_eq_true] at h
  obtain ⟨⟨hpair, -⟩, -⟩ := h
  intro h7
  rw [h7] at hpair
  unfold cvtPair at hpair
  exact (show ¬7 = r.d.tag.toNat ∧ r.d.tag.toNat = 1 by simpa [tagsInt] using hpair).2

/-- The flags of the lanes that have a value. -/
theorem getLsbD_orSome (n : Nat) (g : Nat → Option (Fl Nat)) (b : Nat) :
    (((List.range n).map g).foldl (fun f x => match x with | some v => f ||| v.2 | none => f) 0#64).getLsbD b = true ↔
      ∃ i v, i < n ∧ (g i).map (·.2) = some v ∧ v.getLsbD b = true := by
  have hfold : (fun (f : Word) (x : Option (Fl Nat)) => match x with | some v => f ||| v.2 | none => f) = fun f x => f ||| (x.map (·.2)).getD 0 := by
    funext f x
    cases x with
    | none => exact BitVec.or_zero.symm
    | some v => rfl
  rw [hfold, getLsbD_orAll (f := fun x : Option (Fl Nat) => (x.map (·.2)).getD 0)]
  constructor
  · rintro (h | ⟨x, hx, hbit⟩)
    · exact absurd h (by simp)
    · obtain ⟨i, hi, rfl⟩ := List.mem_map.mp hx
      cases hg : (g i).map (·.2) with
      | none =>
        rw [hg] at hbit
        exact absurd hbit (by simp)
      | some v =>
        rw [hg] at hbit
        exact ⟨i, v, List.mem_range.mp hi, hg, hbit⟩
  · rintro ⟨i, v, hi, hg, hbit⟩
    refine .inr ⟨g i, List.mem_map.mpr ⟨i, List.mem_range.mpr hi, rfl⟩, ?_⟩
    rw [hg]
    exact hbit

theorem cvt_result (hone : oneIssue r) (hkat : r.kat = false) (hb : begins s 0 0x38 r c) (hr : operandsReady s r [r.a]) (hd : r.d.base.toNat < 384)
    (la ld p : Nat) (src : Nat → Option Nat) (f : Nat → Fl Nat) (hla : la = laneCount r.a.tag.toNat) (hld : ld = laneCount r.d.tag.toNat) (hp : p = r.mf 9 8)
    (hsrc : ∀ j, src j = if la < ld then (if p * la ≤ j ∧ j < p * la + la then some (j - p * la) else none) else some (p * ld + j))
    (hf : ∀ x, f x = convert r r.a.tag.toNat r.d.tag.toNat x) : completes (.cvt r) s fun t =>
          engineOnly s t ∧ accKept s t ∧ (t.co s.cur).masks = (s.co s.cur).masks ∧ started s c 0 false [] t ∧
          vregWritten s r.d.base.toNat r.d.tag ld (1024 / ld)
            (fun j => if laneOn s r ld j then (src j).map fun q => (f (lane (1024 / la) q (vreg s r.a.base.toNat))).1 else none) t ∧
          flagsGained s ld
            (fun j => if laneOn s r ld j then (src j).map fun q => (f (lane (1024 / la) q (vreg s r.a.base.toNat))).2 else none) t := by
  obtain rfl : f = convert r r.a.tag.toNat r.d.tag.toNat := funext hf
  subst hp hla hld
  obtain ⟨g, hg⟩ : ∃ g : Nat → Option (Fl Nat), g = fun j => if laneOn s r (laneCount r.d.tag.toNat) j then
    (src j).map fun q => convert r r.a.tag.toNat r.d.tag.toNat (lane (laneBits r.a.tag.toNat) q (vreg s r.a.base.toNat)) else none := ⟨_, rfl⟩
  have hmap {α : Type} (k : Fl Nat → α) (j : Nat) : (g j).map k = if laneOn s r (laneCount r.d.tag.toNat) j then
      (src j).map fun q => k (convert r r.a.tag.toNat r.d.tag.toNat (lane (laneBits r.a.tag.toNat) q (vreg s r.a.base.toNat))) else none := by
    rw [hg]
    dsimp only
    split_ifs
    · rw [Option.map_map]
      rfl
    · rfl
  have hissue : vecIssue (vctxOf s 0x38 r c) 0 (0, 0, 0, 0) (begun s c) = issueCvt (vctxOf s 0x38 r c) 0 (r.d.base.toNat : Int) (r.a.base.toNat : Int) (begun s c) := by
    rw [← addr_d hb hkat (by decide), ← addr_a hb (by decide)]
    rfl
  have hcvt : issueCvt (vctxOf s 0x38 r c) 0 (r.d.base.toNat : Int) (r.a.base.toNat : Int) (begun s c) = .ok (regOut (vctxOf s 0x38 r c) (r.d.base.toNat : Int)
      ((List.range (laneCount r.d.tag.toNat)).map fun j => (g j).map (·.1))
      (((List.range (laneCount r.d.tag.toNat)).map g).foldl (fun f x => match x with | some v => f ||| v.2 | none => f) 0) (begun s c)) := by
    have hlist : (List.range (laneCount r.d.tag.toNat)).map (fun i =>
        if (activeLanes ((vctxOf s 0x38 r c).mask (begun s c)) (laneCount r.d.tag.toNat)).getD i false = true then
          (if laneCount r.a.tag.toNat < laneCount r.d.tag.toNat then (if r.mf 9 8 * laneCount r.a.tag.toNat ≤ i ∧
            i < r.mf 9 8 * laneCount r.a.tag.toNat + laneCount r.a.tag.toNat then some (i - r.mf 9 8 * laneCount r.a.tag.toNat) else none)
            else some (r.mf 9 8 * laneCount r.d.tag.toNat + i)).map fun q => convert r r.a.tag.toNat r.d.tag.toNat
              ((lanesOf (laneBits r.a.tag.toNat) (laneCount r.a.tag.toNat) (vreg s r.a.base.toNat).toNat).getD q 0) else none) =
        (List.range (laneCount r.d.tag.toNat)).map g := by
      refine List.map_congr_left fun j hj => ?_
      have hj' := List.mem_range.mp hj
      have hon : ((List.range (laneCount r.d.tag.toNat)).map fun i => laneOn s r (laneCount r.d.tag.toNat) i).getD j false =
          laneOn s r (laneCount r.d.tag.toNat) j := by simp [hj']
      rw [active_begun hb, hon, ← hsrc, hg]
      simp only [getD_lanes_all]
    unfold issueCvt
    dsimp only [vctxOf_r]
    rw [readReg_begun hb (hr.2 _ List.mem_cons_self)]
    dsimp only
    rw [hlist, List.map_map]
    rfl
  obtain ⟨t, hexec, heng, hacc, hmasks, hst, hstart, hreg⟩ := completes_lanes (i := .cvt r) (k := 0x38#8) rfl hb hr.1 hone hkat
    (.inr ⟨space_a_ne hb rfl (by decide), by decide⟩) rfl (by decide) (by decide) hd (fun j _ v h => by
      obtain ⟨x, hx, rfl⟩ := Option.map_eq_some_iff.mp h
      rw [hg] at hx
      dsimp only at hx
      by_cases ho : laneOn s r (laneCount r.d.tag.toNat) j = true
      · rw [if_pos ho] at hx
        obtain ⟨q, -, rfl⟩ := Option.map_eq_some_iff.mp hx
        exact convert_lt r (cvt_scale hb) _
      · rw [if_neg ho] at hx
        exact nomatch hx) (hissue.trans hcvt)
  refine ⟨t, hexec, heng, hacc, hmasks, hstart, ?_, ?_⟩
  · simp only [hmap] at hreg
    exact hreg
  · refine flagsGained_of_or hst fun b _ => (getLsbD_orSome _ g b).trans ?_
    simp only [hmap]
    rfl

end

end Sys2Proof.Machine
end

section
/-! QUANT and DEQUANT (R202, R203, R152, R153). -/
namespace Sys2Proof.Machine
set_option Elab.async false
open Safety

/-! ### Bytes in scratchpad -/

/-- The bytes of a whole store. -/
theorem memGet_stored_bytes (u : State) (p a : Nat) {bytes : List Nat} {n j : Nat} (hlen : bytes.length = n) (hj : j < n) :
    memGet (spWriteMasked u p a n (packLanes 8 bytes) (2 ^ n - 1)).mem (spKey p a + j) = BitVec.ofNat 8 (bytes.getD j 0) := by
  subst hlen
  have hlane := packLanes_lane 8 bytes hj
  rw [Nat.pow_mul] at hlane
  rw [memGet_spWriteMasked_in _ _ _ _ _ _ hj, Nat.testBit_two_pow_sub_one, decide_eq_true hj, if_pos rfl, show (256 : Nat) = 2 ^ 8 from rfl, hlane,
    List.getD_eq_getElem _ _ hj]
  exact BitVec.eq_of_toNat_eq (by simp)

theorem memGet_stored_byte (u : State) (p a v : Nat) : memGet (spWriteMasked u p a 1 v 1).mem (spKey p a) = BitVec.ofNat 8 v := by
  have h := memGet_spWriteMasked_in u p a 1 v 1 (j := 0) Nat.one_pos
  rw [pow_zero, Nat.div_one] at h
  exact h.trans (BitVec.eq_of_toNat_eq (by simp))

theorem foldl_applyWr_sp (p : Nat) (u : State) (w : Wr) (a n v mask : Nat) :
    [w, .sp a n v mask].foldl (applyWr p) u = spWriteMasked (applyWr p u w) p a n v mask := rfl

theorem applyWr_sp (p : Nat) (u : State) (a n v mask : Nat) : applyWr p u (.sp a n v mask) = spWriteMasked u p a n v mask := rfl

theorem foldl_coreWr_sp (x : Core) (w : Wr) (a n v mask : Nat) : [w, .sp a n v mask].foldl coreWr x = coreWr x w := rfl

theorem coreWr_reg (x : Core) (d tag v : Nat) : ((coreWr x (.reg d tag v)).vregs, (coreWr x (.reg d tag v)).vtags, (coreWr x (.reg d tag v)).vempty) =
    (tput x.vregs d (BitVec.ofNat 1024 v) 0, tput x.vtags d (BitVec.ofNat 8 tag) 0, setBit x.vempty d false) := rfl

/-! ### QUANT -/

theorem length_quant32 (xs : List Fp) : (quant32 xs).1.2.length = xs.length := by
  unfold quant32
  dsimp only
  split_ifs
  · exact List.length_map _
  · exact List.length_map _
  all_goals exact (List.length_map _).trans (List.length_map _)

/-- Thirty-two bytes that take a part's place among the lanes of a register. -/
theorem splice_lanes (old : Nat → Nat) (bytes : List Nat) {p : Nat} (hp : p < 4) (hlen : bytes.length = 32) :
    ((List.range 128).map old).take (32 * p) ++ bytes ++ ((List.range 128).map old).drop (32 * p + 32) =
      (List.range 128).map fun j => if 32 * p ≤ j ∧ j < 32 * p + 32 then bytes.getD (j - 32 * p) 0 else old j := by
  rw [List.append_assoc]
  refine List.ext_getElem ?_ fun j h1 h2 => ?_
  · simp only [List.length_append, List.length_take, List.length_drop, List.length_map, List.length_range, hlen]
    omega
  · have hj : j < 128 := by simpa using h2
    rw [List.getElem_map, List.getElem_range]
    by_cases hlo : j < 32 * p
    · rw [if_neg (by omega), List.getElem_append_left (by simp; omega)]
      simp
    · by_cases hhi : j < 32 * p + 32
      · rw [if_pos ⟨by omega, hhi⟩, List.getElem_append_right (by simp; omega),
          List.getElem_append_left (by simp [hlen]; omega), List.getD_eq_getElem _ _ (by omega)]
        congr 1
        simp
        omega
      · rw [if_neg (by omega), List.getElem_append_right (by simp; omega), List.getElem_append_right (by simp [hlen]; omega), List.getElem_drop, List.getElem_map, List.getElem_range]
        congr 1
        simp [hlen]
        omega

section
variable {s : State} {r : Rec} {c : BitVec 32}

/-- What QUANT makes of its operand. -/
def quantOf (s : State) (r : Rec) : Fl (Nat × List Int) := quant32 ((List.range 32).map fun j => fpDecode 23 (lane 32 j (vreg s r.a.base.toNat)))

/-- The bytes that QUANT gives D. -/
def quantBytes (s : State) (r : Rec) : List Nat := (quantOf s r).1.2.map (wrapBits 8)

theorem length_quantBytes : (quantBytes s r).length = 32 := by
  rw [quantBytes, List.length_map, quantOf, length_quant32, List.length_map, List.length_range]

theorem getD_quantBytes (j : Nat) : (quantBytes s r).getD j 0 = wrapBits 8 ((quantOf s r).1.2.getD j 0) := by
  rw [quantBytes, List.getD_eq_getElem?_getD, List.getD_eq_getElem?_getD, List.getElem?_map]
  cases (quantOf s r).1.2[j]? with
  | none => rfl
  | some x => rfl

/-- The write of QUANT to D: a register's part, or 32 bytes of scratchpad. -/
def quantWr (s : State) (r : Rec) (c : BitVec 32) : Wr :=
  if r.d.space = 2#4 then .reg r.d.base.toNat 5 (packLanes 8 (((List.range 128).map fun j => lane 8 j (vreg s r.d.base.toNat)).take (32 * r.mf 9 8) ++ quantBytes s r ++
    ((List.range 128).map fun j => lane 8 j (vreg s r.d.base.toNat)).drop (32 * r.mf 9 8 + 32)))
  else .sp (spAt s r c r.d) 32 (packLanes 8 (quantBytes s r)) (2 ^ 32 - 1)

theorem quant_done (hone : oneIssue r) (hkat : r.kat = false) (hecc : s.ecc = []) (hb : begins s 0 0x3C r c) (hr : operandsReady s r [r.a])
    (hscale : spAt s r c r.b < 0x40_0000) (hd : r.d.space = 2#4 ∨ spAt s r c r.d + 32 ≤ 0x40_0000) :
    exec (.quant r) s = .next (vecOver s c [quantWr s r c, .sp (spAt s r c r.b) 1 (quantOf s r).1.1 1] (quantOf s r).2 []) := by
  have hissue : vecIssue (vctxOf s 0x3C r c) 0 (0, 0, 0, 0) (begun s c) =
      issueQuant (vctxOf s 0x3C r c) 0 (r.d.base.toNat : Int) (r.a.base.toNat : Int) (r.b.base.toNat : Int) (begun s c) := by
    rw [← addr_d hb hkat (by decide), ← addr_a hb (by decide), ← addr_b hb (by decide)]
    rfl
  have hwr : (if r.kat then .ok []
      else if r.d.space = 2#4 then .ok [.reg (r.d.base.toNat : Int).toNat 5 (packLanes 8 ((lanesOf 8 128 (tget ((begun s c).co s.cur).vregs (r.d.base.toNat : Int).toNat 0).toNat).take (32 * r.mf 9 8) ++
        quantBytes s r ++ (lanesOf 8 128 (tget ((begun s c).co s.cur).vregs (r.d.base.toNat : Int).toNat 0).toNat).drop (32 * r.mf 9 8 + 32)))]
      else writeSp (vctxOf s 0x3C r c) (r.d.base.toNat : Int) 32 (packLanes 8 (quantBytes s r)) (2 ^ 32 - 1) 0 (begun s c) : Except EngErr (List Wr)) =
        .ok [quantWr s r c] := by
    unfold quantWr
    rw [hkat, if_neg Bool.false_ne_true]
    split_ifs with hsp
    · rw [Int.toNat_natCast, vregs_begun hb, lanesOf_vreg]
    · exact writeSp_begun hb (hd.resolve_left hsp)
  have hq : vecIssue (vctxOf s 0x3C r c) 0 (0, 0, 0, 0) (begun s c) =
      .ok { ws := [quantWr s r c, .sp (spAt s r c r.b) 1 (quantOf s r).1.1 1], fl := (quantOf s r).2, kat := quantBytes s r ++ [(quantOf s r).1.1] } := by
    rw [hissue]
    unfold issueQuant
    dsimp only [vctxOf_r, vctxOf_p]
    rw [readReg_begun hb (hr.2 _ List.mem_cons_self)]
    dsimp only
    rw [lanesOf_vreg, List.map_map]
    rw [show quant32 ((List.range 32).map (fpDecode 23 ∘ fun i => lane 32 i (vreg s r.a.base.toNat))) = quantOf s r from rfl,
      show (quantOf s r).1.2.map (wrapBits 8) = quantBytes s r from rfl, writeSp_begun hb (a := (r.b.base.toNat : Int)) (n := 1) hscale]
    dsimp only
    rw [hwr]
    rfl
  have hexec := exec_vec (i := .quant r) (k := 0x3C#8) rfl hb hr.1 hone hkat (.inl hecc) rfl (vecStart_none (by decide) _) hq
  rw [accwrTags_nil (by decide)] at hexec
  exact hexec

/-- What QUANT leaves besides D and its scale byte. -/
theorem quant_frame (hb : begins s 0 0x3C r c) (hecc : s.ecc = []) {t : State} (ht : t = vecOver s c [quantWr s r c, .sp (spAt s r c r.b) 1 (quantOf s r).1.1 1] (quantOf s r).2 []) :
    engineOnly s { t with mem := s.mem } ∧ accKept s t ∧ (t.co s.cur).masks = (s.co s.cur).masks ∧ started s c 0 false [] t ∧
      (t.co s.cur).vstatus = (s.co s.cur).vstatus ||| (quantOf s r).2 := by
  subst ht
  have h := vecOver_done hb [quantWr s r c, .sp (spAt s r c r.b) 1 (quantOf s r).1.1 1] (quantOf s r).2 []
  have hkept : (coreWr (s.co s.cur) (quantWr s r c)) = { s.co s.cur with
      vregs := (coreWr (s.co s.cur) (quantWr s r c)).vregs, vtags := (coreWr (s.co s.cur) (quantWr s r c)).vtags, vempty := (coreWr (s.co s.cur) (quantWr s r c)).vempty } := by
    unfold quantWr
    split_ifs <;> rfl
  have hfold : [quantWr s r c, .sp (spAt s r c r.b) 1 (quantOf s r).1.1 1].foldl coreWr (s.co s.cur) = coreWr (s.co s.cur) (quantWr s r c) := rfl
  refine ⟨engineOnly_done_mem h ?_ ?_, accKept_done h ?_ ?_ ?_, (masks_done h).trans ?_, started_done h hb, vstatus_done h⟩
  · rw [vecOver_ecc, hecc, foldl_applyWr_sp]
    refine spWriteMasked_ecc _ _ _ _ _ _ ?_
    unfold quantWr
    split_ifs
    · exact (begun_ecc hb).trans hecc
    · exact spWriteMasked_ecc _ _ _ _ _ _ ((begun_ecc hb).trans hecc)
  all_goals rw [hfold, hkept]

theorem quant_register (hone : oneIssue r) (hkat : r.kat = false) (hecc : s.ecc = []) (hb : begins s 0 0x3C r c) (hr : operandsReady s r [r.a])
    (hscale : spAt s r c r.b < 0x40_0000) (hsp : r.d.space = 2#4) (hd : r.d.base.toNat < 384) : completes (.quant r) s fun t =>
      engineOnly s { t with mem := s.mem } ∧ accKept s t ∧ (t.co s.cur).masks = (s.co s.cur).masks ∧ started s c 0 false [] t ∧
      vregWritten s r.d.base.toNat 5 128 8 (fun j => if 32 * r.mf 9 8 ≤ j ∧ j < 32 * r.mf 9 8 + 32 then
        some ((quantBytes s r).getD (j - 32 * r.mf 9 8) 0) else none) t ∧
      (t.co s.cur).vstatus = (s.co s.cur).vstatus ||| (quantOf s r).2 ∧
      ∀ a, memGet t.mem a = if a = spKey s.cur (spAt s r c r.b) then BitVec.ofNat 8 (quantOf s r).1.1 else memGet s.mem a := by
  obtain ⟨heng, hacc, hmasks, hstart, hst⟩ := quant_frame hb hecc rfl
  have hpart : r.mf 9 8 < 4 := Nat.mod_lt _ (by decide)
  have hwr : quantWr s r c = .reg r.d.base.toNat 5 (packLanes 8 (mergeLanes (lanesOf 8 128 (vreg s r.d.base.toNat).toNat) ((List.range 128).map fun j =>
      if 32 * r.mf 9 8 ≤ j ∧ j < 32 * r.mf 9 8 + 32 then some ((quantBytes s r).getD (j - 32 * r.mf 9 8) 0) else none))) := by
    unfold quantWr
    rw [if_pos hsp, splice_lanes _ _ hpart length_quantBytes, lanesOf_vreg, mergeLanes, zipWith_range]
    congr 2
    refine List.map_congr_left fun j _ => ?_
    split_ifs <;> rfl
  refine ⟨_, quant_done hone hkat hecc hb hr hscale (.inl hsp), heng, hacc, hmasks, hstart,
    vregWritten_done (vecOver_done hb _ _ _) hd (by decide) rfl (t' := 5) (fun j _ v hv => ?_)
      (by rw [foldl_coreWr_sp, hwr, coreWr_reg]), hst, fun a => ?_⟩
  · split_ifs at hv
    rw [← Option.some.inj hv, getD_quantBytes]
    exact wrapBits_lt _ _
  · have hu (u : State) : (applyWr s.cur u (quantWr s r c)).mem = u.mem := by rw [hwr]; rfl
    rw [vecOver_mem, foldl_applyWr_sp]
    by_cases ha : a = spKey s.cur (spAt s r c r.b)
    · rw [if_pos ha, ha, memGet_stored_byte]
    · rw [if_neg ha, memGet_spWriteMasked_out _ _ _ _ _ _ (by omega), hu, begun_mem hb]

theorem quant_store (hone : oneIssue r) (hkat : r.kat = false) (hecc : s.ecc = []) (hb : begins s 0 0x3C r c) (hr : operandsReady s r [r.a])
    (hscale : spAt s r c r.b < 0x40_0000) (hsp : r.d.space = 1#4) (hin : spAt s r c r.d + 32 ≤ 0x40_0000) : completes (.quant r) s fun t =>
      engineOnly s { t with mem := s.mem } ∧ accKept s t ∧ vregsKept s t ∧ (t.co s.cur).masks = (s.co s.cur).masks ∧
      started s c 0 false [] t ∧ (t.co s.cur).vstatus = (s.co s.cur).vstatus ||| (quantOf s r).2 ∧
      ∀ a, memGet t.mem a = if a = spKey s.cur (spAt s r c r.b) then BitVec.ofNat 8 (quantOf s r).1.1
        else if spKey s.cur (spAt s r c r.d) ≤ a ∧ a < spKey s.cur (spAt s r c r.d) + 32 then
          BitVec.ofNat 8 ((quantBytes s r).getD (a - spKey s.cur (spAt s r c r.d)) 0)
        else memGet s.mem a := by
  obtain ⟨heng, hacc, hmasks, hstart, hst⟩ := quant_frame hb hecc rfl
  have hwr : quantWr s r c = .sp (spAt s r c r.d) 32 (packLanes 8 (quantBytes s r)) (2 ^ 32 - 1) := by
    unfold quantWr
    rw [hsp, if_neg (by decide)]
  refine ⟨_, quant_done hone hkat hecc hb hr hscale (.inr hin), heng, hacc,
    vregsKept_done (vecOver_done hb _ _ _) (by rw [hwr]; rfl) (by rw [hwr]; rfl) (by rw [hwr]; rfl), hmasks, hstart, hst, fun a => ?_⟩
  rw [vecOver_mem, hwr, foldl_applyWr_sp, applyWr_sp]
  by_cases ha : a = spKey s.cur (spAt s r c r.b)
  · rw [if_pos ha, ha, memGet_stored_byte]
  · rw [if_neg ha, memGet_spWriteMasked_out _ _ _ _ _ _ (by omega)]
    by_cases hin' : spKey s.cur (spAt s r c r.d) ≤ a ∧ a < spKey s.cur (spAt s r c r.d) + 32
    · obtain ⟨j, rfl⟩ := Nat.exists_eq_add_of_le hin'.1
      rw [if_pos hin', memGet_stored_bytes _ _ _ length_quantBytes (by omega), Nat.add_sub_cancel_left]
    · rw [if_neg hin', memGet_spWriteMasked_out _ _ _ _ _ _ (by omega), begun_mem hb]

/-! ### DEQUANT -/

theorem dequant_lt (sc : Nat) (q : Int) : dequant sc q < 2 ^ 32 := by
  unfold dequant
  split
  · decide
  · split_ifs
    · decide
    · exact fits_roundFp (p := 23) 0 false _ _ _ false

theorem readSpAll_begun {op : Nat} (hb : begins s 0 op r c) (hecc : s.ecc = []) {a : Int} {n : Nat}
    (hin : recAddr s s.cur (secondHalf s r c) a + n ≤ 0x40_0000) :
    readSpAll (vctxOf s op r c) a n 0 (begun s c) = .ok (rdN s.mem (spKey s.cur (recAddr s s.cur (secondHalf s r c) a)) n) := readSp_begun hb hecc hin

/-- The lanes of a slice of a register. -/
theorem lane_of_part (v p j : Nat) : v / 2 ^ (256 * p) / 2 ^ (8 * j) % 2 ^ 8 = v / 2 ^ (8 * (32 * p + j)) % 2 ^ 8 := by
  rw [Nat.div_div_eq_div_mul, ← pow_add]
  congr 3
  ring

/-- A byte of a number read from memory. -/
theorem rdN_byte (m : Memory) (k : Nat) {n j : Nat} (hj : j < n) : rdN m k n / 2 ^ (8 * j) % 2 ^ 8 = (memGet m (k + j)).toNat := by
  have h := rdN_slice m k (o := j) (w := 1) (n := n) hj
  rw [show (2 : Nat) ^ 8 = 2 ^ (8 * 1) from rfl, h]
  simp [rdN]

theorem dequant_result (hone : oneIssue r) (hkat : r.kat = false) (hecc : s.ecc = []) (hb : begins s 0 0x3D r c)
    (hr : operandsReady s r (if r.a.space = 2#4 then [r.a] else [])) (hd : r.d.base.toNat < 384)
    (hscale : spAt s r c r.b < 0x40_0000) (hin : r.a.space = 1#4 → spAt s r c r.a + 32 ≤ 0x40_0000) (byte : Nat → Nat)
    (hbyte : ∀ j, byte j = if r.a.space = 2#4 then lane 8 (32 * r.mf 9 8 + j) (vreg s r.a.base.toNat) else (memGet s.mem (spKey s.cur (spAt s r c r.a) + j)).toNat) :
    completes (.dequant r) s (laneResult s r c fun j => (dequant (memGet s.mem (spKey s.cur (spAt s r c r.b))).toNat (intOf 8 true (byte j)), 0)) := by
  have htag : r.d.tag.toNat = 1 := List.mem_singleton.mp (tag_d hb (l := [1]) (by decide))
  have hissue : vecIssue (vctxOf s 0x3D r c) 0 (0, 0, 0, 0) (begun s c) =
      issueDequant (vctxOf s 0x3D r c) 0 (r.d.base.toNat : Int) (r.a.base.toNat : Int) (r.b.base.toNat : Int) (begun s c) := by
    rw [← addr_d hb hkat (by decide), ← addr_a hb (by decide), ← addr_b hb (by decide)]
    rfl
  have hread : ∃ v, (if r.a.space = 2#4 then (readReg (vctxOf s 0x3D r c) 2 r.a (r.a.base.toNat : Int) 0 (begun s c)).map fun v => v / 2 ^ (256 * r.mf 9 8)
      else readSpAll (vctxOf s 0x3D r c) (r.a.base.toNat : Int) 32 0 (begun s c)) = .ok v ∧ lanesOf 8 32 v = (List.range 32).map byte := by
    by_cases hsp : r.a.space = 2#4
    · rw [if_pos hsp] at hr ⊢
      rw [readReg_begun hb (hr.2 _ List.mem_cons_self)]
      refine ⟨_, rfl, ?_⟩
      rw [lanesOf_eq]
      refine List.map_congr_left fun j _ => ?_
      rw [hbyte, if_pos hsp, lane_of_part]
      rfl
    · have hmem : r.a.space.toNat ∈ [2, 1] := (operands_begin hb).aSpace (by decide)
      have hsp1 : r.a.space = 1#4 := by
        simp only [List.mem_cons, List.not_mem_nil, or_false] at hmem
        rcases hmem with h | h
        · exact absurd (BitVec.eq_of_toNat_eq h) hsp
        · exact BitVec.eq_of_toNat_eq h
      rw [if_neg hsp]
      refine ⟨_, readSpAll_begun hb hecc (hin hsp1), ?_⟩
      rw [lanesOf_eq]
      refine List.map_congr_left fun j hj => ?_
      rw [hbyte, if_neg hsp, rdN_byte _ _ (List.mem_range.mp hj)]
      rfl
  obtain ⟨v, hv, hlanes⟩ := hread
  have hsc : rdN s.mem (spKey s.cur (spAt s r c r.b)) 1 = (memGet s.mem (spKey s.cur (spAt s r c r.b))).toNat := by simp [rdN]
  have hlc : laneCount r.d.tag.toNat = 32 := by rw [htag]; rfl
  refine (completes_lanes (i := .dequant r) (k := 0x3D#8) rfl hb hr.1 hone hkat (.inl hecc) rfl (by decide) (by decide) hd
    (g := fun j => if laneOn s r (laneCount r.d.tag.toNat) j then some (dequant (memGet s.mem (spKey s.cur (spAt s r c r.b))).toNat (intOf 8 true (byte j))) else none) (fl := 0)
    (fun j _ x hx => ?_) (hissue.trans ?_)).imp fun t ht => ⟨ht.1, laneResult_of_lanes ht.2 (no_flags fun _ => rfl)⟩
  · split_ifs at hx
    rw [← Option.some.inj hx, htag]
    exact dequant_lt _ _
  · unfold issueDequant
    dsimp only [vctxOf_r]
    rw [hv]
    dsimp only
    rw [readSpAll_begun hb hecc (a := (r.b.base.toNat : Int)) (n := 1) hscale, show rdN s.mem (spKey s.cur (recAddr s s.cur (secondHalf s r c) (r.b.base.toNat : Int))) 1 = _ from hsc]
    dsimp only
    rw [active_begun hb, hlanes, List.map_map, zipWith_range, hlc]
    rfl

end

/-- Each conversion, as its own theorem gives it. -/
theorem conversionResults : Parts.ConversionResults := fun s r c hone hkat =>
  ⟨fun hb hr hd la ld p src f hla hld hp hsrc hf => cvt_result hone hkat hb hr hd la ld p src f hla hld hp hsrc hf,
    fun hecc hb hr hd hscale q byte hq hbyte => by
      obtain rfl : q = quantOf s r := hq
      obtain rfl : byte = fun j => (quantBytes s r).getD j 0 := funext fun j => (hbyte j).trans (getD_quantBytes j).symm
      exact ⟨fun hsp => quant_register hone hkat hecc hb hr hscale hsp (hd hsp), fun hsp hin => quant_store hone hkat hecc hb hr hscale hsp hin⟩,
    fun hecc hb hr hd hscale hin byte hbyte => dequant_result hone hkat hecc hb hr hd hscale hin byte hbyte⟩

end Sys2Proof.Machine
end

section
/-! TRPACK and TRUNPACK (R204, R205, R150), and what an issue that faults leaves. -/
namespace Sys2Proof.Machine
set_option Elab.async false
open Safety

/-! ### An issue that faults -/

section
variable (u : State) (p : Nat) (q : BitVec 2) (c : BitVec 32) (cause detail : Nat) (val : Word) (idx : Nat)

theorem engineFault_rest : u.engineFault p q c cause detail val idx = { u with
    core := (u.engineFault p q c cause detail val idx).core, faults := (u.engineFault p q c cause detail val idx).faults } := rfl

theorem faulted_rest : faulted u p q c cause detail val idx =
    { u with core := (faulted u p q c cause detail val idx).core, quad := (faulted u p q c cause detail val idx).quad,
             faults := (faulted u p q c cause detail val idx).faults } := by
  obtain ⟨w, hw⟩ : ∃ w, w = (begunTo u p q c idx).engineFault p q c cause detail val idx := ⟨_, rfl⟩
  have hfault : w = { u with core := w.core, faults := w.faults } := by
    obtain ⟨v, hv⟩ : ∃ v, v = begunTo u p q c idx := ⟨_, rfl⟩
    have hto : v = { u with core := v.core } := by
      rw [hv]
      rfl
    rw [hw, ← hv, engineFault_rest, hto]
  have hgrant : faulted u p q c cause detail val idx = { w with quad := (faulted u p q c cause detail val idx).quad } := by
    rw [hw]
    exact endGrantOf_eq q _ p
  generalize faulted u p q c cause detail val idx = t at hgrant
  rw [hgrant, hfault]

theorem faulted_faults : ∃ f : FaultRec, (faulted u p q c cause detail val idx).faults = u.faults ++ [f] ∧ f.cause = cause ∧ f.detail = detail ∧
    f.phys = p ∧ f.pos = c.setWidth 64 := by
  unfold faulted
  rw [endGrantOf_eq]
  exact ⟨_, rfl, rfl, rfl, rfl, rfl⟩

theorem co_faulted : ∃ v : Queue, v.stopped = true ∧ (faulted u p q c cause detail val idx).co p = (u.co p).setQueue q v := by
  have hto : ∃ v, (begunTo u p q c idx).co p = (u.co p).setQueue q v :=
    ⟨_, (upCo_get u p (fun x => x.setQueue q { x.queue q with
      flight := (x.queue q).flight.map fun f => if f.slot = c then { f with idx := idx } else f }) p).trans (if_pos rfl)⟩
  obtain ⟨v, hv⟩ := hto
  refine ⟨{ ((begunTo u p q c idx).co p).queue q with stopped := true }, rfl, ?_⟩
  unfold faulted
  rw [co_endGrantOf]
  refine (upCo_get (begunTo u p q c idx) p (fun y => y.setQueue q { y.queue q with stopped := true }) p).trans ((if_pos rfl).trans ?_)
  rw [hv, setQueue_setQueue]

end

section
variable {s : State} {op : Nat} {r : Rec} {c : BitVec 32}

/-- The engine stops at the slot of a record that faults before anything of it has been made. -/
theorem faulted_begun {cls : Nat} (hb : begins s cls op r c) (cause detail : Nat) (val : Word) (idx : Nat) {t : State}
    (ht : t = faulted (begun s c) s.cur s.curq c cause detail val idx) :
    (ringOf t s.curq).stopped = true ∧ (∃ v, t.co s.cur = (s.co s.cur).setQueue s.curq v) ∧ t.mem = s.mem ∧ t.cur = s.cur ∧
      ∃ f : FaultRec, t.faults = s.faults ++ [f] ∧ f.cause = cause ∧ f.detail = detail ∧ f.phys = s.cur ∧ f.pos = c.setWidth 64 := by
  obtain ⟨v, hstop, hcore⟩ := co_faulted (begun s c) s.cur s.curq c cause detail val idx
  obtain ⟨f, hf, hfact⟩ := faulted_faults (begun s c) s.cur s.curq c cause detail val idx
  have hrest := faulted_rest (begun s c) s.cur s.curq c cause detail val idx
  rw [begun_core hb, setQueue_setQueue] at hcore
  rw [← ht] at hcore hf hrest
  have hcur : t.cur = s.cur := by rw [hrest, begun_rest hb]
  refine ⟨?_, ⟨v, hcore⟩, ?_, hcur, f, ?_, hfact⟩
  · unfold ringOf
    rw [hcur, hcore, queue_setQueue]
    exact hstop
  · rw [hrest, begun_rest hb]
  · rw [hf]
    congr 1
    rw [begun_rest hb]

/-- A vector record whose only issue faults. -/
theorem exec_vec_fault {i : Instr} {k : BitVec 8} (hparts : recParts i = some (0#4, k, r)) (hb : begins s 0 k.toNat r c) (hfull : vecFull s s.cur r = true)
    (hone : oneIssue r) (hred : isRed k.toNat = false) (hstart : vecStart (vctxOf s k.toNat r c) (begun s c) = none) {cause detail idx : Nat} {val : Word}
    (hissue : vecIssue (vctxOf s k.toNat r c) 0 (0, 0, 0, 0) (begun s c) = .error (.fault cause detail val idx)) :
    exec i s = .next (faulted (begun s c) s.cur s.curq c cause detail val idx) := by
  obtain ⟨hissues, -⟩ := oneIssue_issues hone
  refine exec_of_body_fault hparts (by decide) hb (fun _ => hfull) ?_
  have hk : (⟨s.cur, k.toNat, r, secondHalf s r c, (begunFlight s c).tie⟩ : VCtx) = vctxOf s k.toNat r c := rfl
  have hidx : (begunFlight s c).idx = 0 := rfl
  have hturn : inTurn (begun s c) ((issues r).drop 0) = [(0, 0, 0, 0, 0)] := by
    unfold inTurn
    rw [begun_lim hb, hissues]
    rfl
  have hout : vecOut (vctxOf s k.toNat r c) 0 (0, 0, 0, 0) (begunFlight s c).part.vals (begun s c) = .error (.fault cause detail val idx) := by
    unfold vecOut
    have hr : isRed (vctxOf s k.toNat r c).op = false := hred
    rw [hr, if_neg Bool.false_ne_true, hissue]
    rfl
  have h0 : (0#4).toNat = 0 := rfl
  unfold bodyOf vecEffect
  dsimp only
  rw [if_pos h0, hk, hidx, if_pos rfl, hstart]
  dsimp only
  rw [hturn, runVec, hout]

end

/-! ### Trits -/

theorem tritOf_eq (b : Nat) : tritOf b = (max (-1) (min 1 (intOf 8 true b)), decide (intOf 8 true b < -1) || decide (1 < intOf 8 true b)) := by
  unfold tritOf
  generalize intOf 8 true b = v
  dsimp only
  split_ifs with h1 h2
  · exact Prod.ext (by dsimp only; omega) (by simp [h1])
  · exact Prod.ext (by dsimp only; omega) (by simp [h2])
  · exact Prod.ext (by dsimp only; omega) (by simp [h1, h2])

/-- The first five of a list, with zeros after its end. -/
theorem five_of (ts : List Int) : ts.take 5 ++ List.replicate (5 - (ts.take 5).length) 0 = (List.range 5).map fun i => ts.getD i 0 := by
  match ts with
  | [] => rfl
  | [_] => rfl
  | [_, _] => rfl
  | [_, _, _] => rfl
  | [_, _, _, _] => rfl
  | _ :: _ :: _ :: _ :: _ :: _ => rfl

theorem length_packTrits (n : Nat) (ts : List Int) : (packTrits n ts).length = n := by
  induction n generalizing ts with
  | zero => rfl
  | succ n ih => exact congrArg (· + 1) (ih _)

/-- Each byte packs its five trits. -/
theorem getD_packTrits {n k : Nat} (hk : k < n) (ts : List Int) : (packTrits n ts).getD k 0 = t5enc ((List.range 5).map fun i => ts.getD (5 * k + i) 0) := by
  induction n generalizing ts k with
  | zero => exact absurd hk (Nat.not_lt_zero k)
  | succ n ih =>
    cases k with
    | zero =>
      rw [packTrits, List.getD_cons_zero, five_of]
      congr 2
      funext i
      rw [Nat.mul_zero, Nat.zero_add]
    | succ k =>
      rw [packTrits, List.getD_cons_succ, ih (Nat.lt_of_succ_lt_succ hk)]
      congr 2
      funext i
      rw [List.getD_eq_getElem?_getD, List.getD_eq_getElem?_getD, List.getElem?_drop]
      congr 2
      ring_nf

/-- Five trits in base three. -/
theorem t5enc_eq {x : Nat → Int} (h : ∀ i, -1 ≤ x i ∧ x i ≤ 1) : t5enc ((List.range 5).map x) < 256 ∧
    (t5enc ((List.range 5).map x) : Int) = (x 0 + 1) + 3 * (x 1 + 1) + 9 * (x 2 + 1) + 27 * (x 3 + 1) + 81 * (x 4 + 1) := by
  have h0 := h 0
  have h1 := h 1
  have h2 := h 2
  have h3 := h 3
  have h4 := h 4
  have hexp : t5enc ((List.range 5).map x) = (x 0 + 1).toNat + 3 * ((x 1 + 1).toNat + 3 * ((x 2 + 1).toNat + 3 * ((x 3 + 1).toNat + 3 * ((x 4 + 1).toNat + 3 * 0)))) := rfl
  rw [hexp]
  omega

theorem t5dec_range (b : Nat) : t5dec b = (List.range 5).map fun i => (t5dec b).getD i 0 := by
  unfold t5dec
  split_ifs
  · rfl
  · rfl

/-- The trits of bytes in a row. -/
theorem flatMap_t5dec (byte : Nat → Nat) (n : Nat) :
    ((List.range n).map byte).flatMap t5dec = (List.range (5 * n)).map fun j => (t5dec (byte (j / 5))).getD (j % 5) 0 := by
  induction n with
  | zero => rfl
  | succ n ih =>
    rw [List.range_succ, List.map_append, List.flatMap_append, ih, Nat.mul_add, List.range_add, List.map_append, List.map_map]
    congr 1
    rw [List.map_singleton, List.flatMap_singleton, t5dec_range]
    refine List.map_congr_left fun i hi => ?_
    have hi' : i < 5 := List.mem_range.mp hi
    have hdiv : (5 * n + i) / 5 = n := by omega
    have hmod : (5 * n + i) % 5 = i := by omega
    simp only [Function.comp_apply]
    rw [hdiv, hmod]

theorem wrapBits_trit (b : Nat) {i : Nat} (hi : i < 5) : wrapBits 8 ((t5dec b).getD i 0) = if b < 243 then (b / 3 ^ i % 3 + 255) % 256 else 0 := by
  unfold t5dec
  by_cases hb : b < 243
  · rw [if_neg (by omega), if_pos hb]
    have hget : ((List.range 5).map fun i => ((b / 3 ^ i % 3 : Nat) : Int) - 1).getD i 0 = ((b / 3 ^ i % 3 : Nat) : Int) - 1 := by simp [hi]
    rw [hget]
    generalize b / 3 ^ i % 3 = y
    unfold wrapBits
    omega
  · rw [if_pos (by omega), if_neg hb]
    have hget : ([0, 0, 0, 0, 0] : List Int).getD i 0 = 0 := by
      match i, hi with
      | 0, _ => rfl
      | 1, _ => rfl
      | 2, _ => rfl
      | 3, _ => rfl
      | 4, _ => rfl
    rw [hget]
    rfl

/-- The lanes that TRUNPACK gives D. -/
theorem unpacked_lanes (byte : Nat → Nat) {t n : Nat} (ht : t ≤ 128) (htn : t ≤ 5 * n) :
    ((((List.range n).map byte).flatMap t5dec).take t).map (wrapBits 8) ++ List.replicate (128 - t) 0 =
      (List.range 128).map fun j => if j < t ∧ byte (j / 5) < 243 then (byte (j / 5) / 3 ^ (j % 5) % 3 + 255) % 256 else 0 := by
  have hsplit : List.range 128 = List.range t ++ (List.range (128 - t)).map (t + ·) := by rw [← List.range_add, Nat.add_sub_cancel' ht]
  rw [flatMap_t5dec, ← List.map_take, List.take_range, Nat.min_eq_left htn, List.map_map, hsplit, List.map_append, List.map_map]
  congr 1
  · refine List.map_congr_left fun j hj => ?_
    rw [Function.comp_apply, wrapBits_trit _ (Nat.mod_lt _ (by decide))]
    simp only [List.mem_range.mp hj, true_and]
  · refine (List.ext_getElem (by simp) fun j _ _ => ?_)
    simp

section
variable {s : State} {r : Rec} {c : BitVec 32} {t n : Nat}

theorem trpack_result (hone : oneIssue r) (hkat : r.kat = false) (hecc : s.ecc = []) (ht : t = r.mf 14 8) (hn : n = (t + 4) / 5)
    (hb : begins s 0 0x40 r c) (hr : operandsReady s r [r.a]) (hin : spAt s r c r.d + n ≤ 0x40_0000) (x tr : Nat → Int)
    (hx : ∀ j, x j = intOf 8 true (lane 8 j (vreg s r.a.base.toNat))) (htr : ∀ j, tr j = if j < t then max (-1) (min 1 (x j)) else 0) :
    completes (.trpack r) s fun u =>
      engineOnly s { u with mem := s.mem } ∧ accKept s u ∧ vregsKept s u ∧ (u.co s.cur).masks = (s.co s.cur).masks ∧
      started s c 0 false [] u ∧
      (u.co s.cur).vstatus = (s.co s.cur).vstatus |||
        (if (List.range t).any (fun j => decide (x j < -1) || decide (1 < x j)) then flSAT else 0) ∧
      (∀ k, k < n → ((memGet u.mem (spKey s.cur (spAt s r c r.d) + k)).toNat : Int) =
        (tr (5 * k) + 1) + 3 * (tr (5 * k + 1) + 1) + 9 * (tr (5 * k + 2) + 1) + 27 * (tr (5 * k + 3) + 1) + 81 * (tr (5 * k + 4) + 1)) ∧
      ∀ a, a < spKey s.cur (spAt s r c r.d) ∨ spKey s.cur (spAt s r c r.d) + n ≤ a → memGet u.mem a = memGet s.mem a := by
  have hle : t ≤ 128 := by
    have : r.mf 14 8 < 2 ^ 7 := Nat.mod_lt _ (by decide)
    omega
  obtain ⟨ts, hts⟩ : ∃ ts : List (Int × Bool), ts = (List.range t).map fun j => (max (-1) (min 1 (x j)), decide (x j < -1) || decide (1 < x j)) := ⟨_, rfl⟩
  obtain ⟨bytes, hbytes⟩ : ∃ bytes : List Nat, bytes = packTrits n (ts.map (·.1)) := ⟨_, rfl⟩
  have hlen : bytes.length = n := by rw [hbytes, length_packTrits]
  have hread : ((lanesOf 8 128 (vreg s r.a.base.toNat).toNat).take t).map tritOf = ts := by
    rw [lanesOf_vreg, ← List.map_take, List.take_range, Nat.min_eq_left hle, List.map_map, hts]
    refine List.map_congr_left fun j _ => ?_
    rw [Function.comp_apply, tritOf_eq, hx]
  have hany : ts.any (·.2) = (List.range t).any fun j => decide (x j < -1) || decide (1 < x j) := by
    rw [hts, List.any_map]
    rfl
  have hissue : vecIssue (vctxOf s 0x40 r c) 0 (0, 0, 0, 0) (begun s c) = .ok {
      ws := [.sp (spAt s r c r.d) n (packLanes 8 bytes) (2 ^ n - 1)]
      fl := if (List.range t).any (fun j => decide (x j < -1) || decide (1 < x j)) then flSAT else 0
      kat := bytes } := by
    have hop : vecIssue (vctxOf s 0x40 r c) 0 (0, 0, 0, 0) (begun s c) = issueTrpack (vctxOf s 0x40 r c) 0 (r.d.base.toNat : Int) (r.a.base.toNat : Int) (begun s c) := by
      rw [← addr_d hb hkat (by decide), ← addr_a hb (by decide)]
      rfl
    rw [hop]
    unfold issueTrpack
    dsimp only [vctxOf_r]
    rw [readReg_begun hb (hr.2 _ List.mem_cons_self), ← ht]
    dsimp only
    simp only [hread, ← hn, ← hbytes, hkat, Bool.false_eq_true, if_false]
    rw [writeSp_begun hb (a := (r.d.base.toNat : Int)) hin, hany]
    rfl
  have hexec := exec_vec (i := .trpack r) (k := 0x40#8) rfl hb hr.1 hone hkat (.inl hecc) rfl (vecStart_none (by decide) _) hissue
  rw [accwrTags_nil (by decide)] at hexec
  refine ⟨_, hexec, engineOnly_done_mem (vecOver_done hb _ _ _) ?_ rfl, accKept_done (vecOver_done hb _ _ _) rfl rfl rfl,
    vregsKept_done (vecOver_done hb _ _ _) rfl rfl rfl, masks_done (vecOver_done hb _ _ _), started_done (vecOver_done hb _ _ _) hb,
    vstatus_done (vecOver_done hb _ _ _), fun k hk => ?_, fun a ha => ?_⟩
  · rw [hecc]
    exact spWriteMasked_ecc _ _ _ _ _ _ ((begun_ecc hb).trans hecc)
  · have hget (j : Nat) : (ts.map (·.1)).getD j 0 = tr j := by
      rw [hts, List.map_map, htr]
      by_cases hj : j < t
      · simp [hj]
      · simp [hj]
    have hbound (j : Nat) : -1 ≤ tr j ∧ tr j ≤ 1 := by
      rw [htr]
      split_ifs <;> omega
    obtain ⟨hlt, hval⟩ := t5enc_eq fun i => hbound (5 * k + i)
    have hmem : memGet (vecOver s c [.sp (spAt s r c r.d) n (packLanes 8 bytes) (2 ^ n - 1)]
        (if (List.range t).any (fun j => decide (x j < -1) || decide (1 < x j)) then flSAT else 0) []).mem (spKey s.cur (spAt s r c r.d) + k) = BitVec.ofNat 8 (bytes.getD k 0) :=
      memGet_stored_bytes _ _ _ hlen hk
    rw [hmem, hbytes, getD_packTrits hk]
    simp only [hget]
    rw [toNat_ofNat_lt (n := 8) hlt, hval, Nat.add_zero]
  · rw [vecOver_mem, ← begun_mem hb]
    exact memGet_spWriteMasked_out _ _ _ _ _ _ ha

/-- What an issue of TRUNPACK does with the bytes that it reads. -/
theorem issueTrunpack_begun (hkat : r.kat = false) (hecc : s.ecc = []) (ht : t = r.mf 14 8) (hn : n = (t + 4) / 5) (hb : begins s 0 0x41 r c)
    (hin : spAt s r c r.a + n ≤ 0x40_0000) (byte : Nat → Nat) (hbyte : ∀ k, byte k = (memGet s.mem (spKey s.cur (spAt s r c r.a) + k)).toNat) :
    vecIssue (vctxOf s 0x41 r c) 0 (0, 0, 0, 0) (begun s c) =
      if (List.range n).any (fun k => decide (243 ≤ byte k)) && (s.co s.cur).vstatus.getLsbD 16 then .error (.fault causeTrit 0 0 0)
      else .ok (regOut (vctxOf s 0x41 r c) (r.d.base.toNat : Int) ((List.range 128).map fun j =>
          some (if j < t ∧ byte (j / 5) < 243 then (byte (j / 5) / 3 ^ (j % 5) % 3 + 255) % 256 else 0))
        (if (List.range n).any (fun k => decide (243 ≤ byte k)) then flTI else 0) (begun s c)) := by
  have hle : t ≤ 128 := by
    have : r.mf 14 8 < 2 ^ 7 := Nat.mod_lt _ (by decide)
    omega
  have hop : vecIssue (vctxOf s 0x41 r c) 0 (0, 0, 0, 0) (begun s c) = issueTrunpack (vctxOf s 0x41 r c) 0 (r.d.base.toNat : Int) (r.a.base.toNat : Int) (begun s c) := by
    rw [← addr_d hb hkat (by decide), ← addr_a hb (by decide)]
    rfl
  have hbytes : lanesOf 8 n (rdN s.mem (spKey s.cur (spAt s r c r.a)) n) = (List.range n).map byte := by
    rw [lanesOf_eq]
    refine List.map_congr_left fun k hk => ?_
    rw [rdN_byte _ _ (List.mem_range.mp hk), hbyte]
  have hmap : ((List.range n).map byte).any (fun b => decide (243 ≤ b)) = (List.range n).any fun k => decide (243 ≤ byte k) := by
    rw [List.any_map]
    rfl
  have hsp : readSpAll (vctxOf s 0x41 r c) (r.a.base.toNat : Int) n 0 (begun s c) = .ok (rdN s.mem (spKey s.cur (spAt s r c r.a)) n) := readSpAll_begun hb hecc hin
  rw [hop]
  unfold issueTrunpack
  dsimp only [vctxOf_r]
  rw [← ht, ← hn, hsp]
  dsimp only
  rw [hbytes, hmap, unpacked_lanes byte hle (by omega), List.map_map]
  simp only [hkat, Bool.not_false, Bool.and_true]
  rfl

theorem trunpack_result (hone : oneIssue r) (hkat : r.kat = false) (hecc : s.ecc = []) (ht : t = r.mf 14 8) (hn : n = (t + 4) / 5) (hb : begins s 0 0x41 r c)
    (hr : operandsReady s r []) (hin : spAt s r c r.a + n ≤ 0x40_0000) (hd : r.d.base.toNat < 384) (byte : Nat → Nat)
    (hbyte : ∀ k, byte k = (memGet s.mem (spKey s.cur (spAt s r c r.a) + k)).toNat)
    (hok : (s.co s.cur).vstatus.getLsbD 16 = false ∨ ∀ k, k < n → byte k < 243) : completes (.trunpack r) s fun u =>
      engineOnly s u ∧ accKept s u ∧ (u.co s.cur).masks = (s.co s.cur).masks ∧ started s c 0 false [] u ∧
      (u.co s.cur).vstatus = (s.co s.cur).vstatus ||| (if (List.range n).any (fun k => decide (243 ≤ byte k)) then flTI else 0) ∧
      vregWritten s r.d.base.toNat r.d.tag 128 8
        (fun j => some (if j < t ∧ byte (j / 5) < 243 then (byte (j / 5) / 3 ^ (j % 5) % 3 + 255) % 256 else 0)) u := by
  have hissue := issueTrunpack_begun hkat hecc ht hn hb hin byte hbyte
  have hno : ¬((List.range n).any (fun k => decide (243 ≤ byte k)) && (s.co s.cur).vstatus.getLsbD 16) = true := by
    rw [Bool.and_eq_true, List.any_eq_true]
    rintro ⟨⟨k, hk, hbad⟩, htie⟩
    have hlt := List.mem_range.mp hk
    rcases hok with h | h
    · rw [h] at htie
      exact absurd htie Bool.false_ne_true
    · exact absurd (of_decide_eq_true hbad) (Nat.not_le.mpr (h k hlt))
  rw [if_neg hno] at hissue
  have htag : r.d.tag.toNat = 5 := List.mem_singleton.mp (tag_d hb (l := [5]) (by decide))
  have hlc : laneCount r.d.tag.toNat = 128 ∧ laneBits r.d.tag.toNat = 8 := by rw [htag]; decide
  obtain ⟨u, hexec, heng, hacc, hmasks, hst, hstart, hreg⟩ := completes_lanes (i := .trunpack r) (k := 0x41#8) rfl hb hr.1 hone hkat (.inl hecc) rfl (by decide) (by decide) hd
    (g := fun j => some (if j < t ∧ byte (j / 5) < 243 then (byte (j / 5) / 3 ^ (j % 5) % 3 + 255) % 256 else 0))
    (fun j _ v hv => by
      rw [← Option.some.inj hv, hlc.2]
      split_ifs
      · exact Nat.mod_lt _ (by decide)
      · decide) (by rw [hlc.1]; exact hissue)
  rw [hlc.1, hlc.2] at hreg
  exact ⟨u, hexec, heng, hacc, hmasks, hstart, hst, hreg⟩

theorem trunpack_fault (hone : oneIssue r) (hkat : r.kat = false) (hecc : s.ecc = []) (ht : t = r.mf 14 8) (hn : n = (t + 4) / 5) (hb : begins s 0 0x41 r c)
    (hr : operandsReady s r []) (hin : spAt s r c r.a + n ≤ 0x40_0000) (byte : Nat → Nat)
    (hbyte : ∀ k, byte k = (memGet s.mem (spKey s.cur (spAt s r c r.a) + k)).toNat)
    (htie : (s.co s.cur).vstatus.getLsbD 16 = true) (hbad : ∃ k, k < n ∧ 243 ≤ byte k) : completes (.trunpack r) s fun u =>
      (ringOf u s.curq).stopped = true ∧ (∀ m, vreg u m = vreg s m) ∧ u.mem = s.mem ∧
      ∃ f : FaultRec, u.faults = s.faults ++ [f] ∧ f.cause = 0x26 ∧ f.phys = s.cur ∧ f.pos = c.setWidth 64 := by
  have hissue := issueTrunpack_begun hkat hecc ht hn hb hin byte hbyte
  obtain ⟨k, hk, hge⟩ := hbad
  have hany : (List.range n).any (fun k => decide (243 ≤ byte k)) = true := List.any_eq_true.mpr ⟨k, List.mem_range.mpr hk, decide_eq_true hge⟩
  rw [if_pos (by rw [hany, htie]; rfl)] at hissue
  have hexec := exec_vec_fault (i := .trunpack r) (k := 0x41#8) rfl hb hr.1 hone rfl (vecStart_none (by decide) _) hissue
  obtain ⟨hstop, ⟨v, hcore⟩, hmem, hcur, f, hf, hcause, -, hphys, hpos⟩ := faulted_begun hb causeTrit 0 0 0 rfl
  refine ⟨_, hexec, hstop, fun m => ?_, hmem, f, hf, hcause, hphys, hpos⟩
  unfold vreg
  rw [hcur, hcore, vregs_setQueue]

end

/-- TRPACK and TRUNPACK, as their theorems give them. -/
theorem tritResults : Parts.TritResults := fun _ _ _ _ _ hone hkat hecc ht hn =>
  ⟨fun hb hr hin x tr hx htr => trpack_result hone hkat hecc ht hn hb hr hin x tr hx htr,
    fun hb hr hin hd byte hbyte => ⟨fun hok => trunpack_result hone hkat hecc ht hn hb hr hin hd byte hbyte hok,
      fun htie hbad => trunpack_fault hone hkat hecc ht hn hb hr hin byte hbyte htie hbad⟩⟩

end Sys2Proof.Machine
end

section
/-! The vector engine's reductions (R156, R206, R207): the issues of a group, one after another. -/
namespace Sys2Proof.Machine
set_option Elab.async false
open Safety

/-! ### A record between its issues -/

theorem putAccs_flags (e : Nat) (vs : List (Option Nat)) (x : Core) (v : Word) :
    putAccs e vs { x with vstatus := v } = { putAccs e vs x with vstatus := v } := by
  induction vs generalizing e x with
  | nil => rfl
  | cons a vs ih =>
    cases a with
    | none => exact ih (e + 1) x
    | some n => exact ih (e + 1) (x.putAcc e n)

theorem foldl_coreWr_flags (x : Core) (v : Word) (ws : List Wr) : ws.foldl coreWr { x with vstatus := v } = { ws.foldl coreWr x with vstatus := v } := by
  induction ws generalizing x with
  | nil => rfl
  | cons w ws ih =>
    have hw : coreWr { x with vstatus := v } w = { coreWr x w with vstatus := v } := by
      cases w with
      | acc e vs => exact putAccs_flags e vs x v
      | _ => rfl
    rw [List.foldl_cons, List.foldl_cons, hw, ih]

/-- The package between the issues of a record that has gained some flags and written nothing. -/
structure Between (s : State) (c : BitVec 32) (fl : Word) (u : State) : Prop where
  core : u.co s.cur = (vecCore (s.co s.cur) [] fl).setQueue s.curq (begunQueue s c)
  other : ∀ p, p ≠ s.cur → u.co p = s.co p
  rest : u = { s with core := u.core }

section
variable {s u : State} {op : Nat} {r : Rec} {c : BitVec 32} {fl : Word}

theorem between_begun (hb : begins s 0 op r c) : Between s c 0 (begun s c) := by
  have hcore : vecCore (s.co s.cur) [] 0 = s.co s.cur := by
    have hst : (s.co s.cur).vstatus ||| 0 = (s.co s.cur).vstatus := BitVec.or_zero
    unfold vecCore
    rw [hst]
    rfl
  exact ⟨by rw [hcore, begun_core hb], fun p hp => begun_other hb hp, begun_rest hb⟩

theorem between_addFlags (h : Between s c fl u) (g : Word) : Between s c (fl ||| g) (addFlags u s.cur g) := by
  refine ⟨?_, fun p hp => ?_, ?_⟩
  · have hcore := vecCore_setQueue (vecCore (s.co s.cur) [] fl) s.curq (begunQueue s c) [] g
    have hor : vecCore (vecCore (s.co s.cur) [] fl) [] g = vecCore (s.co s.cur) [] (fl ||| g) := by
      unfold vecCore
      dsimp only [List.foldl_nil]
      rw [BitVec.or_assoc]
    rw [co_addFlags, if_pos rfl, h.core]
    exact hcore.trans (by rw [hor])
  · rw [co_addFlags, if_neg hp]
    exact h.other p hp
  · have hadd : addFlags u s.cur g = { u with core := (addFlags u s.cur g).core } := rfl
    generalize addFlags u s.cur g = t at hadd
    rw [hadd, h.rest]

theorem vregs_between (h : Between s c fl u) (m : Nat) : tget (u.co s.cur).vregs m 0 = vreg s m := by
  rw [h.core, vregs_setQueue]
  rfl

theorem readReg_between (h : Between s c fl u) {which j : Nat} {d : Desc} {a : Int} (htag : d.tag = 0 ∨ vtag s a.toNat = d.tag) :
    readReg (vctxOf s op r c) which d a j u = .ok (vreg s a.toNat).toNat := by
  have htags : tget (u.co s.cur).vtags a.toNat 0 = vtag s a.toNat := by
    rw [h.core, vtags_setQueue]
    rfl
  have hno : ¬(d.tag ≠ 0#8 ∧ tget (u.co s.cur).vtags a.toNat 0 ≠ d.tag) := by
    rw [htags]
    exact fun e => htag.elim e.1 e.2
  unfold readReg
  dsimp only
  refine (if_neg hno).trans ?_
  rw [← vregs_between h]
  rfl

theorem mask_between (h : Between s c fl u) : (vctxOf s op r c).mask u = (vctxOf s op r c).mask s := by
  have hm (x : State) (hx : (x.co s.cur).masks = (s.co s.cur).masks) : (vctxOf s op r c).mask x = (mreg s (r.mf 6 4)).toNat := readMask_toNat hx _
  rw [hm u (by rw [h.core, masks_setQueue]; rfl), hm s rfl]

theorem recAddr_between (h : Between s c fl u) (ph : Bool) (a : Int) : recAddr u s.cur ph a = recAddr s s.cur ph a := by
  have htask : (u.co s.cur).task = (s.co s.cur).task := by
    rw [h.core, task_setQueue]
    rfl
  have hteam : u.team = s.team := by rw [h.rest]
  unfold recAddr pairsOf State.teamOf State.tm
  rw [htask, hteam]

theorem writeSp_between (h : Between s c fl u) {a : Int} {n v mask j : Nat} (hin : recAddr s s.cur (secondHalf s r c) a + n ≤ 0x40_0000) :
    writeSp (vctxOf s op r c) a n v mask j u = .ok [.sp (recAddr s s.cur (secondHalf s r c) a) n v mask] := by
  have hin' : spInside (recAddr s s.cur (secondHalf s r c) a) n = true := decide_eq_true hin
  have haddr : recAddr u (vctxOf s op r c).p (vctxOf s op r c).ph a = recAddr s s.cur (secondHalf s r c) a := recAddr_between h _ _
  unfold writeSp
  dsimp only
  rw [haddr, hin']
  rfl

/-- The last issue's writes and flags, and the end of the body. -/
theorem vecDone_between (hb : begins s 0 op r c) (h : Between s c fl u) (ws : List Wr) (g : Word) (l : Left) :
    VecDone s c ws (fl ||| g) l.tags (endBody (addFlags (ws.foldl (applyWr s.cur) u) s.cur g) s.cur s.curq c l) := by
  have hcore : (addFlags (ws.foldl (applyWr s.cur) u) s.cur g).co s.cur = (vecCore (s.co s.cur) ws (fl ||| g)).setQueue s.curq (begunQueue s c) := by
    have hor : vecCore (vecCore (s.co s.cur) [] fl) ws g = vecCore (s.co s.cur) ws (fl ||| g) := by
      obtain ⟨x, hx⟩ : ∃ x, x = s.co s.cur := ⟨_, rfl⟩
      unfold vecCore
      rw [← hx]
      dsimp only [List.foldl_nil]
      rw [foldl_coreWr_flags, BitVec.or_assoc]
    rw [co_addFlags, if_pos rfl, co_foldl_applyWr, if_pos rfl, h.core, vecCore_setQueue, hor]
  refine ⟨⟨l.steps, ?_⟩, fun p hp => ?_, ?_⟩
  · rw [co_endBody hb (by rw [hcore, queue_setQueue]), hcore, setQueue_setQueue]
  · rw [co_endBody_other _ _ _ _ hp, co_addFlags, if_neg hp, co_foldl_applyWr, if_neg hp, h.other p hp]
  · obtain ⟨w, hw⟩ : ∃ w, w = ws.foldl (applyWr s.cur) u := ⟨_, rfl⟩
    have hrest : w = { s with core := w.core, mem := w.mem, ecc := w.ecc } := by
      rw [hw, foldl_applyWr_rest, h.rest]
    have hover : endBody (addFlags w s.cur g) s.cur s.curq c l = { w with core := (endBody (addFlags w s.cur g) s.cur s.curq c l).core } := rfl
    rw [← hw]
    generalize endBody (addFlags w s.cur g) s.cur s.curq c l = t at hover
    rw [hover, hrest]

end

/-! ### The issues of one group -/

section
variable (s : State) (op : Nat) (r : Rec) (c : BitVec 32)

/-- The tree over the lanes of one issue. -/
def redPart (j : Nat) : Fl Nat := redIssue (vctxOf s op r c) (vreg s (addrAt r.a (0, 0, 0, j)).toNat).toNat s

/-- The result of the first issues of a group, and the flags that they have gained. -/
def redAcc : Nat → Fl Nat
  | 0 => (0, 0)
  | j + 1 =>
    let v := redJoin (vctxOf s op r c) j [(redAcc j).1] (redPart s op r c j)
    (v.1, (redAcc j).2 ||| v.2)

/-- What the issue at j adds to those before it. -/
def redStep (j : Nat) : Fl Nat := redJoin (vctxOf s op r c) j [(redAcc s op r c j).1] (redPart s op r c j)

/-- The write of a reduction: a register, or one element of scratchpad. -/
def redWr (v : Nat) : Wr :=
  if r.d.space = 2#4 then .reg r.d.base.toNat r.d.tag.toNat v
  else .sp (spAt s r c r.d) (elemSize r.a.tag.toNat) v (2 ^ elemSize r.a.tag.toNat - 1)

end

theorem redAcc_succ (s : State) (op : Nat) (r : Rec) (c : BitVec 32) (j : Nat) :
    redAcc s op r c (j + 1) = ((redStep s op r c j).1, (redAcc s op r c j).2 ||| (redStep s op r c j).2) := rfl

section
variable {s u : State} {op : Nat} {r : Rec} {c : BitVec 32} {fl : Word}

theorem redJoin_step {j : Nat} {vals : List Nat} (h : j = 0 ∨ vals = [(redAcc s op r c j).1]) :
    redJoin (vctxOf s op r c) j vals (redPart s op r c j) = redStep s op r c j := by
  unfold redStep
  rcases h with rfl | rfl
  · rfl
  · rfl

theorem redIssue_between (h : Between s c fl u) (v : Nat) : redIssue (vctxOf s op r c) v u = redIssue (vctxOf s op r c) v s := by
  unfold redIssue
  rw [mask_between h]

/-- A group's issues over registers that all hold A's format, as `redOver` says them. -/
theorem redOver_eq (m j : Nat) (htag : ∀ i, i < j + m → r.a.tag = 0 ∨ vtag s (addrAt r.a (0, 0, 0, i)).toNat = r.a.tag) :
    redOver (vctxOf s op r c) s j ((List.range m).map fun i => addrAt r.a (0, 0, 0, j + i)) (redAcc s op r c j) = .ok (redAcc s op r c (j + m)) := by
  induction m generalizing j with
  | zero => rfl
  | succ m ih =>
    have hread : readReg (vctxOf s op r c) 2 r.a (addrAt r.a (0, 0, 0, j)) j s = .ok (vreg s (addrAt r.a (0, 0, 0, j)).toNat).toNat := by
      have hno : ¬(r.a.tag ≠ 0#8 ∧ vtag s (addrAt r.a (0, 0, 0, j)).toNat ≠ r.a.tag) := fun e => (htag j (by omega)).elim e.1 e.2
      exact if_neg hno
    have htail : ((List.range m).map Nat.succ).map (fun i => addrAt r.a (0, 0, 0, j + i)) = (List.range m).map fun i => addrAt r.a (0, 0, 0, j + 1 + i) := by
      rw [List.map_map]
      refine List.map_congr_left fun i _ => ?_
      rw [Function.comp_apply, Nat.succ_eq_add_one, Nat.add_assoc, Nat.add_comm 1 i]
    rw [List.range_succ_eq_map, List.map_cons, htail, Nat.add_zero]
    unfold redOver
    rw [vctxOf_r, hread]
    have hstep := ih (j + 1) (fun i hi => htag i (by omega))
    rw [redAcc_succ, Nat.add_assoc, Nat.add_comm 1 m] at hstep
    exact hstep

/-- One issue of a group. -/
theorem issueRed_between (hb : begins s 0 op r c) (hop : (vecEntry op).dS ≠ [] ∧ 4 ∉ (vecEntry op).dS) (hkat : r.kat = false) (h : Between s c fl u) {j : Nat} {vals : List Nat}
    (htag : r.a.tag = 0 ∨ vtag s (addrAt r.a (0, 0, 0, j)).toNat = r.a.tag) (hvals : j = 0 ∨ vals = [(redAcc s op r c j).1])
    (hd : r.d.space = 2#4 ∨ spAt s r c r.d + elemSize r.a.tag.toNat ≤ 0x40_0000) :
    issueRed (vctxOf s op r c) j (0, 0, 0, j) vals u = .ok (if j + 1 < r.n0.toNat then ([(redStep s op r c j).1], { ws := [], fl := (redStep s op r c j).2, kat := [] })
      else ([], { ws := [redWr s r c (redStep s op r c j).1], fl := (redStep s op r c j).2, kat := [(redStep s op r c j).1] })) := by
  have hstep : redJoin (vctxOf s op r c) j vals (redIssue (vctxOf s op r c) (vreg s (addrAt r.a (0, 0, 0, j)).toNat).toNat u) = redStep s op r c j := by
    rw [redIssue_between h]
    exact redJoin_step hvals
  unfold issueRed
  dsimp only [vctxOf_r]
  rw [readReg_between h htag, addr_d hb hkat hop]
  dsimp only
  simp only [hstep, hkat, Bool.false_eq_true, if_false]
  by_cases hj : j + 1 < r.n0.toNat
  · simp only [hj, if_true]
  · simp only [hj, if_false]
    unfold redWr
    by_cases hsp : r.d.space = 2#4
    · simp only [hsp, if_true]
      rfl
    · simp only [hsp, if_false]
      rw [writeSp_between h (a := (r.d.base.toNat : Int)) (hd.resolve_left hsp)]
      rfl

theorem places_succ (m j : Nat) : (List.range (m + 1)).map (fun i => (j + i, 0, 0, 0, j + i)) =
    (j, 0, 0, 0, j) :: (List.range m).map fun i => (j + 1 + i, 0, 0, 0, j + 1 + i) := by
  rw [List.range_succ_eq_map, List.map_cons, List.map_map, Nat.add_zero]
  congr 1
  refine List.map_congr_left fun i _ => ?_
  rw [Function.comp_apply, Nat.succ_eq_add_one, Nat.add_assoc, Nat.add_comm 1 i]

/-- What the issue at j makes: the group's result with the last one. -/
def redOut (s : State) (op : Nat) (r : Rec) (c : BitVec 32) (j : Nat) : List Nat × VOut :=
  if j + 1 < r.n0.toNat then ([(redStep s op r c j).1], { ws := [], fl := (redStep s op r c j).2, kat := [] })
  else ([], { ws := [redWr s r c (redStep s op r c j).1], fl := (redStep s op r c j).2, kat := [(redStep s op r c j).1] })

section
variable (hb : begins s 0 op r c) (hred : isRed op = true) (hop : (vecEntry op).dS ≠ [] ∧ 4 ∉ (vecEntry op).dS) (hkat : r.kat = false) (hecc : s.ecc = [])
  (htag : ∀ i, i < r.n0.toNat → r.a.tag = 0 ∨ vtag s (addrAt r.a (0, 0, 0, i)).toNat = r.a.tag)
  (hd : r.d.space = 2#4 ∨ spAt s r c r.d + elemSize r.a.tag.toNat ≤ 0x40_0000)
include hb hred hop hkat hecc htag hd

/-- One issue of a group among the others. -/
theorem runVec_step {j : Nat} (hj : j < r.n0.toNat) (es : List (Nat × Nat × Nat × Nat × Nat)) {g : Part} (h : Between s c fl u)
    (hvals : j = 0 ∨ g.vals = [(redAcc s op r c j).1]) : runVec (vctxOf s op r c) ((j, 0, 0, 0, j) :: es) g u =
      runVec (vctxOf s op r c) es { g with vals := (redOut s op r c j).1 }
        (addFlags ((redOut s op r c j).2.ws.foldl (applyWr s.cur) u) s.cur (redOut s op r c j).2.fl) := by
  have hissue : issueRed (vctxOf s op r c) j (0, 0, 0, j) g.vals u = .ok (redOut s op r c j) := issueRed_between hb hop hkat h (htag j hj) hvals hd
  have hout : vecOut (vctxOf s op r c) j (0, 0, 0, j) g.vals u = issueRed (vctxOf s op r c) j (0, 0, 0, j) g.vals u := if_pos hred
  have hecc' : u.ecc = [] := by
    rw [h.rest]
    exact hecc
  have hfix : vecFix (vctxOf s op r c) (0, 0, 0, j) u = u := vecFix_plain (.inl hecc') _
  have happly (o : VOut) (sig : Word) : vecApply (vctxOf s op r c) o sig u = (sig, addFlags (o.ws.foldl (applyWr s.cur) u) s.cur o.fl) :=
    if_neg fun e => absurd (hkat.symm.trans e) Bool.false_ne_true
  rw [runVec, hout, hissue]
  dsimp only
  rw [hfix, happly]

/-- The issues of a group from the one at j on. -/
theorem runVec_group (m j : Nat) (hm : j + (m + 1) = r.n0.toNat) (u : State) (g : Part)
    (h : Between s c (redAcc s op r c j).2 u) (hvals : j = 0 ∨ g.vals = [(redAcc s op r c j).1]) :
    ∃ (g' : Part) (u' : State) (fl g2 : Word), Between s c fl u' ∧ fl ||| g2 = (redAcc s op r c r.n0.toNat).2 ∧
      runVec (vctxOf s op r c) ((List.range (m + 1)).map fun i => (j + i, 0, 0, 0, j + i)) g u =
        .ok (g', addFlags ([redWr s r c (redAcc s op r c r.n0.toNat).1].foldl (applyWr s.cur) u') s.cur g2) := by
  induction m generalizing j u g with
  | zero =>
    have hlast : redOut s op r c j = ([], { ws := [redWr s r c (redStep s op r c j).1], fl := (redStep s op r c j).2, kat := [(redStep s op r c j).1] }) := if_neg (by omega)
    refine ⟨{ g with vals := (redOut s op r c j).1 }, u, _, (redStep s op r c j).2, h, ?_, ?_⟩
    · rw [← hm, redAcc_succ]
    · rw [places_succ, runVec_step hb hred hop hkat hecc htag hd (by omega) _ h hvals, ← hm, redAcc_succ, hlast]
      rfl
  | succ m ih =>
    have hmid : redOut s op r c j = ([(redStep s op r c j).1], { ws := [], fl := (redStep s op r c j).2, kat := [] }) := if_pos (by omega)
    rw [places_succ, runVec_step hb hred hop hkat hecc htag hd (by omega) _ h hvals, hmid]
    exact ih (j + 1) (by omega) _ _ (between_addFlags h _) (.inr rfl)

end

/-- The issues of a group are those of its innermost loop. -/
theorem issues_group (h1 : r.n1 = 1) (h2 : r.n2 = 1) (h3 : r.n3 = 1) : issues r = (List.range r.n0.toNat).map (fun j => (j, 0, 0, 0, j)) ∧ (nest r).length = r.n0.toNat ∧
    nest r = (List.range r.n0.toNat).map fun j => (0, 0, 0, j) := by
  have hnest : nest r = (List.range r.n0.toNat).map fun j => (0, 0, 0, j) := by
    unfold nest
    rw [h1, h2, h3]
    simp
  refine ⟨?_, by rw [hnest, List.length_map, List.length_range], hnest⟩
  unfold issues
  rw [hnest]
  refine List.ext_getElem (by simp) fun j h1 h2 => ?_
  simp

theorem vecStart_group_tags (hop : op = 0x48 ∨ op = 0x49 ∨ op = 0x4A) (h1 : r.n1 = 1) (h2 : r.n2 = 1) (h3 : r.n3 = 1) (hb : begins s 0 op r c)
    (htag : ∀ i, i < r.n0.toNat → r.a.tag = 0 ∨ vtag s (addrAt r.a (0, 0, 0, i)).toNat = r.a.tag) : vecStart (vctxOf s op r c) (begun s c) = none := by
  obtain ⟨-, -, hnest⟩ := issues_group h1 h2 h3
  have hvtag (m : Nat) : tget ((begun s c).co s.cur).vtags m 0 = vtag s m := by
    rw [begun_core hb, vtags_setQueue]
    rfl
  by_cases h48 : op = 0x48
  · have hno : ¬((nest r).any fun i => decide (r.a.tag ≠ 0#8) && tget ((begun s c).co s.cur).vtags (addrAt r.a i).toNat 0 != r.a.tag) = true := by
      rw [hnest, List.any_map, List.any_eq_true]
      rintro ⟨j, hj, hbad⟩
      rw [Function.comp_apply, Bool.and_eq_true, decide_eq_true_eq, bne_iff_ne, hvtag] at hbad
      exact (htag j (List.mem_range.mp hj)).elim hbad.1 hbad.2
    have hno2 : ¬((vctxOf s op r c).op = 0x0A ∨ (vctxOf s op r c).op = 0x0B) := by
      rw [vctxOf_op, h48]
      decide
    unfold vecStart
    dsimp only
    rw [if_neg hno2, if_pos (show (vctxOf s op r c).op = 0x48 from h48)]
    exact if_neg hno
  · refine vecStart_none ⟨?_, ?_, h48⟩ _
    · rcases hop with h | h | h <;> omega
    · rcases hop with h | h | h <;> omega

/-- The turn of a reduction of one group. -/
theorem exec_group {i : Instr} {k : BitVec 8} (hparts : recParts i = some (0#4, k, r)) (hk : k.toNat = 0x48 ∨ k.toNat = 0x49 ∨ k.toNat = 0x4A)
    (hb : begins s 0 k.toNat r c) (hfull : vecFull s s.cur r = true) (h1 : r.n1 = 1) (h2 : r.n2 = 1) (h3 : r.n3 = 1) (hkat : r.kat = false) (hecc : s.ecc = [])
    (htag : ∀ i, i < r.n0.toNat → r.a.tag = 0 ∨ vtag s (addrAt r.a (0, 0, 0, i)).toNat = r.a.tag)
    (hd : r.d.space = 2#4 ∨ spAt s r c r.d + elemSize r.a.tag.toNat ≤ 0x40_0000) :
    ∃ t u, exec i s = .next t ∧ VecDone s c [redWr s r c (redAcc s k.toNat r c r.n0.toNat).1] (redAcc s k.toNat r c r.n0.toNat).2 [] t ∧
      u.mem = s.mem ∧ u.ecc = s.ecc ∧ t.mem = (applyWr s.cur u (redWr s r c (redAcc s k.toNat r c r.n0.toNat).1)).mem ∧
      t.ecc = (applyWr s.cur u (redWr s r c (redAcc s k.toNat r c r.n0.toNat).1)).ecc := by
  have hred : isRed k.toNat = true := by rcases hk with h | h | h <;> rw [h] <;> rfl
  have hop : (vecEntry k.toNat).dS ≠ [] ∧ 4 ∉ (vecEntry k.toNat).dS := by rcases hk with h | h | h <;> rw [h] <;> decide
  obtain ⟨hissues, hlen, -⟩ := issues_group h1 h2 h3
  have hpos : 0 < r.n0.toNat := by
    have hz := begins_zeroTrip hb
    refine Nat.pos_of_ne_zero fun h0 => ?_
    unfold Rec.zeroTrip Rec.n at hz
    rw [h0] at hz
    exact absurd hz (by simp)
  have hstart := vecStart_group_tags hk h1 h2 h3 hb htag
  obtain ⟨m, hm⟩ := Nat.exists_eq_add_of_le' hpos
  obtain ⟨g', u, fl, g2, hu, hfl, hrun⟩ := runVec_group hb hred hop hkat hecc htag hd m 0 (by omega) (begun s c) (begunFlight s c).part (between_begun hb) (.inl rfl)
  have hplaces : issues r = (List.range (m + 1)).map fun i => (0 + i, 0, 0, 0, 0 + i) := by
    rw [hissues, hm]
    refine List.map_congr_left fun i _ => ?_
    rw [Nat.zero_add]
  rw [← hplaces] at hrun
  have hkk : (⟨s.cur, k.toNat, r, secondHalf s r c, (begunFlight s c).tie⟩ : VCtx) = vctxOf s k.toNat r c := rfl
  have hidx : (begunFlight s c).idx = 0 := rfl
  have hturn : inTurn (begun s c) ((issues r).drop 0) = issues r := by
    unfold inTurn
    rw [begun_lim hb]
    rfl
  have hbody : bodyOf (begun s c) s.cur (begunFlight s c) 0 k.toNat r (secondHalf s r c) =
      .done ⟨[], r.n0.toNat⟩ (addFlags ([redWr s r c (redAcc s k.toNat r c r.n0.toNat).1].foldl (applyWr s.cur) u) s.cur g2) := by
    unfold bodyOf vecEffect
    dsimp only
    rw [if_pos rfl, hkk, hidx, if_pos rfl, hstart]
    dsimp only
    rw [hturn, hrun]
    dsimp only
    rw [List.drop_zero, accwrTags_nil (by rcases hk with h | h | h <;> omega), hlen, hkat]
    unfold partOver
    rw [hkat]
    simp
  refine ⟨_, u, exec_of_body hparts (by decide) hb (fun _ => hfull) hbody, ?_, ?_, ?_, rfl, rfl⟩
  · rw [← hfl]
    exact vecDone_between hb hu _ _ ⟨[], r.n0.toNat⟩
  · rw [hu.rest]
  · rw [hu.rest]

end

end Sys2Proof.Machine
end

section
/-! What the tree of a reduction gives of integer lanes, and the reductions' results (R156, R206, R207). -/
namespace Sys2Proof.Machine
set_option Elab.async false
open Safety

/-! ### Trees -/

/-- A step of the tree, half against half. -/
theorem rtreeStep_fst (op : Nat → Nat → Fl Nat) (m : Nat) (xs : List Nat) :
    (rtreeStep op m xs).1 = List.zipWith (fun a b => (op a b).1) (xs.take m) (xs.drop m) := by
  unfold rtreeStep
  dsimp only
  rw [List.map_zipWith]

theorem length_rtreeStep (op : Nat → Nat → Fl Nat) {n : Nat} {xs : List Nat} (h : xs.length = 2 ^ (n + 1)) : (rtreeStep op (2 ^ n) xs).1.length = 2 ^ n := by
  rw [rtreeStep_fst, List.length_zipWith, List.length_take, List.length_drop, h, pow_succ]
  omega

theorem of_mem_rtreeStep {op : Nat → Nat → Fl Nat} {m x : Nat} {xs : List Nat} (hx : x ∈ (rtreeStep op m xs).1) : ∃ a ∈ xs, ∃ b ∈ xs, x = (op a b).1 := by
  rw [rtreeStep_fst, ← List.map_uncurry_zip_eq_zipWith] at hx
  obtain ⟨⟨a, b⟩, hab, rfl⟩ := List.mem_map.mp hx
  exact ⟨a, List.mem_of_mem_take (List.of_mem_zip hab).1, b, List.mem_of_mem_drop (List.of_mem_zip hab).2, rfl⟩

theorem sum_zipWith (f : Nat → Nat → Nat) (w : Nat) {as bs : List Nat} (hlen : as.length = bs.length)
    (hf : ∀ a ∈ as, ∀ b ∈ bs, (f a b : Int) % 2 ^ w = ((a : Int) + b) % 2 ^ w) :
    ((List.zipWith f as bs).map (Nat.cast (R := Int))).sum % 2 ^ w = ((as.map (Nat.cast (R := Int))).sum + (bs.map (Nat.cast (R := Int))).sum) % 2 ^ w := by
  induction as generalizing bs with
  | nil =>
    match bs, hlen with
    | [], _ => rfl
  | cons a as ih =>
    match bs, hlen with
    | b :: bs, hlen =>
      have htail := ih (Nat.succ.inj hlen) fun x hx y hy => hf x (List.mem_cons_of_mem _ hx) y (List.mem_cons_of_mem _ hy)
      have hhead := hf a List.mem_cons_self b List.mem_cons_self
      simp only [List.zipWith_cons_cons, List.map_cons, List.sum_cons]
      rw [Int.add_emod, hhead, htail, ← Int.add_emod]
      congr 1
      ring

theorem sum_emod_congr {f g : Nat → Int} {w : Nat} (l : List Nat) (h : ∀ j, f j % 2 ^ w = g j % 2 ^ w) : (l.map f).sum % 2 ^ w = (l.map g).sum % 2 ^ w := by
  induction l with
  | nil => rfl
  | cons j l ih => rw [List.map_cons, List.sum_cons, List.map_cons, List.sum_cons, Int.add_emod, h, ih, ← Int.add_emod]

/-- The wrapping sum over a tree is the sum of its leaves. -/
theorem rtree_sum {w : Nat} {op : Nat → Nat → Fl Nat} (hop : ∀ a b, a < 2 ^ w → b < 2 ^ w → (op a b).1 < 2 ^ w ∧ ((op a b).1 : Int) % 2 ^ w = ((a : Int) + b) % 2 ^ w)
    (n : Nat) {xs : List Nat} (hlen : xs.length = 2 ^ n) (h : ∀ x ∈ xs, x < 2 ^ w) :
    (rtree op n xs).1 < 2 ^ w ∧ ((rtree op n xs).1 : Int) % 2 ^ w = (xs.map (Nat.cast (R := Int))).sum % 2 ^ w := by
  induction n generalizing xs with
  | zero =>
    match xs, hlen with
    | [x], _ => exact ⟨h x (List.mem_singleton_self x), by simp [rtree]⟩
  | succ n ih =>
    have hstep : ∀ x ∈ (rtreeStep op (2 ^ n) xs).1, x < 2 ^ w := fun x hx => by
      obtain ⟨a, ha, b, hb, rfl⟩ := of_mem_rtreeStep hx
      exact (hop a b (h a ha) (h b hb)).1
    have hsplit : (xs.map (Nat.cast (R := Int))).sum = ((xs.take (2 ^ n)).map (Nat.cast (R := Int))).sum + ((xs.drop (2 ^ n)).map (Nat.cast (R := Int))).sum := by
      rw [← List.sum_append, ← List.map_append, List.take_append_drop]
    obtain ⟨hlt, hsum⟩ := ih (length_rtreeStep op hlen) hstep
    refine ⟨hlt, hsum.trans ?_⟩
    rw [rtreeStep_fst, hsplit]
    refine sum_zipWith _ w (by rw [List.length_take, List.length_drop, hlen, pow_succ]; omega) fun a ha b hb => ?_
    exact (hop a b (h a (List.mem_of_mem_take ha)) (h b (List.mem_of_mem_drop hb))).2

/-- A tree of choices gives a leaf with the highest key. -/
theorem rtree_best {w : Nat} {op : Nat → Nat → Fl Nat} {key : Nat → Int}
    (hop : ∀ a b, a < 2 ^ w → b < 2 ^ w → ((op a b).1 = a ∨ (op a b).1 = b) ∧ key a ≤ key (op a b).1 ∧ key b ≤ key (op a b).1)
    (n : Nat) {xs : List Nat} (hlen : xs.length = 2 ^ n) (h : ∀ x ∈ xs, x < 2 ^ w) :
    (rtree op n xs).1 ∈ xs ∧ ∀ x ∈ xs, key x ≤ key (rtree op n xs).1 := by
  induction n generalizing xs with
  | zero =>
    match xs, hlen with
    | [x], _ => exact ⟨List.mem_singleton_self x, fun y hy => by rw [List.mem_singleton.mp hy]; exact le_refl _⟩
  | succ n ih =>
    have hmem : ∀ x ∈ (rtreeStep op (2 ^ n) xs).1, x ∈ xs := fun x hx => by
      obtain ⟨a, ha, b, hb, rfl⟩ := of_mem_rtreeStep hx
      rcases (hop a b (h a ha) (h b hb)).1 with e | e
      · exact e.symm ▸ ha
      · exact e.symm ▸ hb
    obtain ⟨hin, hbest⟩ := ih (length_rtreeStep op hlen) fun x hx => h x (hmem x hx)
    refine ⟨hmem _ hin, fun x hx => ?_⟩
    obtain ⟨j, hj, rfl⟩ := List.mem_iff_getElem.mp hx
    have hpow : 2 ^ (n + 1) = 2 ^ n + 2 ^ n := by rw [pow_succ]; omega
    have hget (i : Nat) (hi : i < 2 ^ n) : (op (xs[i]'(by omega)) (xs[2 ^ n + i]'(by omega))).1 ∈ (rtreeStep op (2 ^ n) xs).1 := by
      rw [rtreeStep_fst]
      refine List.mem_iff_getElem.mpr ⟨i, ?_, ?_⟩
      · rw [List.length_zipWith, List.length_take, List.length_drop]
        omega
      · rw [List.getElem_zipWith, List.getElem_take, List.getElem_drop]
    by_cases hlo : j < 2 ^ n
    · exact (hop _ _ (h _ (List.getElem_mem _)) (h _ (List.getElem_mem _))).2.1.trans (hbest _ (hget j hlo))
    · obtain ⟨i, rfl⟩ := Nat.exists_eq_add_of_le (Nat.le_of_not_lt hlo)
      exact (hop _ _ (h _ (List.getElem_mem _)) (h _ (List.getElem_mem _))).2.2.trans (hbest _ (hget i (by omega)))

/-! ### Integer lanes -/

theorem two_pow_pred {w : Nat} (hw : 0 < w) : (2 : Int) ^ w = 2 * 2 ^ (w - 1) := by
  obtain ⟨m, rfl⟩ := Nat.exists_eq_add_of_le' hw
  rw [Nat.add_sub_cancel, pow_succ]
  ring

theorem intOf_range {w : Nat} (hw : 0 < w) (sg : Bool) {x : Nat} (h : x < 2 ^ w) : (intRange w sg).1 ≤ intOf w sg x ∧ intOf w sg x ≤ (intRange w sg).2 := by
  have hcast : ((2 ^ w : Nat) : Int) = 2 ^ w := by push_cast; rfl
  have hhalf : ((2 ^ (w - 1) : Nat) : Int) = 2 ^ (w - 1) := by push_cast; rfl
  have hdouble := two_pow_pred hw
  unfold intRange intOf
  cases sg with
  | false =>
    simp only [Bool.false_and, Bool.false_eq_true, if_false]
    omega
  | true =>
    simp only [Bool.true_and, decide_eq_true_eq, if_true]
    split_ifs <;> omega

/-- The integer of a value in the range of its width is the value. -/
theorem intOf_wrapBits {w : Nat} (hw : 0 < w) (sg : Bool) {v : Int} (h : (intRange w sg).1 ≤ v ∧ v ≤ (intRange w sg).2) : intOf w sg (wrapBits w v) = v := by
  have hcast : ((2 ^ w : Nat) : Int) = 2 ^ w := by push_cast; rfl
  have hhalf : ((2 ^ (w - 1) : Nat) : Int) = 2 ^ (w - 1) := by push_cast; rfl
  have hdouble := two_pow_pred hw
  have hpos : (0 : Int) < 2 ^ (w - 1) := by positivity
  have hmod : ((wrapBits w v : Nat) : Int) = v % 2 ^ w := Int.toNat_of_nonneg (Int.emod_nonneg _ (by omega))
  unfold intRange at h
  unfold intOf
  cases sg with
  | false =>
    simp only [Bool.false_eq_true, if_false] at h
    simp only [Bool.false_and, Bool.false_eq_true, if_false]
    rw [hmod, Int.emod_eq_of_lt h.1 (by omega)]
  | true =>
    simp only [if_true] at h
    simp only [Bool.true_and, decide_eq_true_eq]
    by_cases hneg : v < 0
    · have hval : v % 2 ^ w = v + 2 ^ w := by
        rw [← Int.add_emod_right, Int.emod_eq_of_lt (by omega) (by omega)]
      rw [if_pos (by omega), hmod, hval]
      omega
    · have hval : v % 2 ^ w = v := Int.emod_eq_of_lt (by omega) (by omega)
      rw [if_neg (by omega), hmod, hval]

/-- An integer is congruent to the lane that it is read from. -/
theorem intOf_emod (w : Nat) (sg : Bool) (x : Nat) : intOf w sg x % 2 ^ w = (x : Int) % 2 ^ w := by
  unfold intOf
  split_ifs
  · exact Int.sub_emod_right _ _
  · rfl

section
variable {w : Nat} (sg : Bool) {a b : Nat} (ha : a < 2 ^ w) (hb : b < 2 ^ w)

theorem wrapBits_sum : wrapBits w (intOf w sg a + intOf w sg b) < 2 ^ w ∧ ((wrapBits w (intOf w sg a + intOf w sg b) : Nat) : Int) % 2 ^ w = ((a : Int) + b) % 2 ^ w := by
  refine ⟨wrapBits_lt _ _, ?_⟩
  have hmod : ((wrapBits w (intOf w sg a + intOf w sg b) : Nat) : Int) = (intOf w sg a + intOf w sg b) % 2 ^ w :=
    Int.toNat_of_nonneg (Int.emod_nonneg _ (by positivity))
  rw [hmod, Int.emod_emod, Int.add_emod, intOf_emod, intOf_emod, ← Int.add_emod]

include ha hb

theorem wrapBits_max : (wrapBits w (max (intOf w sg a) (intOf w sg b)) = a ∨ wrapBits w (max (intOf w sg a) (intOf w sg b)) = b) ∧
    intOf w sg a ≤ intOf w sg (wrapBits w (max (intOf w sg a) (intOf w sg b))) ∧ intOf w sg b ≤ intOf w sg (wrapBits w (max (intOf w sg a) (intOf w sg b))) := by
  rcases le_total (intOf w sg a) (intOf w sg b) with h | h
  · rw [max_eq_right h, wrapBits_intOf w sg hb]
    exact ⟨.inr rfl, h, le_refl _⟩
  · rw [max_eq_left h, wrapBits_intOf w sg ha]
    exact ⟨.inl rfl, le_refl _, h⟩

theorem wrapBits_min : (wrapBits w (min (intOf w sg a) (intOf w sg b)) = a ∨ wrapBits w (min (intOf w sg a) (intOf w sg b)) = b) ∧
    -intOf w sg a ≤ -intOf w sg (wrapBits w (min (intOf w sg a) (intOf w sg b))) ∧ -intOf w sg b ≤ -intOf w sg (wrapBits w (min (intOf w sg a) (intOf w sg b))) := by
  rcases le_total (intOf w sg a) (intOf w sg b) with h | h
  · rw [min_eq_left h, wrapBits_intOf w sg ha]
    exact ⟨.inl rfl, le_refl _, neg_le_neg h⟩
  · rw [min_eq_right h, wrapBits_intOf w sg hb]
    exact ⟨.inr rfl, neg_le_neg h, le_refl _⟩

end

/-- The best of the leaves, where those that do not count hold the least of keys. -/
theorem best_of_leaves {n : Nat} {on : Nat → Bool} {leaf key : Nat → Int} {z v : Int} (hz : ∀ j, j < n → z ≤ key j)
    (hleaf : ∀ j, leaf j = if on j then key j else z) (hmem : ∃ j, j < n ∧ v = leaf j) (hbest : ∀ j, j < n → leaf j ≤ v) :
    (∀ j, j < n → on j = true → key j ≤ v) ∧ ((∃ j, j < n ∧ on j = true) → ∃ j, j < n ∧ on j = true ∧ v = key j) := by
  have hon (j : Nat) (hj : j < n) (ho : on j = true) : key j ≤ v := by
    have h := hbest j hj
    rwa [hleaf, if_pos ho] at h
  refine ⟨hon, fun ⟨j, hj, ho⟩ => ?_⟩
  obtain ⟨m, hm, hv⟩ := hmem
  by_cases hom : on m = true
  · exact ⟨m, hm, hom, by rw [hv, hleaf, if_pos hom]⟩
  · rw [hleaf, if_neg hom] at hv
    have h1 := hon j hj ho
    have h2 := hz j hj
    exact ⟨j, hj, ho, by omega⟩

/-! ### The tree over the lanes of a register -/

section
variable {s : State} {op : Nat} {r : Rec} {c : BitVec 32}

/-- The leaf of a lane: its value, or the operation's identity where the lane is not active. -/
def redLeaf (s : State) (op : Nat) (r : Rec) (c : BitVec 32) (v : VWord) (j : Nat) : Nat :=
  if laneOn s r (laneCount r.a.tag.toNat) j then lane (laneBits r.a.tag.toNat) j v else redZero (vctxOf s op r c)

theorem redIssue_leaves (v : VWord) : redIssue (vctxOf s op r c) v.toNat s =
    rtree (redLane (vctxOf s op r c)) (laneCount r.a.tag.toNat).log2 ((List.range (laneCount r.a.tag.toNat)).map (redLeaf s op r c v)) := by
  have hmask : (vctxOf s op r c).mask s = (mreg s (r.mf 6 4)).toNat := readMask_toNat rfl _
  unfold redIssue
  dsimp only [vctxOf_r]
  rw [activeLanes_eq r _ hmask, lanesOf_vreg, zipWith_range]
  rfl

theorem laneCount_log2 (t : Nat) : laneCount t = 2 ^ (laneCount t).log2 := by
  rcases laneCount_cases t with h | h | h <;> rw [h] <;> decide

theorem laneBits_pos (t : Nat) : 0 < laneBits t := by
  have h := laneBits_mul t
  exact Nat.pos_of_ne_zero fun h0 => by rw [h0, Nat.zero_mul] at h; exact absurd h (by decide)

theorem redZero_int (htag : 3 ≤ r.a.tag.toNat) : redZero (vctxOf s op r c) = if op = 0x48 then 0 else
    wrapBits (laneBits r.a.tag.toNat) (if op = 0x49 then (intRange (laneBits r.a.tag.toNat) (tagSigned r.a.tag.toNat)).1
      else (intRange (laneBits r.a.tag.toNat) (tagSigned r.a.tag.toNat)).2) := by
  have hno : ¬(vctxOf s op r c).r.a.tag.toNat ≤ 2 := Nat.not_le.mpr htag
  unfold redZero
  dsimp only
  rw [if_neg hno]
  rfl

theorem redLane_int (htag : 3 ≤ r.a.tag.toNat) (a b : Nat) : redLane (vctxOf s op r c) a b =
    if op = 0x48 then intLane 0x20 r.a.tag.toNat (r.mods.getLsbD 3) a b else intLane (if op = 0x49 then 0x29 else 0x28) r.a.tag.toNat false a b := by
  have hno : ¬(vctxOf s op r c).r.a.tag.toNat ≤ 2 := Nat.not_le.mpr htag
  unfold redLane
  dsimp only
  rw [if_neg hno]
  rfl

theorem redLeaf_lt (htag : 3 ≤ r.a.tag.toNat) (v : VWord) (j : Nat) : redLeaf s op r c v j < 2 ^ laneBits r.a.tag.toNat := by
  unfold redLeaf
  split_ifs
  · exact lane_lt _ _ _
  · rw [redZero_int htag]
    split_ifs
    · exact Nat.two_pow_pos _
    all_goals exact wrapBits_lt _ _

/-- The leaves of a register, each below 2 to the width of its lanes. -/
theorem redLeaves_lt (htag : 3 ≤ r.a.tag.toNat) (v : VWord) : ∀ y ∈ (List.range (laneCount r.a.tag.toNat)).map (redLeaf s op r c v), y < 2 ^ laneBits r.a.tag.toNat := by
  intro y hy
  obtain ⟨j, -, rfl⟩ := List.mem_map.mp hy
  exact redLeaf_lt htag v j

theorem length_redLeaves (v : VWord) : ((List.range (laneCount r.a.tag.toNat)).map (redLeaf s op r c v)).length = 2 ^ (laneCount r.a.tag.toNat).log2 := by
  rw [List.length_map, List.length_range]
  exact laneCount_log2 _

section
variable {x : Nat → Int} {v : VWord} (htag : 3 ≤ r.a.tag.toNat)
  (hx : ∀ j, x j = intOf (laneBits r.a.tag.toNat) (tagSigned r.a.tag.toNat) (lane (laneBits r.a.tag.toNat) j v))
include htag hx

theorem rsum_lanes (hop : op = 0x48) (hsat : r.mods.getLsbD 3 = false) : ((redIssue (vctxOf s op r c) v.toNat s).1 : Int) =
    ((List.range (laneCount r.a.tag.toNat)).map fun j => if laneOn s r (laneCount r.a.tag.toNat) j then x j else 0).foldl (· + ·) 0 % 2 ^ laneBits r.a.tag.toNat := by
  have hlane (a b : Nat) (_ : a < 2 ^ laneBits r.a.tag.toNat) (_ : b < 2 ^ laneBits r.a.tag.toNat) :
      (redLane (vctxOf s op r c) a b).1 < 2 ^ laneBits r.a.tag.toNat ∧
        ((redLane (vctxOf s op r c) a b).1 : Int) % 2 ^ laneBits r.a.tag.toNat = ((a : Int) + b) % 2 ^ laneBits r.a.tag.toNat := by
    rw [redLane_int htag, if_pos hop, hsat]
    exact wrapBits_sum _
  obtain ⟨hlt, hsum⟩ := rtree_sum hlane _ (length_redLeaves (s := s) (op := op) (c := c) v) (redLeaves_lt htag v)
  rw [← redIssue_leaves] at hlt hsum
  have hcast : ((2 ^ laneBits r.a.tag.toNat : Nat) : Int) = 2 ^ laneBits r.a.tag.toNat := by push_cast; rfl
  rw [Int.emod_eq_of_lt (by omega) (by omega), List.map_map] at hsum
  rw [hsum, ← List.sum_eq_foldl]
  refine sum_emod_congr _ fun j => ?_
  simp only [Function.comp_apply]
  unfold redLeaf
  split_ifs
  · rw [hx, intOf_emod]
  · rw [redZero_int htag, if_pos hop]
    rfl

theorem rmax_lanes (hop : op = 0x49) :
    (∀ j, j < laneCount r.a.tag.toNat → laneOn s r (laneCount r.a.tag.toNat) j = true →
      x j ≤ intOf (laneBits r.a.tag.toNat) (tagSigned r.a.tag.toNat) (redIssue (vctxOf s op r c) v.toNat s).1) ∧
    ((∃ j, j < laneCount r.a.tag.toNat ∧ laneOn s r (laneCount r.a.tag.toNat) j = true) → ∃ j, j < laneCount r.a.tag.toNat ∧
      laneOn s r (laneCount r.a.tag.toNat) j = true ∧ intOf (laneBits r.a.tag.toNat) (tagSigned r.a.tag.toNat) (redIssue (vctxOf s op r c) v.toNat s).1 = x j) := by
  have hlane (a b : Nat) (ha : a < 2 ^ laneBits r.a.tag.toNat) (hb : b < 2 ^ laneBits r.a.tag.toNat) :
      ((redLane (vctxOf s op r c) a b).1 = a ∨ (redLane (vctxOf s op r c) a b).1 = b) ∧
        intOf (laneBits r.a.tag.toNat) (tagSigned r.a.tag.toNat) a ≤ intOf (laneBits r.a.tag.toNat) (tagSigned r.a.tag.toNat) (redLane (vctxOf s op r c) a b).1 ∧
        intOf (laneBits r.a.tag.toNat) (tagSigned r.a.tag.toNat) b ≤ intOf (laneBits r.a.tag.toNat) (tagSigned r.a.tag.toNat) (redLane (vctxOf s op r c) a b).1 := by
    rw [redLane_int htag, if_neg (by omega), if_pos hop]
    exact wrapBits_max _ ha hb
  obtain ⟨hmem, hbest⟩ := rtree_best hlane _ (length_redLeaves v) (redLeaves_lt htag v)
  rw [← redIssue_leaves] at hmem hbest
  obtain ⟨m, hm, hv⟩ := List.mem_map.mp hmem
  refine best_of_leaves (leaf := fun j => intOf (laneBits r.a.tag.toNat) (tagSigned r.a.tag.toNat) (redLeaf s op r c v j))
    (z := (intRange (laneBits r.a.tag.toNat) (tagSigned r.a.tag.toNat)).1) (fun j _ => ?_) (fun j => ?_) ⟨m, List.mem_range.mp hm, by rw [hv]⟩
    (fun j hj => hbest _ (List.mem_map.mpr ⟨j, List.mem_range.mpr hj, rfl⟩))
  · rw [hx]
    exact (intOf_range (laneBits_pos _) _ (lane_lt _ _ _)).1
  · unfold redLeaf
    split_ifs
    · rw [hx]
    · rw [redZero_int htag, if_neg (by omega), if_pos hop]
      exact intOf_wrapBits (laneBits_pos _) _ ⟨le_refl _, intRange_le _ _⟩

theorem rmin_lanes (hop : op = 0x4A) :
    (∀ j, j < laneCount r.a.tag.toNat → laneOn s r (laneCount r.a.tag.toNat) j = true →
      intOf (laneBits r.a.tag.toNat) (tagSigned r.a.tag.toNat) (redIssue (vctxOf s op r c) v.toNat s).1 ≤ x j) ∧
    ((∃ j, j < laneCount r.a.tag.toNat ∧ laneOn s r (laneCount r.a.tag.toNat) j = true) → ∃ j, j < laneCount r.a.tag.toNat ∧
      laneOn s r (laneCount r.a.tag.toNat) j = true ∧ intOf (laneBits r.a.tag.toNat) (tagSigned r.a.tag.toNat) (redIssue (vctxOf s op r c) v.toNat s).1 = x j) := by
  have hlane (a b : Nat) (ha : a < 2 ^ laneBits r.a.tag.toNat) (hb : b < 2 ^ laneBits r.a.tag.toNat) :
      ((redLane (vctxOf s op r c) a b).1 = a ∨ (redLane (vctxOf s op r c) a b).1 = b) ∧
        -intOf (laneBits r.a.tag.toNat) (tagSigned r.a.tag.toNat) a ≤ -intOf (laneBits r.a.tag.toNat) (tagSigned r.a.tag.toNat) (redLane (vctxOf s op r c) a b).1 ∧
        -intOf (laneBits r.a.tag.toNat) (tagSigned r.a.tag.toNat) b ≤ -intOf (laneBits r.a.tag.toNat) (tagSigned r.a.tag.toNat) (redLane (vctxOf s op r c) a b).1 := by
    rw [redLane_int htag, if_neg (by omega), if_neg (by omega)]
    exact wrapBits_min _ ha hb
  obtain ⟨hmem, hbest⟩ := rtree_best (key := fun a => -intOf (laneBits r.a.tag.toNat) (tagSigned r.a.tag.toNat) a) hlane _ (length_redLeaves v) (redLeaves_lt htag v)
  rw [← redIssue_leaves] at hmem hbest
  obtain ⟨m, hm, hv⟩ := List.mem_map.mp hmem
  have hz (j : Nat) (_ : j < laneCount r.a.tag.toNat) : -(intRange (laneBits r.a.tag.toNat) (tagSigned r.a.tag.toNat)).2 ≤ -x j := by
    rw [hx]
    exact neg_le_neg (intOf_range (laneBits_pos _) _ (lane_lt _ _ _)).2
  have hleaf (j : Nat) : -intOf (laneBits r.a.tag.toNat) (tagSigned r.a.tag.toNat) (redLeaf s op r c v j) =
      if laneOn s r (laneCount r.a.tag.toNat) j then -x j else -(intRange (laneBits r.a.tag.toNat) (tagSigned r.a.tag.toNat)).2 := by
    unfold redLeaf
    split_ifs
    · rw [hx]
    · rw [redZero_int htag, if_neg (by omega), if_neg (by omega), intOf_wrapBits (laneBits_pos _) _ ⟨intRange_le _ _, le_refl _⟩]
  obtain ⟨hall, hex⟩ := best_of_leaves hz hleaf ⟨m, List.mem_range.mp hm, congrArg (fun y => -intOf (laneBits r.a.tag.toNat) (tagSigned r.a.tag.toNat) y) hv.symm⟩
    (fun j hj => hbest _ (List.mem_map.mpr ⟨j, List.mem_range.mpr hj, rfl⟩))
  exact ⟨fun j hj ho => neg_le_neg_iff.mp (hall j hj ho), fun h => (hex h).imp fun j ⟨hj, ho, e⟩ => ⟨hj, ho, neg_injective e⟩⟩

end

/-- The write of a reduction to a register. -/
theorem group_register {i : Instr} {k : BitVec 8} (hparts : recParts i = some (0#4, k, r)) (hk : k.toNat = 0x48 ∨ k.toNat = 0x49 ∨ k.toNat = 0x4A)
    (hb : begins s 0 k.toNat r c) (hfull : vecFull s s.cur r = true) (h1 : r.n1 = 1) (h2 : r.n2 = 1) (h3 : r.n3 = 1) (hkat : r.kat = false) (hecc : s.ecc = [])
    (htag : ∀ i, i < r.n0.toNat → r.a.tag = 0 ∨ vtag s (addrAt r.a (0, 0, 0, i)).toNat = r.a.tag) (hsp : r.d.space = 2#4) :
    completes i s fun t =>
      engineOnly s t ∧ accKept s t ∧ (t.co s.cur).masks = (s.co s.cur).masks ∧ started s c 0 false [] t ∧
      (t.co s.cur).vstatus = (s.co s.cur).vstatus ||| (redAcc s k.toNat r c r.n0.toNat).2 ∧
      vreg t r.d.base.toNat = BitVec.ofNat 1024 (redAcc s k.toNat r c r.n0.toNat).1 ∧
      vtag t r.d.base.toNat = r.d.tag ∧ ∀ m, m ≠ r.d.base.toNat → vreg t m = vreg s m ∧ vtag t m = vtag s m := by
  obtain ⟨t, u, hexec, hdone, humem, huecc, hmem, hecc'⟩ := exec_group hparts hk hb hfull h1 h2 h3 hkat hecc htag (.inl hsp)
  have hwr : redWr s r c (redAcc s k.toNat r c r.n0.toNat).1 = .reg r.d.base.toNat r.d.tag.toNat (redAcc s k.toNat r c r.n0.toNat).1 := if_pos hsp
  rw [hwr] at hdone hmem hecc'
  refine ⟨t, hexec, engineOnly_done hdone (hecc'.trans huecc) (hmem.trans humem) rfl, accKept_done hdone rfl rfl rfl, masks_done hdone, started_done hdone hb,
    vstatus_done hdone, ?_, ?_, fun m hm => ⟨?_, ?_⟩⟩
  · exact (vreg_done hdone _).trans ((tget_tput _ _ _ _ _).trans (if_pos rfl))
  · exact (vtag_done hdone _).trans (((tget_tput _ _ _ _ _).trans (if_pos rfl)).trans (BitVec.ofNat_toNat _ _))
  · exact (vreg_done hdone _).trans ((tget_tput _ _ _ _ _).trans (if_neg hm))
  · exact (vtag_done hdone _).trans ((tget_tput _ _ _ _ _).trans (if_neg hm))

/-- The write of a reduction to scratchpad. -/
theorem group_store {i : Instr} {k : BitVec 8} (hparts : recParts i = some (0#4, k, r)) (hk : k.toNat = 0x48 ∨ k.toNat = 0x49 ∨ k.toNat = 0x4A)
    (hb : begins s 0 k.toNat r c) (hfull : vecFull s s.cur r = true) (h1 : r.n1 = 1) (h2 : r.n2 = 1) (h3 : r.n3 = 1) (hkat : r.kat = false) (hecc : s.ecc = [])
    (htag : ∀ i, i < r.n0.toNat → r.a.tag = 0 ∨ vtag s (addrAt r.a (0, 0, 0, i)).toNat = r.a.tag) (hsp : r.d.space = 1#4)
    (hin : spAt s r c r.d + elemSize r.a.tag.toNat ≤ 0x40_0000) : completes i s fun t =>
      engineOnly s { t with mem := s.mem } ∧ accKept s t ∧ vregsKept s t ∧ (t.co s.cur).masks = (s.co s.cur).masks ∧
      started s c 0 false [] t ∧ (t.co s.cur).vstatus = (s.co s.cur).vstatus ||| (redAcc s k.toNat r c r.n0.toNat).2 ∧
      rdN t.mem (spKey s.cur (spAt s r c r.d)) (elemSize r.a.tag.toNat) = (redAcc s k.toNat r c r.n0.toNat).1 % 256 ^ elemSize r.a.tag.toNat ∧
      ∀ a, a < spKey s.cur (spAt s r c r.d) ∨ spKey s.cur (spAt s r c r.d) + elemSize r.a.tag.toNat ≤ a → memGet t.mem a = memGet s.mem a := by
  obtain ⟨t, u, hexec, hdone, humem, huecc, hmem, hecc'⟩ := exec_group hparts hk hb hfull h1 h2 h3 hkat hecc htag (.inr hin)
  have hwr : redWr s r c (redAcc s k.toNat r c r.n0.toNat).1 = .sp (spAt s r c r.d) (elemSize r.a.tag.toNat) (redAcc s k.toNat r c r.n0.toNat).1
      (2 ^ elemSize r.a.tag.toNat - 1) := if_neg (by rw [hsp]; decide)
  rw [hwr] at hdone hmem hecc'
  rw [applyWr_sp] at hmem hecc'
  have hwhole : (spWriteMasked u s.cur (spAt s r c r.d) (elemSize r.a.tag.toNat) (redAcc s k.toNat r c r.n0.toNat).1 (2 ^ elemSize r.a.tag.toNat - 1)).mem =
      wrN u.mem (spKey s.cur (spAt s r c r.d)) (elemSize r.a.tag.toNat) (redAcc s k.toNat r c r.n0.toNat).1 := by
    unfold spWriteMasked
    rw [if_pos rfl, spWrite_eq]
  refine ⟨t, hexec, engineOnly_done_mem hdone ?_ rfl, accKept_done hdone rfl rfl rfl, vregsKept_done hdone rfl rfl rfl, masks_done hdone, started_done hdone hb,
    vstatus_done hdone, ?_, fun a ha => ?_⟩
  · rw [hecc', hecc]
    exact spWriteMasked_ecc _ _ _ _ _ _ (huecc.trans hecc)
  · rw [hmem, hwhole, rdN_wrN]
  · rw [hmem, ← humem]
    exact memGet_spWriteMasked_out _ _ _ _ _ _ ha

end

/-- Each reduction: its value as `redOver` says it, what that is for integer lanes, and the write of D. -/
theorem reductionResults : Parts.ReductionResults := by
  intro s r c i op hi h1 h2 h3 hkat hecc hb hd hfull reg hreg htags
  obtain ⟨k, hparts, rfl⟩ : ∃ k : BitVec 8, recParts i = some (0#4, k, r) ∧ op = k.toNat := by
    simp only [List.mem_cons, Prod.mk.injEq, List.not_mem_nil, or_false] at hi
    rcases hi with ⟨rfl, rfl⟩ | ⟨rfl, rfl⟩ | ⟨rfl, rfl⟩
    · exact ⟨0x48#8, rfl, rfl⟩
    · exact ⟨0x49#8, rfl, rfl⟩
    · exact ⟨0x4A#8, rfl, rfl⟩
  have hk : k.toNat = 0x48 ∨ k.toNat = 0x49 ∨ k.toNat = 0x4A := by
    simp only [List.mem_cons, Prod.mk.injEq, List.not_mem_nil, or_false] at hi
    rcases hi with ⟨-, h⟩ | ⟨-, h⟩ | ⟨-, h⟩ <;> omega
  have htag (j : Nat) (hj : j < r.n0.toNat) : r.a.tag = 0 ∨ vtag s (addrAt r.a (0, 0, 0, j)).toNat = r.a.tag := by
    have h := htags j hj
    rwa [hreg] at h
  refine ⟨redAcc s k.toNat r c r.n0.toNat, fun k' hk' => ?_, fun hn0 h3le h6le n w x hn hw hx => ?_,
    fun hsp => group_register hparts hk hb hfull h1 h2 h3 hkat hecc htag hsp, fun hsp hin => group_store hparts hk hb hfull h1 h2 h3 hkat hecc htag hsp hin⟩
  · have hover := redOver_eq (s := s) (op := k.toNat) (c := c) r.n0.toNat 0 (fun i hi => htag i (by omega))
    simp only [Nat.zero_add] at hover
    rw [hk']
    exact hover
  · have haddr : addrAt r.a (0, 0, 0, (0 : Nat)) = (r.a.base.toNat : Int) := addr_a hb (by rcases hk with h | h | h <;> rw [h] <;> decide)
    have hv : (redAcc s k.toNat r c r.n0.toNat).1 = (redIssue (vctxOf s k.toNat r c) (vreg s r.a.base.toNat).toNat s).1 := by
      rw [hn0]
      show (redIssue (vctxOf s k.toNat r c) (vreg s (addrAt r.a (0, 0, 0, (0 : Nat))).toNat).toNat s).1 = _
      rw [haddr, Int.toNat_natCast]
    subst hn
    obtain rfl : w = laneBits r.a.tag.toNat := hw
    rw [← tagSigned_eq] at hx ⊢
    rw [hv]
    exact ⟨fun hop hsat => rsum_lanes h3le hx hop hsat, fun hop => rmax_lanes h3le hx hop, fun hop => rmin_lanes h3le hx hop⟩

/-- Settles O33: the conversions, the trits and the reductions, each as its part says. -/
theorem conversionsAndReductions : Obligations.ConversionsAndReductions := ⟨conversionResults, tritResults, reductionResults⟩

end Sys2Proof.Machine
end

section
/-! The copy engine (R211 to R215): the turn of a copy record, the runs that an issue reads and writes, and the semaphores that it raises. -/
namespace Sys2Proof.Machine
set_option Elab.async false
open Safety

/-! ### The record as its engine runs it -/

section
variable {s : State} {op : Nat} {r : Rec} {c : BitVec 32}

theorem begins_copy_curq (hb : begins s 2 op r c) : s.curq = 2#2 := BitVec.eq_of_toNat_eq (begins_curq hb (by decide))

theorem copyRun_begun (hb : begins s 2 op r c) : copyRun (begun s c) s.cur (begunFlight s c) r (secondHalf s r c) = Safety.copyRun s r c := by
  have hsc : (begun s c).sc s.cur = s.sc s.cur := by rw [begun_rest hb]; rfl
  unfold copyRun Safety.copyRun secondHalf
  rw [hsc, begins_copy_curq hb]
  rfl

theorem exec_copyRecord {i : Instr} {k : BitVec 8} (hparts : recParts i = some (2#4, k, r)) (hb : begins s 2 k.toNat r c) {l : Left} {u : State}
    (hbody : copyEffect (Safety.copyRun s r c) k.toNat 0 (begun s c) = .done l u) : exec i s = .next (endBody u s.cur 2#2 c l) := by
  have hexec := exec_of_body hparts (by decide) hb (fun h => absurd h (by decide)) (l := l) (u := u) (by
    show copyEffect (copyRun (begun s c) s.cur (begunFlight s c) r (secondHalf s r c)) k.toNat 0 (begun s c) = _
    rw [copyRun_begun hb, hbody])
  rwa [begins_copy_curq hb] at hexec

theorem exec_copyRecord_fault {i : Instr} {k : BitVec 8} (hparts : recParts i = some (2#4, k, r)) (hb : begins s 2 k.toNat r c) {cause detail idx : Nat} {val : Word}
    {u : State} (hbody : copyEffect (Safety.copyRun s r c) k.toNat 0 (begun s c) = .err (.fault cause detail val idx) u) :
    exec i s = .next (faulted u s.cur 2#2 c cause detail val idx) := by
  have hexec := exec_of_body_fault hparts (by decide) hb (fun h => absurd h (by decide)) (cause := cause) (detail := detail) (idx := idx) (val := val) (u := u) (by
    show copyEffect (copyRun (begun s c) s.cur (begunFlight s c) r (secondHalf s r c)) k.toNat 0 (begun s c) = _
    rw [copyRun_begun hb, hbody])
  rwa [begins_copy_curq hb] at hexec

theorem runFrom_one (hone : oneIssue r) {f : Nat → Nat × Nat × Nat × Nat → State → Except EngErr State} {u v : State} (hlim : u.lim = none)
    (hf : f 0 (0, 0, 0, 0) u = .ok v) : runFrom f [] r 0 u = .done ⟨[], 1⟩ v := by
  obtain ⟨hissues, -⟩ := oneIssue_issues hone
  unfold runFrom issuesBy inTurn
  dsimp only
  rw [if_pos rfl, hissues, hlim, List.drop_zero]
  dsimp only [runIssues]
  rw [hf]
  rfl

/-! ### Places -/

theorem teamOf_begun (hb : begins s 2 op r c) (p : Nat) : (begun s c).teamOf p = s.teamOf p := by
  have htask : ((begun s c).co p).task = (s.co p).task := by
    by_cases hp : p = s.cur
    · rw [hp, begun_core hb, task_setQueue]
    · rw [begun_other hb hp]
  have hteam : (begun s c).team = s.team := by rw [begun_rest hb]
  unfold State.teamOf State.tm
  rw [htask, hteam]

theorem teamCore_congr {u : State} (h : ∀ p, u.teamOf p = s.teamOf p) (p l : Nat) : teamCore u p l = teamCore s p l := by
  unfold teamCore
  rw [h]

theorem placeOf_congr {u : State} (h : ∀ p, u.teamOf p = s.teamOf p) (x : CopyRun) (d : Desc) (i : Nat × Nat × Nat × Nat) : placeOf u x d i = placeOf s x d i := by
  unfold placeOf recAddr pairsOf
  rw [teamCore_congr h, h]

theorem runsAligned_sp {u : State} {x : CopyRun} (hone : oneIssue x.r) {d : Desc} {q a : Nat} (h : placeOf u x d (0, 0, 0, 0) = .sp q a) : runsAligned u x d = true := by
  unfold runsAligned
  rw [oneIssue_nest hone, List.all_cons, List.all_nil, h]
  exact Bool.or_true _

theorem runsAligned_glob {u : State} {x : CopyRun} (hone : oneIssue x.r) {d : Desc} {ea : Nat} (h : placeOf u x d (0, 0, 0, 0) = .glob ea)
    (hal : ea % x.r.piece = 0) : runsAligned u x d = true := by
  unfold runsAligned
  rw [oneIssue_nest hone, List.all_cons, List.all_nil, h]
  unfold Place.aligned
  dsimp only
  rw [hal]
  exact Bool.or_true _

theorem dCores_one {u : State} {x : CopyRun} (hone : oneIssue x.r) : dCores x u = destCores [placeOf u x x.r.d (0, 0, 0, 0)] := by
  unfold dCores
  rw [oneIssue_nest hone]
  rfl

end

/-! ### Numbers in memory -/

theorem wrN_append (m : Memory) (k a b v : Nat) : wrN (wrN m k a v) (k + a) b (v / 256 ^ a) = wrN m k (a + b) v := by
  induction a generalizing m k v with
  | zero => rw [pow_zero, Nat.div_one, Nat.add_zero, Nat.zero_add]; rfl
  | succ a ih =>
    rw [wrN, Nat.succ_add, wrN, Nat.pow_succ', ← Nat.div_div_eq_div_mul, ← ih, Nat.add_right_comm, Nat.add_assoc]

theorem wrN_mod (m : Memory) (k n v : Nat) : wrN m k n (v % 256 ^ n) = wrN m k n v := by
  induction n generalizing m k v with
  | zero => rfl
  | succ n ih =>
    have hlow : v % 256 ^ (n + 1) % 256 = v % 256 := Nat.mod_mod_of_dvd _ (Dvd.intro_left _ (Nat.pow_succ ..).symm)
    have hhigh : v % 256 ^ (n + 1) / 256 = v / 256 % 256 ^ n := by rw [Nat.pow_succ', Nat.mod_mul_right_div_self]
    rw [wrN, wrN, hlow, hhigh, ih]

/-! ### Runs -/

/-- A run is a whole number of pieces. -/
theorem run_pieces (r : Rec) : 0 < r.piece ∧ r.piece * (r.run / r.piece) = r.run := by
  unfold Rec.piece Rec.run
  generalize r.mf 3 0 = n
  by_cases h : 2 ^ n ≤ 64
  · rw [Nat.min_eq_left h, Nat.div_self (Nat.two_pow_pos n), Nat.mul_one]
    exact ⟨Nat.two_pow_pos n, rfl⟩
  · have h6 : 6 ≤ n := by
      by_contra hn
      exact h (Nat.pow_le_pow_right (by decide) (Nat.le_of_lt (Nat.not_le.mp hn)) |>.trans (by decide : 2 ^ 6 ≤ 64))
    rw [Nat.min_eq_right (Nat.le_of_not_le h)]
    exact ⟨by decide, Nat.mul_div_cancel' (pow_dvd_pow 2 h6)⟩

/-- Pieces that no poisoned line has given, each of k bytes. -/
def Sound (k : Nat) (ps : List (Nat × Bool)) : Prop := ∀ e ∈ ps, e.1 < 256 ^ k ∧ e.2 = false

theorem sound_cut (k n v : Nat) : Sound k (cut k n v) := by
  induction n generalizing v with
  | zero => exact fun e he => nomatch he
  | succ n ih =>
    intro e he
    rcases List.mem_cons.mp he with rfl | he
    · exact ⟨by rw [show 256 ^ k = 2 ^ (8 * k) by rw [Nat.pow_mul]]; exact Nat.mod_lt _ (Nat.two_pow_pos _), rfl⟩
    · exact ih _ e he

theorem length_cut (k n v : Nat) : (cut k n v).length = n := by
  induction n generalizing v with
  | zero => rfl
  | succ n ih => exact congrArg (· + 1) (ih _)

theorem joinRun_cut (k n v : Nat) : joinRun k (cut k n v) = v % 256 ^ (k * n) := by
  induction n generalizing v with
  | zero => rw [Nat.mul_zero, pow_zero, Nat.mod_one]; rfl
  | succ n ih =>
    have h8 : (2 : Nat) ^ (8 * k) = 256 ^ k := by rw [Nat.pow_mul]
    rw [cut, joinRun, ih, Nat.mul_succ, Nat.add_comm (k * n), Nat.pow_add, h8, Nat.mod_mul]

/-- The run of an operand that is cut and joined again. -/
theorem joinRun_run (r : Rec) (m : Memory) (k : Nat) : joinRun r.piece (cut r.piece (r.run / r.piece) (rdN m k r.run)) = rdN m k r.run := by
  rw [joinRun_cut, (run_pieces r).2]
  exact Nat.mod_eq_of_lt (by rw [show 256 ^ r.run = 2 ^ (8 * r.run) by rw [Nat.pow_mul]]; exact rdN_lt _ _ _)

theorem spWrite_plain {u : State} (hecc : u.ecc = []) (q a n v : Nat) : spWrite u q a n v = { u with mem := wrN u.mem (spKey q a) n v } := by
  rw [spWrite_eq]
  congr 1
  unfold spWrite
  rw [spFresh_ecc (s := { u with mem := wrN u.mem (spKey q a) n v }) hecc]
  exact hecc.symm

/-- Sound pieces that are written are one number. -/
theorem writeRunSp_sound {u : State} (hecc : u.ecc = []) (q k : Nat) {ps : List (Nat × Bool)} (h : Sound k ps) (a : Nat) :
    writeRunSp q k ps a u = { u with mem := wrN u.mem (spKey q a) (k * ps.length) (joinRun k ps) } := by
  induction ps generalizing u a with
  | nil => rfl
  | cons e ps ih =>
    obtain ⟨v, bad⟩ := e
    obtain ⟨hv, hbad⟩ := h (v, bad) List.mem_cons_self
    dsimp only at hv hbad
    have h8 : (2 : Nat) ^ (8 * k) = 256 ^ k := by rw [Nat.pow_mul]
    have hlow : (v + 256 ^ k * joinRun k ps) % 256 ^ k = v := by rw [Nat.add_mul_mod_self_left, Nat.mod_eq_of_lt hv]
    have hhigh : (v + 256 ^ k * joinRun k ps) / 256 ^ k = joinRun k ps := by
      rw [Nat.add_mul_div_left _ _ (Nat.pos_of_ne_zero (by positivity)), Nat.div_eq_of_lt hv, Nat.zero_add]
    have hmem := wrN_append u.mem (spKey q a) k (k * ps.length) (v + 256 ^ k * joinRun k ps)
    rw [← wrN_mod _ _ k, hlow, hhigh] at hmem
    have hkey : spKey q (a + k) = spKey q a + k := (Nat.add_assoc _ _ _).symm
    rw [writeRunSp, hbad, if_neg Bool.false_ne_true, spWrite_plain hecc, ih (u := { u with mem := wrN u.mem (spKey q a) k v }) hecc
      (fun e he => h e (List.mem_cons_of_mem _ he)), List.length_cons, Nat.mul_succ, Nat.add_comm (k * ps.length), joinRun, h8, ← hmem, hkey]

section
variable {s : State} {op : Nat} {r : Rec} {c : BitVec 32} {x : CopyRun} {u : State}

theorem readRun_sp (hecc : u.ecc = []) (hahead : aheadOf u x.p = []) (idx q a : Nat) : readRun x idx (.sp q a) u =
    .ok (cut x.r.piece (x.r.run / x.r.piece) (rdN u.mem (spKey q a) x.r.run), u) := by
  unfold readRun
  dsimp only
  rw [spBad_of_no_error hecc, if_neg Bool.false_ne_true, spFix_of_no_error hecc]
  unfold opRead
  rw [hahead]
  rfl

theorem writeRun_sp (hecc : u.ecc = []) (idx q a : Nat) {ps : List (Nat × Bool)} (h : Sound x.r.piece ps) (hlen : ps.length = x.r.run / x.r.piece) :
    writeRun x idx (.sp q a) ps u = .ok { u with mem := wrN u.mem (spKey q a) x.r.run (joinRun x.r.piece ps) } := by
  unfold writeRun
  dsimp only
  rw [writeRunSp_sound hecc q _ h, hlen, (run_pieces x.r).2]

end

theorem copied_wrN (m : Memory) (dst src n : Nat) : copied m (wrN m dst n (rdN m src n)) dst src n := by
  refine ⟨fun j hj => ?_, fun k hk => memGet_wrN_out _ _ _ _ _ hk⟩
  have hbyte := rdN_byte m src hj
  rw [Nat.pow_mul] at hbyte
  rw [memGet_wrN_in _ _ _ _ _ hj]
  exact BitVec.eq_of_toNat_eq (by rw [show (256 : Nat) = 2 ^ 8 from rfl, hbyte, BitVec.toNat_ofNat, Nat.mod_eq_of_lt (BitVec.isLt _)])

/-! ### Semaphores -/

theorem co_raiseBy_any (s : State) (q p qu : Nat) (slot : BitVec 32) (k : Nat) (err : Bool) (j : Nat) :
    ∃ und, (raiseBy s q p qu slot k err).co j = if j = q then { (s.co q).raise k err with undone := und } else s.co j := by
  unfold raiseBy
  rw [upCo_get]
  by_cases hj : j = q
  · simp only [hj, if_true]
    split
    · exact ⟨_, rfl⟩
    · exact ⟨_, rfl⟩
  · exact ⟨[], by rw [if_neg hj, if_neg hj]⟩

theorem sem_raiseBy (s : State) (q p qu : Nat) (slot : BitVec 32) (k : Nat) (err : Bool) (j m : Nat) : ((raiseBy s q p qu slot k err).co j).sem m =
    if j = q ∧ m = k then { (s.co j).sem m with done := ((s.co j).sem m).done + 1, err := ((s.co j).sem m).err || err } else (s.co j).sem m := by
  obtain ⟨und, h⟩ := co_raiseBy_any s q p qu slot k err j
  rw [h]
  by_cases hj : j = q
  · rw [if_pos hj, hj]
    refine (sem_setSem (s.co q) k m _).trans ?_
    by_cases hm : m = k
    · rw [if_pos hm, if_pos ⟨rfl, hm⟩, hm]
    · rw [if_neg hm, if_neg fun e => hm e.2]
  · rw [if_neg hj, if_neg fun e => hj e.1]

theorem raiseBy_rest (s : State) (q p qu : Nat) (slot : BitVec 32) (k : Nat) (err : Bool) :
    raiseBy s q p qu slot k err = { s with core := (raiseBy s q p qu slot k err).core } := rfl

theorem queue_raiseBy (s : State) (q p qu : Nat) (slot : BitVec 32) (k : Nat) (err : Bool) (j : Nat) (n : BitVec 2) :
    ((raiseBy s q p qu slot k err).co j).queue n = (s.co j).queue n := by
  obtain ⟨und, h⟩ := co_raiseBy_any s q p qu slot k err j
  rw [h]
  split_ifs with hj
  · rw [hj]
    rfl
  · rfl

/-- A raise of nothing but semaphores. -/
structure SemsOnly (u v : State) : Prop where
  rest : v = { u with core := v.core }
  queue : ∀ j n, (v.co j).queue n = (u.co j).queue n
  redstat : ∀ j, (v.co j).redstat = (u.co j).redstat
  task : ∀ j, (v.co j).task = (u.co j).task

theorem semsOnly_refl (u : State) : SemsOnly u u := ⟨rfl, fun _ _ => rfl, fun _ => rfl, fun _ => rfl⟩

theorem semsOnly_raiseBy (u : State) (q p qu : Nat) (slot : BitVec 32) (k : Nat) (err : Bool) : SemsOnly u (raiseBy u q p qu slot k err) := by
  refine ⟨rfl, queue_raiseBy u q p qu slot k err, fun j => ?_, fun j => ?_⟩
  all_goals
    obtain ⟨und, h⟩ := co_raiseBy_any u q p qu slot k err j
    rw [h]
    split_ifs with hj
    · rw [hj]
      rfl
    · rfl

theorem semsOnly_trans {u v w : State} (h : SemsOnly u v) (k : SemsOnly v w) : SemsOnly u w := by
  refine ⟨?_, fun j n => (k.queue j n).trans (h.queue j n), fun j => (k.redstat j).trans (h.redstat j), fun j => (k.task j).trans (h.task j)⟩
  have hk := k.rest
  have hv := h.rest
  generalize w.core = C at hk
  rw [hk, hv]

theorem teamOf_semsOnly {u v : State} (h : SemsOnly u v) (p : Nat) : v.teamOf p = u.teamOf p := by
  have hteam : v.team = u.team := by rw [h.rest]
  unfold State.teamOf State.tm
  rw [h.task, hteam]

theorem semsOnly_raiseDests (x : CopyRun) (qs : List Nat) (u : State) : SemsOnly u (raiseDests x qs u) := by
  unfold raiseDests
  split_ifs
  · generalize qs.eraseDups = l
    induction l generalizing u with
    | nil => exact semsOnly_refl u
    | cons q l ih => exact semsOnly_trans (semsOnly_raiseBy u q x.p 2 x.slot _ false) (ih _)
  · exact semsOnly_refl u

theorem raiseDests_off {x : CopyRun} (h : x.r.mods.getLsbD 13 = false) (qs : List Nat) (u : State) : raiseDests x qs u = u := by
  unfold raiseDests
  rw [if_neg (by rw [h]; exact Bool.false_ne_true)]

theorem raiseDests_one {x : CopyRun} (h : x.r.mods.getLsbD 13 = true) (q : Nat) (u : State) :
    raiseDests x [q] u = raiseBy u q x.p 2 x.slot (x.r.mf 12 8) false := by
  unfold raiseDests
  rw [if_pos h]
  rfl

/-! ### The end of a copy record -/

section
variable {s : State} {op : Nat} {r : Rec} {c : BitVec 32}

theorem sem_begun (hb : begins s 2 op r c) (p j : Nat) : ((begun s c).co p).sem j = (s.co p).sem j := by
  by_cases hp : p = s.cur
  · rw [hp, begun_core hb, setQueue_eq]
    rfl
  · rw [begun_other hb hp]

theorem sem_endBody (u : State) (l : Left) (p j : Nat) : ((endBody u s.cur 2#2 c l).co p).sem j = (u.co p).sem j := by
  by_cases hp : p = s.cur
  · have h := upCo_get u s.cur (fun x => x.setQueue 2#2 { x.queue 2#2 with
      flight := (x.queue 2#2).flight.map fun f => if f.slot = c then overFlight f l else f }) s.cur
    rw [if_pos rfl] at h
    rw [hp]
    refine (congrArg (fun y => y.sem j) h).trans ?_
    rw [setQueue_eq]
    rfl
  · rw [co_endBody_other u 2#2 c l hp]

theorem redstat_endBody (u : State) (l : Left) (p : Nat) : ((endBody u s.cur 2#2 c l).co p).redstat = (u.co p).redstat := by
  by_cases hp : p = s.cur
  · have h := upCo_get u s.cur (fun x => x.setQueue 2#2 { x.queue 2#2 with
      flight := (x.queue 2#2).flight.map fun f => if f.slot = c then overFlight f l else f }) s.cur
    rw [if_pos rfl] at h
    rw [hp]
    refine (congrArg (fun y => y.redstat) h).trans ?_
    rw [setQueue_eq]
  · rw [co_endBody_other u 2#2 c l hp]

/-- The record has started, its body over. -/
theorem started_copy (hb : begins s 2 op r c) {u : State} (hcur : u.cur = s.cur) (hq : ∀ q, q ≠ 3#2 → (u.co s.cur).queue q = ((begun s c).co s.cur).queue q) (l : Left) :
    started s c 0 false l.tags (endBody u s.cur 2#2 c l) := by
  have h := started_endBody hb (by decide) hcur hq l
  rwa [begins_copy_curq hb] at h

/-- What a copy record leaves whose issue has changed memory and cores alone. -/
theorem copy_rest {u : State} (h : u = { s with mem := u.mem, core := u.core }) (l : Left) :
    endBody u s.cur 2#2 c l = { s with mem := (endBody u s.cur 2#2 c l).mem, core := (endBody u s.cur 2#2 c l).core } := by
  have hover := endBody_rest u s.cur 2#2 c l
  generalize endBody u s.cur 2#2 c l = t at hover
  rw [hover, h]

end

end Sys2Proof.Machine
end

section
/-! COPY, FILL, PUT and GET between scratchpads (R214, R219 to R221). -/
namespace Sys2Proof.Machine
set_option Elab.async false
open Safety

section
variable {s : State} {op : Nat} {r : Rec} {c : BitVec 32}

/-- The package once a copy record that has begun has changed memory. -/
def withMem (s : State) (c : BitVec 32) (m : Memory) : State := { begun s c with mem := m }

theorem placeOf_begun (hb : begins s 2 op r c) (x : CopyRun) (d : Desc) (i : Nat × Nat × Nat × Nat) : placeOf (begun s c) x d i = placeOf s x d i :=
  placeOf_congr (teamOf_begun hb) x d i

theorem placeOf_withMem (hb : begins s 2 op r c) (m : Memory) (x : CopyRun) (d : Desc) (i : Nat × Nat × Nat × Nat) : placeOf (withMem s c m) x d i = placeOf s x d i :=
  placeOf_congr (u := withMem s c m) (teamOf_begun hb) x d i

/-- What a record leaves whose issues change memory and cores alone, and whose destination semaphores rise with them. -/
theorem copy_left (hb : begins s 2 op r c) {v u t : State} (hv : v = { s with mem := v.mem, core := v.core })
    (hq : ∀ q, q ≠ 3#2 → (v.co s.cur).queue q = ((begun s c).co s.cur).queue q) (hu : SemsOnly v u) {l : Left} (hl : l.tags = []) (ht : t = endBody u s.cur 2#2 c l) :
    t = { s with mem := t.mem, core := t.core } ∧ t.mem = v.mem ∧ started s c 0 false [] t ∧ (∀ p j, (t.co p).sem j = (u.co p).sem j) ∧ ∀ p, p ≠ s.cur → t.co p = u.co p := by
  have hrest : u = { s with mem := u.mem, core := u.core } := by
    have hu' := hu.rest
    generalize u.core = C at hu'
    rw [hu', hv]
  have hmem : u.mem = v.mem := by rw [hu.rest]
  have hcur : u.cur = s.cur := by rw [hrest]
  subst ht
  refine ⟨copy_rest hrest l, hmem, ?_, fun p j => sem_endBody u l p j, fun p hp => co_endBody_other u 2#2 c l hp⟩
  rw [← hl]
  exact started_copy hb hcur (fun q h3 => (hu.queue s.cur q).trans (hq q h3)) l

/-- The same of a record that writes memory. -/
theorem copy_written (hb : begins s 2 op r c) {m : Memory} {u t : State} (hu : SemsOnly (withMem s c m) u) {l : Left} (hl : l.tags = [])
    (ht : t = endBody u s.cur 2#2 c l) :
    t = { s with mem := t.mem, core := t.core } ∧ t.mem = m ∧ started s c 0 false [] t ∧ (∀ p j, (t.co p).sem j = (u.co p).sem j) ∧ ∀ p, p ≠ s.cur → t.co p = u.co p := by
  refine copy_left (v := withMem s c m) hb ?_ (fun _ _ => rfl) hu hl ht
  unfold withMem
  rw [begun_rest hb]

/-- One issue of COPY, PUT or GET between scratchpads. -/
theorem moveIssue_sp (hb : begins s 2 op r c) (hecc : s.ecc = []) {qd da qa aa : Nat} (hd : runAt s r c r.d = .sp qd da) (ha : runAt s r c r.a = .sp qa aa) :
    moveIssue (Safety.copyRun s r c) 0 (0, 0, 0, 0) (begun s c) =
      .ok (withMem s c (wrN s.mem (spKey qd da) r.run (rdN s.mem (spKey qa aa) r.run))) := by
  have hecc' : (begun s c).ecc = [] := (begun_ecc hb).trans hecc
  have hA : placeOf (begun s c) (Safety.copyRun s r c) r.a (0, 0, 0, 0) = .sp qa aa := (placeOf_begun hb _ _ _).trans ha
  have hD : placeOf (begun s c) (Safety.copyRun s r c) r.d (0, 0, 0, 0) = .sp qd da := (placeOf_begun hb _ _ _).trans hd
  have hread := readRun_sp (x := Safety.copyRun s r c) hecc' (begun_ahead hb) 0 qa aa
  have hwrite := writeRun_sp (x := Safety.copyRun s r c) hecc' 0 qd da (sound_cut _ _ (rdN (begun s c).mem (spKey qa aa) r.run)) (length_cut _ _ _)
  have hjoin : joinRun r.piece (cut r.piece (r.run / r.piece) (rdN (begun s c).mem (spKey qa aa) r.run)) = rdN (begun s c).mem (spKey qa aa) r.run := joinRun_run r _ _
  have hr : (Safety.copyRun s r c).r = r := rfl
  unfold moveIssue
  rw [hr, hA, hread]
  dsimp only
  rw [hr, hD]
  rw [hr] at hwrite
  rw [hwrite, hjoin, begun_mem hb]
  rfl

theorem destCores_sp (q a : Nat) : destCores [.sp q a] = [q] := by
  unfold destCores
  simp [List.eraseDups, List.eraseDupsBy, List.eraseDupsBy.loop]

/-- The turn of COPY, PUT or GET between scratchpads. -/
theorem exec_move {i : Instr} {k : BitVec 8} (hparts : recParts i = some (2#4, k, r)) (hk : k.toNat = 0x01 ∨ k.toNat = 0x10 ∨ k.toNat = 0x11)
    (hb : begins s 2 k.toNat r c) (hone : oneIssue r) (hecc : s.ecc = []) {qd da qa aa : Nat} (hd : runAt s r c r.d = .sp qd da) (ha : runAt s r c r.a = .sp qa aa) :
    exec i s = .next (endBody (raiseDests (Safety.copyRun s r c) [qd]
      (withMem s c (wrN s.mem (spKey qd da) r.run (rdN s.mem (spKey qa aa) r.run)))) s.cur 2#2 c ⟨[], 1⟩) := by
  refine exec_copyRecord hparts hb ?_
  obtain ⟨u, hu⟩ : ∃ u, u = withMem s c (wrN s.mem (spKey qd da) r.run (rdN s.mem (spKey qa aa) r.run)) := ⟨_, rfl⟩
  have hrun : runFrom (moveIssue (Safety.copyRun s r c)) [] r 0 (begun s c) = .done ⟨[], 1⟩ u := by
    rw [hu]
    exact runFrom_one hone (begun_lim hb) (moveIssue_sp hb hecc hd ha)
  have hD : runsAligned (begun s c) (Safety.copyRun s r c) r.d = true := runsAligned_sp hone ((placeOf_begun hb _ _ _).trans hd)
  have hA : runsAligned (begun s c) (Safety.copyRun s r c) r.a = true := runsAligned_sp hone ((placeOf_begun hb _ _ _).trans ha)
  have hcores : dCores (Safety.copyRun s r c) u = [qd] := by
    rw [dCores_one hone, hu, placeOf_withMem hb, ← destCores_sp qd da]
    exact congrArg (fun p => destCores [p]) hd
  have hmove : copyEffect (Safety.copyRun s r c) k.toNat 0 (begun s c) = moveEffect (Safety.copyRun s r c) 0 (begun s c) := by
    rcases hk with h | h | h <;> rw [h] <;> rfl
  rw [hmove, ← hu]
  unfold moveEffect
  show (if (!(runsAligned (begun s c) (Safety.copyRun s r c) r.d && runsAligned (begun s c) (Safety.copyRun s r c) r.a)) = true then _
    else thenRaise _ _ (runFrom (moveIssue (Safety.copyRun s r c)) [] r 0 (begun s c))) = _
  rw [hD, hA, hrun]
  show Eff.done ⟨[], 1⟩ (raiseDests (Safety.copyRun s r c) (dCores (Safety.copyRun s r c) u) u) = _
  rw [hcores]

theorem move_result {i : Instr} {k : BitVec 8} (hparts : recParts i = some (2#4, k, r)) (hk : k.toNat = 0x01 ∨ k.toNat = 0x10 ∨ k.toNat = 0x11)
    (hb : begins s 2 k.toNat r c) (hone : oneIssue r) (hecc : s.ecc = []) {qd da qa aa : Nat} (hd : runAt s r c r.d = .sp qd da) (ha : runAt s r c r.a = .sp qa aa) :
    completes i s fun t =>
      t = { s with mem := t.mem, core := t.core } ∧ copied s.mem t.mem (spKey qd da) (spKey qa aa) r.run ∧ started s c 0 false [] t ∧
      (k.toNat = 0x10 → r.mods.getLsbD 13 = true → raised s t qd (r.mf 12 8) 1 false) ∧
      (r.mods.getLsbD 13 = false → semsKept s t ∧ ∀ p, p ≠ s.cur → t.co p = s.co p) := by
  obtain ⟨hrest, hmem, hstart, hsem, hother⟩ := copy_written hb (semsOnly_raiseDests (Safety.copyRun s r c) [qd]
    (withMem s c (wrN s.mem (spKey qd da) r.run (rdN s.mem (spKey qa aa) r.run)))) (l := ⟨[], 1⟩) rfl rfl
  refine ⟨_, exec_move hparts hk hb hone hecc hd ha, hrest, ?_, hstart, fun _ h13 p j => ?_, fun h13 => ⟨fun p j => ?_, fun p hp => ?_⟩⟩
  · rw [hmem]
    exact copied_wrN _ _ _ _
  · rw [hsem, raiseDests_one (x := Safety.copyRun s r c) h13]
    refine (sem_raiseBy _ qd s.cur 2 c (r.mf 12 8) false p j).trans ?_
    have hkeep : ((withMem s c (wrN s.mem (spKey qd da) r.run (rdN s.mem (spKey qa aa) r.run))).co p).sem j = (s.co p).sem j := sem_begun hb p j
    rw [hkeep]
    rfl
  · rw [hsem, raiseDests_off (x := Safety.copyRun s r c) h13]
    exact sem_begun hb p j
  · rw [hother p hp, raiseDests_off (x := Safety.copyRun s r c) h13]
    exact begun_other hb hp

/-! ### FILL -/

theorem repunit (k : Nat) : (256 ^ (k + 1) - 1) / 255 = 1 + 256 * ((256 ^ k - 1) / 255) ∧ 255 * ((256 ^ k - 1) / 255) + 1 = 256 ^ k := by
  have h : ∀ k, 255 * ((256 ^ k - 1) / 255) + 1 = 256 ^ k := by
    intro k
    induction k with
    | zero => decide
    | succ k ih =>
      rw [Nat.pow_succ]
      omega
  refine ⟨?_, h k⟩
  have h1 := h k
  have h2 := h (k + 1)
  rw [Nat.pow_succ] at h2 ⊢
  omega

/-- Each byte of a piece of FILL is its byte. -/
theorem fill_byte {b : Nat} (hb : b < 256) (k i : Nat) (hi : i < k) : b * ((256 ^ k - 1) / 255) / 256 ^ i % 256 = b := by
  induction k generalizing i with
  | zero => exact absurd hi (Nat.not_lt_zero i)
  | succ k ih =>
    have hsplit : b * ((256 ^ (k + 1) - 1) / 255) = b + 256 * (b * ((256 ^ k - 1) / 255)) := by
      rw [(repunit k).1, Nat.mul_add, Nat.mul_one]
      ring
    rw [hsplit]
    cases i with
    | zero => rw [pow_zero, Nat.div_one, Nat.add_mul_mod_self_left, Nat.mod_eq_of_lt hb]
    | succ i =>
      rw [Nat.pow_succ', ← Nat.div_div_eq_div_mul, Nat.add_mul_div_left _ _ (by decide), Nat.div_eq_of_lt hb, Nat.zero_add]
      exact ih i (Nat.lt_of_succ_lt_succ hi)

theorem fill_lt {b : Nat} (hb : b < 256) (k : Nat) : b * ((256 ^ k - 1) / 255) < 256 ^ k := by
  have h := (repunit k).2
  have hle : b * ((256 ^ k - 1) / 255) ≤ 255 * ((256 ^ k - 1) / 255) := Nat.mul_le_mul_right _ (by omega)
  omega

/-- A byte of pieces that are all alike. -/
theorem joinRun_replicate {k v : Nat} (hk : 0 < k) (hv : v < 256 ^ k) (n : Nat) {j : Nat} (hj : j < k * n) :
    joinRun k (List.replicate n (v, false)) / 256 ^ j % 256 = v / 256 ^ (j % k) % 256 := by
  have h8 : (2 : Nat) ^ (8 * k) = 256 ^ k := by rw [Nat.pow_mul]
  induction n generalizing j with
  | zero => exact absurd hj (by simp)
  | succ n ih =>
    rw [List.replicate_succ, joinRun, h8]
    by_cases hlo : j < k
    · obtain ⟨e, rfl⟩ := Nat.exists_eq_add_of_lt hlo
      rw [Nat.mod_eq_of_lt hlo, show (256 : Nat) ^ (j + e + 1) = 256 ^ j * (256 * 256 ^ e) by ring, Nat.mul_assoc, Nat.add_mul_div_left _ _ (by positivity),
        Nat.mul_assoc, Nat.add_mul_mod_self_left]
    · obtain ⟨e, rfl⟩ := Nat.exists_eq_add_of_le (Nat.le_of_not_lt hlo)
      rw [Nat.pow_add, ← Nat.div_div_eq_div_mul, Nat.add_mul_div_left _ _ (by positivity), Nat.div_eq_of_lt hv, Nat.zero_add, Nat.add_mod_left]
      exact ih (by rw [Nat.mul_succ] at hj; omega)

/-- What FILL writes. -/
theorem fill_pieces (r : Rec) : Sound r.piece (fillPieces r) ∧ (fillPieces r).length = r.run / r.piece ∧
    ∀ j, j < r.run → joinRun r.piece (fillPieces r) / 256 ^ j % 256 = r.mf 15 8 := by
  obtain ⟨hpos, hmul⟩ := run_pieces r
  have hbyte : r.mf 15 8 < 256 := Nat.mod_lt _ (by decide)
  have h8 : (2 : Nat) ^ (8 * r.piece) = 256 ^ r.piece := by rw [Nat.pow_mul]
  unfold fillPieces
  rw [h8]
  refine ⟨fun e he => ?_, List.length_replicate, fun j hj => ?_⟩
  · rw [(List.mem_replicate.mp he).2]
    exact ⟨fill_lt hbyte _, rfl⟩
  · rw [joinRun_replicate hpos (fill_lt hbyte _) _ (by rwa [hmul]), fill_byte hbyte _ _ (Nat.mod_lt _ hpos)]

theorem fill_result (hone : oneIssue r) (hecc : s.ecc = []) (hb : begins s 2 0x02 r c) {qd da : Nat} (hd : runAt s r c r.d = .sp qd da) :
    completes (.fill r) s fun t =>
      t = { s with mem := t.mem, core := t.core } ∧ started s c 0 false [] t ∧ semsKept s t ∧ (∀ p, p ≠ s.cur → t.co p = s.co p) ∧
      (∀ j, j < r.run → memGet t.mem (spKey qd da + j) = BitVec.ofNat 8 (r.mf 15 8)) ∧
      ∀ k, k < spKey qd da ∨ spKey qd da + r.run ≤ k → memGet t.mem k = memGet s.mem k := by
  obtain ⟨hsound, hlen, hbytes⟩ := fill_pieces r
  obtain ⟨u, hu⟩ : ∃ u, u = withMem s c (wrN s.mem (spKey qd da) r.run (joinRun r.piece (fillPieces r))) := ⟨_, rfl⟩
  have hissue : fillIssue (Safety.copyRun s r c) 0 (0, 0, 0, 0) (begun s c) = .ok u := by
    have hD : placeOf (begun s c) (Safety.copyRun s r c) r.d (0, 0, 0, 0) = .sp qd da := (placeOf_begun hb _ _ _).trans hd
    have hwrite := writeRun_sp (x := Safety.copyRun s r c) ((begun_ecc hb).trans hecc) 0 qd da hsound hlen
    unfold fillIssue
    rw [show (Safety.copyRun s r c).r = r from rfl] at hwrite ⊢
    rw [hD, hwrite, begun_mem hb, hu]
    rfl
  have hrun : runFrom (fillIssue (Safety.copyRun s r c)) [] r 0 (begun s c) = .done ⟨[], 1⟩ u := runFrom_one hone (begun_lim hb) hissue
  have hD : runsAligned (begun s c) (Safety.copyRun s r c) r.d = true := runsAligned_sp hone ((placeOf_begun hb _ _ _).trans hd)
  have hexec := exec_copyRecord (i := .fill r) (k := 0x02#8) rfl hb (l := ⟨[], 1⟩) (u := u) (by
    show fillEffect (Safety.copyRun s r c) 0 (begun s c) = _
    unfold fillEffect
    show (if (!runsAligned (begun s c) (Safety.copyRun s r c) r.d) = true then _ else runFrom (fillIssue (Safety.copyRun s r c)) [] r 0 (begun s c)) = _
    rw [hD, hrun]
    rfl)
  have hsems : SemsOnly (withMem s c (wrN s.mem (spKey qd da) r.run (joinRun r.piece (fillPieces r)))) u := by
    rw [hu]
    exact semsOnly_refl _
  obtain ⟨hrest, hmem, hstart, hsem, hother⟩ := copy_written hb hsems (l := ⟨[], 1⟩) rfl rfl
  refine ⟨_, hexec, hrest, hstart, fun p j => ?_, fun p hp => ?_, fun j hj => ?_, fun k hk => ?_⟩
  · rw [hsem, hu]
    exact sem_begun hb p j
  · rw [hother p hp, hu]
    exact begun_other hb hp
  · rw [hmem, memGet_wrN_in _ _ _ _ _ hj, hbytes j hj]
  · rw [hmem]
    exact memGet_wrN_out _ _ _ _ _ hk

end

/-- COPY, PUT, GET and FILL between scratchpads, as their theorems give them. -/
theorem localCopyResults : Parts.LocalCopyResults := by
  intro s r c qd da hone hecc hd
  refine ⟨fun i op qa aa hi hb ha => ?_, fun hb => fill_result hone hecc hb hd⟩
  obtain ⟨k, hparts, rfl, hk⟩ : ∃ k : BitVec 8, recParts i = some (2#4, k, r) ∧ op = k.toNat ∧ (k.toNat = 0x01 ∨ k.toNat = 0x10 ∨ k.toNat = 0x11) := by
    simp only [List.mem_cons, Prod.mk.injEq, List.not_mem_nil, or_false] at hi
    rcases hi with ⟨rfl, rfl⟩ | ⟨rfl, rfl⟩ | ⟨rfl, rfl⟩
    · exact ⟨0x01#8, rfl, rfl, .inl rfl⟩
    · exact ⟨0x10#8, rfl, rfl, .inr (.inl rfl)⟩
    · exact ⟨0x11#8, rfl, rfl, .inr (.inr rfl)⟩
  exact move_result hparts hk hb hone hecc hd ha

end Sys2Proof.Machine
end

section
/-! COPY and FILL with a global operand of at most a line (R211, R215, R219, R230, R315, R323). -/
namespace Sys2Proof.Machine
set_option Elab.async false
open Safety

/-! ### Reads and writes at a home -/

/-- A write at a home that is ordinary memory leaves the cores as they are. -/
theorem keyWrite_rest {s : State} {key : Nat} (hdev : isDevice key = false) (n v mask : Nat) :
    keyWrite s key n v mask = { s with mem := (keyWrite s key n v mask).mem, scal := (keyWrite s key n v mask).scal, die := (keyWrite s key n v mask).die } := by
  unfold keyWrite noteWrite
  dsimp only
  rw [hdev]
  rfl

theorem homeWrite_rest {s u : State} {req c ea n v mask need key0 : Nat} (hecc : s.ecc = []) (hkey : resolve s req c (ea + firstByte mask 0 64) need = .ok key0)
    (hdev : isDevice key0 = false) (hdev' : isDevice (key0 - firstByte mask 0 64) = false) (h : homeWrite s req c ea n v mask need = .ok u) :
    u = { s with mem := u.mem, scal := u.scal, die := u.die, ecc := u.ecc } := by
  unfold homeWrite at h
  simp only [hkey, hdev, noteXlat_of_no_error hecc, noteRead_of_no_error hecc, Bool.false_and, Bool.false_eq_true, if_false] at h
  generalize key0 - firstByte mask 0 64 = key at hdev' h
  have hwrite := keyWrite_rest (s := s) hdev' n v mask
  have hclear (k : Nat) : clearEcc (keyWrite s key n v mask) k = { s with
      mem := (clearEcc (keyWrite s key n v mask) k).mem, scal := (clearEcc (keyWrite s key n v mask) k).scal,
      die := (clearEcc (keyWrite s key n v mask) k).die, ecc := (clearEcc (keyWrite s key n v mask) k).ecc } := by
    unfold clearEcc
    generalize keyWrite s key n v mask = w at hwrite
    rw [hwrite]
  by_cases hg : gateOpen s c = true
  · rw [hg] at h
    by_cases ho : isObjHome s key = true
    · simp only [ho, Bool.not_true, Bool.false_eq_true, if_false, if_true] at h
      rw [← Except.ok.inj h]
    · simp only [Bool.not_eq_true _ |>.mp ho, Bool.not_true, Bool.false_eq_true, if_false] at h
      cases hd : hbmDie key with
      | none =>
        rw [hd] at h
        rw [← Except.ok.inj h]
        generalize keyWrite s key n v mask = w at hwrite
        rw [hwrite]
      | some d =>
        rw [hd] at h
        dsimp only at h
        split_ifs at h
        · rw [← Except.ok.inj h]
          exact hclear key
        · rw [← Except.ok.inj h]
          exact hclear _
  · rw [if_pos (by rw [Bool.not_eq_true _ |>.mp hg]; rfl)] at h
    rw [← Except.ok.inj h]

/-- The first byte of a mask of bytes in a row. -/
theorem firstByte_run {k : Nat} (hk : 0 < k) (o i n : Nat) (h : o < n) : firstByte ((2 ^ k - 1) * 2 ^ o) i n = i + o := by
  induction o generalizing i n with
  | zero =>
    obtain ⟨n, rfl⟩ := Nat.exists_eq_add_of_lt h
    have hodd : (2 ^ k - 1) * 2 ^ 0 % 2 = 1 := by
      obtain ⟨m, rfl⟩ := Nat.exists_eq_add_of_le' hk
      rw [pow_zero, Nat.mul_one, Nat.pow_succ]
      have := Nat.two_pow_pos m
      omega
    rw [Nat.zero_add, firstByte, if_pos hodd, Nat.add_zero]
  | succ o ih =>
    obtain ⟨n, rfl⟩ := Nat.exists_eq_add_of_lt h
    have hsplit : (2 ^ k - 1) * 2 ^ (o + 1) = 2 * ((2 ^ k - 1) * 2 ^ o) := by ring
    rw [firstByte, if_neg (by omega), hsplit, Nat.mul_div_cancel_left _ (by decide), ih _ _ (by omega), Nat.add_assoc, Nat.add_comm 1 o]

/-- Bytes in a row that are written under the mask of their line. -/
theorem memGet_wrMasked_run (m : Memory) (line : Nat) {o k : Nat} (hin : o + k ≤ 64) (v x : Nat) :
    memGet (wrMasked m line 64 (v * 2 ^ (8 * o)) ((2 ^ k - 1) * 2 ^ o)) x =
      if line + o ≤ x ∧ x < line + o + k then BitVec.ofNat 8 (v / 256 ^ (x - (line + o)) % 256) else memGet m x := by
  have hbit (j : Nat) : ((2 ^ k - 1) * 2 ^ o).testBit j = decide (o ≤ j ∧ j < o + k) := by
    rw [Nat.testBit_mul_two_pow, Nat.testBit_two_pow_sub_one]
    by_cases h : o ≤ j
    · simp only [h, decide_true, Bool.true_and, true_and]
      congr 1
      exact propext ⟨fun _ => by omega, fun _ => by omega⟩
    · simp [h]
  by_cases hx : line + o ≤ x ∧ x < line + o + k
  · obtain ⟨j, rfl⟩ := Nat.exists_eq_add_of_le hx.1
    have hj : j < k := by omega
    rw [if_pos hx, Nat.add_assoc, memGet_wrMasked_in _ _ _ _ _ _ (by omega), hbit, decide_eq_true (by omega), if_pos rfl, Nat.pow_mul, Nat.pow_add,
      ← Nat.div_div_eq_div_mul, show (2 : Nat) ^ 8 = 256 from rfl, Nat.mul_div_cancel _ (by positivity), ← Nat.add_assoc, Nat.add_sub_cancel_left]
  · rw [if_neg hx]
    by_cases hl : x < line ∨ line + 64 ≤ x
    · exact memGet_wrMasked_out _ _ _ _ _ _ hl
    · obtain ⟨j, rfl⟩ := Nat.exists_eq_add_of_le (Nat.le_of_not_lt (not_or.mp hl).1)
      rw [memGet_wrMasked_in _ _ _ _ _ _ (by omega), hbit, decide_eq_false (by omega), if_neg Bool.false_ne_true]

/-- Bytes in a row within a line, written at a home that is ordinary memory and no sync object. -/
theorem homeWrite_run {s : State} {req c ea key k : Nat} (hecc : s.ecc = []) (hgate : gateOpen s c = true) (hkey : resolve s req c ea 2 = .ok key)
    (hdev : isDevice key = false) (hline : key % 64 = ea % 64) (hobj : isObjHome s key = false) (hpos : 0 < k) (hin : ea % 64 + k ≤ 64) (v : Nat) :
    ∃ u, homeWrite s req c (ea - ea % 64) 64 (v * 2 ^ (8 * (ea % 64))) ((2 ^ k - 1) * 2 ^ (ea % 64)) 2 = .ok u ∧
      u = { s with mem := u.mem, scal := u.scal, die := u.die, ecc := u.ecc } ∧ (∀ a, WatchOnly (s.sc a) (u.sc a)) ∧
      ∀ x, memGet u.mem x = if key ≤ x ∧ x < key + k then BitVec.ofNat 8 (v / 256 ^ (x - key) % 256) else memGet s.mem x := by
  have hlt : ea % 64 < 64 := Nat.mod_lt _ (by decide)
  have hfirst : firstByte ((2 ^ k - 1) * 2 ^ (ea % 64)) 0 64 = ea % 64 := by rw [firstByte_run hpos _ _ _ hlt, Nat.zero_add]
  have hea : ea - ea % 64 + ea % 64 = ea := Nat.sub_add_cancel (Nat.mod_le _ _)
  have hres : resolve s req c (ea - ea % 64 + firstByte ((2 ^ k - 1) * 2 ^ (ea % 64)) 0 64) 2 = .ok key := by rw [hfirst, hea, hkey]
  have hobj' : isObjHome s (key - ea % 64) = false := by
    unfold isObjHome at hobj ⊢
    have hbase : key - ea % 64 - (key - ea % 64) % 64 = key - key % 64 := by omega
    rw [hbase]
    exact hobj
  have hdev' : isDevice (key - ea % 64) = false := hline ▸ isDevice_line hdev
  have hue : lineUncorrectable s (key - ea % 64) = false := by
    unfold lineUncorrectable
    rw [hecc]
    cases hbmDie (key - ea % 64) <;> rfl
  obtain ⟨u, hwrite, hmem, -, hwatch⟩ := homeWrite_memory (s := s) (req := req) (n := 64) (v := v * 2 ^ (8 * (ea % 64))) hgate hres hdev
    (by rw [hfirst]; exact hobj') (by rw [hfirst]; exact hdev') (by rw [hfirst]; exact hue)
  refine ⟨u, hwrite, homeWrite_rest hecc hres hdev (by rw [hfirst]; exact hdev') hwrite, hwatch, fun x => ?_⟩
  have hkey' : key - ea % 64 + ea % 64 = key := Nat.sub_add_cancel (hline ▸ Nat.mod_le _ _)
  rw [hmem, hfirst, memGet_wrMasked_run _ _ hin, hkey']

/-! ### A run within a line -/

/-- A run of at most a line is one piece, and where it is aligned it lies in one line. -/
theorem run_in_line {r : Rec} (h : r.run ≤ 64) {ea : Nat} (hal : ea % r.run = 0) :
    r.piece = r.run ∧ r.run / r.piece = 1 ∧ ea % 64 + r.run ≤ 64 ∧ ea % 65536 + r.run ≤ 65536 := by
  have hpiece : r.piece = r.run := Nat.min_eq_left h
  have hpos : 0 < r.run := by
    have := (run_pieces r).1
    rwa [hpiece] at this
  have hdvd : r.run ∣ 64 := by
    unfold Rec.run at h ⊢
    refine (Nat.pow_dvd_pow_iff_le_right (by decide : 1 < 2)).mpr ?_ |>.trans (show 2 ^ 6 ∣ 64 by decide)
    by_contra hn
    have : 2 ^ 7 ≤ 2 ^ r.mf 3 0 := Nat.pow_le_pow_right (by decide) (by omega)
    omega
  have hline (m : Nat) (hm : 0 < m) (hd : r.run ∣ m) : ea % m + r.run ≤ m := by
    obtain ⟨a, ha⟩ := (Nat.dvd_mod_iff hd).mpr (Nat.dvd_of_mod_eq_zero hal)
    obtain ⟨b, hb⟩ := hd
    have hlt : ea % m < m := Nat.mod_lt _ hm
    have hab : a < b := by
      rw [ha, hb] at hlt
      exact Nat.lt_of_mul_lt_mul_left hlt
    calc ea % m + r.run = r.run * (a + 1) := by rw [ha]; ring
      _ ≤ r.run * b := Nat.mul_le_mul_left _ hab
      _ = m := hb.symm
  exact ⟨hpiece, by rw [hpiece, Nat.div_self hpos], hline 64 (by decide) hdvd, hline 65536 (by decide) (hdvd.trans (by decide))⟩

section
variable {s : State} {op : Nat} {r : Rec} {c : BitVec 32}

theorem xlatSame_begun (hb : begins s 2 op r c) : XlatSame s (begun s c) := by
  refine ⟨begun_mem hb, by rw [begun_rest hb], begun_ecc hb, fun p => ?_, fun d => ?_, fun d => ?_, fun d => ?_⟩
  · by_cases hp : p = s.cur
    · rw [hp, begun_core hb, setQueue_eq]
    · rw [begun_other hb hp]
  all_goals rw [begun_rest hb]; rfl

variable (hb : begins s 2 op r c) (hecc : s.ecc = []) (hrun : r.run ≤ 64) {ea key : Nat} (hal : ea % r.run = 0)
  (hctl : isControl (ea % 2 ^ 56) = false) (hdev : isDevice key = false)
include hb hecc hrun hal hctl hdev

/-- A run that is read at its home. -/
theorem readRun_glob (hkey : resolve s s.cur (s.sc s.cur).ctx.toNat ea 4 = .ok key) :
    readRun (Safety.copyRun s r c) 0 (.glob ea) (begun s c) = .ok ([(rdN s.mem key r.run, false)], begun s c) := by
  obtain ⟨hpiece, hn, -, hpage⟩ := run_in_line hrun hal
  have hecc' := (begun_ecc hb).trans hecc
  have hres : resolve (begun s c) s.cur (s.sc s.cur).ctx.toNat ea 4 = .ok key := (resolve_congr (xlatSame_begun hb) _ _ _ _).trans hkey
  have hspan : spanFault (begun s c) s.cur (s.sc s.cur).ctx.toNat ea r.run 4 = none := by
    unfold spanFault
    rw [hres]
    dsimp only
    rw [hdev, if_neg Bool.false_ne_true, if_pos hpage]
  have hbad : lineUncorrectable (begun s c) key = false := by
    unfold lineUncorrectable
    rw [hecc']
    cases hbmDie key <;> rfl
  have hnote : noteAccess (begun s c) s.cur (s.sc s.cur).ctx.toNat ea 4 key = begun s c := by
    unfold noteAccess
    rw [noteXlat_of_no_error hecc', noteRead_of_no_error hecc']
  have hhome : homeRead (begun s c) s.cur (s.sc s.cur).ctx.toNat ea r.run 4 = .ok (rdN s.mem key r.run, false, begun s c) := by
    unfold homeRead
    rw [hspan, hres]
    dsimp only
    rw [hbad, hnote, begun_mem hb]
  have hfar : farRead (Safety.copyRun s r c) ea r.run (rdN s.mem key r.run) (begun s c) = rdN s.mem key r.run := by
    unfold farRead
    rw [show aheadOf (begun s c) (Safety.copyRun s r c).p = [] from begun_ahead hb]
  show readGlobal (Safety.copyRun s r c) 0 r.piece (r.run / r.piece) ea (begun s c) = _
  rw [hpiece, Nat.div_self (by have := (run_pieces r).1; rwa [hpiece] at this)]
  dsimp only [readGlobal]
  rw [hctl, if_neg Bool.false_ne_true]
  show (match homeRead (begun s c) s.cur (s.sc s.cur).ctx.toNat ea r.run 4 with | .error e => _ | .ok (v, bad, s) => _) = _
  rw [hhome]
  dsimp only
  rw [hfar]

/-- A run that is written at its home. -/
theorem writeRun_glob (hkey : resolve s s.cur (s.sc s.cur).ctx.toNat ea 2 = .ok key) (hline : key % 64 = ea % 64) (hobj : isObjHome s key = false)
    (hgate : gateOpen s (s.sc s.cur).ctx.toNat = true) (v : Nat) : ∃ u, writeRun (Safety.copyRun s r c) 0 (.glob ea) [(v, false)] (begun s c) = .ok u ∧
      u.core = (begun s c).core ∧ u.cur = s.cur ∧ (∀ k, (u.sc k).reg = (s.sc k).reg) ∧
      ∀ x, memGet u.mem x = if key ≤ x ∧ x < key + r.run then BitVec.ofNat 8 (v / 256 ^ (x - key) % 256) else memGet s.mem x := by
  obtain ⟨hpiece, -, hin, -⟩ := run_in_line hrun hal
  have hpos : 0 < r.run := by
    have := (run_pieces r).1
    rwa [hpiece] at this
  have hecc' := (begun_ecc hb).trans hecc
  have hgate' : gateOpen (begun s c) (s.sc s.cur).ctx.toNat = true := by
    have hcx : (begun s c).cx (s.sc s.cur).ctx.toNat = s.cx (s.sc s.cur).ctx.toNat := by rw [begun_rest hb]; rfl
    unfold gateOpen at hgate ⊢
    rw [hcx, begun_mem hb]
    exact hgate
  obtain ⟨u, hwrite, hrest, hwatch, hmem⟩ := homeWrite_run (req := s.cur) hecc' hgate' ((resolve_congr (xlatSame_begun hb) _ _ _ _).trans hkey) hdev hline
    ((isObjHome_congr (xlatSame_begun hb) _).trans hobj) hpos hin v
  have hcur : u.cur = s.cur := by rw [hrest]; exact begun_cur hb
  refine ⟨u, ?_, by rw [hrest], hcur, fun k => ?_, fun x => ?_⟩
  · show writeGlobal (Safety.copyRun s r c) 0 r.piece [(v, false)] ea (begun s c) = _
    rw [hpiece]
    dsimp only [writeGlobal]
    rw [hctl, if_neg Bool.false_ne_true]
    show (match homeWrite (begun s c) s.cur (s.sc s.cur).ctx.toNat (ea - ea % 64) 64 (v * 2 ^ (8 * (ea % 64))) ((2 ^ r.run - 1) * 2 ^ (ea % 64)) 2 with
      | .error e => _ | .ok s => _) = _
    rw [hwrite]
    rfl
  · have hsc : (begun s c).sc k = s.sc k := by rw [begun_rest hb]; rfl
    have hw := hwatch k
    unfold WatchOnly at hw
    rw [hw]
    exact congrArg (·.reg) hsc
  · rw [hmem, begun_mem hb]

end

/-! ### The records -/

section
variable {s : State} {r : Rec} {c : BitVec 32}

/-- A record's modifiers are those of its operation (R131). -/
theorem mods_of_rule {j : Judge} {cls op : Nat} (h : ruleBroken j cls op r = 0) : r.mods.toNat &&& (65535 - (entryOf cls op r).mods) = 0 := by
  unfold ruleBroken at h
  dsimp only at h
  obtain ⟨-, h⟩ := rule_kept h
  obtain ⟨hmods, -⟩ := rule_kept h
  exact not_not.mp (not_or.mp hmods).1

/-- COPY raises no destination semaphore. -/
theorem copy_raises (hb : begins s 2 0x01 r c) : r.mods.getLsbD 13 = false := by
  have h := mods_of_rule (begins_rule hb)
  have hbit : (r.mods.toNat &&& (65535 - (copyEntry 0x01).mods)).testBit 13 = false := by
    rw [show r.mods.toNat &&& (65535 - (copyEntry 0x01).mods) = 0 from h]
    exact Nat.zero_testBit _
  rw [Nat.testBit_and, show (65535 - (copyEntry 0x01).mods).testBit 13 = true by decide, Bool.and_true] at hbit
  exact hbit

/-- What is left of a copy record that raises nothing. -/
theorem exec_copy_issue (hb : begins s 2 0x01 r c) (hone : oneIssue r) {u : State}
    (hissue : moveIssue (Safety.copyRun s r c) 0 (0, 0, 0, 0) (begun s c) = .ok u)
    (hd : runsAligned (begun s c) (Safety.copyRun s r c) r.d = true) (ha : runsAligned (begun s c) (Safety.copyRun s r c) r.a = true) :
    exec (.copy r) s = .next (endBody u s.cur 2#2 c ⟨[], 1⟩) := by
  refine exec_copyRecord (i := .copy r) (k := 0x01#8) rfl hb ?_
  have hrun : runFrom (moveIssue (Safety.copyRun s r c)) [] r 0 (begun s c) = .done ⟨[], 1⟩ u := runFrom_one hone (begun_lim hb) hissue
  show moveEffect (Safety.copyRun s r c) 0 (begun s c) = _
  unfold moveEffect
  show (if (!(runsAligned (begun s c) (Safety.copyRun s r c) r.d && runsAligned (begun s c) (Safety.copyRun s r c) r.a)) = true then _
    else thenRaise _ _ (runFrom (moveIssue (Safety.copyRun s r c)) [] r 0 (begun s c))) = _
  rw [hd, ha, hrun]
  show Eff.done ⟨[], 1⟩ (raiseDests (Safety.copyRun s r c) (dCores (Safety.copyRun s r c) u) u) = _
  rw [raiseDests_off (x := Safety.copyRun s r c) (copy_raises hb)]

theorem aligned_glob {op ea : Nat} (hone : oneIssue r) (hrun : r.run ≤ 64) (hal : ea % r.run = 0) (hb : begins s 2 op r c) {d : Desc} (h : runAt s r c d = .glob ea) : runsAligned (begun s c) (Safety.copyRun s r c) d = true := by
  refine runsAligned_glob hone ((placeOf_begun hb _ _ _).trans h) ?_
  rw [show (Safety.copyRun s r c).r.piece = r.run from (run_in_line hrun hal).1]
  exact hal

/-- What a record leaves that has written one run at its home. -/
theorem glob_written {op : Nat} (hb : begins s 2 op r c) {u : State} (hcore : u.core = (begun s c).core) (hcur : u.cur = s.cur) :
    started s c 0 false [] (endBody u s.cur 2#2 c ⟨[], 1⟩) ∧ semsKept s (endBody u s.cur 2#2 c ⟨[], 1⟩) := by
  have hco (p : Nat) : u.co p = (begun s c).co p := by
    unfold State.co
    rw [hcore]
  refine ⟨started_copy hb hcur (fun q _ => by rw [hco]) ⟨[], 1⟩, fun p j => ?_⟩
  rw [sem_endBody, hco]
  exact sem_begun hb p j

variable (hone : oneIssue r) (hecc : s.ecc = []) (hrun : r.run ≤ 64) {ea key : Nat} (hal : ea % r.run = 0)
  (hctl : isControl (ea % 2 ^ 56) = false) (hdev : isDevice key = false)
include hone hecc hrun hal hctl hdev

theorem copy_from_global (hb : begins s 2 0x01 r c) {q a : Nat} (ha : runAt s r c r.a = .glob ea) (hd : runAt s r c r.d = .sp q a)
    (hkey : resolve s s.cur (s.sc s.cur).ctx.toNat ea 4 = .ok key) : completes (.copy r) s fun t =>
      t = { s with mem := t.mem, core := t.core } ∧ copied s.mem t.mem (spKey q a) key r.run ∧ started s c 0 false [] t ∧ semsKept s t := by
  obtain ⟨hpiece, hn, -, -⟩ := run_in_line hrun hal
  have hA : placeOf (begun s c) (Safety.copyRun s r c) r.a (0, 0, 0, 0) = .glob ea := (placeOf_begun hb _ _ _).trans ha
  have hD : placeOf (begun s c) (Safety.copyRun s r c) r.d (0, 0, 0, 0) = .sp q a := (placeOf_begun hb _ _ _).trans hd
  have hlt : rdN s.mem key r.run < 256 ^ r.run := by
    have h := rdN_lt s.mem key r.run
    rwa [Nat.pow_mul] at h
  have hsound : Sound r.piece [(rdN s.mem key r.run, false)] := fun e he => by
    rw [List.mem_singleton.mp he, hpiece]
    exact ⟨hlt, rfl⟩
  have hwrite := writeRun_sp (x := Safety.copyRun s r c) ((begun_ecc hb).trans hecc) 0 q a hsound hn.symm
  have hissue : moveIssue (Safety.copyRun s r c) 0 (0, 0, 0, 0) (begun s c) = .ok (withMem s c (wrN s.mem (spKey q a) r.run (rdN s.mem key r.run))) := by
    unfold moveIssue
    rw [show (Safety.copyRun s r c).r = r from rfl] at hwrite ⊢
    rw [hA, readRun_glob hb hecc hrun hal hctl hdev hkey]
    dsimp only
    rw [hD, hwrite, begun_mem hb]
    rfl
  obtain ⟨hrest, hmem, hstart, hsem, -⟩ := copy_written hb (semsOnly_refl (withMem s c (wrN s.mem (spKey q a) r.run (rdN s.mem key r.run)))) (l := ⟨[], 1⟩) rfl rfl
  refine ⟨_, exec_copy_issue hb hone hissue (runsAligned_sp hone hD) (aligned_glob hone hrun hal hb ha), hrest, ?_, hstart, fun p j => ?_⟩
  · rw [hmem]
    exact copied_wrN _ _ _ _
  · rw [hsem]
    exact sem_begun hb p j

variable (hkey : resolve s s.cur (s.sc s.cur).ctx.toNat ea 2 = .ok key) (hline : key % 64 = ea % 64) (hobj : isObjHome s key = false)
  (hgate : gateOpen s (s.sc s.cur).ctx.toNat = true) (hd : runAt s r c r.d = .glob ea)
include hkey hline hobj hgate hd

theorem copy_to_global (hb : begins s 2 0x01 r c) {q a : Nat} (ha : runAt s r c r.a = .sp q a) : completes (.copy r) s fun t =>
      copied s.mem t.mem key (spKey q a) r.run ∧ started s c 0 false [] t ∧ semsKept s t ∧ ∀ k, (t.sc k).reg = (s.sc k).reg := by
  obtain ⟨hpiece, hn, -, -⟩ := run_in_line hrun hal
  have hA : placeOf (begun s c) (Safety.copyRun s r c) r.a (0, 0, 0, 0) = .sp q a := (placeOf_begun hb _ _ _).trans ha
  have hD : placeOf (begun s c) (Safety.copyRun s r c) r.d (0, 0, 0, 0) = .glob ea := (placeOf_begun hb _ _ _).trans hd
  have hlt : rdN s.mem (spKey q a) r.run < 2 ^ (8 * r.run) := rdN_lt _ _ _
  have hcut : cut r.piece (r.run / r.piece) (rdN s.mem (spKey q a) r.run) = [(rdN s.mem (spKey q a) r.run, false)] := by
    rw [hn, hpiece]
    dsimp only [cut]
    rw [Nat.mod_eq_of_lt hlt]
  have hread := readRun_sp (x := Safety.copyRun s r c) ((begun_ecc hb).trans hecc) (begun_ahead hb) 0 q a
  obtain ⟨u, hwrite, hcore, hcur, hregs, hmem⟩ := writeRun_glob hb hecc hrun hal hctl hdev hkey hline hobj hgate (rdN s.mem (spKey q a) r.run)
  have hissue : moveIssue (Safety.copyRun s r c) 0 (0, 0, 0, 0) (begun s c) = .ok u := by
    unfold moveIssue
    rw [show (Safety.copyRun s r c).r = r from rfl] at hread ⊢
    rw [hA, hread, begun_mem hb, hcut]
    dsimp only
    rw [hD, hwrite]
  obtain ⟨hstart, hsem⟩ := glob_written hb hcore hcur
  refine ⟨_, exec_copy_issue hb hone hissue (aligned_glob hone hrun hal hb hd) (runsAligned_sp hone hA), ⟨fun j hj => ?_, fun k hk => ?_⟩, hstart, hsem, hregs⟩
  · have hbyte := rdN_byte s.mem (spKey q a) hj
    rw [Nat.pow_mul] at hbyte
    refine (hmem (key + j)).trans ?_
    rw [if_pos (by omega), Nat.add_sub_cancel_left]
    exact BitVec.eq_of_toNat_eq (by rw [show (256 : Nat) = 2 ^ 8 from rfl, hbyte, BitVec.toNat_ofNat, Nat.mod_eq_of_lt (BitVec.isLt _)])
  · exact (hmem k).trans (if_neg (by omega))

theorem fill_global (hb : begins s 2 0x02 r c) : completes (.fill r) s fun t =>
      started s c 0 false [] t ∧ semsKept s t ∧ (∀ k, (t.sc k).reg = (s.sc k).reg) ∧
      (∀ j, j < r.run → memGet t.mem (key + j) = BitVec.ofNat 8 (r.mf 15 8)) ∧
      ∀ k, k < key ∨ key + r.run ≤ k → memGet t.mem k = memGet s.mem k := by
  obtain ⟨hpiece, hn, -, -⟩ := run_in_line hrun hal
  obtain ⟨v, hv⟩ : ∃ v, v = r.mf 15 8 * ((2 ^ (8 * r.piece) - 1) / 255) := ⟨_, rfl⟩
  have hpieces : fillPieces r = [(v, false)] := by
    unfold fillPieces
    rw [hn, hv]
    rfl
  obtain ⟨-, -, hbytes⟩ := fill_pieces r
  have hD : placeOf (begun s c) (Safety.copyRun s r c) r.d (0, 0, 0, 0) = .glob ea := (placeOf_begun hb _ _ _).trans hd
  obtain ⟨u, hwrite, hcore, hcur, hregs, hmem⟩ := writeRun_glob hb hecc hrun hal hctl hdev hkey hline hobj hgate v
  have hissue : fillIssue (Safety.copyRun s r c) 0 (0, 0, 0, 0) (begun s c) = .ok u := by
    unfold fillIssue
    rw [show (Safety.copyRun s r c).r = r from rfl, hD, hpieces, hwrite]
  have hrun' : runFrom (fillIssue (Safety.copyRun s r c)) [] r 0 (begun s c) = .done ⟨[], 1⟩ u := runFrom_one hone (begun_lim hb) hissue
  have hexec := exec_copyRecord (i := .fill r) (k := 0x02#8) rfl hb (l := ⟨[], 1⟩) (u := u) (by
    show fillEffect (Safety.copyRun s r c) 0 (begun s c) = _
    unfold fillEffect
    show (if (!runsAligned (begun s c) (Safety.copyRun s r c) r.d) = true then _ else runFrom (fillIssue (Safety.copyRun s r c)) [] r 0 (begun s c)) = _
    rw [aligned_glob hone hrun hal hb hd, hrun']
    rfl)
  obtain ⟨hstart, hsem⟩ := glob_written hb hcore hcur
  refine ⟨_, hexec, hstart, hsem, hregs, fun j hj => ?_, fun k hk => ?_⟩
  · have hbyte := hbytes j hj
    rw [hpieces] at hbyte
    refine (hmem (key + j)).trans ?_
    rw [if_pos (by omega), Nat.add_sub_cancel_left, show v = joinRun r.piece [(v, false)] from rfl, hbyte]
  · exact (hmem k).trans (if_neg (by omega))

end

/-- COPY from a global line, and COPY and FILL to one, as their theorems give them. -/
theorem globalCopyResults : Parts.GlobalCopyResults := fun _ _ _ _ _ hone hecc hrun hal hctl hdev =>
  ⟨fun _ _ hb ha hd hkey => copy_from_global hone hecc hrun hal hctl hdev hb ha hd hkey,
    fun hkey hline hobj hgate hd => ⟨fun _ _ hb ha => copy_to_global hone hecc hrun hal hctl hdev hkey hline hobj hgate hd hb ha,
      fun hb => fill_global hone hecc hrun hal hctl hdev hkey hline hobj hgate hd hb⟩⟩

/-- Settles O36: the copies between scratchpads, and those with a global operand. -/
theorem copyRecords : Obligations.CopyRecords := ⟨localCopyResults, globalCopyResults⟩

end Sys2Proof.Machine
end

section
/-! PUTRED, MCAST and SEMPOST (R222, R223, R225, R327 to R329). -/
namespace Sys2Proof.Machine
set_option Elab.async false
open Safety

/-! ### Elements combined in memory -/

/-- What combining elements in a row leaves: each element, and whether one overflowed or clamped. -/
theorem combineRun_spec (tag op e n : Nat) (m : Memory) (k v : Nat) (o : Bool) :
    (∀ j, j < n → rdN (combineRun tag op e m k n v o).1 (k + e * j) e =
      (combineElem tag op (rdN m (k + e * j) e) (v / 2 ^ (8 * (e * j)) % 2 ^ (8 * e))).1 % 256 ^ e) ∧
    (∀ x, x < k ∨ k + e * n ≤ x → memGet (combineRun tag op e m k n v o).1 x = memGet m x) ∧
    ((combineRun tag op e m k n v o).2 = true ↔ o = true ∨ ∃ j, j < n ∧
      (combineElem tag op (rdN m (k + e * j) e) (v / 2 ^ (8 * (e * j)) % 2 ^ (8 * e))).2 = true) := by
  induction n generalizing m k v o with
  | zero => exact ⟨fun j hj => absurd hj (Nat.not_lt_zero j), fun _ _ => rfl, ⟨.inl, fun h => h.resolve_right fun ⟨j, hj, _⟩ => Nat.not_lt_zero j hj⟩⟩
  | succ n ih =>
    obtain ⟨w, hw⟩ : ∃ w, w = combineElem tag op (rdN m k e) (v % 2 ^ (8 * e)) := ⟨_, rfl⟩
    obtain ⟨m', hm'⟩ : ∃ m', m' = wrN m k e w.1 := ⟨_, rfl⟩
    have hrun : combineRun tag op e m k (n + 1) v o = combineRun tag op e m' (k + e) n (v / 2 ^ (8 * e)) (o || w.2) := by rw [hm', hw]; rfl
    obtain ⟨hin, hout, hbad⟩ := ih m' (k + e) (v / 2 ^ (8 * e)) (o || w.2)
    have hfirst : combineElem tag op (rdN m (k + e * 0) e) (v / 2 ^ (8 * (e * 0)) % 2 ^ (8 * e)) = w := by
      rw [hw, Nat.mul_zero, Nat.add_zero, Nat.mul_zero, pow_zero, Nat.div_one]
    have hnext (j : Nat) : combineElem tag op (rdN m' (k + e + e * j) e) (v / 2 ^ (8 * e) / 2 ^ (8 * (e * j)) % 2 ^ (8 * e)) =
        combineElem tag op (rdN m (k + e * (j + 1)) e) (v / 2 ^ (8 * (e * (j + 1))) % 2 ^ (8 * e)) := by
      rw [hm', rdN_wrN_out _ _ _ _ _ _ (.inr (by omega)), Nat.div_div_eq_div_mul, ← Nat.pow_add, Nat.mul_succ, Nat.add_comm (e * j) e, ← Nat.add_assoc,
        Nat.mul_add 8 e]
    rw [hrun]
    refine ⟨fun j hj => ?_, fun x hx => ?_, ?_⟩
    · cases j with
      | zero =>
        rw [hfirst, Nat.mul_zero, Nat.add_zero, rdN_congr (m := m') fun i hi => hout _ (.inl (by omega)), hm', rdN_wrN]
      | succ j =>
        have h := hin j (Nat.lt_of_succ_lt_succ hj)
        rw [hnext] at h
        rw [← h, Nat.mul_succ, Nat.add_comm (e * j) e, ← Nat.add_assoc]
    · have hsucc : e * (n + 1) = e + e * n := by rw [Nat.mul_succ, Nat.add_comm]
      rw [hout x (by omega), hm']
      exact memGet_wrN_out _ _ _ _ _ (by
        rcases hx with h | h
        · exact .inl h
        · exact .inr (by have := Nat.zero_le (e * n); omega))
    · rw [hbad, Bool.or_eq_true]
      constructor
      · rintro ((h | h) | ⟨j, hj, h⟩)
        · exact .inl h
        · exact .inr ⟨0, Nat.succ_pos n, by rw [hfirst]; exact h⟩
        · exact .inr ⟨j + 1, Nat.succ_lt_succ hj, by rw [← hnext]; exact h⟩
      · rintro (h | ⟨j, hj, h⟩)
        · exact .inl (.inl h)
        · cases j with
          | zero => exact .inl (.inr (by rwa [hfirst] at h))
          | succ j => exact .inr ⟨j, Nat.lt_of_succ_lt_succ hj, by rwa [hnext]⟩

theorem combineSp_rest (u : State) (p a n v tag op : Nat) :
    combineSp u p a n v tag op = { u with mem := (combineSp u p a n v tag op).mem, core := (combineSp u p a n v tag op).core } := by
  unfold combineSp
  dsimp only
  split_ifs <;> rfl

theorem mem_combineSp (u : State) (p a n v tag op : Nat) : (combineSp u p a n v tag op).mem =
    (combineRun tag op (elemSize tag) u.mem (spKey p a) (n / elemSize tag) v false).1 := by
  unfold combineSp
  dsimp only
  split_ifs <;> rfl

theorem co_combineSp (u : State) (p a n v tag op j : Nat) : ∃ w : Word, (combineSp u p a n v tag op).co j = { u.co j with redstat := w } ∧
    (w.getLsbD 0 = true ↔ (u.co j).redstat.getLsbD 0 = true ∨ (j = p ∧ (combineRun tag op (elemSize tag) u.mem (spKey p a) (n / elemSize tag) v false).2 = true)) := by
  unfold combineSp
  dsimp only
  by_cases hbad : (combineRun tag op (elemSize tag) u.mem (spKey p a) (n / elemSize tag) v false).2 = true
  · rw [if_pos hbad]
    rw [upCo_get { u with mem := (combineRun tag op (elemSize tag) u.mem (spKey p a) (n / elemSize tag) v false).1 } p (fun x => { x with redstat := x.redstat ||| 1 }) j]
    by_cases hj : j = p
    · rw [if_pos hj, hj]
      refine ⟨_, rfl, ?_⟩
      rw [BitVec.getLsbD_or]
      exact ⟨fun _ => .inr ⟨rfl, hbad⟩, fun _ => by simp⟩
    · rw [if_neg hj]
      exact ⟨_, rfl, ⟨.inl, fun h => h.resolve_right fun e => hj e.1⟩⟩
  · rw [if_neg hbad]
    exact ⟨_, rfl, ⟨.inl, fun h => h.resolve_right fun e => hbad e.2⟩⟩

section
variable {s : State} {r : Rec} {c : BitVec 32}

/-! ### PUTRED -/

/-- The package after PUTRED's issue. -/
def reduced (s : State) (r : Rec) (c : BitVec 32) (q a qa aa : Nat) : State :=
  combineSp (begun s c) q a r.run (rdN s.mem (spKey qa aa) r.run) r.d.tag.toNat (r.mf 7 4)

theorem putred_turn (hb : begins s 2 0x12 r c) (hone : oneIssue r) (hecc : s.ecc = []) {q a qa aa : Nat} (hd : runAt s r c r.d = .sp q a) (ha : runAt s r c r.a = .sp qa aa) :
    ∃ qs, exec (.putred r) s = .next (endBody (raiseDests (Safety.copyRun s r c) qs (reduced s r c q a qa aa)) s.cur 2#2 c ⟨[], 1⟩) := by
  have hecc' : (begun s c).ecc = [] := (begun_ecc hb).trans hecc
  have hA : placeOf (begun s c) (Safety.copyRun s r c) r.a (0, 0, 0, 0) = .sp qa aa := (placeOf_begun hb _ _ _).trans ha
  have hD : placeOf (begun s c) (Safety.copyRun s r c) r.d (0, 0, 0, 0) = .sp q a := (placeOf_begun hb _ _ _).trans hd
  have hread := readRun_sp (x := Safety.copyRun s r c) hecc' (begun_ahead hb) 0 qa aa
  have hissue : putredIssue (Safety.copyRun s r c) 0 (0, 0, 0, 0) (begun s c) = .ok (reduced s r c q a qa aa) := by
    unfold putredIssue
    rw [show (Safety.copyRun s r c).r = r from rfl] at hread ⊢
    rw [hA, hread]
    dsimp only
    rw [hD, begun_mem hb, joinRun_run]
    dsimp only
    rw [spBad_of_no_error hecc', if_neg Bool.false_ne_true, spFix_of_no_error hecc']
    rfl
  have hrun : runFrom (putredIssue (Safety.copyRun s r c)) [] r 0 (begun s c) = .done ⟨[], 1⟩ (reduced s r c q a qa aa) := runFrom_one hone (begun_lim hb) hissue
  refine ⟨dCores (Safety.copyRun s r c) (reduced s r c q a qa aa), exec_copyRecord (i := .putred r) (k := 0x12#8) rfl hb ?_⟩
  show putredEffect (Safety.copyRun s r c) 0 (begun s c) = _
  unfold putredEffect
  show (if (!runsAligned (begun s c) (Safety.copyRun s r c) r.d) = true then _ else thenRaise _ _ (runFrom (putredIssue (Safety.copyRun s r c)) [] r 0 (begun s c))) = _
  rw [runsAligned_sp (x := Safety.copyRun s r c) hone hD, hrun]
  rfl

theorem putred_result (hb : begins s 2 0x12 r c) (hone : oneIssue r) (hecc : s.ecc = []) {q a qa aa e : Nat} (hd : runAt s r c r.d = .sp q a) (ha : runAt s r c r.a = .sp qa aa)
    (he : e = elemSize r.d.tag.toNat) : completes (.putred r) s fun t =>
        t = { s with mem := t.mem, core := t.core } ∧ started s c 0 false [] t ∧
        (∀ j, j < r.run / e → rdN t.mem (spKey q a + e * j) e = (combineElem r.d.tag.toNat (r.mf 7 4) (rdN s.mem (spKey q a + e * j) e)
          (rdN s.mem (spKey qa aa + e * j) e)).1 % 256 ^ e) ∧
        (∀ k, k < spKey q a ∨ spKey q a + r.run ≤ k → memGet t.mem k = memGet s.mem k) ∧
        ((t.co q).redstat.getLsbD 0 = true ↔ (s.co q).redstat.getLsbD 0 = true ∨ ∃ j, j < r.run / e ∧
          (combineElem r.d.tag.toNat (r.mf 7 4) (rdN s.mem (spKey q a + e * j) e) (rdN s.mem (spKey qa aa + e * j) e)).2 = true) := by
  subst he
  obtain ⟨qs, hexec⟩ := putred_turn hb hone hecc hd ha
  obtain ⟨hin, hout, hbad⟩ := combineRun_spec r.d.tag.toNat (r.mf 7 4) (elemSize r.d.tag.toNat) (r.run / elemSize r.d.tag.toNat) s.mem (spKey q a)
    (rdN s.mem (spKey qa aa) r.run) false
  have hslice (j : Nat) (hj : j < r.run / elemSize r.d.tag.toNat) : rdN s.mem (spKey qa aa) r.run / 2 ^ (8 * (elemSize r.d.tag.toNat * j)) % 2 ^ (8 * elemSize r.d.tag.toNat) =
      rdN s.mem (spKey qa aa + elemSize r.d.tag.toNat * j) (elemSize r.d.tag.toNat) := by
    refine rdN_slice _ _ ?_
    calc elemSize r.d.tag.toNat * j + elemSize r.d.tag.toNat = elemSize r.d.tag.toNat * (j + 1) := by ring
      _ ≤ elemSize r.d.tag.toNat * (r.run / elemSize r.d.tag.toNat) := Nat.mul_le_mul_left _ hj
      _ ≤ r.run := Nat.mul_div_le _ _
  have hv : reduced s r c q a qa aa = { s with mem := (reduced s r c q a qa aa).mem, core := (reduced s r c q a qa aa).core } := by
    have h := combineSp_rest (begun s c) q a r.run (rdN s.mem (spKey qa aa) r.run) r.d.tag.toNat (r.mf 7 4)
    unfold reduced
    generalize combineSp (begun s c) q a r.run (rdN s.mem (spKey qa aa) r.run) r.d.tag.toNat (r.mf 7 4) = v at h
    rw [h, begun_rest hb]
  have hmem : (reduced s r c q a qa aa).mem = (combineRun r.d.tag.toNat (r.mf 7 4) (elemSize r.d.tag.toNat) s.mem (spKey q a) (r.run / elemSize r.d.tag.toNat)
      (rdN s.mem (spKey qa aa) r.run) false).1 := by
    unfold reduced
    rw [mem_combineSp, begun_mem hb]
  have hco (j : Nat) : ∃ w : Word, (reduced s r c q a qa aa).co j = { (begun s c).co j with redstat := w } ∧
      (w.getLsbD 0 = true ↔ ((begun s c).co j).redstat.getLsbD 0 = true ∨ (j = q ∧ (combineRun r.d.tag.toNat (r.mf 7 4) (elemSize r.d.tag.toNat) s.mem (spKey q a)
        (r.run / elemSize r.d.tag.toNat) (rdN s.mem (spKey qa aa) r.run) false).2 = true)) := by
    have h := co_combineSp (begun s c) q a r.run (rdN s.mem (spKey qa aa) r.run) r.d.tag.toNat (r.mf 7 4) j
    rw [begun_mem hb] at h
    exact h
  have hq (n : BitVec 2) : ((reduced s r c q a qa aa).co s.cur).queue n = ((begun s c).co s.cur).queue n := by
    obtain ⟨w, hw, -⟩ := hco s.cur
    rw [hw]
    rfl
  have hsems := semsOnly_raiseDests (Safety.copyRun s r c) qs (reduced s r c q a qa aa)
  obtain ⟨hrest, hmem', hstart, -, -⟩ := copy_left hb hv (fun n _ => hq n) hsems (l := ⟨[], 1⟩) rfl rfl
  refine ⟨_, hexec, hrest, hstart, fun j hj => ?_, fun k hk => ?_, ?_⟩
  · rw [hmem', hmem, hin j hj, hslice j hj]
  · rw [hmem', hmem]
    exact hout k (hk.imp_right fun h => (Nat.add_le_add_left (Nat.mul_div_le _ _) _).trans h)
  · obtain ⟨w, hw, hbit⟩ := hco q
    have hred : ((begun s c).co q).redstat = (s.co q).redstat := by
      by_cases hp : q = s.cur
      · rw [hp, begun_core hb, setQueue_eq]
      · rw [begun_other hb hp]
    rw [redstat_endBody, hsems.redstat, hw]
    refine hbit.trans ?_
    rw [hred, hbad]
    refine or_congr Iff.rfl ⟨fun ⟨_, h⟩ => ?_, fun ⟨j, hj, h⟩ => ⟨rfl, .inr ⟨j, hj, by rwa [hslice j hj]⟩⟩⟩
    obtain ⟨j, hj, h⟩ := h.resolve_left Bool.false_ne_true
    exact ⟨j, hj, by rwa [hslice j hj] at h⟩

/-! ### SEMPOST -/

theorem nest_length_pos (h : r.zeroTrip = false) : 0 < (nest r).length := by
  have hall : ∀ n ∈ r.n, n ≠ 0 := fun n hn h0 => by
    have hz : r.zeroTrip = true := List.any_eq_true.mpr ⟨n, hn, by simpa using h0⟩
    rw [h] at hz
    exact Bool.false_ne_true hz
  have h0 : r.n0.toNat ≠ 0 := hall _ (by simp [Rec.n])
  have h1 : r.n1.toNat ≠ 0 := hall _ (by simp [Rec.n])
  have h2 : r.n2.toNat ≠ 0 := hall _ (by simp [Rec.n])
  have h3 : r.n3.toNat ≠ 0 := hall _ (by simp [Rec.n])
  have hmem : (0, 0, 0, 0) ∈ nest r := by
    unfold nest
    simp only [List.mem_flatMap, List.mem_map, List.mem_range]
    exact ⟨0, Nat.pos_of_ne_zero h3, 0, Nat.pos_of_ne_zero h2, 0, Nat.pos_of_ne_zero h1, 0, Nat.pos_of_ne_zero h0, rfl⟩
  exact List.length_pos_of_mem hmem

theorem length_issues : (issues r).length = (nest r).length := by
  unfold issues
  rw [List.length_map, List.length_zipIdx]

/-- A raise for each issue, at one core. -/
theorem runIssues_raise (p l qu : Nat) (slot : BitVec 32) (k : Nat) (err : Bool) (es : List (Nat × Nat × Nat × Nat × Nat)) (u : State) :
    ∃ v, runIssues (fun _ _ s => .ok (raiseBy s (teamCore s p l) p qu slot k err)) es u = .ok v ∧ SemsOnly u v ∧
      ∀ j m, (v.co j).sem m = if j = teamCore u p l ∧ m = k then
        { (u.co j).sem m with done := ((u.co j).sem m).done + BitVec.ofNat 32 es.length, err := ((u.co j).sem m).err || (err && !es.isEmpty) } else (u.co j).sem m := by
  induction es generalizing u with
  | nil =>
    refine ⟨u, rfl, semsOnly_refl u, fun j m => ?_⟩
    split_ifs
    · simp
    · rfl
  | cons e es ih =>
    have hraise := semsOnly_raiseBy u (teamCore u p l) p qu slot k err
    obtain ⟨v, hrun, hsems, hsem⟩ := ih (raiseBy u (teamCore u p l) p qu slot k err)
    refine ⟨v, hrun, semsOnly_trans hraise hsems, fun j m => ?_⟩
    have hcore : teamCore (raiseBy u (teamCore u p l) p qu slot k err) p l = teamCore u p l := teamCore_congr (teamOf_semsOnly hraise) p l
    rw [hsem, hcore, sem_raiseBy]
    by_cases h : j = teamCore u p l ∧ m = k
    · simp only [if_pos h, List.length_cons, List.isEmpty_cons, Bool.not_false, Bool.and_true]
      congr 1
      · rw [BitVec.add_assoc]
        congr 1
        rw [Nat.add_comm, BitVec.ofNat_add]
        rfl
      · cases err <;> simp
    · simp only [if_neg h]

theorem sempost_result (hb : begins s 2 0x18 r c) : completes (.sempost r) s fun t =>
      t = { s with core := t.core } ∧ started s c 0 false [] t ∧
      raised s t (teamCore s s.cur r.d.tile) (r.d.origin % 32) (nest r).length (r.mods.getLsbD 8) := by
  obtain ⟨v, hrun, hsems, hsem⟩ := runIssues_raise s.cur r.d.tile 2 c (r.d.origin % 32) (r.mods.getLsbD 8) (issues r) (begun s c)
  have hbody : copyEffect (Safety.copyRun s r c) 0x18 0 (begun s c) = .done ⟨[], (issues r).length⟩ v := by
    show runFrom (fun _ _ s' => .ok (raiseBy s' (teamCore s' s.cur r.d.tile) s.cur 2 c (r.d.origin % 32) (r.mods.getLsbD 8))) [] r 0 (begun s c) = _
    unfold runFrom issuesBy inTurn
    dsimp only
    rw [if_pos rfl, begun_lim hb, List.drop_zero]
    dsimp only
    rw [hrun]
    dsimp only
    rw [if_neg (Nat.lt_irrefl _)]
  have hexec := exec_copyRecord (i := .sempost r) (k := 0x18#8) rfl hb hbody
  have hbegun : begun s c = { s with mem := (begun s c).mem, core := (begun s c).core } := by rw [begun_rest hb]
  obtain ⟨hrest, hmem, hstart, hsem', -⟩ := copy_left hb hbegun (fun _ _ => rfl) hsems (l := ⟨[], (issues r).length⟩) rfl rfl
  have hmem' : (endBody v s.cur 2#2 c ⟨[], (issues r).length⟩).mem = s.mem := hmem.trans (begun_mem hb)
  refine ⟨_, hexec, ?_, hstart, fun p j => ?_⟩
  · rw [hmem'] at hrest
    exact hrest
  · have hempty : (issues r).isEmpty = false := by
      have hpos := nest_length_pos (begins_zeroTrip hb)
      rw [← length_issues] at hpos
      exact List.isEmpty_eq_false_iff.mpr (List.ne_nil_of_length_pos hpos)
    have hcore : teamCore (begun s c) s.cur r.d.tile = teamCore s s.cur r.d.tile := teamCore_congr (teamOf_begun hb) _ _
    rw [hsem', hsem, sem_begun hb, hempty, length_issues, hcore, Bool.not_false, Bool.and_true]

end

end Sys2Proof.Machine
end

section
/-! MCAST (R223). -/
namespace Sys2Proof.Machine
set_option Elab.async false
open Safety

/-! ### A record whose flight has been changed -/

section
variable {s : State} {cls op : Nat} {r : Rec} {c : BitVec 32}

/-- The queue of a record that begins, with its flight as it has become. -/
def flightQueue (s : State) (f : Flight) : Queue := { ringOf s s.curq with flight := (ringOf s s.curq).flight ++ [f], words := [] }

theorem co_endBody_flight (hb : begins s cls op r c) {u : State} {f : Flight} (hq : (u.co s.cur).queue s.curq = flightQueue s f) (hslot : f.slot = c) (l : Left) :
    (endBody u s.cur s.curq c l).co s.cur = (u.co s.cur).setQueue s.curq (flightQueue s (overFlight f l)) := by
  refine (upCo_get u s.cur (fun x => x.setQueue s.curq { x.queue s.curq with
    flight := (x.queue s.curq).flight.map fun f => if f.slot = c then overFlight f l else f }) s.cur).trans ((if_pos rfl).trans ?_)
  rw [hq]
  unfold flightQueue
  dsimp only
  rw [map_upFlight (begins_fresh hb) (fun f => overFlight f l) hslot]

/-- The record has started, its body over, its flight having taken up what the record has read. -/
theorem started_flight (hb : begins s cls op r c) (hcls : cls < 3) {u : State} (hcur : u.cur = s.cur) {f : Flight}
    (hq : (u.co s.cur).queue s.curq = flightQueue s f) (hother : ∀ q, q ≠ 3#2 → q ≠ s.curq → (u.co s.cur).queue q = ringOf s q)
    (hhdr : f.hdr = slotHeader s c) (hslot : f.slot = c) (hpend : f.pend = 1) (herr : f.err = false) (hstat : f.stat = 0) (l : Left) :
    started s c 0 false l.tags (endBody u s.cur s.curq c l) := by
  have hco := co_endBody_flight hb hq hslot l
  have hring (q : BitVec 2) : ringOf (endBody u s.cur s.curq c l) q = ((u.co s.cur).setQueue s.curq (flightQueue s (overFlight f l))).queue q := by
    rw [← hco, ← hcur]
    rfl
  refine ⟨⟨overFlight f l, ?_, hhdr, hslot, rfl, ?_, herr, hstat, rfl⟩, fun q hq3 hne => ?_⟩
  · rw [hring, queue_setQueue]
    rfl
  · unfold overFlight
    rw [hpend]
  · rw [hring, queue_setQueue_other _ hq3 hne (begins_curq_ne hb hcls), hother q hq3 hne]

/-- The core of a record that has taken up what it has read in its flight. -/
theorem co_upFlight_begun (hb : begins s cls op r c) (g : Flight → Flight) :
    ((begun s c).upFlight s.cur s.curq c g).co s.cur = (s.co s.cur).setQueue s.curq (flightQueue s (g (begunFlight s c))) := by
  refine (upCo_get (begun s c) s.cur (fun x => x.setQueue s.curq { x.queue s.curq with
    flight := (x.queue s.curq).flight.map fun f => if f.slot = c then g f else f }) s.cur).trans ((if_pos rfl).trans ?_)
  rw [begun_core hb, queue_setQueue, setQueue_setQueue]
  unfold begunQueue flightQueue
  dsimp only
  rw [map_upFlight (begins_fresh hb) g rfl]

theorem co_upFlight_begun_other (hb : begins s cls op r c) (g : Flight → Flight) {p : Nat} (hp : p ≠ s.cur) :
    ((begun s c).upFlight s.cur s.curq c g).co p = s.co p :=
  (upCo_get (begun s c) s.cur (fun x => x.setQueue s.curq { x.queue s.curq with
    flight := (x.queue s.curq).flight.map fun f => if f.slot = c then g f else f }) p).trans ((if_neg hp).trans (begun_other hb hp))

theorem upFlight_begun_rest (hb : begins s cls op r c) (g : Flight → Flight) :
    (begun s c).upFlight s.cur s.curq c g = { s with core := ((begun s c).upFlight s.cur s.curq c g).core } := by
  have h : (begun s c).upFlight s.cur s.curq c g = { begun s c with core := ((begun s c).upFlight s.cur s.curq c g).core } := rfl
  generalize (begun s c).upFlight s.cur s.curq c g = t at h
  rw [h, begun_rest hb]

/-- Nothing of an operand has been read ahead. -/
theorem aheadOf_upFlight_begun (hb : begins s cls op r c) (g : Flight → Flight) : aheadOf ((begun s c).upFlight s.cur s.curq c g) s.cur = [] := by
  have hkeep : ((begun s c).upFlight s.cur s.curq c g).curq = s.curq := by rw [upFlight_begun_rest hb]
  unfold aheadOf
  rw [hkeep, co_upFlight_begun hb, queue_setQueue]
  exact begins_early hb

end

/-! ### The B block -/

section
variable {s : State} {op : Nat} {r : Rec} {c : BitVec 32}

/-- The package once a record has read its B block. -/
def blockRead (s : State) (c : BitVec 32) (v : Nat) : State := (begun s c).upFlight s.cur 2#2 c fun f => { f with blk := some v }

theorem blockRead_eq (hb : begins s 2 op r c) (v : Nat) : blockRead s c v = (begun s c).upFlight s.cur s.curq c fun f => { f with blk := some v } := by
  unfold blockRead
  rw [begins_copy_curq hb]

theorem co_blockRead (hb : begins s 2 op r c) (v : Nat) :
    (blockRead s c v).co s.cur = (s.co s.cur).setQueue 2#2 (flightQueue s { begunFlight s c with blk := some v }) := by
  rw [blockRead_eq hb, co_upFlight_begun hb, begins_copy_curq hb]

theorem co_blockRead_other (hb : begins s 2 op r c) (v : Nat) {p : Nat} (hp : p ≠ s.cur) : (blockRead s c v).co p = s.co p := by
  rw [blockRead_eq hb, co_upFlight_begun_other hb _ hp]

theorem blockRead_rest (hb : begins s 2 op r c) (v : Nat) : blockRead s c v = { s with core := (blockRead s c v).core } := by
  have h := upFlight_begun_rest hb fun f => { f with blk := some v }
  rwa [← blockRead_eq hb] at h

theorem teamOf_blockRead (hb : begins s 2 op r c) (v p : Nat) : (blockRead s c v).teamOf p = s.teamOf p := by
  have htask : ((blockRead s c v).co p).task = (s.co p).task := by
    by_cases hp : p = s.cur
    · rw [hp, co_blockRead hb, task_setQueue]
    · rw [co_blockRead_other hb v hp]
  have hteam : (blockRead s c v).team = s.team := by rw [blockRead_rest hb]
  unfold State.teamOf State.tm
  rw [htask, hteam]

theorem aheadOf_blockRead (hb : begins s 2 op r c) (v : Nat) : aheadOf (blockRead s c v) s.cur = [] := by
  rw [blockRead_eq hb, aheadOf_upFlight_begun hb]

/-- The block that a record reads as it starts. -/
theorem blockOf_begun (hb : begins s 2 op r c) (hecc : s.ecc = []) (hsp : r.b.space ≠ 4#4) (n : Nat) : blockOf (Safety.copyRun s r c) n (begun s c) =
    .ok (rdN s.mem (spKey s.cur (spAt s r c r.b)) n, blockRead s c (rdN s.mem (spKey s.cur (spAt s r c r.b)) n)) := by
  have hecc' : (begun s c).ecc = [] := (begun_ecc hb).trans hecc
  have haddr : recAddr (begun s c) s.cur (Safety.copyRun s r c).ph (r.b.origin : Int) = spAt s r c r.b := by
    unfold spAt
    rw [recAddr_begun hb, begins_copy_curq hb, Desc.origin, if_neg hsp]
    rfl
  unfold blockOf
  show (let b := recAddr (begun s c) s.cur (Safety.copyRun s r c).ph (r.b.origin : Int)
    if spBad (begun s c) s.cur b n = true then _ else
      let v := opRead (begun s c) s.cur s.cur b n
      Except.ok (v, (spFix (begun s c) s.cur b n).upFlight s.cur 2#2 c fun f => { f with blk := some v })) = _
  dsimp only
  rw [haddr, spBad_of_no_error hecc', if_neg Bool.false_ne_true, spFix_of_no_error hecc', opRead_begun hb]
  rfl

/-! ### Copies of one run -/

/-- Memory with n bytes of a number at each of some keys. -/
def spread (m : Memory) (n v : Nat) (keys : List Nat) : Memory := keys.foldl (fun m k => wrN m k n v) m

/-- A byte that every copy that covers it gives alike. -/
theorem memGet_spread_in {n v x : Nat} {b : BitVec 8} (keys : List Nat) (m : Memory)
    (hall : ∀ k ∈ keys, k ≤ x → x < k + n → BitVec.ofNat 8 (v / 256 ^ (x - k) % 256) = b)
    (h : memGet m x = b ∨ ∃ k ∈ keys, k ≤ x ∧ x < k + n) : memGet (spread m n v keys) x = b := by
  induction keys generalizing m with
  | nil => exact h.resolve_right fun ⟨k, hk, _⟩ => nomatch hk
  | cons k keys ih =>
    refine ih (wrN m k n v) (fun j hj => hall j (List.mem_cons_of_mem _ hj)) ?_
    by_cases hin : k ≤ x ∧ x < k + n
    · obtain ⟨j, rfl⟩ := Nat.exists_eq_add_of_le hin.1
      have hb := hall k List.mem_cons_self hin.1 hin.2
      rw [Nat.add_sub_cancel_left] at hb
      exact .inl ((memGet_wrN_in _ _ _ _ _ (by omega)).trans hb)
    · rcases h with h | ⟨j, hj, hjx⟩
      · exact .inl ((memGet_wrN_out _ _ _ _ _ (by omega)).trans h)
      · rcases List.mem_cons.mp hj with rfl | hj
        · exact absurd hjx hin
        · exact .inr ⟨j, hj, hjx⟩

theorem memGet_spread_out {n v x : Nat} (keys : List Nat) (m : Memory) (h : ∀ k ∈ keys, x < k ∨ k + n ≤ x) : memGet (spread m n v keys) x = memGet m x := by
  induction keys generalizing m with
  | nil => rfl
  | cons k keys ih => exact (ih _ fun j hj => h j (List.mem_cons_of_mem _ hj)).trans (memGet_wrN_out _ _ _ _ _ (h k List.mem_cons_self))

/-- A run that is written at one address of several cores. -/
theorem foldl_writeRunSp {u : State} (hecc : u.ecc = []) (hteam : ∀ p, u.teamOf p = s.teamOf p) (p k a : Nat) {ps : List (Nat × Bool)} (h : Sound k ps) (js : List Nat) :
    js.foldl (fun s j => writeRunSp (teamCore s p j) k ps a s) u =
      { u with mem := spread u.mem (k * ps.length) (joinRun k ps) (js.map fun j => spKey (teamCore s p j) a) } := by
  induction js generalizing u with
  | nil => rfl
  | cons j js ih =>
    rw [List.foldl_cons, writeRunSp_sound hecc _ _ h, teamCore_congr hteam,
      ih (u := { u with mem := wrN u.mem (spKey (teamCore s p j) a) (k * ps.length) (joinRun k ps) }) hecc hteam]
    rfl

/-- Two cores' runs at one address coincide or lie apart. -/
theorem spKey_apart {p q a n x : Nat} (hn : n ≤ 2 ^ 22) (hp : spKey p a ≤ x ∧ x < spKey p a + n) (hq : spKey q a ≤ x ∧ x < spKey q a + n) : spKey p a = spKey q a := by
  unfold spKey at hp hq ⊢
  omega

theorem run_le (r : Rec) : r.run ≤ 2 ^ 15 := by
  have h : r.mf 3 0 < 2 ^ 4 := Nat.mod_lt _ (by decide)
  exact Nat.pow_le_pow_right (by decide) (by omega)

end

section
variable {s : State} {r : Rec} {c : BitVec 32}

/-- MCAST's B block lies in the core's own scratchpad. -/
theorem mcast_block (hb : begins s 2 0x13 r c) : r.b.space ≠ 4#4 := by
  have hok : OperandsOk (copyEntry 0x13) r := operandsOk_of_rule (begins_rule hb)
  have h : r.b.space.toNat = 1 := List.mem_singleton.mp (hok.bSpace (by decide))
  intro h4
  rw [h4] at h
  exact absurd h (by decide)

theorem teamSize_congr {u : State} (h : ∀ p, u.teamOf p = s.teamOf p) (p : Nat) : teamSize u p = teamSize s p := by
  unfold teamSize
  rw [h]

/-- A mask with a bit at or above the team's size. -/
theorem mcast_invalid (hb : begins s 2 0x13 r c) (hecc : s.ecc = []) {m : Nat} (hm : m = rdN s.mem (spKey s.cur (spAt s r c r.b)) 32) (hbig : 2 ^ teamSize s s.cur ≤ m) :
    completes (.mcast r) s fun t =>
        t.mem = s.mem ∧ (ringOf t 2#2).stopped = true ∧
        ∃ f : FaultRec, t.faults = s.faults ++ [f] ∧ f.cause = 0x23 ∧ f.detail = 12 ∧ f.phys = s.cur := by
  have hblock := blockOf_begun hb hecc (mcast_block hb) 32
  rw [← hm] at hblock
  have hbody : copyEffect (Safety.copyRun s r c) 0x13 0 (begun s c) = .err (.fault 0x23 12 0 0) (blockRead s c m) := by
    show mcastEffect (Safety.copyRun s r c) 0 (begun s c) = _
    unfold mcastEffect
    rw [hblock]
    dsimp only
    rw [if_pos (by rw [teamSize_congr (teamOf_blockRead hb m)]; exact hbig)]
    rfl
  have hexec := exec_copyRecord_fault (i := .mcast r) (k := 0x13#8) rfl hb hbody
  obtain ⟨v, hstop, hcore⟩ := co_faulted (blockRead s c m) s.cur 2#2 c 0x23 12 0 0
  obtain ⟨f, hf, hcause, hdetail, hphys, -⟩ := faulted_faults (blockRead s c m) s.cur 2#2 c 0x23 12 0 0
  have hrest := faulted_rest (blockRead s c m) s.cur 2#2 c 0x23 12 0 0
  obtain ⟨t, ht⟩ : ∃ t, t = faulted (blockRead s c m) s.cur 2#2 c 0x23 12 0 0 := ⟨_, rfl⟩
  rw [← ht] at hexec hcore hf hrest
  obtain ⟨w, hw⟩ : ∃ w, w = blockRead s c m := ⟨_, rfl⟩
  have hbase : w = { s with core := w.core } := by rw [hw]; exact blockRead_rest hb m
  rw [← hw] at hcore hf hrest
  have hcur : t.cur = s.cur := by rw [hrest, hbase]
  have hmem : t.mem = s.mem := by rw [hrest, hbase]
  have hfaults : w.faults = s.faults := by rw [hbase]
  refine ⟨t, hexec, hmem, ?_, f, by rw [hf, hfaults], hcause, hdetail, hphys⟩
  unfold ringOf
  rw [hcur, hcore, queue_setQueue]
  exact hstop

/-- The cores that a peer mask names. -/
def maskCores (m : Nat) : List Nat := (List.range 256).filter fun j => m.testBit j

/-- Memory once MCAST has copied its run to the cores that its mask names. -/
def castMem (s : State) (r : Rec) (m qa aa : Nat) : Memory :=
  spread s.mem r.run (rdN s.mem (spKey qa aa) r.run) ((maskCores m).map fun j => spKey (teamCore s s.cur j) r.d.origin)

theorem mcast_turn (hb : begins s 2 0x13 r c) (hone : oneIssue r) (hecc : s.ecc = []) {m : Nat} (hm : m = rdN s.mem (spKey s.cur (spAt s r c r.b)) 32)
    (hsmall : m < 2 ^ teamSize s s.cur) {qa aa : Nat} (ha : runAt s r c r.a = .sp qa aa) :
    ∃ u l, exec (.mcast r) s = .next (endBody u s.cur 2#2 c l) ∧ l.tags = [] ∧ SemsOnly { blockRead s c m with mem := castMem s r m qa aa } u := by
  have hblock := blockOf_begun hb hecc (mcast_block hb) 32
  rw [← hm] at hblock
  have hteam := teamOf_blockRead hb m
  have hecc' : (blockRead s c m).ecc = [] := by rw [blockRead_rest hb]; exact hecc
  have hmem : (blockRead s c m).mem = s.mem := by rw [blockRead_rest hb]
  have hkeep : (blockRead s c m).lim = s.lim := by rw [blockRead_rest hb]
  have hlim : (blockRead s c m).lim = none := hkeep.trans (begins_lim hb)
  have hno : ¬2 ^ teamSize (blockRead s c m) (Safety.copyRun s r c).p ≤ m := by
    rw [teamSize_congr hteam]
    exact Nat.not_le.mpr hsmall
  by_cases hjs : maskCores m = []
  · have hbody : copyEffect (Safety.copyRun s r c) 0x13 0 (begun s c) = .done ⟨[], (issues r).length⟩ (blockRead s c m) := by
      show mcastEffect (Safety.copyRun s r c) 0 (begun s c) = _
      unfold mcastEffect
      rw [hblock]
      dsimp only
      rw [if_neg hno]
      exact if_pos hjs
    refine ⟨blockRead s c m, _, exec_copyRecord (i := .mcast r) (k := 0x13#8) rfl hb hbody, rfl, ?_⟩
    have hsame : ({ blockRead s c m with mem := castMem s r m qa aa } : State) = blockRead s c m := by
      unfold castMem
      rw [hjs, List.map_nil, spread, List.foldl_nil, ← hmem]
    rw [hsame]
    exact semsOnly_refl _
  · have hA : placeOf (blockRead s c m) (Safety.copyRun s r c) r.a (0, 0, 0, 0) = .sp qa aa := (placeOf_congr hteam _ _ _).trans ha
    have hread := readRun_sp (x := Safety.copyRun s r c) hecc' (aheadOf_blockRead hb m) 0 qa aa
    have hpieces : r.piece * (cut r.piece (r.run / r.piece) (rdN s.mem (spKey qa aa) r.run)).length = r.run := by
      rw [length_cut]
      exact (run_pieces r).2
    have hfold := foldl_writeRunSp (u := blockRead s c m) hecc' hteam s.cur r.piece r.d.origin (sound_cut r.piece (r.run / r.piece) (rdN s.mem (spKey qa aa) r.run)) (maskCores m)
    rw [hpieces, joinRun_run, hmem] at hfold
    have hissue : mcastIssue (Safety.copyRun s r c) (maskCores m) 0 (0, 0, 0, 0) (blockRead s c m) = .ok { blockRead s c m with mem := castMem s r m qa aa } := by
      unfold mcastIssue
      rw [show (Safety.copyRun s r c).r = r from rfl] at hread ⊢
      rw [hA, hread, hmem, addrAt_first]
      dsimp only
      rw [Int.toNat_natCast]
      exact congrArg Except.ok hfold
    have hrun := runFrom_one (r := r) hone hlim hissue
    refine ⟨raiseDests (Safety.copyRun s r c) ((maskCores m).map (teamCore { blockRead s c m with mem := castMem s r m qa aa } s.cur))
      { blockRead s c m with mem := castMem s r m qa aa }, ⟨[], 1⟩, exec_copyRecord (i := .mcast r) (k := 0x13#8) rfl hb ?_, rfl, semsOnly_raiseDests _ _ _⟩
    show mcastEffect (Safety.copyRun s r c) 0 (begun s c) = _
    unfold mcastEffect
    rw [hblock]
    dsimp only
    rw [if_neg hno]
    refine (if_neg hjs).trans ?_
    show thenRaise _ _ (runFrom (mcastIssue (Safety.copyRun s r c) (maskCores m)) [] r 0 (blockRead s c m)) = _
    rw [hrun]
    rfl

theorem mcast_result (hb : begins s 2 0x13 r c) (hone : oneIssue r) (hecc : s.ecc = []) {m : Nat} (hm : m = rdN s.mem (spKey s.cur (spAt s r c r.b)) 32)
    (hsmall : m < 2 ^ teamSize s s.cur) {qa aa : Nat} (ha : runAt s r c r.a = .sp qa aa) : completes (.mcast r) s fun t =>
        t = { s with mem := t.mem, core := t.core } ∧ started s c 0 false [] t ∧
        (∀ l, l < 256 → m.testBit l = true → ∀ j, j < r.run →
          memGet t.mem (spKey (teamCore s s.cur l) r.d.origin + j) = memGet s.mem (spKey qa aa + j)) ∧
        ∀ k, (∀ l, l < 256 → m.testBit l = true →
            k < spKey (teamCore s s.cur l) r.d.origin ∨ spKey (teamCore s s.cur l) r.d.origin + r.run ≤ k) →
          memGet t.mem k = memGet s.mem k := by
  obtain ⟨u, l, hexec, hl, hsems⟩ := mcast_turn hb hone hecc hm hsmall ha
  have hrest : u = { s with mem := u.mem, core := u.core } := by
    have hu := hsems.rest
    generalize u.core = C at hu
    rw [hu, blockRead_rest hb]
  have hmem : (endBody u s.cur 2#2 c l).mem = castMem s r m qa aa := by
    show u.mem = _
    rw [hsems.rest]
  have hqueue (q : BitVec 2) : (u.co s.cur).queue q = ((blockRead s c m).co s.cur).queue q := hsems.queue s.cur q
  have hmask (l : Nat) : l ∈ maskCores m ↔ l < 256 ∧ m.testBit l = true := by
    unfold maskCores
    rw [List.mem_filter, List.mem_range]
  refine ⟨_, hexec, copy_rest hrest l, ?_, fun l hl hbit j hj => ?_, fun k hk => ?_⟩
  · rw [← hl]
    have hstarted := started_flight hb (by decide) (f := { begunFlight s c with blk := some m }) (u := u) (by rw [hrest]) ?_ (fun q h3 hne => ?_)
      (begunFlight_hdr hb) rfl rfl rfl rfl l
    · rwa [begins_copy_curq hb] at hstarted
    · rw [hqueue, co_blockRead hb, begins_copy_curq hb, queue_setQueue]
    · rw [begins_copy_curq hb] at hne
      rw [hqueue, co_blockRead hb, queue_setQueue_other _ h3 hne (by decide)]
      rfl
  · rw [hmem]
    have hbyte (i : Nat) (hi : i < r.run) : BitVec.ofNat 8 (rdN s.mem (spKey qa aa) r.run / 256 ^ i % 256) = memGet s.mem (spKey qa aa + i) := by
      have h := rdN_byte s.mem (spKey qa aa) hi
      rw [Nat.pow_mul] at h
      exact BitVec.eq_of_toNat_eq (by rw [show (256 : Nat) = 2 ^ 8 from rfl, h, BitVec.toNat_ofNat, Nat.mod_eq_of_lt (BitVec.isLt _)])
    refine memGet_spread_in _ _ (fun k hk hle hlt => ?_) (.inr ⟨_, List.mem_map.mpr ⟨l, (hmask l).mpr ⟨hl, hbit⟩, rfl⟩, Nat.le_add_right _ _, Nat.add_lt_add_left hj _⟩)
    obtain ⟨l', -, rfl⟩ := List.mem_map.mp hk
    have hsame := spKey_apart (n := r.run) ((run_le r).trans (by decide)) ⟨hle, hlt⟩ ⟨Nat.le_add_right _ _, Nat.add_lt_add_left hj _⟩
    rw [hsame, Nat.add_sub_cancel_left]
    exact hbyte j hj
  · rw [hmem]
    refine memGet_spread_out _ _ fun k' hk' => ?_
    obtain ⟨l', hl', rfl⟩ := List.mem_map.mp hk'
    exact hk l' ((hmask l').mp hl').1 ((hmask l').mp hl').2

end

/-- PUTRED, MCAST and SEMPOST, as their theorems give them. -/
theorem reduceAndMulticast : Parts.ReduceAndMulticast := fun _ _ _ hecc =>
  ⟨fun _ _ _ _ _ hone hb hd ha he => putred_result hb hone hecc hd ha he,
    fun hone hb _ hm => ⟨fun hsmall _ _ ha => mcast_result hb hone hecc hm hsmall ha, fun hbig => mcast_invalid hb hecc hm hbig⟩,
    fun hb => sempost_result hb⟩

end Sys2Proof.Machine
end

section
/-! APUT (R224, R302, R304, R332). -/
namespace Sys2Proof.Machine
set_option Elab.async false
open Safety

section
variable {s : State} {op : Nat} {r : Rec} {c : BitVec 32}

/-- The turn of a copy record whose next issue has to wait. -/
theorem exec_copyRecord_wait {i : Instr} {k : BitVec 8} (hparts : recParts i = some (2#4, k, r)) (hb : begins s 2 k.toNat r c) {idx : Nat} {u : State}
    (hbody : copyEffect (Safety.copyRun s r c) k.toNat 0 (begun s c) = .err (.wait idx) u) : exec i s = .next (begunTo u s.cur 2#2 c idx) := by
  have hbody' : bodyOf (begun s c) s.cur (begunFlight s c) 2 k.toNat r (secondHalf s r c) = .err (.wait idx) u := by
    show copyEffect (copyRun (begun s c) s.cur (begunFlight s c) r (secondHalf s r c)) k.toNat 0 (begun s c) = _
    rw [copyRun_begun hb, hbody]
  have hph : (r.phase && (((begun s c).co s.cur).queue s.curq).ph.contains (begunFlight s c).slot) = secondHalf s r c := by
    rw [begun_queue hb]
    rfl
  have hlim : ¬ (begun s c).lim = some 0 := by rw [begun_lim hb]; exact fun e => nomatch e
  have hstart : startRecord 2 k.toNat r s = runRecord (begun s c) s.cur s.curq (begunFlight s c) 2 k.toNat r := startRecord_of_begins hb fun h => absurd h (by decide)
  rw [exec_of_recParts hparts (by decide)]
  refine (congrArg _ hstart).trans ?_
  unfold runRecord
  dsimp only
  rw [hph, hbody', if_neg hlim, begins_copy_curq hb]
  rfl

/-- The package once an APUT has bound its tree to the core's team. -/
def bound (s : State) (r : Rec) (c : BitVec 32) : State :=
  putTree (begun s c) (s.sc s.cur).ctx.toNat (aputTree r) { treeRun (begun s c) (s.sc s.cur).ctx.toNat (aputTree r) with team := teamNo (begun s c) s.cur }

/-- The elements that an APUT of one issue contributes. -/
def contribution (s : State) (r : Rec) (qa aa : Nat) : List (Nat × Nat) :=
  spanElems r.d.tag.toNat (r.d.origin % 4096) r.run (rdN s.mem (spKey qa aa) r.run)

theorem bound_rest (hb : begins s 2 op r c) : bound s r c = { s with core := (begun s c).core, trees := (bound s r c).trees } := by
  have h : bound s r c = { begun s c with trees := (bound s r c).trees } := rfl
  generalize bound s r c = t at h
  rw [h, begun_rest hb]

theorem aputIssue_bound (hb : begins s 2 op r c) (hecc : s.ecc = []) {qa aa : Nat} (ha : runAt s r c r.a = .sp qa aa) :
    aputIssue (Safety.copyRun s r c) 0 (0, 0, 0, 0) (bound s r c) =
      if treeClosed s (s.sc s.cur).ctx.toNat (aputTree r) then .ok (bound s r c)
      else match contribute (bound s r c) (s.sc s.cur).ctx.toNat (aputTree r) (s.lcoreOf s.cur) (contribution s r qa aa) with
        | some v => .ok v
        | none => .error (.wait 0) := by
  have hmem : (bound s r c).mem = s.mem := by rw [bound_rest hb]
  have hecc' : (bound s r c).ecc = [] := (show (bound s r c).ecc = s.ecc by rw [bound_rest hb]).trans hecc
  have hcore (p : Nat) : (bound s r c).co p = (begun s c).co p := rfl
  have hteam (p : Nat) : (bound s r c).teamOf p = s.teamOf p := teamOf_begun hb p
  have hahead : aheadOf (bound s r c) s.cur = [] := begun_ahead hb
  have hA : placeOf (bound s r c) (Safety.copyRun s r c) r.a (0, 0, 0, 0) = .sp qa aa := (placeOf_congr hteam _ _ _).trans ha
  have hread := readRun_sp (x := Safety.copyRun s r c) hecc' hahead 0 qa aa
  have htask : ((bound s r c).co s.cur).task = (s.co s.cur).task := by rw [hcore, begun_core hb, task_setQueue]
  have hl : (bound s r c).lcoreOf s.cur = s.lcoreOf s.cur := by
    unfold State.lcoreOf
    rw [htask]
  have hclosed : treeClosed (bound s r c) (s.sc s.cur).ctx.toNat (aputTree r) = treeClosed s (s.sc s.cur).ctx.toNat (aputTree r) := by
    unfold treeClosed
    rw [hmem]
  have hx : (Safety.copyRun s r c).r = r ∧ (Safety.copyRun s r c).p = s.cur ∧ (Safety.copyRun s r c).c = (s.sc s.cur).ctx.toNat := ⟨rfl, rfl, rfl⟩
  obtain ⟨hxr, hxp, hxc⟩ := hx
  rw [hxr] at hread
  unfold aputIssue
  rw [hxr, hxp, hxc, hA, hread]
  dsimp only
  rw [hclosed, hl, addrAt_first, Int.toNat_natCast, hmem, joinRun_run]
  rfl

theorem pushFlight_begun (hb : begins s 2 op r c) : pushFlight s s.cur 2#2 c 1 false = begun s c := by
  unfold begun
  rw [begins_copy_curq hb]

theorem aputEffect_begun (hok : aputOk (begun s c) (Safety.copyRun s r c) = true) :
    copyEffect (Safety.copyRun s r c) 0x14 0 (begun s c) = runFrom (aputIssue (Safety.copyRun s r c)) [] r 0 (bound s r c) := by
  show aputEffect (Safety.copyRun s r c) 0 (begun s c) = _
  unfold aputEffect
  rw [hok, if_neg (by simp)]
  rfl

theorem aput_invalid (hb : begins s 2 0x14 r c) (hok : aputOk (begun s c) (Safety.copyRun s r c) = false) : completes (.aput r) s fun t =>
      t.mem = s.mem ∧ t.trees = s.trees ∧ ∃ f : FaultRec, t.faults = s.faults ++ [f] ∧ f.cause = 0x23 ∧ f.detail = 12 ∧ f.phys = s.cur := by
  have hbody : copyEffect (Safety.copyRun s r c) 0x14 0 (begun s c) = .err (.fault 0x23 12 0 0) (begun s c) := by
    show aputEffect (Safety.copyRun s r c) 0 (begun s c) = _
    unfold aputEffect
    rw [hok, if_pos ⟨rfl, rfl⟩]
    rfl
  have hexec := exec_copyRecord_fault (i := .aput r) (k := 0x14#8) rfl hb hbody
  have hfault := faulted_begun hb 0x23 12 0 0 rfl
  have hrest := faulted_rest (begun s c) s.cur 2#2 c 0x23 12 0 0
  rw [begins_copy_curq hb] at hfault
  generalize faulted (begun s c) s.cur 2#2 c 0x23 12 0 0 = t at hexec hfault hrest
  obtain ⟨-, -, hmem, -, f, hf, hcause, hdetail, hphys, -⟩ := hfault
  refine ⟨t, hexec, hmem, ?_, f, hf, hcause, hdetail, hphys⟩
  have htrees : t.trees = (begun s c).trees := by rw [hrest]
  rw [htrees, begun_rest hb]

theorem aput_done (hb : begins s 2 0x14 r c) (hone : oneIssue r) (hok : aputOk (begun s c) (Safety.copyRun s r c) = true) {v : State} (hissue : aputIssue (Safety.copyRun s r c) 0 (0, 0, 0, 0) (bound s r c) = .ok v) :
    exec (.aput r) s = .next (endBody v s.cur 2#2 c ⟨[], 1⟩) := by
  have hkeep : (bound s r c).lim = s.lim := by rw [bound_rest hb]
  exact exec_copyRecord (i := .aput r) (k := 0x14#8) rfl hb ((aputEffect_begun hok).trans (runFrom_one hone (hkeep.trans (begins_lim hb)) hissue))

variable (hb : begins s 2 0x14 r c) (hone : oneIssue r) (hecc : s.ecc = []) (hok : aputOk (begun s c) (Safety.copyRun s r c) = true) {qa aa : Nat} (ha : runAt s r c r.a = .sp qa aa)
include hb hone hecc hok ha

theorem aput_closed (hclosed : treeClosed s (s.sc s.cur).ctx.toNat (aputTree r) = true) : completes (.aput r) s fun t =>
      t = { s with core := t.core, trees := (bound s r c).trees } ∧ started s c 0 false [] t := by
  have hissue : aputIssue (Safety.copyRun s r c) 0 (0, 0, 0, 0) (bound s r c) = .ok (bound s r c) := by rw [aputIssue_bound hb hecc ha, if_pos hclosed]
  have hcur : (bound s r c).cur = s.cur := by rw [bound_rest hb]
  refine ⟨_, aput_done hb hone hok hissue, ?_, started_copy hb hcur (fun _ _ => rfl) ⟨[], 1⟩⟩
  have hover := endBody_rest (bound s r c) s.cur 2#2 c ⟨[], 1⟩
  generalize endBody (bound s r c) s.cur 2#2 c ⟨[], 1⟩ = t at hover
  have hbound := bound_rest hb
  generalize bound s r c = w at hover hbound
  rw [hover, hbound]

theorem aput_wait (hclosed : treeClosed s (s.sc s.cur).ctx.toNat (aputTree r) = false)
    (hnone : contribute (bound s r c) (s.sc s.cur).ctx.toNat (aputTree r) (s.lcoreOf s.cur) (contribution s r qa aa) = none) : completes (.aput r) s fun t =>
      t.mem = s.mem ∧ t.trees = (bound s r c).trees ∧ ∃ f : Flight,
        (ringOf t 2#2).flight = (ringOf s 2#2).flight ++ [f] ∧ f.slot = c ∧ f.made = false ∧ f.idx = 0 := by
  have hissue : aputIssue (Safety.copyRun s r c) 0 (0, 0, 0, 0) (bound s r c) = .error (.wait 0) := by
    rw [aputIssue_bound hb hecc ha, if_neg (by rw [hclosed]; exact Bool.false_ne_true), hnone]
  obtain ⟨hissues, -⟩ := oneIssue_issues hone
  have hkeep : (bound s r c).lim = s.lim := by rw [bound_rest hb]
  have hrun : runFrom (aputIssue (Safety.copyRun s r c)) [] r 0 (bound s r c) = .err (.wait 0) (bound s r c) := by
    unfold runFrom issuesBy inTurn
    dsimp only
    rw [if_pos rfl, hissues, hkeep.trans (begins_lim hb), List.drop_zero]
    dsimp only [runIssues]
    rw [hissue]
    rfl
  have hexec := exec_copyRecord_wait (i := .aput r) (k := 0x14#8) rfl hb ((aputEffect_begun hok).trans hrun)
  have hmem : (bound s r c).mem = s.mem := by rw [bound_rest hb]
  refine ⟨_, hexec, hmem, rfl, { begunFlight s c with idx := 0 }, ?_, rfl, rfl, rfl⟩
  have hcur : (bound s r c).cur = s.cur := by rw [bound_rest hb]
  have hcore := begun_core hb
  have hfresh := begins_fresh hb
  rw [begins_copy_curq hb] at hcore hfresh
  have hco : (begunTo (bound s r c) s.cur 2#2 c 0).co s.cur = ((begun s c).co s.cur).setQueue 2#2 { ((begun s c).co s.cur).queue 2#2 with
      flight := (((begun s c).co s.cur).queue 2#2).flight.map fun f => if f.slot = c then { f with idx := 0 } else f } :=
    (upCo_get (bound s r c) s.cur (fun x => x.setQueue 2#2 { x.queue 2#2 with
      flight := (x.queue 2#2).flight.map fun f => if f.slot = c then { f with idx := 0 } else f }) s.cur).trans (if_pos rfl)
  have hring : ringOf (begunTo (bound s r c) s.cur 2#2 c 0) 2#2 = ((begunTo (bound s r c) s.cur 2#2 c 0).co s.cur).queue 2#2 := by
    rw [← hcur]
    rfl
  rw [hring, hco, queue_setQueue, hcore, queue_setQueue]
  unfold begunQueue
  rw [begins_copy_curq hb]
  exact map_upFlight hfresh (fun f => { f with idx := 0 }) rfl

end

/-- APUT in each of its cases, as its theorems give them. -/
theorem apertureResults : Parts.ApertureResults := by
  intro s r c x s1 s2 qa aa hone hecc hb hx hs1 ha hs2
  rw [pushFlight_begun hb] at hs1
  obtain rfl := hx
  obtain rfl := hs1
  obtain rfl : s2 = bound s r c := hs2
  refine ⟨fun hok => aput_invalid hb hok, fun hok hclosed => aput_closed hb hone hecc hok ha hclosed, fun hok hclosed u hu => ⟨fun v hv => ?_, fun hnone => ?_⟩⟩
  · have hissue : aputIssue (Safety.copyRun s r c) 0 (0, 0, 0, 0) (bound s r c) = .ok v := by
      rw [aputIssue_bound hb hecc ha, if_neg (by rw [show treeClosed s (s.sc s.cur).ctx.toNat (aputTree r) = false from hclosed]; exact Bool.false_ne_true)]
      rw [show contribute (bound s r c) (s.sc s.cur).ctx.toNat (aputTree r) (s.lcoreOf s.cur) (contribution s r qa aa) = some v from hu.symm.trans hv]
    exact ⟨_, aput_done hb hone hok hissue, rfl⟩
  · exact aput_wait hb hone hecc hok ha hclosed (hu.symm.trans hnone)

/-- Settles O37: the reductions and multicasts, and the aperture. -/
theorem reductionsAndMulticast : Obligations.ReductionsAndMulticast := ⟨reduceAndMulticast, apertureResults⟩

end Sys2Proof.Machine
end


section
/-! The start of a matrix record, MCFG and MZERO (R115, R178, R180). -/
namespace Sys2Proof.Machine
set_option Elab.async false
open Safety

/-! ### A matrix record that begins -/

section
variable {s : State} {op : Nat} {r : Rec} {c : BitVec 32}

theorem begins_mat_curq (hb : begins s 1 op r c) : s.curq = 1#2 := BitVec.eq_of_toNat_eq (begins_curq hb (by decide))

theorem exec_matRecord {i : Instr} {k : BitVec 8} (hparts : recParts i = some (1#4, k, r)) (hb : begins s 1 k.toNat r c) {l : Left} {u : State}
    (hbody : matEffect s.cur k.toNat (begunFlight s c) (secondHalf s r c) r (begun s c) = .done l u) :
    exec i s = .next (endBody u s.cur s.curq c l) :=
  exec_of_body hparts (by decide) hb (fun h => absurd h (by decide)) hbody

theorem exec_matRecord_fault {i : Instr} {k : BitVec 8} (hparts : recParts i = some (1#4, k, r)) (hb : begins s 1 k.toNat r c) {cause detail idx : Nat}
    {val : Word} (hbody : matEffect s.cur k.toNat (begunFlight s c) (secondHalf s r c) r (begun s c) = .err (.fault cause detail val idx) (begun s c)) :
    exec i s = .next (faulted (begun s c) s.cur s.curq c cause detail val idx) :=
  exec_of_body_fault hparts (by decide) hb (fun h => absurd h (by decide)) hbody

/-- The core of a matrix record whose body, over, has left the queues alone. -/
theorem co_matDone (hb : begins s 1 op r c) {u : State} (hq : (u.co s.cur).queue 1#2 = begunQueue s c) (l : Left) :
    (endBody u s.cur s.curq c l).co s.cur = { u.co s.cur with mq := overQueue s c l } := by
  have hcurq := begins_mat_curq hb
  rw [co_endBody hb (hcurq ▸ hq), hcurq]
  rfl

/-- The destination of a matrix record lies in no other core. -/
theorem mat_d_space (hb : begins s 1 op r c) (hd : (matEntry op r).dS = [3]) : r.d.space ≠ 4#4 := by
  have hrule := begins_rule hb
  intro h4
  by_cases hkat : r.kat = true
  · unfold ruleBroken at hrule
    dsimp only at hrule
    obtain ⟨-, hrule⟩ := rule_kept hrule
    obtain ⟨-, hrule⟩ := rule_kept hrule
    obtain ⟨-, hrule⟩ := rule_kept hrule
    obtain ⟨h5, -⟩ := rule_kept hrule
    exact h5 ⟨hkat, .inr (.inr (.inl (by rw [h4]; decide)))⟩
  · have hok := operandsOk_of_rule hrule
    have hmem := hok.dSpace (Bool.not_eq_true _ |>.mp hkat)
    have he : (entryOf 1 op r).dS = [3] := hd
    rw [he, h4] at hmem
    exact absurd (hmem (by decide)) (by decide)

theorem mat_a_space (hb : begins s 1 op r c) (ha : (matEntry op r).aS = [1]) : r.a.space = 1#4 := by
  have hok := operandsOk_of_rule (begins_rule hb)
  have he : (entryOf 1 op r).aS = [1] := ha
  have hmem := hok.aSpace
  rw [he] at hmem
  exact BitVec.eq_of_toNat_eq (List.mem_singleton.mp (hmem (by decide)))

/-- What the faults of a matrix record leave. -/
theorem matFault_facts (hb : begins s 1 op r c) (cause detail : Nat) {t : State} (ht : t = faulted (begun s c) s.cur s.curq c cause detail 0 0) :
    (∀ e, accum t e = accum s e) ∧ (t.co s.cur).mcfg = (s.co s.cur).mcfg ∧ t.mem = s.mem ∧ (ringOf t 1#2).stopped = true ∧
      ∃ f : FaultRec, t.faults = s.faults ++ [f] ∧ f.cause = cause ∧ f.detail = detail ∧ f.phys = s.cur ∧ f.pos = c.setWidth 64 := by
  obtain ⟨hstop, ⟨v, hcore⟩, hmem, hcur, hfault⟩ := faulted_begun hb cause detail 0 0 ht
  rw [begins_mat_curq hb] at hstop
  refine ⟨fun e => ?_, ?_, hmem, hstop, hfault⟩
  · unfold accum
    rw [hcur, hcore, acc_setQueue]
  · rw [hcore, mcfg_setQueue]

end

/-! ### MCFG (R115, R178) -/

section
variable {s : State} {r : Rec} {c : BitVec 32}

/-- MCFG reads the configuration block where its operand lies. -/
theorem mcfgRead (hb : begins s 1 0x01 r c) (hecc : s.ecc = []) (hin : spAt s r c r.a + 64 ≤ 0x40_0000) :
    readSpAll { p := s.cur, op := 1, r := r, ph := secondHalf s r c, tie := false } r.a.origin 64 0 (begun s c) =
      .ok (rdN s.mem (spKey s.cur (spAt s r c r.a)) 64) := by
  have hspace := mat_a_space hb rfl
  have hbase : (r.a.origin : Int) = (r.a.base.toNat : Int) := by
    rw [Desc.origin, if_neg (by rw [hspace]; decide)]
  have haddr : recAddr (begun s c) s.cur (secondHalf s r c) (r.a.origin : Int) = spAt s r c r.a := by
    rw [recAddr_begun hb, hbase]
    rfl
  have hin' : spInside (spAt s r c r.a) 64 = true := decide_eq_true hin
  unfold readSpAll readSp
  dsimp only
  rw [haddr, hin', begun_ecc hb, hecc]
  exact congrArg Except.ok (opRead_begun hb s.cur _ 64)

theorem mcfgEffect_begun (hb : begins s 1 0x01 r c) (hecc : s.ecc = []) (hin : spAt s r c r.a + 64 ≤ 0x40_0000) {b : BitVec 512}
    (hval : b.toNat = rdN s.mem (spKey s.cur (spAt s r c r.a)) 64) : matEffect s.cur 0x01 (begunFlight s c) (secondHalf s r c) r (begun s c) =
      if mcfgOk b then .done ⟨[], 1⟩ ((begun s c).upCo s.cur fun x => { x with mcfg := b }) else .err (.fault causeInvalid 12 0 0) (begun s c) := by
  have hfix (a : Nat) : spFix (begun s c) s.cur a 64 = begun s c := spFix_of_no_error ((begun_ecc hb).trans hecc) _ _ _
  have hb' : BitVec.ofNat 512 (rdN s.mem (spKey s.cur (spAt s r c r.a)) 64) = b := by rw [← hval, BitVec.ofNat_toNat, BitVec.setWidth_eq]
  unfold matEffect
  rw [if_pos rfl]
  unfold mcfgEffect
  dsimp only
  rw [mcfgRead hb hecc hin]
  dsimp only
  rw [hb', hfix]

theorem mcfg_loads (hb : begins s 1 0x01 r c) (hecc : s.ecc = []) (hin : spAt s r c r.a + 64 ≤ 0x40_0000) {b : BitVec 512}
    (hval : b.toNat = rdN s.mem (spKey s.cur (spAt s r c r.a)) 64) (hok : mcfgOk b = true) : completes (.mcfg r) s fun t =>
      t = { s with core := t.core } ∧ (∀ p, p ≠ s.cur → t.co p = s.co p) ∧
      t.co s.cur = { s.co s.cur with mcfg := b, mq := (t.co s.cur).mq } ∧ started s c 0 false [] t := by
  have hbody := mcfgEffect_begun hb hecc hin hval
  rw [if_pos hok] at hbody
  refine ⟨_, exec_matRecord (k := 1#8) rfl hb hbody, ?_⟩
  have hco (p : Nat) : ((begun s c).upCo s.cur fun x => { x with mcfg := b }).co p =
      if p = s.cur then { (begun s c).co s.cur with mcfg := b } else (begun s c).co p := upCo_get (begun s c) s.cur (fun x => { x with mcfg := b }) p
  have hrest : ((begun s c).upCo s.cur fun x => { x with mcfg := b }) =
      { s with core := ((begun s c).upCo s.cur fun x => { x with mcfg := b }).core } := by
    have h : ((begun s c).upCo s.cur fun x => { x with mcfg := b }) =
        { begun s c with core := ((begun s c).upCo s.cur fun x => { x with mcfg := b }).core } := rfl
    generalize ((begun s c).upCo s.cur fun x => { x with mcfg := b }) = u at h
    rw [h, begun_rest hb]
  generalize ((begun s c).upCo s.cur fun x => { x with mcfg := b }) = u at hco hrest
  have hself := (hco s.cur).trans (if_pos rfl)
  have hqueue (q : BitVec 2) : (u.co s.cur).queue q = ((begun s c).co s.cur).queue q := by rw [hself]; rfl
  have hbq := begun_queue hb
  have hcore := begun_core hb
  rw [begins_mat_curq hb] at hbq hcore
  have hdone := co_matDone hb ((hqueue 1#2).trans hbq) ⟨[], 1⟩
  refine ⟨?_, fun p hp => ?_, ?_, started_endBody hb (by decide) (by rw [hrest]) (fun q _ => hqueue q) ⟨[], 1⟩⟩
  · have h := endBody_rest u s.cur s.curq c ⟨[], 1⟩
    generalize endBody u s.cur s.curq c ⟨[], 1⟩ = t at h
    rw [h, hrest]
  · rw [co_endBody_other _ _ _ _ hp, hco, if_neg hp, begun_other hb hp]
  · rw [hdone, hself, hcore]
    rfl

theorem mcfg_refuses (hb : begins s 1 0x01 r c) (hecc : s.ecc = []) (hin : spAt s r c r.a + 64 ≤ 0x40_0000) {b : BitVec 512}
    (hval : b.toNat = rdN s.mem (spKey s.cur (spAt s r c r.a)) 64) (hok : mcfgOk b = false) : completes (.mcfg r) s fun t =>
      (t.co s.cur).mcfg = (s.co s.cur).mcfg ∧ t.mem = s.mem ∧ (ringOf t 1#2).stopped = true ∧
      ∃ f : FaultRec, t.faults = s.faults ++ [f] ∧ f.cause = 0x23 ∧ f.detail = 12 ∧ f.phys = s.cur ∧ f.pos = c.setWidth 64 := by
  have hbody := mcfgEffect_begun hb hecc hin hval
  rw [hok, if_neg Bool.false_ne_true] at hbody
  obtain ⟨-, hfacts⟩ := matFault_facts hb causeInvalid 12 rfl
  exact ⟨_, exec_matRecord_fault (k := 1#8) rfl hb hbody, hfacts⟩

end

/-! ### MZERO (R180) -/

section
variable {s : State} {r : Rec} {c : BitVec 32}

theorem tget_filter {α : Type} (t : Tbl α) (f : Nat → Bool) (k : Nat) (d : α) :
    tget (t.filter fun e => f e.1) k d = if f k = true then tget t k d else d := by
  induction t with
  | nil => exact (ite_self d).symm
  | cons e t ih =>
    obtain ⟨j, v⟩ := e
    rw [List.filter_cons]
    by_cases hj : f j = true
    · rw [if_pos hj, tget, tget, ih]
      by_cases hjk : j = k
      · rw [if_pos hjk, if_pos hjk, if_pos (hjk ▸ hj)]
      · rw [if_neg hjk, if_neg hjk]
    · rw [if_neg hj, ih, tget]
      by_cases hjk : j = k
      · rw [if_neg (hjk ▸ hj), if_neg (hjk ▸ hj)]
      · rw [if_neg hjk]

theorem mzeroEffect_begun (hb : begins s 1 0x02 r c) (hone : oneIssue r) :
    matEffect s.cur 0x02 (begunFlight s c) (secondHalf s r c) r (begun s c) =
      if r.d.base.toNat % 64 ≠ 0 ∨ r.d.base.toNat / 512 % 32 ≠ 0 then .err (.fault causeInvalid 12 0 0) (begun s c)
      else if blockParked (s.co s.cur) r.d.base.toNat then .err (.fault causePark 0 0 0) (begun s c)
      else .done ⟨[(accBlock r.d.base.toNat, r.d.tag)], 1⟩ ((begun s c).upCo s.cur fun x => x.zeroBlock r.d.base.toNat) := by
  have hos : ((nest r).map fun i => (addrAt r.d i).toNat) = [r.d.base.toNat] := by
    rw [oneIssue_nest hone, List.map_cons, List.map_nil, addrAt_base (mat_d_space hb rfl), Int.toNat_natCast]
  have hparked : blockParked ((begun s c).co s.cur) r.d.base.toNat = blockParked (s.co s.cur) r.d.base.toNat := by
    unfold blockParked
    rw [begun_core hb, spill_setQueue]
  unfold matEffect
  rw [if_neg (by decide), if_pos rfl]
  unfold mzeroEffect
  dsimp only
  rw [hos]
  simp only [List.any_cons, List.any_nil, Bool.or_false, Bool.or_eq_true, bne_iff_ne, hparked, List.length_singleton, List.foldl_cons, List.foldl_nil]
  rfl

theorem mzero_zeroes (hb : begins s 1 0x02 r c) (hone : oneIssue r) (hcol : r.d.base.toNat % 64 = 0) (hrow : r.d.base.toNat / 512 % 32 = 0)
    (hfree : blockParked (s.co s.cur) r.d.base.toNat = false) : completes (.mzero r) s fun t =>
      engineOnly s t ∧ vregsKept s t ∧ (t.co s.cur).masks = (s.co s.cur).masks ∧ (t.co s.cur).vstatus = (s.co s.cur).vstatus ∧
      (t.co s.cur).spill = (s.co s.cur).spill ∧ started s c 0 false [(accBlock r.d.base.toNat, r.d.tag)] t ∧
      (t.co s.cur).written = setBit (s.co s.cur).written (accBlock r.d.base.toNat) true ∧
      ∀ e, accum t e = if accBlock e = accBlock r.d.base.toNat then 0 else accum s e := by
  have hbody := mzeroEffect_begun hb hone
  rw [if_neg (by simp [hcol, hrow]), hfree, if_neg Bool.false_ne_true] at hbody
  refine ⟨_, exec_matRecord (k := 2#8) rfl hb hbody, ?_⟩
  have hco (p : Nat) : ((begun s c).upCo s.cur fun x => x.zeroBlock r.d.base.toNat).co p =
      if p = s.cur then ((begun s c).co s.cur).zeroBlock r.d.base.toNat else (begun s c).co p :=
    upCo_get (begun s c) s.cur (fun x => x.zeroBlock r.d.base.toNat) p
  have hrest : ((begun s c).upCo s.cur fun x => x.zeroBlock r.d.base.toNat) =
      { begun s c with core := ((begun s c).upCo s.cur fun x => x.zeroBlock r.d.base.toNat).core } := rfl
  generalize ((begun s c).upCo s.cur fun x => x.zeroBlock r.d.base.toNat) = u at hco hrest
  have hself := (hco s.cur).trans (if_pos rfl)
  have hqueue (q : BitVec 2) : (u.co s.cur).queue q = ((begun s c).co s.cur).queue q := by rw [hself]; rfl
  have hbq := begun_queue hb
  have hcore := begun_core hb
  rw [begins_mat_curq hb] at hbq hcore
  have hdone := co_matDone hb ((hqueue 1#2).trans hbq) ⟨[(accBlock r.d.base.toNat, r.d.tag)], 1⟩
  rw [hself, hcore] at hdone
  have hcur : u.cur = s.cur := by rw [hrest, begun_rest hb]
  have hstarted := started_endBody hb (by decide) hcur (fun q _ => hqueue q) ⟨[(accBlock r.d.base.toNat, r.d.tag)], 1⟩
  have hend := endBody_rest u s.cur s.curq c ⟨[(accBlock r.d.base.toNat, r.d.tag)], 1⟩
  have hother {p : Nat} (hp : p ≠ s.cur) : (endBody u s.cur s.curq c ⟨[(accBlock r.d.base.toNat, r.d.tag)], 1⟩).co p = s.co p := by
    rw [co_endBody_other _ _ _ _ hp, hco, if_neg hp, begun_other hb hp]
  generalize endBody u s.cur s.curq c ⟨[(accBlock r.d.base.toNat, r.d.tag)], 1⟩ = t at hdone hstarted hend hother
  have hkeep : t = { s with core := t.core } := by rw [hend, hrest, begun_rest hb]
  have htcur : t.cur = s.cur := by rw [hkeep]
  refine ⟨⟨hkeep, fun p hp => hother hp, ?_⟩, ⟨?_, ?_, ?_⟩, ?_, ?_, ?_, hstarted, ?_, fun e => ?_⟩
  · rw [hdone]; rfl
  · rw [hdone]; rfl
  · rw [hdone]; rfl
  · rw [hdone]; rfl
  · rw [hdone]; rfl
  · rw [hdone]; rfl
  · rw [hdone]; rfl
  · rw [hdone]; rfl
  · have hacc : (t.co s.cur).acc = (s.co s.cur).acc.filter fun e => !inBlock r.d.base.toNat e.1 := by rw [hdone]; rfl
    unfold accum
    rw [htcur, hacc, tget_filter _ (fun e => !inBlock r.d.base.toNat e)]
    by_cases he : accBlock e = accBlock r.d.base.toNat
    · have hin : inBlock r.d.base.toNat e = true := beq_iff_eq.mpr he
      rw [if_pos he, hin, if_neg (by decide)]
      rfl
    · have hin : inBlock r.d.base.toNat e = false := beq_eq_false_iff_ne.mpr he
      rw [if_neg he, hin, if_pos (by decide)]

/-- MZERO over a parked group (PARK_CONFLICT), or with a row that is no multiple of 32 (rule 12). -/
theorem mzero_faults (hb : begins s 1 0x02 r c) {cause detail : Nat}
    (hbody : matEffect s.cur 0x02 (begunFlight s c) (secondHalf s r c) r (begun s c) = .err (.fault cause detail 0 0) (begun s c)) :
    completes (.mzero r) s fun t => (∀ e, accum t e = accum s e) ∧ (ringOf t 1#2).stopped = true ∧
      ∃ f : FaultRec, t.faults = s.faults ++ [f] ∧ f.cause = cause ∧ f.detail = detail ∧ f.phys = s.cur := by
  obtain ⟨hacc, -, -, hstop, f, hf, hcause, hdetail, hphys, -⟩ := matFault_facts hb cause detail rfl
  exact ⟨_, exec_matRecord_fault (k := 2#8) rfl hb hbody, hacc, hstop, f, hf, hcause, hdetail, hphys⟩

end

theorem matrixSetupResults : Parts.MatrixSetupResults := by
  intro s r c hone hecc
  refine ⟨fun hb hin b hval => ⟨mcfg_loads hb hecc hin hval, mcfg_refuses hb hecc hin hval⟩, fun hb hcol hrow => ⟨mzero_zeroes hb hone hcol hrow, fun hpark => ?_⟩,
    fun hb hrow => ?_⟩
  · have hbody := mzeroEffect_begun hb hone
    rw [if_neg (by simp [hcol, hrow]), if_pos hpark] at hbody
    obtain ⟨t, ht, hacc, hstop, f, hf, hcause, -, hphys⟩ := mzero_faults hb hbody
    exact ⟨t, ht, hacc, hstop, f, hf, hcause, hphys⟩
  · have hbody := mzeroEffect_begun hb hone
    rw [if_pos (.inr hrow)] at hbody
    exact mzero_faults hb hbody

end Sys2Proof.Machine
end


section
/-! The matrix product of one dense block (R164 to R169): what it reads and the entries that it makes. -/
namespace Sys2Proof.Machine
set_option Elab.async false
open Safety

/-! ### Lists -/

theorem eraseDups_of_eq {a : Nat} {l : List Nat} (hne : l ≠ []) (h : ∀ x ∈ l, x = a) : l.eraseDups = [a] := by
  cases l with
  | nil => exact absurd rfl hne
  | cons x xs =>
    have hx : x = a := h x List.mem_cons_self
    have hxs : (xs.filter fun y => !y == x) = [] :=
      List.filter_eq_nil_iff.mpr fun y hy => by rw [h y (List.mem_cons_of_mem _ hy), hx, beq_self_eq_true]; decide
    rw [List.eraseDups_cons, hxs, hx]
    rfl

theorem mapE_of_ok {α β : Type} {f : α → Except EngErr β} {g : α → β} {l : List α} (h : ∀ x ∈ l, f x = .ok (g x)) : mapE f l = .ok (l.map g) := by
  induction l with
  | nil => rfl
  | cons x xs ih =>
    rw [mapE, h x List.mem_cons_self]
    dsimp only
    rw [ih fun y hy => h y (List.mem_cons_of_mem _ hy)]
    rfl

/-- What was made for a key is found by it. -/
theorem find_made {α : Type} (g : Nat → α) {l : List Nat} {q : Nat} (hq : q ∈ l) : ((l.map fun q => (q, g q)).find? fun a => a.1 == q) = some (q, g q) := by
  induction l with
  | nil => exact nomatch hq
  | cons x xs ih =>
    rw [List.map_cons, List.find?_cons]
    by_cases hx : x = q
    · rw [hx, beq_self_eq_true]
    · rw [beq_eq_false_iff_ne.mpr hx]
      exact ih ((List.mem_cons.mp hq).resolve_left fun e => hx e.symm)

/-- Parts of one length, in a row. -/
theorem flatMap_parts {α β : Type} {k : Nat} (hk : 0 < k) {f : α → List β} {g : α → Nat → β} (hf : ∀ b, f b = (List.range k).map (g b)) (a : Nat → α) (n : Nat) :
    ((List.range n).map a).flatMap f = (List.range (k * n)).map fun j => g (a (j / k)) (j % k) := by
  induction n with
  | zero => rfl
  | succ n ih =>
    rw [List.range_succ, List.map_append, List.flatMap_append, ih, Nat.mul_succ, List.range_add, List.map_append, List.map_map, List.map_singleton,
      List.flatMap_singleton, hf]
    congr 1
    refine List.map_congr_left fun i hi => ?_
    have hi' : i < k := List.mem_range.mp hi
    rw [Function.comp_apply, Nat.mul_add_div hk, Nat.div_eq_of_lt hi', Nat.add_zero, Nat.mul_add_mod, Nat.mod_eq_of_lt hi']

theorem zip_range {α : Type} {k n : Nat} (hk : k ≤ n) (g : Nat → α) : List.zip (List.range k) ((List.range n).map g) = (List.range k).map fun j => (j, g j) := by
  obtain ⟨d, rfl⟩ := Nat.exists_eq_add_of_le hk
  rw [List.range_add, List.map_append]
  refine List.ext_getElem (by simp) fun i h1 h2 => ?_
  have hi : i < k := by simpa using h2
  simp [List.getElem_append_left, hi]

/-- The bytes of a number read from memory. -/
theorem lanesOf_rdN (m : Memory) (k n : Nat) : lanesOf 8 n (rdN m k n) = (List.range n).map fun i => (memGet m (k + i)).toNat := by
  rw [lanesOf_eq]
  exact List.map_congr_left fun i hi => rdN_byte m k (List.mem_range.mp hi)

/-! ### The record -/

/-- Where the activations of row q lie. -/
def rowAt (s : State) (r : Rec) (c : BitVec 32) (q : Nat) : Nat := recAddr s s.cur (secondHalf s r c) ((r.a.base.toNat : Int) + q * r.a.s1.toInt)

/-- Where the weights of column k lie. -/
def colAt (s : State) (r : Rec) (c : BitVec 32) (k : Nat) : Nat := recAddr s s.cur (secondHalf s r c) ((r.b.base.toNat : Int) + k * r.b.s1.toInt)

/-- The configuration in force. -/
def cfgOf (s : State) : MCfg := mcfgOf (s.co s.cur).mcfg

/-- A matrix product of one dense block that begins: 32 rows, 64 columns and a K of 32, its activations in scratchpad and no shape record. -/
structure DenseBlock (s : State) (op : Nat) (r : Rec) (c : BitVec 32) : Prop where
  begins : begins s 1 op r c
  ops : op = 0x10 ∨ op = 0x11 ∨ op = 0x12
  one : oneIssue r
  kat : r.kat = false
  ecc : s.ecc = []
  palarm : s.palarm = false
  dens : r.mf 1 0 = 0
  bd : r.mods.getLsbD 2 = false
  aSpace : r.a.space = 1#4
  col : r.d.base.toNat % 64 = 0
  row : r.d.base.toNat / 512 % 32 = 0
  aRange : ∀ q : Nat, q < 32 → 0 ≤ (r.a.base.toNat : Int) + q * r.a.s1.toInt ∧ (r.a.base.toNat : Int) + q * r.a.s1.toInt + 32 ≤ 0x40_0000
  shen : (cfgOf s).shen = false
  aIn : ∀ q, q < 32 → rowAt s r c q + 32 ≤ 0x40_0000
  bIn : ∀ k, k < 64 → colAt s r c k + colBytes op 0 ≤ 0x40_0000
  scales : r.mods.getLsbD 3 = false → (cfgOf s).ascale + 32 ≤ 0x40_0000 ∧ (cfgOf s).bscale + 64 ≤ 0x40_0000
  spill : (s.co s.cur).spill = []
  tag : tget (s.co s.cur).btags (accBlock r.d.base.toNat) 0 = r.d.tag
  tie : op = 0x10 → (s.co s.cur).vstatus.getLsbD 16 = false

/-- The rows of a dense block. -/
def denseRows : List (Nat × Nat) := (List.range 32).map fun q => (q, 0)

/-- What the steps of a dense block need. -/
def denseCtx (s : State) (op : Nat) (r : Rec) (c : BitVec 32) : MCtx :=
  { k := { p := s.cur, op := op, r := r, ph := secondHalf s r c, tie := (s.co s.cur).vstatus.getLsbD 16 }, cfg := cfgOf s, rows := denseRows, cols := 64 }

/-- The package once the record has taken its rows. -/
def rowsTaken (s : State) (c : BitVec 32) : State := (begun s c).upFlight s.cur s.curq c fun f => { f with rows := some denseRows }

theorem getD_denseRows {q : Nat} (hq : q < 32) : denseRows.getD q (0, 0) = (q, 0) := by
  unfold denseRows
  rw [List.getD_eq_getElem?_getD, List.getElem?_map, List.getElem?_range hq]
  rfl

theorem length_denseRows : denseRows.length = 32 := by rw [denseRows, List.length_map, List.length_range]

/-- What a step sees of a package in which a record has begun. -/
structure Sees (s u : State) : Prop where
  ecc : u.ecc = []
  palarm : u.palarm = false
  lim : u.lim = none
  read : ∀ a n, opRead u s.cur s.cur a n = rdN s.mem (spKey s.cur a) n
  addr : ∀ ph a, recAddr u s.cur ph a = recAddr s s.cur ph a
  acc : (u.co s.cur).acc = (s.co s.cur).acc

section
variable {s : State} {op : Nat} {r : Rec} {c : BitVec 32}

theorem sees_rowsTaken (h : DenseBlock s op r c) : Sees s (rowsTaken s c) := by
  have hb := h.begins
  have hrest : rowsTaken s c = { s with core := (rowsTaken s c).core } := upFlight_begun_rest hb _
  have hcore : (rowsTaken s c).co s.cur = (s.co s.cur).setQueue s.curq (flightQueue s { begunFlight s c with rows := some denseRows }) := co_upFlight_begun hb _
  have hahead : aheadOf (rowsTaken s c) s.cur = [] := aheadOf_upFlight_begun hb _
  have hmem : (rowsTaken s c).mem = s.mem := by rw [hrest]
  have hteam : (rowsTaken s c).team = s.team := by rw [hrest]
  have hecc : (rowsTaken s c).ecc = s.ecc := by rw [hrest]
  have hpalarm : (rowsTaken s c).palarm = s.palarm := by rw [hrest]
  have hlim : (rowsTaken s c).lim = s.lim := by rw [hrest]
  have htask : ((rowsTaken s c).co s.cur).task = (s.co s.cur).task := by rw [hcore, task_setQueue]
  refine ⟨hecc.trans h.ecc, hpalarm.trans h.palarm, hlim.trans (begins_lim hb), fun a n => ?_, fun ph a => ?_, by rw [hcore, acc_setQueue]⟩
  · unfold opRead
    rw [hahead, hmem]
    rfl
  · have hpairs : pairsOf (rowsTaken s c) s.cur = pairsOf s s.cur := by
      unfold pairsOf State.teamOf State.tm
      rw [htask, hteam]
    unfold recAddr
    rw [hpairs]

/-! ### The checks of the start -/

theorem denseCtx_aAddr {q : Nat} (hq : q < 32) : (denseCtx s op r c).aAddr q 0 = (r.a.base.toNat : Int) + q * r.a.s1.toInt := by
  have hrow : (denseCtx s op r c).rows.getD q (0, 0) = (q, 0) := getD_denseRows hq
  unfold MCtx.aAddr
  dsimp only
  rw [hrow]
  show (r.a.base.toNat : Int) + q * r.a.s1.toInt + ((0 : Nat) : Int) * r.a.s0.toInt = _
  rw [Nat.cast_zero, zero_mul, add_zero]

theorem denseCtx_bAddr (h : DenseBlock s op r c) {k : Nat} (hk : k < 64) : (denseCtx s op r c).bAddr k 0 = (r.b.base.toNat : Int) + k * r.b.s1.toInt := by
  have hbd : (denseCtx s op r c).bd = false := h.bd
  unfold MCtx.bAddr
  dsimp only
  rw [hbd, if_neg Bool.false_ne_true, Nat.div_eq_of_lt hk, Nat.mod_eq_of_lt hk]
  show (r.b.base.toNat : Int) + ((0 : Nat) : Int) * r.b.s2.toInt + k * r.b.s1.toInt + ((0 : Nat) : Int) * r.b.s0.toInt = _
  rw [Nat.cast_zero, zero_mul, zero_mul, add_zero, add_zero]

theorem dense_bLen (h : DenseBlock s op r c) : (denseCtx s op r c).bLen = colBytes op 0 := by
  show colBytes op (r.mf 1 0) = _
  rw [h.dens]

theorem dense_rows (h : DenseBlock s op r c) :
    mdotRows { p := s.cur, op := op, r := r, ph := secondHalf s r c, tie := (begunFlight s c).tie } (mcfgOf ((begun s c).co s.cur).mcfg) (begun s c) =
      .ok (denseRows, begun s c) := by
  have hcfg : mcfgOf ((begun s c).co s.cur).mcfg = cfgOf s := by
    rw [begun_core h.begins, mcfg_setQueue]
    rfl
  obtain ⟨-, h1, -, -⟩ := h.one
  unfold mdotRows
  dsimp only
  rw [hcfg, h.shen, h1]
  rfl

theorem dense_mctx (h : DenseBlock s op r c) : mctxOf s.cur op (begunFlight s c).tie (secondHalf s r c) r denseRows (begun s c) = denseCtx s op r c := by
  obtain ⟨-, -, h2, -⟩ := h.one
  unfold mctxOf denseCtx cfgOf
  rw [begun_core h.begins, mcfg_setQueue, h.bd, if_neg Bool.false_ne_true, h2]
  rfl

theorem dense_kbs (h : DenseBlock s op r c) : (denseCtx s op r c).k.r.n0.toNat = 1 := by
  obtain ⟨h0, -, -, -⟩ := h.one
  show r.n0.toNat = 1
  rw [h0]
  rfl

theorem dense_addrOk (h : DenseBlock s op r c) : mdotAddrOk (denseCtx s op r c) = true := by
  have hbd : (denseCtx s op r c).bd = false := h.bd
  have hspace : (denseCtx s op r c).k.r.a.space = 1#4 := h.aSpace
  have hlen : (denseCtx s op r c).rows.length = 32 := length_denseRows
  unfold mdotAddrOk
  dsimp only
  rw [hbd, dense_kbs h, hspace, hlen, if_pos rfl, Bool.not_false, Bool.true_or, Bool.and_true, List.all_eq_true]
  intro q hq
  have hq' := List.mem_range.mp hq
  obtain ⟨hlo, hhi⟩ := h.aRange q hq'
  rw [List.all_eq_true]
  intro kb hkb
  obtain rfl : kb = 0 := by
    have := List.mem_range.mp hkb
    omega
  rw [denseCtx_aAddr hq', decide_eq_true hlo, decide_eq_true hhi]
  rfl

theorem dense_scalesOk (h : DenseBlock s op r c) : mdotScalesOk (denseCtx s op r c) = true := by
  have hspace : (denseCtx s op r c).k.r.a.space = 1#4 := h.aSpace
  have hbig : ((denseCtx s op r c).rows.map (·.1)).foldl max 0 = 31 := by
    show (denseRows.map (·.1)).foldl max 0 = 31
    decide
  have hisum : (denseCtx s op r c).isum = r.mods.getLsbD 3 := rfl
  unfold mdotScalesOk
  dsimp only
  rw [hbig, dense_kbs h, hspace, hisum]
  have hthird : (!(denseCtx s op r c).cfg.rsen || (1#4 != 3#4) || spInside (denseCtx s op r c).cfg.rscale (4 * (denseCtx s op r c).rows.length)) = true := by
    rw [show (1#4 != 3#4) = true from rfl, Bool.or_true, Bool.true_or]
  rw [hthird, Bool.and_true]
  by_cases hi : r.mods.getLsbD 3 = true
  · rw [hi, Bool.true_or, Bool.true_or, Bool.true_or, Bool.and_true, Bool.or_true]
  · have hi' := Bool.not_eq_true _ |>.mp hi
    obtain ⟨ha, hb⟩ := h.scales hi'
    have ha' : spInside (denseCtx s op r c).cfg.ascale (31 * 1 + 1) = true := decide_eq_true ha
    have hb' : spInside (denseCtx s op r c).cfg.bscale ((1 - 1) / 5 * (denseCtx s op r c).cols + (denseCtx s op r c).cols) = true := decide_eq_true hb
    rw [ha', hb', Bool.or_true, Bool.or_true, Bool.and_true, Bool.or_true]

/-- An entry of the block that the record writes. -/
theorem dense_entry (q k : Nat) : (denseCtx s op r c).entry q k = r.d.base.toNat + 512 * q + k := rfl

theorem accBlock_entry (h : DenseBlock s op r c) {q k : Nat} (hq : q < 32) (hk : k < 64) :
    accBlock (r.d.base.toNat + 512 * q + k) = accBlock r.d.base.toNat := by
  have hcol := h.col
  have hrow := h.row
  unfold accBlock
  generalize r.d.base.toNat = d at hcol hrow
  omega

theorem dense_formed (h : DenseBlock s op r c) (q k : Nat) : (denseCtx s op r c).formed q k = true := by
  have hbd : (denseCtx s op r c).bd = false := h.bd
  unfold MCtx.formed
  rw [hbd]
  rfl

theorem dense_blocks (h : DenseBlock s op r c) : mdotBlocks (denseCtx s op r c) = [accBlock r.d.base.toNat] := by
  have hlen : (denseCtx s op r c).rows.length = 32 := length_denseRows
  have hmem (x : Nat) : (x ∈ (List.range (denseCtx s op r c).rows.length).flatMap fun q =>
      ((List.range (denseCtx s op r c).cols).filter fun k => (denseCtx s op r c).formed q k).map fun k => accBlock ((denseCtx s op r c).entry q k)) ↔
      ∃ q < 32, ∃ k < 64, accBlock (r.d.base.toNat + 512 * q + k) = x := by
    simp only [List.mem_flatMap, List.mem_map, List.mem_filter, List.mem_range, dense_formed h, and_true, hlen]
    rfl
  refine eraseDups_of_eq (fun hnil => ?_) fun x hx => ?_
  · have := (hmem _).mpr ⟨0, by decide, 0, by decide, rfl⟩
    rw [hnil] at this
    exact nomatch this
  · obtain ⟨q, hq, k, hk, rfl⟩ := (hmem x).mp hx
    exact accBlock_entry h hq hk

theorem dense_accOk (h : DenseBlock s op r c) : mdotAccOk (denseCtx s op r c) (begun s c) = none := by
  have hspill : ((begun s c).co (denseCtx s op r c).k.p).spill = [] := by
    show ((begun s c).co s.cur).spill = []
    rw [begun_core h.begins, spill_setQueue, h.spill]
  have hbtags : ((begun s c).co (denseCtx s op r c).k.p).btags = (s.co s.cur).btags := by
    show ((begun s c).co s.cur).btags = _
    rw [begun_core h.begins, btags_setQueue]
  have hspace : (denseCtx s op r c).k.r.a.space = 1#4 := h.aSpace
  have htag : ([accBlock r.d.base.toNat].any fun b => tget (s.co s.cur).btags b 0 != (denseCtx s op r c).k.r.d.tag) = false := by
    rw [List.any_cons, List.any_nil, Bool.or_false, h.tag]
    exact bne_self_eq_false _
  unfold mdotAccOk
  dsimp only
  rw [hspill, hbtags, hspace, dense_blocks h, htag]
  simp

end

end Sys2Proof.Machine
end


section
/-! The K-block of a dense matrix product: weights, activations, scales and block sums (R159 to R167). -/
namespace Sys2Proof.Machine
set_option Elab.async false
open Safety

/-! ### Weights -/

/-- Weight j of a column whose bytes are given (Tables 9.4, 9.5; R150). -/
def weightOf (op : Nat) (byte : Nat → Nat) (j : Nat) : Int :=
  if op = 0x10 then (t5dec (byte (j / 5))).getD (j % 5) 0 else if op = 0x11 then s4dec (byte (j / 2)) (j % 2) else intOf 8 true (byte j)

/-- The weights of a dense block, by position. -/
theorem decodeWeights_zip {op : Nat} (hop : op = 0x10 ∨ op = 0x11 ∨ op = 0x12) (m : Memory) (a : Nat) :
    List.zip (List.range 32) (decodeWeights op (colBytes op 0) (rdN m a (colBytes op 0))).1 =
      (List.range 32).map fun j => (j, weightOf op (fun i => (memGet m (a + i)).toNat) j) := by
  unfold decodeWeights
  dsimp only
  rw [lanesOf_rdN]
  rcases hop with rfl | rfl | rfl
  · rw [if_pos rfl, flatMap_parts (by decide) t5dec_range]
    exact zip_range (by decide) _
  · have hparts := flatMap_parts (k := 2) (f := fun b => [s4dec b 0, s4dec b 1]) (g := s4dec) (by decide) (fun _ => rfl)
      (fun i => (memGet m (a + i)).toNat) (colBytes 0x11 0)
    rw [if_neg (by decide), if_pos rfl, hparts]
    exact zip_range (by decide) _
  · rw [if_neg (by decide), if_neg (by decide), List.map_map]
    exact zip_range (by decide) _

/-- Only T5 weights can be none. -/
theorem decodeWeights_good {op : Nat} (hop : op ≠ 0x10) (n v : Nat) : (decodeWeights op n v).2 = false := by
  unfold decodeWeights
  dsimp only
  rw [if_neg hop]
  split_ifs <;> rfl

/-- The kept positions of a dense column. -/
theorem keptOf_dense {m : MCtx} (h : m.dens = 8) (k kb : Nat) : keptOf m k kb = List.range 32 := by
  have hp (g : Nat) : pattern m.cfg.seed (BitVec.ofNat 32 k) (BitVec.ofNat 32 (4 * kb + g)) m.dens = List.range 8 := if_pos h
  unfold keptOf
  simp only [hp]
  decide

theorem blockSum_range (n : Nat) (w : Nat → Int) (xs : List Int) :
    blockSum ((List.range n).map fun j => (j, w j)) xs = ((List.range n).map fun j => w j * xs.getD j 0).foldl (· + ·) 0 := by
  unfold blockSum
  rw [List.map_map]
  rfl

/-! ### What a step reads -/

section
variable {s u : State} {op : Nat} {r : Rec} {c : BitVec 32}

theorem stepRead_sees (hu : Sees s u) {m : MCtx} (hp : m.k.p = s.cur) {a n : Nat} (hin : a + n ≤ 0x40_0000) (idx : Nat) :
    stepRead m a n idx u = .ok (rdN s.mem (spKey s.cur a) n) := by
  have hin' : spInside a n = true := decide_eq_true hin
  unfold stepRead
  rw [hp, hin', spBad_of_no_error hu.ecc, hu.read]
  rfl

theorem rdN_one (m : Memory) (a : Nat) : rdN m a 1 = (memGet m a).toNat := by
  have h := rdN_byte m a (n := 1) (j := 0) (by decide)
  rw [Nat.mul_zero, pow_zero, Nat.div_one, Nat.add_zero] at h
  rw [← h]
  exact (Nat.mod_eq_of_lt (rdN_lt m a 1)).symm

/-- The scale of row q. -/
def rowScale (s : State) (r : Rec) (q : Nat) : Nat := if r.mods.getLsbD 3 then 0 else (memGet s.mem (spKey s.cur ((cfgOf s).ascale + q))).toNat

/-- The scale of column k. -/
def colScale (s : State) (r : Rec) (k : Nat) : Nat := if r.mods.getLsbD 3 then 0 else (memGet s.mem (spKey s.cur ((cfgOf s).bscale + k))).toNat

/-- The activations of row q. -/
def acts (s : State) (r : Rec) (c : BitVec 32) (q : Nat) : List Int :=
  (List.range 32).map fun j => intOf 8 true (memGet s.mem (spKey s.cur (rowAt s r c q) + j)).toNat

/-- The weights of column k, by position. -/
def weights (s : State) (op : Nat) (r : Rec) (c : BitVec 32) (k : Nat) : List (Nat × Int) :=
  (List.range 32).map fun j => (j, weightOf op (fun i => (memGet s.mem (spKey s.cur (colAt s r c k) + i)).toNat) j)

theorem aScale_dense (h : DenseBlock s op r c) (hu : Sees s u) {q : Nat} (hq : q < 32) : aScale (denseCtx s op r c) [] q 0 0 u = .ok (rowScale s r q) := by
  have hspace : (denseCtx s op r c).k.r.a.space = 1#4 := h.aSpace
  have hisum : (denseCtx s op r c).isum = r.mods.getLsbD 3 := rfl
  have hrow : (denseCtx s op r c).rows.getD q (0, 0) = (q, 0) := getD_denseRows hq
  have hcfg : (denseCtx s op r c).cfg = cfgOf s := rfl
  unfold aScale MCtx.scaleAt rowScale
  rw [hspace, if_pos rfl, hisum, hrow, dense_kbs h, hcfg, Nat.mul_one, Nat.add_zero]
  by_cases hi : r.mods.getLsbD 3 = true
  · rw [if_pos hi, if_pos hi]
  · rw [if_neg hi, if_neg hi]
    obtain ⟨ha, -⟩ := h.scales (Bool.not_eq_true _ |>.mp hi)
    show stepRead (denseCtx s op r c) ((cfgOf s).ascale + q) 1 0 u = _
    rw [stepRead_sees hu rfl (by omega), rdN_one]

theorem aBlock_dense (h : DenseBlock s op r c) (hu : Sees s u) {q : Nat} (hq : q < 32) :
    aBlock (denseCtx s op r c) [] q 0 0 u = .ok (rowScale s r q, rowScale s r q, acts s r c q, 0) := by
  have hspace : (denseCtx s op r c).k.r.a.space = 1#4 := h.aSpace
  have haddr : recAddr u (denseCtx s op r c).k.p (denseCtx s op r c).k.ph ((denseCtx s op r c).aAddr q 0) = rowAt s r c q := by
    rw [denseCtx_aAddr hq]
    exact hu.addr _ _
  have hacts : (lanesOf 8 32 (rdN s.mem (spKey s.cur (rowAt s r c q)) 32)).map (intOf 8 true) = acts s r c q := by
    rw [lanesOf_rdN, List.map_map]
    rfl
  unfold aBlock
  rw [hspace, if_pos rfl, haddr, stepRead_sees hu rfl (h.aIn q hq), aScale_dense h hu hq]
  dsimp only
  rw [hacts]
  rfl

theorem bBlock_dense (h : DenseBlock s op r c) (hu : Sees s u) {k : Nat} (hk : k < 64) :
    ∃ none : Bool, bBlock (denseCtx s op r c) k 0 0 u = .ok (weights s op r c k, colScale s r k, none) := by
  have haddr : recAddr u (denseCtx s op r c).k.p (denseCtx s op r c).k.ph ((denseCtx s op r c).bAddr k 0) = colAt s r c k := by
    rw [denseCtx_bAddr h hk]
    exact hu.addr _ _
  have hisum : (denseCtx s op r c).isum = r.mods.getLsbD 3 := rfl
  have hop : (denseCtx s op r c).k.op = op := rfl
  have hcfg : (denseCtx s op r c).cfg = cfgOf s := rfl
  have hdens : (denseCtx s op r c).dens = 8 := by
    show (if r.mf 1 0 = 0 then 8 else if r.mf 1 0 = 1 then 4 else 2) = 8
    rw [h.dens]
    rfl
  have hkept : List.zip (keptOf (denseCtx s op r c) k 0)
      (decodeWeights op (colBytes op 0) (rdN s.mem (spKey s.cur (colAt s r c k)) (colBytes op 0))).1 = weights s op r c k := by
    rw [keptOf_dense hdens, decodeWeights_zip h.ops]
    rfl
  refine ⟨(decodeWeights op (colBytes op 0) (rdN s.mem (spKey s.cur (colAt s r c k)) (colBytes op 0))).2, ?_⟩
  have hvalid : ((decodeWeights op (colBytes op 0) (rdN s.mem (spKey s.cur (colAt s r c k)) (colBytes op 0))).2 && (denseCtx s op r c).k.tie) = false := by
    by_cases h10 : op = 0x10
    · have htie : (denseCtx s op r c).k.tie = false := h.tie h10
      rw [htie, Bool.and_false]
    · rw [decodeWeights_good h10, Bool.false_and]
  unfold bBlock colScale
  rw [haddr, dense_bLen h, stepRead_sees hu rfl (h.bIn k hk), hisum, hop]
  dsimp only
  rw [hvalid, if_neg Bool.false_ne_true, hkept, hcfg, Nat.zero_div, Nat.zero_mul, Nat.add_zero]
  by_cases hi : r.mods.getLsbD 3 = true
  · rw [if_pos hi, if_pos hi]
  · rw [if_neg hi, if_neg hi]
    obtain ⟨-, hb⟩ := h.scales (Bool.not_eq_true _ |>.mp hi)
    rw [stepRead_sees hu rfl (by omega), rdN_one]
    rfl

/-! ### The entries -/

/-- The value that the record gives the entry of row q and column k. -/
def denseValue (s : State) (op : Nat) (r : Rec) (c : BitVec 32) (q k : Nat) : Nat :=
  (updateEntry (denseCtx s op r c) (accum s (r.d.base.toNat + 512 * q + k)) (blockSum (weights s op r c k) (acts s r c q)) (rowScale s r q) (colScale s r k)).1

theorem mem_densePlaces (h : DenseBlock s op r c) (e : Nat × Nat) : e ∈ tilePlaces (denseCtx s op r c) 0 0 ↔ e.1 < 32 ∧ e.2 < 64 := by
  have hlen : (denseCtx s op r c).rows.length = 32 := length_denseRows
  have hcols : (denseCtx s op r c).cols = 64 := rfl
  obtain ⟨q, k⟩ := e
  unfold tilePlaces
  simp only [hlen, hcols, dense_formed h, Nat.mul_zero, Nat.zero_add, List.mem_flatMap, List.mem_map, List.mem_filter, List.mem_filterMap, List.mem_range,
    and_true, Prod.mk.injEq, Option.ite_none_right_eq_some, Option.some.injEq]
  constructor
  · rintro ⟨q', ⟨_, hq, -, rfl⟩, k', ⟨_, hk, -, rfl⟩, rfl, rfl⟩
    exact ⟨hq, hk⟩
  · rintro ⟨hq, hk⟩
    exact ⟨q, ⟨q, hq, hq, rfl⟩, k, ⟨k, hk, hk, rfl⟩, rfl, rfl⟩

theorem tileEntries_dense (hu : Sees s u) : tileEntries (denseCtx s op r c) 0 0 u =
    (tilePlaces (denseCtx s op r c) 0 0).map fun e => (e.1, e.2, accum s (r.d.base.toNat + 512 * e.1 + e.2)) := by
  have hacc : (u.co (denseCtx s op r c).k.p).acc = (s.co s.cur).acc := hu.acc
  unfold tileEntries
  rw [hacc]
  rfl

/-- The entries that the block's only step makes. -/
theorem stepBlock_dense (h : DenseBlock s op r c) (hu : Sees s u) : ∃ o : BlockOut,
    stepBlock (denseCtx s op r c) [] 0 0 (tileEntries (denseCtx s op r c) 0 0 u) u = .ok o ∧
      o.es = (tilePlaces (denseCtx s op r c) 0 0).map fun e => (e.1, e.2, denseValue s op r c e.1 e.2) := by
  rw [tileEntries_dense hu]
  generalize hes : (tilePlaces (denseCtx s op r c) 0 0).map (fun e => (e.1, e.2, accum s (r.d.base.toNat + 512 * e.1 + e.2))) = es
  have hin : ∀ e ∈ es, e.1 < 32 ∧ e.2.1 < 64 ∧ e.2.2 = accum s (r.d.base.toNat + 512 * e.1 + e.2.1) := by
    intro e he
    rw [← hes] at he
    obtain ⟨p, hp, rfl⟩ := List.mem_map.mp he
    obtain ⟨hq, hk⟩ := (mem_densePlaces h p).mp hp
    exact ⟨hq, hk, rfl⟩
  have has : mapE (fun q => (aBlock (denseCtx s op r c) [] q 0 0 u).map fun b => (q, b)) (es.map (·.1)).eraseDups =
      .ok ((es.map (·.1)).eraseDups.map fun q => (q, rowScale s r q, rowScale s r q, acts s r c q, (0 : Word))) := by
    refine mapE_of_ok fun q hq => ?_
    obtain ⟨e, he, rfl⟩ := List.mem_map.mp (List.mem_eraseDups.mp hq)
    rw [aBlock_dense h hu (hin e he).1]
    rfl
  have hnone : ∀ k : Nat, ∃ z : Bool, k < 64 → bBlock (denseCtx s op r c) k 0 0 u = .ok (weights s op r c k, colScale s r k, z) := fun k => by
    by_cases hk : k < 64
    · obtain ⟨z, hz⟩ := bBlock_dense h hu hk
      exact ⟨z, fun _ => hz⟩
    · exact ⟨false, fun hk' => absurd hk' hk⟩
  choose z hz using hnone
  have hbs : mapE (fun k => (bBlock (denseCtx s op r c) k 0 0 u).map fun b => (k, b)) (es.map (·.2.1)).eraseDups =
      .ok ((es.map (·.2.1)).eraseDups.map fun k => (k, weights s op r c k, colScale s r k, z k)) := by
    refine mapE_of_ok fun k hk => ?_
    obtain ⟨e, he, rfl⟩ := List.mem_map.mp (List.mem_eraseDups.mp hk)
    rw [hz _ (hin e he).2.1]
    rfl
  unfold stepBlock
  rw [has, hbs]
  refine ⟨_, rfl, ?_⟩
  dsimp only
  rw [List.map_map]
  have hmap : (tilePlaces (denseCtx s op r c) 0 0).map (fun e => (e.1, e.2, denseValue s op r c e.1 e.2)) =
      es.map fun e => (e.1, e.2.1, denseValue s op r c e.1 e.2.1) := by
    rw [← hes, List.map_map]
    rfl
  rw [hmap]
  refine List.map_congr_left fun e he => ?_
  obtain ⟨-, -, hval⟩ := hin e he
  have hq : e.1 ∈ (es.map fun e => e.1).eraseDups := List.mem_eraseDups.mpr (List.mem_map.mpr ⟨e, he, rfl⟩)
  have hk : e.2.1 ∈ (es.map fun e => e.2.1).eraseDups := List.mem_eraseDups.mpr (List.mem_map.mpr ⟨e, he, rfl⟩)
  rw [Function.comp_apply,
    find_made (fun q => (rowScale s r q, rowScale s r q, acts s r c q, (0 : Word))) hq,
    find_made (fun k => (weights s op r c k, colScale s r k, z k)) hk]
  dsimp only
  rw [hval]
  rfl

end

end Sys2Proof.Machine
end


section
/-! MDOT_T, MDOT_S4 and MDOT_I8 of one dense block (R154, R159, R165 to R169). -/
namespace Sys2Proof.Machine
set_option Elab.async false
open Safety

/-! ### The writes of a block -/

/-- A core with entries written, each at its row and column from an origin. -/
def putEntries (d : Nat) (es : List (Nat × Nat × Nat)) (x : Core) : Core := es.foldl (fun x e => x.putAcc (d + 512 * e.1 + e.2.1) e.2.2) x

theorem putEntries_eq (d : Nat) (es : List (Nat × Nat × Nat)) (x : Core) :
    putEntries d es x = { x with acc := (putEntries d es x).acc, written := (putEntries d es x).written } := by
  induction es generalizing x with
  | nil => rfl
  | cons e es ih => exact ih (x.putAcc (d + 512 * e.1 + e.2.1) e.2.2)

theorem tget_putAcc (x : Core) (e v j : Nat) : tget (x.putAcc e v).acc j 0 = if j = e then BitVec.ofNat 32 v else tget x.acc j 0 := tget_tput _ _ _ _ _

theorem tget_putEntries_out {d j : Nat} {es : List (Nat × Nat × Nat)} (h : ∀ e ∈ es, j ≠ d + 512 * e.1 + e.2.1) (x : Core) :
    tget (putEntries d es x).acc j 0 = tget x.acc j 0 := by
  induction es generalizing x with
  | nil => rfl
  | cons e es ih =>
    refine (ih (fun e he => h e (List.mem_cons_of_mem _ he)) _).trans ?_
    rw [tget_putAcc, if_neg (h e List.mem_cons_self)]

/-- An entry that every write to it gives one value. -/
theorem tget_putEntries_in {d j v : Nat} {es : List (Nat × Nat × Nat)} (hall : ∀ e ∈ es, j = d + 512 * e.1 + e.2.1 → e.2.2 = v) {x : Core}
    (h : tget x.acc j 0 = BitVec.ofNat 32 v ∨ ∃ e ∈ es, j = d + 512 * e.1 + e.2.1) : tget (putEntries d es x).acc j 0 = BitVec.ofNat 32 v := by
  induction es generalizing x with
  | nil => exact h.resolve_right fun ⟨e, he, _⟩ => nomatch he
  | cons e es ih =>
    refine ih (fun e he => hall e (List.mem_cons_of_mem _ he)) ?_
    rw [tget_putAcc]
    by_cases hj : j = d + 512 * e.1 + e.2.1
    · rw [if_pos hj, hall e List.mem_cons_self hj]
      exact .inl rfl
    · rw [if_neg hj]
      refine h.imp id ?_
      rintro ⟨f, hf, hfj⟩
      rcases List.mem_cons.mp hf with rfl | hf
      · exact absurd hfj hj
      · exact ⟨f, hf, hfj⟩

/-! ### The body -/

section
variable {s u : State} {op : Nat} {r : Rec} {c : BitVec 32}

/-- The only K-block of a dense block. -/
def onlyBlock : MBlock := { tile := (0, 0), kb := 0, idx := 0, last := true, done := true }

/-- A dense block is one step of one K-block. -/
theorem mdotLeft_dense (h : DenseBlock s op r c) :
    mdotLeft (denseCtx s op r c) 0 .reset = [onlyBlock] := by
  obtain ⟨-, -, h2, -⟩ := h.one
  have hlen : (denseCtx s op r c).rows.length = 32 := length_denseRows
  have hbd : (denseCtx s op r c).bd = false := h.bd
  have hn2 : (denseCtx s op r c).k.r.n2 = 1 := h2
  have hdens : (denseCtx s op r c).dens = 8 := by
    show (if r.mf 1 0 = 0 then 8 else if r.mf 1 0 = 1 then 4 else 2) = 8
    rw [h.dens]
    rfl
  have htiles : tilesOf (denseCtx s op r c) = [(0, 0)] := by
    unfold tilesOf
    rw [hlen, hbd, if_neg Bool.false_ne_true, hn2]
    rfl
  have hgroups : kGroups (denseCtx s op r c) = [[0]] := by
    unfold kGroups
    dsimp only
    rw [hdens, dense_kbs h]
    rfl
  unfold mdotLeft mdotSteps
  rw [htiles, hgroups]
  show stepMBlocks (denseCtx s op r c) (((0, 0), [0]), 0) ++ [] = _
  unfold stepMBlocks
  rw [dense_kbs h]
  rfl

/-- The package once the block's entries and flags are written. -/
def denseWritten (u : State) (p d : Nat) (es : List (Nat × Nat × Nat)) (fl : Word) : State := (addFlags u p fl).upCo p (putEntries d es)

theorem runBlocks_dense (h : DenseBlock s op r c) (hu : Sees s u) : ∃ (es : List (Nat × Nat × Nat)) (fl : Word) (x : Part),
    es = ((tilePlaces (denseCtx s op r c) 0 0).map fun e => (e.1, e.2, denseValue s op r c e.1 e.2)) ∧
    runBlocks (denseCtx s op r c) [onlyBlock] .reset u =
      .ok (x, denseWritten u s.cur r.d.base.toNat es fl) := by
  obtain ⟨o, hstep, hes⟩ := stepBlock_dense h hu
  have hkat : (denseCtx s op r c).k.r.kat = false := h.kat
  have hseen : stepSeen (denseCtx s op r c) .reset u = u := by
    unfold stepSeen
    rw [hu.palarm, Bool.false_and, if_neg Bool.false_ne_true]
  have hentries : blockEntries (denseCtx s op r c) onlyBlock .reset u =
      tileEntries (denseCtx s op r c) 0 0 u := by
    unfold blockEntries
    rw [hkat, if_neg Bool.false_ne_true]
    rfl
  have hfix (es : List (Nat × Nat × Nat)) : stepFix (denseCtx s op r c) [] 0 es u = u := if_pos hu.ecc
  have hwrite : stepWrite (denseCtx s op r c) o.es o.fl u = denseWritten u s.cur r.d.base.toNat o.es o.fl := by
    unfold stepWrite
    rw [hkat, if_neg Bool.false_ne_true]
    rfl
  refine ⟨o.es, o.fl, Part.after .reset (denseCtx s op r c) onlyBlock o.es o.scales, hes, ?_⟩
  unfold runBlocks
  dsimp only
  rw [hseen, hentries]
  show (match stepBlock (denseCtx s op r c) [] 0 0 (tileEntries (denseCtx s op r c) 0 0 u) u with
    | .error e => Except.error (e, u)
    | .ok o =>
      let w := wildEntries .reset o.es (stepFix (denseCtx s op r c) [] 0 (tileEntries (denseCtx s op r c) 0 0 u) u)
      runBlocks (denseCtx s op r c) [] (Part.after .reset (denseCtx s op r c) onlyBlock w.1 o.scales)
        (stepWrite (denseCtx s op r c) w.1 o.fl w.2)) = _
  rw [hstep]
  dsimp only
  have hwild : wildEntries .reset o.es u = (o.es, u) := if_neg (by decide)
  rw [hfix, hwild]
  dsimp only
  rw [hwrite, runBlocks]

/-- The body of a matrix product of one dense block. -/
theorem matEffect_dense (h : DenseBlock s op r c) : ∃ (es : List (Nat × Nat × Nat)) (fl : Word) (n : Nat),
    es = ((tilePlaces (denseCtx s op r c) 0 0).map fun e => (e.1, e.2, denseValue s op r c e.1 e.2)) ∧
    matEffect s.cur op (begunFlight s c) (secondHalf s r c) r (begun s c) =
      .done ⟨[(accBlock r.d.base.toNat, r.d.tag)], n⟩ (denseWritten (rowsTaken s c) s.cur r.d.base.toNat es fl) := by
  have hu := sees_rowsTaken h
  obtain ⟨es, fl, x, hes, hrun⟩ := runBlocks_dense h hu
  refine ⟨es, fl, (mdotSteps (denseCtx s op r c)).length, hes, ?_⟩
  have hop : op ≠ 0x01 ∧ op ≠ 0x02 := by
    have := h.ops
    omega
  have hbd : (denseCtx s op r c).bd = false := h.bd
  have hturn : inTurn (rowsTaken s c) (mdotLeft (denseCtx s op r c) (begunFlight s c).idx .reset) =
      [onlyBlock] := by
    have hidx : (begunFlight s c).idx = 0 := rfl
    unfold inTurn
    rw [hu.lim, hidx, mdotLeft_dense h]
  have hleft : mdotLeft (denseCtx s op r c) (begunFlight s c).idx .reset = [onlyBlock] :=
    mdotLeft_dense h
  have htaken : (begun s c).upFlight s.cur 1 (begunFlight s c).slot (fun f => { f with rows := some denseRows }) = rowsTaken s c := by
    unfold rowsTaken
    rw [begins_mat_curq h.begins]
    rfl
  have hbody : mdotBody (denseCtx s op r c) (begunFlight s c) .reset (rowsTaken s c) =
      .done ⟨[(accBlock r.d.base.toNat, r.d.tag)], (mdotSteps (denseCtx s op r c)).length⟩ (denseWritten (rowsTaken s c) s.cur r.d.base.toNat es fl) := by
    have hkat : (denseCtx s op r c).k.r.kat = false := h.kat
    unfold mdotBody
    dsimp only
    rw [hturn, hrun, hleft]
    dsimp only
    unfold partOver
    rw [if_neg (by decide), hkat, Bool.false_and, if_neg Bool.false_ne_true, if_neg Bool.false_ne_true, dense_blocks h]
    rfl
  have hstart : mdotEffect s.cur op (begunFlight s c) (secondHalf s r c) r (begun s c) =
      mdotBody (denseCtx s op r c) (begunFlight s c) .reset (rowsTaken s c) := by
    have hrows : (begunFlight s c).rows = none := rfl
    have hpart : (begunFlight s c).part = .reset := rfl
    unfold mdotEffect
    rw [hrows, dense_rows h]
    dsimp only
    rw [dense_mctx h, hbd, dense_addrOk h, dense_scalesOk h, Bool.false_and, Bool.not_true, Bool.false_or, Bool.false_or, if_neg Bool.false_ne_true,
      dense_accOk h]
    dsimp only
    rw [htaken, hpart]
  unfold matEffect
  rw [if_neg hop.1, if_neg hop.2, hstart, hbody]

/-! ### The result -/

/-- The value of an entry: the sum of the products, with ISUM as integers, else scaled (R154, R167). -/
theorem denseValue_eq {wt x : Nat → Nat → Int} {q k : Nat} (hx : ∀ j, x q j = intOf 8 true (memGet s.mem (spKey s.cur (rowAt s r c q) + j)).toNat)
    (hwt : ∀ j, wt k j = weightOf op (fun i => (memGet s.mem (spKey s.cur (colAt s r c k) + i)).toNat) j) :
    denseValue s op r c q k =
      if r.mods.getLsbD 3 then
        (((accum s (r.d.base.toNat + 512 * q + k) : Int) + ((List.range 32).map fun j => wt k j * x q j).foldl (· + ·) 0) % 2 ^ 32).toNat
      else (bsupdate (accum s (r.d.base.toNat + 512 * q + k)) (((List.range 32).map fun j => wt k j * x q j).foldl (· + ·) 0)
        (memGet s.mem (spKey s.cur ((cfgOf s).ascale + q))).toNat (memGet s.mem (spKey s.cur ((cfgOf s).bscale + k))).toNat).1 := by
  have hsum : blockSum (weights s op r c k) (acts s r c q) = ((List.range 32).map fun j => wt k j * x q j).foldl (· + ·) 0 := by
    unfold weights
    rw [blockSum_range]
    congr 1
    refine List.map_congr_left fun j hj => ?_
    have hact : (acts s r c q).getD j 0 = x q j := by
      unfold acts
      rw [List.getD_eq_getElem?_getD, List.getElem?_map, List.getElem?_range (List.mem_range.mp hj), hx]
      rfl
    rw [hact, hwt]
  unfold denseValue updateEntry
  rw [hsum]
  show (if r.mods.getLsbD 3 = true then _ else _ : Fl Nat).1 = _
  by_cases hi : r.mods.getLsbD 3 = true
  · rw [if_pos hi, if_pos hi]
    rfl
  · unfold rowScale colScale
    rw [if_neg hi, if_neg hi, if_neg hi, if_neg hi]

/-- The weights as the statement writes them. -/
theorem weightOf_eq {op : Nat} (byte : Nat → Nat) (j : Nat) : weightOf op byte j =
    if op = 0x10 then (if byte (j / 5) < 243 then ((byte (j / 5) / 3 ^ (j % 5) % 3 : Nat) : Int) - 1 else 0)
    else if op = 0x11 then intOf 4 true (byte (j / 2) / 16 ^ (j % 2) % 16) else intOf 8 true (byte j) := by
  unfold weightOf
  refine ite_congr rfl (fun _ => ?_) fun _ => rfl
  have hj : j % 5 < 5 := Nat.mod_lt _ (by decide)
  unfold t5dec
  by_cases hb : byte (j / 5) < 243
  · rw [if_pos hb, if_neg (by omega), List.getD_eq_getElem?_getD, List.getElem?_map, List.getElem?_range hj]
    rfl
  · rw [if_neg hb, if_pos (by omega)]
    generalize j % 5 = i at hj
    interval_cases i <;> rfl

variable {i : Instr} {k : BitVec 8}

/-- The turn of a matrix product of one dense block. -/
theorem completes_dense (hparts : recParts i = some (1#4, k, r)) (h : DenseBlock s k.toNat r c) : completes i s fun t =>
    engineOnly s t ∧ vregsKept s t ∧ (t.co s.cur).masks = (s.co s.cur).masks ∧ (t.co s.cur).spill = (s.co s.cur).spill ∧
    started s c 0 false [(accBlock r.d.base.toNat, r.d.tag)] t ∧
    (∀ q j, q < 32 → j < 64 → accum t (r.d.base.toNat + 512 * q + j) = denseValue s k.toNat r c q j % 2 ^ 32) ∧
    ∀ e, (∀ q j, q < 32 → j < 64 → e ≠ r.d.base.toNat + 512 * q + j) → accum t e = accum s e := by
  have hb := h.begins
  obtain ⟨es, fl, n, hes, hbody⟩ := matEffect_dense h
  refine ⟨_, exec_matRecord hparts hb hbody, ?_⟩
  obtain ⟨u, hu⟩ : ∃ u, u = denseWritten (rowsTaken s c) s.cur r.d.base.toNat es fl := ⟨_, rfl⟩
  rw [← hu]
  have hrows : rowsTaken s c = { s with core := (rowsTaken s c).core } := upFlight_begun_rest hb _
  have hcore : (rowsTaken s c).co s.cur = (s.co s.cur).setQueue s.curq (flightQueue s { begunFlight s c with rows := some denseRows }) := co_upFlight_begun hb _
  have hrowsOther {p : Nat} (hp : p ≠ s.cur) : (rowsTaken s c).co p = s.co p := co_upFlight_begun_other hb _ hp
  have hrest : u = { s with core := u.core } := by
    have hw : u = { rowsTaken s c with core := u.core } := by rw [hu]; rfl
    generalize u.core = C at hw
    rw [hw, hrows]
  have hco (p : Nat) : u.co p = if p = s.cur then putEntries r.d.base.toNat es { (rowsTaken s c).co s.cur with vstatus := ((rowsTaken s c).co s.cur).vstatus ||| fl }
      else (rowsTaken s c).co p := by
    rw [hu]
    refine (upCo_get (addFlags (rowsTaken s c) s.cur fl) s.cur (putEntries r.d.base.toNat es) p).trans ?_
    rw [co_addFlags, co_addFlags, if_pos rfl]
    split_ifs <;> rfl
  obtain ⟨x, hx⟩ : ∃ x, x = { (rowsTaken s c).co s.cur with vstatus := ((rowsTaken s c).co s.cur).vstatus ||| fl } := ⟨_, rfl⟩
  have hself := (hco s.cur).trans (if_pos rfl)
  rw [← hx] at hself
  obtain ⟨v, hv⟩ : ∃ v, x = { (s.co s.cur).setQueue s.curq (flightQueue s { begunFlight s c with rows := some denseRows }) with vstatus := v } :=
    ⟨_, by rw [hx, hcore]⟩
  have hcur : u.cur = s.cur := by rw [hrest]
  have hold (e : Nat) : tget x.acc e 0 = tget (s.co s.cur).acc e 0 := by
    rw [hv]
    show tget ((s.co s.cur).setQueue s.curq _).acc e 0 = _
    rw [acc_setQueue]
  have hacc (e : Nat) : accum u e = (tget (putEntries r.d.base.toNat es x).acc e 0).toNat := by
    unfold accum
    rw [hcur, hself]
  have hparts' : ∃ a w, u.co s.cur = { (s.co s.cur).setQueue s.curq (flightQueue s { begunFlight s c with rows := some denseRows }) with
      vstatus := v, acc := a, written := w } :=
    ⟨(putEntries r.d.base.toNat es x).acc, (putEntries r.d.base.toNat es x).written, by
      rw [hself, putEntries_eq]
      generalize (putEntries r.d.base.toNat es x).acc = a
      generalize (putEntries r.d.base.toNat es x).written = w
      rw [hv]⟩
  obtain ⟨a, w, hparts'⟩ := hparts'
  have hqueue (q : BitVec 2) : (u.co s.cur).queue q = ((s.co s.cur).setQueue s.curq (flightQueue s { begunFlight s c with rows := some denseRows })).queue q := by
    rw [hparts']
    rfl
  have hother (q : BitVec 2) (h3 : q ≠ 3#2) (hne : q ≠ s.curq) : (u.co s.cur).queue q = ringOf s q := by
    rw [hqueue, queue_setQueue_other _ h3 hne (begins_curq_ne hb (by decide))]
    rfl
  have hcurqueue : (u.co s.cur).queue s.curq = flightQueue s { begunFlight s c with rows := some denseRows } := by rw [hqueue, queue_setQueue]
  obtain ⟨l, hl⟩ : ∃ l : Left, l = ⟨[(accBlock r.d.base.toNat, r.d.tag)], n⟩ := ⟨_, rfl⟩
  rw [← hl]
  have hstarted := started_flight hb (by decide) hcur hcurqueue hother (begunFlight_hdr hb) rfl rfl rfl rfl l
  have hdone := co_endBody_flight hb hcurqueue rfl l
  have hend := endBody_rest u s.cur s.curq c l
  have hothers {p : Nat} (hp : p ≠ s.cur) : (endBody u s.cur s.curq c l).co p = s.co p := by
    rw [co_endBody_other _ _ _ _ hp, hco, if_neg hp, hrowsOther hp]
  generalize endBody u s.cur s.curq c l = t at hstarted hdone hend hothers
  rw [hparts', begins_mat_curq hb] at hdone
  have hkeep : t = { s with core := t.core } := by
    generalize t.core = C at hend
    rw [hend, hrest]
  have htcur : t.cur = s.cur := by rw [hkeep]
  have haccum (e : Nat) : accum t e = accum u e := by
    have h : (t.co s.cur).acc = (u.co s.cur).acc := by rw [hdone, hparts']; rfl
    unfold accum
    rw [htcur, hcur, h]
  have hmem : ∀ e ∈ es, ∃ q < 32, ∃ j < 64, e = (q, j, denseValue s k.toNat r c q j) := by
    intro e he
    rw [hes] at he
    obtain ⟨p, hp, rfl⟩ := List.mem_map.mp he
    obtain ⟨hq, hj⟩ := (mem_densePlaces h p).mp hp
    exact ⟨p.1, hq, p.2, hj, rfl⟩
  refine ⟨⟨hkeep, fun p hp => hothers hp, ?_⟩, ⟨?_, ?_, ?_⟩, ?_, ?_, ?_, fun q j hq hj => ?_, fun e he => ?_⟩
  · rw [hdone]; rfl
  · rw [hdone]; rfl
  · rw [hdone]; rfl
  · rw [hdone]; rfl
  · rw [hdone]; rfl
  · rw [hdone]; rfl
  · rw [hl] at hstarted
    exact hstarted
  · rw [haccum, hacc, tget_putEntries_in (v := denseValue s k.toNat r c q j), BitVec.toNat_ofNat]
    · intro e he heq
      obtain ⟨q', hq', j', hj', rfl⟩ := hmem e he
      dsimp only at heq
      obtain ⟨rfl, rfl⟩ : q' = q ∧ j' = j := by omega
      rfl
    · refine .inr ⟨(q, j, denseValue s k.toNat r c q j), ?_, rfl⟩
      rw [hes]
      exact List.mem_map.mpr ⟨(q, j), (mem_densePlaces h (q, j)).mpr ⟨hq, hj⟩, rfl⟩
  · rw [haccum, hacc, tget_putEntries_out, hold]
    · rfl
    · intro f hf
      obtain ⟨q, hq, j, hj, rfl⟩ := hmem f hf
      exact he q j hq hj

end

theorem matrixProductResults : Parts.MatrixProductResults := by
  intro s r c i op bytes wt cfg ph A B x hop hone hkat hecc hpalarm hb hdens hbd hspace hcol hrow hrange hcfg hshen hph hA hB hAin hBin hscales hspill htag htie
    hx hwt
  have hcurq := begins_mat_curq hb
  have hsecond : ph = secondHalf s r c := by
    rw [hph, secondHalf, hcurq]
  have hrowAt (q : Nat) : A q = rowAt s r c q := by rw [hA, hsecond, rowAt]
  have hcolAt (k : Nat) : B k = colAt s r c k := by rw [hB, hsecond, colAt]
  have hcfg' : cfg = cfgOf s := hcfg
  obtain ⟨k, hk, hparts, hops, hbytes⟩ : ∃ k : BitVec 8, k.toNat = op ∧ recParts i = some (1#4, k, r) ∧ (op = 0x10 ∨ op = 0x11 ∨ op = 0x12) ∧ bytes = colBytes op 0 := by
    simp only [List.mem_cons, List.not_mem_nil, or_false, Prod.mk.injEq] at hop
    rcases hop with ⟨rfl, rfl, rfl⟩ | ⟨rfl, rfl, rfl⟩ | ⟨rfl, rfl, rfl⟩
    · exact ⟨0x10#8, rfl, rfl, .inl rfl, rfl⟩
    · exact ⟨0x11#8, rfl, rfl, .inr (.inl rfl), rfl⟩
    · exact ⟨0x12#8, rfl, rfl, .inr (.inr rfl), rfl⟩
  have hdense : DenseBlock s op r c :=
    { begins := hb, ops := hops, one := hone, kat := hkat, ecc := hecc, palarm := hpalarm, dens := hdens, bd := hbd, aSpace := hspace, col := hcol, row := hrow,
      aRange := hrange, shen := hcfg' ▸ hshen, aIn := fun q hq => hrowAt q ▸ hAin q hq, bIn := fun k hk => hcolAt k ▸ hbytes ▸ hBin k hk,
      scales := hcfg' ▸ hscales, spill := hspill, tag := htag, tie := htie }
  have hvalue (q j : Nat) := denseValue_eq (s := s) (op := op) (r := r) (c := c) (q := q) (k := j) (wt := wt) (x := x) (fun j => hrowAt q ▸ hx q j)
    (fun i => by rw [hwt, weightOf_eq, hcolAt])
  subst hk
  obtain ⟨t, ht, heng, hregs, hmasks, hsp, hstarted, hin, hout⟩ := completes_dense hparts hdense
  refine ⟨t, ht, heng, hregs, hmasks, hsp, hstarted, fun q j hq hj sum hsum => ?_, hout⟩
  rw [hin q j hq hj, hvalue, ← hsum, hcfg']
  by_cases hi : r.mods.getLsbD 3 = true
  · rw [if_pos hi, if_pos hi]
    exact Nat.mod_eq_of_lt (wrapBits_lt 32 _)
  · rw [if_neg hi, if_neg hi]

/-- Settles O34: a configuration block is loaded or refused, a block is zeroed or its row or a parked group refused, and a product of one dense block gives each
of its entries the block sum. -/
theorem matrixOperations : Obligations.MatrixOperations := by
  unfold Obligations.MatrixOperations
  exact ⟨matrixSetupResults, matrixProductResults⟩

end Sys2Proof.Machine
end


section
/-! The launch of a team's tasks (R286): what it leaves as it was. -/
namespace Sys2Proof.Machine
set_option Elab.async false
open Safety

/-! ### What launch reads -/

theorem homeRead_eq {s : State} {req c ea n need : Nat} {r : Nat × Bool × State} (h : homeRead s req c ea n need = .ok r) :
    r.2.2 = { s with die := r.2.2.die } := by
  unfold homeRead at h
  split at h
  · exact nomatch h
  · exact nomatch h
  · cases h
    exact noteAccess_eq ..

theorem globalRead_eq {req c k ea n : Nat} {s : State} {r : Nat × Bool × State} (h : globalRead req c k ea n s = .ok r) :
    r.2.2 = { s with die := r.2.2.die } := by
  induction k generalizing ea n s r with
  | zero =>
    cases h
    rfl
  | succ k ih =>
    unfold globalRead at h
    split at h
    · cases h
      rfl
    · dsimp only at h
      split at h
      · exact nomatch h
      · rename_i v bad u hu
        split at h
        · exact nomatch h
        · rename_i w hw
          cases h
          have hbase : u = { s with die := u.die } := homeRead_eq hu
          have hrest := ih hw
          generalize w.2.2 = t at hrest
          rw [hrest, hbase]

/-! ### What a launch leaves -/

/-- Two packages that differ by what the launch of tasks on some cores does: the cores, their streams and scratchpads, and faults that are added. -/
structure Launching (ps : List Nat) (s u : State) : Prop where
  team : u.team = s.team
  teamNo : u.teamNo = s.teamNo
  pool : u.pool = s.pool
  spills : u.spills = s.spills
  ended : u.ended = s.ended
  vt : u.vt = s.vt
  low : ∀ a, a < 2 ^ 42 → memGet u.mem a = memGet s.mem a
  co : ∀ j, j ∉ ps → u.co j = s.co j
  sc : ∀ j, j ∉ ps → u.sc j = s.sc j
  faults : ∀ f ∈ s.faults, f ∈ u.faults

theorem Launching.refl (ps : List Nat) (s : State) : Launching ps s s :=
  ⟨rfl, rfl, rfl, rfl, rfl, rfl, fun _ _ => rfl, fun _ _ => rfl, fun _ _ => rfl, fun _ h => h⟩

theorem Launching.trans {ps : List Nat} {s u v : State} (h : Launching ps s u) (g : Launching ps u v) : Launching ps s v where
  team := g.team.trans h.team
  teamNo := g.teamNo.trans h.teamNo
  pool := g.pool.trans h.pool
  spills := g.spills.trans h.spills
  ended := g.ended.trans h.ended
  vt := g.vt.trans h.vt
  low a ha := (g.low a ha).trans (h.low a ha)
  co j hj := (g.co j hj).trans (h.co j hj)
  sc j hj := (g.sc j hj).trans (h.sc j hj)
  faults f hf := g.faults f (h.faults f hf)

theorem Launching.mono {ps qs : List Nat} {s u : State} (h : Launching ps s u) (hsub : ∀ p ∈ ps, p ∈ qs) : Launching qs s u :=
  { h with co := fun j hj => h.co j fun hp => hj (hsub j hp), sc := fun j hj => h.sc j fun hp => hj (hsub j hp) }

theorem launching_putSc (s : State) (p : Nat) (x : Scalar) : Launching [p] s (s.putSc p x) :=
  { Launching.refl [p] s with sc := fun j hj => (putSc_get s p x j).trans (if_neg fun e => hj (List.mem_singleton.mpr e)) }

theorem launching_upCo (s : State) (p : Nat) (f : Core → Core) : Launching [p] s (s.upCo p f) :=
  { Launching.refl [p] s with co := fun j hj => (upCo_get s p f j).trans (if_neg fun e => hj (List.mem_singleton.mpr e)) }

theorem launching_zeroCore (s : State) (p : Nat) : Launching [p] s (zeroCore s p) := by
  have hframe : (zeroCore s p).team = s.team ∧ (zeroCore s p).teamNo = s.teamNo ∧ (zeroCore s p).pool = s.pool ∧ (zeroCore s p).spills = s.spills ∧
      (zeroCore s p).ended = s.ended ∧ (zeroCore s p).vt = s.vt ∧ (zeroCore s p).faults = s.faults := by
    unfold zeroCore
    dsimp only
    rw [endGrant_eq]
    exact ⟨rfl, rfl, rfl, rfl, rfl, rfl, rfl⟩
  obtain ⟨hteam, hno, hpool, hspills, hended, hvt, hfaults⟩ := hframe
  refine ⟨hteam, hno, hpool, hspills, hended, hvt, fun a ha => ?_, fun j hj => ?_, fun j hj => ?_, fun f hf => hfaults ▸ hf⟩
  · refine (zeroCore_memory s p).2 a (.inl ?_)
    unfold spKey
    omega
  · rw [co_zeroCore, if_neg fun e => hj (List.mem_singleton.mpr e)]
  · rw [sc_zeroCore, if_neg fun e => hj (List.mem_singleton.mpr e)]

theorem launching_noteUp (ps : List Nat) (s : State) : Launching ps s (noteUp s) := { Launching.refl ps s with team := rfl }

theorem launching_claimCore (s : State) (c p : Nat) (fresh : Bool) : Launching [p] s (claimCore s c p fresh) := by
  unfold claimCore
  dsimp only
  refine (Launching.trans ?_ (launching_upCo _ p _)).trans (launching_noteUp [p] _)
  split_ifs
  · exact Launching.refl [p] s
  · exact launching_zeroCore s p

/-! ### The bytes that launch copies -/

/-- Two packages that differ by bytes in scratchpads, their error codes, and what a die logs. -/
structure CopiedIn (s u : State) : Prop where
  rest : u = { s with die := u.die, mem := u.mem, ecc := u.ecc }
  low : ∀ a, a < 2 ^ 42 → memGet u.mem a = memGet s.mem a

theorem CopiedIn.refl (s : State) : CopiedIn s s := ⟨rfl, fun _ _ => rfl⟩

theorem CopiedIn.trans {s u v : State} (h : CopiedIn s u) (g : CopiedIn u v) : CopiedIn s v := by
  refine ⟨?_, fun a ha => (g.low a ha).trans (h.low a ha)⟩
  have hu := h.rest
  have hv := g.rest
  generalize u.die = d at hu
  generalize u.mem = m at hu
  generalize u.ecc = e at hu
  generalize v.die = d' at hv
  generalize v.mem = m' at hv
  generalize v.ecc = e' at hv
  rw [hv, hu]

theorem CopiedIn.launching {s u : State} (h : CopiedIn s u) (ps : List Nat) : Launching ps s u := by
  have hrest := h.rest
  have hlow := h.low
  generalize u.die = d at hrest
  generalize u.mem = m at hrest hlow
  generalize u.ecc = e at hrest
  rw [hrest]
  exact { Launching.refl ps s with low := hlow }

theorem copyIn_ok {s u : State} {c p at' ea n : Nat} (h : copyIn s c p at' ea n = .ok u) : CopiedIn s u := by
  unfold copyIn at h
  split at h
  · exact nomatch h
  · rename_i v bad t ht
    split_ifs at h with hbad
    cases h
    have hread : t = { s with die := t.die } := globalRead_eq ht
    generalize t.die = d at hread
    rw [hread]
    refine ⟨rfl, fun a ha => memGet_wrN_out _ _ _ _ _ (.inl ?_)⟩
    unfold spKey
    omega

theorem copyIn_error {s : State} {c p at' ea n : Nat} {e : HomeFail} (h : copyIn s c p at' ea n = .error e) : CopiedIn s e.st := by
  unfold copyIn at h
  split at h
  · cases h
    exact CopiedIn.refl s
  · rename_i v bad t ht
    split_ifs at h with hbad
    cases h
    have hread : t = { s with die := t.die } := globalRead_eq ht
    generalize t.die = d at hread
    dsimp only
    rw [hread]
    exact ⟨rfl, fun _ _ => rfl⟩

theorem copyArgs_ok {s u : State} {c p args : Nat} {k : BitVec 1024} (h : copyArgs s c p args k = .ok u) : CopiedIn s u := by
  unfold copyArgs at h
  split at h
  · exact nomatch h
  · rename_i t ht
    exact (copyIn_ok ht).trans (copyIn_ok h)

theorem copyArgs_error {s : State} {c p args : Nat} {k : BitVec 1024} {e : HomeFail} (h : copyArgs s c p args k = .error e) : CopiedIn s e.st := by
  unfold copyArgs at h
  split at h
  · rename_i e' he
    cases h
    exact copyIn_error he
  · rename_i t ht
    exact (copyIn_ok ht).trans (copyIn_error h)

/-! ### The launch of a task -/

/-- A task stands at its first instruction, or its context has faulted. -/
structure Launched (s : State) (tid l p c : Nat) (k : BitVec 1024) : Prop where
  task : (s.co p).task = some ⟨tid, l⟩
  stream : s.sc p = taskScalar c k ∨ s.sc p = { taskScalar c k with run := .suspended } ∧ ∃ f ∈ s.faults, f.ctx = BitVec.ofNat 6 c

theorem Launched.kept {ps : List Nat} {s u : State} {tid l p c : Nat} {k : BitVec 1024} (h : Launched s tid l p c k) (hu : Launching ps s u) (hp : p ∉ ps) :
    Launched u tid l p c k := by
  refine ⟨(congrArg Core.task (hu.co p hp)).trans h.task, ?_⟩
  rw [hu.sc p hp]
  exact h.stream.imp id fun ⟨hsc, f, hf, hctx⟩ => ⟨hsc, f, hu.faults f hf, hctx⟩

theorem launchTask_spec (s : State) (tid l p c args : Nat) (k : BitVec 1024) :
    Launching [p] s (launchTask s tid l p c args k) ∧ Launched (launchTask s tid l p c args k) tid l p c k := by
  obtain ⟨u, hu⟩ : ∃ u, u = ((claimCore s c p false).upCo p fun x =>
    { x with task := some ⟨tid, l⟩, vq := launchRing k 0, mq := launchRing k 1, cq := launchRing k 2 }).putSc p (taskScalar c k) := ⟨_, rfl⟩
  have hready : Launching [p] s u := by
    rw [hu]
    exact ((launching_claimCore s c p false).trans (launching_upCo _ _ _)).trans (launching_putSc _ _ _)
  have htask : (u.co p).task = some ⟨tid, l⟩ := by
    rw [hu]
    exact congrArg Core.task ((upCo_get (claimCore s c p false) p (fun x =>
      { x with task := some ⟨tid, l⟩, vq := launchRing k 0, mq := launchRing k 1, cq := launchRing k 2 }) p).trans (if_pos rfl))
  have hstream : u.sc p = taskScalar c k := by
    rw [hu]
    exact (putSc_get _ p (taskScalar c k) p).trans (if_pos rfl)
  have hlaunch : launchTask s tid l p c args k = match copyArgs u c p args k with
      | .error e => (e.st.memFault c (e.addr / 2 ^ 56) 0xFFF e.cause e.detail (BitVec.ofNat 64 e.addr)).putSc p { u.sc p with run := .suspended }
      | .ok t => if hasPhases t p then takeCheckpoint t p (t.sc p).pc else t := by
    rw [hu]
    rfl
  have hkept {t : State} (ht : CopiedIn u t) : t.co p = u.co p ∧ t.sc p = u.sc p := by
    have hl := ht.launching []
    exact ⟨hl.co p (List.not_mem_nil), hl.sc p (List.not_mem_nil)⟩
  rw [hlaunch, hstream]
  cases hcopy : copyArgs u c p args k with
  | error e =>
    have he := copyArgs_error hcopy
    have hfault : Launching [p] e.st (e.st.memFault c (e.addr / 2 ^ 56) 0xFFF e.cause e.detail (BitVec.ofNat 64 e.addr)) :=
      { Launching.refl [p] e.st with faults := fun f hf => List.mem_append_left _ hf }
    refine ⟨((hready.trans (he.launching [p])).trans hfault).trans (launching_putSc _ _ _), ⟨?_, .inr ⟨?_, _, List.mem_append_right _ List.mem_cons_self, rfl⟩⟩⟩
    · exact (congrArg Core.task (hkept he).1).trans htask
    · exact (putSc_get _ p _ p).trans (if_pos rfl)
  | ok t =>
    have ht := copyArgs_ok hcopy
    obtain ⟨hco, hsc⟩ := hkept ht
    dsimp only
    split_ifs with hph
    · have hckpt : Launching [p] t (takeCheckpoint t p (t.sc p).pc) :=
        { Launching.refl [p] t with co := fun j hj => (putCo_get t p _ j).trans (if_neg fun e => hj (List.mem_singleton.mpr e)) }
      refine ⟨(hready.trans (ht.launching [p])).trans hckpt, ⟨?_, .inl (hsc.trans hstream)⟩⟩
      refine (congrArg Core.task ((putCo_get t p _ p).trans (if_pos rfl))).trans ?_
      exact (congrArg Core.task hco).trans htask
    · exact ⟨hready.trans (ht.launching [p]), ⟨(congrArg Core.task hco).trans htask, .inl (hsc.trans hstream)⟩⟩

theorem launchTasks_spec (tid c args : Nat) (k : BitVec 1024) {ps : List Nat} (hps : ps.Nodup) (l : Nat) (s : State) :
    Launching ps s (launchTasks tid c args k l ps s) ∧ ∀ j p, ps[j]? = some p → Launched (launchTasks tid c args k l ps s) tid (l + j) p c k := by
  induction ps generalizing l s with
  | nil => exact ⟨Launching.refl [] s, fun j p h => nomatch h⟩
  | cons p ps ih =>
    obtain ⟨hp, hps⟩ := List.nodup_cons.mp hps
    obtain ⟨hone, hdone⟩ := launchTask_spec s tid l p c args k
    obtain ⟨hrest, hall⟩ := ih hps (l + 1) (launchTask s tid l p c args k)
    refine ⟨(hone.mono fun q hq => ?_).trans (hrest.mono fun q hq => List.mem_cons_of_mem _ hq), fun j q hj => ?_⟩
    · rw [List.mem_singleton.mp hq]
      exact List.mem_cons_self
    · cases j with
      | zero =>
        obtain rfl : p = q := Option.some.inj hj
        exact hdone.kept hrest hp
      | succ j =>
        rw [← Nat.add_assoc, Nat.add_right_comm]
        exact hall j q hj

end Sys2Proof.Machine
end


section
/-! DISPATCH with one work item in the pool (R286, R289, R291, R292). -/
namespace Sys2Proof.Machine
set_option Elab.async false
open Safety

/-! ### A pool of one work item, or of none -/

section
variable {s : State} {i : PoolItem}

theorem refreshHeads_read (hpool : s.pool = [i]) (hhead : i.head.isSome = true) : refreshHeads s = s := by
  have hread : readHeads [i] [] s = ([i], s) := by
    unfold readHeads
    dsimp only
    rw [hhead, Bool.or_true, if_pos rfl]
    rfl
  unfold refreshHeads
  rw [hpool, hread, ← hpool]

theorem refreshHeads_empty (hpool : s.pool = []) : refreshHeads s = s := by
  unfold refreshHeads
  rw [hpool, readHeads, ← hpool]

theorem refillAll_none (h : s.spills = []) : refillAll s = s := by
  unfold refillAll
  rw [h]
  rfl

theorem busyQueues_one (hpool : s.pool = [i]) : busyQueues s = [itemQueue i.item] := by
  unfold busyQueues
  rw [hpool]
  rfl

theorem queueHead_one (hpool : s.pool = [i]) : queueHead s (itemQueue i.item) = some i := by
  unfold queueHead queueItems
  rw [hpool, List.filter_cons, beq_self_eq_true, if_pos rfl]
  rfl

theorem busyQueues_empty (hpool : s.pool = []) : busyQueues s = [] := by
  unfold busyQueues
  rw [hpool]
  rfl

theorem runnables_empty (hpool : s.pool = []) : runnables s = [] := by
  unfold runnables
  rw [busyQueues_empty hpool]
  rfl

theorem askYields_empty (hpool : s.pool = []) : askYields s = s := by
  unfold askYields
  rw [busyQueues_empty hpool]
  rfl

theorem choose_empty (hpool : s.pool = []) (k : Nat) : choose (k + 1) s = { s with ran := [] } := by
  unfold choose
  rw [runnables_empty hpool]
  rfl

/-- The only work item leaves the pool: DEPTH follows. -/
theorem popQueue_one (hpool : s.pool = [i]) (hspills : s.spills = []) :
    popQueue s (itemQueue i.item) = syncDepth { s with pool := [] } (itemQueue i.item) := by
  have hdrop : dropHead (itemQueue i.item) s.pool = [] := by
    rw [hpool, dropHead, if_pos rfl]
  unfold popQueue
  rw [hdrop, refreshHeads_empty rfl]
  exact refillAll_none hspills

theorem runnables_one (hpool : s.pool = [i]) (h : runnable s (itemQueue i.item) = true) : runnables s = [itemQueue i.item] := by
  unfold runnables
  rw [busyQueues_one hpool, List.filter_cons_of_pos h]
  rfl

theorem put64_rest (s : State) (k v : Nat) : s.put64 k v = { s with scal := (s.put64 k v).scal, die := (s.put64 k v).die, mem := (s.put64 k v).mem } := rfl

/-- A queue that comes up to VT: its PASS changes, and who watches its line sees it. -/
theorem wake_rest (s : State) (run : List Nat) :
    wake s run = { s with scal := (wake s run).scal, die := (wake s run).die, mem := (wake s run).mem } := by
  unfold wake
  induction run generalizing s with
  | nil => rfl
  | cons q run ih =>
    rw [List.foldl_cons]
    split_ifs
    · exact ih s
    · have hrest := ih (s.put64 (queueKey q 1) (max (queuePass s q) s.vt))
      generalize List.foldl _ (s.put64 (queueKey q 1) (max (queuePass s q) s.vt)) run = u at hrest
      rw [hrest, put64_rest]

theorem regs_wake (s : State) (run : List Nat) (a : Nat) : ((wake s run).sc a).regs = (s.sc a).regs := by
  unfold wake
  induction run generalizing s with
  | nil => rfl
  | cons q run ih =>
    rw [List.foldl_cons]
    split_ifs
    · exact ih s
    · exact (ih _).trans (regs_put64 ..)

/-- The dispatcher discards the head of the only runnable queue, whose deadline has passed. -/
theorem choose_late {u : State} {q k : Nat} (hrun : runnables s = [q]) (hu : wake s [q] = u) (hhead : queueHead u q = some i)
    (hlate : itemLate u i.item = true) : choose (k + 1) s = choose k (discardHead { u with ran := [q] } q i 1) := by
  rw [choose, hrun, hu]
  dsimp only [firstQueue]
  rw [hhead]
  dsimp only
  rw [if_pos hlate]

/-- The dispatcher places the head of the only runnable queue. -/
theorem choose_placed {u : State} {q k : Nat} {pl : List (Nat × List Nat)} (hrun : runnables s = [q]) (hu : wake s [q] = u) (hhead : queueHead u q = some i)
    (hlate : itemLate u i.item = false) (hread : i.read.status = 0) (hfits : neverFits u i.item (kdUse i.read.kdesc) = false)
    (hplace : placeItem u q i.item (kdUse i.read.kdesc) = some pl) {v : State} (hv : dispatchItem { u with ran := [q] } [q] q i pl = v) :
    choose (k + 1) s = { v with ran := (runnables v).filter [q].contains } := by
  rw [choose, hrun, hu]
  dsimp only [firstQueue]
  rw [hhead]
  dsimp only
  rw [hlate, if_neg Bool.false_ne_true, if_neg (not_not.mpr hread), hfits, if_neg Bool.false_ne_true, hplace]
  dsimp only
  rw [hv]

theorem dispatch_one (hpool : s.pool = [i]) (hspills : s.spills = []) (hhead : i.head.isSome = true) :
    exec .dispatch s = .next (askYields (choose 2 s)) := by
  show Host.Outcome.next (askYields (choose ((refreshHeads (refillAll s)).pool.length + 1) (refreshHeads (refillAll s)))) = _
  rw [refillAll_none hspills, refreshHeads_read hpool hhead, hpool]
  rfl

end

/-! ### A deadline that has passed -/

section
variable {s : State} {i : PoolItem}

theorem dispatch_late (hpool : s.pool = [i]) (hspills : s.spills = []) (hhead : i.head.isSome = true) (hlive : ctxLive s (itemCtx i.item) = true)
    (hlate : itemLate s i.item = true) : completes .dispatch s fun t =>
      t.pool = [] ∧ t.ended = s.ended ++ [(i.item, 1)] ∧ t.team = s.team ∧ allRegsKept s t := by
  have hrun : runnable s (itemQueue i.item) = true := by
    unfold runnable
    rw [queueHead_one hpool]
    dsimp only
    rw [hlive, hlate]
    rfl
  obtain ⟨u, hu⟩ : ∃ u, wake s [itemQueue i.item] = u := ⟨_, rfl⟩
  have hwake := wake_rest s [itemQueue i.item]
  have hregs := regs_wake s [itemQueue i.item]
  rw [hu] at hwake hregs
  have hupool : u.pool = [i] := by rw [hwake]; exact hpool
  have huspills : u.spills = [] := by rw [hwake]; exact hspills
  have huteam : u.team = s.team := by rw [hwake]
  have huended : u.ended = s.ended := by rw [hwake]
  have hulate : itemLate u i.item = true := by rw [hwake]; exact hlate
  obtain ⟨v, hv⟩ : ∃ v : State, v = { u with ran := [itemQueue i.item], ended := u.ended ++ [(i.item, 1)], pool := [] } := ⟨_, rfl⟩
  have hdiscard : discardHead { u with ran := [itemQueue i.item] } (itemQueue i.item) i 1 = syncDepth v (itemQueue i.item) := by
    rw [discardHead, hv]
    exact popQueue_one hupool huspills
  have hvpool : (syncDepth v (itemQueue i.item)).pool = [] := by rw [hv]; rfl
  have hchoose := choose_late (k := 1) (runnables_one hpool hrun) hu (queueHead_one hupool) hulate
  rw [hdiscard, choose_empty hvpool] at hchoose
  obtain ⟨w, hw⟩ : ∃ w : State, w = { syncDepth v (itemQueue i.item) with ran := [] } := ⟨_, rfl⟩
  have hwpool : w.pool = [] := by rw [hw]; exact hvpool
  have hexec := dispatch_one hpool hspills hhead
  rw [hchoose, ← hw, askYields_empty hwpool, hw] at hexec
  refine ⟨_, hexec, hvpool, ?_, ?_, fun a => ?_⟩
  · show v.ended = _
    rw [hv]
    exact congrArg (· ++ [(i.item, 1)]) huended
  · show v.team = _
    rw [hv]
    exact huteam
  · have hva : (v.sc a).regs = (u.sc a).regs := by rw [hv]; rfl
    funext r
    rw [reg_eq, reg_eq]
    show (if r = 0#6 then 0#64 else tget ((syncDepth v (itemQueue i.item)).sc a).regs r.toNat 0#64) = _
    rw [syncDepth, regs_put64, hva, hregs]

end

/-! ### A work item that is placed -/

section
variable {s : State} {i : PoolItem} {d : Nat} {ps : List Nat}

/-- The queue's PASS and VT have advanced. -/
def passAdvanced (s : State) (q tk : Nat) : State :=
  { s.put64 (queueKey q 1) ((queuePass s q + max 1 (2 ^ 20 / tk)) % 2 ^ 64) with vt := queuePass s q }

/-- The queue has dispatched one more work item. -/
def dispCounted (s : State) (q : Nat) : State :=
  s.put64 (queueKey q 2) ((queueWord s q 2 / 2 ^ 32 + 1) % 2 ^ 32 * 2 ^ 32 + queueWord s q 2 % 2 ^ 32)

theorem advanced_rest (s : State) (q tk : Nat) : ∃ scal die mem, dispCounted (passAdvanced s q tk) q =
    { s with scal := scal, die := die, mem := mem, vt := queuePass s q } := by
  unfold passAdvanced dispCounted
  generalize (queuePass s q + max 1 (2 ^ 20 / tk)) % 2 ^ 64 = v
  generalize queuePass s q = p
  exact ⟨_, _, _, put64_rest ..⟩

/-- A team is formed. -/
def teamFormed (s : State) (i : PoolItem) (d : Nat) (ps : List Nat) : State :=
  ({ s with teamNo := s.teamNo + 1 }).putTm s.teamNo (freshTeam i.item i.read.kdesc (itemQueue i.item) d ps none 0)

/-- The team's tasks are launched. -/
def teamLaunched (s : State) (i : PoolItem) (d : Nat) (ps : List Nat) : State :=
  launchTasks s.teamNo (itemCtx i.item) (itemWord i.item 2) i.read.kdesc 0 ps (teamFormed s i d ps)

theorem dispatchItem_eq (s : State) (run : List Nat) (q : Nat) (i : PoolItem) (pl : List (Nat × List Nat)) : dispatchItem s run q i pl =
    yielded (popQueue (launchTeams i.item i.read.kdesc q
      (if itemTeams i.item = 1 then none else some (dispCounted (passAdvanced s q (effTickets s run q)) q).teamNo) 0 pl
      (dispCounted (passAdvanced s q (effTickets s run q)) q)) q) q := rfl

theorem launchTeams_one (s : State) (i : PoolItem) (d : Nat) (ps : List Nat) :
    launchTeams i.item i.read.kdesc (itemQueue i.item) none 0 [(d, ps)] s = teamLaunched s i d ps := rfl

theorem dispatchItem_one (s : State) {run : List Nat} {tk : Nat} (htk : effTickets s run (itemQueue i.item) = tk) (hone : itemTeams i.item = 1) :
    dispatchItem s run (itemQueue i.item) i [(d, ps)] =
      yielded (popQueue (teamLaunched (dispCounted (passAdvanced s (itemQueue i.item) tk) (itemQueue i.item)) i d ps) (itemQueue i.item)) (itemQueue i.item) := by
  rw [dispatchItem_eq, htk, if_pos hone, launchTeams_one]

theorem effTickets_one (hpool : s.pool = [i]) (hopen : queueBlocked s (itemQueue i.item) = false) (run : List Nat) :
    effTickets s run (itemQueue i.item) = tickets s (itemQueue i.item) := by
  unfold effTickets
  rw [busyQueues_one hpool, List.filter_cons, hopen, Bool.false_and, if_neg Bool.false_ne_true, List.filter_nil, List.map_nil, List.sum_nil, Nat.add_zero]

/-- The package in which the only work item has been placed. -/
def placed (s : State) (i : PoolItem) (d : Nat) (ps : List Nat) : State :=
  teamLaunched (dispCounted (passAdvanced { s with ran := [itemQueue i.item] } (itemQueue i.item) (tickets s (itemQueue i.item))) (itemQueue i.item)) i d ps

theorem dispatch_placed (hpool : s.pool = [i]) (hspills : s.spills = []) (hhead : i.head.isSome = true) (hlive : ctxLive s (itemCtx i.item) = true)
    (hlate : itemLate s i.item = false) (hread : i.read.status = 0) (hfits : neverFits s i.item (kdUse i.read.kdesc) = false)
    (hopen : queueBlocked s (itemQueue i.item) = false) (hplace : placeItem s (itemQueue i.item) i.item (kdUse i.read.kdesc) = some [(d, ps)])
    (hone : itemTeams i.item = 1) (hps : ps.Nodup) (hran : itemQueue i.item ∈ s.ran) :
    exec .dispatch s = .next { yielded (syncDepth { placed s i d ps with pool := [] } (itemQueue i.item)) (itemQueue i.item) with ran := [] } := by
  have hrun : runnable s (itemQueue i.item) = true := by
    unfold runnable
    rw [queueHead_one hpool]
    dsimp only
    rw [hlive, hopen, hplace]
    simp
  have hwake : wake s [itemQueue i.item] = s := if_pos (List.contains_iff_mem.mpr hran)
  obtain ⟨w, hw⟩ : ∃ w : State, w = { s with ran := [itemQueue i.item] } := ⟨_, rfl⟩
  have hwpool : w.pool = [i] := by rw [hw]; exact hpool
  have hwopen : queueBlocked w (itemQueue i.item) = false := by rw [hw]; exact hopen
  have hwtickets : tickets w (itemQueue i.item) = tickets s (itemQueue i.item) := by rw [hw]; rfl
  obtain ⟨x, hx⟩ : ∃ x, x = dispCounted (passAdvanced w (itemQueue i.item) (tickets s (itemQueue i.item))) (itemQueue i.item) := ⟨_, rfl⟩
  obtain ⟨scal, die, mem, hrest⟩ := advanced_rest w (itemQueue i.item) (tickets s (itemQueue i.item))
  rw [← hx] at hrest
  have hxpool : (teamFormed x i d ps).pool = [i] := by
    show x.pool = _
    rw [hrest]
    exact hwpool
  have hxspills : (teamFormed x i d ps).spills = [] := by
    show x.spills = _
    rw [hrest, hw]
    exact hspills
  have hkept := (launchTasks_spec x.teamNo (itemCtx i.item) (itemWord i.item 2) i.read.kdesc hps 0 (teamFormed x i d ps)).1
  have hplaced : placed s i d ps = teamLaunched x i d ps := by rw [placed, hx, hw]
  have hitem := dispatchItem_one (i := i) (d := d) (ps := ps) w ((effTickets_one hwpool hwopen [itemQueue i.item]).trans hwtickets) hone
  rw [← hx, popQueue_one (s := teamLaunched x i d ps) (hkept.pool.trans hxpool) (hkept.spills.trans hxspills), ← hplaced] at hitem
  obtain ⟨v, hv⟩ : ∃ v, v = yielded (syncDepth { placed s i d ps with pool := [] } (itemQueue i.item)) (itemQueue i.item) := ⟨_, rfl⟩
  have hvpool : v.pool = [] := by rw [hv]; rfl
  rw [← hv] at hitem ⊢
  rw [hw] at hitem
  have hchoose := choose_placed (k := 1) (runnables_one hpool hrun) hwake (queueHead_one hpool) hlate hread hfits hplace hitem
  rw [runnables_empty hvpool] at hchoose
  obtain ⟨y, hy⟩ : ∃ y : State, y = { v with ran := [] } := ⟨_, rfl⟩
  have hypool : y.pool = [] := by rw [hy]; exact hvpool
  have hchoose' : choose 2 s = y := by rw [hchoose, hy]; rfl
  rw [dispatch_one hpool hspills hhead, hchoose', askYields_empty hypool, hy]

end

/-! ### The statement -/

theorem queueKey_low (i : BitVec 512) {w : Nat} (hw : w < 4) : queueKey (itemQueue i) w + 8 ≤ 2 ^ 42 := by
  have hq : itemQueue i < 1024 := Nat.mod_lt _ (by decide)
  unfold queueKey winKey
  omega

theorem tm_yielded (s : State) (q n : Nat) : (yielded s q).tm n =
    (s.tm n).map fun x => if x.yieldTo = some q ∧ x.suspended.isSome then { x with yieldTo := none } else x := by
  unfold yielded State.tm
  dsimp only
  rw [List.find?_map, Option.map_map, Option.map_map]
  rfl

/-- PASS of the queue whose work item is placed. -/
theorem queuePass_placed {s : State} {q tk : Nat} {m : Memory} (hkey : queueKey q 1 + 8 ≤ 2 ^ 42)
    (hlow : ∀ a, a < 2 ^ 42 → memGet m a = memGet (dispCounted (passAdvanced s q tk) q).mem a) (v : Nat) :
    rdN (wrN m (queueKey q 2) 8 v) (queueKey q 1) 8 = (queuePass s q + max 1 (2 ^ 20 / tk)) % 2 ^ 64 := by
  have hapart : queueKey q 1 + 8 ≤ queueKey q 2 := Nat.le_refl _
  rw [rdN_wrN_out _ _ _ _ _ _ (.inl hapart), rdN_congr fun o ho => hlow _ (by omega)]
  have hmem : (dispCounted (passAdvanced s q tk) q).mem = wrN (passAdvanced s q tk).mem (queueKey q 2) 8
    ((queueWord (passAdvanced s q tk) q 2 / 2 ^ 32 + 1) % 2 ^ 32 * 2 ^ 32 + queueWord (passAdvanced s q tk) q 2 % 2 ^ 32) := rfl
  have hmem' : (passAdvanced s q tk).mem = wrN s.mem (queueKey q 1) 8 ((queuePass s q + max 1 (2 ^ 20 / tk)) % 2 ^ 64) := rfl
  rw [hmem, rdN_wrN_out _ _ _ _ _ _ (.inl hapart), hmem', rdN_wrN]
  exact Nat.mod_mod _ _

/-- What is seen of a stream at its first instruction. -/
theorem taskScalar_facts (c : Nat) (k : BitVec 1024) (run : Run) :
    ({ taskScalar c k with run := run } : Scalar).reg 62#6 = 0x40_0000#64 ∧ ∀ r, r ≠ 62#6 → ({ taskScalar c k with run := run } : Scalar).reg r = 0#64 := by
  have hregs : ({ taskScalar c k with run := run } : Scalar).regs = [(62, 0x40_0000#64)] := rfl
  refine ⟨by rw [reg_eq, hregs]; rfl, fun r hr => ?_⟩
  have hne : ¬62 = r.toNat := fun e => hr (BitVec.eq_of_toNat_eq e.symm)
  rw [reg_eq, hregs, tget, if_neg hne]
  exact ite_self _

theorem dispatcherChooses : Parts.DispatcherChooses := by
  rintro s i q c hpool hspills hhead rfl rfl hlive
  refine ⟨dispatch_late hpool hspills hhead hlive, fun d ps hlate hread hfits hopen hplace hone hps hran => ?_⟩
  refine ⟨_, dispatch_placed hpool hspills hhead hlive hlate hread hfits hopen hplace hone hps hran, ?_⟩
  obtain ⟨w, hw⟩ : ∃ w : State, w = { s with ran := [itemQueue i.item] } := ⟨_, rfl⟩
  obtain ⟨x, hx⟩ : ∃ x, x = dispCounted (passAdvanced w (itemQueue i.item) (tickets s (itemQueue i.item))) (itemQueue i.item) := ⟨_, rfl⟩
  obtain ⟨hkept, hall⟩ := launchTasks_spec x.teamNo (itemCtx i.item) (itemWord i.item 2) i.read.kdesc hps 0 (teamFormed x i d ps)
  have hplaced : placed s i d ps = launchTasks x.teamNo (itemCtx i.item) (itemWord i.item 2) i.read.kdesc 0 ps (teamFormed x i d ps) := by
    rw [placed, hx, hw, teamLaunched]
  rw [← hplaced] at hkept hall
  generalize placed s i d ps = y at hkept hall
  have hpass : queuePass w (itemQueue i.item) = queuePass s (itemQueue i.item) := by rw [hw]; rfl
  obtain ⟨scal, die, mem, hrest⟩ := advanced_rest w (itemQueue i.item) (tickets s (itemQueue i.item))
  rw [← hx, hpass] at hrest
  have hxno : x.teamNo = s.teamNo := by rw [hrest, hw]
  have hxended : x.ended = s.ended := by rw [hrest, hw]
  have hxvt : x.vt = queuePass s (itemQueue i.item) := by rw [hrest]
  have hteam : y.tm s.teamNo = some (freshTeam i.item i.read.kdesc (itemQueue i.item) d ps none 0) := by
    have h : y.tm s.teamNo = (teamFormed x i d ps).tm s.teamNo := congrArg (fun l => (l.find? fun e => e.1 == s.teamNo).map (·.2)) hkept.team
    rw [h, ← hxno]
    exact (tm_putTm _ x.teamNo x.teamNo _).trans (if_pos rfl)
  have hyielded := tm_yielded (syncDepth { y with pool := [] } (itemQueue i.item)) (itemQueue i.item) s.teamNo
  have hsync : (syncDepth { y with pool := [] } (itemQueue i.item)).tm s.teamNo = y.tm s.teamNo := rfl
  rw [hsync, hteam] at hyielded
  have hlow : ∀ a, a < 2 ^ 42 → memGet y.mem a = memGet x.mem a := hkept.low
  rw [hx] at hlow
  refine ⟨rfl, hkept.ended.trans hxended, hkept.vt.trans hxvt, ?_, (hkept.teamNo.trans (congrArg (· + 1) hxno) :), ⟨_, hyielded, rfl, rfl, rfl, rfl, rfl, rfl, rfl, rfl⟩,
    fun l p hp => ?_⟩
  · rw [← hpass]
    exact queuePass_placed (queueKey_low i.item (by decide)) hlow _
  obtain ⟨htask, hstream⟩ := hall l p hp
  rw [Nat.zero_add, hxno] at htask
  have hstream' : ∃ run, y.sc p = { taskScalar (itemCtx i.item) i.read.kdesc with run := run } ∧ (run = .running ∨ run = .suspended) ∧
      (run = .running ∨ ∃ f ∈ y.faults, f.ctx = BitVec.ofNat 6 (itemCtx i.item)) := by
    rcases hstream with hsc | ⟨hsc, hfault⟩
    · exact ⟨.running, hsc, .inl rfl, .inl rfl⟩
    · exact ⟨.suspended, hsc, .inr rfl, .inr hfault⟩
  obtain ⟨run, hsc, hrun, hfault⟩ := hstream'
  obtain ⟨u, hu⟩ : ∃ u : State, u = { yielded (syncDepth { y with pool := [] } (itemQueue i.item)) (itemQueue i.item) with ran := [] } := ⟨_, rfl⟩
  have husc : u.sc p = { taskScalar (itemCtx i.item) i.read.kdesc with run := run } := by
    have h : u.sc p = (syncDepth { y with pool := [] } (itemQueue i.item)).sc p := by rw [hu]; rfl
    rw [h, syncDepth]
    have hbase : ({ y with pool := [] } : State).sc p = { taskScalar (itemCtx i.item) i.read.kdesc with run := run } := hsc
    rcases sc_put64 { y with pool := [] } _ _ p with h | h
    · exact h.trans hbase
    · rw [h, hbase]
      rcases hrun with rfl | rfl <;> rfl
  have hufaults : u.faults = y.faults := by rw [hu]; rfl
  rw [← hu]
  obtain ⟨h62, h0⟩ := taskScalar_facts (itemCtx i.item) i.read.kdesc run
  rw [husc, hufaults]
  refine ⟨?_, rfl, rfl, h62, h0, hfault⟩
  rw [hu]
  exact htask

end Sys2Proof.Machine
end


section
/-! What an increment of a milestone leaves as it is (R270, R272): the clock, the work items that are to complete, and the run-time state of the contexts. -/
namespace Sys2Proof.Machine
set_option Elab.async false
open Safety

/-- The clock, the work items that are to complete, and the run-time state of the contexts are as they were. -/
structure RunKept (s u : State) : Prop where
  time : u.time = s.time
  ended : u.ended = s.ended
  ctxs : u.ctxs = s.ctxs

theorem RunKept.refl (s : State) : RunKept s s := ⟨rfl, rfl, rfl⟩

theorem RunKept.trans {s u v : State} (h : RunKept s u) (g : RunKept u v) : RunKept s v :=
  ⟨g.time.trans h.time, g.ended.trans h.ended, g.ctxs.trans h.ctxs⟩

theorem runKept_foldl {α : Type} {g : State → α → State} (h : ∀ s a, RunKept s (g s a)) (l : List α) (s : State) : RunKept s (l.foldl g s) := by
  induction l generalizing s with
  | nil => exact RunKept.refl s
  | cons a l ih => exact (h s a).trans (ih _)

theorem runKept_put64 (s : State) (k v : Nat) : RunKept s (s.put64 k v) := ⟨rfl, rfl, rfl⟩

theorem runKept_noteWrite (s : State) (k : Nat) : RunKept s (noteWrite s k) := ⟨rfl, rfl, rfl⟩

theorem runKept_upCo (s : State) (p : Nat) (f : Core → Core) : RunKept s (s.upCo p f) := ⟨rfl, rfl, rfl⟩

theorem runKept_memFault (s : State) (c die core cause detail : Nat) (val : Word) : RunKept s (s.memFault c die core cause detail val) := ⟨rfl, rfl, rfl⟩

theorem runKept_noteRead (s : State) (k : Nat) : RunKept s (noteRead s k) := by
  rw [noteRead_eq]
  exact ⟨rfl, rfl, rfl⟩

theorem runKept_noteXlat (s : State) (req c ea need : Nat) : RunKept s (noteXlat s req c ea need) := by
  rw [noteXlat_eq]
  exact ⟨rfl, rfl, rfl⟩

/-! ### Writes at a home -/

theorem runKept_ask (s : State) (acts : List Act) : RunKept s (s.ask acts) := ⟨rfl, rfl, rfl⟩

theorem runKept_devWrite (s : State) (key n v mask : Nat) : RunKept s (devWrite s key n v mask) := by
  induction n generalizing s key v mask with
  | zero => exact RunKept.refl s
  | succ n ih =>
    unfold devWrite
    dsimp only
    refine RunKept.trans ?_ (ih _ _ _ _)
    split_ifs
    · exact RunKept.refl s
    · exact (runKept_put64 s _ _).trans (runKept_ask _ _)

theorem runKept_keyWrite (s : State) (key n v mask : Nat) : RunKept s (keyWrite s key n v mask) := by
  unfold keyWrite
  dsimp only
  split_ifs
  · exact (runKept_noteWrite s key).trans (runKept_devWrite _ _ _ _ _)
  · exact ⟨rfl, rfl, rfl⟩

theorem runKept_clearEcc (s : State) (key : Nat) : RunKept s (clearEcc s key) := ⟨rfl, rfl, rfl⟩

theorem runKept_devLine (s : State) (req c ea v mask need n : Nat) : RunKept s (devLine s req c ea v mask need n) := by
  induction n generalizing s ea v mask with
  | zero => exact RunKept.refl s
  | succ n ih =>
    unfold devLine
    dsimp only
    refine RunKept.trans ?_ (ih _ _ _ _)
    split
    · exact RunKept.refl s
    · exact runKept_devWrite _ _ _ _ _

/-- What a write at a home leaves as it is, performed or failed. -/
def OutcomeKept (s : State) : Except HomeFail State → Prop
  | .ok u => RunKept s u
  | .error e => RunKept s e.st

theorem OutcomeKept.of_kept {s u : State} {r : Except HomeFail State} (h : RunKept s u) (g : OutcomeKept u r) : OutcomeKept s r := by
  cases r with
  | ok v => exact RunKept.trans h g
  | error e => exact RunKept.trans h g

theorem outcomeKept_homeWrite (s : State) (req c ea n v mask need : Nat) : OutcomeKept s (homeWrite s req c ea n v mask need) := by
  have hx := runKept_noteXlat s req c (ea + firstByte mask 0 64) need
  unfold homeWrite
  dsimp only
  generalize noteXlat s req c (ea + firstByte mask 0 64) need = x at hx
  split
  · exact RunKept.refl s
  · split
    · exact hx
    · split
      · split
        · exact hx
        · exact (hx.trans (runKept_noteWrite _ _)).trans (runKept_devLine _ _ _ _ _ _ _ _)
      · split
        · exact hx
        · split
          · exact hx.trans (runKept_keyWrite _ _ _ _ _)
          · split
            · exact (hx.trans (runKept_keyWrite _ _ _ _ _)).trans (runKept_clearEcc _ _)
            · split
              · exact hx.trans (runKept_noteRead _ _)
              · exact ((hx.trans (runKept_noteRead _ _)).trans (runKept_keyWrite _ _ _ _ _)).trans (runKept_clearEcc _ _)

theorem outcomeKept_globalWrite (req c k ea n v : Nat) (s : State) : OutcomeKept s (globalWrite req c k ea n v s) := by
  induction k generalizing ea n v s with
  | zero => exact RunKept.refl s
  | succ k ih =>
    have hhome := outcomeKept_homeWrite s req c (ea - ea % 64) 64 (v % 2 ^ (8 * min n (64 - ea % 64)) * 2 ^ (8 * (ea % 64)))
      ((2 ^ min n (64 - ea % 64) - 1) * 2 ^ (ea % 64)) 2
    unfold globalWrite
    dsimp only
    split
    · exact RunKept.refl s
    · generalize homeWrite s req c (ea - ea % 64) 64 _ _ 2 = r at hhome
      cases r with
      | error e => exact hhome
      | ok u => exact OutcomeKept.of_kept hhome (ih _ _ _ u)

/-- A store that the device makes for itself, whose failure is a fault at a memory side. -/
theorem runKept_deviceStore (s : State) (req c k ea n v core : Nat) (cause detail : HomeFail → Nat) (val : HomeFail → Word) :
    RunKept s (match globalWrite req c k ea n v s with | .ok s => s | .error e => e.st.memFault c (e.addr / 2 ^ 56) core (cause e) (detail e) (val e)) := by
  have h := outcomeKept_globalWrite req c k ea n v s
  generalize globalWrite req c k ea n v s = r at h
  cases r with
  | ok u => exact h
  | error e => exact RunKept.trans h (runKept_memFault _ _ _ _ _ _ _)

theorem runKept_homeWord (s : State) (c : Nat) (ea : Word) (key v : Nat) : RunKept s (homeWord s c ea key v) := by
  have hr := runKept_noteRead s key
  unfold homeWord
  dsimp only
  generalize noteRead s key = u at hr
  split_ifs
  · exact hr.trans (runKept_memFault _ _ _ _ _ _ _)
  · exact hr.trans ⟨rfl, rfl, rfl⟩

/-! ### Messages and flags of collectives -/

theorem runKept_putConn (s : State) (c n : Nat) (x : ConnRun) : RunKept s (putConn s c n x) := ⟨rfl, rfl, rfl⟩

theorem runKept_openConn (s : State) (c n : Nat) : RunKept s (openConn s c n) :=
  ((runKept_put64 s _ _).trans (runKept_put64 _ _ _)).trans (runKept_putConn _ _ _ _)

theorem runKept_tsSkip (s : State) (c ms idx why : Nat) : RunKept s (tsSkip s c ms idx why) := runKept_put64 _ _ _

theorem runKept_endPart (s : State) (c : Nat) (o : Origin) (st : Nat) : RunKept s (endPart s c o st) := by
  cases o with
  | record p slot => exact ⟨rfl, rfl, rfl⟩
  | trigger m i =>
    unfold endPart
    dsimp only
    split_ifs
    · exact RunKept.refl s
    · exact runKept_tsSkip _ _ _ _ _
  | other => exact RunKept.refl s

theorem runKept_incMs (s : State) (c : Nat) (m : Option Nat) : RunKept s (incMs s c m) := by
  cases m with
  | none => exact RunKept.refl s
  | some k => exact ⟨rfl, rfl, rfl⟩

theorem runKept_messageLeft (s : State) (t : Tx) : RunKept s (messageLeft s t) := by
  unfold messageLeft
  split_ifs
  · split
    · exact (runKept_endPart s _ _ _).trans (runKept_incMs _ _ _)
    · exact RunKept.refl s
  · exact RunKept.refl s

theorem runKept_sendOne (s : State) (t : Tx) : RunKept s (sendOne s t) := by
  unfold sendOne
  dsimp only
  split_ifs
  · exact ⟨rfl, rfl, rfl⟩
  · refine RunKept.trans ?_ (runKept_messageLeft _ _)
    exact ⟨rfl, rfl, rfl⟩

theorem runKept_pump (c n k : Nat) (s : State) : RunKept s (pump c n k s) := by
  induction k generalizing s with
  | zero => exact RunKept.refl s
  | succ k ih =>
    unfold pump
    split
    · exact RunKept.refl s
    · dsimp only
      split_ifs
      · exact (runKept_sendOne s _).trans (ih _)
      · exact RunKept.refl s

theorem runKept_sendMessage (s : State) (m : OutMsg) : RunKept s (sendMessage s m).2 := by
  unfold sendMessage
  dsimp only
  have hopen : RunKept s (if connState s m.ctx m.conn = 0 then openConn s m.ctx m.conn else s) := by
    split_ifs
    · exact runKept_openConn _ _ _
    · exact RunKept.refl s
  generalize (if connState s m.ctx m.conn = 0 then openConn s m.ctx m.conn else s) = u at hopen
  refine hopen.trans (RunKept.trans ?_ (runKept_pump _ _ _ _))
  exact ⟨rfl, rfl, rfl⟩

theorem runKept_flushConn (s : State) (c n : Nat) : RunKept s (flushConn s c n).2 := by
  unfold flushConn
  dsimp only
  exact runKept_sendMessage s _

theorem runKept_flushAll (s : State) (c : Nat) (ns : List Nat) : RunKept s (flushAll s c ns).2 := by
  induction ns generalizing s with
  | nil => exact RunKept.refl s
  | cons n ns ih =>
    unfold flushAll
    exact (runKept_flushConn s c n).trans (ih _)

theorem runKept_queueFlag (s : State) (c i st : Nat) : RunKept s (queueFlag s c i st) := by
  unfold queueFlag
  split_ifs
  · exact RunKept.refl s
  · exact (runKept_flushAll s c _).trans ⟨rfl, rfl, rfl⟩

theorem runKept_writeFlag (s : State) (f : FlagWrite) : RunKept s (writeFlag s f) := by
  have hplain := runKept_deviceStore s 0xFFFF f.ctx 2 (collWord s f.ctx f.entry 1) 8 ((collWord s f.ctx f.entry 3 % 2 ^ 32) * 2 ^ 32 + f.status) 0xFFF
    HomeFail.cause HomeFail.detail (fun e => BitVec.ofNat 64 e.addr)
  unfold writeFlag
  dsimp only
  split
  · split_ifs
    · exact runKept_homeWord _ _ _ _ _
    · exact hplain
  · exact hplain

theorem runKept_settleFlags (s : State) : RunKept s (settleFlags s) := by
  refine RunKept.trans ?_ (runKept_foldl runKept_writeFlag _ _)
  exact ⟨rfl, rfl, rfl⟩

/-! ### Milestones -/

theorem runKept_skipReserved (s : State) (f : Fired) (k : Nat) : RunKept s (skipReserved s f k).1 := by
  induction k generalizing s f with
  | zero => exact RunKept.refl s
  | succ k ih =>
    unfold skipReserved
    split
    · split_ifs
      · exact (runKept_tsSkip s _ _ _ _).trans (ih _ _)
      · exact RunKept.refl s
    · exact RunKept.refl s

theorem runKept_putFired (s : State) (n : Nat) (f : Fired) : RunKept s (putFired s n f) := by
  have h := runKept_skipReserved s f 8
  unfold putFired
  dsimp only
  split_ifs
  · exact h.trans ⟨rfl, rfl, rfl⟩
  · exact h.trans ⟨rfl, rfl, rfl⟩

theorem runKept_fire (s : State) (c m : Nat) : RunKept s (fire s c m) := by
  have hlist (f : Fired) : RunKept s (if ctxLive s c then putFired { s with fired := s.fired ++ [f] } s.fired.length f else s) := by
    split_ifs
    · refine RunKept.trans ?_ (runKept_putFired _ _ _)
      exact ⟨rfl, rfl, rfl⟩
    · exact RunKept.refl s
  have hfold (u : State) (es : List Nat) : RunKept u (es.foldl (fun s i =>
      queueFlag (s.put64 (cwinKey c (0x1B30_0000 + 64 * i)) (takeBits (collWord s c i 0) (2 * 2 ^ 61) 62 61)) c i 1) u) :=
    runKept_foldl (fun s i => (runKept_put64 s _ _).trans (runKept_queueFlag _ _ _ _)) es u
  have hlist := hlist { ctx := c, ms := m, idx := 0, ops := opList (rdN s.mem (winKey (64 * m)) 64) }
  unfold fire
  dsimp only
  generalize (if ctxLive s c then putFired { s with fired := s.fired ++ [{ ctx := c, ms := m, idx := 0, ops := opList (rdN s.mem (winKey (64 * m)) 64) }] }
    s.fired.length { ctx := c, ms := m, idx := 0, ops := opList (rdN s.mem (winKey (64 * m)) 64) } else s) = u at hlist ⊢
  refine hlist.trans ?_
  split_ifs
  · exact hfold u _
  · exact (hfold u _).trans (runKept_settleFlags _)

theorem runKept_increment (s : State) (c m v : Nat) : RunKept s (increment s c m v) := by
  unfold increment
  dsimp only
  split_ifs
  · exact RunKept.refl s
  · exact ((runKept_noteWrite s _).trans (runKept_put64 _ _ _)).trans (runKept_fire _ _ _)
  · exact (runKept_noteWrite s _).trans (runKept_put64 _ _ _)

end Sys2Proof.Machine
end


section
/-! WORK_ITEM_COMPLETE (R282, R283, R404). -/
namespace Sys2Proof.Machine
set_option Elab.async false
open Safety

section
variable {s : State} {k st : Nat} {w : BitVec 512}

theorem exec_workItemComplete_gone (hw : s.ended[k]? = some (w, st)) (hadm : admits s (itemCtx w) = false) :
    exec (.workItemComplete k) s = .next { s with ended := s.ended.eraseIdx k } := by
  rw [exec_workItemComplete, execWorkItemComplete, hw]
  dsimp only
  rw [hadm, Bool.not_false, if_pos rfl]

theorem exec_workItemComplete_plain (hw : s.ended[k]? = some (w, st)) (hst : st < 256) (hadm : admits s (itemCtx w) = true) (hcb : wantsCallback w st = false)
    {u : State} (hu : completeItem s w st = u) : exec (.workItemComplete k) s = .next { u with ended := u.ended.eraseIdx k } := by
  rw [exec_workItemComplete, execWorkItemComplete, hw]
  dsimp only
  rw [hadm, Bool.not_true, if_neg Bool.false_ne_true, if_neg (Nat.not_le_of_lt hst), Nat.mod_eq_of_lt hst, hcb, Bool.not_false, if_pos rfl, hu]

theorem exec_workItemComplete_callback (hw : s.ended[k]? = some (w, st)) (hst : st < 256) (hadm : admits s (itemCtx w) = true) (hcb : wantsCallback w st = true)
    {u v : State} (hu : completeItem s w st = u) (hv : raiseEvent u (itemCtx w) 3 (callbackWord w st) = some v) :
    exec (.workItemComplete k) s = .next { v with ended := v.ended.eraseIdx k } := by
  rw [exec_workItemComplete, execWorkItemComplete, hw]
  dsimp only
  rw [hadm, Bool.not_true, if_neg Bool.false_ne_true, if_neg (Nat.not_le_of_lt hst), Nat.mod_eq_of_lt hst, hcb, Bool.not_true, if_neg Bool.false_ne_true, hu, hv]

/-- The package once the completion milestone of a work item, if it has one, has counted. -/
def counted (s : State) (w : BitVec 512) : State := match itemCms w with | some m => increment s (itemCtx w) m 1 | none => s

/-- The completion of a work item that names no status word: its milestone. -/
theorem completeItem_plain (hea : itemWord w 5 = 0) (st : Nat) : completeItem s w st = counted s w := by
  have hstore : storeStatusWord s w st = s := if_pos hea
  unfold completeItem counted
  cases itemCms w <;> simp only [hstore]

theorem runKept_counted (s : State) (w : BitVec 512) : RunKept s (counted s w) := by
  unfold counted
  cases itemCms w with
  | none => exact RunKept.refl s
  | some m => exact runKept_increment s (itemCtx w) m 1

/-! ### The callback -/

/-- The callback that a work item asks for. -/
def callbackEvent (s : State) (w : BitVec 512) (st : Nat) : Ev :=
  { kind := 3, arg := callbackWord w st, tag := 0, len := 0, ptime := s.ns, fctx := 0, data := 0, asker := none }

theorem raiseEvent_queued {u : State} {c kind : Nat} (arg : Word) (hentry : handlerEntry u c kind ≠ 0#64) (hroom : eventRoom u c kind = true) :
    raiseEvent u c kind arg = some (u.putCx c { u.cx c with events := (u.cx c).events ++
      [{ kind := kind, arg := arg, tag := 0, len := 0, ptime := u.ns, fctx := 0, data := 0, asker := none }] }) := by
  unfold raiseEvent
  rw [if_neg hentry, hroom, Bool.not_true, if_neg Bool.false_ne_true]
  rfl

theorem callbackWord_toNat (hst : st < 256) : (callbackWord w st).toNat = bitsOf (itemWord w 4) 63 32 * 2 ^ 32 + st * 2 ^ 24 + itemQueue w := by
  have h1 : bitsOf (itemWord w 4) 63 32 < 2 ^ 32 := Nat.mod_lt _ (by decide)
  have h2 : itemQueue w < 2 ^ 10 := Nat.mod_lt _ (by decide)
  unfold callbackWord
  rw [BitVec.toNat_ofNat, Nat.mod_eq_of_lt hst, Nat.mod_eq_of_lt]
  omega

/-! ### The status word -/

theorem gateOpen_of_admits {c : Nat} (h : admits s c = true) : gateOpen s c = true := by
  unfold admits at h
  rw [Bool.and_eq_true, Bool.or_eq_true, beq_iff_eq, beq_iff_eq] at h
  obtain ⟨hstate, hclosed⟩ := h
  have hkey : ctxState s c = bitsOf (rdN s.mem (winKey (0x2200_0000 + 128 * c)) 8) 63 61 := rfl
  unfold gateOpen
  rw [← hkey, hclosed]
  rcases hstate with h | h <;> rw [h] <;> rfl

/-- The status word is stored at a home that is ordinary memory. -/
theorem storeStatusWord_stored (hst : st < 256) {key : Nat} (hadm : admits s (itemCtx w) = true) (hea : itemWord w 5 ≠ 0) (hal : itemWord w 5 % 8 = 0)
    (hecc : s.ecc = []) (hkey : resolve s 0xFFFF (itemCtx w) (itemWord w 5) 2 = .ok key) (hdev : isDevice key = false)
    (hline : key % 64 = itemWord w 5 % 64) (hobj : isObjHome s key = false) : ∃ u, storeStatusWord s w st = u ∧
      u = { s with mem := u.mem, scal := u.scal, die := u.die, ecc := u.ecc } ∧ (∀ a, WatchOnly (s.sc a) (u.sc a)) ∧
      rdN u.mem key 8 = s.ns % 2 ^ 56 * 256 + st ∧ ∀ x, x < key ∨ key + 8 ≤ x → memGet u.mem x = memGet s.mem x := by
  have hv : s.ns % 2 ^ 56 * 256 + st < 256 ^ 8 := by
    have := Nat.mod_lt s.ns (show 0 < 2 ^ 56 by decide)
    omega
  have hin : itemWord w 5 % 64 + 8 ≤ 64 := by omega
  obtain ⟨v, hvdef⟩ : ∃ v, v = s.ns % 2 ^ 56 * 256 + st := ⟨_, rfl⟩
  rw [← hvdef] at hv ⊢
  obtain ⟨u, hwrite, hrest, hwatch, hmem⟩ := homeWrite_run (req := 0xFFFF) hecc (gateOpen_of_admits hadm) hkey hdev hline hobj (by decide : 0 < 8) hin (v % 2 ^ (8 * 8))
  have hglobal : globalWrite 0xFFFF (itemCtx w) 2 (itemWord w 5) 8 v s = .ok u := by
    have hmin : min 8 (64 - itemWord w 5 % 64) = 8 := by omega
    unfold globalWrite
    dsimp only
    rw [if_neg (by decide), hmin, hwrite]
    dsimp only
    unfold globalWrite
    rw [if_pos rfl]
  refine ⟨u, ?_, hrest, hwatch, ?_, fun x hx => ?_⟩
  · unfold storeStatusWord
    dsimp only
    rw [if_neg hea, Nat.mod_eq_of_lt hst, ← hvdef, hglobal]
  · have hbytes : rdN u.mem key 8 = rdN (wrN s.mem key 8 v) key 8 := by
      refine rdN_congr fun i hi => ?_
      rw [hmem, if_pos ⟨Nat.le_add_right _ _, Nat.add_lt_add_left hi _⟩, Nat.add_sub_cancel_left, memGet_wrN_in _ _ _ _ _ hi,
        Nat.mod_eq_of_lt (show v < 2 ^ (8 * 8) from hv)]
    rw [hbytes, rdN_wrN, Nat.mod_eq_of_lt hv]
  · rw [hmem, if_neg (by omega)]

/-- A milestone's COUNT lies apart from a word of ordinary memory. -/
theorem msKey_apart {m key : Nat} (hm : m < 524288) (hdev : isDevice key = false) (h8 : key % 8 = 0) : key + 8 ≤ msKey m ∨ msKey m + 16 ≤ key := by
  unfold isDevice winKey spKey ctlKey at hdev
  unfold msKey winKey
  simp only [Bool.or_eq_false_iff, Bool.and_eq_false_iff, decide_eq_false_iff_not] at hdev
  omega

/-- An increment that does not fire. -/
theorem increment_quiet {u : State} {c m : Nat} (hown : allotted u c .milestone m = true)
    (hquiet : ¬(rdN u.mem (msKey m) 8 < rdN u.mem (msKey m + 8) 8 ∧ rdN u.mem (msKey m + 8) 8 ≤ (rdN u.mem (msKey m) 8 + 1) % 2 ^ 64)) :
    increment u c m 1 = (noteWrite u (msKey m)).put64 (msKey m) ((rdN u.mem (msKey m) 8 + 1) % 2 ^ 64) := by
  unfold increment
  rw [hown, Bool.not_true, if_neg Bool.false_ne_true]
  exact if_neg hquiet

end

theorem workItemCompletions : Parts.WorkItemCompletions := by
  rintro s k w st c u hw hst rfl hu
  refine ⟨fun hadm => ⟨_, exec_workItemComplete_gone hw hadm, rfl⟩, fun hadm hea => ?_, fun key hadm hcb hea hal hecc hkey hdev hline hobj hms => ?_⟩
  · have hcounted : u = counted s w := by
      rw [hu]
      unfold counted
      cases itemCms w <;> rfl
    have hkept := runKept_counted s w
    have hdone := completeItem_plain (s := s) hea st
    rw [← hcounted] at hkept hdone
    refine ⟨fun hcb => ⟨_, exec_workItemComplete_plain hw hst hadm hcb hdone, by rw [hkept.ended]⟩, fun hcb hentry hroom => ?_⟩
    refine ⟨_, exec_workItemComplete_callback hw hst hadm hcb hdone (raiseEvent_queued _ hentry hroom), ?_, callbackEvent u w st, ?_, rfl, ?_, callbackWord_toNat hst⟩
    · show ({ u with ended := u.ended.eraseIdx k, ctxs := _ } : State) = _
      rw [hkept.ended]
    · have hcx : u.cx (itemCtx w) = s.cx (itemCtx w) := congrArg (tget · (itemCtx w) CtxRun.reset) hkept.ctxs
      refine (congrArg CtxRun.events ((cx_putCx u (itemCtx w) (itemCtx w) _).trans (if_pos rfl))).trans ?_
      show (u.cx (itemCtx w)).events ++ _ = _
      rw [hcx]
      rfl
    · show u.ns = s.ns
      unfold State.ns
      rw [hkept.time]
  · obtain ⟨u, hstore, hrest, hwatch, hword, hmem⟩ := storeStatusWord_stored hst hadm hea hal hecc hkey hdev hline hobj
    have hincs : u.incs = s.incs := by rw [hrest]
    have hfired : u.fired = s.fired := by rw [hrest]
    have hended : u.ended = s.ended := by rw [hrest]
    have hown (c m : Nat) : allotted u c .milestone m = allotted s c .milestone m := by rw [hrest]; rfl
    have hregs (a : Nat) : (u.sc a).reg = (s.sc a).reg := by
      have h := hwatch a
      unfold WatchOnly at h
      rw [h]
      rfl
    have h8 : key % 8 = 0 := by omega
    cases hcms : itemCms w with
    | none =>
      have hdone : completeItem s w st = u := by
        unfold completeItem
        dsimp only
        rw [hstore, hcms]
      exact ⟨_, exec_workItemComplete_plain hw hst hadm hcb hdone, hword, fun m hm => (nomatch hm), fun a ha _ => hmem a ha, hregs,
        congrArg (·.eraseIdx k) hended, hincs, hfired⟩
    | some m =>
      obtain ⟨hm, hallot, hquiet⟩ := hms m hcms
      have hapart := msKey_apart hm hdev h8
      have hcount : rdN u.mem (msKey m) 8 = rdN s.mem (msKey m) 8 := rdN_congr fun i hi => hmem _ (by omega)
      have hthresh : rdN u.mem (msKey m + 8) 8 = rdN s.mem (msKey m + 8) 8 := rdN_congr fun i hi => hmem _ (by omega)
      have hinc := increment_quiet (u := u) ((hown (itemCtx w) m).trans hallot) (by rw [hcount, hthresh]; exact hquiet)
      rw [hcount] at hinc
      have hdone : completeItem s w st = (noteWrite u (msKey m)).put64 (msKey m) ((rdN s.mem (msKey m) 8 + 1) % 2 ^ 64) := by
        unfold completeItem
        dsimp only
        rw [hstore, hcms]
        exact hinc
      obtain ⟨v, hv⟩ : ∃ v, v = (noteWrite u (msKey m)).put64 (msKey m) ((rdN s.mem (msKey m) 8 + 1) % 2 ^ 64) := ⟨_, rfl⟩
      have hvmem : v.mem = wrN u.mem (msKey m) 8 ((rdN s.mem (msKey m) 8 + 1) % 2 ^ 64) := by rw [hv]; rfl
      have hvended : v.ended = s.ended := by rw [hv]; exact hended
      have hvincs : v.incs = s.incs := by rw [hv]; exact hincs
      have hvfired : v.fired = s.fired := by rw [hv]; exact hfired
      have hvregs (a : Nat) : (v.sc a).reg = (s.sc a).reg := by
        rw [hv, ← hregs a]
        funext r
        rw [reg_eq, reg_eq, regs_put64, regs_noteWrite]
      rw [← hv] at hdone
      refine ⟨_, exec_workItemComplete_plain hw hst hadm hcb hdone, ?_, fun m' hm' => ?_, fun a ha hout => ?_, hvregs, congrArg (·.eraseIdx k) hvended, hvincs, hvfired⟩
      · show rdN v.mem key 8 = _
        rw [hvmem, rdN_wrN_out _ _ _ _ _ _ (by omega), hword]
      · obtain rfl := Option.some.inj hm'
        show rdN v.mem (msKey m) 8 = _
        rw [hvmem, rdN_wrN]
        exact Nat.mod_mod _ _
      · show memGet v.mem a = _
        rw [hvmem, memGet_wrN_out _ _ _ _ _ (hout m rfl), hmem a ha]

/-- Settles O44: a completion stores its status, counts in its milestone and queues its callback, and the dispatcher discards or places the only work item. -/
theorem workItems : Obligations.WorkItems := by
  unfold Obligations.WorkItems
  exact ⟨workItemCompletions, dispatcherChooses⟩

end Sys2Proof.Machine
end
